-- ==== Sys2Proof/Word.lean ====
section
/-! DEFINITION. The words of the machine: 32-bit parameter words (R49), 64-bit layout words (R31, R238), bytes, and their plainest
arithmetic. -/

namespace Sys2Proof

/-- A byte of memory, of a record or of a packet. -/
abbrev Byte := BitVec 8

/-- A 32-bit parameter word or parameter value (R49). -/
abbrev Word := BitVec 32

/-- A 64-bit layout word (R31, R238) or an absolute time in ns. -/
abbrev W64 := BitVec 64

/-- A natural number held in a 32-bit word, saturating at 0xFFFF_FFFF. -/
def satWord (n : Nat) : Word := BitVec.ofNat 32 (min n 0xFFFFFFFF)

/-- The bits [hi:lo] of a number (R7). -/
def bits (n hi lo : Nat) : Nat := n / 2 ^ lo % 2 ^ (hi + 1 - lo)

/-- Bit i of a number is 1 (R7). -/
def bitOf (n i : Nat) : Bool := n / 2 ^ i % 2 == 1

/-- A truth value as a bit. -/
def b2n (b : Bool) : Nat := if b then 1 else 0

/-- The low and the high word of a 64-bit quantity (R49). -/
def lo32 (n : Nat) : Word := BitVec.ofNat 32 n
def hi32 (n : Nat) : Word := BitVec.ofNat 32 (n / 4294967296)

/-- A two's complement reading of the low `w` bits of a number. -/
def signed (w n : Nat) : Int := if 2 ^ (w - 1) ≤ n % 2 ^ w then (n % 2 ^ w : Nat) - (2 ^ w : Nat) else ((n % 2 ^ w : Nat) : Int)

/-- The ceiling of a quotient. -/
def ceilDiv (a b : Nat) : Nat := (a + b - 1) / b

/-- A number limited to a range. -/
def clampInt (lo hi x : Int) : Int := max lo (min hi x)

end Sys2Proof
end

