-- ==== Sys2Proof/Syntax.lean ====
section
/-! DEFINITION. The commands of the block: one constructor of `Instr` for each row of spec/opcode_table.json.  A host command carries its
packet header and its parameter words (R31); an event carries the instant it comes about, in 1/4096 ns of node time, and what it brings
from outside. -/

namespace Sys2Proof

/-- Where a command packet reached the node: port W, port E, or the node's own host in the portal role (R43, R368). -/
inductive Arrival where
  | west
  | east
  | host
  deriving DecidableEq, Repr

/-- The command header of Table 2-1 (R31) with what the frame and the receipt add: the receipt instant (R37), the issuing portal, AUTH of the
frame (R475), the port, the packet's CRC-32C (R39) and the LENGTH field. -/
structure Hdr where
  at_ : Nat
  issuer : BitVec 12
  auth : Bool
  arrival : Arrival
  target : BitVec 12
  tag : BitVec 16
  bcast : Bool
  priv : Bool
  sched : Bool
  reserved : BitVec 9
  length : BitVec 16
  timeTag : BitVec 64
  crc : Word
  deriving DecidableEq, Repr

/-- A control item a concentrator die sends to a front-end die (R17): what it asks for, as the parameter or output it sets and the value. -/
structure FeItem where
  target : Nat
  value : Word
  deriving DecidableEq, Repr

/-- A frame as it arrives whole on a ring port (R352, Tables 11-5 and 11-6): the SOF and EOF fields, the payload bytes, and whether an error
block or a reserved field other than 0 stood in it. -/
structure RxFrame where
  hseq : BitVec 16
  ftype : BitVec 4
  origin : BitVec 12
  dest : BitVec 12
  prio : BitVec 2
  turned : Bool
  auth : Bool
  payload : List Byte
  hcrc : Word
  abort : Bool
  error : Bool
  deriving DecidableEq, Repr

/-- What a master asks of a memory (R289, R292): data, an instruction, a write, or an atomic operation. -/
inductive SramKind where
  | read
  | fetch
  | write
  | add
  | swap
  deriving DecidableEq, Repr

/-- What an access asks: the port of a dual-port bank, the address (the management processor's of Table 15-1 for masters 6 and 7, else a byte address
of the SRAM), log2 of the size in bytes, the further words of a burst, and the words written. -/
structure SramRequest where
  portB : Bool := false
  address : BitVec 64
  kind : SramKind
  size : Fin 4 := 3
  burst : Fin 8 := 0
  data : List (BitVec 64) := []
  deriving DecidableEq, Repr

/-- An access of a master of Table 9-6, with the DMA channel. -/
structure SramAccess extends SramRequest where
  master : Fin 10
  channel : Fin 8 := 0
  deriving DecidableEq, Repr

/-- A clamp detector of an input: one at each of its two pins (R92). -/
structure Detector where
  input : Fin 512
  pin : Fin 2
  deriving DecidableEq, Repr

/-- The content of an ACK block (Table 11-8). -/
structure AckBlock where
  ackSeq : BitVec 16
  nak : Bool
  xoff : BitVec 4
  deriving DecidableEq, Repr

/-- The content of a TIME block (Table 6-5, Table 11-2); the two fine times are in 1/4096 ns. -/
structure TimeBlock where
  seq : BitVec 8
  rxSeq : BitVec 8
  avail : Bool
  srcKind : BitVec 2
  quality : BitVec 2
  hops : BitVec 12
  uncert : Word
  delta : BitVec 48
  txPrev : BitVec 76
  rxStamp : BitVec 76
  deriving DecidableEq, Repr

/-- A 66-bit block (R348): its sync header and its payload before scrambling. -/
structure LineBlock where
  sync : BitVec 2
  payload : BitVec 64
  deriving DecidableEq, Repr

/-- A received codeword (R315, R316): its 2,720 levels with the one before them, and whether the far transmitter precodes; what the local clock draws
from the port's elastic buffer while it comes in, in blocks (R326); and the lane's skew in ps (R322). -/
structure RxCodeword where
  before : BitVec 2
  levels : List (BitVec 2)
  precoded : Bool
  drawn : Nat
  skewPs : Nat
  deriving DecidableEq, Repr

/-- A received ordered-set slot (R319, R320): its SYNC, KIND and three words, with CWC of its period. -/
structure RxSlot where
  sync : BitVec 16
  kind : BitVec 8
  word1 : BitVec 24
  word2 : BitVec 24
  word3 : BitVec 24
  cwc : BitVec 16
  deriving DecidableEq, Repr

/-- What one temperature or voltage sensor converts to: a reading, or a failed self-check (R480). -/
abbrev Reading := Option Int

/-- What a calibration point finds of a source or an input beside its conversions (R427, R428): the voltages over the 400 Ω reference resistor, forward
and reversed, in nV; the hits of the 64 taps, the errors of the 16 delay edges in 1/4096 ns, and the trim the search ends at. -/
structure CalFinding where
  unit : Nat
  forward : Int
  reverse : Int
  hits : List Nat
  delays : List Int
  trim : Int
  deriving DecidableEq, Repr

/-- What the periodic check finds of an input (R437): when its test edges began, in 1/4096 ns, and the errors of its 16 intervals in 1/4096 ns. -/
structure CheckFinding where
  input : Fin 512
  start : Nat
  errors : List Int
  deriving DecidableEq, Repr

/-- The commands: the 67 host commands and the 183 events of spec/opcode_table.json, in the table's order. -/
inductive Instr where
  /-- NOP (R48). -/
  | nop (h : Hdr) (p : List Word)
  /-- IDENT (R48). -/
  | ident (h : Hdr) (p : List Word)
  /-- RESET (R494). -/
  | reset (h : Hdr) (p : List Word)
  /-- SNAP_TAKE (R64). -/
  | snapTake (h : Hdr) (p : List Word)
  /-- SNAP_READ (R66). -/
  | snapRead (h : Hdr) (p : List Word)
  /-- CANCEL (R47). -/
  | cancel (h : Hdr) (p : List Word)
  /-- NODE_SETID_BY_ID (R368). -/
  | nodeSetidById (h : Hdr) (p : List Word)
  /-- NODE_SETID_SEQUENCE (R368). -/
  | nodeSetidSequence (h : Hdr) (p : List Word)
  /-- NODE_SETID_BY_POSITION (R368). -/
  | nodeSetidByPosition (h : Hdr) (p : List Word)
  /-- ALM_ACK (R445). -/
  | almAck (h : Hdr) (p : List Word)
  /-- PAR_READ (R50). -/
  | parRead (h : Hdr) (p : List Word)
  /-- PAR_WRITE (R51). -/
  | parWrite (h : Hdr) (p : List Word)
  /-- PAR_STAGED (R53). -/
  | parStaged (h : Hdr) (p : List Word)
  /-- EPOCH_COMMIT (R57). -/
  | epochCommit (h : Hdr) (p : List Word)
  /-- EPOCH_ABORT (R61). -/
  | epochAbort (h : Hdr) (p : List Word)
  /-- EPOCH_STATUS (R62). -/
  | epochStatus (h : Hdr) (p : List Word)
  /-- ACQ_START (R222). -/
  | acqStart (h : Hdr) (p : List Word)
  /-- ACQ_STOP (R222). -/
  | acqStop (h : Hdr) (p : List Word)
  /-- ACQ_FORCE (R212). -/
  | acqForce (h : Hdr) (p : List Word)
  /-- ACQ_REARM (R222). -/
  | acqRearm (h : Hdr) (p : List Word)
  /-- ACQ_FETCH (R376). -/
  | acqFetch (h : Hdr) (p : List Word)
  /-- CAL_RUN (R422). -/
  | calRun (h : Hdr) (p : List Word)
  /-- CAL_ABORT (R431). -/
  | calAbort (h : Hdr) (p : List Word)
  /-- CAL_SHUNT (R432). -/
  | calShunt (h : Hdr) (p : List Word)
  /-- CAL_READ (R436). -/
  | calRead (h : Hdr) (p : List Word)
  /-- TB_READ (R191). -/
  | tbRead (h : Hdr) (p : List Word)
  /-- TB_DOMAIN (R192). -/
  | tbDomain (h : Hdr) (p : List Word)
  /-- TB_ASYM_SET (R193). -/
  | tbAsymSet (h : Hdr) (p : List Word)
  /-- TB_ASYM_MEASURE (R193). -/
  | tbAsymMeasure (h : Hdr) (p : List Word)
  /-- TB_ASYM_CLEAR (R193). -/
  | tbAsymClear (h : Hdr) (p : List Word)
  /-- TB_JUMP_PERMIT (R194). -/
  | tbJumpPermit (h : Hdr) (p : List Word)
  /-- TB_JUMP_SET (R194). -/
  | tbJumpSet (h : Hdr) (p : List Word)
  /-- TPO_ARM (R155). -/
  | tpoArm (h : Hdr) (p : List Word)
  /-- TPO_DISARM (R156). -/
  | tpoDisarm (h : Hdr) (p : List Word)
  /-- MEM_PLOT_NEW (R277). -/
  | memPlotNew (h : Hdr) (p : List Word)
  /-- MEM_PLOT_FREE (R278). -/
  | memPlotFree (h : Hdr) (p : List Word)
  /-- MEM_PLOT_LIST (R278). -/
  | memPlotList (h : Hdr) (p : List Word)
  /-- MEM_READ (R301). -/
  | memRead (h : Hdr) (p : List Word)
  /-- MEM_TEST_STOP (R303). -/
  | memTestStop (h : Hdr) (p : List Word)
  /-- MEM_TEST_CONTINUOUS (R303). -/
  | memTestContinuous (h : Hdr) (p : List Word)
  /-- MEM_TEST_ONE_LAP (R303). -/
  | memTestOneLap (h : Hdr) (p : List Word)
  /-- RED_STATUS (R420). -/
  | redStatus (h : Hdr) (p : List Word)
  /-- RED_SWITCH_MOVE (R409). -/
  | redSwitchMove (h : Hdr) (p : List Word)
  /-- RED_SWITCH_RELEASE (R409). -/
  | redSwitchRelease (h : Hdr) (p : List Word)
  /-- RED_SELFTEST (R412). -/
  | redSelftest (h : Hdr) (p : List Word)
  /-- LNK_STATUS (R343). -/
  | lnkStatus (h : Hdr) (p : List Word)
  /-- LNK_EYESCAN_HEALTH (R336). -/
  | lnkEyescanHealth (h : Hdr) (p : List Word)
  /-- LNK_EYESCAN_MAP (R336). -/
  | lnkEyescanMap (h : Hdr) (p : List Word)
  /-- LNK_FALLOW (R338). -/
  | lnkFallow (h : Hdr) (p : List Word)
  /-- LNK_WAKE (R338). -/
  | lnkWake (h : Hdr) (p : List Word)
  /-- LNK_RETRAIN (R338). -/
  | lnkRetrain (h : Hdr) (p : List Word)
  /-- MGT_OPEN_CHALLENGE (R474). -/
  | mgtOpenChallenge (h : Hdr) (p : List Word)
  /-- MGT_OPEN_RESPONSE (R474). -/
  | mgtOpenResponse (h : Hdr) (p : List Word)
  /-- MGT_CLOSE (R475). -/
  | mgtClose (h : Hdr) (p : List Word)
  /-- MGT_LOG (R482). -/
  | mgtLog (h : Hdr) (p : List Word)
  /-- MGT_CNT_READ (R483). -/
  | mgtCntRead (h : Hdr) (p : List Word)
  /-- MGT_CNT_SELECT (R483). -/
  | mgtCntSelect (h : Hdr) (p : List Word)
  /-- MGT_CNT_CLEAR (R483). -/
  | mgtCntClear (h : Hdr) (p : List Word)
  /-- MGT_FW_WRITE (R472). -/
  | mgtFwWrite (h : Hdr) (p : List Word)
  /-- MGT_FW_COMMIT_COMMIT (R473). -/
  | mgtFwCommitCommit (h : Hdr) (p : List Word)
  /-- MGT_FW_COMMIT_CONFIRM (R473). -/
  | mgtFwCommitConfirm (h : Hdr) (p : List Word)
  /-- MGT_FW_COMMIT_KEYS (R476). -/
  | mgtFwCommitKeys (h : Hdr) (p : List Word)
  /-- ATTEST_MEASURE (R479). -/
  | attestMeasure (h : Hdr) (p : List Word)
  /-- ATTEST_CERT (R479). -/
  | attestCert (h : Hdr) (p : List Word)
  /-- TST_LOOP (R342). -/
  | tstLoop (h : Hdr) (p : List Word)
  /-- TST_INJECT (R415). -/
  | tstInject (h : Hdr) (p : List Word)
  /-- TST_CHECKBIT (R306). -/
  | tstCheckbit (h : Hdr) (p : List Word)
  /-- COMMAND_RECEIPT (R34). -/
  | commandReceipt (t : Nat)
  /-- REPLY_RETENTION_EXPIRY (R40). -/
  | replyRetentionExpiry (t : Nat)
  /-- SCHEDULED_COMMAND_ACT (R44). -/
  | scheduledCommandAct (t : Nat)
  /-- EPOCH_COMMIT_INSTANT (R58). -/
  | epochCommitInstant (t : Nat)
  /-- DEFERRED_COMMIT_APPLY (R60). -/
  | deferredCommitApply (t : Nat)
  /-- SNAP_LATCH (R29). -/
  | snapLatch (t : Nat)
  /-- SLOT_BOUNDARY (R22). -/
  | slotBoundary (t : Nat)
  /-- SLOT_PROCESS (R22). -/
  | slotProcess (t : Nat) (die : Fin 2)
  /-- SLOT_MARKER_TIMEOUT (R23). -/
  | slotMarkerTimeout (t : Nat) (die : Fin 2)
  /-- FLIT_RECEIVE (R22). -/
  | flitReceive (t : Nat) (die : Fin 2) (source : Fin 5) (items : Nat) (crcGood : Bool)
  /-- FE_CONTROL_ITEM (R17). -/
  | feControlItem (t : Nat) (fe : Fin 4) (die : Fin 2) (item : FeItem)
  /-- FE_CONTROL_HOLD_TIMEOUT (R411). -/
  | feControlHoldTimeout (t : Nat) (fe : Fin 4)
  /-- CONVERSION_END (R113). -/
  | conversionEnd (t : Nat) (group : Fin 128) (raw : BitVec 12) (checkFails pulse : Bool)
  /-- REF_MONITOR_FAULT (R123). -/
  | refMonitorFault (t : Nat) (group : Fin 128)
  /-- WB_CONFIRMATION_END (R94). -/
  | wbConfirmationEnd (t : Nat) (input : Fin 512) (beyond : Bool)
  /-- GROUP_S0_REACHED (R119). -/
  | groupS0Reached (t : Nat) (group : Fin 128)
  /-- STL_WORD_ISSUE (R124). -/
  | stlWordIssue (t : Nat) (input : Fin 512)
  /-- REVERSAL_INSTANT (R82). -/
  | reversalInstant (t : Nat) (source : Fin 64)
  /-- QRESET_CLOSE (R75). -/
  | qresetClose (t : Nat) (input : Fin 512)
  /-- QRESET_OPEN (R76). -/
  | qresetOpen (t : Nat) (input : Fin 512)
  /-- EXC_COMPLIANCE_CHANGE (R81). -/
  | excComplianceChange (t : Nat) (source : Fin 64) (reached : Bool)
  /-- CLAMP_ACTIVATE (R92). -/
  | clampActivate (t : Nat) (detector : Detector) (positive : Bool)
  /-- CLAMP_RELEASE (R92). -/
  | clampRelease (t : Nat) (detector : Detector)
  /-- VAN_LOW_ONSET (R73). -/
  | vanLowOnset (t : Nat) (fe : Fin 4)
  /-- VAN_LOW_END (R73). -/
  | vanLowEnd (t : Nat) (fe : Fin 4)
  /-- VW_SWEEP_START (R102). -/
  | vwSweepStart (t : Nat) (source : Fin 64)
  /-- VW_SWEEP_END (R102). -/
  | vwSweepEnd (t : Nat) (source : Fin 64)
  /-- VW_LISTEN_START (R102). -/
  | vwListenStart (t : Nat) (source : Fin 64)
  /-- VW_LISTEN_END (R102). -/
  | vwListenEnd (t : Nat) (source : Fin 64)
  /-- COMPARATOR_CROSSING (R135). -/
  | comparatorCrossing (t : Nat) (input : Fin 512) (kind : Fin 4)
  /-- EDGE_ACCEPT (R136). -/
  | edgeAccept (t : Nat) (input : Fin 512)
  /-- HOLDOFF_END (R137). -/
  | holdoffEnd (t : Nat) (input : Fin 512)
  /-- STAMP_WORD_COMPLETE (R143). -/
  | stampWordComplete (t : Nat) (input : Fin 512)
  /-- ITV_SET_TIMEOUT (R148). -/
  | itvSetTimeout (t : Nat) (input : Fin 512)
  /-- ITV_DELAY_WINDOW_CLOSE (R147). -/
  | itvDelayWindowClose (t : Nat) (input : Fin 512)
  /-- ITV_RESULT_READY (R151). -/
  | itvResultReady (t : Nat) (input : Fin 512)
  /-- STAMP_ARBITER_STEP (R144). -/
  | stampArbiterStep (t : Nat) (fe : Fin 4)
  /-- TPO_ACTIVE_EDGE (R153). -/
  | tpoActiveEdge (t : Nat) (tpo : Fin 32)
  /-- TPO_INACTIVE_EDGE (R153). -/
  | tpoInactiveEdge (t : Nat) (tpo : Fin 32)
  /-- HIT_COMPLETE (R203). -/
  | hitComplete (t : Nat) (input : Fin 512)
  /-- HIT_ARBITER_STEP (R203). -/
  | hitArbiterStep (t : Nat) (fe : Fin 4)
  /-- SEQ_TIMER_EXPIRY (R208). -/
  | seqTimerExpiry (t : Nat) (q : Fin 32)
  /-- SEQ_AUTO_FIRE (R209). -/
  | seqAutoFire (t : Nat) (q : Fin 32)
  /-- CAPTURE_END (R220). -/
  | captureEnd (t : Nat)
  /-- WINDROW_INTERVAL_END (R229). -/
  | windrowIntervalEnd (t : Nat) (j : Fin 3)
  /-- BLOCK_CODE (R262). -/
  | blockCode (t : Nat) (input : Fin 512) (block : Nat)
  /-- STP_RECORD_AGE_CLOSE (R251). -/
  | stpRecordAgeClose (t : Nat)
  /-- ITV_RECORD_AGE_CLOSE (R252). -/
  | itvRecordAgeClose (t : Nat)
  /-- HSK_LATCH (R254). -/
  | hskLatch (t : Nat)
  /-- BCN_WRAP (R165). -/
  | bcnWrap (t : Nat)
  /-- GLEANER_READ (R298). -/
  | gleanerRead (t : Nat) (die : Fin 2) (granary : Bool)
  /-- REFRESH_DUE (R275). -/
  | refreshDue (t : Nat) (die : Fin 2)
  /-- STACK_TEMP_READ (R275). -/
  | stackTempRead (t : Nat) (die : Fin 2) (milliC : Int)
  /-- SRM_TEST_PACE (R303). -/
  | srmTestPace (t : Nat)
  /-- SRM_TEST_SAVE_DONE (R304). -/
  | srmTestSaveDone (t : Nat)
  /-- SRM_TEST_MARCH_DONE (R304). -/
  | srmTestMarchDone (t : Nat) (faultA faultB : Bool)
  /-- SRM_TEST_RESTORE_DONE (R304). -/
  | srmTestRestoreDone (t : Nat)
  /-- BORROWED_REGION_ACCESS (R305). -/
  | borrowedRegionAccess (t : Nat) (master : Fin 10) (channel : Fin 8) (request : SramRequest)
  /-- TIME_BLOCK_SEND (R176). -/
  | timeBlockSend (t : Nat) (port : Fin 2)
  /-- TIME_BLOCK_RECEIVE (R178). -/
  | timeBlockReceive (t : Nat) (port : Fin 2) (block : TimeBlock)
  /-- DOMAIN_LOSS_TIMEOUT (R184). -/
  | domainLossTimeout (t : Nat)
  /-- TB_LOCK_ACHIEVED (R170). -/
  | tbLockAchieved (t : Nat)
  /-- TB_PHASE_ERROR_EXCEED (R170). -/
  | tbPhaseErrorExceed (t : Nat)
  /-- CORRECTION_REMEASURE (R185). -/
  | correctionRemeasure (t : Nat)
  /-- SLEW_COMPLETE (R168). -/
  | slewComplete (t : Nat)
  /-- TB_STEP (R186). -/
  | tbStep (t : Nat)
  /-- TB_JUMP_SET_APPLY (R194). -/
  | tbJumpSetApply (t : Nat)
  /-- PPSIN_EDGE (R173). -/
  | ppsinEdge (t : Nat)
  /-- PPS_MISSING (R172). -/
  | ppsMissing (t : Nat)
  /-- MODEL_RECORD (R169). -/
  | modelRecord (t : Nat) (milliC : Int)
  /-- MODEL_REFIT (R169). -/
  | modelRefit (t : Nat)
  /-- CODEWORD_TRANSMIT (R321). -/
  | codewordTransmit (t : Nat) (port : Fin 3) (lane : Fin 4)
  /-- CODEWORD_RECEIVE (R316). -/
  | codewordReceive (t : Nat) (lane : Fin 12) (cw : RxCodeword)
  /-- SLOT_RECEIVE (R320). -/
  | slotReceive (t : Nat) (lane : Fin 12) (slot : RxSlot)
  /-- LANE_PLL_LOCKED (R328). -/
  | lanePllLocked (t : Nat) (lane : Fin 12)
  /-- SER_WINDOW_END (R332). -/
  | serWindowEnd (t : Nat) (lane : Fin 12) (centiPpm : Int)
  /-- TRAIN_TIMEOUT (R328). -/
  | trainTimeout (t : Nat) (lane : Fin 12)
  /-- REJOIN_HOLD_EXPIRY (R328). -/
  | rejoinHoldExpiry (t : Nat) (lane : Fin 12)
  /-- LANE_FAULT_RETRY (R328). -/
  | laneFaultRetry (t : Nat) (lane : Fin 12)
  /-- LANE_FAULT (R331). -/
  | laneFault (t : Nat) (lane : Fin 12) (cause : Fin 12)
  /-- LMASK_SWITCH (R323). -/
  | lmaskSwitch (t : Nat) (port : Fin 3)
  /-- DENSITY_WINDOW_END (R333). -/
  | densityWindowEnd (t : Nat) (lane : Fin 12) (changes : Nat)
  /-- EYE_HEALTH_CHECK (R334). -/
  | eyeHealthCheck (t : Nat) (lane : Fin 12)
  /-- EYE_HEALTH_CHECK_DONE (R334). -/
  | eyeHealthCheckDone (t : Nat) (lane : Fin 12) (horizontal vertical : Byte)
  /-- EYESCAN_DONE (R336). -/
  | eyescanDone (t : Nat) (lane : Fin 12) (horizontal vertical : Byte) (points : List Byte)
  /-- RATE_OFFSET_FAULT (R327). -/
  | rateOffsetFault (t : Nat) (lane : Fin 12)
  /-- MODULE_PRESENCE_CHANGE (R341). -/
  | modulePresenceChange (t : Nat) (port : Fin 3) (present cmis : Bool)
  /-- MODINT_ASSERT (R341). -/
  | modintAssert (t : Nat) (port : Fin 3) (los : BitVec 4)
  /-- MODULE_FLAG_POLL (R341). -/
  | moduleFlagPoll (t : Nat) (port : Fin 3) (los : BitVec 4)
  /-- LNK_WAKE_TIMEOUT (R338). -/
  | lnkWakeTimeout (t : Nat) (port : Fin 3)
  /-- FRAME_RECEIVE (R355). -/
  | frameReceive (t : Nat) (port : Fin 2) (frame : RxFrame)
  /-- ACK_RECEIVE (R357). -/
  | ackReceive (t : Nat) (port : Fin 2) (ack : AckBlock)
  /-- RETRANSMIT_TIMEOUT (R357). -/
  | retransmitTimeout (t : Nat) (port : Fin 2)
  /-- XOFF_ACK_REPEAT (R356). -/
  | xoffAckRepeat (t : Nat) (port : Fin 2)
  /-- FRAME_SEND (R361). -/
  | frameSend (t : Nat) (port : Fin 2)
  /-- POS_SEND (R351). -/
  | posSend (t : Nat) (port : Fin 2)
  /-- POS_RECEIVE (R351). -/
  | posReceive (t : Nat) (port : Fin 2) (endId hops : BitVec 12) (brk : Bool)
  /-- POS_TIMEOUT (R351). -/
  | posTimeout (t : Nat) (port : Fin 2)
  /-- PORT_BROKEN (R364). -/
  | portBroken (t : Nat) (port : Fin 2)
  /-- DISPATCH_PUSH (R370). -/
  | dispatchPush (t : Nat)
  /-- DISPATCH_POP (R370). -/
  | dispatchPop (t : Nat)
  /-- DISPATCH_DROP (R373). -/
  | dispatchDrop (t : Nat)
  /-- SEGMENT_TIMEOUT (R377). -/
  | segmentTimeout (t : Nat)
  /-- SHEAF_WAIT_EXPIRY (R379). -/
  | sheafWaitExpiry (t : Nat)
  /-- TAG_FREE (R379). -/
  | tagFree (t : Nat)
  /-- DELIVERY_WRITE (R384). -/
  | deliveryWrite (t : Nat) (ring : Fin 8)
  /-- MSIX_MOD_TIMEOUT (R385). -/
  | msixModTimeout (t : Nat) (ring : Fin 8)
  /-- COMMAND_RING_FETCH (R383). -/
  | commandRingFetch (t : Nat) (entry0 entry1 : BitVec 64) (packet : List Byte)
  /-- CMD_TAIL_WRITE (R383). -/
  | cmdTailWrite (t : Nat) (value : Word)
  /-- CMD_CTRL_WRITE (R382). -/
  | cmdCtrlWrite (t : Nat) (value : Word)
  /-- CTRL_WRITE (R382). -/
  | ctrlWrite (t : Nat) (ring : Fin 8) (value : Word)
  /-- CONS_WRITE (R384). -/
  | consWrite (t : Nat) (ring : Fin 8) (value : Word)
  /-- BAR0_REGISTER_WRITE (R382). -/
  | bar0RegisterWrite (t : Nat) (offset : BitVec 16) (value : Word)
  /-- PCIE_LINK_UP (R2). -/
  | pcieLinkUp (t : Nat) (rate : Fin 8) (width : Fin 16)
  /-- PCIE_LINK_DOWN (R2). -/
  | pcieLinkDown (t : Nat)
  /-- FUNCTION_LEVEL_RESET (R381). -/
  | functionLevelReset (t : Nat)
  /-- ANNOUNCE_RECEIVE (R224). -/
  | announceReceive (t : Nat) (port : Fin 2)
  /-- DIE_ITEM_COMPARE (R395). -/
  | dieItemCompare (t : Nat) (die : Fin 2)
  /-- COMPARE_WINDOW_TIMEOUT (R396). -/
  | compareWindowTimeout (t : Nat)
  /-- ATTRIBUTION_CHECK (R403). -/
  | attributionCheck (t : Nat) (die : Fin 2) (evidence : Fin 8)
  /-- CLAIM_ITEM_RECEIVE (R404). -/
  | claimItemReceive (t : Nat) (die : Fin 2)
  /-- ARBITRATION_TIMEOUT (R404). -/
  | arbitrationTimeout (t : Nat)
  /-- REVERT_HOLD_EXPIRY (R408). -/
  | revertHoldExpiry (t : Nat)
  /-- SELFTEST_COMPLETE (R412). -/
  | selftestComplete (t : Nat) (die : Fin 2) (failed : BitVec 4)
  /-- SELFTEST_RETRY (R401). -/
  | selftestRetry (t : Nat) (die : Fin 2)
  /-- SYNC_STATE_SENT (R413). -/
  | syncStateSent (t : Nat)
  /-- SYNC_STORE_COPIED (R413). -/
  | syncStoreCopied (t : Nat)
  /-- SYNC_RING_FILLED (R414). -/
  | syncRingFilled (t : Nat)
  /-- ALARM_FLIT_RECEIVE (R16). -/
  | alarmFlitReceive (t : Nat) (die : Fin 2) (source : Fin 5) (crcGood : Bool)
  /-- ALARM_REFRESH (R447). -/
  | alarmRefresh (t : Nat) (line : Fin 8)
  /-- REMOTE_ENTRY_EXPIRY (R451). -/
  | remoteEntryExpiry (t : Nat)
  /-- ALM_ACK_ACT (R445). -/
  | almAckAct (t : Nat)
  /-- PAD_READBACK_FAULT (R446). -/
  | padReadbackFault (t : Nat) (pin : Fin 8) (level : Bool)
  /-- LOOP_UPDATE (R456). -/
  | loopUpdate (t : Nat) (loop : Fin 8)
  /-- LOOP_READBACK_CHECK (R458). -/
  | loopReadbackCheck (t : Nat) (loop : Fin 8) (microA : Nat)
  /-- LOOP_RETRY (R458). -/
  | loopRetry (t : Nat) (loop : Fin 8)
  /-- CAL_START (R423). -/
  | calStart (t : Nat)
  /-- CAL_HOLD_DONE (R429). -/
  | calHoldDone (t : Nat)
  /-- CAL_POINT_DONE (R424). -/
  | calPointDone (t : Nat) (found : List CalFinding)
  /-- CAL_RELEASE (R426). -/
  | calRelease (t : Nat)
  /-- CAL_ABORT_ACT (R431). -/
  | calAbortAct (t : Nat)
  /-- CAL_STORE_COMPLETE (R434). -/
  | calStoreComplete (t : Nat) (readBackGood : Bool)
  /-- PCHK_PERIOD (R437). -/
  | pchkPeriod (t : Nat) (found : List CheckFinding)
  /-- PCHK_PULSE_TEST (R438). -/
  | pchkPulseTest (t : Nat) (input : Fin 512) (hit : Bool)
  /-- WATCHDOG_EXPIRY (R495). -/
  | watchdogExpiry (t : Nat) (die : Fin 2)
  /-- SENSOR_CONVERSION (R480). -/
  | sensorConversion (t : Nat) (temps : List Reading) (volts : List Reading)
  /-- THROTTLE_APPLY (R502). -/
  | throttleApply (t : Nat)
  /-- RISE_EVENT_END (R503). -/
  | riseEventEnd (t : Nat)
  /-- RISE_HOLD_EXPIRY (R503). -/
  | riseHoldExpiry (t : Nat)
  /-- STOP_DRAIN_END (R504). -/
  | stopDrainEnd (t : Nat)
  /-- STOP_MAX_EXPIRY (R506). -/
  | stopMaxExpiry (t : Nat)
  /-- RESUME (R505). -/
  | resume (t : Nat)
  /-- HARDWARE_TRIP (R506). -/
  | hardwareTrip (t : Nat) (sensor : Fin 17)
  /-- HARD_STOP_END (R506). -/
  | hardStopEnd (t : Nat)
  /-- LOW_TEMP_RELEASE (R507). -/
  | lowTempRelease (t : Nat) (fe : Fin 4)
  /-- NONCE_EXPIRY (R474). -/
  | nonceExpiry (t : Nat)
  /-- SESSION_EXPIRY (R475). -/
  | sessionExpiry (t : Nat)
  /-- OPEN_LOCKOUT_END (R474). -/
  | openLockoutEnd (t : Nat)
  /-- LOG_PERSIST (R481). -/
  | logPersist (t : Nat)
  /-- CONFIG_SAVE (R493). -/
  | configSave (t : Nat)
  /-- CONFIG_SAVE_HOURLY (R493). -/
  | configSaveHourly (t : Nat)
  /-- FW_WRITE_COMPLETE (R472). -/
  | fwWriteComplete (t : Nat) (readBackGood : Bool)
  /-- FW_COMMIT_COMPLETE (R473). -/
  | fwCommitComplete (t : Nat)
  /-- POR_N_CHANGE (R489). -/
  | porNChange (t : Nat) (level : Bool)
  /-- RST_N_PULSE (R491). -/
  | rstNPulse (t : Nat) (lengthNs : Nat)
  /-- RAIL_OUT_OF_WINDOW (R490). -/
  | railOutOfWindow (t : Nat) (rail : Fin 22) (high : Bool)
  /-- BROWN_OUT (R490). -/
  | brownOut (t : Nat) (rail : Fin 22)
  /-- VAN_STOP (R490). -/
  | vanStop (t : Nat) (fe : Fin 4)
  /-- VAN_STOP_RELEASE (R490). -/
  | vanStopRelease (t : Nat) (fe : Fin 4)
  /-- COLD_RESET (R491). -/
  | coldReset (t : Nat)
  /-- MODULE_RESET (R491). -/
  | moduleReset (t : Nat)
  /-- CONCENTRATOR_RESET (R491). -/
  | concentratorReset (t : Nat)
  /-- DIE_RESET (R491). -/
  | dieReset (t : Nat) (die : Fin 2)
  /-- FRONT_END_RESET (R491). -/
  | frontEndReset (t : Nat) (fe : Fin 4)
  /-- DIE_READY (R497). -/
  | dieReady (t : Nat) (die : Fin 2)
  /-- JOIN_WAIT_EXPIRY (R497). -/
  | joinWaitExpiry (t : Nat) (die : Fin 2)
  /-- GRANARY_READY (R497). -/
  | granaryReady (t : Nat)
  /-- CRYSTAL_FAULT (R416). -/
  | crystalFault (t : Nat)
  /-- TB_JUMP_SET_TIMEOUT (R194). -/
  | tbJumpSetTimeout (t : Nat)
  /-- BROWN_OUT_RESET_RELEASE (R490). -/
  | brownOutResetRelease (t : Nat)
  /-- RAIL_BACK_IN_WINDOW (R490). -/
  | railBackInWindow (t : Nat) (rail : Fin 22)
  /-- FRONT_END_RELOADED (R491). -/
  | frontEndReloaded (t : Nat) (fe : Fin 4)
  /-- ATTEST_SIGNATURE_DONE (R479). -/
  | attestSignatureDone (t : Nat)
  deriving DecidableEq, Repr

end Sys2Proof
end

