-- ==== Sys2Proof/Decode.lean ====
section
/-! DEFINITION. Reading a word as a command.  No row of spec/opcode_table.json gives its command any bits: a command reaches the block as a
packet (R31), a pin event or an event of its own, never as a word of the table.  So no word spells a command. -/

namespace Sys2Proof

/-- The command a word of the table's bits spells: none, since no row has bits. -/
def decodeTableWord (_nbits _w : Nat) : Option Instr := none

end Sys2Proof
end

