-- ==== Sys2Proof/Config.lean ====
section
/-! DEFINITION. What the spec leaves open, as constants without a body: nothing can be proved of their values, so a claim that mentions one
holds for every value.  Each is named in a row of the assumption log. -/

namespace Sys2Proof.Config

/-- A value the spec leaves open, one for each count of `State.free` (log 3). -/
opaque freeWord : Nat → BitVec 32

/-- Whether a capacity reported in KiB is rounded up (Table 9-11 gives the unit alone, log 8). -/
opaque kibRoundsUp : Bool

/-- What a read reports of an SRAM word with three or more flipped bits: 0 CLEAN, 1 CORRECTED, 2 UNCORRECTABLE, 3 POISONED (R293 names no
parity-check matrix), and the data a miscorrection returns (log 21). -/
opaque sramOutcome : BitVec 64 → BitVec 8 → Nat
opaque sramData : BitVec 64 → BitVec 64 → BitVec 8 → BitVec 64

/-- Whether a Granary line with the given symbol errors (five or more, or any on top of a poison mark or a failed slice) reads CORRECTED, and
the data byte it then returns at an offset (R273, R274; log 22). -/
opaque lineMiscorrects : List (Nat × BitVec 8) → Bool → Bool
opaque lineData : List (Nat × BitVec 8) → Nat → BitVec 8

/-- SHAKE256 with a 64-byte digest and with a 32-byte digest, as numbers (R468, R474, R476; FIPS 202 is not restated by the spec, log 23). -/
opaque shake64 : List (BitVec 8) → Nat
opaque shake32 : List (BitVec 8) → Nat

/-- ML-DSA-65 verification under a release key 0–3 and under a public key, the device's deterministic signature, and its identity
certificate (R468, R474, R476, R478, R479; log 23). -/
opaque releaseKeyVerifies : Nat → Nat → List (BitVec 8) → Bool
opaque keyVerifies : List (BitVec 8) → Nat → List (BitVec 8) → Bool
opaque identitySign : Nat → List (BitVec 8)
opaque certificate : List (BitVec 8)

/-- The bytes of the n-th challenge nonce (R474; log 24). -/
opaque nonceByte : Nat → Nat → BitVec 8

/-- The revision field of IDENT and of DEV_ID, and the part's serial number (R48, R382, R477; log 25). -/
opaque revision : Nat
opaque serial : Nat

/-- The relative error of the natural logarithm of curve 4, in 2^-60; only its part within 2^-53 is taken (R104, log 26). -/
opaque lnError : BitVec 64 → Int

/-- The voltage of a thermocouple type (curves 5, 6, 7) at a temperature outside the range IEC 60584 gives, in binary64 (log 27). -/
opaque tcVoltage : Nat → BitVec 64 → BitVec 64

/-- The error that Newton iteration leaves in curves 1 to 3 and 5 to 7, in 2^-20 °C; only its part within 0.001 °C is taken (R106, log 28). -/
opaque newtonError : Nat → BitVec 64 → Int

end Sys2Proof.Config
end

