-- ==== Sys2Proof/Machine/Params.lean ====
section
/-! DEFINITION. The 379 parameters of the machine: one row for each row of the parameter tables of spec/ (R67, R108, R112, …), with its
item, last index, access class (R10), reset value and own range (R52).  The tables cited at each block are the source. -/

namespace Sys2Proof.Machine

/-- The access classes of Table 0-2 (R10).  A W1C row carries the mask of its W1C bits (R12). -/
inductive Access where
  | rwe
  | rwi
  | ro
  | w1c (mask : Nat)
  deriving DecidableEq, Repr

/-- A parameter's own range (R52): any word, an unsigned range in steps with further single values, a signed range in steps, a finite
binary32, a sequencer arc (R234, Table 7-2), or an event-counter selector (R483, Table 15-13). -/
inductive Range where
  | any
  | nat (lo hi step : Nat) (others : List Nat)
  | int (lo hi : Int) (step : Nat)
  | finite32
  | arc
  | cntSel
  deriving DecidableEq, Repr

/-- The reset value of an item: one value, a 64-bit value over an even and an odd index, or a list by index (0 beyond it). -/
inductive ResetVal where
  | const (n : Nat)
  | pair (lo hi : Nat)
  | list (l : List Nat)
  deriving DecidableEq, Repr

/-- One row of a parameter table. -/
structure ParamRow where
  item : Nat
  last : Nat
  access : Access
  reset : ResetVal
  range : Range
  deriving DecidableEq, Repr

namespace Params

/-- Block 0x01 SYS: R67 Table 2-9. -/
def rowsSys : List ParamRow :=
  [⟨0x00, 0, .ro, .const 0, .any⟩,
   ⟨0x01, 0, .ro, .const 0, .any⟩,
   ⟨0x02, 1, .ro, .const 0, .any⟩,
   ⟨0x03, 0, .ro, .const 0, .any⟩,
   ⟨0x04, 0, .ro, .const 0, .any⟩,
   ⟨0x05, 0, .ro, .const 0, .any⟩,
   ⟨0x06, 0, .rwi, .const 200000, .nat 200000 10000000 1 []⟩,
   ⟨0x07, 0, .ro, .const 0, .any⟩,
   ⟨0x08, 0, .w1c 0x1F, .const 0, .any⟩,
   ⟨0x09, 0, .ro, .const 0, .any⟩,
   ⟨0x0A, 0, .ro, .const 0, .any⟩,
   ⟨0x0B, 0, .ro, .const 0, .any⟩]
  ++ [⟨0x0C, 1, .ro, .const 0, .any⟩]

/-- Block 0x02 FE: R109 Table 3-15. -/
def rowsFe : List ParamRow :=
  [⟨0x00, 511, .rwe, .const 0, .nat 0 5 1 []⟩,
   ⟨0x01, 511, .rwe, .const 3, .nat 0 4 1 []⟩,
   ⟨0x02, 511, .rwe, .const 0, .nat 0 1 1 []⟩,
   ⟨0x03, 511, .rwe, .const 255, .nat 0 63 1 [255]⟩,
   ⟨0x04, 511, .rwe, .const 0, .nat 1000 1000000 1 [0]⟩,
   ⟨0x05, 511, .rwe, .const 0, .nat 0 10 1 []⟩,
   ⟨0x06, 511, .rwe, .const 16, .nat 1 65535 1 []⟩,
   ⟨0x07, 511, .rwe, .const 0, .nat 0 1 1 []⟩,
   ⟨0x08, 511, .rwe, .const 1, .nat 0 3 1 []⟩,
   ⟨0x09, 3, .rwe, .const 100, .nat 10 500 1 []⟩,
   ⟨0x0A, 511, .rwe, .const 0, .nat 0 2 1 []⟩,
   ⟨0x0B, 511, .rwe, .const 1000, .nat 10 1000000 1 []⟩]
  ++ [⟨0x0C, 511, .rwe, .const 0, .nat 0 3 1 []⟩,
   ⟨0x10, 63, .rwe, .const 0, .nat 10000 2500000 10 [0]⟩,
   ⟨0x11, 63, .rwe, .const 65535, .nat 0 1023 1 [65535]⟩,
   ⟨0x12, 63, .rwe, .const 65535, .nat 0 1023 1 [65535]⟩,
   ⟨0x13, 63, .rwe, .const 0, .nat 2 65534 2 [0]⟩,
   ⟨0x14, 63, .rwe, .const 20, .nat 0 32766 1 []⟩,
   ⟨0x18, 63, .rwe, .const 0, .nat 100 3600000 1 [0]⟩,
   ⟨0x19, 63, .rwe, .const 0, .nat 0 3599999999 1 []⟩,
   ⟨0x1A, 63, .rwe, .const 400, .nat 100 10000 1 []⟩,
   ⟨0x1B, 63, .rwe, .const 4000, .nat 100 10000 1 []⟩,
   ⟨0x1C, 63, .rwe, .const 50000, .nat 1000 1000000 1 []⟩,
   ⟨0x1D, 63, .rwe, .const 5000, .nat 0 100000 1 []⟩]
  ++ [⟨0x1E, 63, .rwe, .const 200000, .nat 1000 2000000 1 []⟩,
   ⟨0x20, 511, .rwe, .const 0, .nat 0 13 1 []⟩,
   ⟨0x21, 511, .rwe, .const 65535, .nat 0 511 1 [65535]⟩,
   ⟨0x22, 4095, .rwe, .const 0, .finite32⟩,
   ⟨0x30, 511, .ro, .const 0, .any⟩,
   ⟨0x31, 511, .w1c 0x7FF, .const 0, .any⟩,
   ⟨0x32, 63, .w1c 0x1, .const 0, .any⟩,
   ⟨0x33, 511, .ro, .const 0, .any⟩,
   ⟨0x34, 511, .ro, .const 0, .any⟩]

/-- Block 0x03 ADC: R133 Table 4-8. -/
def rowsAdc : List ParamRow :=
  [⟨0x00, 127, .rwe, .const 0, .nat 0 15 1 []⟩,
   ⟨0x01, 511, .rwe, .const 0, .nat 0 2000 1 []⟩,
   ⟨0x02, 127, .rwe, .const 0, .nat 0 1 1 []⟩,
   ⟨0x03, 127, .rwe, .const 0, .nat 0 12079 1 []⟩,
   ⟨0x04, 127, .rwe, .const 0, .nat 0 1 1 []⟩,
   ⟨0x08, 511, .rwe, .const 0, .int (-8388608) 8388607 1⟩,
   ⟨0x09, 511, .rwe, .const 1073741824, .nat 536870912 2147483647 1 []⟩,
   ⟨0x0A, 4095, .ro, .const 0, .any⟩,
   ⟨0x0B, 4095, .ro, .const 1073741824, .any⟩,
   ⟨0x10, 127, .ro, .const 0, .any⟩,
   ⟨0x11, 127, .ro, .const 0, .any⟩,
   ⟨0x12, 3, .ro, .const 1, .any⟩]
  ++ [⟨0x13, 127, .w1c 0x1B, .const 0, .any⟩,
   ⟨0x14, 511, .ro, .const 0, .any⟩,
   ⟨0x15, 127, .ro, .const 0, .any⟩]

/-- Block 0x04 TMR: R160 Table 5-12. -/
def rowsTmr : List ParamRow :=
  [⟨0x00, 511, .rwe, .const 0, .nat 0 3 1 []⟩,
   ⟨0x01, 511, .rwe, .const 0, .int (-32768) 32752 16⟩,
   ⟨0x02, 511, .rwe, .const 64, .nat 0 8192 16 []⟩,
   ⟨0x03, 511, .rwe, .const 2, .nat 0 8 1 []⟩,
   ⟨0x04, 511, .rwe, .const 0, .nat 8 65535 1 [0]⟩,
   ⟨0x05, 511, .rwe, .const 0, .nat 1 8 1 [0]⟩,
   ⟨0x06, 511, .rwe, .const 0, .int (-16777216) 16777215 1⟩,
   ⟨0x07, 511, .rwe, .const 0, .nat 0 1 1 []⟩,
   ⟨0x08, 511, .rwe, .const 0, .nat 0 3 1 []⟩,
   ⟨0x09, 511, .rwe, .const 0, .nat 0 1 1 []⟩,
   ⟨0x0A, 511, .rwe, .const 1024, .nat 1 1048576 1 []⟩,
   ⟨0x0B, 511, .rwe, .const 10000, .nat 1 60000 1 []⟩]
  ++ [⟨0x0C, 511, .rwe, .const 65535, .nat 0 0x21F 1 [0xFFFF]⟩,
   ⟨0x0D, 511, .rwe, .const 0, .nat 0 999999999 1 []⟩,
   ⟨0x0E, 511, .rwe, .const 1000000, .nat 100 1000000000 1 []⟩,
   ⟨0x0F, 511, .rwe, .const 1, .nat 0 1 1 []⟩,
   ⟨0x20, 31, .rwe, .const 12800, .nat 512 128000000 1 []⟩,
   ⟨0x21, 31, .rwe, .const 0, .nat 100 4000000000 1 [0]⟩,
   ⟨0x22, 31, .rwe, .const 0, .nat 0 127 1 []⟩,
   ⟨0x23, 31, .rwe, .const 1, .nat 1 4294967295 1 [0]⟩,
   ⟨0x24, 31, .rwe, .const 0, .nat 0 1 1 []⟩,
   ⟨0x25, 31, .rwe, .const 0, .nat 0 1 1 []⟩,
   ⟨0x30, 511, .ro, .const 0, .any⟩,
   ⟨0x31, 511, .w1c 0x7F, .const 0, .any⟩]
  ++ [⟨0x32, 511, .ro, .const 0, .any⟩,
   ⟨0x33, 511, .ro, .const 0, .any⟩,
   ⟨0x34, 511, .ro, .const 0, .any⟩,
   ⟨0x35, 511, .ro, .const 0, .any⟩,
   ⟨0x36, 511, .ro, .const 0, .any⟩,
   ⟨0x37, 511, .ro, .const 0, .any⟩,
   ⟨0x38, 511, .ro, .const 0, .any⟩,
   ⟨0x39, 1023, .ro, .pair 0x0 0x7FF80000, .any⟩,
   ⟨0x3A, 1023, .ro, .pair 0x0 0x7FF80000, .any⟩,
   ⟨0x40, 31, .ro, .const 0, .any⟩,
   ⟨0x41, 31, .w1c 0xF, .const 0, .any⟩]

/-- Block 0x05 TB: R195 Table 6-10. -/
def rowsTb : List ParamRow :=
  [⟨0x00, 0, .ro, .const 0, .any⟩,
   ⟨0x01, 0, .w1c 0x39E, .const 0, .any⟩,
   ⟨0x02, 0, .rwe, .const 0, .nat 0 3 1 []⟩,
   ⟨0x03, 0, .ro, .const 0, .any⟩,
   ⟨0x04, 0, .ro, .const 0, .any⟩,
   ⟨0x05, 0, .ro, .const 3, .any⟩,
   ⟨0x06, 0, .rwi, .const 100, .nat 1 1000000 1 []⟩,
   ⟨0x07, 0, .rwi, .const 10, .nat 1 1000 1 []⟩,
   ⟨0x08, 0, .rwi, .const 10000, .nat 100 40000 1 []⟩,
   ⟨0x09, 0, .rwi, .const 50, .nat 20 10000 1 []⟩,
   ⟨0x0A, 0, .rwe, .const 0, .int (-1000000000) 1000000000 1⟩,
   ⟨0x0B, 0, .rwe, .const 50, .nat 1 1000000 1 []⟩]
  ++ [⟨0x0C, 1, .ro, .const 0, .any⟩,
   ⟨0x10, 1, .ro, .const 0, .any⟩,
   ⟨0x11, 0, .ro, .const 4294967295, .any⟩,
   ⟨0x12, 1, .ro, .const 2147483648, .any⟩,
   ⟨0x13, 1, .ro, .const 65535, .any⟩,
   ⟨0x14, 1, .ro, .const 0, .any⟩,
   ⟨0x15, 0, .ro, .const 0, .any⟩,
   ⟨0x16, 0, .ro, .const 0, .any⟩,
   ⟨0x17, 0, .ro, .const 0, .any⟩,
   ⟨0x18, 0, .ro, .const 0, .any⟩,
   ⟨0x19, 0, .ro, .const 0, .any⟩,
   ⟨0x1A, 0, .ro, .const 0, .any⟩]
  ++ [⟨0x1B, 0, .ro, .const 0, .any⟩]

/-- Block 0x06 TRG: R234 Table 7-15. -/
def rowsTrg : List ParamRow :=
  [⟨0x00, 1023, .rwe, .const 0, .nat 0 7 1 []⟩,
   ⟨0x01, 1023, .rwe, .const 0, .int (-32768) 32767 1⟩,
   ⟨0x02, 1023, .rwe, .const 0, .int (-32768) 1000000 1⟩,
   ⟨0x03, 1023, .rwe, .const 255, .nat 0 15 1 [255]⟩,
   ⟨0x04, 511, .rwe, .const 0, .nat 0 1 1 []⟩,
   ⟨0x05, 511, .rwe, .const 0, .nat 0 1 1 []⟩,
   ⟨0x06, 511, .rwe, .const 1024, .nat 1 32767 1 []⟩,
   ⟨0x07, 511, .rwe, .const 0, .nat 0 7 1 []⟩,
   ⟨0x10, 15, .rwe, .const 1, .nat 1 16 1 []⟩,
   ⟨0x11, 15, .rwe, .const 0, .nat 0 1000000 1 []⟩,
   ⟨0x18, 511, .rwe, .const 0, .arc⟩,
   ⟨0x19, 31, .rwe, .const 1000000, .nat 1 4000000000 1 []⟩]
  ++ [⟨0x1A, 31, .rwe, .const 0, .nat 10 3600000000 1 [0]⟩,
   ⟨0x1B, 31, .rwe, .const 128000, .nat 0 50000000 1 []⟩,
   ⟨0x1C, 31, .rwe, .const 384000, .nat 1000 50000000 1 []⟩,
   ⟨0x1D, 31, .rwe, .const 0, .nat 0 255 1 []⟩,
   ⟨0x20, 127, .rwe, .const 0, .any⟩,
   ⟨0x21, 127, .rwe, .const 1, .nat 0 3 1 []⟩,
   ⟨0x22, 127, .rwe, .const 0, .nat 0 1 1 []⟩,
   ⟨0x23, 127, .rwe, .const 1, .nat 1 65535 1 []⟩,
   ⟨0x24, 127, .rwe, .const 1000, .nat 0 10000000 1 []⟩,
   ⟨0x28, 2, .rwe, .const 0, .nat 10 3600000000 1 [0]⟩,
   ⟨0x30, 127, .ro, .const 0, .any⟩,
   ⟨0x31, 511, .ro, .const 0, .any⟩]
  ++ [⟨0x32, 31, .ro, .const 8, .any⟩,
   ⟨0x33, 63, .ro, .const 0, .any⟩,
   ⟨0x34, 1, .ro, .const 0, .any⟩,
   ⟨0x35, 31, .ro, .const 0, .any⟩,
   ⟨0x36, 127, .ro, .const 0, .any⟩,
   ⟨0x37, 127, .ro, .const 0, .any⟩,
   ⟨0x38, 127, .ro, .const 0, .any⟩,
   ⟨0x39, 3, .ro, .const 0, .any⟩,
   ⟨0x3A, 0, .ro, .const 0, .any⟩,
   ⟨0x3B, 7, .ro, .const 0, .any⟩,
   ⟨0x3C, 511, .ro, .const 0, .any⟩,
   ⟨0x3D, 0, .ro, .const 1, .any⟩]
  ++ [⟨0x3E, 0, .w1c 0xFF, .const 0, .any⟩]

/-- Block 0x07 REC: R267 Table 8-18. -/
def rowsRec : List ParamRow :=
  [⟨0x00, 0, .ro, .const 0, .any⟩,
   ⟨0x01, 0, .rwe, .const 1024, .nat 16 4096 1 []⟩,
   ⟨0x02, 0, .rwe, .const 1000, .nat 10 1000000 1 []⟩,
   ⟨0x03, 0, .rwe, .const 16, .nat 1 64 1 []⟩,
   ⟨0x04, 0, .rwe, .const 100000, .nat 1000 1000000 1 []⟩,
   ⟨0x05, 0, .rwe, .const 0, .nat 1 86400 1 [0]⟩,
   ⟨0x06, 0, .rwe, .const 0, .nat 0 64 1 []⟩,
   ⟨0x07, 63, .rwe, .const 0, .any⟩,
   ⟨0x10, 7, .ro, .const 0, .any⟩,
   ⟨0x11, 7, .ro, .const 0, .any⟩,
   ⟨0x12, 0, .w1c 0x7, .const 0, .any⟩]

/-- Block 0x08 COD: R269 Table 8-20. -/
def rowsCod : List ParamRow :=
  [⟨0x00, 511, .rwe, .const 2, .nat 0 4 1 []⟩,
   ⟨0x01, 511, .rwe, .const 1, .nat 0 3 1 []⟩,
   ⟨0x10, 0, .ro, .const 0, .any⟩,
   ⟨0x11, 511, .ro, .const 0, .any⟩,
   ⟨0x12, 511, .ro, .const 0, .any⟩,
   ⟨0x13, 0, .ro, .const 0, .any⟩,
   ⟨0x14, 0, .w1c 0x3, .const 0, .any⟩]

/-- Block 0x09 GRN: R308 Table 9-11. -/
def rowsGrn : List ParamRow :=
  [⟨0x00, 0, .ro, .const 14540, .any⟩,
   ⟨0x01, 0, .ro, .const 14540, .any⟩,
   ⟨0x02, 0, .ro, .const 14540, .any⟩,
   ⟨0x03, 0, .rwi, .const 8, .nat 1 64 1 []⟩,
   ⟨0x04, 0, .rwi, .const 60000, .nat 1000 3600000 1 []⟩,
   ⟨0x05, 0, .rwi, .const 4096, .nat 16 1000000 1 []⟩,
   ⟨0x10, 15, .ro, .const 0, .any⟩,
   ⟨0x11, 15, .ro, .const 0, .any⟩,
   ⟨0x12, 15, .ro, .const 0, .any⟩,
   ⟨0x13, 15, .ro, .const 0, .any⟩,
   ⟨0x14, 127, .ro, .const 255, .any⟩,
   ⟨0x15, 127, .ro, .const 0, .any⟩]
  ++ [⟨0x16, 127, .ro, .const 0, .any⟩,
   ⟨0x20, 16, .ro, .const 0, .any⟩,
   ⟨0x21, 16, .ro, .const 0, .any⟩,
   ⟨0x22, 16, .ro, .const 0, .any⟩,
   ⟨0x23, 7, .ro, .const 0, .any⟩,
   ⟨0x24, 16, .ro, .const 0, .any⟩,
   ⟨0x30, 0, .w1c 0x1F, .const 0, .any⟩]

/-- Block 0x0A SRM: R309 Table 9-12. -/
def rowsSrm : List ParamRow :=
  [⟨0x00, 15, .rwi, .list [0xFFFFFFFF, 0, 0, 0, 0, 0, 0x0000FFFF], .any⟩,
   ⟨0x01, 0, .rwi, .const 256, .nat 16 4096 1 []⟩,
   ⟨0x02, 0, .rwi, .const 1000, .nat 10 60000 1 []⟩,
   ⟨0x03, 0, .ro, .const 0, .any⟩,
   ⟨0x04, 0, .rwi, .const 10000, .nat 200 1000000 1 []⟩]

/-- Block 0x0B LNK: R345 Table 10-11. -/
def rowsLnk : List ParamRow :=
  [⟨0x00, 1, .rwe, .const 1, .nat 0 1 1 []⟩,
   ⟨0x01, 2, .rwe, .const 4, .nat 1 4 1 []⟩,
   ⟨0x02, 11, .rwe, .const 1, .nat 0 1 1 []⟩,
   ⟨0x03, 11, .rwe, .const 0, .nat 0 1 1 []⟩,
   ⟨0x04, 0, .rwi, .const 5520, .nat 1 10000000 1 []⟩,
   ⟨0x05, 0, .rwi, .const 27600, .nat 1 10000000 1 []⟩,
   ⟨0x06, 0, .rwi, .const 8, .nat 1 32 1 []⟩,
   ⟨0x07, 0, .rwi, .const 6, .nat 1 32 1 []⟩,
   ⟨0x08, 0, .rwi, .const 100, .nat 10 1000 1 []⟩,
   ⟨0x09, 0, .rwi, .const 1, .nat 0 1 1 []⟩,
   ⟨0x0A, 0, .rwi, .const 1000, .nat 0 600000 1 []⟩,
   ⟨0x10, 2, .ro, .const 0, .any⟩]
  ++ [⟨0x11, 2, .ro, .const 0, .any⟩,
   ⟨0x12, 11, .ro, .const 0, .any⟩,
   ⟨0x13, 11, .w1c 0x3DF, .const 0, .any⟩,
   ⟨0x14, 11, .ro, .const 0, .any⟩,
   ⟨0x15, 11, .ro, .const 0, .any⟩,
   ⟨0x16, 11, .ro, .const 0, .any⟩,
   ⟨0x17, 11, .ro, .const 0, .any⟩,
   ⟨0x18, 11, .ro, .const 0, .any⟩,
   ⟨0x19, 11, .ro, .const 0, .any⟩,
   ⟨0x1A, 11, .ro, .const 0, .any⟩,
   ⟨0x1B, 11, .ro, .const 0, .any⟩,
   ⟨0x1C, 11, .ro, .const 0, .any⟩]
  ++ [⟨0x1D, 11, .ro, .const 0, .any⟩]

/-- Block 0x0C CLP: R388 Table 11-22. -/
def rowsClp : List ParamRow :=
  [⟨0x00, 0, .rwe, .const 0, .nat 0 1 1 []⟩,
   ⟨0x10, 1, .ro, .const 4095, .any⟩,
   ⟨0x11, 1, .ro, .const 4095, .any⟩,
   ⟨0x12, 1, .ro, .const 0, .any⟩,
   ⟨0x13, 1, .ro, .const 0, .any⟩,
   ⟨0x14, 1, .ro, .const 0, .any⟩,
   ⟨0x15, 1, .ro, .const 0, .any⟩,
   ⟨0x16, 1, .ro, .const 0, .any⟩,
   ⟨0x17, 0, .ro, .const 0, .any⟩,
   ⟨0x18, 1, .ro, .const 0, .any⟩,
   ⟨0x19, 0, .w1c 0x1FB, .const 0, .any⟩,
   ⟨0x20, 0, .rwi, .const 1000, .nat 10 1000000 1 []⟩]
  ++ [⟨0x21, 0, .rwi, .const 2, .nat 0 4 1 []⟩,
   ⟨0x22, 0, .rwi, .const 262144, .nat 65536 16777216 1 []⟩,
   ⟨0x23, 1, .ro, .const 0, .any⟩,
   ⟨0x24, 0, .ro, .const 0, .any⟩,
   ⟨0x25, 7, .ro, .const 0, .any⟩]

/-- Block 0x0D PRT: R390 Table 11-24. -/
def rowsPrt : List ParamRow :=
  [⟨0x00, 0, .rwe, .const 0, .nat 0 1 1 []⟩,
   ⟨0x01, 0, .rwe, .const 100, .nat 1 10000 1 []⟩,
   ⟨0x02, 9, .rwe, .list [1, 3, 2, 2, 2, 3, 1, 0, 1, 0], .nat 0 7 1 []⟩,
   ⟨0x10, 0, .ro, .const 0, .any⟩,
   ⟨0x11, 7, .ro, .const 0, .any⟩,
   ⟨0x12, 0, .ro, .const 0, .any⟩,
   ⟨0x13, 0, .ro, .const 0, .any⟩,
   ⟨0x14, 0, .ro, .const 0, .any⟩,
   ⟨0x15, 2, .ro, .const 0, .any⟩,
   ⟨0x16, 0, .ro, .const 0, .any⟩,
   ⟨0x17, 0, .ro, .const 0, .any⟩,
   ⟨0x18, 0, .ro, .const 0, .any⟩]
  ++ [⟨0x19, 0, .w1c 0x5FF, .const 0, .any⟩]

/-- Block 0x0E RED: R418 Table 12-12. -/
def rowsRed : List ParamRow :=
  [⟨0x00, 0, .rwe, .const 0, .nat 0 1 1 []⟩,
   ⟨0x01, 0, .rwi, .const 40, .nat 0 63 1 []⟩,
   ⟨0x02, 0, .rwi, .const 0, .nat 0 3600000 1 []⟩,
   ⟨0x03, 0, .rwi, .const 1000, .nat 1 1000000 1 []⟩,
   ⟨0x04, 0, .rwi, .const 3600, .nat 60 86400 1 []⟩,
   ⟨0x05, 0, .rwi, .const 3, .nat 1 15 1 []⟩,
   ⟨0x06, 0, .rwi, .const 8000, .nat 1000 16000 1 []⟩,
   ⟨0x10, 0, .ro, .const 0, .any⟩,
   ⟨0x11, 1, .ro, .const 63, .any⟩,
   ⟨0x12, 1, .ro, .const 63, .any⟩,
   ⟨0x13, 1, .ro, .const 0, .any⟩,
   ⟨0x14, 1, .ro, .const 0, .any⟩]
  ++ [⟨0x15, 0, .w1c 0x2EF, .const 0, .any⟩,
   ⟨0x16, 0, .ro, .const 0, .any⟩,
   ⟨0x17, 0, .ro, .const 0, .any⟩,
   ⟨0x18, 0, .ro, .const 0, .any⟩,
   ⟨0x19, 1, .ro, .const 0, .any⟩,
   ⟨0x1A, 0, .ro, .const 0, .any⟩,
   ⟨0x1B, 0, .ro, .const 0, .any⟩,
   ⟨0x1C, 0, .ro, .const 0, .any⟩,
   ⟨0x1D, 1, .ro, .const 0, .any⟩,
   ⟨0x1E, 1, .ro, .const 0, .any⟩,
   ⟨0x20, 1, .ro, .const 0, .any⟩,
   ⟨0x21, 1, .ro, .const 0, .any⟩]
  ++ [⟨0x22, 1, .ro, .const 0, .any⟩,
   ⟨0x23, 1, .ro, .const 255, .any⟩,
   ⟨0x24, 1, .ro, .const 0, .any⟩,
   ⟨0x25, 1, .ro, .const 0, .any⟩,
   ⟨0x26, 1, .ro, .const 0, .any⟩,
   ⟨0x27, 1, .ro, .const 0, .any⟩,
   ⟨0x28, 1, .ro, .const 0, .any⟩,
   ⟨0x29, 1, .ro, .const 0, .any⟩,
   ⟨0x2A, 1, .ro, .const 0, .any⟩,
   ⟨0x2B, 1, .ro, .const 0, .any⟩,
   ⟨0x2C, 19, .ro, .const 0, .any⟩,
   ⟨0x2D, 31, .ro, .const 0, .any⟩]

/-- Block 0x0F CAL: R440 Table 13-11. -/
def rowsCal : List ParamRow :=
  [⟨0x00, 0, .rwi, .const 16384, .nat 1024 1048576 1 []⟩,
   ⟨0x01, 0, .rwi, .const 500, .nat 10 100000 1 []⟩,
   ⟨0x02, 0, .rwi, .const 16, .nat 1 4096 1 []⟩,
   ⟨0x03, 0, .rwi, .const 1024, .nat 1 262144 1 []⟩,
   ⟨0x04, 0, .rwi, .const 200, .nat 1 10000 1 []⟩,
   ⟨0x05, 0, .rwi, .const 100, .nat 1 10000 1 []⟩,
   ⟨0x06, 0, .rwi, .const 8, .nat 1 4096 1 []⟩,
   ⟨0x07, 0, .rwi, .const 20000, .nat 100 200000 1 []⟩,
   ⟨0x08, 0, .rwi, .const 60, .nat 1 86400 1 [0]⟩,
   ⟨0x09, 0, .rwi, .const 41, .nat 4 4096 1 []⟩,
   ⟨0x0A, 511, .rwe, .const 0, .nat 0 1 1 []⟩,
   ⟨0x10, 63, .ro, .const 1073741824, .any⟩]
  ++ [⟨0x11, 511, .ro, .const 0, .any⟩,
   ⟨0x12, 4095, .ro, .const 0, .any⟩,
   ⟨0x13, 32767, .ro, .const 64, .any⟩,
   ⟨0x14, 575, .ro, .const 0, .any⟩,
   ⟨0x15, 1023, .ro, .const 0, .any⟩,
   ⟨0x16, 0, .ro, .const 0, .any⟩,
   ⟨0x17, 0, .ro, .const 2, .any⟩,
   ⟨0x18, 0, .ro, .const 0, .any⟩,
   ⟨0x19, 15, .w1c 0xFFFFFFFF, .const 0, .any⟩,
   ⟨0x1A, 0, .w1c 0x1F, .const 0, .any⟩]

/-- Block 0x10 ALM: R460 Table 14-9. -/
def rowsAlm : List ParamRow :=
  [⟨0x00, 511, .rwe, .const 255, .nat 0 7 1 [255]⟩,
   ⟨0x01, 511, .rwe, .const 0, .nat 0 1 1 []⟩,
   ⟨0x02, 511, .rwe, .const 0, .nat 0 1 1 []⟩,
   ⟨0x08, 7, .rwe, .const 0, .nat 0 1 1 []⟩,
   ⟨0x09, 7, .rwe, .const 0, .nat 0 255 1 []⟩,
   ⟨0x0A, 7, .rwe, .const 255, .nat 0 7 1 [255]⟩,
   ⟨0x0B, 7, .rwe, .const 0, .nat 0 1 1 []⟩,
   ⟨0x0C, 7, .rwe, .const 0, .nat 0 1 1 []⟩,
   ⟨0x0D, 7, .rwe, .const 0, .nat 0 1 1 []⟩,
   ⟨0x10, 7, .rwe, .const 0, .nat 0 2 1 []⟩,
   ⟨0x11, 7, .rwe, .const 65535, .nat 0 511 1 [65535]⟩,
   ⟨0x12, 7, .rwe, .const 0, .finite32⟩]
  ++ [⟨0x13, 7, .rwe, .const 1065353216, .finite32⟩,
   ⟨0x14, 7, .rwe, .const 0, .nat 0 7 1 []⟩,
   ⟨0x15, 7, .rwe, .const 4000, .nat 3600 21000 1 []⟩,
   ⟨0x16, 7, .rwe, .const 20000, .nat 3600 21000 1 []⟩,
   ⟨0x17, 7, .rwe, .const 0, .nat 0 2 1 []⟩,
   ⟨0x18, 7, .rwe, .const 1000, .nat 10 1000000 1 []⟩,
   ⟨0x19, 7, .rwe, .const 10000, .nat 100 3600000 1 []⟩,
   ⟨0x20, 7, .ro, .const 0, .any⟩,
   ⟨0x21, 0, .ro, .const 0, .any⟩,
   ⟨0x22, 0, .ro, .const 0, .any⟩,
   ⟨0x23, 7, .ro, .const 0, .any⟩,
   ⟨0x24, 7, .ro, .const 0, .any⟩]
  ++ [⟨0x25, 7, .w1c 0x6, .const 0, .any⟩,
   ⟨0x26, 7, .ro, .const 0, .any⟩,
   ⟨0x27, 7, .ro, .const 0, .any⟩,
   ⟨0x28, 1, .ro, .const 0, .any⟩,
   ⟨0x29, 0, .w1c 0x7F, .const 0, .any⟩]

/-- Block 0x11 MGT: R485 Table 15-15. -/
def rowsMgt : List ParamRow :=
  [⟨0x00, 0, .ro, .const 0, .any⟩,
   ⟨0x01, 0, .ro, .const 0, .any⟩,
   ⟨0x02, 0, .ro, .const 0, .any⟩,
   ⟨0x03, 0, .ro, .const 0, .any⟩,
   ⟨0x04, 0, .ro, .const 2, .any⟩,
   ⟨0x05, 0, .ro, .const 0, .any⟩,
   ⟨0x06, 0, .ro, .const 0, .any⟩,
   ⟨0x07, 3, .ro, .const 0, .any⟩,
   ⟨0x08, 1, .ro, .const 0, .any⟩,
   ⟨0x10, 16, .ro, .const 2147483648, .any⟩,
   ⟨0x11, 21, .ro, .const 2147483648, .any⟩,
   ⟨0x18, 63, .rwi, .const 0, .cntSel⟩]
  ++ [⟨0x19, 127, .ro, .const 0, .any⟩,
   ⟨0x1A, 127, .ro, .const 0, .any⟩,
   ⟨0x20, 0, .ro, .const 0, .any⟩,
   ⟨0x21, 0, .w1c 0x26, .const 0, .any⟩]

/-- Block 0x12 PWR: R509 Table 16-11. -/
def rowsPwr : List ParamRow :=
  [⟨0x00, 0, .ro, .const 0, .any⟩,
   ⟨0x01, 0, .ro, .const 0, .any⟩,
   ⟨0x02, 0, .ro, .const 0, .any⟩,
   ⟨0x03, 0, .ro, .const 0, .any⟩,
   ⟨0x04, 0, .rwi, .const 0, .nat 0 1 1 []⟩,
   ⟨0x05, 0, .rwi, .const 500, .nat 100 10000 1 []⟩,
   ⟨0x10, 21, .ro, .const 0, .any⟩,
   ⟨0x11, 21, .ro, .const 0, .any⟩,
   ⟨0x12, 0, .w1c 0xF, .const 0, .any⟩]

/-- Block 0x13 THM: R511 Table 16-13. -/
def rowsThm : List ParamRow :=
  [⟨0x00, 0, .ro, .const 0, .any⟩,
   ⟨0x01, 3, .ro, .const 0, .any⟩,
   ⟨0x02, 0, .rwi, .const 2000, .nat 500 10000 1 []⟩,
   ⟨0x03, 0, .rwi, .const 10000, .nat 0 600000 1 []⟩,
   ⟨0x04, 0, .rwi, .const 100, .nat 1 900 1 []⟩,
   ⟨0x05, 0, .rwi, .const 1000, .nat 100 5000 1 []⟩,
   ⟨0x06, 0, .rwi, .const 60, .nat 10 3600 1 []⟩,
   ⟨0x07, 0, .rwi, .const 1, .nat 0 1 1 []⟩,
   ⟨0x10, 16, .ro, .const 0, .any⟩,
   ⟨0x11, 16, .ro, .const 2147483648, .any⟩,
   ⟨0x12, 0, .w1c 0x2E, .const 0, .any⟩,
   ⟨0x13, 0, .ro, .const 0, .any⟩]

/-- The parameter table of a block; an unassigned block has no items. -/
def block : Nat → List ParamRow
  | 1 => rowsSys
  | 2 => rowsFe
  | 3 => rowsAdc
  | 4 => rowsTmr
  | 5 => rowsTb
  | 6 => rowsTrg
  | 7 => rowsRec
  | 8 => rowsCod
  | 9 => rowsGrn
  | 10 => rowsSrm
  | 11 => rowsLnk
  | 12 => rowsClp
  | 13 => rowsPrt
  | 14 => rowsRed
  | 15 => rowsCal
  | 16 => rowsAlm
  | 17 => rowsMgt
  | 18 => rowsPwr
  | 19 => rowsThm
  | _ => []

/-- The block, item and index of an address (R49). -/
def blockOf (k : Nat) : Nat := k / 16777216
def itemOf (k : Nat) : Nat := k / 65536 % 256
def indexOf (k : Nat) : Nat := k % 65536

/-- The row of the item an address names, if the item is assigned (R14, R49). -/
def row (k : Nat) : Option ParamRow := (block (blockOf k)).find? (fun r => r.item == itemOf k)

/-- The address names an assigned item and an index within it. -/
def assigned (k : Nat) : Bool := match row k with
  | some r => decide (indexOf k ≤ r.last)
  | none => false

/-- The value an item has at an index at reset. -/
def resetAt : ResetVal → Nat → Nat
  | .const n, _ => n
  | .pair lo hi, i => if i % 2 = 0 then lo else hi
  | .list l, i => l.getD i 0

/-- The reset value of the parameter at an address; 0 for an address that names none. -/
def reset (k : Nat) : Word := match row k with
  | some r => BitVec.ofNat 32 (resetAt r.reset (indexOf k))
  | none => 0

end Params
end Sys2Proof.Machine
end

