-- ==== Sys2Proof/Machine/Addr.lean ====
section
/-! DEFINITION. The parameter addresses of R49 ([31:24] block, [23:16] item, [15:0] index) under the names the spec gives the items. -/

namespace Sys2Proof.Machine.P

/-! Block 0x01 SYS (R67 Table 2-9). -/
abbrev SYS_NODE_ID : Nat := 0x01000000
abbrev SYS_EPOCH : Nat := 0x01010000
abbrev SYS_EPOCH_TIME (i : Nat) : Nat := 0x01020000 + i
abbrev SYS_EPOCH_STATE : Nat := 0x01030000
abbrev SYS_STAGED_COUNT : Nat := 0x01040000
abbrev SYS_EPOCH_UNCERT : Nat := 0x01050000
abbrev SYS_EPOCH_LEAD : Nat := 0x01060000
abbrev SYS_CMD_OUTSTANDING : Nat := 0x01070000
abbrev SYS_CMD_FLAGS : Nat := 0x01080000
abbrev SYS_CMD_CRC_COUNT : Nat := 0x01090000
abbrev SYS_CMD_REFUSED_COUNT : Nat := 0x010A0000
abbrev SYS_SNAP_ID : Nat := 0x010B0000
abbrev SYS_SNAP_TIME (i : Nat) : Nat := 0x010C0000 + i

/-! Block 0x02 FE (R109 Table 3-15). -/
abbrev FE_IN_MODE (i : Nat) : Nat := 0x02000000 + i
abbrev FE_IN_RANGE (i : Nat) : Nat := 0x02010000 + i
abbrev FE_IN_BIAS (i : Nat) : Nat := 0x02020000 + i
abbrev FE_IN_EXC (i : Nat) : Nat := 0x02030000 + i
abbrev FE_IN_SHUNT (i : Nat) : Nat := 0x02040000 + i
abbrev FE_FILT_LEN (i : Nat) : Nat := 0x02050000 + i
abbrev FE_SET_COUNT (i : Nat) : Nat := 0x02060000 + i
abbrev FE_WB_EN (i : Nat) : Nat := 0x02070000 + i
abbrev FE_WB_CURRENT (i : Nat) : Nat := 0x02080000 + i
abbrev FE_WB_THRESH (i : Nat) : Nat := 0x02090000 + i
abbrev FE_QRST_MODE (i : Nat) : Nat := 0x020A0000 + i
abbrev FE_QRST_PERIOD (i : Nat) : Nat := 0x020B0000 + i
abbrev FE_QHP (i : Nat) : Nat := 0x020C0000 + i
abbrev FE_EXC_CURRENT (i : Nat) : Nat := 0x02100000 + i
abbrev FE_EXC_PIN_A (i : Nat) : Nat := 0x02110000 + i
abbrev FE_EXC_PIN_B (i : Nat) : Nat := 0x02120000 + i
abbrev FE_EXC_REV_PERIOD (i : Nat) : Nat := 0x02130000 + i
abbrev FE_EXC_BLANK (i : Nat) : Nat := 0x02140000 + i
abbrev FE_VW_INTERVAL (i : Nat) : Nat := 0x02180000 + i
abbrev FE_VW_PHASE (i : Nat) : Nat := 0x02190000 + i
abbrev FE_VW_F_START (i : Nat) : Nat := 0x021A0000 + i
abbrev FE_VW_F_STOP (i : Nat) : Nat := 0x021B0000 + i
abbrev FE_VW_SWEEP (i : Nat) : Nat := 0x021C0000 + i
abbrev FE_VW_WAIT (i : Nat) : Nat := 0x021D0000 + i
abbrev FE_VW_LISTEN (i : Nat) : Nat := 0x021E0000 + i
abbrev FE_LIN_CURVE (i : Nat) : Nat := 0x02200000 + i
abbrev FE_LIN_REF (i : Nat) : Nat := 0x02210000 + i
abbrev FE_LIN_COEF (i : Nat) : Nat := 0x02220000 + i
abbrev FE_IN_STATE (i : Nat) : Nat := 0x02300000 + i
abbrev FE_IN_STATUS (i : Nat) : Nat := 0x02310000 + i
abbrev FE_EXC_STATUS (i : Nat) : Nat := 0x02320000 + i
abbrev FE_WB_COUNT (i : Nat) : Nat := 0x02330000 + i
abbrev FE_CLAMP_COUNT (i : Nat) : Nat := 0x02340000 + i

/-! Block 0x03 ADC (R133 Table 4-8). -/
abbrev ADC_SCAN_MASK (i : Nat) : Nat := 0x03000000 + i
abbrev ADC_SETTLE (i : Nat) : Nat := 0x03010000 + i
abbrev ADC_LP (i : Nat) : Nat := 0x03020000 + i
abbrev ADC_PHASE (i : Nat) : Nat := 0x03030000 + i
abbrev ADC_THR_ELIG (i : Nat) : Nat := 0x03040000 + i
abbrev ADC_USER_OFFSET (i : Nat) : Nat := 0x03080000 + i
abbrev ADC_USER_GAIN (i : Nat) : Nat := 0x03090000 + i
abbrev ADC_CAL_OFFSET (i : Nat) : Nat := 0x030A0000 + i
abbrev ADC_CAL_GAIN (i : Nat) : Nat := 0x030B0000 + i
abbrev ADC_GRP_STATE (i : Nat) : Nat := 0x03100000 + i
abbrev ADC_GRP_PERIOD (i : Nat) : Nat := 0x03110000 + i
abbrev ADC_THR_DIV (i : Nat) : Nat := 0x03120000 + i
abbrev ADC_GRP_STATUS (i : Nat) : Nat := 0x03130000 + i
abbrev ADC_OVR_COUNT (i : Nat) : Nat := 0x03140000 + i
abbrev ADC_CONV_COUNT (i : Nat) : Nat := 0x03150000 + i

/-! Block 0x04 TMR (R160 Table 5-12). -/
abbrev TMR_EDGE (i : Nat) : Nat := 0x04000000 + i
abbrev TMR_THRESH (i : Nat) : Nat := 0x04010000 + i
abbrev TMR_HYST (i : Nat) : Nat := 0x04020000 + i
abbrev TMR_QUAL (i : Nat) : Nat := 0x04030000 + i
abbrev TMR_HOLDOFF (i : Nat) : Nat := 0x04040000 + i
abbrev TMR_PRESCALE (i : Nat) : Nat := 0x04050000 + i
abbrev TMR_USER_DELAY (i : Nat) : Nat := 0x04060000 + i
abbrev TMR_STP_EN (i : Nat) : Nat := 0x04070000 + i
abbrev TMR_ITV_MODE (i : Nat) : Nat := 0x04080000 + i
abbrev TMR_ITV_EDGE (i : Nat) : Nat := 0x04090000 + i
abbrev TMR_ITV_N (i : Nat) : Nat := 0x040A0000 + i
abbrev TMR_ITV_TIMEOUT (i : Nat) : Nat := 0x040B0000 + i
abbrev TMR_ITV_SRC (i : Nat) : Nat := 0x040C0000 + i
abbrev TMR_ITV_DLY_MIN (i : Nat) : Nat := 0x040D0000 + i
abbrev TMR_ITV_WINDOW (i : Nat) : Nat := 0x040E0000 + i
abbrev TMR_ITV_REC (i : Nat) : Nat := 0x040F0000 + i
abbrev TMR_TPO_WIDTH (i : Nat) : Nat := 0x04200000 + i
abbrev TMR_TPO_PERIOD_NS (i : Nat) : Nat := 0x04210000 + i
abbrev TMR_TPO_PERIOD_FR (i : Nat) : Nat := 0x04220000 + i
abbrev TMR_TPO_COUNT (i : Nat) : Nat := 0x04230000 + i
abbrev TMR_TPO_POL (i : Nat) : Nat := 0x04240000 + i
abbrev TMR_TPO_EN (i : Nat) : Nat := 0x04250000 + i
abbrev TMR_CMP_STATE (i : Nat) : Nat := 0x04300000 + i
abbrev TMR_IN_STATUS (i : Nat) : Nat := 0x04310000 + i
abbrev TMR_STAMP_COUNT (i : Nat) : Nat := 0x04320000 + i
abbrev TMR_LOST_DEAD (i : Nat) : Nat := 0x04330000 + i
abbrev TMR_LOST_RATE (i : Nat) : Nat := 0x04340000 + i
abbrev TMR_GLITCH_COUNT (i : Nat) : Nat := 0x04350000 + i
abbrev TMR_ITV_DISCARD (i : Nat) : Nat := 0x04360000 + i
abbrev TMR_ITV_MISS (i : Nat) : Nat := 0x04370000 + i
abbrev TMR_ITV_LAST_COUNT (i : Nat) : Nat := 0x04380000 + i
abbrev TMR_ITV_LAST_MEAN (i : Nat) : Nat := 0x04390000 + i
abbrev TMR_ITV_LAST_SD (i : Nat) : Nat := 0x043A0000 + i
abbrev TMR_TPO_STATE (i : Nat) : Nat := 0x04400000 + i
abbrev TMR_TPO_STATUS (i : Nat) : Nat := 0x04410000 + i

/-! Block 0x05 TB (R195 Table 6-10). -/
abbrev TB_STATE : Nat := 0x05000000
abbrev TB_STATUS : Nat := 0x05010000
abbrev TB_SRC : Nat := 0x05020000
abbrev TB_DOMAIN_PREF : Nat := 0x05030000
abbrev TB_FOLLOWED : Nat := 0x05040000
abbrev TB_QUALITY : Nat := 0x05050000
abbrev TB_JUMP_LIMIT : Nat := 0x05060000
abbrev TB_LOCK_WINDOW : Nat := 0x05070000
abbrev TB_SLEW_MAX : Nat := 0x05080000
abbrev TB_LOSS_TIME : Nat := 0x05090000
abbrev TB_PPS_DELAY : Nat := 0x050A0000
abbrev TB_PPS_UNC : Nat := 0x050B0000
abbrev TB_ASYM (i : Nat) : Nat := 0x050C0000 + i
abbrev TB_TIME (i : Nat) : Nat := 0x05100000 + i
abbrev TB_UNCERT : Nat := 0x05110000
abbrev TB_OFFSET (i : Nat) : Nat := 0x05120000 + i
abbrev TB_HOPS (i : Nat) : Nat := 0x05130000 + i
abbrev TB_HOP_DELAY (i : Nat) : Nat := 0x05140000 + i
abbrev TB_FREQ_ADJ : Nat := 0x05150000
abbrev TB_MODEL_STATE : Nat := 0x05160000
abbrev TB_MODEL_AGE : Nat := 0x05170000
abbrev TB_ERA : Nat := 0x05180000
abbrev TB_JUMP_COUNT : Nat := 0x05190000
abbrev TB_LAST_STEP : Nat := 0x051A0000
abbrev TB_REFUSED_COUNT : Nat := 0x051B0000

/-! Block 0x06 TRG (R234 Table 7-15). -/
abbrev TRG_PRIM_KIND (i : Nat) : Nat := 0x06000000 + i
abbrev TRG_PRIM_ARG_A (i : Nat) : Nat := 0x06010000 + i
abbrev TRG_PRIM_ARG_B (i : Nat) : Nat := 0x06020000 + i
abbrev TRG_PRIM_LINE (i : Nat) : Nat := 0x06030000 + i
abbrev TRG_CAP_EN (i : Nat) : Nat := 0x06040000 + i
abbrev TRG_MEAS_EN (i : Nat) : Nat := 0x06050000 + i
abbrev TRG_MEAS_THRESH (i : Nat) : Nat := 0x06060000 + i
abbrev TRG_WR_EN (i : Nat) : Nat := 0x06070000 + i
abbrev TRG_LINE_MIN (i : Nat) : Nat := 0x06100000 + i
abbrev TRG_LINE_WINDOW (i : Nat) : Nat := 0x06110000 + i
abbrev TRG_SEQ_ARC (i : Nat) : Nat := 0x06180000 + i
abbrev TRG_SEQ_TIMER (i : Nat) : Nat := 0x06190000 + i
abbrev TRG_SEQ_AUTO (i : Nat) : Nat := 0x061A0000 + i
abbrev TRG_SEQ_PRE (i : Nat) : Nat := 0x061B0000 + i
abbrev TRG_SEQ_POST (i : Nat) : Nat := 0x061C0000 + i
abbrev TRG_SEQ_RADIUS (i : Nat) : Nat := 0x061D0000 + i
abbrev TRG_GRP_SRC (i : Nat) : Nat := 0x06200000 + i
abbrev TRG_GRP_ACCEPT (i : Nat) : Nat := 0x06210000 + i
abbrev TRG_GRP_MODE (i : Nat) : Nat := 0x06220000 + i
abbrev TRG_GRP_SHOTS (i : Nat) : Nat := 0x06230000 + i
abbrev TRG_GRP_REARM (i : Nat) : Nat := 0x06240000 + i
abbrev TRG_WR_PERIOD (i : Nat) : Nat := 0x06280000 + i
abbrev TRG_GRP_STATE (i : Nat) : Nat := 0x06300000 + i
abbrev TRG_SLOT_STATE (i : Nat) : Nat := 0x06310000 + i
abbrev TRG_SEQ_STATE (i : Nat) : Nat := 0x06320000 + i
abbrev TRG_SEQ_CTR (i : Nat) : Nat := 0x06330000 + i
abbrev TRG_ID_COUNT (i : Nat) : Nat := 0x06340000 + i
abbrev TRG_FIRED_COUNT (i : Nat) : Nat := 0x06350000 + i
abbrev TRG_GRP_CAPTURED (i : Nat) : Nat := 0x06360000 + i
abbrev TRG_GRP_MISSED (i : Nat) : Nat := 0x06370000 + i
abbrev TRG_GRP_IGNORED (i : Nat) : Nat := 0x06380000 + i
abbrev TRG_HIT_LOST (i : Nat) : Nat := 0x06390000 + i
abbrev TRG_ANN_LATE : Nat := 0x063A0000
abbrev TRG_GAP_COUNT (i : Nat) : Nat := 0x063B0000 + i
abbrev TRG_WR_EXCL (i : Nat) : Nat := 0x063C0000 + i
abbrev TRG_WR_THR_DIV : Nat := 0x063D0000
abbrev TRG_STATUS : Nat := 0x063E0000

/-! Block 0x07 REC (R267 Table 8-18). -/
abbrev REC_RUN : Nat := 0x07000000
abbrev REC_STP_MAX : Nat := 0x07010000
abbrev REC_STP_AGE : Nat := 0x07020000
abbrev REC_ITV_MAX : Nat := 0x07030000
abbrev REC_ITV_AGE : Nat := 0x07040000
abbrev REC_HSK_PERIOD : Nat := 0x07050000
abbrev REC_HSK_COUNT : Nat := 0x07060000
abbrev REC_HSK_ADDR (i : Nat) : Nat := 0x07070000 + i
abbrev REC_SEQ (i : Nat) : Nat := 0x07100000 + i
abbrev REC_BUILT (i : Nat) : Nat := 0x07110000 + i
abbrev REC_STATUS : Nat := 0x07120000

/-! Block 0x08 COD (R269 Table 8-20). -/
abbrev COD_CLASS (i : Nat) : Nat := 0x08000000 + i
abbrev COD_EFFORT (i : Nat) : Nat := 0x08010000 + i
abbrev COD_THR_REDUCE : Nat := 0x08100000
abbrev COD_BLOCKS (i : Nat) : Nat := 0x08110000 + i
abbrev COD_RAW (i : Nat) : Nat := 0x08120000 + i
abbrev COD_BACKLOG : Nat := 0x08130000
abbrev COD_STATUS : Nat := 0x08140000

/-! Block 0x09 GRN (R308 Table 9-11). -/
abbrev GRN_PLOT_SPACE : Nat := 0x09000000
abbrev GRN_FREE : Nat := 0x09010000
abbrev GRN_FREE_LARGEST : Nat := 0x09020000
abbrev GRN_GLEAN_MAX : Nat := 0x09030000
abbrev GRN_GLEAN_LAP_MAX : Nat := 0x09040000
abbrev GRN_SLICE_LIMIT : Nat := 0x09050000
abbrev GRN_PLOT_KIND (i : Nat) : Nat := 0x09100000 + i
abbrev GRN_PLOT_BASE (i : Nat) : Nat := 0x09110000 + i
abbrev GRN_PLOT_SIZE (i : Nat) : Nat := 0x09120000 + i
abbrev GRN_PLOT_KINDS (i : Nat) : Nat := 0x09130000 + i
abbrev GRN_RING_PLOT (i : Nat) : Nat := 0x09140000 + i
abbrev GRN_RING_SEGS (i : Nat) : Nat := 0x09150000 + i
abbrev GRN_RING_DEPTH (i : Nat) : Nat := 0x09160000 + i
abbrev GRN_STORE_USED (i : Nat) : Nat := 0x09200000 + i
abbrev GRN_STORE_UNACK (i : Nat) : Nat := 0x09210000 + i
abbrev GRN_STORE_RECORDS (i : Nat) : Nat := 0x09220000 + i
abbrev GRN_STORE_REFUSED (i : Nat) : Nat := 0x09230000 + i
abbrev GRN_STORE_DAMAGED (i : Nat) : Nat := 0x09240000 + i
abbrev GRN_STATUS : Nat := 0x09300000

/-! Block 0x0A SRM (R309 Table 9-12). -/
abbrev SRM_REGION_CRIT (i : Nat) : Nat := 0x0A000000 + i
abbrev SRM_GLEAN_MAX : Nat := 0x0A010000
abbrev SRM_GLEAN_LAP_MAX : Nat := 0x0A020000
abbrev SRM_TEST_MODE : Nat := 0x0A030000
abbrev SRM_TEST_PACE : Nat := 0x0A040000

/-! Block 0x0B LNK (R345 Table 10-11). -/
abbrev LNK_PORT_EN (i : Nat) : Nat := 0x0B000000 + i
abbrev LNK_WIDTH_MAX (i : Nat) : Nat := 0x0B010000 + i
abbrev LNK_LANE_EN (i : Nat) : Nat := 0x0B020000 + i
abbrev LNK_PRECODE (i : Nat) : Nat := 0x0B030000 + i
abbrev LNK_SER_DEGRADE : Nat := 0x0B040000
abbrev LNK_SER_FAIL : Nat := 0x0B050000
abbrev LNK_EYE_MIN_H : Nat := 0x0B060000
abbrev LNK_EYE_MIN_V : Nat := 0x0B070000
abbrev LNK_TRAIN_TIMEOUT : Nat := 0x0B080000
abbrev LNK_REJOIN : Nat := 0x0B090000
abbrev LNK_REJOIN_HOLD : Nat := 0x0B0A0000
abbrev LNK_PORT_STATE (i : Nat) : Nat := 0x0B100000 + i
abbrev LNK_PORT_WIDTH (i : Nat) : Nat := 0x0B110000 + i
abbrev LNK_LANE_STATE (i : Nat) : Nat := 0x0B120000 + i
abbrev LNK_STATUS (i : Nat) : Nat := 0x0B130000 + i
abbrev LNK_CW_CORR (i : Nat) : Nat := 0x0B140000 + i
abbrev LNK_SYM_CORR (i : Nat) : Nat := 0x0B150000 + i
abbrev LNK_CW_UNCORR (i : Nat) : Nat := 0x0B160000 + i
abbrev LNK_SLOT_BAD (i : Nat) : Nat := 0x0B170000 + i
abbrev LNK_FILL_INS (i : Nat) : Nat := 0x0B180000 + i
abbrev LNK_FILL_DEL (i : Nat) : Nat := 0x0B190000 + i
abbrev LNK_LOCK_LOSS (i : Nat) : Nat := 0x0B1A0000 + i
abbrev LNK_PPM (i : Nat) : Nat := 0x0B1B0000 + i
abbrev LNK_EYE_LAST (i : Nat) : Nat := 0x0B1C0000 + i
abbrev LNK_SKEW (i : Nat) : Nat := 0x0B1D0000 + i

/-! Block 0x0C CLP (R388 Table 11-22). -/
abbrev CLP_REC_DIR : Nat := 0x0C000000
abbrev CLP_POS_HOPS (i : Nat) : Nat := 0x0C100000 + i
abbrev CLP_POS_END (i : Nat) : Nat := 0x0C110000 + i
abbrev CLP_TX_FRAMES (i : Nat) : Nat := 0x0C120000 + i
abbrev CLP_RX_FRAMES (i : Nat) : Nat := 0x0C130000 + i
abbrev CLP_RETX (i : Nat) : Nat := 0x0C140000 + i
abbrev CLP_RX_DISCARD (i : Nat) : Nat := 0x0C150000 + i
abbrev CLP_TURNED (i : Nat) : Nat := 0x0C160000 + i
abbrev CLP_TURN_DROP : Nat := 0x0C170000
abbrev CLP_XOFF_TIME (i : Nat) : Nat := 0x0C180000 + i
abbrev CLP_STATUS : Nat := 0x0C190000
abbrev CLP_DSP_DROP_WAIT : Nat := 0x0C200000
abbrev CLP_DSP_DROP_MIN : Nat := 0x0C210000
abbrev CLP_DSP_BANK_BYTES : Nat := 0x0C220000
abbrev CLP_DSP_DEPTH (i : Nat) : Nat := 0x0C230000 + i
abbrev CLP_DSP_STALL : Nat := 0x0C240000
abbrev CLP_DSP_DROPPED (i : Nat) : Nat := 0x0C250000 + i

/-! Block 0x0D PRT (R390 Table 11-24). -/
abbrev PRT_ENABLE : Nat := 0x0D000000
abbrev PRT_SHEAF_WAIT : Nat := 0x0D010000
abbrev PRT_KIND_RING (i : Nat) : Nat := 0x0D020000 + i
abbrev PRT_LINK : Nat := 0x0D100000
abbrev PRT_DELIVERED (i : Nat) : Nat := 0x0D110000 + i
abbrev PRT_CRC_BAD : Nat := 0x0D120000
abbrev PRT_UNDELIVERED : Nat := 0x0D130000
abbrev PRT_TAGS_USED : Nat := 0x0D140000
abbrev PRT_SHEAVES (i : Nat) : Nat := 0x0D150000 + i
abbrev PRT_STRAGGLERS : Nat := 0x0D160000
abbrev PRT_NOTAG : Nat := 0x0D170000
abbrev PRT_RETURNED : Nat := 0x0D180000
abbrev PRT_STATUS : Nat := 0x0D190000

/-! Block 0x0E RED (R418 Table 12-12). -/
abbrev RED_PREF : Nat := 0x0E000000
abbrev RED_HEALTH_MIN : Nat := 0x0E010000
abbrev RED_REVERT_HOLD : Nat := 0x0E020000
abbrev RED_CE_LIMIT : Nat := 0x0E030000
abbrev RED_UNRES_WINDOW : Nat := 0x0E040000
abbrev RED_RETRY_MAX : Nat := 0x0E050000
abbrev RED_SYNC_RATE : Nat := 0x0E060000
abbrev RED_ACTIVE : Nat := 0x0E100000
abbrev RED_CLAIM (i : Nat) : Nat := 0x0E110000 + i
abbrev RED_HEALTH (i : Nat) : Nat := 0x0E120000 + i
abbrev RED_DIE_STATE (i : Nat) : Nat := 0x0E130000 + i
abbrev RED_PENALTY (i : Nat) : Nat := 0x0E140000 + i
abbrev RED_STATUS : Nat := 0x0E150000
abbrev RED_SWITCH_COUNT : Nat := 0x0E160000
abbrev RED_MISMATCH_COUNT : Nat := 0x0E170000
abbrev RED_UNRES_COUNT : Nat := 0x0E180000
abbrev RED_LAST_MISMATCH (i : Nat) : Nat := 0x0E190000 + i
abbrev RED_LAST_CAUSE : Nat := 0x0E1A0000
abbrev RED_RESENT : Nat := 0x0E1B0000
abbrev RED_DUP_DISCARD : Nat := 0x0E1C0000
abbrev RED_SYNC_PROGRESS (i : Nat) : Nat := 0x0E1D0000 + i
abbrev RED_SELFTEST_RESULT (i : Nat) : Nat := 0x0E1E0000 + i
abbrev RED_GRN_CE (i : Nat) : Nat := 0x0E200000 + i
abbrev RED_GRN_UE (i : Nat) : Nat := 0x0E210000 + i
abbrev RED_GRN_INNER (i : Nat) : Nat := 0x0E220000 + i
abbrev RED_GRN_SLICE_FAIL (i : Nat) : Nat := 0x0E230000 + i
abbrev RED_GRN_BAND (i : Nat) : Nat := 0x0E240000 + i
abbrev RED_GRN_LAP (i : Nat) : Nat := 0x0E250000 + i
abbrev RED_SRM_CE (i : Nat) : Nat := 0x0E260000 + i
abbrev RED_SRM_UE (i : Nat) : Nat := 0x0E270000 + i
abbrev RED_SRM_LAP (i : Nat) : Nat := 0x0E280000 + i
abbrev RED_LAP_SLOW (i : Nat) : Nat := 0x0E290000 + i
abbrev RED_PART_REFUSED (i : Nat) : Nat := 0x0E2A0000 + i
abbrev RED_DMA_HALT (i : Nat) : Nat := 0x0E2B0000 + i
abbrev RED_SRM_CONFLICT (i : Nat) : Nat := 0x0E2C0000 + i
abbrev RED_SRM_TEST_FAIL (i : Nat) : Nat := 0x0E2D0000 + i

/-! Block 0x0F CAL (R440 Table 13-11). -/
abbrev CAL_SAMPLES : Nat := 0x0F000000
abbrev CAL_POINT_SETTLE : Nat := 0x0F010000
abbrev CAL_NOISE_MAX : Nat := 0x0F020000
abbrev CAL_AGREE_OFS : Nat := 0x0F030000
abbrev CAL_AGREE_GAIN : Nat := 0x0F040000
abbrev CAL_AGREE_EXC : Nat := 0x0F050000
abbrev CAL_AGREE_TIME : Nat := 0x0F060000
abbrev CAL_SHUNT_TOL : Nat := 0x0F070000
abbrev CAL_PCHK_PERIOD : Nat := 0x0F080000
abbrev CAL_PCHK_TOL : Nat := 0x0F090000
abbrev CAL_PCHK_WB (i : Nat) : Nat := 0x0F0A0000 + i
abbrev CAL_EXC_RATIO (i : Nat) : Nat := 0x0F100000 + i
abbrev CAL_TMR_DELAY (i : Nat) : Nat := 0x0F110000 + i
abbrev CAL_THR_TRIM (i : Nat) : Nat := 0x0F120000 + i
abbrev CAL_TAP_WIDTH (i : Nat) : Nat := 0x0F130000 + i
abbrev CAL_RESULT (i : Nat) : Nat := 0x0F140000 + i
abbrev CAL_LAST_TIME (i : Nat) : Nat := 0x0F150000 + i
abbrev CAL_STATE : Nat := 0x0F160000
abbrev CAL_SLOT_IN_FORCE : Nat := 0x0F170000
abbrev CAL_SLOT_SEQ : Nat := 0x0F180000
abbrev CAL_PCHK_FAIL (i : Nat) : Nat := 0x0F190000 + i
abbrev CAL_STATUS : Nat := 0x0F1A0000

/-! Block 0x10 ALM (R460 Table 14-9). -/
abbrev ALM_SRC_LINE (i : Nat) : Nat := 0x10000000 + i
abbrev ALM_SRC_POL (i : Nat) : Nat := 0x10010000 + i
abbrev ALM_SRC_WBK (i : Nat) : Nat := 0x10020000 + i
abbrev ALM_LINE_LATCH (i : Nat) : Nat := 0x10080000 + i
abbrev ALM_LINE_RADIUS (i : Nat) : Nat := 0x10090000 + i
abbrev ALM_RMT_LINE (i : Nat) : Nat := 0x100A0000 + i
abbrev ALM_PIN_EN (i : Nat) : Nat := 0x100B0000 + i
abbrev ALM_PIN_POL (i : Nat) : Nat := 0x100C0000 + i
abbrev ALM_PIN_MODE (i : Nat) : Nat := 0x100D0000 + i
abbrev ALM_LOOP_SRC (i : Nat) : Nat := 0x10100000 + i
abbrev ALM_LOOP_INPUT (i : Nat) : Nat := 0x10110000 + i
abbrev ALM_LOOP_LO (i : Nat) : Nat := 0x10120000 + i
abbrev ALM_LOOP_HI (i : Nat) : Nat := 0x10130000 + i
abbrev ALM_LOOP_LINE (i : Nat) : Nat := 0x10140000 + i
abbrev ALM_LOOP_OFF_UA (i : Nat) : Nat := 0x10150000 + i
abbrev ALM_LOOP_ON_UA (i : Nat) : Nat := 0x10160000 + i
abbrev ALM_LOOP_FAIL (i : Nat) : Nat := 0x10170000 + i
abbrev ALM_LOOP_UPDATE (i : Nat) : Nat := 0x10180000 + i
abbrev ALM_LOOP_STALE (i : Nat) : Nat := 0x10190000 + i
abbrev ALM_LINE_STATE (i : Nat) : Nat := 0x10200000 + i
abbrev ALM_LINE_RAW : Nat := 0x10210000
abbrev ALM_RMT_USED : Nat := 0x10220000
abbrev ALM_LOOP_SETPOINT (i : Nat) : Nat := 0x10230000 + i
abbrev ALM_LOOP_MEASURED (i : Nat) : Nat := 0x10240000 + i
abbrev ALM_LOOP_STATUS (i : Nat) : Nat := 0x10250000 + i
abbrev ALM_LOOP_FAULTS (i : Nat) : Nat := 0x10260000 + i
abbrev ALM_RAISE_COUNT (i : Nat) : Nat := 0x10270000 + i
abbrev ALM_WORD_RX (i : Nat) : Nat := 0x10280000 + i
abbrev ALM_STATUS : Nat := 0x10290000

/-! Block 0x11 MGT (R485 Table 15-15). -/
abbrev MGT_FW_VERSION : Nat := 0x11000000
abbrev MGT_FW_SVN : Nat := 0x11010000
abbrev MGT_ARB_COUNT : Nat := 0x11020000
abbrev MGT_BOOT_IMAGE : Nat := 0x11030000
abbrev MGT_BOOT_STATE : Nat := 0x11040000
abbrev MGT_UPD_STATE : Nat := 0x11050000
abbrev MGT_SESSION_LEFT : Nat := 0x11060000
abbrev MGT_KEY_STATE (i : Nat) : Nat := 0x11070000 + i
abbrev MGT_SERIAL (i : Nat) : Nat := 0x11080000 + i
abbrev MGT_TEMP (i : Nat) : Nat := 0x11100000 + i
abbrev MGT_VOLT (i : Nat) : Nat := 0x11110000 + i
abbrev MGT_CNT_SEL (i : Nat) : Nat := 0x11180000 + i
abbrev MGT_CNT_A (i : Nat) : Nat := 0x11190000 + i
abbrev MGT_CNT_B (i : Nat) : Nat := 0x111A0000 + i
abbrev MGT_LOG_SEQ : Nat := 0x11200000
abbrev MGT_STATUS : Nat := 0x11210000

/-! Block 0x12 PWR (R509 Table 16-11). -/
abbrev PWR_STATE : Nat := 0x12000000
abbrev PWR_RESET_CAUSE : Nat := 0x12010000
abbrev PWR_UP_TIME : Nat := 0x12020000
abbrev PWR_CFG_SEQ : Nat := 0x12030000
abbrev PWR_CFG_SOURCE : Nat := 0x12040000
abbrev PWR_JOIN_WAIT : Nat := 0x12050000
abbrev PWR_RAIL_STATE (i : Nat) : Nat := 0x12100000 + i
abbrev PWR_RAIL_EVENTS (i : Nat) : Nat := 0x12110000 + i
abbrev PWR_STATUS : Nat := 0x12120000

/-! Block 0x13 THM (R511 Table 16-13). -/
abbrev THM_LEVEL_N : Nat := 0x13000000
abbrev THM_LEVEL_FE (i : Nat) : Nat := 0x13010000 + i
abbrev THM_RISE_MAX : Nat := 0x13020000
abbrev THM_RISE_HOLD : Nat := 0x13030000
abbrev THM_STOP_DRAIN : Nat := 0x13040000
abbrev THM_STOP_MAX : Nat := 0x13050000
abbrev THM_RESUME_HOLD : Nat := 0x13060000
abbrev THM_AUTO_RESUME : Nat := 0x13070000
abbrev THM_RISE (i : Nat) : Nat := 0x13100000 + i
abbrev THM_PEAK (i : Nat) : Nat := 0x13110000 + i
abbrev THM_STATUS : Nat := 0x13120000
abbrev THM_STOP_COUNT : Nat := 0x13130000

end Sys2Proof.Machine.P
end

