-- ==== Sys2Proof/Machine/Bytes.lean ====
section
/-! DEFINITION. Byte order and the CRC-32C of packets, records and frames (R6, R32). -/

namespace Sys2Proof.Machine

/-- The low `n` bytes of a number, least significant byte first (R6). -/
def leBytes : Nat → Nat → List Byte
  | 0, _ => []
  | n + 1, v => BitVec.ofNat 8 v :: leBytes n (v / 256)

/-- The number a list of bytes spells, least significant byte first (R6). -/
def leNat : List Byte → Nat
  | [] => 0
  | b :: bs => b.toNat + 256 * leNat bs

/-- The 32-bit words of a byte list, little-endian; the bytes of an unfinished last word stand alone (R6, R31). -/
def wordsOfAux : Nat → List Byte → List Word
  | 0, _ => []
  | n + 1, bs => BitVec.ofNat 32 (leNat (bs.take 4)) :: wordsOfAux n (bs.drop 4)
def wordsOf (bs : List Byte) : List Word := wordsOfAux ((bs.length + 3) / 4) bs

/-- The bytes of a list of 32-bit words and of 64-bit words. -/
def bytesOf (ws : List Word) : List Byte := ws.flatMap (fun w => leBytes 4 w.toNat)
def bytesOf64 (ws : List W64) : List Byte := ws.flatMap (fun w => leBytes 8 w.toNat)

/-- The 64-bit words of a list of 32-bit words, the lower-numbered word in bits [31:0]; a zero word completes the last (R256). -/
def pairWords : List Word → List W64
  | [] => []
  | [a] => [BitVec.ofNat 64 a.toNat]
  | a :: b :: ws => BitVec.ofNat 64 (a.toNat + 4294967296 * b.toNat) :: pairWords ws

/-- One bit of the reflected polynomial division of R32. -/
def crcBit (c : Nat) : Nat := if c % 2 = 1 then (c / 2) ^^^ 0x82F63B78 else c / 2

/-- One byte of the reflected polynomial division of R32. -/
def crcByte (c : Nat) (b : Byte) : Nat :=
  crcBit (crcBit (crcBit (crcBit (crcBit (crcBit (crcBit (crcBit (c ^^^ b.toNat))))))))

/-- CRC-32C (R32): initial value and final XOR 0xFFFF_FFFF. -/
def crc32c (bs : List Byte) : Word := BitVec.ofNat 32 ((bs.foldl crcByte 0xFFFFFFFF) ^^^ 0xFFFFFFFF)

/-- Bytes up to a length, zeros at the end. -/
def padTo (n : Nat) (bs : List Byte) : List Byte := bs ++ List.replicate (n - bs.length) 0

/-- A list cut into pieces of `n`, at most `fuel` of them. -/
def chunks {α : Type} (n : Nat) : Nat → List α → List (List α)
  | 0, _ => []
  | _, [] => []
  | fuel + 1, xs => xs.take n :: chunks n fuel (xs.drop n)

end Sys2Proof.Machine
end

