-- ==== Sys2Proof/Machine/Sparse.lean ====
section
/-! DEFINITION. Sparse tables: a list of (key, value) pairs in one canonical form, keys strictly rising and no entry equal to what an
unlisted key reads as.  The parameter file, the staging area, the memories and every per-input or per-group table of the machine are
held so. -/

namespace Sys2Proof.Machine.Sparse

variable {α : Type}

/-- The entry at a key, if one is listed. -/
def find? : List (Nat × α) → Nat → Option α
  | [], _ => none
  | (a, v) :: m, k => if a = k then some v else find? m k

/-- What a key reads as: its entry, or `d` when none is listed. -/
def get (d : α) (m : List (Nat × α)) (k : Nat) : α := (find? m k).getD d

/-- The table without any entry at a key. -/
def erase (m : List (Nat × α)) (k : Nat) : List (Nat × α) := m.filter (fun e => e.1 != k)

/-- The table with an entry at a key, in its place in rising order. -/
def put : List (Nat × α) → Nat → α → List (Nat × α)
  | [], k, v => [(k, v)]
  | (a, w) :: m, k, v =>
    if k < a then (k, v) :: (a, w) :: m else if k = a then (k, v) :: m else (a, w) :: put m k v

/-- Writing a value: the entry goes when the value is what the unlisted key reads as. -/
def set [DecidableEq α] (d : α) (m : List (Nat × α)) (k : Nat) (v : α) : List (Nat × α) :=
  if v = d then erase m k else put m k v

/-- The keys rise strictly. -/
def sorted : List (Nat × α) → Bool
  | [] => true
  | [_] => true
  | (a, _) :: (b, w) :: m => decide (a < b) && sorted ((b, w) :: m)

/-- The canonical form, `d k` being what an unlisted key `k` reads as. -/
def wf [DecidableEq α] (d : Nat → α) (m : List (Nat × α)) : Bool :=
  sorted m && m.all (fun e => decide (e.2 ≠ d e.1))

end Sys2Proof.Machine.Sparse
end

