-- ==== Sys2Proof/Machine/Types.lean ====
section
/-! DEFINITION. The pieces of state that are not parameters, one structure for each chapter of the spec, as plain data. -/

namespace Sys2Proof.Machine

/-- A pair indexed by 0 and 1: the dies CD-A and CD-B, or the ports W and E (R9, R388). -/
structure Two (α : Type) where
  a : α
  b : α
  deriving DecidableEq, Repr

/-! ### Commands, epochs and snapshots (chapter 2) -/

/-- A reply (Table 2-4, R36): what its RPL record carries, and the port it leaves by. -/
structure Reply where
  node : Nat := 0
  issuer : Nat := 0
  arrival : Arrival := .host
  tag : Nat := 0
  opcode : Nat := 0
  status : Nat := 0
  epoch : Word := 0
  time : Nat := 0
  data : List Word := []
  deriving DecidableEq, Repr

/-- An outstanding command (R39): its packet, the instant at which it acts when it waits for one, and the last reply sent for it. -/
structure Outstanding where
  h : Hdr
  op : Nat
  p : List Word
  due : Option Nat := none
  last : Option Reply := none
  deriving DecidableEq, Repr

/-- A final reply kept for 1 ms (R40). -/
structure KeptReply where
  issuer : Nat
  tag : Nat
  crc : Word
  until_ : Nat
  reply : Reply
  deriving DecidableEq, Repr

/-- An accepted epoch commit (R57): PENDING, or DEFERRED with the uncertainty that deferred it and the boundary at which it applies once
lock is back (R60). -/
structure Commit where
  h : Hdr
  newEpoch : Word
  policy : Nat
  tolerance : Nat
  instant : Nat
  deferred : Bool := false
  uncert : Nat := 0
  applyAt : Option Nat := none
  deriving DecidableEq, Repr

/-- A SNAP.TAKE that waits for its latching instant (R64). -/
structure SnapWait where
  h : Hdr
  mask : Nat
  clear : Bool
  instant : Nat
  deriving DecidableEq, Repr

/-- The snapshot a node holds (R64, R65): the parameter file at the latching instant and the values that are computed when read; the command it was taken
for, the die that latched it, and SEQ of the record that holds its reply (R30). -/
structure Snapshot where
  id : Nat
  instant : Nat
  mask : Nat
  par : List (Nat × Word)
  computed : List (Nat × Word)
  take : SnapWait
  die : Nat
  reply : Nat
  deriving DecidableEq, Repr

structure CmdState where
  /-- The parameter file before the latest commit, and that commit's instant in ns (R120, R213). -/
  oldPar : List (Nat × Word) := []
  parFrom : Nat := 0
  outstanding : List Outstanding := []
  kept : List KeptReply := []
  staged : List (Nat × Word) := []
  commit : Option Commit := none
  snapWait : Option SnapWait := none
  /-- The node ID to be taken and the slot boundary at which it takes effect (R368). -/
  newId : Option (Nat × Nat) := none
  snap : Option Snapshot := none
  /-- The ns of node time in which status bits were set last, and those bits by parameter (R11). -/
  bitsAt : Nat := 0
  bitsSet : List (Nat × Nat) := []
  /-- Replies built so far, newest first: what the node has said (R36). -/
  replies : List Reply := []
  deriving DecidableEq, Repr

/-! ### Records (chapters 7 and 8) -/

/-- A gap entry (Table 8-4). -/
structure GapEntry where
  reason : Nat
  count : Nat
  firstSeq : Nat
  firstT : Nat
  lastT : Nat
  input : Nat := 0
  deriving DecidableEq, Repr

/-- A built record (R237, R238): its header fields, gap entries and body words. -/
structure Record where
  kind : Nat
  seq : Nat
  node : Nat
  run : Nat
  epochx : Bool
  step : Bool
  tbu : Bool
  gaps : List GapEntry
  epoch : Word
  time : Nat
  kspec : Nat
  body : List W64
  deriving DecidableEq, Repr

/-- An open STP, ITV or ALM record (R251, R252, R255): its entries, when it was opened, and the instants it spans. -/
structure OpenRecord where
  entries : List (List W64)
  opened : Nat
  first : Nat
  last : Nat
  slot : Nat := 0
  deriving DecidableEq, Repr

structure RecState where
  stp : Option OpenRecord := none
  itv : Option OpenRecord := none
  alm : Option OpenRecord := none
  /-- Gap entries waiting for the next record of their kind (R231). -/
  gaps : List (Nat × GapEntry) := []
  /-- Instants at which an epoch took effect, newest first (R238 EPOCH, EPOCHX). -/
  epochs : List (Nat × Word) := []
  /-- Instants at which the lock report changed, newest first (R238 TBU). -/
  locks : List (Nat × Bool) := []
  /-- Both histories as they were before the last step of the time base. -/
  oldEpochs : List (Nat × Word) := []
  oldLocks : List (Nat × Bool) := []
  deriving DecidableEq, Repr

/-! ### Memory (chapter 9) -/

/-- A plot (R276): ID, base and size in MiB, kind, record kinds, and the weights of a ring plot's groups. -/
structure Plot where
  id : Nat
  kind : Nat
  base : Nat
  size : Nat
  kinds : Nat
  weights : List (Nat × Nat)
  deriving DecidableEq, Repr

/-- The index entry of a stored record (R283 to R287), with the port its segments leave by. -/
structure IndexEntry where
  kind : Nat
  seq : Nat
  run : Nat
  time : Nat
  line : Nat
  lines : Nat
  length : Nat
  dir : Nat := 0
  acked : Bool := false
  /-- The DAMAGED mark as each die holds it (R287, R297). -/
  marks : Two Bool := ⟨false, false⟩
  deriving DecidableEq, Repr

/-- A record store (R283): its write position in lines and its index, oldest record first. -/
structure Store where
  wp : Nat := 0
  entries : List IndexEntry := []
  deriving DecidableEq, Repr

/-- A word held in a pre-trigger ring (R280): its input, its sampling instant and its place in the ring. -/
structure RingWord where
  input : Nat
  instant : Nat
  pos : Nat
  /-- The output spacing in force at the word, and whether it is the first after a time-base step (R246). -/
  spacing : Nat
  stepped : Bool := false
  /-- When the grid in force at the word came into force (R120, R122). -/
  gridFrom : Nat := 0
  deriving DecidableEq, Repr

/-- The ring of a group (R279, R280): the next place to write, and the words held, newest first. -/
structure Ring where
  next : Nat := 0
  /-- Inputs whose next word is the first after a time-base step. -/
  fresh : List Nat := []
  words : List RingWord := []
  /-- The latest sampling instant of a word overwritten before it was read, plus 1 (R282). -/
  lost : Nat := 0
  deriving DecidableEq, Repr

/-- Errors standing in a Granary line: the values XORed onto its symbols 0 to 71, and the poison mark (R273). -/
structure LineError where
  symbols : List (Nat × Byte) := []
  poison : Bool := false
  deriving DecidableEq, Repr

/-- Errors standing in an SRAM word: inverted data bits and inverted check bits (R293). -/
structure WordError where
  data : W64 := 0
  check : Byte := 0
  deriving DecidableEq, Repr

/-- One Gleaner (R298 to R300): the next line or word, when its lap began, the laps completed, whether its last lap exceeded the limit, the symbols
corrected per slice in this lap (R274), and the µs of its latest read with the reads in it. -/
structure Gleaner where
  next : Nat := 0
  lapStart : Nat := 0
  laps : Nat := 0
  slow : Bool := false
  slices : List (Nat × Nat) := []
  readIn : Nat := 0
  reads : Nat := 0
  deriving DecidableEq, Repr

/-- An access-fault trap of the management processor (R465, Table 9-7): at a fetch, a load, or a store or atomic operation. -/
inductive Trap where
  | fetch
  | load
  | store
  deriving DecidableEq, Repr

/-- The memory of one concentrator die that is its own: error states, where its stored bytes and words differ from those both dies hold alike (R297),
Gleaners, the stack temperature, the refresh that fell due last (log 100); the processor's traps with their addresses, newest first, the DMA
channels that have halted with the address, and the masters whose working buffer has failed since a record was built (Table 9-7). -/
structure DieMemory where
  lines : List (Nat × LineError) := []
  words : List (Nat × WordError) := []
  granDiff : List (Nat × Byte) := []
  sramDiff : List (Nat × W64) := []
  traps : List (Trap × Nat) := []
  halted : List (Nat × Nat) := []
  workBad : List Nat := []
  granGleaner : Gleaner := {}
  sramGleaner : Gleaner := {}
  stackTemp : Int := 0
  lastRefresh : Nat := 0
  deriving DecidableEq, Repr

/-- The phase of the background test (R304). -/
inductive TestPhase where
  | idle
  | save
  | march
  | restore
  deriving DecidableEq, Repr

/-- What waits for a port of the SRAM: an access, one of the module's own already done (log 109), or a command that reads or injects there (R301, R306). -/
inductive SramWork where
  | access (a : SramAccess)
  | own
  | memRead (h : Hdr) (p : List Word)
  | checkbit (h : Hdr) (p : List Word)
  deriving DecidableEq, Repr

/-- A request at a port of the SRAM (R289): its master, its word, the port of a dual-port bank, when it was made, and what it does. -/
structure SramWait where
  master : Nat
  word : Nat
  portB : Bool := false
  since : Nat
  work : SramWork
  /-- The cycles it has waited while another master held the port (R290). -/
  conflict : Nat := 0
  deriving DecidableEq, Repr

structure SramTest where
  phase : TestPhase := .idle
  region : Nat := 0
  again : Bool := false
  abandoned : Bool := false
  ending : Bool := false
  /-- Requests that wait for a port or for the region's return, in their order (R289, R305). -/
  waiting : List SramWait := []
  deriving DecidableEq, Repr

structure MemState where
  /-- Bytes of the Granary plot space and of the on-chip SRAM, in canonical form (R25: both dies hold the same). -/
  gran : List (Nat × Byte) := []
  sram : List (Nat × Byte) := []
  dies : Two DieMemory := ⟨{}, {}⟩
  plots : List Plot := []
  stores : List (Nat × Store) := []
  rings : List (Nat × Ring) := []
  test : SramTest := {}
  selfRefresh : Bool := false
  granReady : Bool := false
  /-- The cycle (ns) from which each port of the SRAM is free and the master that holds it until then, key 2 × bank + port, or 128 + word for a word
  that an operation of two cycles holds; and per master what its last access returned in each die, none where it was refused or trapped. -/
  portFree : List (Nat × Nat × Nat) := []
  returned : List (Nat × Two (Option W64)) := []
  deriving DecidableEq, Repr

/-! ### Ring protocol and dispatch (chapter 11) -/

/-- A frame as the node holds it (R352): the SOF fields that do not change from hop to hop, and the payload. -/
structure Frame where
  ftype : Nat
  origin : Nat
  dest : Nat
  prio : Nat
  turned : Bool := false
  auth : Bool := false
  payload : List Byte
  /-- The stored record of this node whose last segment the frame carries, for R358: store, kind, run, SEQ. -/
  last : Option (Nat × Nat × Nat × Nat) := none
  deriving DecidableEq, Repr

/-- A frame in a retransmit buffer (R357): its HSEQ and the instant its EOF was sent last. -/
structure SentFrame where
  hseq : Nat
  sentAt : Nat
  frame : Frame
  deriving DecidableEq, Repr

/-- The latest POS received on a port (R351). -/
structure PosContent where
  endId : Nat
  hops : Nat
  brk : Bool
  at_ : Nat
  deriving DecidableEq, Repr

/-- One ring port of the link protocol (R355 to R367). -/
structure ClpPort where
  txNext : Nat := 0
  rxExpect : Nat := 0
  nakSent : Bool := false
  retransmit : List SentFrame := []
  /-- Frames waiting for this output port: the node's own, and those passing through or turned. -/
  own : List Frame := []
  through : List Frame := []
  /-- Per priority, whether the last frame sent was the node's own (R361). -/
  lastOwn : List (Nat × Bool) := []
  /-- XOFF bits this port sends, and those its neighbour holds, with when each of the latter began (R362). -/
  xoffOut : Nat := 0
  xoffIn : Nat := 0
  xoffSince : Nat := 0
  /-- The last ACK sent (R356): its ACK_SEQ, NAK and XOFF, and when. -/
  ackSeq : Nat := 65535
  ackNak : Bool := false
  ackXoff : Nat := 0
  ackAt : Nat := 0
  pos : Option PosContent := none
  /-- The POS sent last: END_ID, HOPS, BREAK, and when. -/
  posSent : Option PosContent := none
  /-- A headland turn is in force at this port (R364). -/
  turning : Bool := false
  /-- How long the neighbour has held XOFF, in 1/4096 ns, up to its last release (R362). -/
  xoffHeld : Nat := 0
  /-- The last copy this port ended with ABORT, and its HSEQ (R360). -/
  aborted : Option (Nat × Frame) := none
  deriving DecidableEq, Repr

/-- A command packet that has reached this node and is not yet judged (R34, R359). -/
structure Packet where
  arrival : Arrival
  issuer : Nat
  auth : Bool
  bytes : List Byte
  deriving DecidableEq, Repr

/-- A dispatch descriptor (Table 11-15). -/
structure Descriptor where
  seq : Nat
  kind : Nat
  run : Nat
  prio : Nat
  first : Bool
  last : Bool
  refetch : Bool
  /-- DAMAGED when pushed, as each die holds it. -/
  marks : Two Bool
  dir : Nat
  offset : Nat
  len : Nat
  store : Nat
  addr : Nat
  pushed : Nat
  length : Nat
  hopsW : Nat
  hopsE : Nat
  /-- The cycle of the CD core clock in which it was pushed (R370). -/
  cycle : Nat := 0
  /-- ORIGIN of the record's first segment, once that has been popped (R387). -/
  origin : Option Nat := none
  deriving DecidableEq, Repr

structure ClpState where
  ports : Two ClpPort := ⟨{}, {}⟩
  fill : List Descriptor := []
  drain : List Descriptor := []
  /-- Cycles of the CD core clock (R370, R371): the first that begins with the draining bank empty, the first in which that bank is readable, and the
  next free one for a push and for a pop. -/
  emptyFrom : Nat := 0
  readable : Nat := 0
  pushNext : Nat := 0
  popNext : Nat := 0
  /-- Descriptors whose push stalls, and since when (R372). -/
  stalled : List Descriptor := []
  stalledSince : Nat := 0
  /-- The ACQ.FETCH that runs while pushes of its records stall, with the data of its final reply (R376). -/
  fetch : Option (Hdr × List Word) := none
  /-- Announcements received and not yet judged, with the port they came by (R224). -/
  announces : List (Nat × List Byte) := []
  inbox : List Packet := []
  deriving DecidableEq, Repr

/-! ### Portal (chapter 11) -/

/-- A record in the assembly buffer (R377). -/
structure Assembly where
  node : Nat
  kind : Nat
  run : Nat
  seq : Nat
  bytes : List Byte
  lastAt : Nat
  turned : Bool
  damaged : Bool
  refetch : Bool
  prio : Nat
  hopsW : Nat
  hopsE : Nat
  deriving DecidableEq, Repr

/-- A merge tag (R378): its place in the table, the five fields, and when it opened or closed. -/
structure MergeTag where
  slot : Nat
  id : Nat
  expect : Nat
  received : Nat
  closed : Bool
  latest : Nat
  at_ : Nat
  deriving DecidableEq, Repr

/-- A duplicate window (R406): building node, kind, RUN, H, and the map of the numbers H − 1,023 to H (bit 0 is H). -/
structure DupWindow where
  node : Nat
  kind : Nat
  run : Nat
  high : Nat
  map : Nat
  deriving DecidableEq, Repr

/-- An item to be delivered, or delivered (Table 11-19). -/
structure Delivery where
  type : Nat
  ring : Nat
  bytes : List Byte
  damaged : Bool := false
  refetch : Bool := false
  crcBad : Bool := false
  turned : Bool := false
  straggler : Bool := false
  noTag : Bool := false
  kind : Nat := 0
  node : Nat := 0
  seq : Nat := 0
  run : Nat := 0
  id : Nat := 0
  prev : Nat := 0xFFFFFFFF
  /-- The stored record of this node that the entry acknowledges (R358). -/
  own : Option (Nat × Nat × Nat × Nat) := none
  /-- What the fragment says of its sheaf: DISTANCE, RADIUS, HOPS_W and HOPS_E (R378). -/
  sheaf : Option (Nat × Nat × Nat × Nat) := none
  deriving DecidableEq, Repr

/-- An entry written to host memory (R384): its four words, the item's offset and its bytes. -/
structure WrittenEntry where
  ring : Nat
  index : Nat
  words : List W64
  offset : Nat
  bytes : List Byte
  deriving DecidableEq, Repr

/-- A delivery ring's own runtime: the next offset in its data area, the offset and length of entries not yet consumed, the items held for want of
room, and the entries not yet signalled with the instant of the first (R384 to R386). -/
structure RingRuntime where
  offset : Nat := 0
  live : List (Nat × Nat × Nat) := []
  queue : List Delivery := []
  full : Bool := false
  unsignalled : Nat := 0
  firstUnsignalled : Nat := 0
  deriving DecidableEq, Repr

structure PrtState where
  /-- The role in force since the last reset that reloaded configuration (R1). -/
  portal : Bool := false
  assembly : List Assembly := []
  tags : List MergeTag := []
  windows : List DupWindow := []
  bar0 : List (Nat × Word) := []
  rings : List (Nat × RingRuntime) := []
  /-- Host-memory entries written, newest first, and MSI-X vectors signalled, newest first. -/
  written : List WrittenEntry := []
  signals : List Nat := []
  linkUp : Bool := false
  /-- The words written back to host memory, CMD_HEAD to CMD_WB and PROD to WB: address and value, newest first (R383, R384). -/
  writebacks : List (Nat × Nat) := []
  /-- The assembly buffer has passed 87.5 % and not yet fallen to 75 % (R377). -/
  asmFull : Bool := false
  deriving DecidableEq, Repr

/-! ### Redundancy (chapter 12) -/

/-- An own-output item of a die (R395): a ring frame with its port, a delivery decision, or a slot digest.  `flaw` is 0 in a copy that is
what fault-free processing gives, and any other number marks how a faulty copy differs. -/
inductive OutItem where
  | frame (port : Nat) (f : Frame)
  | deliver (d : Delivery)
  | digest (slot frames : Nat) (controls changes : Word) (claims : Two Nat)
  deriving DecidableEq, Repr

structure HeldItem where
  slot : Nat
  order : Nat
  item : OutItem
  incomplete : Bool := false
  flaw : Nat := 0
  /-- Not compared while a die is SYNCING (R414). -/
  unchecked : Bool := false
  arrivedAt : Nat := 0
  deriving DecidableEq, Repr

/-- A mismatch under arbitration (R403). -/
structure Mismatch where
  kind : Nat
  slot : Nat
  at_ : Nat
  claims : Two (Option Nat) := ⟨none, none⟩
  /-- The check of Table 12-5 that attributes a die, 0 for none, once it is known. -/
  checks : Two (Option Nat) := ⟨none, none⟩
  deriving DecidableEq, Repr

/-- A fault injection in place (Table 12-8). -/
structure Injection where
  kind : Nat
  die : Nat
  evidence : Bool
  until_ : Nat
  deriving DecidableEq, Repr

/-- What one die does in its own right (R399 to R414; log 100). -/
structure DieState where
  ready : Bool := false
  readyAt : Nat := 0
  preferAt : Nat := 0
  failures : Nat := 0
  testStart : Nat := 0
  retryAt : Option Nat := none
  testCmd : Option Hdr := none
  marches : Nat := 0
  ceTimes : List Nat := []
  hot : Bool := false
  /-- A fault was attributed to the die while it was active alone (penalty 6), and two mismatches stayed unresolved while it was active
  (penalty 7), with the instants of the unresolved ones. -/
  aloneFault : Bool := false
  unresFault : Bool := false
  unresolved : List Nat := []
  /-- The boundary of part 1 of R413, the next sequence number of each record kind there, and what of parts 2 and 3 is complete. -/
  syncFrom : Option Nat := none
  syncSeq : List Nat := []
  syncStore : Bool := false
  syncRing : Bool := false
  compareFrom : Nat := 0
  /-- Items sent to the link die and not yet arrived, and items the link die holds for comparison. -/
  out : List HeldItem := []
  held : List HeldItem := []
  /-- The next slot to process, and the markers that were missing when a slot was processed: (slot, source) (R22, R23). -/
  slot : Nat := 0
  missing : List (Nat × Nat) := []
  /-- Of those, the markers that have still not come: what their sources send before them is late (R23). -/
  late : List (Nat × Nat) := []
  evidence : Nat := 0
  deriving DecidableEq, Repr

/-- A control item an FE holds because one die only sent it, or the two differently (R17, R411). -/
structure HeldControl where
  fe : Nat
  die : Nat
  item : FeItem
  since : Nat
  differs : Bool
  deriving DecidableEq, Repr

structure RedState where
  dies : Two DieState := ⟨{}, {}⟩
  forced : Option Nat := none
  forcedNext : Option Nat := none
  /-- The first slot whose items the active die gives after a planned change, and the die that gives those before it (R408). -/
  gate : Nat × Nat := (0, 0)
  /-- The sources whose marker was missing from both dies in the latest slot released (Table 12-1). -/
  faulty : List Nat := []
  mismatch : Option Mismatch := none
  /-- Slot and order of the next own-output item (R395). -/
  order : Nat := 0
  /-- Items of lower order have left the comparator. -/
  passed : Nat := 0
  held : List HeldControl := []
  injections : List Injection := []
  /-- The slot in progress, counted on the time base (R22); the next slot whose items are to be processed; and the order of the first own-output item
  after the last digest (R393). -/
  slot : Nat := 0
  done : Nat := 0
  digested : Nat := 0
  /-- Control items the front ends have acted on, newest first (R17). -/
  acted : List (Nat × FeItem) := []
  deriving DecidableEq, Repr

/-! ### Alarms and loops (chapter 14) -/

/-- An entry of the remote table (R451). -/
structure RemoteEntry where
  origin : Nat
  line : Nat
  at_ : Nat
  deriving DecidableEq, Repr

/-- What one path knows of the alarm lines: the active sources, the remote table, the overflows and the line states of Table 14-1.  The matrix of
the pins and the ordered path of the records keep one each (R444, R452). -/
structure AlarmView where
  sources : List (Nat × Bool) := []
  remote : List RemoteEntry := []
  overflow : Nat := 0
  lines : List (Nat × Nat) := []
  /-- Lines whose local part, and whose raw state, is active. -/
  localMask : Nat := 0
  rawMask : Nat := 0
  deriving DecidableEq, Repr

/-- An alarm word (Table 14-2). -/
structure AlarmWord where
  origin : Nat
  line : Nat
  raise : Bool
  hopsLeft : Nat
  deriving DecidableEq, Repr

/-- An alarm change as it travels to the two paths: a local source, a word taken from the ring, the expiry of an entry, or an
acknowledgement. -/
inductive AlarmEvent where
  | source (input : Nat) (active : Bool) (instant : Nat)
  | word (w : AlarmWord) (instant : Nat)
  | expiry (origin line : Nat) (instant : Nat)
  | ack (lines : Nat) (instant : Nat)
  | commit (instant : Nat)
  deriving DecidableEq, Repr

/-- A loop output (R456 to R458): its last update, the current it drives in µA, whether QLOOP is on, since when the readback is low or high
or above 24 mA, whether that has been shown as a fault, and when an over-current loop is tried again. -/
structure Loop where
  last : Nat := 0
  level : Nat := 0
  on : Bool := false
  lowSince : Option Nat := none
  highSince : Option Nat := none
  overSince : Option Nat := none
  lowShown : Bool := false
  highShown : Bool := false
  retryAt : Option Nat := none
  deriving DecidableEq, Repr

structure AlmState where
  matrix : AlarmView := {}
  ordered : AlarmView := {}
  /-- Own and forwarded words queued at each port (R447, R448). -/
  own : Two (List AlarmWord) := ⟨[], []⟩
  forward : Two (List AlarmWord) := ⟨[], []⟩
  /-- When each line's local part was last sent with RAISE 1 (R447). -/
  refreshed : List (Nat × Nat) := []
  loops : List (Nat × Loop) := []
  /-- Alarm flits on their way from each source to each die: source state changes. -/
  flits : Two (List (Nat × AlarmEvent)) := ⟨[], []⟩
  /-- What each die has passed on to the link die as alarm flits and is not yet compared, with its slot (R398). -/
  passed : Two (List (Nat × AlarmEvent)) := ⟨[], []⟩
  deriving DecidableEq, Repr

/-! ### Management (chapter 15) -/

/-- A log entry (Table 15-11). -/
structure LogEntry where
  seq : Nat := 0
  code : Nat
  unit : Nat
  severity : Nat
  persisted : Bool := false
  time : Nat
  data0 : Nat
  data1 : Nat
  deriving DecidableEq, Repr

/-- A boot record (Table 15-4); `valid` says its CRC holds. -/
structure BootRecord where
  bseq : Nat := 0
  state : Nat := 0
  attempt : Bool := true
  svn : Nat := 0
  version : Nat := 0
  digest : Nat := 0
  valid : Bool := false
  deriving DecidableEq, Repr

/-- One flash device: its boot record, and the bytes of its image and key-store areas by flash address (erased bytes read 0xFF). -/
structure Flash where
  boot : BootRecord := {}
  bytes : List (Nat × Byte) := []
  written : Bool := false
  /-- The image area still holds the image written at manufacture, which verifies. -/
  factory : Bool := false
  deriving DecidableEq, Repr

/-- An operator key slot of the fuses (Table 15-8). -/
structure KeySlot where
  digest : Nat := 0
  enrolled : Bool := false
  revoked : Bool := false
  /-- The public key in use: loaded at boot, or enrolled since (R476). -/
  key : List Byte := []
  deriving DecidableEq, Repr

/-- The saved configuration (R493): sequence number, the RWE and RWI values, and the plots. -/
structure SavedConfig where
  seq : Nat := 0
  par : List (Nat × Word) := []
  plots : List Plot := []
  deriving DecidableEq, Repr

/-- A flash operation in order of request (R466). -/
inductive FlashOp where
  | write (h : Hdr) (p : List Word)
  | commit (h : Hdr) (mode area : Nat)
  | calStore
  | save (c : SavedConfig)
  deriving DecidableEq, Repr

structure Session where
  portal : Nat
  key : Nat
  until_ : Nat
  deriving DecidableEq, Repr

structure MgtState where
  session : Option Session := none
  nonce : Option (Nat × Nat) := none
  nonceCount : Nat := 0
  authFails : Nat := 0
  lockedUntil : Option Nat := none
  logWait : List LogEntry := []
  log : List LogEntry := []
  persistWait : List LogEntry := []
  persistLog : List LogEntry := []
  persistSecond : Nat := 0
  persistCount : Nat := 0
  /-- Running event counts, key die × 64 + counter, and selections or clears due at the next boundary (R483). -/
  counters : List (Nat × Nat) := []
  selects : List (Nat × Option Nat) := []
  /-- The selectors in force, which follow MGT_CNT_SEL at a slot boundary (R483). -/
  selectors : List (Nat × Nat) := []
  flash : Two Flash := ⟨{}, {}⟩
  ops : List FlashOp := []
  keys : List (Nat × KeySlot) := []
  relkeyRevoked : Nat := 0
  /-- The anti-rollback count of the fuses (R471). -/
  arb : Nat := 0
  attest : Option (Hdr × List Word × Nat) := none
  saved : SavedConfig := {}
  /-- A save follows the one that runs; an RWI parameter was written since the last save (R493). -/
  saveAgain : Bool := false
  saveHourly : Bool := false
  deriving DecidableEq, Repr

/-! ### Power, reset and temperature (chapter 16) -/

/-- A reset that has fallen due or will (R494, R508): kind, unit, cause, and the instant in ns. -/
structure ResetDue where
  kind : Nat
  unit : Nat
  cause : Nat
  instant : Nat
  /-- Control has already been moved off the die of a kind 3 reset. -/
  moved : Bool := false
  deriving DecidableEq, Repr

/-- One temperature sensor's runtime (R501, R503): its level, since when it lies more than 2 °C under the level's entry value, the readings of the
last second, newest first, and whether its self-check failed. -/
structure SensorRuntime where
  level : Nat := 0
  belowSince : Option Nat := none
  history : List (Nat × Int) := []
  failed : Bool := false
  deriving DecidableEq, Repr

/-- One front end's runtime (R490, R496, R507): its VAN and low-temperature stops, since when it lies at −43 °C or above, and when the references of a
front end under reset have settled. -/
structure FePower where
  vanStop : Bool := false
  coldStop : Bool := false
  warmSince : Option Nat := none
  resetUntil : Option Nat := none
  deriving DecidableEq, Repr

/-- The throttle values to be applied at a slot boundary (Table 16-8): the divisors of the four front ends, the windrow divisor and the reduction. -/
structure Throttle where
  divs : List Nat
  windrow : Nat
  reduce : Nat
  deriving DecidableEq, Repr

structure PwrState where
  resets : List ResetDue := []
  /-- Why a reset is held: POR_N low, brown-out, hard stop. -/
  porLow : Bool := false
  brownOut : Bool := false
  hardStop : Bool := false
  /-- Pins are at high impedance until configuration is loaded after a reset of kind 0 or 1 (R496). -/
  pinsOff : Bool := true
  /-- When the latest reset ended, and whether it is to be logged at the boot (R495). -/
  resetEnd : Nat := 0
  bootLog : Bool := true
  /-- An image runs (R470). -/
  firmware : Bool := true
  /-- THERM_N is asserted (R504, R506). -/
  therm : Bool := false
  sensors : List (Nat × SensorRuntime) := []
  /-- When the rise event began, since when every watched sensor lies at or below half of THM_RISE_MAX. -/
  rise : Option Nat := none
  riseLanes : Bool := false
  calmSince : Option Nat := none
  /-- When STOPPING began, whether its cause lies in the lanes or LK core class, and since when the conditions of R505 hold. -/
  stopSince : Option Nat := none
  stopLanes : Bool := false
  coolSince : Option Nat := none
  fes : List (Nat × FePower) := []
  /-- The plots of the configuration loaded, to be recreated once the Granary is ready (R276, R497). -/
  plots : List Plot := []
  /-- Throttle values decided and not yet applied. -/
  throttle : Option Throttle := none
  /-- PWR_UP_TIME is held: the module has been in service since the reset. -/
  serviced : Bool := false
  deriving DecidableEq, Repr

/-! ### Front ends (chapters 3 and 4) -/

/-- A value in the boxcar filter of an input (R70), in 1/256 code, with what the conversions that entered it carried (R99, R129). -/
structure FiltVal where
  v : Int
  ovr : Bool := false
  recov : Bool := false
  /-- The recovery is of R89 or R90 and sets FE_IN_STATUS[1]. -/
  near : Bool := false
  deriving DecidableEq, Repr

/-- What one half of a reversal pair has gathered (R83): the half's index, the sum and count of its conversions, and their flags. -/
structure Half where
  index : Nat
  sum : Int := 0
  count : Nat := 0
  ovr : Bool := false
  recov : Bool := false
  near : Bool := false
  deriving DecidableEq, Repr

/-- A linearised value of an input with its sampling instant and the OVR of its word (R105, R107). -/
structure LinValue where
  instant : Nat
  value : Word
  ovr : Bool
  deriving DecidableEq, Repr

/-- A trigger primitive's condition (none: it is taken without a hit), SLOPE history, and the rising edges of the last 1 ms, both newest first (R201,
Table 7-1). -/
structure Prim where
  cond : Option Bool := none
  history : List Int := []
  edges : List Nat := []
  deriving DecidableEq, Repr

/-- A condition that comes and goes: since when it stands and its sign, and its latest spells before, newest first, with their ends, in 1/4096 ns. -/
structure Spell where
  since : Option Nat := none
  flag : Bool := false
  past : List (Nat × Nat × Bool) := []
  deriving DecidableEq, Repr

/-- The runtime of one input's conversion path. -/
structure InputState where
  /-- SET samples still to be output in the open SET window (0: closed), from samples at or after an instant (R86). -/
  setLeft : Nat := 0
  setFrom : Nat := 0
  /-- A window was open before the event that opened this one. -/
  setWas : Bool := false
  filter : List FiltVal := []
  fwd : Option Half := none
  rev : Option Half := none
  /-- The last output word (Table 4-6) and its sampling instant. -/
  word : Nat := 0
  wordAt : Nat := 0
  /-- Linearised values, newest first. -/
  lins : List LinValue := []
  /-- The state left on SUSPECT, and the clear screenings in a row while BROKEN (Table 3-6). -/
  left : Nat := 1
  clear : Nat := 0
  /-- Start and end of the last confirmation, for mode 5 whether every sample since lay below 1.0 mA, and the last entry into BROKEN. -/
  confFrom : Option Nat := none
  confTo : Nat := 0
  confLow : Bool := true
  brokenFrom : Nat := 0
  /-- Recovery windows judged by conversion start, with whether they set FE_IN_STATUS[1] (R89, R90, R92), and by sampling instant (R76). -/
  starts : List (Nat × Nat × Bool) := []
  samples : List (Nat × Nat) := []
  /-- The clamp detectors of pins P and N, each with its overdrive positive or not (R92). -/
  clamps : Two Spell := ⟨{}, {}⟩
  /-- SETTLING and CONFIRMING, as a stamp's SET shows them (R143). -/
  settle : Spell := {}
  /-- Why the input is HELD: 0 calibration, 1 low temperature, 2 VAN, 3 orderly stop; and whether it was BROKEN when the hold began. -/
  holds : List Nat := []
  heldBroken : Bool := false
  stlSince : Option Nat := none
  /-- A vibrating-wire sweep of its source keeps SET from an instant until the window opened at its end (R102). -/
  sweep : Option Nat := none
  prims : Two Prim := ⟨{}, {}⟩
  /-- The reset switch of the charge amplifier is closed (R76), and a reset is due at the next slot boundary (R75). -/
  closed : Option Nat := none
  resetDue : Option Nat := none
  /-- When the latest calibration hold of the input ended (Table 14-8). -/
  freed : Option Nat := none
  deriving DecidableEq, Repr

/-- One excitation source: reversed now, compliance reached, sweeping or listening (R102), the instant of its last cycle's phase, and its terminals
released from the matrix (R79). -/
structure SourceState where
  reversed : Bool := false
  compliance : Spell := {}
  sweepAt : Option Nat := none
  waitFrom : Option Nat := none
  listenFrom : Option Nat := none
  released : Bool := true
  deriving DecidableEq, Repr

/-- One conversion group (R117, R119, R120): the next conversion's input and start, or those of the first one of a cycle not yet judged (R125), the
first S0 while ALIGNING, a conversion that completes under the settings before a commit, failed checks in a row, and why it is stopped. -/
structure GroupState where
  next : Option (Nat × Nat) := none
  first : Nat := 0
  finishing : Option (Nat × Nat) := none
  /-- The input of that conversion where the commit has put it OFF, with its state and runtime before (R120, Table 4-4). -/
  leaving : Option (Nat × Nat × InputState) := none
  fails : Nat := 0
  stops : List Nat := []
  /-- When the grid in force came into force (R120, R122). -/
  gridFrom : Nat := 0
  deriving DecidableEq, Repr

structure FeState where
  inputs : List (Nat × InputState) := []
  sources : List (Nat × SourceState) := []
  groups : List (Nat × GroupState) := []
  /-- Per die, VAN below its level of R73. -/
  vanLow : List (Nat × Spell) := []
  /-- Per die: the throttle divisor to apply, from an instant (R125), and the divisor before it. -/
  thr : List (Nat × (Nat × Nat)) := []
  deriving DecidableEq, Repr

/-! ### Timing (chapter 5) -/

/-- A stamp word on its way: its instant in 1/4096 ns, when it is complete, and its word (Table 5-2) without GAP; a dead-time loss before it. -/
structure StampMade where
  stamp : Int
  crossing : Nat
  done : Nat
  word : Nat
  gap : Bool
  deriving DecidableEq, Repr

/-- An open interval set (R148): its mode, prescale, when it opened, the intervals entered, discards, the first end stamp; and a pending start. -/
structure ItvSet where
  mode : Nat
  prescale : Nat
  opened : Nat
  n : Nat := 0
  s1 : Nat := 0
  s2 : Nat := 0
  least : Nat := 0
  most : Nat := 0
  first : Int := 0
  discards : Nat := 0
  deriving DecidableEq, Repr

/-- A closed set whose result is not yet ready (R151). -/
structure ItvClosed where
  set : ItvSet
  reason : Nat
  close : Nat
  deriving DecidableEq, Repr

/-- A hit (R202, R203): its instant, input, primitive and line, and when it is complete. -/
structure Hit where
  instant : Nat
  input : Nat
  prim : Nat
  line : Nat
  done : Nat := 0
  deriving DecidableEq, Repr

/-- The runtime of one input's timing path. -/
structure TimingState where
  /-- The comparator's analogue level: above U, below L (R135). -/
  aboveU : Bool := false
  belowL : Bool := true
  /-- A crossing not yet accepted, its direction, and whether it occupies the stamper (R136). -/
  cross : Option (Nat × Bool) := none
  occupies : Bool := false
  holdEnd : Option Nat := none
  busyUntil : Nat := 0
  gapDead : Bool := false
  gapRate : Bool := false
  presc : Nat := 0
  making : List StampMade := []
  buffer : List (Nat × Nat × W64) := []
  set : Option ItvSet := none
  /-- A pending interval start, and whether it lies before the open set (R147 to R149). -/
  start : Option Int := none
  startOld : Bool := false
  /-- The crossing of the pending start, in 1/4096 ns. -/
  startAt : Nat := 0
  /-- A time-base step lies between the pending start and now (R149). -/
  startStep : Bool := false
  /-- Start events of DELAY mode that stamps on their way may still precede: their instants and crossings (R147, R159). -/
  starts : List (Int × Nat) := []
  /-- The instant at which the qualifier took the present level without an edge last (R138, R159). -/
  levelAt : Option Nat := none
  /-- When the latest test edges of the periodic check began (R437). -/
  testFrom : Option Nat := none
  closed : List ItvClosed := []
  hits : List Hit := []
  hitBuffer : List Hit := []
  alarm : Bool := false
  deriving DecidableEq, Repr

/-- An armed pulse schedule (R153) in units of 1/128 ns, with the next pulse's number. -/
structure Schedule where
  first : Nat
  period : Nat
  width : Nat
  count : Nat
  pol : Nat
  n : Nat := 0
  /-- Pulses whose active edge falls earlier are not placed, for an overlap (R157) and for a step (R158). -/
  notBefore : Nat := 0
  stepFrom : Nat := 0
  deriving DecidableEq, Repr

structure TpoState where
  schedule : Option Schedule := none
  /-- The inactive edge of the pulse in progress, and whether the last pulse of the schedule is in progress. -/
  pulseEnd : Option Nat := none
  ending : Bool := false
  disarmed : Bool := false
  /-- TMR_TPO_POL as the schedule of the pulse in progress holds it (R154, R157). -/
  pulsePol : Nat := 0
  deriving DecidableEq, Repr

structure TmrState where
  inputs : List (Nat × TimingState) := []
  tpos : List (Nat × TpoState) := []
  /-- Per die, the input of the die the stamp arbiter and the hit arbiter served last, and the instant of their last step (R144, R203). -/
  stampLast : List (Nat × Nat × Nat) := []
  hitLast : List (Nat × Nat × Nat) := []
  deriving DecidableEq, Repr

/-! ### Streams of the dies (R22, R23) -/

/-- An announcement (Table 7-10) as it was received, with the distance of this node. -/
structure Announcement where
  id : Nat
  instant : Nat
  pre : Nat
  post : Nat
  radius : Nat
  hopsLeft : Nat
  cause : Nat
  sdir : Nat
  deriving DecidableEq, Repr

/-- An item on a die link. -/
inductive StreamItem where
  | marker (slot : Nat)
  | stamp (w : W64) (instant : Nat)
  | hit (h : Hit)
  | interval (ws : List W64) (close : Nat)
  | alarm (e : AlarmEvent)
  | announce (a : Announcement)
  | mismatch (kind slot : Nat)
  deriving DecidableEq, Repr

/-! ### Trigger engine (chapter 7) -/

/-- A local event that waits for its trigger step (R213): an acquisition command acting at A, a forced trigger at T, a hit, what a commit does to
sequencers and DISARMED groups (R210, Table 7-6), the first step of an orderly stop (R504), the end of an interval of a windrow period, or an alarm
event of the ordered path (R452). -/
inductive LocalEvent where
  | acq (h : Hdr) (op : Nat) (p : List Word) (instant : Nat)
  | force (h : Hdr) (p : List Word) (instant : Nat)
  | hit (h : Hit)
  | commit (seqs : Nat) (groups : List Nat) (instant : Nat)
  | stop (instant : Nat)
  | windrow (period : Nat) (instant : Nat)
  | alarm (instant : Nat) (e : AlarmEvent)
  deriving DecidableEq, Repr

/-- A missed entry (Table 7-7). -/
structure Missed where
  id : Nat
  instant : Nat
  group : Nat
  reason : Nat
  deriving DecidableEq, Repr

/-- A captured input (R216): its coding class at the decision, and whether it is measured, over which threshold (R226, R245). -/
structure CapturedInput where
  input : Nat
  cls : Nat
  meas : Bool
  thresh : Nat
  deriving DecidableEq, Repr

/-- A sample of a furrow: its ring word and the 20-bit word read from its segment. -/
structure Sample where
  at_ : RingWord
  word : Nat
  deriving DecidableEq, Repr

/-- What has been copied and coded of a furrow so far (R262, R282): its samples in order, its coded blocks with whether each is raw, and the latest
instant of words lost to OVERRUN. -/
structure FurrowPart where
  samples : List Sample := []
  blocks : List (Bool × List Byte) := []
  deriving DecidableEq, Repr

/-- A group's part of a capture (R216 to R218): the slot it took, its captured inputs, and its window. -/
structure GroupCapture where
  group : Nat
  slot : Nat
  inputs : List CapturedInput
  pre : Nat
  post : Nat
  deriving DecidableEq, Repr

/-- What a step of the time base leaves of a furrow: its gap entries and the first stamp of its window (R232, R226). -/
structure CutFurrow where
  gaps : List GapEntry := []
  stamp : Option Nat := none
  deriving DecidableEq, Repr

/-- A capture that a step of the time base found not yet built: the step instant in the old time, and its furrows by input. -/
structure Cut where
  at_ : Nat
  furrows : List (Nat × CutFurrow)
  deriving DecidableEq, Repr

/-- A trigger whose fragment is open, or closed and not yet built (Table 7-7). -/
structure Capture where
  id : Nat
  instant : Nat
  pre : Nat
  post : Nat
  cause : Nat
  seqs : Nat
  radius : Nat
  distance : Nat
  flags : Nat
  groups : List GroupCapture
  dir : Nat
  closed : Bool := false
  end_ : Nat
  unlisted : Nat := 0
  missed : List Missed := []
  furrows : List (Nat × FurrowPart) := []
  cut : Option Cut := none
  /-- A line read for the capture was uncorrectable or poisoned, in each die (R287). -/
  marks : Two Bool := ⟨false, false⟩
  deriving DecidableEq, Repr

/-- A sequencer's runtime (R205 to R209): pending expiry and whether it has come, the last fire or entry into RUNNING, and arcs taken at one
instant. -/
structure Sequencer where
  timer : Option Nat := none
  timerDue : Bool := false
  lastFire : Nat := 0
  autoDue : Bool := false
  arcsAt : Nat := 0
  arcs : Nat := 0
  deriving DecidableEq, Repr

/-- A slot of a group (R217): the instant and window of the trigger it holds. -/
structure CaptureSlot where
  instant : Nat
  post : Nat
  deriving DecidableEq, Repr

/-- A group's capture runtime: slots, shots since arming, the instant since which it records, and the instant of its last entry into STOPPED. -/
structure GroupRun where
  slots : List (Nat × CaptureSlot) := []
  shots : Nat := 0
  recordFrom : Nat := 0
  stoppedAt : Nat := 0
  /-- Recording continues after ACQ.STOP until the last open capture ends (R222). -/
  stopAfter : Option Nat := none
  /-- The capture state at an orderly stop (R505). -/
  resume : Option Nat := none
  deriving DecidableEq, Repr

/-- What one input has contributed to a windrow interval (R228). -/
structure WindrowSum where
  values : List W64 := []
  excluded : Bool := false
  settling : Bool := false
  deriving DecidableEq, Repr

/-- A windrow interval in progress (R227, R230): its start and end, whether it is partial, and its sums by input. -/
structure Windrow where
  from_ : Nat
  to_ : Nat
  partial_ : Bool := false
  step : Bool := false
  /-- Its instants are those of the time before the last step of the time base. -/
  old : Bool := false
  sums : List (Nat × WindrowSum) := []
  deriving DecidableEq, Repr

structure TrgState where
  events : List LocalEvent := []
  announces : List Announcement := []
  /-- Alarm events for the ordered path (R452). -/
  alarms : List AlarmEvent := []
  /-- Hits on each line since its last line event, of the longest TRG_LINE_WINDOW: (instant, input), newest first (R204). -/
  lines : List (Nat × List (Nat × Nat)) := []
  seqs : List (Nat × Sequencer) := []
  groups : List (Nat × GroupRun) := []
  captures : List Capture := []
  missed : List Missed := []
  unlisted : Nat := 0
  /-- Trigger IDs accepted or formed, with when (R224). -/
  ids : List (Nat × Nat) := []
  windrows : List (Nat × List Windrow) := []
  /-- Per period, the end of the last interval built or skipped. -/
  wrDone : List (Nat × Nat) := []
  /-- Per line, the instant of its last line event plus 1 (R204). -/
  lineAt : List (Nat × Nat) := []
  /-- Stamps of the last captures' inputs, newest first: instants in 1/4096 ns by input (R226). -/
  stamps : List (Nat × List Nat) := []
  /-- Instants below this have been handled by a trigger step (R213). -/
  handled : Nat := 0
  /-- Local triggers formed in the step in progress (R211). -/
  formed : Nat := 0
  wrThr : Nat × Nat := (0, 1)
  deriving DecidableEq, Repr

structure LinkState where
  /-- Items on their way on a die link, key die × 8 + source, and items received for the next slots. -/
  sent : List (Nat × List StreamItem) := []
  got : List (Nat × List StreamItem) := []
  /-- What each die keeps of its last 16 slots, newest first (R394). -/
  kept : Two (List (Nat × List StreamItem)) := ⟨[], []⟩
  deriving DecidableEq, Repr

/-! ### Time base (chapter 6) -/

/-- A time domain as it reaches this node (R178, R180): the latest TIME block with its arrival, and the offset of the latest complete exchange in
1/8192 ps. -/
structure Domain where
  heard : Nat := 0
  avail : Bool := false
  kind : Nat := 0
  quality : Nat := 3
  hops : Nat := 0
  uncert : Nat := 0
  offset : Option Int := none
  deriving DecidableEq, Repr

/-- The two-way exchange of a port (R176 to R178): SEQ of the next block, departure stamps of the blocks sent, SEQ and arrival of the latest
block received, the mean hop delay in 1/8192 ps, and the block sent last. -/
structure TimePort where
  seq : Nat := 0
  sent : List (Nat × Nat) := []
  got : Option (Nat × Nat) := none
  delay : Option Int := none
  block : Option TimeBlock := none
  deriving DecidableEq, Repr

/-- A step that waits for its slot boundary (R186): in ns, and the TB.JUMP PERMIT it belongs to, none for the initial set. -/
structure StepDue where
  instant : Nat
  permit : Option Hdr
  deriving DecidableEq, Repr

/-- A waiting TB.JUMP SET (R194): V, the slot boundary at which the step is made once it is known, with its correction in 1/8192 ps when an edge
gave it, and the receipt. -/
structure JumpSet where
  h : Hdr
  value : Nat
  pps : Bool
  boundary : Option Nat
  edge : Option Int := none
  receipt : Nat
  deriving DecidableEq, Repr

/-- A running TB.ASYM MEASURE (R193): the port, the comparisons so far in 1/8192 ps, and the latest valid edge or the receipt. -/
structure AsymMeasure where
  h : Hdr
  port : Nat
  errors : List Int := []
  since : Nat
  deriving DecidableEq, Repr

/-- The ageing model (R169): its five coefficients, and whether it is LEARNT. -/
structure AgeModel where
  coef : List Word := []
  learnt : Bool := false
  deriving DecidableEq, Repr

/-- An estimate of R189: its origin, u0, the crystal temperature then and its largest change since, in 0.001 °C. -/
structure Estimate where
  origin : Nat := 0
  u0 : Nat := 0
  temp0 : Int := 0
  tempMax : Nat := 0
  deriving DecidableEq, Repr

structure TbState where
  domains : Two Domain := ⟨{}, {}⟩
  ports : Two TimePort := ⟨{}, {}⟩
  step : Option StepDue := none
  /-- Steps of TB.JUMP PERMIT that wait, in order of receipt (R194). -/
  permits : List StepDue := []
  jumpSet : Option JumpSet := none
  measures : List AsymMeasure := []
  /-- The measured correction (source's time minus the node's) in 1/8192 ps, the measurements of the last ms, and since when its magnitude lies
  within, or beyond, TB_LOCK_WINDOW. -/
  phase : Int := 0
  recent : List (Nat × Int) := []
  inSince : Option Nat := none
  outSince : Option Nat := none
  /-- The latest averaged measurement, or the entry into the state. -/
  measured : Nat := 0
  /-- The correction being slewed in 1/8192 ps, since when it runs at the present steering, what had been removed by then, and TB_SLEW_MAX. -/
  slew : Int := 0
  slewFrom : Nat := 0
  slewDone : Nat := 0
  slewRate : Nat := 0
  /-- The steering of the loop or of the model, in 10^-12. -/
  steer : Int := 0
  /-- Holdover (R189): origin of the estimate, u0, and the crystal temperature then, its largest change since, and its latest value, in 0.001 °C. -/
  origin : Nat := 0
  u0 : Nat := 0
  temp0 : Int := 0
  tempMax : Nat := 0
  temp : Int := 0
  /-- The estimate that begins where the source was lost in TEST, for the HOLDOVER that follows (R189). -/
  lost : Option Estimate := none
  /-- The latest valid PPSIN edge (R173), the offsets averaged under R174, newest first, and whether a TIE_PPS portal runs on PPSIN. -/
  ppsAt : Option Nat := none
  tie : List Int := []
  onPps : Bool := false
  testing : Bool := false
  /-- Ring ports whose loop began a test (R170). -/
  loopTests : List Nat := []
  /-- Steering and temperature every 10 s, newest first, and the last hourly refit (R169). -/
  records : List (Nat × Int × Int) := []
  fitted : Nat := 0
  model : AgeModel := {}
  /-- The instant of the latest step in the new time, plus 1. -/
  stepped : Nat := 0
  /-- When a commit chose the source of a portal last. -/
  selected : Nat := 0
  /-- S of the latest step, in ns. -/
  stepBy : Int := 0
  deriving DecidableEq, Repr

/-! ### Lanes (chapter 10) -/

/-- A codeword period as it left a lane (R314): CWC, the control field, the slot, and the PAM4 levels. -/
structure SentPeriod where
  cwc : Nat
  control : Nat
  slot : Nat
  levels : List Nat
  deriving DecidableEq, Repr

/-- A running LNK.EYESCAN (R336). -/
structure EyeScan where
  h : Hdr
  map : Bool
  deriving DecidableEq, Repr

/-- One lane (R328 to R336).  Transmit: CWC of the last period sent, scrambler state, last level, blocks since the last FILL, the blocks dealt to it and
not sent yet, the STATUS word sent last, precoding in force, and the coefficients requested of it (steps from the preset). -/
structure Lane where
  cwcLast : Option Nat := none
  scrambler : Nat := 0
  level : Nat := 0
  sinceFill : Nat := 0
  carry : List LineBlock := []
  statusSent : Nat := 0
  precode : Bool := false
  coef : Int × Int × Int := (0, 0, 0)
  sent : Option SentPeriod := none
  /-- Receive: SYNCs found or absent in a row, codewords without and with an uncorrectable error in a row, the far end's LSTATE, and codewords in a row
  that show it ALIGNED or later. -/
  syncs : Nat := 0
  absent : Nat := 0
  clean : Nat := 0
  bad : Nat := 0
  far : Nat := 0
  alike : Nat := 0
  /-- The descrambler's state, and CWC of the last codeword received. -/
  descrambler : Nat := 0
  rxCwc : Option Nat := none
  /-- Training: done here, the least count of a window and the requests without improvement (R329). -/
  done : Bool := false
  best : Nat := 0xFFFFFFFF
  noGain : Nat := 0
  /-- When the state was entered; the start of the 1 ms window and LNK_SYM_CORR then. -/
  entered : Nat := 0
  windowFrom : Nat := 0
  symFrom : Nat := 0
  /-- Since when adaptation is frozen, the latest health check, the one that runs, and a scan. -/
  frozen : Option Nat := none
  checked : Option Nat := none
  checking : Bool := false
  scan : Option EyeScan := none
  /-- The optical module reports receive LOS. -/
  modLos : Bool := false
  deriving DecidableEq, Repr

/-- A change of LMASK to come (R323, R324): the mask, SWITCH, whether the far end has answered, lanes that become ACTIVE with it, and lanes that a
commit has switched off and that go FALLOW with it (Table 10-10). -/
structure MaskChange where
  mask : Nat
  switch : Nat
  agreed : Bool
  joins : List Nat
  leaves : List Nat := []
  deriving DecidableEq, Repr

/-- A wake or a retraining that awaits its final reply (R338). -/
structure LaneWait where
  h : Hdr
  op : Nat
  lanes : List Nat
  until_ : Nat
  deriving DecidableEq, Repr

/-- One port: CWC of the period in progress, LMASK in force and to come, the alarm word of a period, CWC of the alarm word taken last and when it came,
the state of its optical module, and what it waits for (log 87). -/
structure LanePort where
  cwc : Nat := 0
  lmask : Nat := 0
  change : Option MaskChange := none
  /-- LMASK and SWITCH of the change in force and of the one before it, as the control fields name them; and the LMASK the far end deals under. -/
  force : Nat × Nat := (0, 0)
  prev : Nat × Nat := (0, 0)
  farMask : Nat := 0
  /-- The block stream still to be dealt and the blocks of a TIME block that is due (R322, R349); the codewords that wait for those of the other lanes, CWC, lane and blocks; the receive elastic buffer
  (R326); and the blocks it has passed on with the latest group. -/
  stream : List LineBlock := []
  timeDue : List LineBlock := []
  arrived : List (Nat × Nat × List (Option LineBlock)) := []
  buffer : List (Option LineBlock) := []
  heard : List (Option LineBlock) := []
  alarm : Option (Nat × AlarmWord) := none
  taken : Option (Nat × Nat) := none
  /-- A lane of the port has woken since reset: MODRST_x is released (R341); and the module's presence and kind. -/
  woken : Bool := false
  present : Bool := true
  cmis : Bool := true
  lowPower : Bool := false
  polled : Nat := 0
  deleteDue : Bool := false
  /-- LNK.FALLOW keeps the port fallow; TST.LOOP loops it: 1 NEAR, 2 FAR. -/
  fallow : Bool := false
  loop : Nat := 0
  waits : List LaneWait := []
  deriving DecidableEq, Repr

/-- A die-link test of TST.LOOP (R342): flits still to come back, and those that came back in error. -/
structure FlitTest where
  h : Hdr
  die : Nat
  source : Nat
  left : Nat
  count : Nat
  bad : Nat := 0
  deriving DecidableEq, Repr

structure LaneState where
  lanes : List (Nat × Lane) := []
  ports : List (Nat × LanePort) := []
  flits : List FlitTest := []
  deriving DecidableEq, Repr

/-! ### Calibration (chapter 13) -/

/-- A measurement point of a calibration (R424, R427, R428, R432): an analogue point of a run, the j-th range of an input and the reference (0 zero,
1 +REF, 2 −REF); the j-th source of each die; the three timing steps of a run; one of the four shunt points. -/
inductive CalPoint where
  | analogue (run range ref : Nat)
  | source (run ordinal : Nat)
  | timing (run : Nat)
  | shunt (k : Nat)
  deriving DecidableEq, Repr

/-- What a point has gathered of an input: the sum and the sum of squares of d (R127) in codes, how many conversions, and for a shunt point the sum of
the linearised values in 2^-149, none once one of them was not finite. -/
structure CalSum where
  sum : Int := 0
  squares : Nat := 0
  count : Nat := 0
  lin : Option Int := some 0
  deriving DecidableEq, Repr

/-- An input under calibration: the calibration indices of its ranges (R127), whether it was itself named, whether it is SKIPPED after all (R439),
whether an item was unstable (R425), the point in progress, and the points done. -/
structure CalInput where
  input : Nat
  ks : List Nat
  named : Bool
  skipped : Bool := false
  /-- A reset of its front end has ended it (R499). -/
  aborted : Bool := false
  bad : Bool := false
  now : CalSum := {}
  done : List (CalPoint × CalSum) := []
  taps : List (List Nat) := []
  delays : List Int := []
  trims : List Int := []
  /-- The verdict of the checks: a result code of CAL_RESULT, and the values to apply. -/
  result : Nat := 0
  values : List (Nat × Word) := []
  deriving DecidableEq, Repr

/-- A source under calibration: its ratio of each run, whether one was unstable, and the verdict. -/
structure CalSource where
  source : Nat
  aborted : Bool := false
  bad : Bool := false
  ratios : List Int := []
  result : Nat := 0
  value : Nat := 0
  deriving DecidableEq, Repr

/-- What CAL.SHUNT asks for beyond CAL.RUN (Table 13-8). -/
structure Shunt where
  apply : Bool
  expect : Word
  deriving DecidableEq, Repr

/-- A running calibration (R429): its command, when it began to hold, the parameters in force at S, what it measures, the points still to be measured,
since when the present point stands, when the last one was done (from the release on, the release instant), and when an abort acts. -/
structure CalRun where
  h : Hdr
  op : Nat
  scope : Nat
  nostore : Bool
  started : Nat
  par : List (Nat × Word)
  inputs : List CalInput
  sources : List CalSource
  skipped : List Nat
  shunt : Option Shunt
  todo : List CalPoint
  pointFrom : Nat
  checked : Nat := 0
  abortAt : Option Nat := none
  /-- From the release on: the items APPLIED and the others, and what CAL.SHUNT answers. -/
  applied : Nat := 0
  others : Nat := 0
  answer : List Word := []
  deriving DecidableEq, Repr

/-- A calibration slot, or the factory record (R433): SLOT_SEQ, the release instant, the values that differ from the parameters' reset values,
whether its CRC and signature hold, and whether it is wholly erased. -/
structure CalSlot where
  seq : Nat := 0
  time : Nat := 0
  body : List (Nat × Word) := []
  good : Bool := false
  empty : Bool := true
  deriving DecidableEq, Repr

structure CalState where
  run : Option CalRun := none
  slots : Two CalSlot := ⟨{}, {}⟩
  factory : CalSlot := { good := true, empty := false }
  /-- A store's read-back has failed once (R434). -/
  retried : Bool := false
  /-- The latest period instant of the periodic check, and the inputs whose pulse test is due, with when it began (R437, R438). -/
  checkedAt : Nat := 0
  pulses : List (Nat × Option Nat) := []
  deriving DecidableEq, Repr

end Sys2Proof.Machine
end

