-- ==== Sys2Proof/Machine/State.lean ====
section
/-! DEFINITION. The state of the block: the parameter file, the state the spec gives it beside the parameters, and the queue of commands that
wait. -/

namespace Sys2Proof.Machine

/-- No command of this block ends in a fault: the spec gives every one an effect, and every refusal it names is a reply. -/
inductive Fault where
  deriving DecidableEq, Repr

/-- Why a command has no meaning. -/
inductive Refusal where
  /-- Raised by an arm of `exec` whose command has no meaning yet; safe, since nothing is claimed of it. -/
  | notModelled (mnemonic : String)
  deriving DecidableEq, Repr

/-- The state of the block (log 101). -/
structure State where
  /-- Commands that wait, first in, first out. -/
  pending : List Instr := []
  /-- Node time in 1/4096 ns (R164, R167). -/
  time : Nat := 0
  /-- How many values the spec leaves open have been taken; the n-th is `Config.freeWord n` (log 3). -/
  free : Nat := 0
  /-- The parameters (R49): (address, value) in canonical form against `Params.reset`. -/
  par : List (Nat × Word) := []
  cmd : CmdState := {}
  recs : RecState := {}
  mem : MemState := {}
  clp : ClpState := {}
  prt : PrtState := {}
  red : RedState := {}
  alm : AlmState := {}
  mgt : MgtState := {}
  pwr : PwrState := {}
  fe : FeState := {}
  tmr : TmrState := {}
  trg : TrgState := {}
  tb : TbState := {}
  lnk : LaneState := {}
  cal : CalState := {}
  link : LinkState := {}
  deriving DecidableEq, Repr

/-- The block right after reset: every parameter at its reset value, every queue empty, both dies in BOOT, nothing in memory (R491, R492).  Flash A
holds the CONFIRMED image written at manufacture (log 45). -/
def State.reset : State :=
  { mgt := { flash := { a := { boot := { state := 2, valid := true }, factory := true }, b := {} } } }

end Sys2Proof.Machine
end

