-- ==== Sys2Proof/Machine/Ops.lean ====
section
/-! DEFINITION. The named operations over the state: parameters, time, the event log and counters, and values the spec leaves open. -/

namespace Sys2Proof.Machine

/-! ### Pairs -/

def Two.get {α : Type} (x : Two α) (i : Nat) : α := if i = 0 then x.a else x.b
def Two.set {α : Type} (x : Two α) (i : Nat) (v : α) : Two α := if i = 0 then { x with a := v } else { x with b := v }

/-! ### Parameters (R10, R49) -/

/-- The value held for a parameter. -/
def State.rd (s : State) (k : Nat) : Word := Sparse.get (Params.reset k) s.par k
def State.rdN (s : State) (k : Nat) : Nat := (s.rd k).toNat
def State.rdI (s : State) (k : Nat) : Int := (s.rd k).toInt

/-- The state with a value held for a parameter; the parameter file keeps its canonical form. -/
def State.wr (s : State) (k : Nat) (v : Word) : State := { s with par := Sparse.set (Params.reset k) s.par k v }
def State.wrN (s : State) (k n : Nat) : State := s.wr k (BitVec.ofNat 32 n)
def State.wrI (s : State) (k : Nat) (i : Int) : State := s.wr k (BitVec.ofInt 32 i)

/-- A 64-bit quantity at indices 0 and 1 (R49). -/
def State.rd64 (s : State) (k : Nat) : Nat := s.rdN k + 4294967296 * s.rdN (k + 1)
def State.wr64 (s : State) (k n : Nat) : State := (s.wr k (lo32 n)).wr (k + 1) (hi32 n)

/-- A saturating count and a wrapping count. -/
def State.addSat (s : State) (k n : Nat) : State := s.wr k (satWord (s.rdN k + n))
def State.addWrap (s : State) (k n : Nat) : State := s.wrN k (s.rdN k + n)

/-! ### Time (R164, R167) -/

/-- The node time in whole ns. -/
def State.now (s : State) : Nat := s.time / 4096

/-- The state at the instant of an event: time never runs back but in a step of the time base (R186; log 99). -/
def State.at_ (s : State) (t : Nat) : State := { s with time := max s.time t }

/-- Instants and spans in 1/4096 ns from ns, µs, ms and s. -/
def ns (n : Nat) : Nat := 4096 * n
def usec (n : Nat) : Nat := 4096000 * n
def msec (n : Nat) : Nat := 4096000000 * n
def secs (n : Nat) : Nat := 4096000000000 * n

/-- The first slot boundary at or after an instant in ns (R45). -/
def boundaryFrom (n : Nat) : Nat := ceilDiv n 1000 * 1000

/-- The first slot boundary after an instant in ns. -/
def boundaryAfter (n : Nat) : Nat := (n / 1000 + 1) * 1000

/-! ### Commits that are due (R46, R60, R101, R508) -/

/-- The instant at which the commit that waits applies. -/
def State.commitInstant (s : State) : Option Nat := match s.cmd.commit with
  | some c => if c.deferred then c.applyAt else some c.instant
  | none => none

/-- A commit is due and not yet applied: it comes first at one boundary. -/
def State.commitDue (s : State) : Bool := match s.commitInstant with
  | some a => decide (a ≤ s.now)
  | none => false

/-- A commit that is due comes before a waiting command of an instant (R46, R187). -/
def State.commitBefore (s : State) (due : Nat) : Bool := match s.commitInstant with
  | some a => decide (a ≤ s.now) && decide (a ≤ due)
  | none => false

/-! ### Values the spec leaves open -/

/-- The next value the spec leaves open, and the state that has taken it (log 3). -/
def State.takeFree (s : State) : Word × State := (Config.freeWord s.free, { s with free := s.free + 1 })

/-! ### Event log and event counters (R481, R483) -/

/-- An event waits for the log until the slot containing it is processed (R481; log 58). -/
def State.logEvent (s : State) (code unit severity data0 data1 : Nat) : State :=
  { s with mgt := { s.mgt with logWait := s.mgt.logWait ++ [{ code, unit, severity, time := s.now, data0, data1 }] } }

/-- The counters whose selector in force names a source (R483). -/
def State.selected (s : State) (source : Nat) : List Nat := (s.mgt.selectors.filter (fun x => x.2 == source)).map Prod.fst

/-- An event of a class and instance counted in one die (R483, Table 15-13). -/
def addCount (die n : Nat) (m : List (Nat × Nat)) (c : Nat) : List (Nat × Nat) :=
  Sparse.set 0 m (die * 64 + c) ((Sparse.get 0 m (die * 64 + c) + n) % 281474976710656)
def State.countIn (s : State) (die cls inst n : Nat) : State :=
  let counters := (s.selected (cls * 4096 + inst)).foldl (addCount die n) s.mgt.counters
  { s with mgt := { s.mgt with counters := counters } }

/-- An event counted in both dies alike. -/
def State.count (s : State) (cls inst : Nat) : State := (s.countIn 0 cls inst 1).countIn 1 cls inst 1

/-! ### Dies (R399 to R402) -/

/-- The die states of Table 12-4. -/
def dieBoot : Nat := 0
def dieInStep : Nat := 1
def dieOut : Nat := 2
def dieSelftest : Nat := 3
def dieSyncing : Nat := 4
def dieFailed : Nat := 5

def State.dieState (s : State) (d : Nat) : Nat := s.rdN (P.RED_DIE_STATE d)

/-- A die is in service while IN_STEP or SYNCING (R17). -/
def State.inService (s : State) (d : Nat) : Bool := s.dieState d == dieInStep || s.dieState d == dieSyncing

/-- The active die (R19). -/
def State.active (s : State) : Nat := s.rdN P.RED_ACTIVE

def State.die (s : State) (d : Nat) : DieState := s.red.dies.get d
def State.setDie (s : State) (d : Nat) (x : DieState) : State := { s with red := { s.red with dies := s.red.dies.set d x } }

/-- Some die runs the node: commands are executed and items are processed (R496, R497). -/
def State.running (s : State) : Bool := s.dieState 0 == dieInStep || s.dieState 1 == dieInStep

end Sys2Proof.Machine
end

