-- ==== Sys2Proof/Machine/Flags.lean ====
section
/-! DEFINITION. Flags: the bits of status words as the chapters set them, and as a write of 1 clears them (R49, R51). -/

namespace Sys2Proof.Machine

/-- A bit of a status word read, set and cleared. -/
def State.bit (s : State) (k i : Nat) : Bool := bitOf (s.rdN k) i
/-- The bits set in the present ns of node time: the cycle of R11 (log 106). -/
def State.bitsNow (s : State) : List (Nat × Nat) := if s.cmd.bitsAt = s.now then s.cmd.bitsSet else []
/-- A status bit is set, and noted as set in this cycle. -/
def State.setBit (s : State) (k i : Nat) : State :=
  let noted := Sparse.set 0 s.bitsNow k (Sparse.get 0 s.bitsNow k ||| 2 ^ i)
  ({ s with cmd := { s.cmd with bitsAt := s.now, bitsSet := noted } }).wrN k (s.rdN k ||| 2 ^ i)
def State.clrBits (s : State) (k mask : Nat) : State := s.wrN k (s.rdN k &&& (0xFFFFFFFF ^^^ (mask % 4294967296)))
def State.putBit (s : State) (k i : Nat) (b : Bool) : State := if b then s.setBit k i else s.clrBits k (2 ^ i)

/-- A write to a W1C item (R10, R12): each bit written 1 among the item's W1C bits is cleared, every other bit stays; a bit that the Gortum has
set in the same cycle stays set (R11). -/
def State.writeW1c (s : State) (k mask : Nat) (v : Word) : State :=
  s.clrBits k ((v.toNat &&& mask) &&& (0xFFFFFFFF ^^^ (Sparse.get 0 s.bitsNow k % 4294967296)))

end Sys2Proof.Machine
end

