-- ==== Sys2Proof/Machine/Line.lean ====
section
/-! DEFINITION. The line stream of a lane (R314 to R319): the codeword period bit by bit, the scrambler, RS(544,514), PAM4 and precoding. -/

namespace Sys2Proof.Machine

/-- The low `w` bits of a number, bit 0 first (R315). -/
def lineBits : Nat → Nat → List Bool
  | 0, _ => []
  | w + 1, n => (n % 2 == 1) :: lineBits w (n / 2)

/-- A number from its bits, bit 0 first. -/
def ofLineBits : List Bool → Nat
  | [] => 0
  | b :: bs => (if b then 1 else 0) + 2 * ofLineBits bs

/-! ### Scrambler (R317) -/

/-- One payload bit through the self-synchronising scrambler x^58 + x^39 + 1; bit i of the state is the bit sent i + 1 bits ago. -/
def scrambleBit (st : Nat) (b : Bool) : Bool × Nat :=
  let out := (b != (st / 2 ^ 38 % 2 == 1)) != (st / 2 ^ 57 % 2 == 1)
  (out, (2 * st + (if out then 1 else 0)) % 2 ^ 58)
def scramble : Nat → List Bool → List Bool × Nat
  | st, [] => ([], st)
  | st, b :: bs => let r := scrambleBit st b; let rest := scramble r.2 bs; (r.1 :: rest.1, rest.2)
/-- The receiver's side. -/
def descramble : Nat → List Bool → List Bool × Nat
  | st, [] => ([], st)
  | st, b :: bs =>
    let d := (b != (st / 2 ^ 38 % 2 == 1)) != (st / 2 ^ 57 % 2 == 1)
    let rest := descramble ((2 * st + (if b then 1 else 0)) % 2 ^ 58) bs
    (d :: rest.1, rest.2)

/-- A FILL block (Table 11-1). -/
def fillBlock : LineBlock := { sync := 2, payload := 0x1E }

/-- The bits of a block: sync header, then the scrambled payload (R315, R317, R348). -/
def blockBits (st : Nat) (b : LineBlock) : List Bool × Nat :=
  let r := scramble st (lineBits 64 b.payload.toNat)
  (lineBits 2 b.sync.toNat ++ r.1, r.2)
def blocksBits : Nat → List LineBlock → List Bool × Nat
  | st, [] => ([], st)
  | st, b :: bs => let r := blockBits st b; let rest := blocksBits r.2 bs; (r.1 ++ rest.1, rest.2)

/-! ### RS(544,514) over GF(2^10) (R316; the polynomials are those of IEEE 802.3 Clause 91, which the spec names: log 40) -/

/-- A product in GF(2^10) with the field polynomial x^10 + x^3 + 1 (log 40). -/
def gfDouble (a : Nat) : Nat := if 512 ≤ a then ((2 * a) ^^^ 0x409) else 2 * a
def gfMulAux : Nat → Nat → Nat → Nat
  | 0, _, _ => 0
  | k + 1, a, b => (if b % 2 = 1 then a else 0) ^^^ gfMulAux k (gfDouble a) (b / 2)
def gfMul (a b : Nat) : Nat := gfMulAux 10 a b

/-- The generator polynomial's coefficients below the leading one, from x^29 down: the product of (x + 2^j) for j = 0 to 29. -/
def polyTimes (root : Nat) (p : List Nat) : List Nat := List.zipWith (· ^^^ ·) (p ++ [0]) (0 :: p.map (gfMul root))
def gfPow2 : Nat → Nat
  | 0 => 1
  | k + 1 => gfDouble (gfPow2 k)
def rsGenerator : List Nat := (((List.range 30).map gfPow2).foldl (fun p r => polyTimes r p) [1]).drop 1

/-- The 30 parity symbols of a message, first symbol first. -/
def rsParity (message : List Nat) : List Nat :=
  message.foldl (fun reg m =>
    let f := m ^^^ (reg.headD 0)
    List.zipWith (fun r g => r ^^^ gfMul f g) (reg.drop 1 ++ [0]) rsGenerator) (List.replicate 30 0)

/-- The bits of a codeword: 514 symbols of 10 message bits, then 30 parity symbols (R315; log 40). -/
def codewordBits (control : Nat) (blocks : List Bool) : List Bool :=
  let message := lineBits 58 control ++ blocks
  message ++ (rsParity ((chunks 10 514 message).map ofLineBits)).flatMap (lineBits 10)

/-! ### Ordered-set slot (R319) and control field (R318) -/

/-- The slot as a number, bit 0 sent first (Table 10-4). -/
def slotWord (kind w : Nat) : Nat := 0xA55A + 2 ^ 16 * kind + 2 ^ 24 * w + 2 ^ 48 * w + 2 ^ 72 * w

/-- The control field (Table 10-3). -/
def controlWord (cwc lane lmask switch : Nat) (preReq : Bool) (lstate trainReq : Nat) : Nat :=
  cwc + 2 ^ 16 * lane + 2 ^ 18 * lmask + 2 ^ 22 * switch + 2 ^ 38 * b2n preReq + 2 ^ 39 * lstate + 2 ^ 43 * trainReq

/-! ### PAM4 and precoding (R315) -/

/-- A pair of bits, the earlier one the MSB, as a Gray-mapped level. -/
def grayLevel (a b : Bool) : Nat := match a, b with
  | false, false => 0
  | false, true => 1
  | true, true => 2
  | true, false => 3
def grayLevels : List Bool → List Nat
  | a :: b :: bs => grayLevel a b :: grayLevels bs
  | _ => []

/-- The levels sent: with precoding P(j) = (G(j) − P(j − 1)) mod 4. -/
def precodeFrom : Nat → List Nat → List Nat
  | _, [] => []
  | p, g :: gs => let q := (g + 4 - p) % 4; q :: precodeFrom q gs
def unprecodeFrom : Nat → List Nat → List Nat
  | _, [] => []
  | p, q :: qs => (q + p) % 4 :: unprecodeFrom q qs

/-- The 2,772 levels of a period (R314). -/
def periodLevels (precode : Bool) (last control slot : Nat) (blocks : List Bool) : List Nat :=
  let g := grayLevels (codewordBits control blocks ++ lineBits 104 slot)
  if precode then precodeFrom last g else g

end Sys2Proof.Machine
end

