-- ==== Sys2Proof/Machine/Blocks.lean ====
section
/-! DEFINITION. The blocks of the ring protocol (R348 to R352, R356) and the block stream of a port (R349; log 112). -/

namespace Sys2Proof.Machine

/-! ### Lanes and ports of the lane layer (chapter 10) -/

def State.lane (s : State) (l : Nat) : Lane := Sparse.get {} s.lnk.lanes l
def State.setLane (s : State) (l : Nat) (x : Lane) : State := { s with lnk := { s.lnk with lanes := Sparse.set {} s.lnk.lanes l x } }
def State.lanePort (s : State) (p : Nat) : LanePort := Sparse.get {} s.lnk.ports p
def State.setLanePort (s : State) (p : Nat) (x : LanePort) : State := { s with lnk := { s.lnk with ports := Sparse.set {} s.lnk.ports p x } }

/-- The index of a ring port, 0 W and 1 E, in the LNK block, where 0 is E and 1 is W (R345, R388). -/
def lnkOf (p : Nat) : Nat := 1 - p

/-- Blocks join the stream of a port that has lanes in LMASK: a frame behind what waits, a control block ahead of it, since it may stand anywhere
(R328, R349). -/
def State.queueBlocks (s : State) (p : Nat) (ahead : Bool) (bs : List LineBlock) : State :=
  let x := s.lanePort p
  if x.lmask = 0 then s else s.setLanePort p { x with stream := if ahead then bs ++ x.stream else x.stream ++ bs }

/-! ### Block layouts -/

/-- A control block: TYPE in its bits [7:0], content in [63:8] (Table 11-1). -/
def controlBlock (type content : Nat) : LineBlock := { sync := 2, payload := BitVec.ofNat 64 (type + 256 * content) }

/-- The data blocks of a payload: eight bytes each, the first lowest, the last filled up with 0 (R348, R352). -/
def dataBlocks (payload : List Byte) : List LineBlock :=
  (List.range (ceilDiv payload.length 8)).map (fun i => { sync := 1, payload := BitVec.ofNat 64 (leNat ((payload.drop (8 * i)).take 8)) })

/-- The 56 content bits of SOF (Table 11-5, its bit 8 first). -/
def sofContent (hseq : Nat) (f : Frame) : Nat :=
  256 * b2n f.auth + 512 * b2n f.turned + 1024 * f.prio + 4096 * f.dest + 16777216 * f.origin + 68719476736 * f.ftype + 1099511627776 * hseq

/-- HCRC: over the 7 content bytes of SOF and the payload (Table 11-6). -/
def frameCrc (hseq : Nat) (f : Frame) : Word := crc32c (leBytes 7 (sofContent hseq f) ++ f.payload)

/-- A frame as blocks: SOF, its data and EOF with HCRC, ABORT and PAD (R352, Tables 11-5 and 11-6). -/
def frameBlocks (hseq : Nat) (f : Frame) (abort : Bool) : List LineBlock :=
  let pad := (8 - f.payload.length % 8) % 8
  controlBlock 0x4B (sofContent hseq f) :: dataBlocks f.payload
    ++ [controlBlock 0x55 (1048576 * pad + 8388608 * b2n abort + 16777216 * (frameCrc hseq f).toNat)]

/-- An ACK block (Table 11-8), a POS block (R351). -/
def ackBlock (ackSeq : Nat) (nak : Bool) (xoff : Nat) : LineBlock :=
  controlBlock 0x2D (34359738368 * xoff + 549755813888 * b2n nak + 1099511627776 * ackSeq)
def posBlock (endId hops : Nat) (brk : Bool) : LineBlock :=
  controlBlock 0x33 (2147483648 * b2n brk + 4294967296 * hops + 17592186044416 * endId)

/-- The field C of a TIME block (Table 11-2), and its five blocks TIME0 to TIME4 (R350). -/
def timeContent (b : TimeBlock) : Nat :=
  2 ^ 272 * b.seq.toNat + 2 ^ 264 * b.rxSeq.toNat + 2 ^ 263 * b2n b.avail + 2 ^ 261 * b.srcKind.toNat + 2 ^ 259 * b.quality.toNat
    + 2 ^ 247 * b.hops.toNat + 2 ^ 215 * b.uncert.toNat + 2 ^ 167 * b.delta.toNat + 2 ^ 91 * b.txPrev.toNat + 2 ^ 15 * b.rxStamp.toNat
def timeBlocks (b : TimeBlock) : List LineBlock :=
  (List.range 5).map (fun i => controlBlock (0xD0 + i) (bits (timeContent b) (279 - 56 * i) (224 - 56 * i)))

end Sys2Proof.Machine
end

