-- ==== Sys2Proof/Machine/Memory.lean ====
section
/-! DEFINITION. The Granary and the on-chip SRAM (chapter 9): bytes, the outcome of a read, full and partial writes, and the record store. -/

namespace Sys2Proof.Machine

/-! ### Bytes -/

/-- Bytes of the plot space and of the SRAM (Tables 9-1, 9-5). -/
def granBytes : Nat := 14540 * 1048576
def sramBytes : Nat := 33554432

/-- The bytes of a memory from an address on; a byte nothing has written reads 0 (log 5). -/
def readBytes (m : List (Nat × Byte)) (a : Nat) : Nat → List Byte
  | 0 => []
  | n + 1 => Sparse.get 0 m a :: readBytes m (a + 1) n

/-- A memory with bytes written from an address on. -/
def writeBytes (m : List (Nat × Byte)) (a : Nat) : List Byte → List (Nat × Byte)
  | [] => m
  | b :: bs => writeBytes (Sparse.set 0 m a b) (a + 1) bs

/-- The memory's canonical form (log 5). -/
abbrev Memory.wf (m : List (Nat × Byte)) : Prop := Sparse.wf (fun _ => (0 : Byte)) m = true

/-! ### Outcomes of a read (Table 9-2) -/

def outClean : Nat := 0
def outCorrected : Nat := 1
def outUncorrectable : Nat := 2
def outPoisoned : Nat := 3

/-- The number of 1 bits. -/
def popCount : Nat → Nat → Nat
  | 0, _ => 0
  | n + 1, v => v % 2 + popCount n (v / 2)

/-- The outcome of reading a Granary line with errors standing in it, `failed` being the slice marked failed (R273, R274).  The poison mark is recognised
first; with a slice marked failed every other syndrome is taken for errors of its eight symbols (log 22). -/
def lineOutcome (failed : Nat) (e : LineError) : Nat :=
  if e.symbols.isEmpty then (if e.poison then outPoisoned else outClean)
  else if failed < 9 then outCorrected
  else if e.symbols.length ≤ 4 && !e.poison then outCorrected
  else if Config.lineMiscorrects e.symbols e.poison then outCorrected else outUncorrectable

/-- The outcome of reading an SRAM word with errors standing in it (R293). -/
def wordOutcome (e : WordError) : Nat :=
  let n := popCount 64 e.data.toNat + popCount 8 e.check.toNat
  if n = 0 then outClean
  else if e.data = 0 && e.check = 0xFF then outPoisoned
  else if n = 1 then outCorrected
  else if n = 2 then outUncorrectable
  else Config.sramOutcome e.data e.check % 4

/-- The data byte a line returns at an offset: corrected, or as stored (Table 9-2). -/
def lineByte (failed : Nat) (e : LineError) (stored : Byte) (j : Nat) : Byte :=
  let raw := stored ^^^ Sparse.get 0 e.symbols j
  if e.symbols.isEmpty then stored
  else if failed < 9 then
    (if e.symbols.all (fun x => x.1 / 8 == failed) && !e.poison then stored else Config.lineData e.symbols j)
  else if e.symbols.length ≤ 4 && !e.poison then stored
  else if Config.lineMiscorrects e.symbols e.poison then Config.lineData e.symbols j
  else raw

/-- The data an SRAM word returns: corrected, or as stored. -/
def wordData (e : WordError) (stored : W64) : W64 :=
  let n := popCount 64 e.data.toNat + popCount 8 e.check.toNat
  if n ≤ 1 then stored
  else if wordOutcome e = outCorrected || wordOutcome e = outClean then Config.sramData stored e.data e.check
  else stored ^^^ e.data

def State.memDie (s : State) (d : Nat) : DieMemory := s.mem.dies.get d
def State.setMemDie (s : State) (d : Nat) (x : DieMemory) : State := { s with mem := { s.mem with dies := s.mem.dies.set d x } }

def State.lineError (s : State) (d line : Nat) : LineError := Sparse.get {} (s.memDie d).lines line
def State.setLineError (s : State) (d line : Nat) (e : LineError) : State :=
  s.setMemDie d { s.memDie d with lines := Sparse.set {} (s.memDie d).lines line e }
def State.wordError (s : State) (d w : Nat) : WordError := Sparse.get {} (s.memDie d).words w
def State.setWordError (s : State) (d w : Nat) (e : WordError) : State :=
  s.setMemDie d { s.memDie d with words := Sparse.set {} (s.memDie d).words w e }

def State.sliceFail (s : State) (d : Nat) : Nat := s.rdN (P.RED_GRN_SLICE_FAIL d)
def State.lineOut (s : State) (d line : Nat) : Nat := lineOutcome (s.sliceFail d) (s.lineError d line)
def State.wordOut (s : State) (d w : Nat) : Nat := wordOutcome (s.wordError d w)

/-- Stored bytes of a line, or a stored word, of one die are changed by an exclusive or: they differ from those both dies hold alike (R297). -/
def State.flipLine (s : State) (d line : Nat) (xs : List (Nat × Byte)) : State :=
  let x := s.memDie d
  let flip := fun (m : List (Nat × Byte)) (y : Nat × Byte) =>
    if y.1 < 64 then Sparse.set 0 m (64 * line + y.1) (Sparse.get 0 m (64 * line + y.1) ^^^ y.2) else m
  s.setMemDie d { x with granDiff := xs.foldl flip x.granDiff }
def State.flipWord (s : State) (d w : Nat) (v : W64) : State :=
  let x := s.memDie d
  s.setMemDie d { x with sramDiff := Sparse.set 0 x.sramDiff w (Sparse.get 0 x.sramDiff w ^^^ v) }

/-- A line in UNCORRECTABLE state is given the poison mark (R296): its check symbols become those of the data it holds, wrong as they are, with the mark. -/
def State.poisonLine (s : State) (d line : Nat) : State :=
  if s.lineOut d line = outUncorrectable then (s.flipLine d line (s.lineError d line).symbols).setLineError d line { symbols := [], poison := true } else s
def State.poisonWord (s : State) (d w : Nat) : State :=
  if s.wordOut d w = outUncorrectable then (s.flipWord d w (s.wordError d w).data).setWordError d w { data := 0, check := 0xFF } else s

/-- What a die notes of a line read: the event counters of R483, and the diagnostics of Table 9-14. -/
def State.noteLine (s : State) (d line : Nat) : State :=
  let s := s.countIn d 6 0 1
  let o := s.lineOut d line
  if o = outCorrected then
    let s := s.addSat (P.RED_GRN_CE d) 1
    let s := s.setDie d { s.die d with ceTimes := s.time :: (s.die d).ceTimes }
    ((s.lineError d line).symbols).foldl (fun s x => s.countIn d 7 (x.1 / 8) 1) s
  else if o = outClean then s
  else s.addSat (P.RED_GRN_UE d) 1
def State.noteWord (s : State) (d w : Nat) : State :=
  let o := s.wordOut d w
  if o = outCorrected then
    let s := s.addSat (P.RED_SRM_CE d) 1
    let s := s.setDie d { s.die d with ceTimes := s.time :: (s.die d).ceTimes }
    s.countIn d 8 (w / 65536) 1
  else if o = outClean then s
  else s.addSat (P.RED_SRM_UE d) 1

/-- The requesters of Table 9-6 as event 0x0901 names them. -/
def reqRecordReader : Nat := 1
def reqBuilder : Nat := 2
def reqCoder : Nat := 3
def reqTransfer : Nat := 4
def reqGleaner : Nat := 9
def reqMemRead : Nat := 10

/-- The unit code of a die's Granary or SRAM in the event log (Table 15-11). -/
def unitOf (granary : Bool) (d : Nat) : Nat := if granary then 8 + d else 5 + d

/-- An uncorrectable or poisoned read: poisoned, logged and evidence of a fault in the die (R296, Table 12-5 check 1). -/
def State.badLine (s : State) (d line req : Nat) : State :=
  let o := s.lineOut d line
  if o < 2 then s else
    let s := s.poisonLine d line
    let s := s.logEvent 0x0901 (unitOf true d) 2 (64 * line) (o + 256 * req)
    s.setDie d { s.die d with evidence := 1 }
def State.badWord (s : State) (d w req : Nat) : State :=
  let o := s.wordOut d w
  if o < 2 then s else
    let s := s.poisonWord d w
    let s := s.logEvent 0x0901 (unitOf false d) 2 (8 * w) (o + 256 * req)
    s.setDie d { s.die d with evidence := 1 }

/-- One die reads a line or a word for a requester (R273, R293, R296). -/
def State.readLine (s : State) (d line req : Nat) : State := (s.noteLine d line).badLine d line req
def State.readWord (s : State) (d w req : Nat) : State := (s.noteWord d w).badWord d w req

/-- Both dies read: each keeps its own errors (R25, R297). -/
def State.readLineBoth (s : State) (line req : Nat) : State := (s.readLine 0 line req).readLine 1 line req
def State.readWordBoth (s : State) (w req : Nat) : State := (s.readWord 0 w req).readWord 1 w req

/-- The byte, or the word, a die has stored. -/
def State.granStored (s : State) (d a : Nat) : Byte := Sparse.get 0 s.mem.gran a ^^^ Sparse.get 0 (s.memDie d).granDiff a
def State.sramStored (s : State) (d w : Nat) : W64 :=
  BitVec.ofNat 64 (leNat (readBytes s.mem.sram (8 * w) 8)) ^^^ Sparse.get 0 (s.memDie d).sramDiff w

/-- The bytes a die's read returns at an address of the Granary or the SRAM (log 5). -/
def State.granByte (s : State) (d a : Nat) : Byte := lineByte (s.sliceFail d) (s.lineError d (a / 64)) (s.granStored d a) (a % 64)
def State.sramWord (s : State) (d w : Nat) : W64 := wordData (s.wordError d w) (s.sramStored d w)
def State.sramByte (s : State) (d a : Nat) : Byte := BitVec.ofNat 8 ((s.sramWord d (a / 8)).toNat / 256 ^ (a % 8))

/-! ### Writes (R294, R295) -/

/-- A span of one die's memory holds what both dies hold alike. -/
def without {α : Type} (m : List (Nat × α)) (a n : Nat) : List (Nat × α) := m.filter (fun e => decide (e.1 < a) || decide (a + n ≤ e.1))
def State.alikeLines (s : State) (a n : Nat) : State :=
  let f := fun (x : DieMemory) => { x with granDiff := without x.granDiff a n }
  { s with mem := { s.mem with dies := ⟨f s.mem.dies.a, f s.mem.dies.b⟩ } }
def State.alikeWords (s : State) (w n : Nat) : State :=
  let f := fun (x : DieMemory) => { x with sramDiff := without x.sramDiff w n }
  { s with mem := { s.mem with dies := ⟨f s.mem.dies.a, f s.mem.dies.b⟩ } }

/-- Whole lines and whole words written clear any error or poison mark in both dies (R294). -/
def State.writeLines (s : State) (line : Nat) (n : Nat) (bs : List Byte) : State :=
  let s := { s with mem := { s.mem with gran := writeBytes s.mem.gran (64 * line) (padTo (64 * n) bs) } }.alikeLines (64 * line) (64 * n)
  let s := (s.countIn 0 6 1 n).countIn 1 6 1 n
  (List.range n).foldl (fun s i => (s.setLineError 0 (line + i) {}).setLineError 1 (line + i) {}) s
def State.writeWords (s : State) (w : Nat) (n : Nat) (bs : List Byte) : State :=
  let s := { s with mem := { s.mem with sram := writeBytes s.mem.sram (8 * w) (padTo (8 * n) bs) } }.alikeWords w n
  (List.range n).foldl (fun s i => (s.setWordError 0 (w + i) {}).setWordError 1 (w + i) {}) s

/-- What the read of a line or word in one die corrects is written back: its errors are gone, and what it holds is what the read returned (R295, R299). -/
def State.writeBackLine (s : State) (d line : Nat) : State :=
  let xs := (List.range 64).map (fun j => (j, s.granByte d (64 * line + j) ^^^ s.granStored d (64 * line + j)))
  (s.flipLine d line (xs.filter (fun x => x.2 != 0))).setLineError d line {}
def State.writeBackWord (s : State) (d w : Nat) : State := (s.flipWord d w (s.sramWord d w ^^^ s.sramStored d w)).setWordError d w {}

/-- A die's half of a partial write, whose read comes first (R294, R295): refused where the read is uncorrectable or poisoned, else the line or word is
written anew, corrected. -/
def State.partialLine (s : State) (d line req : Nat) : State :=
  let s := s.noteLine d line
  if s.lineOut d line < 2 then s.writeBackLine d line else (s.badLine d line req).addSat (P.RED_PART_REFUSED d) 1
def State.partialWord (s : State) (d w req : Nat) : State :=
  let s := s.noteWord d w
  if s.wordOut d w < 2 then s.writeBackWord d w else (s.badWord d w req).addSat (P.RED_PART_REFUSED d) 1

/-- Bytes of the Granary are written: a die that refuses keeps what it has. -/
def State.keepBytes (s old : State) (a : Nat) (bs : List Byte) (d : Nat) : State :=
  let x := s.memDie d
  let put := fun (m : List (Nat × Byte)) (i : Nat) => Sparse.set 0 m (a + i) (if 2 ≤ old.lineOut d (a / 64) then old.granStored d (a + i) ^^^ bs.getD i 0 else 0)
  s.setMemDie d { x with granDiff := (List.range bs.length).foldl put x.granDiff }

/-- A partial write of bytes within one Granary line, judged in each die by its own read (R294, R295). -/
def State.writePart (s : State) (a : Nat) (bs : List Byte) (req : Nat) : State :=
  let s := ((s.partialLine 0 (a / 64) req).partialLine 1 (a / 64) req)
  let t := (s.countIn 0 6 1 1).countIn 1 6 1 1
  let t := { t with mem := { t.mem with gran := writeBytes t.mem.gran a bs } }
  (t.keepBytes s a bs 0).keepBytes s a bs 1

/-! ### Accesses under the background test (R304, R305) -/

def State.setTest (s : State) (x : SramTest) : State := { s with mem := { s.mem with test := x } }

/-- The march is abandoned and the region restored at once (R305). -/
def State.forceReturn (s : State) : State :=
  if s.mem.test.phase = .march then s.setTest { s.mem.test with phase := .restore, abandoned := true } else s

/-- A word cannot be reached: its region is borrowed, or its bank is held for a restore. -/
def State.blocked (s : State) (w : Nat) : Bool :=
  let x := s.mem.test
  (x.phase == .march && x.region == w / 8192) || (x.phase == .restore && x.region / 8 == w / 65536)

/-- An access touches a word: a write abandons a save of its region, and a borrowed region is returned at once. -/
def State.touch (s : State) (w : Nat) (write : Bool) : State :=
  let x := s.mem.test
  if x.phase = .save && x.region = w / 8192 && write then s.setTest { x with abandoned := true, again := true }
  else if x.phase = .march && x.region = w / 8192 then s.forceReturn
  else s

/-- The port a request asks for, ports A and B of banks 0 to 3, one port of every other bank (R288), and the cycle at which it was made (log 106). -/
def SramWait.port (x : SramWait) : Nat := 2 * (x.word / 65536) + b2n (x.portB && decide (x.word < 262144))
def SramWait.cycle (x : SramWait) : Nat := x.since / 4096

/-- The cycle from which a port is free, with the master that holds it until then. -/
def State.portHold (s : State) (port : Nat) : Nat × Nat := Sparse.get (0, 0) s.mem.portFree port

/-- A request joins those that wait, behind whatever holds its port. -/
def State.await (s : State) (x : SramWait) : State :=
  let h := s.portHold x.port
  let x := if h.2 = x.master then x else { x with conflict := h.1 - x.cycle }
  s.setTest { s.mem.test with waiting := s.mem.test.waiting ++ [x] }

/-- The regions a span of words covers, each by its first word of the span. -/
def regionsOf (w n : Nat) : List Nat := (spanRegions (w / 8192) ((w + n + 8191) / 8192 - w / 8192)).map (fun r => max w (8192 * r))
where spanRegions (r k : Nat) : List Nat := (List.range k).map (· + r)

/-- An access of the module's own to a span of words: what it does is done at once, and its wait for a region's return is counted (log 109). -/
def State.touchSpan (s : State) (master w n : Nat) (write : Bool) : State :=
  (regionsOf w n).foldl (fun s v =>
    let s := s.touch v write
    if s.blocked v then s.await { master, word := v, since := s.time, work := .own } else s) s

/-! ### The record store (R283 to R287) -/

def sramStore : Nat := 16

/-- The store of a record kind: the record plot whose KINDS covers it, else the SRAM record area (R283). -/
def State.storeFor (s : State) (kind : Nat) : Nat :=
  match s.mem.plots.find? (fun p => p.kind == 2 && bitOf p.kinds kind) with
  | some p => p.id
  | none => sramStore

def State.plot? (s : State) (id : Nat) : Option Plot := s.mem.plots.find? (fun p => p.id == id)

/-- Lines and index entries of a store (R283). -/
def State.storeLines (s : State) (id : Nat) : Nat := match s.plot? id with
  | some p => 15360 * p.size
  | none => 30720
def State.storeSlots (s : State) (id : Nat) : Nat := match s.plot? id with
  | some p => 4096 * p.size
  | none => 8192

/-- The byte address of a store's first line: a plot's base, or bank 4 of the SRAM (R288; the lines stand before the index, log 6). -/
def State.storeBase (s : State) (id : Nat) : Nat := match s.plot? id with
  | some p => 1048576 * p.base
  | none => 2097152

def State.store (s : State) (id : Nat) : Store := Sparse.get {} s.mem.stores id
def State.setStore (s : State) (id : Nat) (x : Store) : State := { s with mem := { s.mem with stores := Sparse.set {} s.mem.stores id x } }

/-- An extent of `n` lines from `c` lies within the store and meets no record. -/
def extentFree (cap n : Nat) (es : List IndexEntry) (c : Nat) : Bool :=
  decide (c + n ≤ cap) && es.all (fun e => decide (c + n ≤ e.line) || decide (e.line + e.lines ≤ c))

/-- The first free extent at or after the write position, in circular order (R284): it begins at the write position, at line 0, or where a
record ends. -/
def findExtent (cap n wp : Nat) (es : List IndexEntry) : Option Nat :=
  let ends := (0 :: wp :: es.map (fun e => e.line + e.lines)).filter (extentFree cap n es)
  let after := ends.filter (fun c => decide (wp ≤ c))
  match (after.min?, ends.min?) with
  | (some c, _) => some c
  | (none, c) => c

/-- The index without its oldest acknowledged record. -/
def freeOldest : List IndexEntry → Option (List IndexEntry)
  | [] => none
  | e :: es => if e.acked then some es else (freeOldest es).map (e :: ·)

/-- Where a record goes, freeing acknowledged records, oldest first, until it fits (R284); none when it does not. -/
def makeRoom (cap slots n wp : Nat) : Nat → List IndexEntry → Option Nat × List IndexEntry
  | 0, es => (if es.length < slots then findExtent cap n wp es else none, es)
  | k + 1, es =>
    match (if es.length < slots then findExtent cap n wp es else none) with
    | some c => (some c, es)
    | none => match freeOldest es with
      | some es' => makeRoom cap slots n wp k es'
      | none => (none, es)

/-- The record with a key in a store is marked DAMAGED in one die (R287); the node's count and status follow the active die (R27). -/
def State.markDamaged (s : State) (d id kind run seq : Nat) : State :=
  let st := s.store id
  let hit := fun (e : IndexEntry) => e.kind == kind && e.run == run && e.seq == seq && !(e.marks.get d)
  if st.entries.any hit then
    let s := s.setStore id { st with entries := st.entries.map (fun e => if hit e then { e with marks := e.marks.set d true } else e) }
    if d = s.active then (s.addSat (P.GRN_STORE_DAMAGED (min id sramStore)) 1).setBit P.GRN_STATUS 4 else s
  else s

/-- A stored record counts as acknowledged (R286, R358). -/
def State.acknowledge (s : State) (id kind run seq : Nat) : State :=
  let st := s.store id
  s.setStore id { st with entries := st.entries.map (fun e => if e.kind == kind && e.run == run && e.seq == seq then { e with acked := true } else e) }

/-- The Granary lines, or SRAM words, that a span of bytes of a store covers. -/
def spanOf (unit a n : Nat) : List Nat := (List.range ((a + n + unit - 1) / unit - a / unit)).map (· + a / unit)

/-- Both dies read a span of a store for a requester. -/
def State.readSpan (s : State) (id a n req : Nat) : State :=
  if id = sramStore then (spanOf 8 a n).foldl (fun s w => s.readWordBoth w req) (s.touchSpan req (a / 8) (ceilDiv (a % 8 + n) 8) false)
  else (spanOf 64 a n).foldl (fun s l => s.readLineBoth l req) s

/-- The worst outcome a die's read of a span of a store has. -/
def State.spanOut (s : State) (d id a n : Nat) : Nat :=
  if id = sramStore then (spanOf 8 a n).foldl (fun o w => max o (s.wordOut d w)) 0
  else (spanOf 64 a n).foldl (fun o l => max o (s.lineOut d l)) 0

/-- The bytes a die's read of a span of a store returns. -/
def State.spanBytes (s : State) (d id a n : Nat) : List Byte :=
  (List.range n).map (fun i => if id = sramStore then s.sramByte d (a + i) else s.granByte d (a + i))

end Sys2Proof.Machine
end

