-- ==== Sys2Proof/Machine/Records.lean ====
section
/-! DEFINITION. Records (chapter 8), gap entries (R231, R243), the store of a built record (R284) and the push of its descriptors
(R353, R370 to R372). -/

namespace Sys2Proof.Machine

/-! ### Histories (R238) -/

/-- The epoch in force at an instant, in ns. -/
def epochAt : List (Nat × Word) → Nat → Word
  | [], _ => 0
  | (i, e) :: es, t => if i ≤ t then e else epochAt es t

/-- Lock was not reported at some instant of a span. -/
def unlockedIn : List (Nat × Bool) → Nat → Nat → Bool
  | [], _, _ => true
  | (i, l) :: ls, t0, t1 => if t1 < i then unlockedIn ls t0 t1 else !l || (decide (t0 < i) && unlockedIn ls t0 t1)

/-! ### Layout (R237, R238, R243) -/

/-- A gap entry's four words (Table 8-4). -/
def GapEntry.words (g : GapEntry) : List W64 :=
  [BitVec.ofNat 64 (g.firstSeq % 4294967296 + 4294967296 * g.count), BitVec.ofNat 64 g.firstT, BitVec.ofNat 64 g.lastT,
   BitVec.ofNat 64 (g.reason + 8 * g.input)]

/-- LENGTH of a record (R237). -/
def Record.length (r : Record) : Nat := 36 + 32 * r.gaps.length + 8 * r.body.length

/-- The first header word (Table 8-1). -/
def Record.h0 (r : Record) : Nat :=
  r.gaps.length + 8 * b2n r.tbu + 16 * b2n r.step + 32 * b2n r.epochx + 256 * (r.run % 256) + 65536 * r.kind + 1048576 * (r.node % 4096)
    + 4294967296 * r.seq

/-- The words of a record before its trailer, and its bytes with the CRC-32C trailer (R237, R241). -/
def Record.words (r : Record) : List W64 :=
  [BitVec.ofNat 64 r.h0, BitVec.ofNat 64 (r.length + 4294967296 * r.epoch.toNat), BitVec.ofNat 64 r.time, BitVec.ofNat 64 r.kspec]
    ++ r.gaps.flatMap GapEntry.words ++ r.body
def Record.bytes (r : Record) : List Byte :=
  let bs := bytesOf64 r.words
  bs ++ leBytes 4 (crc32c bs).toNat

/-- The dispatch priority of a record kind (Table 11-14). -/
def prioOf (kind : Nat) : Nat := match kind with
  | 7 => 0
  | 0 => 1
  | 6 => 1
  | 2 => 2
  | 3 => 2
  | 4 => 2
  | _ => 3

/-! ### Gaps (R231, R243) -/

/-- The latest pending gap entry of a kind. -/
def latestGap (gs : List (Nat × GapEntry)) (kind : Nat) : Option GapEntry := ((gs.filter (fun g => g.1 == kind)).getLast?).map Prod.snd

/-- A loss extends the latest pending entry when the reason is the same and, for STORE and DROP, the number follows the entry's last. -/
def extendsGap (e : GapEntry) (reason seq : Nat) : Bool :=
  e.reason == reason && (decide (2 ≤ reason) || (e.firstSeq + e.count) % 4294967296 == seq)

/-- The latest entry of a kind, made one longer. -/
def lengthen (kind lastT : Nat) : List (Nat × GapEntry) → List (Nat × GapEntry)
  | [] => []
  | (k, g) :: gs =>
    if k == kind && !(gs.any (fun x => x.1 == kind)) then (k, { g with count := g.count + 1, lastT }) :: gs else (k, g) :: lengthen kind lastT gs

/-- A record lost or an interval skipped (R231). -/
def State.addGap (s : State) (kind reason seq firstT lastT : Nat) : State :=
  let s := s.addSat (P.TRG_GAP_COUNT kind) 1
  let gs := s.recs.gaps
  match latestGap gs kind with
  | some e =>
    if extendsGap e reason seq then { s with recs := { s.recs with gaps := lengthen kind lastT gs } }
    else if (gs.filter (fun g => g.1 == kind)).length < 4 then
      { s with recs := { s.recs with gaps := gs ++ [(kind, { reason, count := 1, firstSeq := seq, firstT, lastT })] } }
    else s.setBit P.TRG_STATUS 2
  | none => { s with recs := { s.recs with gaps := gs ++ [(kind, { reason, count := 1, firstSeq := seq, firstT, lastT })] } }

/-! ### Dispatch push (R353, R370 to R372) -/

/-- The segments of a record: at most 4,096 bytes each, every one but the last a multiple of 8, and none under 8 bytes (R353, R374; where the
last would hold 4 bytes the one before is cut to 4,088, log 7). -/
def segmentsFrom : Nat → Nat → Nat → List (Nat × Nat)
  | 0, _, _ => []
  | fuel + 1, off, left =>
    if left ≤ 4096 then [(off, left)]
    else if left < 4104 then (off, 4088) :: segmentsFrom fuel (off + 4088) (left - 4088)
    else (off, 4096) :: segmentsFrom fuel (off + 4096) (left - 4096)
def segments (len : Nat) : List (Nat × Nat) := segmentsFrom (len / 4088 + 1) 0 len

/-- The descriptors of a stored record (Table 11-15). -/
def descriptorsOf (s : State) (id : Nat) (e : IndexEntry) (dir : Nat) (refetch : Bool) : List Descriptor :=
  (segments e.length).map (fun (off, len) =>
    { seq := e.seq, kind := e.kind, run := e.run, prio := prioOf e.kind, first := off == 0, last := off + len == e.length, refetch,
      marks := e.marks, dir, offset := off, len, store := id, addr := s.storeBase id + 64 * e.line + off, pushed := s.now,
      length := e.length, hopsW := s.rdN (P.CLP_POS_HOPS 0), hopsE := s.rdN (P.CLP_POS_HOPS 1) })

/-- The filling bank is full (R372). -/
def State.bankFull (s : State) : Bool :=
  decide (4096 ≤ s.clp.fill.length) || decide (s.rdN P.CLP_DSP_BANK_BYTES ≤ (s.clp.fill.map (·.len)).sum)

/-- The cycle of the CD core clock, 1 ns nominal, that it is now (R370). -/
def State.cycle (s : State) : Nat := s.time / 4096

/-- The banks at the beginning of a cycle (R371): at the end of the first cycle that begins with the draining bank empty and ends with the filling bank
not empty they have swapped, with what had been pushed by then. -/
def ClpState.at_ (x : ClpState) (cycle : Nat) : ClpState := match x.drain, x.fill with
  | [], d :: _ =>
    let c := max x.emptyFrom d.cycle
    if c < cycle then
      { x with drain := x.fill.filter (fun e => decide (e.cycle ≤ c)), fill := x.fill.filter (fun e => decide (c < e.cycle)), readable := c + 1 }
    else x
  | _, _ => x

/-- A push lands in the filling bank, in the next cycle free for one (R370). -/
def State.pushInto (s : State) (d : Descriptor) : State :=
  let cycle := max s.cycle s.clp.pushNext
  let x := s.clp.at_ cycle
  ({ s with clp := { x with fill := x.fill ++ [{ d with pushed := s.now + (cycle - s.cycle), cycle }], pushNext := cycle + 1 } }).count 4 d.prio

/-- One push: into the filling bank, or stalled when the bank is full or an earlier push waits (R372). -/
def State.pushOne (s : State) (d : Descriptor) : State :=
  let s := { s with clp := s.clp.at_ (max s.cycle s.clp.pushNext) }
  if s.clp.stalled.isEmpty && !s.bankFull then s.pushInto d
  else
    let since := if s.clp.stalled.isEmpty then s.time else s.clp.stalledSince
    ({ s with clp := { s.clp with stalled := s.clp.stalled ++ [d], stalledSince := since } }).setBit P.CLP_STATUS 6

def State.pushAll (s : State) (ds : List Descriptor) : State := ds.foldl State.pushOne s

/-! ### Building and storing (R240, R284) -/

/-- What a chapter gives of a record it builds. -/
structure Draft where
  kind : Nat
  time : Nat
  last : Nat
  kspec : Nat
  body : List W64
  marks : Two Bool := ⟨false, false⟩
  /-- A step instant of the time base ends the span (R238). -/
  step : Bool := false
  /-- Its instants are those of the time before the last step of the time base. -/
  old : Bool := false
  /-- The output port, 0 W or 1 E (Table 11-10). -/
  dir : Nat
  deriving DecidableEq, Repr

/-- The record a draft becomes (R238, R240): the next sequence number of its kind and the gap entries pending for it (log 82). -/
def State.recordOf (s : State) (d : Draft) : Record :=
  let epochs := if d.old then s.recs.oldEpochs else s.recs.epochs
  let stepped := !d.old && decide (d.time < s.tb.stepped) && decide (s.tb.stepped ≤ d.last + 1)
  { kind := d.kind
    seq := s.rdN (P.REC_SEQ d.kind)
    node := s.rdN P.SYS_NODE_ID
    run := s.rdN P.REC_RUN
    epochx := epochs.any (fun e => decide (d.time < e.1) && (decide (e.1 < d.last) || (e.1 == d.last && 2 ≤ d.kind)))
    step := d.step || stepped
    tbu := unlockedIn (if d.old then s.recs.oldLocks else s.recs.locks) d.time d.last
    gaps := (s.recs.gaps.filter (fun g => g.1 == d.kind)).map Prod.snd
    epoch := epochAt epochs d.time
    time := d.time
    kspec := d.kspec
    body := d.body }

/-- The sequence number is consumed, and the counters and status bits follow (R240, R268, R483). -/
def State.consumeSeq (s : State) (kind : Nat) : State :=
  let seq := s.rdN (P.REC_SEQ kind)
  let carried := s.recs.gaps.any (fun g => g.1 == kind)
  let s := s.wrN (P.REC_SEQ kind) (seq + 1)
  let s := if seq = 0xFFFFFFFF then s.setBit P.REC_STATUS 2 else s
  let s := if carried then s.setBit P.REC_STATUS 1 else s
  let s := (s.addWrap (P.REC_BUILT kind) 1).setBit P.REC_STATUS 0
  s.count 3 kind

/-- The gap entries of a kind have gone with a stored record. -/
def State.dropGaps (s : State) (kind : Nat) : State := { s with recs := { s.recs with gaps := s.recs.gaps.filter (fun g => g.1 != kind) } }

/-- A record's bytes written into whole lines of its store (R283, R294; log 6). -/
def State.writeRecord (s : State) (id line lines : Nat) (bs : List Byte) : State :=
  if id = sramStore then (s.touchSpan reqBuilder (262144 + 8 * line) (8 * lines) true).writeWords (262144 + 8 * line) (8 * lines) bs
  else s.writeLines (s.storeBase id / 64 + line) lines bs

/-- A built record is stored and its descriptors are pushed, or the store refuses it and a STORE gap is recorded (R284, R231); the entries of a refused
record go on waiting, and the loss extends the latest (R243). -/
def State.storeRecord (s : State) (r : Record) (dir : Nat) (marks : Two Bool) : State :=
  let id := s.storeFor r.kind
  let st := s.store id
  let n := ceilDiv r.length 64
  match makeRoom (s.storeLines id) (s.storeSlots id) n st.wp st.entries.length st.entries with
  | (some c, es) =>
    let e : IndexEntry := { kind := r.kind, seq := r.seq, run := r.run, time := r.time, line := c, lines := n, length := r.length, dir }
    let s := (s.dropGaps r.kind).setStore id { wp := (c + n) % s.storeLines id, entries := es ++ [e] }
    let s := s.writeRecord id c n r.bytes
    let s := if marks.a then s.markDamaged 0 id r.kind r.run r.seq else s
    let s := if marks.b then s.markDamaged 1 id r.kind r.run r.seq else s
    s.pushAll (descriptorsOf s id { e with marks } dir false)
  | (none, es) =>
    let s := s.setStore id { st with entries := es }
    let s := (s.addSat (P.GRN_STORE_REFUSED r.kind) 1).setBit P.GRN_STATUS 0
    s.addGap r.kind 0 r.seq r.time r.time

/-- In a die the working data of a record failed since the last one was built: a builder's, or for a fragment a coder's (R287, Table 9-7). -/
def workFailed (x : DieMemory) (kind : Nat) : Bool := x.workBad.any (fun m => m == reqBuilder || (m == reqCoder && kind == 0))
def workDone (x : DieMemory) (kind : Nat) : DieMemory := { x with workBad := x.workBad.filter (fun m => m == reqCoder && kind != 0) }
def State.clearWork (s : State) (kind : Nat) : State :=
  { s with mem := { s.mem with dies := ⟨workDone s.mem.dies.a kind, workDone s.mem.dies.b kind⟩ } }

/-- A record is built: numbered, laid out, stored and pushed (R240, R241, R284). -/
def State.build (s : State) (d : Draft) : State :=
  let marks : Two Bool := ⟨d.marks.a || workFailed s.mem.dies.a d.kind, d.marks.b || workFailed s.mem.dies.b d.kind⟩
  ((s.consumeSeq d.kind).clearWork d.kind).storeRecord (s.recordOf d) d.dir marks

/-- The direction of a record that names none (Table 11-10). -/
def State.recDir (s : State) : Nat := s.rdN P.CLP_REC_DIR

/-! ### Open STP, ITV and ALM records (R251, R252, R255) -/

/-- The KSPEC word of a counted record is its COUNT (Table 8-3). -/
def OpenRecord.draft (o : OpenRecord) (kind dir : Nat) : Draft :=
  { kind, time := o.first, last := o.last, kspec := o.entries.length, body := o.entries.flatten, dir }

def State.closeStp (s : State) : State := match s.recs.stp with
  | none => s
  | some o => ({ s with recs := { s.recs with stp := none } }).build (o.draft 2 s.recDir)
def State.closeItv (s : State) : State := match s.recs.itv with
  | none => s
  | some o => ({ s with recs := { s.recs with itv := none } }).build (o.draft 3 s.recDir)
def State.closeAlm (s : State) : State := match s.recs.alm with
  | none => s
  | some o => ({ s with recs := { s.recs with alm := none } }).build (o.draft 6 s.recDir)

/-- An open record with one more entry of an instant. -/
def OpenRecord.add (o : Option OpenRecord) (now slot : Nat) (ws : List W64) (t : Nat) : OpenRecord := match o with
  | none => { entries := [ws], opened := now, first := t, last := t, slot }
  | some o => { o with entries := o.entries ++ [ws], first := min o.first t, last := max o.last t }

/-- A stamp word enters the open STP record, which closes at REC_STP_MAX (R251). -/
def State.addStp (s : State) (w : W64) (t : Nat) : State :=
  let o := OpenRecord.add s.recs.stp s.now 0 [w] t
  let s := { s with recs := { s.recs with stp := some o } }
  if s.rdN P.REC_STP_MAX ≤ o.entries.length then s.closeStp else s

/-- An interval result enters the open ITV record, which closes at REC_ITV_MAX (R252). -/
def State.addItv (s : State) (ws : List W64) (t : Nat) : State :=
  let o := OpenRecord.add s.recs.itv s.now 0 ws t
  let s := { s with recs := { s.recs with itv := some o } }
  if s.rdN P.REC_ITV_MAX ≤ o.entries.length then s.closeItv else s

/-- An alarm change enters the ALM record of its slot, which continues in a further record after 255 changes (R255). -/
def State.addAlm (s : State) (slot : Nat) (ws : List W64) (t : Nat) : State :=
  let s := match s.recs.alm with
    | some o => if o.slot == slot && o.entries.length < 255 then s else s.closeAlm
    | none => s
  { s with recs := { s.recs with alm := some (OpenRecord.add s.recs.alm s.now slot ws t) } }

end Sys2Proof.Machine
end

