-- ==== Sys2Proof/Machine/Commands.lean ====
section
/-! DEFINITION. Receiving a command (chapter 2): which node executes it, the checks of Table 2-2 with the duplicate rules, and replies. -/

namespace Sys2Proof.Machine

/-! ### Status codes (Table 2-3) -/

def stOk : Nat := 0x00
def stAccepted : Nat := 0x01
def stBadOpcode : Nat := 0x10
def stBadParam : Nat := 0x11
def stRange : Nat := 0x12
def stLocked : Nat := 0x13
def stAuth : Nat := 0x14
def stBusy : Nat := 0x20
def stEpochConflict : Nat := 0x21
def stTimeout : Nat := 0x30
def stInternal : Nat := 0x40

/-! ### Opcodes (Table 2-5) -/

/-- What Table 2-5 says of an opcode: whether it may be scheduled, broadcast, and whether it is privileged. -/
structure OpInfo where
  sched : Bool
  bcast : Bool
  priv : Bool
  deriving DecidableEq, Repr

/-- The rows of Table 2-5; an opcode not listed is unassigned. -/
def opInfo (code : Nat) : Option OpInfo := match code with
  | 0x00 => some ⟨false, true, false⟩
  | 0x01 => some ⟨false, true, false⟩
  | 0x02 => some ⟨true, true, true⟩
  | 0x03 => some ⟨true, true, false⟩
  | 0x04 => some ⟨false, false, false⟩
  | 0x05 => some ⟨false, true, false⟩
  | 0x06 => some ⟨false, true, true⟩
  | 0x07 => some ⟨false, true, false⟩
  | 0x10 => some ⟨false, true, false⟩
  | 0x11 => some ⟨true, true, false⟩
  | 0x12 => some ⟨false, false, false⟩
  | 0x13 => some ⟨true, true, false⟩
  | 0x14 => some ⟨false, true, false⟩
  | 0x15 => some ⟨false, true, false⟩
  | 0x20 => some ⟨true, true, false⟩
  | 0x21 => some ⟨true, true, false⟩
  | 0x22 => some ⟨true, true, false⟩
  | 0x23 => some ⟨true, true, false⟩
  | 0x24 => some ⟨false, false, false⟩
  | 0x30 => some ⟨true, true, false⟩
  | 0x31 => some ⟨false, true, false⟩
  | 0x32 => some ⟨true, true, false⟩
  | 0x33 => some ⟨false, false, false⟩
  | 0x40 => some ⟨false, true, false⟩
  | 0x41 => some ⟨true, true, false⟩
  | 0x42 => some ⟨false, false, true⟩
  | 0x43 => some ⟨false, false, true⟩
  | 0x44 => some ⟨true, true, false⟩
  | 0x50 => some ⟨false, false, false⟩
  | 0x51 => some ⟨false, false, false⟩
  | 0x52 => some ⟨false, true, false⟩
  | 0x53 => some ⟨false, false, true⟩
  | 0x54 => some ⟨false, false, true⟩
  | 0x60 => some ⟨false, true, false⟩
  | 0x61 => some ⟨false, false, true⟩
  | 0x62 => some ⟨false, true, false⟩
  | 0x70 => some ⟨false, true, false⟩
  | 0x71 => some ⟨false, false, false⟩
  | 0x72 => some ⟨false, false, true⟩
  | 0x73 => some ⟨false, false, true⟩
  | 0x74 => some ⟨false, false, true⟩
  | 0x80 => some ⟨false, false, false⟩
  | 0x81 => some ⟨false, false, false⟩
  | 0x82 => some ⟨false, false, false⟩
  | 0x83 => some ⟨false, true, false⟩
  | 0x84 => some ⟨false, false, true⟩
  | 0x85 => some ⟨false, false, true⟩
  | 0x86 => some ⟨false, false, false⟩
  | 0xF0 => some ⟨false, false, true⟩
  | 0xF1 => some ⟨false, false, true⟩
  | 0xF2 => some ⟨false, false, true⟩
  | _ => none

/-! ### Who executes (R43, R369, R496) -/

/-- The opcodes a node without an ID executes of the broadcasts that reach it (R369). -/
def unnamedOps : List Nat := [0x00, 0x01, 0x06, 0x40, 0x70, 0x60]

/-- The node is a target of the command: TARGET 0x000 names the portal that received it from its own host, TARGET 0xFFF every node; a node whose
ID is 0x000 executes only the broadcasts of R369. -/
def State.isTarget (s : State) (code : Nat) (h : Hdr) : Bool :=
  let id := s.rdN P.SYS_NODE_ID
  if h.target = 0 then h.arrival == .host
  else if h.target = 0xFFF then id != 0 || unnamedOps.contains code
  else id != 0 && h.target.toNat == id

/-- The node takes commands: a die runs and the hardware stop is not in force (R496, R506). -/
def State.takesCommands (s : State) : Bool := s.running && !s.pwr.hardStop

/-! ### Replies (R36, R40, R256) -/

/-- The output port of a reply: the one the command arrived on (Table 11-10). -/
def arrivalPort : Arrival → Nat
  | .west => 0
  | .east => 1
  | .host => 0

/-- The RPL record of a reply (Table 8-3, R256). -/
def Reply.draft (r : Reply) : Draft :=
  { kind := 7, time := r.time, last := r.time
    kspec := r.tag + 65536 * r.opcode + 16777216 * r.status + 4294967296 * r.issuer + 17592186044416 * r.data.length
    body := pairWords r.data, dir := arrivalPort r.arrival }

/-- A reply is sent: noted, counted when it refuses, and built as an RPL record (R35, R67). -/
def State.sendReply (s : State) (r : Reply) : State :=
  let s := { s with cmd := { s.cmd with replies := r :: s.cmd.replies } }
  let s := if 0x10 ≤ r.status then s.addSat P.SYS_CMD_REFUSED_COUNT 1 else s
  s.build r.draft

/-- The reply to a command as the node builds it now (R36). -/
def State.mkReply (s : State) (code : Nat) (h : Hdr) (status : Nat) (data : List Word) : Reply :=
  { node := s.rdN P.SYS_NODE_ID, issuer := h.issuer.toNat, arrival := h.arrival, tag := h.tag.toNat, opcode := code, status,
    epoch := s.rd P.SYS_EPOCH, time := s.now, data }

/-- Two headers name one command: the pair of R39. -/
def samePair (h g : Hdr) : Bool := h.issuer == g.issuer && h.tag == g.tag

/-- A final reply is sent: the command is no longer outstanding, and the reply is kept for 1 ms unless it is BUSY (R39, R40). -/
def State.finish (s : State) (code : Nat) (h : Hdr) (status : Nat) (data : List Word) : State :=
  let r := s.mkReply code h status data
  let outstanding := s.cmd.outstanding.filter (fun o => !samePair o.h h)
  let k : KeptReply := { issuer := h.issuer.toNat, tag := h.tag.toNat, crc := h.crc, until_ := s.time + msec 1, reply := r }
  let kept := if status = stBusy then s.cmd.kept else k :: s.cmd.kept
  ({ s with cmd := { s.cmd with outstanding, kept } }).sendReply r

/-- Another waiting command goes first: its instant is earlier (R187), or it is the same and the command was received before (R46; an EPOCH.COMMIT
waits under no instant of its own here). -/
def State.earlierFirst (s : State) (h : Hdr) (instant : Nat) : Bool :=
  s.cmd.outstanding.any (fun o => match o.due with
    | some d => decide (d < instant)
    | none => false)
  || (s.cmd.outstanding.takeWhile (fun o => !samePair o.h h)).any (fun o => o.due == some instant)

/-- A command becomes outstanding, with the instant at which it acts if it waits for one (R39). -/
def State.hold (s : State) (code : Nat) (h : Hdr) (p : List Word) (due : Option Nat) (last : Option Reply) : State :=
  { s with cmd := { s.cmd with outstanding := s.cmd.outstanding ++ [{ h, op := code, p, due, last }] } }

/-- The ACCEPTED reply (R37): the command is outstanding from now on. -/
def State.accept (s : State) (code : Nat) (h : Hdr) (p : List Word) (due : Option Nat) : State :=
  let r := s.mkReply code h stAccepted []
  (s.hold code h p due (some r)).sendReply r

/-! ### The checks of Table 2-2, steps 2 to 5 -/

/-- The minimum lead of a scheduled command, in ns (R44). -/
def State.leadOf (s : State) (code : Nat) : Nat := if code = 0x13 then s.rdN P.SYS_EPOCH_LEAD else 10000

/-- TIME_TAG meets R44. -/
def State.timeTagGood (s : State) (code : Nat) (h : Hdr) : Bool :=
  let tt := h.timeTag.toNat
  tt % 1000 == 0 && decide (s.time + ns (s.leadOf code) ≤ ns tt) && decide (ns tt ≤ s.time + secs 3600)

/-- Step 2: the header's reserved bits, BCAST, TIME_TAG and LENGTH; a broadcast of an opcode not marked broadcast (R43). -/
def headerGood (i : OpInfo) (h : Hdr) (p : List Word) : Bool :=
  h.reserved == 0 && (h.bcast == (h.target == 0xFFF)) && (h.sched || h.timeTag == 0) && h.length.toNat == 4 * p.length
    && h.length.toNat ≤ 4080 && (i.bcast || !h.bcast)

/-- Step 3: a privileged opcode needs PRIV and either the portal's own open session or AUTH in the frame (R475); NODE.SETID at a node without an
ID needs AUTH alone (R369). -/
def State.authorised (s : State) (code : Nat) (i : OpInfo) (h : Hdr) : Bool :=
  !i.priv || (h.priv && (h.auth || (h.arrival == .host && s.mgt.session.isSome))) || (code == 0x06 && h.auth && s.rdN P.SYS_NODE_ID == 0)

/-- The first failing check of steps 1 to 5 with its status; none when all hold.  While the time base is UNSET no command is scheduled (R188). -/
def State.refusal (s : State) (code : Nat) (h : Hdr) (p : List Word) : Option Nat := match opInfo code with
  | none => some stBadOpcode
  | some i =>
    if !headerGood i h p then some stBadParam
    else if !s.authorised code i h then some stAuth
    else if 256 ≤ s.cmd.outstanding.length then some stBusy
    else if h.sched && !i.sched then some stBadParam
    else if h.sched && (s.rdN P.TB_STATE == 0 || !s.timeTagGood code h) then some stRange
    else none

/-- The status bits and log entries that go with a refusal of steps 1 to 5 (R41, R44, Table 15-12). -/
def State.noteRefusal (s : State) (code : Nat) (h : Hdr) (st : Nat) : State :=
  if st = stBusy then s.setBit P.SYS_CMD_FLAGS 1
  else if st = stRange && !s.timeTagGood code h then s.setBit P.SYS_CMD_FLAGS 2
  else if st = stAuth then s.logEvent 0x1105 0 1 code h.tag.toNat
  else s

/-! ### Receiving (R34, R39 to R41) -/

/-- What a command answers once steps 1 to 5 hold: a final reply, a place among the outstanding commands with or without an ACCEPTED reply, or
no reply at all (R368 BY_POSITION). -/
inductive Answer where
  | final (status : Nat) (data : List Word)
  | later (due : Option Nat)
  | quiet (due : Option Nat)
  | silent
  deriving DecidableEq, Repr

/-- The ACCEPTED that answers a repeat of a command without a reply so far is the last reply sent for it from then on (R39). -/
def State.noteLast (s : State) (h : Hdr) (r : Reply) : State :=
  { s with cmd := { s.cmd with outstanding := s.cmd.outstanding.map (fun o => if samePair o.h h then { o with last := some r } else o) } }

/-- The replies kept under a packet's pair (R40). -/
def State.keptFor (s : State) (h : Hdr) : List KeptReply :=
  s.cmd.kept.filter (fun k => k.issuer == h.issuer.toNat && k.tag == h.tag.toNat && decide (s.time < k.until_))

/-- A used pair with another content is refused with BAD_PARAM; the refusal is kept like any other final reply (R39, R40; log 97). -/
def State.refuseOther (s : State) (code : Nat) (h : Hdr) : State :=
  let r := s.mkReply code h stBadParam []
  let k : KeptReply := { issuer := h.issuer.toNat, tag := h.tag.toNat, crc := h.crc, until_ := s.time + msec 1, reply := r }
  ({ s with cmd := { s.cmd with kept := k :: s.cmd.kept } }).sendReply r

/-- A packet that repeats an outstanding or recent command of its portal (R39, R40): the reply sent again, or BAD_PARAM when its content
differs; none when it repeats no command.  The pair is compared before step 1 of Table 2-2, so a used pair with another CRC answers BAD_PARAM
whatever the packet's steps 1 to 3 would give: R34 and R39 both claim such a packet, and the choice is the model's (log 97). -/
def State.duplicate (s : State) (code : Nat) (h : Hdr) : Option State :=
  let again := (s.keptFor h).find? (fun k => k.crc == h.crc)
  match s.cmd.outstanding.find? (fun o => samePair o.h h), again with
  | some o, again =>
    if o.h.crc == h.crc then
      let r := o.last.getD (s.mkReply code h stAccepted [])
      some ((s.noteLast h r).sendReply r)
    else match again with
      | some k => some (s.sendReply k.reply)
      | none => some (s.refuseOther code h)
  | none, some k => some (s.sendReply k.reply)
  | none, none => if (s.keptFor h).isEmpty then none else some (s.refuseOther code h)

/-- What follows of a command's answer. -/
def State.answer (s : State) (code : Nat) (h : Hdr) (p : List Word) : Answer → State
  | .final st data => s.finish code h st data
  | .later due => s.accept code h p due
  | .quiet due => s.hold code h p due none
  | .silent => s

/-- A command packet whose CRC is good is received at the node: it is not for this node, repeats another, is refused by steps 1 to 5, or runs
its own checks and effect. -/
def State.receive (s : State) (code : Nat) (h : Hdr) (p : List Word) (body : State → State × Answer) : State :=
  let s := s.at_ h.at_
  if !s.takesCommands || !s.isTarget code h then s
  else match s.duplicate code h with
    | some s' => s'
    | none => match s.refusal code h p with
      | some st => (s.noteRefusal code h st).finish code h st []
      | none => let r := body s; r.1.answer code h p r.2

/-- A refusal by a command's own checks. -/
def refuse (s : State) (status : Nat) (data : List Word := []) : State × Answer := (s, .final status data)

/-- A final reply OK. -/
def okay (s : State) (data : List Word := []) : State × Answer := (s, .final stOk data)

/-- Parameter word i of a command, 0 beyond its field. -/
def word (p : List Word) (i : Nat) : Nat := (p.getD i 0).toNat

/-- The instant at which a waiting command acts, given the one it waits for: after a step of the time base beyond it, the step instant (R187). -/
def State.actAt (s : State) (due : Nat) : Nat := max due (s.tb.stepped - 1)

/-- The instant at which a command acts: TIME_TAG when it is scheduled, else the first slot boundary after receipt, in ns. -/
def State.actInstant (s : State) (h : Hdr) : Nat := if h.sched then h.timeTag.toNat else boundaryAfter s.now

end Sys2Proof.Machine
end

