-- ==== Sys2Proof/Machine/Claims.lean ====
section
/-! DEFINITION. Penalties, health and claims of the concentrator dies (R399, R400). -/

namespace Sys2Proof.Machine

/-- A clock injection is in force on a die (Table 12-8 KIND 5). -/
def State.clockFast (s : State) (d : Nat) : Bool :=
  s.red.injections.any (fun i => i.kind == 5 && i.die == d && decide (s.time < i.until_))

/-- Corrected lines and words of a die within the last hour (Table 12-3 bit 2). -/
def State.ceLastHour (s : State) (d : Nat) : Nat := ((s.die d).ceTimes.filter (fun t => decide (s.time < t + secs 3600))).length

/-- A penalty of Table 12-3 is in force on a die. -/
def State.penalty (s : State) (d : Nat) : Nat → Bool
  | 0 => decide (s.sliceFail d < 9)
  | 1 => decide (0 < (s.die d).marches)
  | 2 => decide (s.rdN P.RED_CE_LIMIT < s.ceLastHour d)
  | 3 => (s.memDie d).granGleaner.slow || (s.memDie d).sramGleaner.slow
  | 4 => (s.die d).hot
  | 5 => s.clockFast d
  | 6 => (s.die d).aloneFault
  | 7 => (s.die d).unresFault
  | _ => false

/-- The points each penalty takes (Table 12-3). -/
def State.penaltyPoints (s : State) (d : Nat) : Nat → Nat
  | 0 => 16
  | 1 => 8 * min 4 (s.die d).marches
  | 2 => 4
  | 3 => 2
  | 4 => 8
  | 5 => 8
  | 6 => 16
  | 7 => 32
  | _ => 0

def penaltyBits : List Nat := [0, 1, 2, 3, 4, 5, 6, 7]

/-- RED_PENALTY and HEALTH of a die (R400). -/
def State.penalties (s : State) (d : Nat) : Nat := (penaltyBits.map (fun b => if s.penalty d b then 2 ^ b else 0)).sum
def State.health (s : State) (d : Nat) : Nat := 63 - (penaltyBits.map (fun b => if s.penalty d b then s.penaltyPoints d b else 0)).sum

/-- ROLE of a die (Table 12-2): a preferred die that came from SYNCING waits for RED_REVERT_HOLD (R408). -/
def State.role (s : State) (d : Nat) : Nat :=
  if s.dieState d ≠ dieInStep then 0
  else if s.red.forced = some d then 3
  else if s.rdN P.RED_PREF = d && decide (s.rdN P.RED_HEALTH_MIN ≤ s.health d) && decide ((s.die d).preferAt ≤ s.time) then 2
  else 1

/-- The claim number of a die (R399). -/
def State.claim (s : State) (d : Nat) : Nat := 64 * s.role d + s.health d

/-- The winner of two claims: the higher, CD-A on a tie (R19). -/
def winnerOf (a b : Nat) : Nat := if a < b then 1 else 0

end Sys2Proof.Machine
end

