-- ==== Sys2Proof/Machine/Output.lean ====
section
/-! DEFINITION. What leaves a node: own-output items of the two dies (R395), frames on the ring ports (R359, R365), items to the host (R386). -/

namespace Sys2Proof.Machine

/-! ### Ports (R359, R364) -/

def State.port (s : State) (p : Nat) : ClpPort := s.clp.ports.get p
def State.setPort (s : State) (p : Nat) (x : ClpPort) : State := { s with clp := { s.clp with ports := s.clp.ports.set p x } }

/-- A ring port is ACTIVE. -/
def State.portActive (s : State) (p : Nat) : Bool := s.rdN (P.LNK_PORT_STATE (lnkOf p)) == 2

/-- The ring link of a portal: the one of its ports E and W that is enabled (R172). -/
def State.ringLink (s : State) : Nat := if s.rdN (P.LNK_PORT_EN 0) = 1 then 1 else 0

/-- A ring port of the node: both of a span node, the ring link of a portal (R364). -/
def State.isRingPort (s : State) (p : Nat) : Bool := !s.prt.portal || p == s.ringLink

/-- The bytes of a segment header (Table 11-7), little-endian. -/
def segHeader (kind run seq : Nat) (last damaged refetch : Bool) (hopsW hopsE off : Nat) : List Byte :=
  leBytes 8 (131072 * b2n refetch + 262144 * b2n damaged + 524288 * b2n last + 1048576 * (run % 256) + 268435456 * kind + 4294967296 * seq)
    ++ leBytes 8 (off + 1099511627776 * hopsE + 4503599627370496 * hopsW)

/-! ### Frames onto a port (R359, R365, R366) -/

/-- A frame waits at an output port: among the node's own, or among those passing through. -/
def State.enqueue (s : State) (p : Nat) (own : Bool) (f : Frame) : State :=
  let x := s.port p
  if own then s.setPort p { x with own := x.own ++ [f] } else s.setPort p { x with through := x.through ++ [f] }

/-- A frame that is not turned at a break: an announcement, or a command to every node (R365). -/
def Frame.droppedAtBreak (f : Frame) : Bool := f.ftype == 2 || (f.ftype == 0 && f.dest == 0xFFF)

/-! ### Items to the host (R384, R386) -/

def State.bar (s : State) (off d : Nat) : Nat := (Sparse.get (BitVec.ofNat 32 d) s.prt.bar0 off).toNat
def State.setBar (s : State) (off d v : Nat) : State :=
  { s with prt := { s.prt with bar0 := Sparse.set (BitVec.ofNat 32 d) s.prt.bar0 off (BitVec.ofNat 32 v) } }

/-- The registers of a delivery ring (Table 11-18). -/
def barEntSize (r : Nat) : Nat := 0x118 + 64 * r
def barDataSize (r : Nat) : Nat := 0x11C + 64 * r
def barCons (r : Nat) : Nat := 0x120 + 64 * r
def barProd (r : Nat) : Nat := 0x124 + 64 * r
def barMod (r : Nat) : Nat := 0x128 + 64 * r
def barCtrl (r : Nat) : Nat := 0x12C + 64 * r

def State.ringEnabled (s : State) (r : Nat) : Bool := bitOf (s.bar (barCtrl r) 0) 0
def State.ringRt (s : State) (r : Nat) : RingRuntime := Sparse.get {} s.prt.rings r
def State.setRing (s : State) (r : Nat) (x : RingRuntime) : State := { s with prt := { s.prt with rings := Sparse.set {} s.prt.rings r x } }

/-- A bit of PRT_STATUS is set: with the PCI Express link up, vector 9 is signalled (Table 11-20). -/
def State.signal (s : State) (v : Nat) : State := if s.prt.linkUp then { s with prt := { s.prt with signals := v :: s.prt.signals } } else s
def State.prtStatus (s : State) (i : Nat) : State := (s.setBit P.PRT_STATUS i).signal 9

/-- The portal can deliver to the ring PRT_KIND_RING names at an index (R386). -/
def State.deliverable (s : State) (idx : Nat) : Bool := s.prt.linkUp && s.ringEnabled (s.rdN (P.PRT_KIND_RING idx))

/-- An item is discarded because the link is down or its ring disabled (R386). -/
def State.undelivered (s : State) : State := (s.addSat P.PRT_UNDELIVERED 1).prtStatus 2

/-- The index of PRT_KIND_RING for an item: its kind, 8 for SHEAF, 9 for RETURNED (R390). -/
def Delivery.ringIndex (d : Delivery) : Nat := if d.type = 1 then 8 else if d.type = 2 then 9 else d.kind

/-- An item released for delivery joins the queue of its ring, or is discarded (R386). -/
def State.offer (s : State) (d : Delivery) : State :=
  if s.deliverable d.ringIndex then
    let r := s.rdN (P.PRT_KIND_RING d.ringIndex)
    s.setRing r { s.ringRt r with queue := (s.ringRt r).queue ++ [{ d with ring := r }] }
  else s.undelivered

/-! ### Own-output items (R395) -/

/-- A record of a kind was stored before the boundary of part 1 of a die's resynchronisation (R413). -/
def State.storedBefore (s : State) (d kind seq : Nat) : Bool :=
  decide (2147483648 ≤ (seq + 4294967296 - (s.die d).syncSeq.getD kind 0) % 4294967296)

/-- The comparator leaves an item of a record unchecked (R414): a die is SYNCING, and the record is an EVT fragment whose window begins before that die's
ring restart, or one sent again that the copy of R413 has not reached (log 56). -/
def State.uncheckedRecord (s : State) (kind seq time : Nat) (refetch : Bool) : Bool := [0, 1].any (fun d =>
  s.dieState d == dieSyncing && (match (s.die d).syncFrom with
    | some a => (kind == 0 && decide (time < a)) || (refetch && !(s.die d).syncStore && s.storedBefore d kind seq)
    | none => true))


/-- A copy of an item leaves a die for the link die, with the injections in place on it: a silent die sends nothing (Table 12-8). -/
def State.dieSends (s : State) (d : Nat) (x : HeldItem) : State :=
  let inj := fun (k : Nat) => s.red.injections.find? (fun i => i.kind == k && i.die == d && decide (k ≠ 2 || s.time < i.until_))
  let kind := match x.item with
    | .digest .. => 1
    | _ => 0
  if !s.inService d || (inj 2).isSome then s
  else
    let incomplete := (s.die d).missing.any (fun m => m.1 == x.slot)
    match inj kind with
    | some i =>
      let s := { s with red := { s.red with injections := s.red.injections.filter (fun j => !(j.kind == kind && j.die == d)) } }
      let s := s.setDie d { s.die d with evidence := if i.evidence then 3 else (s.die d).evidence }
      s.setDie d { s.die d with out := (s.die d).out ++ [{ x with incomplete, flaw := 1 }] }
    | none => s.setDie d { s.die d with out := (s.die d).out ++ [{ x with incomplete }] }

/-- Both dies send their copies of an item of the current slot; `flaws` says how each differs from the fault-free item. -/
def State.emit (s : State) (item : OutItem) (flaws : Two Nat := ⟨0, 0⟩) (unchecked : Bool := false) : State :=
  let x : HeldItem := { slot := s.red.slot, order := s.red.order, item, unchecked }
  let s := { s with red := { s.red with order := s.red.order + 1 } }
  (s.dieSends 0 { x with flaw := flaws.a }).dieSends 1 { x with flaw := flaws.b }

/-- A portal decides an item: both dies send the decision to the link die (R377, R395). -/
def State.decide_ (s : State) (d : Delivery) (flaws : Two Nat := ⟨0, 0⟩) : State := s.emit (.deliver d) flaws

/-- A COMMAND frame at a ring end for another node, or turned: delivered to the portal's host as RETURNED (R359) (log 102). -/
def State.returned (s : State) (origin dest : Nat) (payload : List Byte) : State :=
  let s := (s.addSat P.PRT_RETURNED 1).prtStatus 6
  if s.deliverable 9 then s.decide_ { type := 2, ring := 0, bytes := payload, node := dest, id := origin } else s.undelivered

/-- A frame the node would send on a port: on it, or turned onto the other while the port's headland turn is in force; a turned frame that meets
a second break is discarded, and with both ports broken the frame waits (R365, R366, R387).  A portal's other port is its ring end, where a turned
COMMAND is delivered as RETURNED (Table 11-10; log 102). -/
def State.sendOn (s : State) (p : Nat) (own : Bool) (f : Frame) : State :=
  if !(s.port p).turning then s.enqueue p own f
  else if f.droppedAtBreak then s
  else if f.turned then (s.addSat P.CLP_TURN_DROP 1).setBit P.CLP_STATUS 4
  else if s.prt.portal && f.ftype == 0 then s.returned f.origin f.dest f.payload
  else if (s.port (1 - p)).turning || !s.isRingPort (1 - p) then s.enqueue p own f
  else (s.enqueue (1 - p) false { f with turned := true }).addSat (P.CLP_TURNED p) 1

/-- An item leaves the claim gate: onto its ring port, or to the host; a digest goes no further (R19, R395). -/
def State.release (s : State) : OutItem → State
  | .frame p f => s.sendOn p true f
  | .deliver d => s.offer d
  | .digest .. => s

/-- An announcement or other own frame of the node on a port; a portal sends none beyond its ring end (R359). -/
def State.emitFrame (s : State) (p : Nat) (f : Frame) : State := if s.isRingPort p then s.emit (.frame p f) else s

end Sys2Proof.Machine
end

