-- ==== Sys2Proof/Machine/Sram.lean ====
section
/-! DEFINITION. The ports of the on-chip SRAM and its masters (R288 to R292), the management processor's address map (R465), partial writes and atomic
operations (R294, R295), and what an uncorrectable read does to its master (R296, Table 9-7). -/

namespace Sys2Proof.Machine

/-! ### The management processor's address map (R465, Table 15-1) -/

/-- A region of the map, with whether it may be executed, read and written. -/
structure MapRegion where
  base : Nat
  last : Nat
  execute : Bool
  read : Bool
  write : Bool
  deriving DecidableEq, Repr

/-- Table 15-1; of the SRAM, banks 8 to 23 hold code, which is read-only after load (Table 9-5).  Where the table names reads and writes alone, a fetch
finds no right (log 110). -/
def addressMap : List MapRegion :=
  [⟨0x00000000, 0x0000FFFF, true, true, false⟩, ⟨0x10000000, 0x103FFFFF, true, true, true⟩, ⟨0x10400000, 0x10BFFFFF, true, true, false⟩,
   ⟨0x10C00000, 0x11FFFFFF, true, true, true⟩, ⟨0x20000000, 0x2000FFFF, false, true, true⟩, ⟨0x20010000, 0x2001FFFF, false, true, true⟩,
   ⟨0x20020000, 0x2002FFFF, false, true, true⟩, ⟨0x20030000, 0x2003FFFF, false, true, false⟩, ⟨0x20040000, 0x2004FFFF, false, true, true⟩,
   ⟨0x20050000, 0x2005FFFF, false, true, true⟩, ⟨0x20060000, 0x2006FFFF, false, true, true⟩, ⟨0x100000000, 0x48CBFFFFF, false, true, true⟩]

/-- A region gives the right an access asks for. -/
def MapRegion.gives (r : MapRegion) : SramKind → Bool
  | .read => r.read
  | .fetch => r.execute
  | .write => r.write
  | .add => r.read && r.write
  | .swap => r.read && r.write

/-- An access of the processor at an address finds a region that gives it its right; else it raises an access-fault trap (R465). -/
def mapped (a : Nat) (k : SramKind) : Bool := addressMap.any (fun r => decide (r.base ≤ a) && decide (a ≤ r.last) && r.gives k)

def trapOf : SramKind → Trap
  | .fetch => .fetch
  | .read => .load
  | _ => .store

/-- A trap is taken in a die, and counted there (R483, class 0xA); firmware runs in machine mode only, so the trap leaves the mode as it is (R465). -/
def State.trap (s : State) (d : Nat) (k : Trap) (a : Nat) : State := (s.countIn d 10 1 1).setMemDie d { s.memDie d with traps := (k, a) :: (s.memDie d).traps }

/-! ### Accesses -/

def isProcessor (m : Nat) : Bool := m == 6 || m == 7

end Sys2Proof.Machine

namespace Sys2Proof
open Sys2Proof.Machine

/-- The address, aligned to the size; the SRAM word it lies in, and the Granary byte, when it lies there. -/
def SramAccess.at_ (a : SramAccess) : Nat := a.address.toNat / 2 ^ a.size.val * 2 ^ a.size.val
def SramAccess.word? (a : SramAccess) : Option Nat :=
  if isProcessor a.master then (if 0x10000000 ≤ a.at_ && a.at_ ≤ 0x11FFFFFF then some ((a.at_ - 0x10000000) / 8) else none)
  else some (a.at_ % 33554432 / 8)
def SramAccess.gran? (a : SramAccess) : Option Nat :=
  if isProcessor a.master && 0x100000000 ≤ a.at_ && a.at_ ≤ 0x48CBFFFFF then some (a.at_ - 0x100000000) else none

def SramAccess.writes (a : SramAccess) : Bool := a.kind == .write || a.kind == .add || a.kind == .swap
def SramAccess.atomic (a : SramAccess) : Bool := a.kind == .add || a.kind == .swap

/-- The width of an access in bits; an atomic operation works on 32 or 64 bits (R292). -/
def SramAccess.width (a : SramAccess) : Nat := if a.atomic && a.size.val < 2 then 32 else 8 * 2 ^ a.size.val
/-- The place of an access's lowest bit in its word. -/
def SramAccess.shift (a : SramAccess) : Nat := 8 * (a.at_ % 8) / a.width * a.width

/-- The bits of an access in a word, and a word with them replaced. -/
def SramAccess.part (a : SramAccess) (v : W64) : W64 := BitVec.ofNat 64 (v.toNat / 2 ^ a.shift % 2 ^ a.width)
def SramAccess.merge (a : SramAccess) (old new : W64) : W64 :=
  BitVec.ofNat 64 (old.toNat - (a.part old).toNat * 2 ^ a.shift + new.toNat % 2 ^ a.width * 2 ^ a.shift)

/-- What an access puts in the place of the value it finds: ADD wraps modulo the word size (R292). -/
def SramAccess.result (a : SramAccess) (old : W64) : W64 := match a.kind with
  | .add => old + a.data.getD 0 0
  | _ => a.data.getD 0 0

/-- The cycles an access holds its port (R288, R292, R294): one for each word, two for an atomic operation or a partial write. -/
def SramAccess.cycles (a : SramAccess) : Nat :=
  if a.atomic || (a.kind == .write && a.size.val < 3) then 2 else 1 + (if a.size.val = 3 then a.burst.val else 0)

/-- The words of a burst. -/
def SramAccess.words (a : SramAccess) (w : Nat) : List Nat := (List.range (if a.atomic || a.size.val < 3 then 1 else a.burst.val + 1)).map (fun i => (w + i) % 4194304)

end Sys2Proof

namespace Sys2Proof.Machine

/-! ### What an uncorrectable read does to its master (R296, Table 9-7) -/

/-- The firmware reloads a 4 KiB page of a code bank from the image in flash (R302, Table 9-7). -/
def isCode (w : Nat) : Bool := decide (524288 ≤ w) && decide (w < 1572864)
def State.reloadPage (s : State) (d w : Nat) : State :=
  if isCode w then
    let p := w / 512 * 512
    s.setMemDie d { s.memDie d with words := without (s.memDie d).words p 512, sramDiff := without (s.memDie d).sramDiff p 512 }
  else s

/-- Words of the working buffers of the record builders and coders (Table 9-5). -/
def isWorking (w : Nat) : Bool := decide (3670016 ≤ w)

def State.readFailed (s : State) (d : Nat) (a : SramAccess) (w : Nat) : State :=
  let x := s.memDie d
  if a.kind = .fetch then (s.trap d .fetch a.at_).reloadPage d w
  else if isProcessor a.master then s.trap d .load a.at_
  else if a.master = 5 then
    (s.setMemDie d { x with halted := Sparse.put x.halted a.channel.val (8 * w) }).addSat (P.RED_DMA_HALT d) 1
  else if (a.master = 2 || a.master = 3) && isWorking w then s.setMemDie d { x with workBad := x.workBad ++ [a.master.val] }
  else s

/-- One die reads a word for a master. -/
def State.readFor (s : State) (d : Nat) (a : SramAccess) (w : Nat) : State :=
  let bad := decide (2 ≤ s.wordOut d w)
  let s := s.readWord d w a.master
  if bad then s.readFailed d a w else s

/-- What an access returns in a die: the bits read, none where a trap or a refusal returns nothing (R295, Table 9-7). -/
def State.returns (s : State) (d : Nat) (a : SramAccess) (w : Nat) : Option W64 :=
  if 2 ≤ s.wordOut d w && (isProcessor a.master || a.master = 5 || a.atomic) then none else some (a.part (s.sramWord d w))

def State.setReturned (s : State) (m : Nat) (x : Two (Option W64)) : State :=
  { s with mem := { s.mem with returned := Sparse.put s.mem.returned m x } }

/-! ### Performing an access -/

def State.accessRead (s : State) (a : SramAccess) (w : Nat) : State :=
  let got : Two (Option W64) := ⟨s.returns 0 a w, s.returns 1 a w⟩
  ((a.words w).foldl (fun s v => (s.readFor 0 a v).readFor 1 a v) s).setReturned a.master got

/-- Whole words are written (R294). -/
def State.accessWrite (s : State) (a : SramAccess) (w : Nat) : State :=
  ((a.words w).foldl (fun (r : State × List W64) v => (r.1.writeWords v 1 (leBytes 8 (r.2.headD 0).toNat), r.2.drop 1)) (s, a.data)).1

/-- A word of each die is stored: both hold the first alike, the second as far as it differs. -/
def State.storeWord (s : State) (w : Nat) (va vb : W64) : State :=
  let s := { s with mem := { s.mem with sram := writeBytes s.mem.sram (8 * w) (leBytes 8 va.toNat) } }.alikeWords w 1
  s.setMemDie 1 { s.memDie 1 with sramDiff := Sparse.set 0 (s.memDie 1).sramDiff w (va ^^^ vb) }

/-- A partial write or an atomic operation: each die reads, merges and writes, or refuses (R295).  An uncorrectable 64-bit atomic operation is refused
as a 32-bit one is (log 110). -/
def State.accessModify (s : State) (a : SramAccess) (w : Nat) : State :=
  let got : Two (Option W64) := ⟨s.returns 0 a w, s.returns 1 a w⟩
  let new := fun (d : Nat) =>
    if 2 ≤ s.wordOut d w then (s.sramStored d w ^^^ (if s.wordOut d w = outUncorrectable then (s.wordError d w).data else 0))
    else a.merge (s.sramWord d w) (a.result (a.part (s.sramWord d w)))
  let t := (s.partialWord 0 w a.master).partialWord 1 w a.master
  let t := t.storeWord w (new 0) (new 1)
  if a.atomic then t.setReturned a.master got else t

/-- An access is performed at its word. -/
def State.access (s : State) (a : SramAccess) (w : Nat) : State :=
  if !a.writes then s.accessRead a w
  else if a.atomic || a.size.val < 3 then s.accessModify a w
  else s.accessWrite a w

/-- The processor reads or writes the Granary plot space (Table 15-1). -/
def State.accessGran (s : State) (a : SramAccess) (g : Nat) : State :=
  let n := a.width / 8
  let bad := fun (d : Nat) => decide (2 ≤ s.lineOut d (g / 64))
  if a.writes then s.writePart g ((leBytes 8 (a.data.getD 0 0).toNat).take n) a.master
  else
    let got := fun (d : Nat) => if bad d then none else some (BitVec.ofNat 64 (leNat ((List.range n).map (fun i => s.granByte d (g + i)))))
    let t := (s.readLineBoth (g / 64) a.master).setReturned a.master ⟨got 0, got 1⟩
    let t := if bad 0 then t.trap 0 .load a.at_ else t
    if bad 1 then t.trap 1 .load a.at_ else t

/-! ### Arbitration (R289 to R291) -/

/-- A request has waited 64 cycles and goes ahead (R289); the Gleaner's never does. -/
def SramWait.aged (x : SramWait) (c : Nat) : Bool := decide (x.cycle + 64 ≤ c) && x.master != 9

/-- One request is served before another at a cycle: aged ones first, then by priority, which is the order of the IDs (Table 9-6). -/
def SramWait.before (c : Nat) (x y : SramWait) : Bool := if x.aged c = y.aged c then decide (x.master < y.master) else x.aged c

/-- The request a port serves at a cycle, among those that ask for it: of one master, the earliest. -/
def servedFirst (c : Nat) : List SramWait → Option SramWait
  | [] => none
  | x :: xs => match servedFirst c xs with
    | none => some x
    | some y => if SramWait.before c y x then some y else some x

def heldWord (w : Nat) : Nat := 128 + w
/-- The cycle at which a request can be served first. -/
def State.readyAt (s : State) (x : SramWait) : Nat := max x.cycle (max (s.portHold x.port).1 (s.portHold (heldWord x.word)).1)

/-- The request a port serves at a cycle. -/
def State.portWinner (s : State) (port c : Nat) : Option SramWait :=
  servedFirst c (s.mem.test.waiting.filter (fun x => x.port == port && decide (s.readyAt x ≤ c) && !s.blocked x.word))

/-- The request reads and writes its word, and no other access comes between (R292, R294). -/
def SramWait.modifies (x : SramWait) : Bool := match x.work with
  | .access a => a.atomic || (a.writes && decide (a.size.val < 3))
  | _ => false
def SramWait.writes (x : SramWait) : Bool := match x.work with
  | .access a => a.writes
  | _ => false
def SramWait.cycles (x : SramWait) : Nat := match x.work with
  | .access a => a.cycles
  | _ => 1

/-- The requests the two ports of a bank serve at a cycle, in the order in which they take effect (R291): on one word a read comes before a write, port A's
write before port B's, and beside an atomic operation or a partial write the other access waits, port B's where both are such (log 109). -/
def State.servedAt (s : State) (bank c : Nat) : List SramWait := match s.portWinner (2 * bank) c, s.portWinner (2 * bank + 1) c with
  | some x, some y =>
    if x.word ≠ y.word then [x, y]
    else if x.modifies then [x]
    else if y.modifies then [y]
    else if x.writes && !y.writes then [y, x]
    else [x, y]
  | x, y => x.toList ++ y.toList

/-- The cycles a request has waited through conflicts, counted for its master in both dies (R290, Table 9-14). -/
def State.countWait (s : State) (x : SramWait) : State :=
  (s.addWrap (P.RED_SRM_CONFLICT x.master) x.conflict).addWrap (P.RED_SRM_CONFLICT (10 + x.master)) x.conflict

/-- Requests wait from one cycle to another while a master holds a port. -/
def SramWait.waitsFor (x : SramWait) (port master c e : Nat) : SramWait :=
  if x.port = port && x.master != master then { x with conflict := x.conflict + (e - max c x.cycle) } else x

/-- A request is served at a cycle: its wait is counted, its port is held, and `run` does what it asks for. -/
def State.serveOne (run : State → SramWait → State) (c : Nat) (s : State) (x : SramWait) : State :=
  let e := c + x.cycles
  let waiting := (s.mem.test.waiting.erase x).map (fun y => y.waitsFor x.port x.master c e)
  let s := s.setTest { s.mem.test with waiting }
  let held := Sparse.put s.mem.portFree x.port (e, x.master)
  let held := if x.modifies then Sparse.put held (heldWord x.word) (e, x.master) else held
  run ({ s with mem := { s.mem with portFree := held } }.countWait x) x

/-- The background test has held the bank of a region until a cycle (R304): the requests for it have waited since they were made. -/
def State.heldByTest (s : State) (region c : Nat) : State :=
  let port := 2 * (region / 8)
  let waiting := s.mem.test.waiting.map (fun x => x.waitsFor port 8 (s.portHold port).1 c)
  { s with mem := { s.mem with test := { s.mem.test with waiting }, portFree := Sparse.put s.mem.portFree port (c, 8) } }

/-- The requests that can be served before a cycle are served, cycle by cycle (R289). -/
def serveUntil (run : State → SramWait → State) (limit : Nat) : Nat → State → State
  | 0, s => s
  | k + 1, s =>
    let open_ := s.mem.test.waiting.filter (fun x => !s.blocked x.word)
    match (open_.map s.readyAt).min? with
    | none => s
    | some c =>
      if limit ≤ c then s
      else match open_.find? (fun x => s.readyAt x == c) with
        | none => s
        | some x => serveUntil run limit k ((s.servedAt (x.word / 65536) c).foldl (State.serveOne run c) s)

end Sys2Proof.Machine
end

