-- ==== Sys2Proof/Machine/Portal.lean ====
section
/-! DEFINITION. Portal reception (R377 to R380, R386, R406): the duplicate window, the merge tags, and what a portal decides of a record. -/

namespace Sys2Proof.Machine

/-! ### The duplicate window (R406, Table 12-6) -/

def State.window? (s : State) (node kind : Nat) : Option DupWindow :=
  s.prt.windows.find? (fun w => w.node == node && w.kind == kind)
def State.setWindow (s : State) (w : DupWindow) : State :=
  { s with prt := { s.prt with windows := w :: s.prt.windows.filter (fun v => !(v.node == w.node && v.kind == w.kind)) } }

/-- SEQ lies after H (R406). -/
def seqAfter (seq high : Nat) : Bool :=
  let d := (seq + 4294967296 - high) % 4294967296
  decide (1 ≤ d) && decide (d ≤ 2147483647)

/-- The window with a number marked: H advances when the number lies after it; a number before H − 1,023 leaves the map. -/
def DupWindow.mark (w : DupWindow) (seq : Nat) : DupWindow :=
  if seqAfter seq w.high then
    let d := (seq + 4294967296 - w.high) % 4294967296
    { w with high := seq, map := if d < 1024 then (w.map * 2 ^ d + 1) % 2 ^ 1024 else 1 }
  else
    let d := (w.high + 4294967296 - seq) % 4294967296
    if d < 1024 then { w with map := w.map ||| 2 ^ d } else w

/-- The number is in the map and marked. -/
def DupWindow.has (w : DupWindow) (seq : Nat) : Bool :=
  let d := (w.high + 4294967296 - seq) % 4294967296
  decide (d < 1024) && bitOf w.map d

/-- The judgement of a record whose CRC holds: whether it is a duplicate, and the windows after it. -/
def State.judgeDuplicate (s : State) (node kind run seq : Nat) (refetch : Bool) : Bool × State :=
  match s.window? node kind with
  | none => (false, s.setWindow { node, kind, run, high := seq, map := 1 })
  | some w =>
    if w.run = run then
      if w.has seq && !refetch then (true, s) else (false, s.setWindow (w.mark seq))
    else
      let d := (run + 256 - w.run) % 256
      if d ≤ 127 then (false, s.setWindow { node, kind, run, high := seq, map := 1 }) else (false, s)

/-! ### Merge tags (R378 to R380) -/

/-- The SRAM words a merge tag occupies: tag i in bytes 12i to 12i + 11 of banks 0–2 (Table 9-5). -/
def tagWords (i : Nat) : List Nat := spanOf 8 (12 * i) 12

/-- The active die's read of a tag is uncorrectable (Table 9-7). -/
def State.tagLost (s : State) (i : Nat) : Bool := (tagWords i).any (fun w => decide (2 ≤ s.wordOut s.active w))

/-- The 96 bits of a tag: the fields of R378 in its order, from bit 0 on (log 109). -/
def MergeTag.bits (t : MergeTag) : Nat :=
  t.id % 2 ^ 48 + 2 ^ 48 * (t.expect % 512) + 2 ^ 57 * (t.received % 512) + 2 ^ 66 * b2n t.closed + 2 ^ 67 * (t.latest % 2 ^ 29)

/-- The merge engine writes a tag: the whole word and the half word it occupies (R294). -/
def State.storeTag (s : State) (t : MergeTag) : State :=
  let a := 12 * t.slot
  let part := fun (off size : Nat) (h : size < 4) (s : State) =>
    s.access { master := 0, address := BitVec.ofNat 64 (a + off), kind := .write, size := ⟨size, h⟩, data := [BitVec.ofNat 64 (t.bits / 2 ^ (8 * off))] } ((a + off) / 8)
  if t.slot % 2 = 0 then part 8 2 (by decide) (part 0 3 (by decide) s) else part 4 3 (by decide) (part 0 2 (by decide) s)

/-- A tag changes; one that is lost is not written again. -/
def State.setTag (s : State) (t : MergeTag) (lost : Bool := false) : State :=
  let s := { s with prt := { s.prt with tags := s.prt.tags.map (fun u => if u.slot == t.slot then t else u) } }
  if lost then s else s.storeTag t

/-- The merge engine reads a tag. -/
def State.readTag (s : State) (t : MergeTag) : State := (tagWords t.slot).foldl (fun s w => s.readWordBoth w 0) s

/-- A sheaf closes for a reason (R379): the tag is kept CLOSED and a SHEAF entry follows. -/
def State.closeTag (s : State) (t : MergeTag) (reason : Nat) : State :=
  let s := s.setTag { t with closed := true, at_ := s.time } (reason == 2)
  let s := s.addWrap (P.PRT_SHEAVES reason) 1
  let s := if reason = 2 then s.prtStatus 5 else s
  if s.deliverable 8 then
    s.decide_ { type := 1, ring := 0, bytes := [], kind := reason, seq := 512 * t.expect + t.received, id := t.id }
  else s.undelivered

/-- A fragment is to be merged: its RADIUS is 1 or more, or its ID begins with 0xFFF (R378). -/
def mergeable (id radius : Nat) : Bool := decide (1 ≤ radius) || bits id 47 36 == 0xFFF

/-- EXPECT as the fragment of DISTANCE 0 sets it (R378). -/
def expectOf (old id distance radius hopsW hopsE : Nat) : Nat :=
  if distance = 0 && bits id 47 36 ≠ 0xFFF then 1 + min radius hopsW + min radius hopsE else old

/-- The lowest free tag slot. -/
def State.freeTag (s : State) : Option Nat :=
  if s.prt.tags.length < 131072 then (List.range (s.prt.tags.length + 1)).find? (fun i => s.prt.tags.all (fun t => t.slot != i)) else none

/-- An EVT fragment meets the merge tags (R378 to R380); the fragment's own entry goes first, then the SHEAF entry of a sheaf it completes. -/
def State.mergeFragment (s : State) (d : Delivery) (distance radius hopsW hopsE : Nat) (flaws : Two Nat) : State :=
  match s.prt.tags.find? (fun t => t.id == d.id) with
  | some t =>
    let lost := s.tagLost t.slot && !t.closed
    let s := s.readTag t
    if lost then
      let s := s.closeTag t 2
      ((s.addSat P.PRT_STRAGGLERS 1).prtStatus 3).decide_ { d with straggler := true } flaws
    else if t.closed then ((s.addSat P.PRT_STRAGGLERS 1).prtStatus 3).decide_ { d with straggler := true } flaws
    else
      let t := { t with received := (t.received + 1) % 512, expect := expectOf t.expect d.id distance radius hopsW hopsE }
      let s := (s.setTag t).decide_ { d with sheaf := some (distance, radius, hopsW, hopsE) } flaws
      if t.expect ≠ 0 && t.received = t.expect then s.closeTag t 0 else s
  | none => match s.freeTag with
    | none => ((s.addSat P.PRT_NOTAG 1).prtStatus 4).decide_ { d with noTag := true } flaws
    | some i =>
      let expect := expectOf 0 d.id distance radius hopsW hopsE
      let t : MergeTag := { slot := i, id := d.id, expect, received := 1, closed := false, latest := 0xFFFFFFFF, at_ := s.time }
      let s := { s with prt := { s.prt with tags := s.prt.tags ++ [t] } }.storeTag t
      let s := s.decide_ { d with sheaf := some (distance, radius, hopsW, hopsE) } flaws
      if t.expect = 1 then s.closeTag t 0 else s

/-! ### A record at the portal (R377, R386) -/

/-- 64-bit word i of a byte string. -/
def word64 (bs : List Byte) (i : Nat) : Nat := leNat ((bs.drop (8 * i)).take 8)

/-- The CRC-32C trailer of a record holds (R241). -/
def recordCrcGood (bs : List Byte) : Bool := crc32c (bs.take (bs.length - 4)) == BitVec.ofNat 32 (leNat (bs.drop (bs.length - 4)))

/-- A record that reached the portal, whole: discarded while it cannot be delivered, delivered with CRC_BAD, discarded as a duplicate, merged
into a sheaf, or delivered. -/
def State.portalRecord (s : State) (d : Delivery) (hopsW hopsE : Nat) (flaws : Two Nat := ⟨0, 0⟩) : State :=
  if !s.deliverable d.kind then s.undelivered
  else if !recordCrcGood d.bytes then ((s.addSat P.PRT_CRC_BAD 1).prtStatus 1).decide_ { d with crcBad := true } flaws
  else
    let (dup, s) := if d.own.isSome then (false, s) else s.judgeDuplicate d.node d.kind d.run d.seq d.refetch
    if dup then (s.addSat P.RED_DUP_DISCARD 1).setBit P.RED_STATUS 9
    else if d.kind = 0 then
      let first := 4 + 4 * bits (word64 d.bytes 0) 2 0
      let id := bits (word64 d.bytes first) 47 0
      let e3 := word64 d.bytes (first + 3)
      let radius := bits e3 39 32
      let d := { d with id }
      if mergeable id radius then s.mergeFragment d (bits e3 47 40) radius hopsW hopsE flaws else s.decide_ d flaws
    else s.decide_ d flaws

/-- A LOSS entry names a record the portal cannot deliver whole (R377, R384). -/
def State.lossEntry (s : State) (node kind run seq : Nat) : State :=
  if s.deliverable kind then s.decide_ { type := 4, ring := 0, bytes := [], kind, node, run, seq } else s.undelivered

/-- The assembly buffer's fill sets every XOFF bit above 87.5 % of 4 MiB and clears them at 75 % (R377). -/
def State.updateAssembly (s : State) : State :=
  let n := (s.prt.assembly.map (fun a => a.bytes.length)).sum
  let full := if 3670016 < n then true else if n ≤ 3145728 then false else s.prt.asmFull
  { s with prt := { s.prt with asmFull := full } }

/-- A RECORD frame reaches the portal: its segment joins the record's assembly, and the last one completes it (R353, R377). -/
def State.assemble (s : State) (origin : Nat) (turned : Bool) (prio : Nat) (payload : List Byte) : State :=
  let s0 := word64 payload 0
  let s1 := word64 payload 1
  let seq := bits s0 63 32
  let kind := bits s0 31 28
  let run := bits s0 27 20
  let damaged := bitOf s0 18
  let refetch := bitOf s0 17
  let hopsW := bits s1 63 52
  let hopsE := bits s1 51 40
  let off := bits s1 31 0
  let data := payload.drop 16
  let same := fun (a : Assembly) => a.node == origin && a.kind == kind && a.run == run && a.seq == seq && a.refetch == refetch
  let old := s.prt.assembly.find? same
  let rest := s.prt.assembly.filter (fun a => !same a)
  let cur : Option Assembly :=
    if off = 0 then some { node := origin, kind, run, seq, bytes := data, lastAt := s.time, turned, damaged, refetch, prio, hopsW, hopsE }
    else match old with
      | some a =>
        if a.bytes.length = off then
          some { a with bytes := a.bytes ++ data, lastAt := s.time, turned := a.turned || turned, damaged := a.damaged || damaged }
        else none
      | none => none
  match cur with
  | none => s
  | some a =>
    if bitOf s0 19 then
      let s := ({ s with prt := { s.prt with assembly := rest } }).updateAssembly
      let d : Delivery :=
        { type := 0, ring := 0, bytes := a.bytes, damaged := a.damaged, refetch, turned := a.turned, kind, node := origin, seq, run }
      s.portalRecord d a.hopsW a.hopsE
    else ({ s with prt := { s.prt with assembly := rest ++ [a] } }).updateAssembly

end Sys2Proof.Machine
end

