-- ==== Sys2Proof/Machine/Clp.lean ====
section
/-! DEFINITION. Meanings of the ring-protocol and dispatch events (chapter 11): frames, acknowledgements, headland turns, positions, the
dispatch queue. -/

namespace Sys2Proof.Machine

/-! ### XOFF and ACK (R356, R362, R377, R386) -/

/-- Bytes a frame takes in a buffer: its payload with SOF and EOF. -/
def Frame.size (f : Frame) : Nat := 8 * ceilDiv f.payload.length 8 + 16

/-- The fill of a port's forwarding buffer: the frames accepted on it that wait for the other port. -/
def State.forwardFill (s : State) (p : Nat) : Nat := (((s.port (1 - p)).through).map Frame.size).sum

/-- The fill at which XOFF of a priority is set: 50 %, 62.5 %, 75 % and 87.5 % of 1 MiB for 3, 2, 1 and 0 (R362). -/
def xoffLevel (prio : Nat) : Nat := 131072 * (7 - prio)

/-- XOFF bits of the forwarding buffer from its fill: set above a level, cleared 1/8 of the buffer below it (R362). -/
def xoffBits (old fill : Nat) : Nat :=
  ((List.range 4).map (fun p =>
    if xoffLevel p < fill then 2 ^ p else if fill ≤ xoffLevel p - 131072 then 0 else if bitOf old p then 2 ^ p else 0)).sum

/-- XOFF bits of a portal: every bit while the assembly buffer is full, and the priorities whose kinds map to a ring without room
(R377, R386). -/
def State.portalXoff (s : State) : Nat :=
  if s.prt.asmFull then 15
  else ((List.range 4).map (fun p =>
    if (List.range 8).any (fun k => prioOf k == p && (s.ringRt (s.rdN (P.PRT_KIND_RING k))).full) then 2 ^ p else 0)).sum

/-- The XOFF bits a port sends. -/
def State.xoffOf (s : State) (p : Nat) : Nat := if s.prt.portal then s.portalXoff ||| (s.port p).xoffOut else (s.port p).xoffOut

/-- An ACK block is sent on a port (R356). -/
def State.sendAck (s : State) (p : Nat) (nak : Bool) : State :=
  let x := s.port p
  let seq := (x.rxExpect + 65535) % 65536
  let xoff := s.xoffOf p
  (s.setPort p { x with ackSeq := seq, ackNak := nak, ackXoff := xoff, ackAt := s.time }).queueBlocks (lnkOf p) true [ackBlock seq nak xoff]

/-- The fill of a forwarding buffer has changed: XOFF follows, and a change is acknowledged at once (R356, R362). -/
def State.updateXoff (s : State) (p : Nat) : State :=
  let s := s.setPort p { s.port p with xoffOut := xoffBits (s.port p).xoffOut (s.forwardFill p) }
  if s.xoffOf p = (s.port p).ackXoff then s else s.sendAck p false

/-- What holds XOFF at a portal may have changed: its ring port follows (R377, R386). -/
def State.portalXoffMoves (s : State) : State := if s.prt.portal && s.portActive s.ringLink then s.updateXoff s.ringLink else s

/-- XOFF_ACK_REPEAT (R356): every 1 µs while any XOFF bit is 1. -/
def xoffAckRepeat (p : Nat) (s : State) : State :=
  if s.xoffOf p ≠ 0 && decide ((s.port p).ackAt + usec 1 ≤ s.time) then s.sendAck p false else s
def execXoffAckRepeat (t : Nat) (port : Fin 2) (s : State) : Host.Outcome State Fault Refusal := .next (xoffAckRepeat port (s.at_ t))

/-! ### Sending (R355, R357, R361) -/

/-- The rank of a frame in the order of R361: ANNOUNCE, then COMMAND and priority 0, then priorities 1 to 3. -/
def Frame.rank (f : Frame) : Nat := if f.ftype = 2 then 0 else if f.ftype = 0 then 1 else f.prio + 1

/-- XOFF of the neighbour holds a frame back (R362). -/
def Frame.heldBy (f : Frame) (xoff : Nat) : Bool := f.ftype == 1 && bitOf xoff f.prio

/-- The first frame of a rank in a queue that XOFF does not hold. -/
def firstOf (xoff rank : Nat) (q : List Frame) : Option Frame := q.find? (fun f => f.rank == rank && !f.heldBy xoff)

/-- The queue without its first frame of a rank that XOFF does not hold. -/
def dropFirst (xoff rank : Nat) : List Frame → List Frame
  | [] => []
  | f :: fs => if f.rank == rank && !f.heldBy xoff then fs else f :: dropFirst xoff rank fs

/-- The frame a port sends next: the best rank first; within it the node's own and passing frames alternate (R361).  Answers the rank and
whether the frame is the node's own. -/
def ClpPort.choose (x : ClpPort) : Option (Nat × Bool) :=
  ([0, 1, 2, 3, 4].find? (fun r => (firstOf x.xoffIn r x.own).isSome || (firstOf x.xoffIn r x.through).isSome)).map (fun r =>
    (r, (firstOf x.xoffIn r x.own).isSome && ((firstOf x.xoffIn r x.through).isNone || !Sparse.get false x.lastOwn r)))

/-- The bytes a retransmit buffer holds. -/
def ClpPort.retransmitBytes (x : ClpPort) : Nat := (x.retransmit.map (fun f => f.frame.size)).sum

/-- FRAME_SEND (R355, R357, R361): an ACTIVE port starts its next frame when its retransmit buffer can take it. -/
def frameSend (p : Nat) (s : State) : State :=
  let x := s.port p
  if !s.portActive p || x.turning then s
  else match x.choose with
    | none => s
    | some (r, own) =>
      match firstOf x.xoffIn r (if own then x.own else x.through) with
      | none => s
      | some f =>
        if 2097152 < x.retransmitBytes + f.size then s
        else
          let x := if own then { x with own := dropFirst x.xoffIn r x.own } else { x with through := dropFirst x.xoffIn r x.through }
          let x := { x with lastOwn := Sparse.set false x.lastOwn r own, txNext := (x.txNext + 1) % 65536
                            retransmit := x.retransmit ++ [{ hseq := x.txNext, sentAt := s.time, frame := f }] }
          let s := ((s.setPort p x).addWrap (P.CLP_TX_FRAMES p) 1).queueBlocks (lnkOf p) false (frameBlocks ((x.txNext + 65535) % 65536) f false)
          (s.count 12 p).updateXoff (1 - p)
def execFrameSend (t : Nat) (port : Fin 2) (s : State) : Host.Outcome State Fault Refusal := .next (frameSend port (s.at_ t))

/-- Every frame of the retransmit buffer is sent again (R357). -/
def State.resend (s : State) (p : Nat) : State :=
  let x := s.port p
  if x.retransmit.isEmpty then s
  else
    let s := s.setPort p { x with retransmit := x.retransmit.map (fun f => { f with sentAt := s.time }) }
    let s := s.queueBlocks (lnkOf p) false (x.retransmit.flatMap (fun f => frameBlocks f.hseq f.frame false))
    (s.addSat (P.CLP_RETX p) x.retransmit.length).setBit P.CLP_STATUS 0

/-- The time allowed for an ACK: 2 µs + 2d, d being TB_HOP_DELAY of the port in ps, and 1 ms for 2d while no exchange has given it (R357). -/
def State.ackTime (s : State) (p : Nat) : Nat :=
  let d := s.rdN (P.TB_HOP_DELAY p)
  if d = 0 then usec 2 + msec 1 else usec 2 + 2 * d * 4096 / 1000

/-- RETRANSMIT_TIMEOUT (R357). -/
def retransmitTimeout (p : Nat) (s : State) : State :=
  match (s.port p).retransmit with
  | [] => s
  | f :: _ => if decide (f.sentAt + s.ackTime p ≤ s.time) && !(s.port p).turning then s.resend p else s
def execRetransmitTimeout (t : Nat) (port : Fin 2) (s : State) : Host.Outcome State Fault Refusal := .next (retransmitTimeout port (s.at_ t))

/-- An ACK of a sequence number covers a frame (R356). -/
def covers (ackSeq hseq : Nat) : Bool := decide ((ackSeq + 65536 - hseq) % 65536 < 32768)

/-- A frame acknowledged by the next hop: the record whose last segment it carries is acknowledged (R358). -/
def State.ackFrame (s : State) (f : SentFrame) : State := match f.frame.last with
  | some (id, kind, run, seq) => s.acknowledge id kind run seq
  | none => s

/-- The neighbour's XOFF bits are taken, and the time they are held is kept (R362). -/
def State.takeXoff (s : State) (p xoff : Nat) : State :=
  let x := s.port p
  let s := if xoff ≠ 0 then s.setBit P.CLP_STATUS 5 else s
  s.setPort p { x with xoffIn := xoff, xoffSince := s.time, xoffHeld := x.xoffHeld + (if x.xoffIn = 0 then 0 else s.time - x.xoffSince) }

/-- ACK_RECEIVE (R357, R358, R387): covered frames leave the retransmit buffer, NAK sends the rest again, XOFF is taken; ignored after the port
became broken. -/
def ackReceive (p : Nat) (ack : AckBlock) (s : State) : State :=
  let x := s.port p
  if x.turning || !s.portActive p then s
  else
    let n := ack.ackSeq.toNat
    let done := x.retransmit.filter (fun f => covers n f.hseq)
    let s := s.setPort p { x with retransmit := x.retransmit.filter (fun f => !covers n f.hseq) }
    let s := done.foldl State.ackFrame s
    let s := if ack.nak then s.resend p else s
    (s.takeXoff p ack.xoff.toNat).updateXoff (1 - p)
def execAckReceive (t : Nat) (port : Fin 2) (ack : AckBlock) (s : State) : Host.Outcome State Fault Refusal :=
  .next (ackReceive port ack (s.at_ t))

/-! ### Headland turns (R364 to R367) -/

/-- The node is itself the end of its segment in the direction of a port: CLP_POS_HOPS and CLP_POS_END read 0 and its own ID (R351). -/
def State.endHere (s : State) (p : Nat) : State :=
  ((s.setPort p { s.port p with pos := none }).wrN (P.CLP_POS_HOPS p) 0).wrN (P.CLP_POS_END p) (s.rdN P.SYS_NODE_ID)

/-- No end is known in the direction of a port (R351). -/
def State.endUnknown (s : State) (p : Nat) : State :=
  ((s.setPort p { s.port p with pos := none }).wrN (P.CLP_POS_HOPS p) 0xFFF).wrN (P.CLP_POS_END p) 0xFFF

/-- The frames that wait for a port in its headland turn go to the other port, turned (R365). -/
def State.turnWaiting (s : State) (p : Nat) : State :=
  let x := s.port p
  let s := s.setPort p { x with own := [], through := [] }
  let s := x.own.foldl (fun s f => s.sendOn p true f) s
  x.through.foldl (fun s f => s.sendOn p false f) s

/-- PORT_BROKEN (R364, R365): a ring port that is not ACTIVE begins its headland turn; its unacknowledged frames, oldest first, and those waiting
for it go to the other port, turned. -/
def portBroken (p : Nat) (s : State) : State :=
  let x := s.port p
  if s.portActive p || x.turning || !s.isRingPort p then s
  else
    let s := s.setPort p { x with turning := true, retransmit := [] }
    let s := (s.setBit P.CLP_STATUS 2).setBit P.CLP_STATUS 3
    let s := x.retransmit.foldl (fun s f => s.sendOn p true f.frame) s
    (s.turnWaiting p).endHere p
def execPortBroken (t : Nat) (port : Fin 2) (s : State) : Host.Outcome State Fault Refusal := .next (portBroken port (s.at_ t))

/-- A ring port has become ACTIVE: its turn ends, and frames that waited leave by their normal port (R367); those that wait for the other port, still
broken, are turned onto it (R365). -/
def State.endTurn (s : State) (p : Nat) : State :=
  let s := s.setPort p { s.port p with turning := false }
  let s := (s.putBit P.CLP_STATUS 2 ((s.port 0).turning || (s.port 1).turning)).endUnknown p
  if (s.port (1 - p)).turning then s.turnWaiting (1 - p) else s

/-! ### Positions (R351) -/

/-- POS_SEND (R351): what a port sends of the end in the other direction. -/
def posSend (p : Nat) (s : State) : State :=
  let x := s.port p
  let due := match x.posSent with
    | none => true
    | some q => decide (q.at_ + usec 8 ≤ s.time)
  if !s.portActive p || !s.isRingPort p || !due then s
  else
    let id := s.rdN P.SYS_NODE_ID
    let c : Option PosContent :=
      if s.prt.portal then some { endId := id, hops := 0, brk := false, at_ := s.time }
      else if !s.portActive (1 - p) then some { endId := id, hops := 0, brk := true, at_ := s.time }
      else (s.port (1 - p)).pos.map (fun q => { q with hops := q.hops + 1, at_ := s.time })
    match c with
    | some q => (s.setPort p { x with posSent := some q }).queueBlocks (lnkOf p) true [posBlock q.endId q.hops q.brk]
    | none => s
def execPosSend (t : Nat) (port : Fin 2) (s : State) : Host.Outcome State Fault Refusal := .next (posSend port (s.at_ t))

/-- POS_RECEIVE (R351): the hops and the ID of the end that lies in the direction of the port. -/
def posReceive (p endId hops : Nat) (brk : Bool) (s : State) : State :=
  let s := s.setPort p { s.port p with pos := some { endId, hops, brk, at_ := s.time } }
  let s := (s.wrN (P.CLP_POS_HOPS p) (hops + 1)).wrN (P.CLP_POS_END p) endId
  if brk then s.setBit P.CLP_STATUS 8 else s
def execPosReceive (t : Nat) (port : Fin 2) (endId hops : BitVec 12) (brk : Bool) (s : State) : Host.Outcome State Fault Refusal :=
  .next (posReceive port endId.toNat hops.toNat brk (s.at_ t))

/-- The node is itself the end in the direction of a port: a portal away from its ring link, or a break at the port (R351). -/
def State.isEnd (s : State) (p : Nat) : Bool := !s.isRingPort p || !s.portActive p

/-- POS_TIMEOUT (R351): no POS for 50 µs; the items read unknown, or 0 and the node's own ID when the node is that end. -/
def posTimeout (p : Nat) (s : State) : State :=
  let stale := match (s.port p).pos with
    | none => true
    | some q => decide (q.at_ + usec 50 ≤ s.time)
  if s.isEnd p then s.endHere p else if stale then s.endUnknown p else s
def execPosTimeout (t : Nat) (port : Fin 2) (s : State) : Host.Outcome State Fault Refusal := .next (posTimeout port (s.at_ t))

/-! ### The dispatch queue (R370 to R375) -/

/-- An ACQ.FETCH whose pushes have stalled ends with the last of them (R376; log 86). -/
def State.endFetch (s : State) : State := match s.clp.fetch with
  | some (h, data) =>
    if s.clp.stalled.any (·.refetch) then s else ({ s with clp := { s.clp with fetch := none } }).finish 0x24 h stOk data
  | none => s

/-- DISPATCH_PUSH (R372): a stalled push goes into the filling bank once it has room; the stall is counted in ns. -/
def dispatchPush (s : State) : State := match s.clp.stalled with
  | [] => s
  | d :: ds =>
    let s := { s with clp := s.clp.at_ s.cycle }
    if s.bankFull || s.cycle < s.clp.pushNext then s
    else
      let n := (s.time - s.clp.stalledSince) / 4096
      let s := s.addWrap P.CLP_DSP_STALL n
      let s := (s.countIn 0 5 0 n).countIn 1 5 0 n
      (({ s with clp := { s.clp with stalled := ds, stalledSince := s.time } }).pushInto d).endFetch
def execDispatchPush (t : Nat) (s : State) : Host.Outcome State Fault Refusal := .next (dispatchPush (s.at_ t))

/-- The descriptor a pop takes: the lowest priority number, and among equals the earliest pushed (R370). -/
def bestOf : List Descriptor → Option Descriptor
  | [] => none
  | d :: ds => match bestOf ds with
    | none => some d
    | some e => if e.prio < d.prio then some e else some d

/-- The bank without the first descriptor of a priority. -/
def dropPrio (prio : Nat) : List Descriptor → List Descriptor
  | [] => []
  | d :: ds => if d.prio == prio then ds else d :: dropPrio prio ds

/-- The bytes of a segment as each die reads them, and how each die's copy differs (R296, R297). -/
def segmentFlaw (bytesA bytesB : List Byte) (marks : Two Bool) : Two Nat :=
  let diff := b2n (bytesA != bytesB)
  if marks.a == marks.b then ⟨0, 4 * diff⟩ else ⟨2 * b2n marks.a, 2 * b2n marks.b + 4 * diff⟩

/-- A popped descriptor becomes a frame, or on a portal, with the record's last segment, a delivery (R353, R359); DAMAGED is what the index holds by
then (R287, R307). -/
def State.popItem (s : State) (d : Descriptor) : State :=
  let outA := s.spanOut 0 d.store d.addr d.len
  let outB := s.spanOut 1 d.store d.addr d.len
  let s := s.readSpan d.store d.addr d.len reqRecordReader
  let s := if 2 ≤ outA then s.markDamaged 0 d.store d.kind d.run d.seq else s
  let s := if 2 ≤ outB then s.markDamaged 1 d.store d.kind d.run d.seq else s
  let entry := (s.store d.store).entries.find? (fun e => e.kind == d.kind && e.run == d.run && e.seq == d.seq)
  let set : Two Bool := (entry.map (·.marks)).getD d.marks
  let marks : Two Bool := ⟨set.a || decide (2 ≤ outA), set.b || decide (2 ≤ outB)⟩
  let damaged := marks.get s.active
  let bytesA := s.spanBytes 0 d.store d.addr d.len
  let bytesB := s.spanBytes 1 d.store d.addr d.len
  let flaws := segmentFlaw bytesA bytesB marks
  let bytes := if s.active = 0 then bytesA else bytesB
  let unchecked := s.uncheckedRecord d.kind d.seq ((entry.map (·.time)).getD d.pushed) d.refetch
  let key := (d.store, d.kind, d.run, d.seq)
  let node := d.origin.getD (s.rdN P.SYS_NODE_ID)
  if s.prt.portal then
    if d.last then
      let base := d.addr - d.offset
      let whole := s.spanBytes s.active d.store base d.length
      let item : Delivery :=
        { type := 0, ring := 0, bytes := whole, damaged, refetch := d.refetch, kind := d.kind, node, seq := d.seq, run := d.run, own := some key }
      s.portalRecord item d.hopsW d.hopsE flaws
    else s
  else
    let payload := segHeader d.kind d.run d.seq d.last damaged d.refetch d.hopsW d.hopsE d.offset ++ bytes
    let f : Frame := { ftype := 1, origin := node, dest := 0, prio := d.prio, payload, last := if d.last then some key else none }
    s.emit (.frame d.dir f) flaws unchecked

/-- The other segments of a record whose first has been popped keep its ORIGIN (R387). -/
def ClpState.keepOrigin (x : ClpState) (d : Descriptor) (node : Nat) : ClpState :=
  let keep := fun (e : Descriptor) =>
    if e.kind == d.kind && e.run == d.run && e.seq == d.seq && e.refetch == d.refetch then { e with origin := some node } else e
  if d.first && !d.last then { x with drain := x.drain.map keep, fill := x.fill.map keep, stalled := x.stalled.map keep } else x

/-- DISPATCH_POP (R370, R371): in a cycle in which the draining bank is readable its best descriptor is taken; else the pop returns nothing. -/
def dispatchPop (s : State) : State :=
  let n := s.cycle
  let x := s.clp.at_ n
  if !s.running || n < x.popNext || n < x.readable then s
  else match bestOf x.drain with
    | none => { s with clp := x }
    | some d =>
      let x := x.keepOrigin d (s.rdN P.SYS_NODE_ID)
      ({ s with clp := { x with drain := dropPrio d.prio x.drain, popNext := n + 1, emptyFrom := n + 1 } }).popItem d
def execDispatchPop (t : Nat) (s : State) : Host.Outcome State Fault Refusal := .next (dispatchPop (s.at_ t))

/-- DISPATCH_DROP (R373): a push that has stalled for CLP_DSP_DROP_WAIT, of a priority number CLP_DSP_DROP_MIN or more: the record's
descriptors not yet pushed are discarded and a DROP gap entry names it (R231). -/
def dispatchDrop (s : State) : State := match s.clp.stalled with
  | [] => s
  | d :: _ =>
    let s := { s with clp := s.clp.at_ s.cycle }
    if decide (s.clp.stalledSince + usec (s.rdN P.CLP_DSP_DROP_WAIT) ≤ s.time) && decide (s.rdN P.CLP_DSP_DROP_MIN ≤ d.prio) && s.bankFull then
      let same := fun (e : Descriptor) => e.kind == d.kind && e.run == d.run && e.seq == d.seq && e.refetch == d.refetch
      let n := (s.clp.stalled.filter same).length
      let stall := (s.time - s.clp.stalledSince) / 4096
      let s := ((s.addWrap P.CLP_DSP_STALL stall).countIn 0 5 0 stall).countIn 1 5 0 stall
      let s := { s with clp := { s.clp with stalled := s.clp.stalled.filter (fun e => !same e), stalledSince := s.time } }
      let s := (s.addSat (P.CLP_DSP_DROPPED d.kind) n).setBit P.CLP_STATUS 7
      let time := match (s.store d.store).entries.find? (fun e => e.kind == d.kind && e.run == d.run && e.seq == d.seq) with
        | some e => e.time
        | none => s.now
      (s.addGap d.kind 1 d.seq time time).endFetch
    else s
def execDispatchDrop (t : Nat) (s : State) : Host.Outcome State Fault Refusal := .next (dispatchDrop (s.at_ t))

end Sys2Proof.Machine
end

