-- ==== Sys2Proof/Machine/AlmCore.lean ====
section
/-! DEFINITION. The alarm lines (R443 to R452): what the two paths know, the line state machine, alarm words, and the pins. -/

namespace Sys2Proof.Machine

/-! ### Die links (R15, R22) -/

/-- An item leaves a source (0 to 3 FE0 to FE3, 4 the link die) on its links to both dies. -/
def State.send (s : State) (src : Nat) (x : StreamItem) : State :=
  let put := fun (m : List (Nat × List StreamItem)) (k : Nat) => Sparse.set [] m k (Sparse.get [] m k ++ [x])
  { s with link := { s.link with sent := put (put s.link.sent src) (8 + src) } }

/-- An alarm event leaves a source: as an alarm flit, ahead of the stream, and in the stream for the records (R16, R450, R452). -/
def State.sendAlarm (s : State) (src : Nat) (e : AlarmEvent) : State :=
  let flits : Two (List (Nat × AlarmEvent)) := ⟨s.alm.flits.a ++ [(src, e)], s.alm.flits.b ++ [(src, e)]⟩
  ({ s with alm := { s.alm with flits } }).send src (.alarm e)

/-! ### Views and changes (R444, R451, R452) -/

/-- A change of a line's state (Table 14-1) as an ALM record names it. -/
structure AlarmChange where
  line : Nat
  change : Nat
  input : Option Nat
  origin : Nat
  instant : Nat
  deriving DecidableEq, Repr

def changeRaised : Nat := 0
def changeCleared : Nat := 1
def changeAcked : Nat := 2

def lineNumbers : List Nat := [0, 1, 2, 3, 4, 5, 6, 7]

/-- The mask of the lines that satisfy a test. -/
def maskOf (f : Nat → Bool) : Nat := (lineNumbers.map (fun l => if f l then 2 ^ l else 0)).sum

/-- The local part and the remote flag of a line (R444, R451). -/
def State.localPart (s : State) (v : AlarmView) (l : Nat) : Bool := v.sources.any (fun x => x.2 && s.rdN (P.ALM_SRC_LINE x.1) == l)
def State.remoteFlag (s : State) (v : AlarmView) (l : Nat) : Bool :=
  bitOf v.overflow l || v.remote.any (fun e => s.rdN (P.ALM_RMT_LINE e.line) == l)

/-- The view with its masks formed anew. -/
def State.remask (s : State) (v : AlarmView) : AlarmView :=
  { v with localMask := maskOf (s.localPart v), rawMask := maskOf (fun l => s.localPart v l || s.remoteFlag v l) }

/-- The line state machine: the next state of a line and the changes it makes, from its state, its raw state and ALM_LINE_LATCH (Table 14-1). -/
def lineNext (st : Nat) (raw latch : Bool) : Nat × List Nat :=
  match st with
  | 0 => if raw then (1, [changeRaised]) else (0, [])
  | 1 => if raw then (1, []) else if latch then (3, []) else (0, [changeCleared])
  | 2 => if raw then (2, []) else (0, [changeCleared])
  | _ => if raw then (1, [changeRaised]) else if latch then (3, []) else (0, [changeCleared])

/-- The state of a line after ALM.ACK names it. -/
def lineAck (st : Nat) : Nat × List Nat := match st with
  | 1 => (2, [changeAcked])
  | 3 => (0, [changeAcked, changeCleared])
  | st => (st, [])

/-- Every line takes its raw state; the changes carry what `tag` names for a line and a change. -/
def State.runLines (s : State) (v : AlarmView) (tag : Nat → Nat → AlarmChange) : AlarmView × List AlarmChange :=
  lineNumbers.foldl (fun (r : AlarmView × List AlarmChange) l =>
    let (st, cs) := lineNext (Sparse.get 0 r.1.lines l) (bitOf r.1.rawMask l) (s.rdN (P.ALM_LINE_LATCH l) == 1)
    ({ r.1 with lines := Sparse.set 0 r.1.lines l st }, r.2 ++ cs.map (fun c => { tag l c with line := l, change := c }))) (v, [])

/-- The instant of an alarm event, in ns. -/
def AlarmEvent.instant : AlarmEvent → Nat
  | .source _ _ t => t
  | .word _ t => t
  | .expiry _ _ t => t
  | .ack _ t => t
  | .commit t => t

/-- What an alarm event does to a view's tables (R443, R451): an entry refreshed in the meantime does not expire (Table 14-8). -/
def State.updateView (s : State) (v : AlarmView) : AlarmEvent → AlarmView
  | .source n active _ => { v with sources := Sparse.set false v.sources n active }
  | .word w t =>
    let same := fun (e : RemoteEntry) => e.origin == w.origin && e.line == w.line
    let rest := v.remote.filter (fun e => !same e)
    if !w.raise then { v with remote := rest }
    else if rest.length < v.remote.length || rest.length < 32 then { v with remote := rest ++ [{ origin := w.origin, line := w.line, at_ := t }] }
    else
      let l := s.rdN (P.ALM_RMT_LINE w.line)
      if l < 8 then { v with overflow := v.overflow ||| 2 ^ l } else v
  | .expiry o l t => { v with remote := v.remote.filter (fun e => !(e.origin == o && e.line == l && decide (e.at_ + 3000000 ≤ t))) }
  | .ack lines _ => { v with overflow := v.overflow &&& (255 ^^^ lines) }
  | .commit _ => v

/-- What the changes an event makes carry: instant, origin and input (R452; log 72). -/
def State.tagOf (s : State) : AlarmEvent → AlarmChange
  | .source n _ t => { line := 0, change := 0, input := some n, origin := s.rdN P.SYS_NODE_ID, instant := t }
  | .word w t => { line := 0, change := 0, input := none, origin := w.origin, instant := t }
  | .expiry o _ t => { line := 0, change := 0, input := none, origin := o, instant := t }
  | .ack _ t => { line := 0, change := 0, input := none, origin := s.rdN P.SYS_NODE_ID, instant := t }
  | .commit t => { line := 0, change := 0, input := none, origin := s.rdN P.SYS_NODE_ID, instant := t }

/-- The input a change of a line that a commit brings about names (R452; log 72): of the active sources, the lowest that the commit routes to a line
whose local part is active, or else the lowest that it routes away from the line. -/
def State.routedInput (s : State) (v : AlarmView) (l : Nat) : Option Nat :=
  let old := { s with par := s.cmd.oldPar }
  let moved := fun (away toward : State) => v.sources.find? (fun x => x.2 && away.rdN (P.ALM_SRC_LINE x.1) != l && toward.rdN (P.ALM_SRC_LINE x.1) == l)
  (if s.localPart v l then moved old s else moved s old).map (·.1)

/-- Of the sources that change together, the lowest that became active, or inactive, and routes to a line (R452). -/
def State.lowestSource (s : State) (es : List AlarmEvent) (l : Nat) (active : Bool) : Option Nat :=
  (es.filterMap (fun e => match e with
    | .source n a _ => if a == active && s.rdN (P.ALM_SRC_LINE n) == l then some n else none
    | _ => none)).min?

/-- What the change of a line carries: of a commit (log 72), of sources that change at one instant, or of another event. -/
def State.tagLine (s : State) (v : AlarmView) (es : List AlarmEvent) (l change : Nat) : AlarmChange := match es with
  | [] => s.tagOf (.commit s.now)
  | .commit t :: _ => { s.tagOf (.commit t) with input := s.routedInput v l }
  | .source n a t :: _ => { s.tagOf (.source n a t) with input := s.lowestSource es l (change == changeRaised) }
  | e :: _ => s.tagOf e

/-- The acknowledgement of the named lines (R445). -/
def ackLines (v : AlarmView) (mask : Nat) (tag : AlarmChange) : AlarmView × List AlarmChange :=
  lineNumbers.foldl (fun (r : AlarmView × List AlarmChange) l =>
    if bitOf mask l then
      let (st, cs) := lineAck (Sparse.get 0 r.1.lines l)
      ({ r.1 with lines := Sparse.set 0 r.1.lines l st }, r.2 ++ cs.map (fun c => { tag with line := l, change := c }))
    else r) (v, [])

/-- A view takes an alarm event, or the changes of sources at one instant. -/
def State.alarmStep (s : State) (v : AlarmView) (es : List AlarmEvent) : AlarmView × List AlarmChange :=
  let (v, cs) := match es with
    | .ack mask t :: _ => ackLines v mask (s.tagOf (.ack mask t))
    | _ => (v, [])
  let r := s.runLines (s.remask (es.foldl s.updateView v)) (s.tagLine v es)
  (r.1, cs ++ r.2)

/-- The source changes of one instant go together (R452, R455); every other event goes by itself. -/
def sameFlit (e f : AlarmEvent) : Bool := match e, f with
  | .source _ _ t, .source _ _ u => t == u
  | _, _ => false
def alarmBatches : List AlarmEvent → List (List AlarmEvent)
  | [] => []
  | e :: es => match alarmBatches es with
    | (f :: fs) :: bs => if sameFlit e f then (e :: f :: fs) :: bs else [e] :: (f :: fs) :: bs
    | bs => [e] :: bs

/-! ### Alarm words (R447, R448) -/

/-- A word of this node is queued on a ring port; one that finds 16 waiting is dropped. -/
def State.queueOwn (s : State) (w : AlarmWord) (p : Nat) : State :=
  if !s.isRingPort p then s
  else if 16 ≤ (s.alm.own.get p).length then s.setBit P.ALM_STATUS 4
  else { s with alm := { s.alm with own := s.alm.own.set p (s.alm.own.get p ++ [w]) } }

/-- A word is sent on both ring ports when the line's radius is 1 or more. -/
def State.sendWord (s : State) (l : Nat) (raise : Bool) : State :=
  let r := s.rdN (P.ALM_LINE_RADIUS l)
  if r = 0 then s
  else
    let w : AlarmWord := { origin := s.rdN P.SYS_NODE_ID, line := l, raise, hopsLeft := r - 1 }
    let s := if raise then { s with alm := { s.alm with refreshed := Sparse.set 0 s.alm.refreshed l s.time } } else s
    (s.queueOwn w 0).queueOwn w 1

/-- A word taken from a port goes on by the other one, unless it is the last hop, a portal's end, or a headland turn. -/
def State.forwardWord (s : State) (p : Nat) (w : AlarmWord) : State :=
  let o := 1 - p
  if w.hopsLeft = 0 || s.prt.portal || (s.port o).turning then s
  else if 32 ≤ (s.alm.forward.get o).length then s.setBit P.ALM_STATUS 4
  else { s with alm := { s.alm with forward := s.alm.forward.set o (s.alm.forward.get o ++ [{ w with hopsLeft := w.hopsLeft - 1 }]) } }

/-- A word is taken (R448, R450): not from the node itself, nor from origin 0x000. -/
def State.takeWord (s : State) (p : Nat) (w : AlarmWord) : State :=
  let s := (s.addWrap (P.ALM_WORD_RX p) 1).count 13 p
  if w.origin = 0 || w.origin = s.rdN P.SYS_NODE_ID then s
  else (s.forwardWord p w).sendAlarm 4 (.word w s.now)

/-! ### The matrix (R444 to R446) -/

/-- A change of the matrix in the counters and status bits. -/
def State.noteAlarm (s : State) (c : AlarmChange) : State :=
  if c.change = changeRaised then (s.addSat (P.ALM_RAISE_COUNT c.line) 1).setBit P.ALM_STATUS 0
  else if c.change = changeCleared then s.setBit P.ALM_STATUS 1
  else s.setBit P.ALM_STATUS 2

/-- The status bits an event sets whether or not a line changes (R451). -/
def State.noteEvent (s : State) (e : AlarmEvent) : State := match e with
  | .word w _ =>
    let v := s.alm.matrix
    if w.raise && decide (32 ≤ v.remote.length) && !v.remote.any (fun x => x.origin == w.origin && x.line == w.line) then s.setBit P.ALM_STATUS 6
    else s
  | .expiry _ _ _ => s.setBit P.ALM_STATUS 5
  | _ => s

/-- The matrix takes an event, or the changes of sources at one instant: line states, counters, and words for the lines whose local part changes. -/
def State.matrixTake (s : State) (es : List AlarmEvent) : State :=
  let old := s.alm.matrix
  let s := es.foldl State.noteEvent s
  let (v, cs) := s.alarmStep old es
  let s := { s with alm := { s.alm with matrix := v } }
  let s := lineNumbers.foldl (fun s l => s.wrN (P.ALM_LINE_STATE l) (Sparse.get 0 v.lines l)) s
  let s := (s.wrN P.ALM_LINE_RAW v.rawMask).wrN P.ALM_RMT_USED v.remote.length
  let s := cs.foldl State.noteAlarm s
  lineNumbers.foldl (fun s l =>
    if bitOf v.localMask l && !bitOf old.localMask l then s.sendWord l true
    else if !bitOf v.localMask l && bitOf old.localMask l then s.sendWord l false
    else s) s

def State.matrixStep (s : State) (e : AlarmEvent) : State := s.matrixTake [e]

/-- The level ALARMk drives, none at high impedance (R446, R496, R506). -/
def State.alarmPin (s : State) (k : Nat) : Option Bool :=
  if s.rdN (P.ALM_PIN_EN k) = 0 || s.pwr.pinsOff || s.pwr.hardStop then none
  else
    let st := s.rdN (P.ALM_LINE_STATE k)
    let active := s.running && (if s.rdN (P.ALM_PIN_MODE k) = 0 then st != 0 else st == 1 || st == 3)
    some (active != (s.rdN (P.ALM_PIN_POL k) == 1))

/-! ### Records (R255, R452) -/

/-- The two words of an ALM record entry. -/
def AlarmChange.words (c : AlarmChange) : List W64 :=
  let valid := c.input.isSome
  [BitVec.ofNat 64 (c.line + 8 * c.change + 32 * c.input.getD 0 + 16384 * b2n valid + 32768 * c.origin), BitVec.ofNat 64 c.instant]

/-- The ordered path takes an event, or the changes of sources at one instant, under the parameters in force then; the record is that of the slot being
processed (R213, R452). -/
def State.orderedStep (view s : State) (es : List AlarmEvent) : State :=
  let (v, cs) := view.alarmStep s.alm.ordered es
  cs.foldl (fun s c => s.addAlm s.red.slot c.words c.instant) { s with alm := { s.alm with ordered := v } }

/-- The order in which the alarm events of one instant are taken: a commit, the changes of sources, then words, expiries and acknowledgements
(R445, Table 14-8). -/
def AlarmEvent.rank : AlarmEvent → Nat
  | .commit _ => 0
  | .source _ _ _ => 1
  | .word _ _ => 2
  | .expiry _ _ _ => 3
  | .ack _ _ => 4
def orderAlarms (es : List AlarmEvent) : List AlarmEvent := [0, 1, 2, 3, 4].flatMap (fun r => es.filter (fun e => e.rank == r))

/-! ### Sources (R443) -/

/-- The alarm source of an input as its qualifier, its state and its parameters make it; while the input is HELD it stays as it is. -/
def State.sourceActive (s : State) (n : Nat) (old : Bool) : Bool :=
  if s.rdN (P.FE_IN_STATE n) = 6 then old
  else
    let q := s.rdN (P.TMR_CMP_STATE n)
    let byLevel := if s.rdN (P.ALM_SRC_POL n) = 0 then q == 2 || q == 3 else q == 1 || q == 4
    (s.rdN (P.TMR_EDGE n) != 0 && byLevel) || (s.rdN (P.ALM_SRC_WBK n) == 1 && s.rdN (P.FE_IN_STATE n) == 5)

end Sys2Proof.Machine
end

