-- ==== Sys2Proof/Machine/Floats.lean ====
section
/-! DEFINITION. binary64 and binary32 arithmetic (R104, R150, R226, R228): exact results rounded once, to nearest with ties to even. -/

namespace Sys2Proof.Machine

/-- A floating-point value: a quiet NaN, an infinity, or a sign with m·2^e. -/
inductive Fl where
  | nan
  | inf (neg : Bool)
  | fin (neg : Bool) (m : Nat) (e : Int)
  deriving DecidableEq, Repr

namespace Fl

/-- The number of binary digits. -/
def size (m : Nat) : Nat := if m = 0 then 0 else Nat.log2 m + 1

/-- m / 2^s rounded to nearest, ties to even. -/
def shiftEven (m s : Nat) : Nat :=
  let q := m / 2 ^ s
  let r := m % 2 ^ s
  if 2 * r < 2 ^ s then q else if 2 ^ s < 2 * r then q + 1 else q + q % 2

/-- Rounding to `p` digits with least exponent `lo` and overflow at 2^`hi` (log 30). -/
def round (p : Nat) (lo : Int) (hi : Nat) : Fl → Fl
  | .nan => .nan
  | .inf s => .inf s
  | .fin s m e =>
    let q := max (e + size m - p) lo
    let (m', e') := if q ≤ e then (m, e) else (shiftEven m (q - e).toNat, q)
    if (hi : Int) < e' + size m' then .inf s else .fin s m' e'

def to64 (x : Fl) : Fl := round 53 (-1074) 1024 x
def to32 (x : Fl) : Fl := round 24 (-149) 128 x

def ofNat (n : Nat) : Fl := to64 (.fin false n 0)
def ofInt (i : Int) : Fl := to64 (.fin (decide (i < 0)) i.natAbs 0)

/-- The value as a multiple of 2^e, signed, for an exponent not above its own. -/
def scaled (s : Bool) (m : Nat) (e lo : Int) : Int :=
  let v : Int := (m * 2 ^ (e - lo).toNat : Nat)
  if s then -v else v

def neg : Fl → Fl
  | .nan => .nan
  | .inf s => .inf (!s)
  | .fin s m e => .fin (!s) m e

/-- The exact sum. -/
def addExact : Fl → Fl → Fl
  | .nan, _ => .nan
  | _, .nan => .nan
  | .inf s, .inf t => if s == t then .inf s else .nan
  | .inf s, _ => .inf s
  | _, .inf s => .inf s
  | .fin s m e, .fin t n f =>
    let lo := min e f
    let v := scaled s m e lo + scaled t n f lo
    .fin (if v = 0 then s && t else decide (v < 0)) v.natAbs lo
def add (x y : Fl) : Fl := to64 (addExact x y)
def sub (x y : Fl) : Fl := add x (neg y)

def isZero : Fl → Bool
  | .fin _ 0 _ => true
  | _ => false

def mul : Fl → Fl → Fl
  | .nan, _ => .nan
  | _, .nan => .nan
  | .inf s, .inf t => .inf (s != t)
  | .inf s, .fin t n _ => if n = 0 then .nan else .inf (s != t)
  | .fin t n _, .inf s => if n = 0 then .nan else .inf (s != t)
  | .fin s m e, .fin t n f => to64 (.fin (s != t) (m * n) (e + f))

/-- The quotient with enough digits and a sticky last digit, before rounding. -/
def divExact (m n : Nat) : Nat × Int :=
  let k := 120 + size n
  let a := m * 2 ^ k
  (2 * (a / n) + (if a % n = 0 then 0 else 1), -(k : Int) - 1)

def div : Fl → Fl → Fl
  | .nan, _ => .nan
  | _, .nan => .nan
  | .inf _, .inf _ => .nan
  | .inf s, .fin t _ _ => .inf (s != t)
  | .fin s _ _, .inf t => .fin (s != t) 0 0
  | .fin s m e, .fin t n f =>
    if n = 0 then (if m = 0 then .nan else .inf (s != t))
    else
      let (q, k) := divExact m n
      to64 (.fin (s != t) q (e - f + k))

/-- The integer square root, digit by digit. -/
def isqrt : Nat → Nat → Nat → Nat
  | 0, _, r => r
  | k + 1, n, r => let r' := r + 2 ^ k; isqrt k n (if r' * r' ≤ n then r' else r)

/-- The square root of m·2^e with a sticky last digit, before rounding. -/
def sqrtExact (m : Nat) (e : Int) : Nat × Int :=
  let (m, e) := if e % 2 = 0 then (m, e) else (2 * m, e - 1)
  let a := m * 2 ^ 240
  let r := isqrt (size a / 2 + 1) a 0
  (2 * r + (if r * r = a then 0 else 1), e / 2 - 121)
def sqrt : Fl → Fl
  | .nan => .nan
  | .inf s => if s then .nan else .inf false
  | .fin s m e => if m = 0 then .fin s 0 0 else if s then .nan else let (r, f) := sqrtExact m e; to64 (.fin false r f)

/-- Order of numbers; NaN is less than nothing. -/
def lt : Fl → Fl → Bool
  | .nan, _ => false
  | _, .nan => false
  | .inf s, .inf t => s && !t
  | .inf s, _ => s
  | _, .inf s => !s
  | .fin s m e, .fin t n f => let lo := min e f; decide (scaled s m e lo < scaled t n f lo)
def le (x y : Fl) : Bool := match x, y with
  | .nan, _ => false
  | _, .nan => false
  | _, _ => !lt y x

/-- An encoding with `p` digits and `w` exponent bits; `nan` is the quiet NaN's. -/
def encode (p w : Nat) (nan : Nat) (x : Fl) : Nat :=
  let top := 2 ^ (p - 1 + w)
  let bias : Int := (2 ^ (w - 1) - 1 : Nat)
  match x with
  | .nan => nan
  | .inf s => (if s then top else 0) + (2 ^ w - 1) * 2 ^ (p - 1)
  | .fin s m e =>
    let sg := if s then top else 0
    if m = 0 then sg
    else
      let lo := 2 - bias - p
      let q := max (e + size m - p) lo
      let a := if q ≤ e then m * 2 ^ (e - q).toNat else m / 2 ^ (q - e).toNat
      if a < 2 ^ (p - 1) then sg + a else sg + (q - lo).toNat * 2 ^ (p - 1) + a

/-- The bits of a value already rounded to the format. -/
def bits32 (x : Fl) : Word := BitVec.ofNat 32 (encode 24 8 0x7FC00000 x)
def bits64 (x : Fl) : W64 := BitVec.ofNat 64 (encode 53 11 0x7FF8000000000000 x)

/-- A decoding. -/
def decode (p w : Nat) (n : Nat) : Fl :=
  let s := bitOf n (p - 1 + w)
  let ex := n / 2 ^ (p - 1) % 2 ^ w
  let fr := n % 2 ^ (p - 1)
  let bias : Int := (2 ^ (w - 1) - 1 : Nat)
  let lo := 2 - bias - p
  if ex = 2 ^ w - 1 then (if fr = 0 then .inf s else .nan)
  else if ex = 0 then .fin s fr lo
  else .fin s (2 ^ (p - 1) + fr) (lo + ex - 1)
def of32 (x : Word) : Fl := decode 24 8 x.toNat
def of64 (x : W64) : Fl := decode 53 11 x.toNat

/-- A decimal constant num/10^k in binary64. -/
def dec (num : Int) (k : Nat) : Fl := div (ofInt num) (.fin false (10 ^ k) 0)

def isFinite : Fl → Bool
  | .fin _ _ _ => true
  | _ => false

end Fl

/-- A value rounded to binary32, as its bits, and 0. -/
def bits32of (x : Fl) : Nat := (Fl.bits32 (Fl.to32 x)).toNat
def flZero : Fl := .fin false 0 0

end Sys2Proof.Machine
end

