-- ==== Sys2Proof/Machine/TmrCore.lean ====
section
/-! DEFINITION. The timing path of an input: trigger primitives on edges and samples (R199 to R203), the edge qualifier and stamper (R135 to R146),
and the interval engine (R147 to R151). -/

namespace Sys2Proof.Machine

def State.input (s : State) (n : Nat) : InputState := Sparse.get {} s.fe.inputs n
def State.setInput (s : State) (n : Nat) (x : InputState) : State := { s with fe := { s.fe with inputs := Sparse.set {} s.fe.inputs n x } }
def State.timing (s : State) (n : Nat) : TimingState := Sparse.get {} s.tmr.inputs n
def State.setTiming (s : State) (n : Nat) (x : TimingState) : State := { s with tmr := { s.tmr with inputs := Sparse.set {} s.tmr.inputs n x } }
def State.source (s : State) (k : Nat) : SourceState := Sparse.get {} s.fe.sources k
def State.setSource (s : State) (k : Nat) (x : SourceState) : State := { s with fe := { s.fe with sources := Sparse.set {} s.fe.sources k x } }

/-- The sign of a condition at an instant, where it stood then. -/
def Spell.flagAt (x : Spell) (t : Nat) : Option Bool :=
  let before := (x.past.find? (fun p => decide (p.1 ≤ t) && decide (t < p.2.1))).map (fun p => p.2.2)
  match x.since with
  | some a => if a ≤ t then some x.flag else before
  | none => before
/-- A condition stands at an instant. -/
def Spell.covers (x : Spell) (t : Nat) : Bool := (x.flagAt t).isSome
def Spell.begin (x : Spell) (t : Nat) (flag : Bool) : Spell := { x with since := some (x.since.getD t), flag }
/-- The condition ends; of its spells the latest is kept, and those of the 8 µs before it, in which a conversion or a stamp may still fall. -/
def Spell.end_ (x : Spell) (t : Nat) : Spell := match x.since with
  | some a => { x with since := none, past := (a, t, x.flag) :: x.past.filter (fun p => decide (t < p.2.1 + usec 8)) }
  | none => x

/-- A clamp detector of either pin is active at an instant (R92). -/
def InputState.clamped (x : InputState) (t : Nat) : Bool := x.clamps.a.covers t || x.clamps.b.covers t

/-- Whether a source runs reversed at an instant in ns: in each half of odd index (R82). -/
def State.reversedAt (s : State) (k t : Nat) : Bool :=
  let h := 500 * s.rdN (P.FE_EXC_REV_PERIOD k)
  h != 0 && t / h % 2 == 1

/-- The pin codes by which a source's current leaves and returns now; none while both terminals are released from the matrix (R79, R82). -/
def State.terminals (s : State) (k : Nat) : Option (Nat × Nat) :=
  let a := s.rdN (P.FE_EXC_PIN_A k)
  let b := s.rdN (P.FE_EXC_PIN_B k)
  if (s.source k).released then none else if (s.source k).reversed then some (b, a) else some (a, b)

/-- The terminals of a source follow its current (R79): released at 0, while an orderly stop keeps the sources released (R504), and between the sweeps of
a vibrating-wire source (R102; log 80). -/
def State.steer (s : State) (k : Nat) : State :=
  let off := s.rdN (P.FE_EXC_CURRENT k) == 0 || s.rdN P.PWR_STATE == 4 || (s.rdN (P.FE_VW_INTERVAL k) != 0 && (s.source k).sweepAt.isNone)
  s.setSource k { s.source k with released := off }

/-- The parameters in force at an instant in ns: those before the latest commit for an earlier instant (R120, R121, R213). -/
def State.viewAt (s : State) (t : Nat) : State := if t < s.cmd.parFrom then { s with par := s.cmd.oldPar } else s

/-- An instant of the time in force lies before the latest step of the time base; `recordInstant` is what the time before the step called it (log 50). -/
def State.beforeStep (s : State) (t : Nat) : Bool := decide (t + 1 < s.tb.stepped)
def State.recordInstant (s : State) (t : Nat) : Nat := if s.beforeStep t then ((t : Int) - s.tb.stepBy).toNat else t

/-! ### Alarm sources -/

/-- The alarm source of an input follows its qualifier and state; a change carries an instant in ns (R443, R452). -/
def State.updateAlarm (s : State) (n instant : Nat) : State :=
  let x := s.timing n
  let a := s.sourceActive n x.alarm
  if a == x.alarm then s else (s.setTiming n { x with alarm := a }).sendAlarm (n / 128) (.source n a instant)

/-! ### Trigger primitives (R199 to R202) -/

def primKey (n p : Nat) : Nat := 2 * n + p

/-- A primitive of an input produces a hit (R199, R203). -/
def State.hit (s : State) (n p instant done : Nat) : State :=
  let line := s.rdN (P.TRG_PRIM_LINE (primKey n p))
  if line = 0xFF then s
  else
    let x := s.timing n
    s.setTiming n { x with hits := x.hits ++ [{ instant, input := n, prim := p, line, done }] }

def State.setPrim (s : State) (n p : Nat) (q : Prim) : State := s.setInput n { s.input n with prims := (s.input n).prims.set p q }

/-- A condition is evaluated: a change from false to true hits, and the first evaluation after a clear does not (R201). -/
def State.condition (s : State) (n p : Nat) (q : Prim) (c : Bool) (instant done : Nat) : State :=
  let s := s.setPrim n p { q with cond := some c }
  if c && q.cond == some false then s.hit n p instant done else s

/-- An edge reaches a primitive (Table 7-1, kinds 1, 2 and 7).  RATE counts by the instants of R202, at most ARG_A's 255 edges within ARG_B's 1 ms. -/
def State.edgePrim (s : State) (n : Nat) (rising : Bool) (crossing done p : Nat) : State :=
  let kind := s.rdN (P.TRG_PRIM_KIND (primKey n p))
  let t := crossing / 4096
  let q := (s.input n).prims.get p
  let edges := if rising then (t :: q.edges.filter (fun e => decide (t < e + 1000000))).take 255 else q.edges
  let s := s.setPrim n p { q with edges }
  if kind = 1 then (if rising then s.hit n p t done else s)
  else if kind = 2 then (if rising then s else s.hit n p t done)
  else if kind = 7 && rising then
    let least := s.rdN (P.TRG_PRIM_ARG_A (primKey n p))
    let count := (edges.filter (fun e => decide (t < e + s.rdN (P.TRG_PRIM_ARG_B (primKey n p))))).length
    let q := { q with edges, cond := if q.cond.isSome then some (decide (least ≤ count - 1)) else none }
    s.condition n p q (decide (least ≤ count)) t done
  else s

/-- A sample word reaches a primitive (Table 7-1, kinds 3 to 6). -/
def State.samplePrim (s : State) (n : Nat) (code : Int) (instant done p : Nat) : State :=
  let kind := s.rdN (P.TRG_PRIM_KIND (primKey n p))
  let a := s.rdI (P.TRG_PRIM_ARG_A (primKey n p))
  let b := s.rdI (P.TRG_PRIM_ARG_B (primKey n p))
  let q := (s.input n).prims.get p
  if kind = 3 then s.condition n p q (decide (a ≤ code)) instant done
  else if kind = 4 then s.condition n p q (decide (code ≤ a)) instant done
  else if kind = 5 then s.condition n p q (decide (a < code) || decide (code < b)) instant done
  else if kind = 6 then
    let q' := { q with history := (code :: q.history).take 256 }
    match q.history[b.toNat - 1]? with
    | none => s.setPrim n p { q' with cond := none }
    | some old => s.condition n p q' (if 0 < a then decide (a ≤ code - old) else decide (code - old ≤ a)) instant done
  else s

/-- The primitives of an input take their conditions anew (R201). -/
def State.clearPrim (s : State) (n p : Nat) : State := s.setPrim n p { (s.input n).prims.get p with cond := none, history := [] }

/-! ### The interval engine (R147 to R149) -/

/-- A stamp of an edge kind: 0 rising, 1 falling. -/
def itvKind (rising : Bool) : Nat := if rising then 0 else 1

/-- A set opens when the comparator is active and TMR_ITV_MODE is not 0 (R148); a start pending from before lies before the set. -/
def State.openSet (s : State) (n at_ : Nat) : State :=
  let mode := s.rdN (P.TMR_ITV_MODE n)
  let x := s.timing n
  if mode = 0 || s.rdN (P.TMR_CMP_STATE n) = 0 || x.set.isSome then s
  else s.setTiming n { x with set := some { mode, prescale := s.rdN (P.TMR_PRESCALE n), opened := at_ }, startOld := true }

/-- The reason of a close that falls on the timeout of the set, under the timeout in force before the instant: the lowest code is reported (R148). -/
def State.closeReason (s : State) (n : Nat) (it : ItvSet) (reason at_ : Nat) : Nat :=
  let view := s.viewAt (at_ / 4096 - 1)
  if it.opened + msec (view.rdN (P.TMR_ITV_TIMEOUT n)) = at_ then min reason 2 else reason

/-- The open set closes for a reason at an instant (Table 5-5); its result becomes ready later (R151).  Of several closes at one instant one result
comes, with the lowest reason, and a set opened there is not opened (R148). -/
def State.closeSet (s : State) (n reason at_ : Nat) : State :=
  let x := s.timing n
  match x.set with
  | none => s
  | some it =>
    if x.closed.any (fun c => c.close == at_) then
      s.setTiming n { x with set := none, closed := x.closed.map (fun c => if c.close = at_ then { c with reason := min c.reason reason } else c) }
    else s.setTiming n { x with set := none, closed := x.closed ++ [{ set := it, reason := s.closeReason n it reason at_, close := at_ }] }

/-- A set with one more discard. -/
def ItvSet.discard (it : ItvSet) : ItvSet := { it with discards := min (it.discards + 1) 2097151 }

/-- An interval whose end stamp crossed at an instant found no place (R149): it counts in the set in which it ended, which may have closed since. -/
def State.discardItv (s : State) (n crossing : Nat) : State :=
  let s := s.addSat (P.TMR_ITV_DISCARD n) 1
  let x := s.timing n
  match x.closed.find? (fun c => decide (crossing ≤ c.close)) with
  | some c => s.setTiming n { x with closed := x.closed.map (fun d => if d == c then { d with set := d.set.discard } else d) }
  | none => s.setTiming n { x with set := x.set.map ItvSet.discard }

/-- A set with an interval entered. -/
def ItvSet.enter (it : ItvSet) (v : Nat) (end_ : Int) : ItvSet :=
  { it with n := it.n + 1, s1 := it.s1 + v, s2 := it.s2 + v * v, least := if it.n = 0 then v else min it.least v
            most := max it.most v, first := if it.n = 0 then end_ else it.first }

/-- A closed set whose last interval ended at a stamp that was complete after its close: it has closed with reason 0 at that stamp, and the next set
opened there.  What had closed the first one closes the next, but for a timeout, which counts from the opening (R148). -/
def closedFull (x : TimingState) (c : ItvClosed) (it : ItvSet) (crossing : Nat) : TimingState :=
  let full : ItvClosed := { set := it, reason := 0, close := crossing }
  let next : ItvSet := { mode := it.mode, prescale := it.prescale, opened := crossing }
  let more : List ItvClosed := if c.reason = 2 || crossing = c.close then [] else [{ set := next, reason := c.reason, close := c.close }]
  { x with closed := x.closed.flatMap (fun d => if d == c then full :: more else [d])
           set := x.set.map (fun o => if c.reason = 2 && o.opened = c.close then { o with opened := crossing } else o) }

/-- An interval ends at a stamp taken at an instant: it enters the set open then, also one that has closed since, or is discarded. -/
def State.enterItv (s : State) (n : Nat) (start end_ : Int) (crossing : Nat) (gap : Bool) : State :=
  let x := s.timing n
  let v := (end_ - start).toNat
  if gap then s.discardItv n crossing
  else match x.closed.find? (fun c => decide (crossing ≤ c.close)) with
    | some c =>
      if c.reason = 0 || decide (x.startAt < c.set.opened) then s.discardItv n crossing
      else
        let it := c.set.enter v end_
        if (s.viewAt (crossing / 4096)).rdN (P.TMR_ITV_N n) ≤ it.n then s.setTiming n (closedFull x c it crossing)
        else s.setTiming n { x with closed := x.closed.map (fun d => if d == c then { d with set := it } else d) }
    | none => match x.set with
      | none => s.discardItv n crossing
      | some it =>
        if x.startOld then s.discardItv n crossing
        else
          let it := it.enter v end_
          let s := s.setTiming n { x with set := some it }
          if s.rdN (P.TMR_ITV_N n) ≤ it.n then
            let s := (s.closeSet n 0 crossing).openSet n crossing
            s.setTiming n { s.timing n with start := none, startOld := false }
          else s

/-- An interval ends whose start has been taken already. -/
def State.enterTaken (s : State) (n : Nat) (start end_ : Int) (crossing : Nat) (gap old : Bool) : State :=
  let s := s.setTiming n { s.timing n with start := none, startOld := old }
  let s := s.enterItv n start end_ crossing gap
  s.setTiming n { s.timing n with startOld := false }

/-- No stamp taken up to an instant is still on its way. -/
def State.settled (s : State) (n at_ : Nat) : Bool :=
  let x := s.timing n
  x.making.all (fun m => decide (at_ < m.crossing)) && (match x.cross with
    | some (c, _) => decide (at_ < c)
    | none => true)

/-- A pending start of DELAY mode finds no end (R147). -/
def State.missItv (s : State) (n : Nat) : State := (s.addSat (P.TMR_ITV_MISS n) 1).setBit (P.TMR_IN_STATUS n) 5

/-- A start becomes pending; one that was pending is missed in DELAY mode (R147). -/
def State.beginItv (s : State) (n : Nat) (start : Int) (crossing : Nat) : State :=
  let x := s.timing n
  let s := if x.start.isSome && s.rdN (P.TMR_ITV_MODE n) = 3 then s.missItv n else s
  s.setTiming n { s.timing n with start := some start, startAt := crossing, startOld := false, startStep := false }

/-- Start events whose instant is past and before which no stamp is still to come become pending, in their order (R147, R159; log 75). -/
def State.takeStarts (s : State) (n : Nat) : State :=
  let x := s.timing n
  let ready := x.starts.takeWhile (fun e => decide (e.2 < s.time) && s.settled n e.2)
  if ready.isEmpty then s
  else
    let s := s.setTiming n { x with starts := x.starts.drop ready.length }
    ready.foldl (fun s e => if s.rdN (P.TMR_ITV_MODE n) = 3 then s.beginItv n e.1 e.2 else s) s

/-- An interval that spans a step of the time base is discarded and shown (R149). -/
def State.noteStepped (s : State) (n : Nat) : State := if (s.timing n).startStep then s.setBit (P.TMR_IN_STATUS n) 4 else s

/-- A stamp of an input reaches its own interval engine (Table 5-4). -/
def State.itvStamp (s : State) (n : Nat) (rising : Bool) (stamp : Int) (crossing : Nat) (gap : Bool) : State :=
  let mode := s.rdN (P.TMR_ITV_MODE n)
  let kind := itvKind rising
  let x := s.timing n
  let gap := gap || x.startStep
  let begin_ := fun (s : State) => s.setTiming n { s.timing n with start := some stamp, startAt := crossing, startOld := false, startStep := false }
  if mode = 1 && kind = s.rdN (P.TMR_ITV_EDGE n) then
    let s := match x.start with
      | some st => (s.noteStepped n).enterItv n st stamp crossing gap
      | none => s
    begin_ s
  else if mode = 2 then
    if kind = s.rdN (P.TMR_ITV_EDGE n) then begin_ s
    else match x.start with
      | some st => (s.noteStepped n).enterTaken n st stamp crossing gap x.startOld
      | none => s
  else if mode = 3 && kind = s.rdN (P.TMR_ITV_EDGE n) then
    match x.start with
    | some st =>
      if st + ns (s.rdN (P.TMR_ITV_DLY_MIN n)) < stamp && stamp < st + ns (s.rdN (P.TMR_ITV_WINDOW n)) then
        (s.noteStepped n).enterTaken n st stamp crossing gap x.startOld
      else s
    | none => s
  else s

/-- The inputs that take their starts from a source in DELAY mode. -/
def State.startedBy (s : State) (src : Nat) (inputs : List Nat) : List Nat :=
  inputs.filter (fun n => s.rdN (P.TMR_ITV_MODE n) == 3 && s.rdN (P.TMR_ITV_SRC n) == src)

/-- A rising stamp of an input, or a placed pulse, is a start event of the inputs that name it in DELAY mode (R147; log 75).  A stamp of such an input
that crosses up to the same instant goes first (R159). -/
def State.startFrom (s : State) (src : Nat) (at_ : Int) (crossing : Nat) (inputs : List Nat) : State :=
  (s.startedBy src inputs).foldl (fun s n =>
    let x := s.timing n
    (s.setTiming n { x with starts := x.starts ++ [(at_, crossing)] }).takeStarts n) s

/-- The inputs of a front end. -/
def inputsOf (fe : Nat) : List Nat := (List.range 128).map (· + 128 * fe)

/-! ### The qualifier and the stamper (R135 to R141, R146) -/

/-- A gate of R102 leaves the comparator of an input on. -/
def State.gateOpen (s : State) (n : Nat) : Bool :=
  let k := s.rdN (P.FE_IN_EXC n)
  decide (64 ≤ k) || s.rdN (P.FE_VW_INTERVAL k) == 0 || (s.source k).listenFrom.isSome

/-- The comparator of an input is active (R138). -/
def State.cmpActive (s : State) (n : Nat) : Bool :=
  let st := s.rdN (P.FE_IN_STATE n)
  s.rdN (P.FE_IN_MODE n) != 0 && decide (1 ≤ st) && decide (st ≤ 4) && s.gateOpen n

/-- The qualifier takes the present level as its state without an edge (R138; log 73, log 74). -/
def State.takeLevel (s : State) (n : Nat) : State :=
  let x := s.timing n
  (s.setTiming n { x with cross := none, occupies := false, holdEnd := none, levelAt := some s.time }).wrN (P.TMR_CMP_STATE n) (if x.aboveU then 2 else 1)

/-- The comparator follows what R138 names; `reason` is the close reason of a set when it becomes inactive. -/
def State.refreshCmp (s : State) (n reason : Nat) : State :=
  let was := s.rdN (P.TMR_CMP_STATE n) != 0
  let now := s.cmpActive n
  let s := if now && !was then
      let s := (s.takeLevel n).setTiming n { (s.takeLevel n).timing n with presc := 0 }
      s.openSet n s.time
    else if !now && was then
      let s := s.setTiming n { s.timing n with cross := none, occupies := false, holdEnd := none }
      (s.closeSet n reason s.time).wrN (P.TMR_CMP_STATE n) 0
    else s
  s.updateAlarm n s.now

/-- TMR_EDGE selects an edge kind for stamping. -/
def edgeSelected (sel : Nat) (rising : Bool) : Bool := if rising then sel == 1 || sel == 3 else sel == 2 || sel == 3

/-- Lock was not reported at an instant in ns. -/
def State.tbuAt (s : State) (t : Nat) : Bool := unlockedIn s.recs.locks t t

/-- A test edge of the periodic check occupies the stamper (R141, R437): pair k begins 2k µs and k/16 ns after the first, and its second edge follows
1,000.5 ns later. -/
def testBusy (from_ : Option Nat) (t : Nat) : Bool := match from_ with
  | none => false
  | some a =>
    let k := (t - a) / usec 2
    let off := (t - a) % usec 2
    let e := 256 * k
    decide (a ≤ t) && decide (k < 16) &&
      ((decide (e ≤ off) && decide (off < e + ns 60)) || (decide (e + 4098048 ≤ off) && decide (off < e + 4098048 + ns 60)))

/-- The stamper takes an edge, or loses it while it is busy (R141); its stamp word is complete 40 ns after the crossing (R143). -/
def State.stampEdge (s : State) (n : Nat) (rising : Bool) (crossing : Nat) : State :=
  let x := s.timing n
  if crossing < x.busyUntil || testBusy x.testFrom crossing then
    ((s.setTiming n { x with gapDead := true }).addSat (P.TMR_LOST_DEAD n) 1).setBit (P.TMR_IN_STATUS n) 2
  else
    let stamp : Int := crossing - s.rdI (P.TMR_USER_DELAY n)
    let settle := (s.input n).settle.covers stamp.toNat || (s.input n).clamped stamp.toNat
    let word := 64 * b2n settle + 128 * b2n (s.tbuAt (stamp / 4096).toNat) + 256 * b2n (s.rdN (P.TMR_PRESCALE n) != 0) + 1024 * b2n rising
      + 2048 * n + 1048576 * (stamp % 4096).toNat + 4294967296 * ((stamp / 4096) % 4294967296).toNat
    s.setTiming n { x with busyUntil := crossing + ns 60, gapDead := false
                           making := x.making ++ [{ stamp, crossing, done := crossing + ns 40, word, gap := x.gapDead }] }

/-- An edge is accepted (R136, R137, R139, R140, R146): the qualifier moves, primitives and alarm source see it, and it is stamped when selected. -/
def State.acceptEdge (s : State) (n : Nat) (rising : Bool) (crossing : Nat) : State :=
  let hold := s.rdN (P.TMR_HOLDOFF n)
  let x := s.timing n
  let s := s.setTiming n { x with cross := none, occupies := false, holdEnd := if hold = 0 then none else some (crossing + ns hold) }
  let s := s.wrN (P.TMR_CMP_STATE n) (if rising then (if hold = 0 then 2 else 3) else (if hold = 0 then 1 else 4))
  let done := crossing + ns (s.rdN (P.TMR_QUAL n) + 24)
  let s := (s.edgePrim n rising crossing done 0).edgePrim n rising crossing done 1
  let s := s.updateAlarm n (crossing / 4096)
  if edgeSelected (s.rdN (P.TMR_EDGE n)) rising then
    let k := s.rdN (P.TMR_PRESCALE n)
    let c := (s.timing n).presc
    let s := s.setTiming n { s.timing n with presc := c + 1 }
    if k = 0 || c % 2 ^ k = 0 then s.stampEdge n rising crossing else s
  else s

/-- A crossing reverts before it is accepted (R136). -/
def State.glitch (s : State) (n : Nat) : State :=
  let x := s.timing n
  let s := s.setTiming n { x with cross := none, occupies := false, busyUntil := if x.occupies then max x.busyUntil s.time else x.busyUntil }
  ((s.addSat (P.TMR_GLITCH_COUNT n) 1).setBit (P.TMR_IN_STATUS n) 1).takeStarts n

/-- A crossing that has stood for TMR_QUAL is accepted (R136). -/
def State.acceptDue (s : State) (n : Nat) : State := match (s.timing n).cross with
  | none => s
  | some (c, rising) => if c + ns (s.rdN (P.TMR_QUAL n)) ≤ s.time then s.acceptEdge n rising c else s

/-- The comparator's level passes a threshold: 0 above U, 1 below U, 2 below L, 3 above L; with TMR_HYST 0 the levels are one. -/
def levelAfter (hyst kind : Nat) (x : TimingState) : TimingState :=
  match kind with
  | 0 => { x with aboveU := true, belowL := false }
  | 1 => { x with aboveU := false, belowL := x.belowL || hyst == 0 }
  | 2 => { x with aboveU := false, belowL := true }
  | _ => { x with aboveU := x.aboveU || hyst == 0, belowL := false }

/-- A crossing begins (R135, R136); one selected for stamping that finds the stamper free occupies it. -/
def State.beginCross (s : State) (n : Nat) (rising : Bool) : State :=
  let x := s.timing n
  let occ := edgeSelected (s.rdN (P.TMR_EDGE n)) rising && decide (x.busyUntil ≤ s.time) && !testBusy x.testFrom s.time
  s.setTiming n { x with cross := some (s.time, rising), occupies := occ }

/-- The end of a hold-off: the qualifier takes the present level without an edge (R137, Table 5-1; log 73). -/
def State.holdoffDue (s : State) (n : Nat) : State :=
  let x := s.timing n
  match x.holdEnd with
  | none => s
  | some e =>
    if s.time < e then s
    else
      let st := s.rdN (P.TMR_CMP_STATE n)
      let s := s.setTiming n { x with holdEnd := none }
      let s := if st = 3 then s.wrN (P.TMR_CMP_STATE n) (if x.belowL then 1 else 2)
        else if st = 4 then s.wrN (P.TMR_CMP_STATE n) (if x.aboveU then 2 else 1)
        else s
      s.updateAlarm n (e / 4096)

/-- The comparator's output passes a level (R135 to R138); a hold-off that ends at the same instant ends first (R159).  Where the qualifier has taken the
level at that very instant, as at a commit that moves the levels, the new level is taken silently too (R138, R159; log 74). -/
def State.crossLevel (s : State) (n kind : Nat) : State :=
  let s := (s.acceptDue n).holdoffDue n
  let old := s.timing n
  let new := levelAfter (s.rdN (P.TMR_HYST n)) kind old
  let s := s.setTiming n new
  let st := s.rdN (P.TMR_CMP_STATE n)
  if st = 0 then s
  else if old.levelAt = some s.time then (s.takeLevel n).updateAlarm n s.now
  else match old.cross with
    | some (_, true) => if new.aboveU then s else s.glitch n
    | some (_, false) => if new.belowL then s else s.glitch n
    | none =>
      if st = 1 && new.aboveU && !old.aboveU then s.beginCross n true
      else if st = 2 && new.belowL && !old.belowL then s.beginCross n false
      else s

end Sys2Proof.Machine
end

