-- ==== Sys2Proof/Machine/Linear.lean ====
section
/-! DEFINITION. Correction and linearisation (R104 to R107, R127, R128). -/

namespace Sys2Proof.Machine

/-! ### Correction (R127) -/

/-- A quotient rounded to nearest, ties away from zero. -/
def divAway (a : Int) (d : Nat) : Int :=
  let q : Int := ((2 * a.natAbs + d) / (2 * d) : Nat)
  if a < 0 then -q else q

/-- The calibration index of an input (R127). -/
def State.calIndex (s : State) (n : Nat) : Nat :=
  8 * n + (if s.rdN (P.FE_IN_MODE n) = 2 then 5 + s.rdN (P.FE_IN_RANGE n) else s.rdN (P.FE_IN_RANGE n))

/-- The corrected value of a raw code, in 1/256 code. -/
def State.corrected (s : State) (n : Nat) (raw : Nat) : Int :=
  let k := s.calIndex n
  let v : Int := ((raw : Int) - 2048) * 4096 - s.rdI (P.ADC_CAL_OFFSET k)
  let v := divAway (v * s.rdN (P.ADC_CAL_GAIN k)) 1073741824 - s.rdI (P.ADC_USER_OFFSET n)
  divAway (v * s.rdN (P.ADC_USER_GAIN n)) 1073741824

/-- A value in 1/256 code as a code: rounded ties away from zero (R71). -/
def codeOf (x : Int) : Int := divAway x 256

/-- A code as the sample word holds it, and clipped. -/
def clipCode (c : Int) : Int := clampInt (-32768) 32767 c
def codeBits (c : Int) : Nat := (c % 65536).toNat

/-- The code, two's complement, of a sample word (Table 4-6). -/
def wordCode (w : Nat) : Int := signed 16 (w / 16)

/-! ### Base quantity (Table 3-3, Table 3-12) -/

/-- The half-width of a range as a decimal: volts, or coulombs in charge mode. -/
def halfWidth (mode range : Nat) : Fl :=
  if mode = 2 then (match range with
    | 0 => Fl.dec 1 10
    | 1 => Fl.dec 1 9
    | _ => Fl.dec 1 8)
  else match range with
    | 0 => Fl.dec 2 2
    | 1 => Fl.dec 8 2
    | 2 => Fl.dec 32 2
    | 3 => Fl.dec 128 2
    | _ => Fl.dec 256 2

/-- A value in 1/256 code times the code scale. -/
def State.voltage (s : State) (n : Nat) (v : Int) : Fl :=
  Fl.mul (Fl.to64 (.fin (decide (v < 0)) v.natAbs (-23))) (halfWidth (s.rdN (P.FE_IN_MODE n)) (s.rdN (P.FE_IN_RANGE n)))

/-- The calibrated current of a source in A. -/
def State.excCurrent (s : State) (k : Nat) : Fl :=
  Fl.mul (Fl.to64 (.fin false (s.rdN (P.FE_EXC_CURRENT k) * s.rdN (P.CAL_EXC_RATIO k)) (-30))) (Fl.dec 1 9)

/-- The base quantity x of a sample value (Table 3-12). -/
def State.baseX (s : State) (n : Nat) (v : Int) : Fl :=
  let u := s.voltage n v
  match s.rdN (P.FE_IN_MODE n) with
  | 3 => Fl.div u (s.excCurrent (s.rdN (P.FE_IN_EXC n)))
  | 5 => Fl.div u (Fl.mul (Fl.ofNat (s.rdN (P.FE_IN_SHUNT n))) (Fl.dec 1 3))
  | _ => u

/-! ### Curves (Table 3-13) -/

def State.coef (s : State) (n i : Nat) : Fl := Fl.of32 (s.rd (P.FE_LIN_COEF (8 * n + i)))

/-- The forward functions of curves 1 to 3 over T = k/2^20 °C, times 10^15·2^80 and 10^20·2^120, with c0 taken out. -/
def cvdForward (k : Int) : Int :=
  10 ^ 15 * 2 ^ 80 + 3908300000000 * k * 2 ^ 60 - 577500000 * k * k * 2 ^ 40 - (if k < 0 then 4183 * (k - 100 * 2 ^ 20) * k * k * k else 0)
def nickelForward (k : Int) : Int :=
  10 ^ 20 * 2 ^ 120 + 548500000000000000 * k * 2 ^ 100 + 665000000000000 * k ^ 2 * 2 ^ 80 + 2805000000 * k ^ 4 * 2 ^ 40 - 2000 * k ^ 6

/-- Whether c0·F(k) ≤ x·scale, all exact. -/
def atMost (f : Int) (c0 x : Fl) (scale : Int) : Bool := match c0, x with
  | .fin s m e, .fin t n g =>
    let lo := min e g
    decide (f * Fl.scaled s m e lo ≤ scale * Fl.scaled t n g lo)
  | _, _ => false

/-- The greatest k of lo … lo + 2^fuel − 1 that satisfies a test which holds up to some k. -/
def bisect (test : Int → Bool) : Nat → Int → Int
  | 0, lo => lo
  | n + 1, lo => bisect test n (if test (lo + 2 ^ n) then lo + 2 ^ n else lo)

/-- A value with where it lies against a domain: below, inside or above. -/
inductive Curved where
  | below
  | value (y : Fl)
  | above
  | fault
  deriving DecidableEq, Repr

/-- The inverse of a forward function over a domain in °C, `test k` telling whether the function at k/2^20 °C does not exceed x, with the error Newton
iteration may leave (R106; log 28). -/
def invert (curve : Nat) (test : Int → Bool) (lo hi : Int) (x : Fl) : Curved :=
  if !x.isFinite then (match x with
    | .inf s => if s then .below else .above
    | _ => .value .nan)
  else if !test (lo * 2 ^ 20) then .below
  else if test (hi * 2 ^ 20 + 1) then .above
  else
    let k := bisect (fun k => decide (k ≤ hi * 2 ^ 20) && test k) 31 (lo * 2 ^ 20)
    let k := k + clampInt (-1046) 1046 (Config.newtonError curve (Fl.bits64 x))
    .value (Fl.to64 (.fin (decide (k < 0)) k.natAbs (-20)))

/-- A y judged against bounds. -/
def within (lo hi : Fl) (y : Fl) : Curved := match y with
  | .nan => .value .nan
  | y => if Fl.lt y lo then .below else if Fl.lt hi y then .above else .value y

def strainBound : Fl := Fl.ofNat 50000
def million : Fl := Fl.ofNat 1000000

/-- The domain judged again after the iteration's error. -/
def bounded (r : Curved) (lo hi : Int) : Curved := match r with
  | .value y => within (Fl.ofInt lo) (Fl.ofInt hi) y
  | r => r

/-- A polynomial curve of a resistance over a domain: the inverse of c0 times a forward function. -/
def resistance (curve : Nat) (forward : Int → Int) (scale : Int) (lo hi : Int) (c0 x : Fl) : Curved :=
  bounded (invert curve (fun k => atMost (forward k) c0 x scale) lo hi x) lo hi

/-- 2·artanh(p/q) in units of 2^-192, for 0 ≤ p/q ≤ 1/3: the terms of the series from 2·z^i/i on. -/
def artanhFrom (zz : Nat) : Nat → Nat → Nat → Nat
  | 0, _, _ => 0
  | n + 1, z, i => 2 * z / i + artanhFrom zz n (z * zz / 2 ^ 192) (i + 2)
def artanh2 (p q : Nat) : Nat := let z := p * 2 ^ 192 / q; artanhFrom (z * z / 2 ^ 192) 64 z 1

/-- A polynomial at t by Horner's rule in binary64, its coefficients, lowest first, as decimals num/10^k. -/
def polynomial (t : Fl) : List (Int × Nat) → Fl
  | [] => .fin false 0 0
  | c :: cs => Fl.add (Fl.dec c.1 c.2) (Fl.mul t (polynomial t cs))

/-- The terms of e^x from x^n/n! on, x and the sum in units of 2^-192. -/
def expFrom (x : Nat) : Nat → Nat → Nat → Nat
  | 0, _, _ => 0
  | fuel + 1, z, n => z + expFrom x fuel (z * x / 2 ^ 192 / (n + 1)) (n + 1)
/-- e^−x for a number x that is not negative, in binary64: with x = k·ln 2 + r it is 2^−k / e^r. -/
def expNeg (x : Fl) : Fl := match x with
  | .fin _ m e =>
    let a := if 0 ≤ e + 192 then m * 2 ^ (e + 192).toNat else m / 2 ^ (-(e + 192)).toNat
    let ln2 := artanh2 1 3
    Fl.to64 (.fin false (2 ^ 384 / expFrom (a % ln2) 64 (2 ^ 192) 0) (-192 - (a / ln2 : Nat)))
  | _ => .nan

/-- The reference functions of IEC 60584 in volts, by ranges of t in °C: type T (curve 5), K (6) and J (7) (log 27). -/
def tcCoefs (curve : Nat) (negative high : Bool) : List (Int × Nat) := match curve with
  | 5 => if negative then
      [(0, 0), (387481063640, 16), (441944343470, 19), (118443231050, 21), (200329735540, 22), (901380195590, 24), (226511565930, 25), (360711542050, 27),
       (384939398830, 29), (282135219250, 31), (142515947790, 33), (487686622860, 36), (107955392700, 38), (139450270620, 41), (797951539270, 45)]
    else
      [(0, 0), (387481063640, 16), (332922278800, 19), (206182434040, 21), (-218822568460, 23), (109968809280, 25), (-308157587720, 28),
       (454791352900, 31), (-275129016730, 34)]
  | 6 => if negative then
      [(0, 0), (394501280250, 16), (236223735980, 19), (-328589067840, 21), (-499048287770, 23), (-675090591730, 25), (-574103274280, 27),
       (-310888728940, 29), (-104516093650, 31), (-198892668780, 34), (-163226974860, 37)]
    else
      [(-176004136860, 16), (389212049750, 16), (185587700320, 19), (-994575928740, 22), (318409457190, 24), (-560728448890, 27), (560750590590, 30),
       (-320207200030, 33), (971511471520, 37), (-121047212750, 40)]
  | _ => if high then
      [(296456256810, 12), (-149761277860, 14), (317871039240, 17), (-318476867010, 20), (157208190040, 23), (-306913690560, 27)]
    else
      [(0, 0), (503811878150, 16), (304758369300, 19), (-856810657200, 22), (132281952950, 24), (-170529583370, 27), (209480906970, 30),
       (-125383953360, 33), (156317256970, 37)]

/-- The temperatures over which a reference function is given. -/
def tcRange (curve : Nat) : Int × Int := match curve with
  | 5 => (-270, 400)
  | 6 => (-270, 1372)
  | _ => (-210, 1200)

/-- The exponential term of type K from 0 °C on: 0.1185976 mV times e^(−0.0001183432·(t − 126.9686)²). -/
def tcExponential (t : Fl) : Fl :=
  let d := Fl.sub t (Fl.dec 1269686 4)
  Fl.mul (Fl.dec 1185976 10) (expNeg (Fl.mul (Fl.dec 1183432 10) (Fl.mul d d)))

/-- The reference function of a thermocouple type at a temperature, in binary64; outside its range IEC 60584 gives no value, and one is left free (log 27). -/
def tcVolt (curve : Nat) (t : Fl) : Fl :=
  let r := tcRange curve
  if !(Fl.le (Fl.ofInt r.1) t && Fl.le t (Fl.ofInt r.2)) then (match t with
    | .nan => .nan
    | t => Fl.to64 (Fl.of64 (Config.tcVoltage curve (Fl.bits64 t))))
  else
    let negative := Fl.lt t (.fin false 0 0)
    let v := polynomial t (tcCoefs curve negative (Fl.le (Fl.ofInt 760) t))
    if curve = 6 && !negative then Fl.add v (tcExponential t) else v

/-- A thermocouple's temperature from its voltage and its cold junction's temperature: the reference function at the junction is added and the sum
inverted (Table 3-13) (log 27). -/
def thermocouple (curve : Nat) (lo hi : Int) (x ref : Fl) : Curved :=
  let v := Fl.add x (tcVolt curve ref)
  let at_ := fun (k : Int) => tcVolt curve (Fl.to64 (.fin (decide (k < 0)) k.natAbs (-20)))
  bounded (invert curve (fun k => if hi * 2 ^ 20 < k then Fl.lt (at_ (hi * 2 ^ 20)) v else Fl.le (at_ k) v) lo hi v) lo hi

/-- The natural logarithm of a positive number in binary64 (Table 3-13 curve 4), with the relative error its evaluation may leave (log 26). -/
def lnFl (x : Fl) : Fl := match x with
  | .fin false m e =>
    let k := Fl.size m - 1
    let v : Int := (k + e) * (artanh2 1 3 : Nat) + (artanh2 (m - 2 ^ k) (m + 2 ^ k) : Nat)
    let v := v * 2 ^ 60 + v * clampInt (-128) 128 (Config.lnError (Fl.bits64 x))
    Fl.to64 (.fin (decide (v < 0)) v.natAbs (-252))
  | .inf false => .inf false
  | _ => .nan

/-- A curve over its base quantity and its reference quantity (Table 3-13); curve 12 has its own entry (log 26, log 29, log 30). -/
def State.curve (s : State) (n curve : Nat) (x ref : Fl) : Curved :=
  let c := s.coef n
  let one := Fl.ofNat 1
  match curve with
  | 0 => .value x
  | 1 => resistance 1 cvdForward (10 ^ 15 * 2 ^ 80) (-200) 850 (c 0) x
  | 2 => resistance 2 cvdForward (10 ^ 15 * 2 ^ 80) (-200) 850 (c 0) x
  | 3 => resistance 3 nickelForward (10 ^ 20 * 2 ^ 120) (-60) 180 (c 0) x
  | 4 =>
    if Fl.le x (.fin false 0 0) then .fault
    else
      let l := lnFl x
      let inv := Fl.add (Fl.add (c 0) (Fl.mul (c 1) l)) (Fl.mul (c 2) (Fl.mul (Fl.mul l l) l))
      if Fl.le inv (.fin false 0 0) then .fault
      else within (Fl.ofInt (-55)) (Fl.ofInt 150) (Fl.sub (Fl.div one inv) (Fl.dec 27315 2))
  | 5 => thermocouple 5 (-200) 400 x ref
  | 6 => thermocouple 6 (-200) 1372 x ref
  | 7 => thermocouple 7 (-210) 1200 x ref
  | 8 =>
    let vr := Fl.sub (Fl.div x ref) (c 1)
    let top := Fl.mul (Fl.mul (Fl.ofInt (-4)) vr) (Fl.add one (c 2))
    within strainBound.neg strainBound (Fl.mul (Fl.div top (Fl.mul (c 0) (Fl.add one (Fl.mul (Fl.ofNat 2) vr)))) million)
  | 9 =>
    let vr := Fl.sub (Fl.div x ref) (c 1)
    within strainBound.neg strainBound (Fl.mul (Fl.div (Fl.mul (Fl.mul (Fl.ofInt (-2)) vr) (Fl.add one (c 2))) (c 0)) million)
  | 10 =>
    let vr := Fl.sub (Fl.div x ref) (c 1)
    within strainBound.neg strainBound (Fl.mul (Fl.div (Fl.mul vr.neg (Fl.add one (c 2))) (c 0)) million)
  | 11 =>
    let y := Fl.add (c 0) (Fl.div (Fl.mul (Fl.sub (c 1) (c 0)) (Fl.sub x (Fl.dec 4 3))) (Fl.dec 16 3))
    let rising := Fl.le (c 0) (c 1)
    if Fl.lt x (Fl.dec 36 4) then (if rising then .below else .above)
    else if Fl.lt (Fl.dec 21 3) x then (if rising then .above else .below)
    else .value y
  | _ => .value ((List.range 8).foldl (fun (r : Fl × Fl) i => (Fl.add r.1 (Fl.mul (c i) r.2), Fl.mul r.2 x)) (.fin false 0 0, one)).1
/-- Curve 12 over a frequency and a gauge temperature, if any (Table 3-13). -/
def State.curve12 (s : State) (n : Nat) (x : Fl) (temp : Option Fl) : Curved :=
  let c := s.coef n
  let y := Fl.mul (c 0) (Fl.sub (Fl.mul x x) (c 1))
  let y := match temp with
    | some t => Fl.add y (Fl.mul (c 2) (Fl.sub t (c 3)))
    | none => y
  within strainBound.neg strainBound y

/-! ### Special values (Table 3-14) -/

def nan0 : Word := 0x7FC00000
def nan1 : Word := 0x7FC00001
def nan2 : Word := 0x7FC00002
def posInf : Word := 0x7F800000
def negInf : Word := 0xFF800000

/-- The newest linearised value of a reference input at or before an instant. -/
def State.refValue (s : State) (r t : Nat) : Option LinValue := (s.input r).lins.find? (fun l => decide (l.instant ≤ t))

/-- A reference input is usable at an instant: not OFF, not BROKEN, its word without OVR (Table 3-14) (log 31). -/
def State.refUsable (s : State) (r t : Nat) : Option Fl :=
  let st := s.rdN (P.FE_IN_STATE r)
  if st = 0 || st = 5 then none
  else match s.refValue r t with
    | some l => if l.ovr then none else some (Fl.of32 l.value)
    | none => none

/-- A curve's outcome as a binary32 value, with the bit of FE_IN_STATUS it sets. -/
def ofCurved : Curved → Word × Option Nat
  | .fault => (posInf, some 8)
  | .below => (negInf, some 8)
  | .above => (posInf, some 8)
  | .value .nan => (nan2, some 8)
  | .value y => match Fl.to32 y with
    | .inf neg => (if neg then negInf else posInf, some 8)
    | z => (Fl.bits32 z, none)

/-- The curve that applies to sample values: curve 12 applies to the frequency only (R106). -/
def sampleCurve (c : Nat) : Nat := if c = 12 then 0 else c

/-- The linearised value of an output word without STL (R104 to R107; log 31). -/
def State.linearise (s : State) (n : Nat) (v : Int) (ovr wbk : Bool) (t : Nat) : Word × Option Nat :=
  let curve := sampleCurve (s.rdN (P.FE_LIN_CURVE n))
  let needs := decide (5 ≤ curve) && decide (curve ≤ 10)
  let ref := if needs then s.refUsable (s.rdN (P.FE_LIN_REF n)) t else some (.fin false 0 0)
  let mode3 := s.rdN (P.FE_IN_MODE n) == 3 && s.rdN (P.FE_EXC_CURRENT (s.rdN (P.FE_IN_EXC n))) == 0
  if wbk then (nan0, none)
  else if ovr then (if 0 ≤ v then posInf else negInf, none)
  else if mode3 then (nan1, some 9)
  else match ref with
    | none => (nan1, some 9)
    | some r =>
      if decide (8 ≤ curve) && needs && Fl.le r (.fin false 0 0) then (nan1, some 9)
      else ofCurved (s.curve n curve (s.baseX n v) r)

end Sys2Proof.Machine
end

