-- ==== Sys2Proof/Machine/CalCore.lean ====
section
/-! DEFINITION. What a conversion and a stopping group do to a running calibration (R424, R432, Table 13-10). -/

namespace Sys2Proof.Machine

/-! ### The engine (R429, Table 13-5) -/

def calIdle : Nat := 0
def calHolding : Nat := 1
def calMeasuring : Nat := 2
def calChecking : Nat := 3
def calStoring : Nat := 4

def State.calStateOf (s : State) : Nat := s.rdN P.CAL_STATE
def State.setCal (s : State) (x : CalState) : State := { s with cal := x }
def State.setCalRun (s : State) (r : CalRun) : State := { s with cal := { s.cal with run := some r } }

/-- A run with one of its inputs changed. -/
def CalRun.mapInput (r : CalRun) (n : Nat) (f : CalInput → CalInput) : CalRun :=
  { r with inputs := r.inputs.map (fun x => if x.input = n then f x else x) }

/-- The over-range decision of R128 on a raw code and its corrected value: the value that goes on, and OVR. -/
def overRange (raw : Nat) (x : Int) : Int × Bool :=
  let top : Int := 32767 * 256
  let bottom : Int := -32768 * 256
  if raw = 4095 then (top, true)
  else if raw = 0 then (bottom, true)
  else if 8388480 ≤ x then (top, true)
  else if x ≤ -8388736 then (bottom, true)
  else (x, false)

/-! ### Points (R424, R432) -/

/-- An input takes part in a point by its conversions. -/
def CalInput.takes (x : CalInput) : CalPoint → Bool
  | .analogue _ j _ => x.named && decide (j < x.ks.length) && !x.skipped && !x.aborted
  | .shunt _ => !x.skipped && !x.aborted
  | _ => false

/-- A finite binary32 value in units of 2^-149. -/
def scaled149 (w : Word) : Option Int := match Fl.of32 w with
  | .fin neg m e => let v : Int := (m * 2 ^ (e + 149).toNat : Nat); some (if neg then -v else v)
  | _ => none

/-- The linearised value of one conversion of a shunted bridge, under the parameters in force at S (R54; log 66). -/
def State.shuntValue (s : State) (par : List (Nat × Word)) (n raw instant : Nat) : Option Int :=
  let view : State := { s with par }
  let (v, ovr) := overRange raw (view.corrected n raw)
  scaled149 (view.linearise n v ovr false instant).1

/-- A sum with one more conversion, d being its code (R127). -/
def CalSum.add (x : CalSum) (d : Int) (lin : Option Int) : CalSum :=
  { sum := x.sum + d, squares := x.squares + d.natAbs * d.natAbs, count := x.count + 1
    lin := match x.lin, lin with
      | some a, some b => some (a + b)
      | _, _ => none }

/-- A conversion of an input under calibration counts for the point in progress once CAL_POINT_SETTLE has passed (R424; log 32). -/
def State.calSample (s : State) (n start instant raw : Nat) : State := match s.cal.run with
  | none => s
  | some r =>
    match r.todo, r.inputs.find? (fun x => x.input == n) with
    | pt :: _, some x =>
      if s.calStateOf ≠ calMeasuring || !x.takes pt || start < r.pointFrom + 1000 * s.rdN P.CAL_POINT_SETTLE || s.rdN P.CAL_SAMPLES ≤ x.now.count then s
      else
        let lin := match pt with
          | .shunt _ => s.shuntValue r.par n raw instant
          | _ => some 0
        s.setCalRun (r.mapInput n (fun x => { x with now := x.now.add (((raw : Int) - 2048) * 16) lin }))
    | _, _ => s

/-- The sources of a die among those selected. -/
def onDie (fe : Nat) (ks : List Nat) : List Nat := ks.filter (fun k => k / 16 == fe)

/-- A source is steered onto the reference resistor: from its first point until the release instant (R427). -/
def State.calSteers (s : State) (k : Nat) : Bool := match s.cal.run with
  | none => false
  | some r =>
    let ordinal := (onDie (k / 16) (r.sources.map (·.source))).idxOf k
    r.sources.any (fun x => x.source == k) &&
      (s.calStateOf == calChecking || (s.calStateOf == calMeasuring && !(r.todo.drop 1).contains (.source 0 ordinal)))

/-- A group that enters STOPPED or FAULT leaves its inputs SKIPPED (Table 13-10). -/
def State.calSkipGroup (s : State) (g : Nat) : State := match s.cal.run with
  | none => s
  | some r =>
    if s.calStateOf = calHolding || s.calStateOf = calMeasuring || s.calStateOf = calChecking then
      s.setCalRun { r with inputs := r.inputs.map (fun x => if x.input / 4 = g then { x with skipped := true } else x) }
    else s

end Sys2Proof.Machine
end

