-- ==== Sys2Proof/Machine/Grid.lean ====
section
/-! DEFINITION. The conversion grid of a group (R113 to R118, R125), pre-trigger rings (R279 to R281) and windrow sums (R227, R228). -/

namespace Sys2Proof.Machine

/-! ### The grid -/

/-- Conversion time and acquisition time of a group, in ns (Table 4-1). -/
def State.convTime (s : State) (g : Nat) : Nat := if s.rdN (P.ADC_LP g) = 1 then 1000 else 125
def State.acqTime (s : State) (g : Nat) : Nat := if s.rdN (P.ADC_LP g) = 1 then 200 else 25

/-- An input is enabled by its mode and its group's scan mask. -/
def State.configured (s : State) (n : Nat) : Bool := s.bit (P.ADC_SCAN_MASK (n / 4)) (n % 4) && s.rdN (P.FE_IN_MODE n) != 0

/-- The scan set of a group, in ascending order (R115); an input held for calibration stays in it until its release (R54, Table 13-10; log 70). -/
def State.scanSet (s : State) (g : Nat) : List Nat :=
  ([4 * g, 4 * g + 1, 4 * g + 2, 4 * g + 3]).filter (fun n => s.configured n || (s.input n).holds.contains 0)

/-- A member's slot (R116). -/
def State.memberSlot (s : State) (g e : Nat) : Nat := 20 + s.rdN (P.ADC_SETTLE e) + s.convTime g

/-- The scan cycle C, 0 for an empty scan set (R116, R118). -/
def State.scanCycle (s : State) (g : Nat) : Nat := match s.scanSet g with
  | [] => 0
  | [_] => s.convTime g
  | es => (es.map (s.memberSlot g)).sum

/-- The start of member n after S0 (R117). -/
def offsetIn (slot : Nat → Nat) (n : Nat) : List Nat → Nat
  | [] => 0
  | [_] => 0
  | e :: f :: es => if e = n then 0 else slot f + offsetIn slot n (f :: es)
def State.memberOffset (s : State) (g n : Nat) : Nat := offsetIn (s.memberSlot g) n (s.scanSet g)

/-- The first S0 at or after an instant (R117). -/
def State.firstS0 (s : State) (g t : Nat) : Nat :=
  let c := s.scanCycle g
  let ph := s.rdN (P.ADC_PHASE g)
  if c = 0 then t else if t ≤ ph then ph else ph + ceilDiv (t - ph) c * c

/-- The settle time of the lowest member that precedes S0 (R120). -/
def State.leadIn (s : State) (g : Nat) : Nat := match s.scanSet g with
  | [] => 0
  | [_] => 20
  | e :: _ => 20 + s.rdN (P.ADC_SETTLE e)

/-- The throttle divisor that governs a cycle with a given S0 (R125). -/
def State.throttleAt (s : State) (g s0 : Nat) : Nat :=
  if s.rdN (P.ADC_THR_ELIG g) = 0 then 1
  else match Sparse.find? s.fe.thr (g / 32) with
    | some (from_, old) => if s0 < from_ then old else s.rdN (P.ADC_THR_DIV (g / 32))
    | none => s.rdN (P.ADC_THR_DIV (g / 32))

/-- Scan cycle k of an S0 is converted (R125). -/
def State.cycleRuns (s : State) (g s0 : Nat) : Bool :=
  let c := s.scanCycle g
  c != 0 && (s0 - s.rdN (P.ADC_PHASE g)) / c % max 1 (s.throttleAt g s0) == 0

def State.group (s : State) (g : Nat) : GroupState := Sparse.get {} s.fe.groups g
def State.setGroup (s : State) (g : Nat) (x : GroupState) : State := { s with fe := { s.fe with groups := Sparse.set {} s.fe.groups g x } }

/-- The next cycle to judge begins at an S0 (R117, R125). -/
def State.nextCycle (s : State) (g s0 : Nat) : State :=
  s.setGroup g { s.group g with next := (s.scanSet g).head?.map (fun n => (n, s0)) }

/-- The first S0 from one on whose cycle a test does not skip; of 64 at most, far beyond what divisors up to 8 skip. -/
def firstCycle (skips : Nat → Bool) (c : Nat) : Nat → Nat → Nat
  | 0, s0 => s0
  | n + 1, s0 => if skips s0 then firstCycle skips c n (s0 + c) else s0

/-- The conversion of a group that comes next, skipped cycles passed over (R125): each is judged by the divisor in force at its S0. -/
def State.nextRun (s : State) (g : Nat) : Option (Nat × Nat) := match (s.group g).next with
  | none => none
  | some (n, start) =>
    if some n = (s.scanSet g).head? then some (n, firstCycle (fun s0 => !s.cycleRuns g s0) (s.scanCycle g) 64 start) else some (n, start)

/-- The S0 of the first cycle that is not skipped or does not begin before an instant. -/
def State.reached (s : State) (g start t : Nat) : Nat :=
  firstCycle (fun s0 => decide (s0 < t) && !s.cycleRuns g s0) (s.scanCycle g) 64 start

/-- A cycle of a scanning group that begins before an instant is skipped and not yet shown: ADC_GRP_STATUS[4] is due (R125). -/
def State.skipDue (s : State) (g t : Nat) : Bool := match (s.group g).next with
  | some (n, start) => some n == (s.scanSet g).head? && s.reached g start t != start
  | none => false

/-- Skipped cycles that begin before an instant are shown, and done with. -/
def State.noteSkip (s : State) (g t : Nat) : State :=
  if !s.skipDue g t then s
  else match (s.group g).next with
    | some (n, start) =>
      (s.setGroup g { s.group g with next := some (n, s.reached g start t) }).wrN (P.ADC_GRP_STATUS g) (s.rdN (P.ADC_GRP_STATUS g) ||| 16)
    | none => s

/-- The member after a member in its scan set. -/
def memberAfter (n : Nat) : List Nat → Option Nat
  | [] => none
  | e :: es => if e = n then es.head? else memberAfter n es

/-- The conversion that follows one of member n that started at an instant (R116, R117). -/
def State.advance (s : State) (g n start : Nat) : State :=
  match memberAfter n (s.scanSet g) with
  | some m => s.setGroup g { s.group g with next := some (m, start + s.memberSlot g m) }
  | none => s.nextCycle g (start - s.memberOffset g n + s.scanCycle g)

/-- An instant in ns is a sampling instant of input n on the grid in force, in a cycle that is not skipped. -/
def State.onGrid (s : State) (n t : Nat) : Bool :=
  let g := n / 4
  let lead := s.memberOffset g n + s.acqTime g + s.rdN (P.ADC_PHASE g)
  (s.scanSet g).contains n && decide (lead ≤ t) && (t - lead) % s.scanCycle g == 0
    && s.cycleRuns g (t - s.memberOffset g n - s.acqTime g)

/-- The reversal half H of an input's source in ns, 0 when it does not reverse (R82, R83). -/
def State.revHalf (s : State) (n : Nat) : Nat :=
  let k := s.rdN (P.FE_IN_EXC n)
  if k < 64 then 500 * s.rdN (P.FE_EXC_REV_PERIOD k) else 0

/-- The output spacing of an input (R246): the pairing period, d × C, or C. -/
def State.spacing (s : State) (n s0 : Nat) : Nat :=
  let h := s.revHalf n
  if h ≠ 0 then 2 * h else max 1 (s.throttleAt (n / 4) s0) * s.scanCycle (n / 4)

/-! ### Pre-trigger rings (R279 to R281) -/

/-- The ring plot of a group. -/
def State.ringPlot (s : State) (g : Nat) : Option Plot := s.mem.plots.find? (fun p => p.kind == 1 && p.weights.any (fun w => w.1 == g))

/-- Segments of a group with a weight in a ring plot (R279). -/
def plotSegments (p : Plot) (w : Nat) : Nat := p.size * 1048576 / 320 * w / (p.weights.map (·.2)).sum
def segmentsOf (p : Plot) (g : Nat) : Nat := match p.weights.find? (fun w => w.1 == g) with
  | some w => plotSegments p w.2
  | none => 0

/-- Segments of the groups listed before a group: its ring follows theirs (log 9). -/
def segmentsBefore (p : Plot) (g : Nat) : List (Nat × Nat) → Nat
  | [] => 0
  | w :: ws => if w.1 = g then 0 else plotSegments p w.2 + segmentsBefore p g ws

/-- Words a group's ring holds, and its depth D in ns (R281). -/
def State.ringWords (s : State) (g : Nat) : Nat := match s.ringPlot g with
  | some p => 128 * segmentsOf p g
  | none => 0
def State.ringDepth (s : State) (g : Nat) : Nat :=
  let n := (s.scanSet g).length
  if n = 0 then 0 else s.ringWords g * s.scanCycle g / n

/-- The byte address of a segment of a group's ring. -/
def State.segmentAt (s : State) (g k : Nat) : Nat := match s.ringPlot g with
  | some p => 1048576 * p.base + 320 * (segmentsBefore p g p.weights + k)
  | none => 0

def State.ring (s : State) (g : Nat) : Ring := Sparse.get {} s.mem.rings g
def State.setRingOf (s : State) (g : Nat) (x : Ring) : State := { s with mem := { s.mem with rings := Sparse.set {} s.mem.rings g x } }

/-- A 20-bit word stored at bits [20i + 19:20i] of a segment. -/
def store20 (m : List (Nat × Byte)) (seg i w : Nat) : List (Nat × Byte) :=
  let a := seg + 20 * i / 8
  let old := leNat (readBytes m a 3)
  let sh := 2 ^ (20 * i % 8)
  let new := old - old / sh % 1048576 * sh + w % 1048576 * sh
  writeBytes m a (leBytes 3 new)
def load20 (bs : List Byte) (i : Nat) : Nat := leNat bs / 2 ^ (20 * i % 8) % 1048576

def grpCapStopped : Nat := 0
def grpCapArmed : Nat := 1
def grpCapDisarmed : Nat := 2

def State.capState (s : State) (g : Nat) : Nat := s.rdN (P.TRG_GRP_STATE g)
def State.run (s : State) (g : Nat) : GroupRun := Sparse.get {} s.trg.groups g

/-- GROUPS of a command's first four words (Tables 7-5, 7-8). -/
def namesGroup (p : List Word) (g : Nat) : Bool := bitOf (word p (g / 32)) (g % 32)

/-- What a local event that waits for its trigger step makes of a group: started or STOPPED, from an instant (R222, R504). -/
def acqOf (g : Nat) : LocalEvent → Option (Bool × Nat)
  | .acq _ op p a => if !namesGroup p g then none else if op = 0x20 then some (true, a) else if op = 0x21 then some (false, a) else none
  | .stop a => some (false, a)
  | _ => none

/-- The latest such event that waits, of those up to an instant. -/
def State.lastAcq (s : State) (g t : Nat) : Option (Bool × Nat) :=
  s.trg.events.foldl (fun best e => match acqOf g e, best with
    | some x, none => if x.2 ≤ t then some x else none
    | some x, some y => if x.2 ≤ t && y.2 ≤ x.2 then some x else some y
    | none, y => y) none

/-- A group was not STOPPED at an instant, as far as trigger steps have come. -/
def State.ranAt (s : State) (g t : Nat) : Bool :=
  let x := s.run g
  (s.capState g != grpCapStopped || decide (t < x.stoppedAt)) && decide (x.recordFrom ≤ t)

/-- A group is not STOPPED at an instant, the commands that have still to come to their trigger step counted in (R215, R222). -/
def State.startedAt (s : State) (g t : Nat) : Bool := match s.lastAcq g t with
  | some x => x.1
  | none => s.ranAt g t

/-- A group records a word of an instant: it is not STOPPED, its trigger step is still to come, or captures open at ACQ.STOP run on (R215, R222). -/
def State.recording (s : State) (g instant : Nat) : Bool :=
  let x := s.run g
  s.startedAt g instant || s.ranAt g instant || (match x.stopAfter with
    | some e => decide (instant < e) && decide (x.recordFrom ≤ instant)
    | none => false)

/-- A group recorded when a step of the time base came, at an instant of the old time. -/
def State.recordedBefore (s : State) (g t : Nat) : Bool := s.ranAt g t || ((s.run g).stopAfter.isSome && decide ((s.run g).recordFrom ≤ t))

/-- A word sampled before the latest step of the time base joins the captures that the step has found (R233; log 50). -/
def State.cutWord (s : State) (n t word spacing : Nat) : State :=
  let add := fun (c : Capture) =>
    if c.cut.isSome && c.groups.any (fun g => g.inputs.any (fun x => x.input == n) && decide (c.instant - g.pre ≤ t) && decide (t < c.instant + g.post)) then
      let part : FurrowPart := Sparse.get {} c.furrows n
      { c with furrows := Sparse.set {} c.furrows n { part with samples := part.samples ++ [{ at_ := { input := n, instant := t, pos := 0, spacing }, word }] } }
    else c
  { s with trg := { s.trg with captures := s.trg.captures.map add } }

/-- A word enters the ring of its group (R279, R280); a completed segment has been written in whole lines (R294).  One that was sampled before a
backward step of the time base, at an instant the new time has again, is not held. -/
def State.ringWrite (s : State) (n t word spacing : Nat) : State :=
  let g := n / 4
  let cap := s.ringWords g
  let old := s.beforeStep t
  let instant := s.recordInstant t
  let s := if old then s.cutWord n instant word spacing else s
  if cap = 0 || !(if old then s.recordedBefore g instant else s.recording g instant) || (old && decide (s.tb.stepped ≤ instant + 1)) then s
  else
    let r := s.ring g
    let seg := s.segmentAt g (r.next / 128)
    let s := { s with mem := { s.mem with gran := store20 s.mem.gran seg (r.next % 128) word } }.alikeLines (seg + 20 * (r.next % 128) / 8) 3
    let s := if r.next % 128 = 127 then
        (List.range 5).foldl (fun s i => (s.setLineError 0 (seg / 64 + i) {}).setLineError 1 (seg / 64 + i) {}) ((s.countIn 0 6 1 5).countIn 1 6 1 5)
      else s
    let stepped := r.fresh.contains n && !old
    let from_ := match r.words with
      | w :: _ => if old then w.gridFrom else (s.group g).gridFrom
      | [] => (s.group g).gridFrom
    let held := r.words.filter (fun w => !(w.input == n && w.instant == instant))
    let word : RingWord := { input := n, instant, pos := r.next, spacing, stepped, gridFrom := from_ }
    let gone := held.drop (cap - 1)
    s.setRingOf g { next := (r.next + 1) % cap, fresh := if old then r.fresh else r.fresh.filter (fun m => m != n), words := word :: held.take (cap - 1)
                    lost := gone.foldl (fun a w => max a (w.instant + 1)) r.lost }

/-- An open capture of a group wants a word of an instant. -/
def State.wanted (s : State) (g t : Nat) : Bool := s.trg.captures.any (fun c => c.cut.isNone &&
  c.groups.any (fun x => x.group == g && decide (c.instant - x.pre ≤ t) && decide (t < c.instant + x.post)))

/-- The ring of a group that leaves STOPPED at an instant starts afresh there (R280); the words its open captures have still to copy stay. -/
def State.restartRing (s : State) (g at_ : Nat) : State :=
  let r := s.ring g
  (s.setRingOf g { r with words := r.words.filter (fun w => decide (at_ ≤ w.instant) || s.wanted g w.instant) }).setBit P.GRN_STATUS 3

/-! ### Windrow sums (R227, R228) -/

/-- The reduced value of a word (R228): its linearised value, or CODE times the code scale. -/
def State.reduced (s : State) (n word : Nat) (lin : Word) : Fl :=
  if s.rdN (P.FE_LIN_CURVE n) ≠ 0 then Fl.of32 lin else s.voltage n (256 * wordCode word)

/-- A word is excluded from the windrows: STL, WBK, OVR, or a value that is not finite (R228). -/
def windrowExcludes (word : Nat) (v : Fl) : Bool := bitOf word 0 || bitOf word 2 || bitOf word 3 || !v.isFinite

/-- A windrow sum with a word added. -/
def WindrowSum.add (x : WindrowSum) (word : Nat) (v : Fl) : WindrowSum :=
  if windrowExcludes word v then { x with excluded := true }
  else { x with values := x.values ++ [Fl.bits64 v], settling := x.settling || bitOf word 1 }

/-- The intervals of a period with the one an instant of the time in force lies in. -/
def windrowFor (ws : List Windrow) (d t : Nat) : List Windrow :=
  if ws.any (fun w => !w.old && decide (w.from_ ≤ t) && decide (t < w.to_)) then ws else ws ++ [{ from_ := t / d * d, to_ := t / d * d + d }]

/-- Input n contributes to period j at an instant (R227); one sampled before a step of the time base, to an interval that the step has found. -/
def State.contributes (s : State) (n t j : Nat) : Bool :=
  let view := s.viewAt t
  let old := s.beforeStep t
  let instant := s.recordInstant t
  view.rdN (P.TRG_WR_PERIOD j) != 0 && view.bit (P.TRG_WR_EN n) j && (if old then s.ranAt (n / 4) instant else s.startedAt (n / 4) instant)
    && (old || decide (Sparse.get 0 s.trg.wrDone j ≤ instant))

/-- A word enters period j (log 82). -/
def State.windrowAdd (s : State) (n t word : Nat) (v : Fl) (j : Nat) : State :=
  let d := 1000 * (s.viewAt t).rdN (P.TRG_WR_PERIOD j)
  let old := s.beforeStep t
  let instant := s.recordInstant t
  if !s.contributes n t j then s
  else
    let ws : List Windrow := Sparse.get [] s.trg.windrows j
    let ws := if old then ws else windrowFor ws d instant
    let upd := fun (w : Windrow) => { w with sums := Sparse.set {} w.sums n ((Sparse.get {} w.sums n : WindrowSum).add word v) }
    let ws := ws.map (fun w => if w.old == old && w.from_ ≤ instant && instant < w.to_ then upd w else w)
    { s with trg := { s.trg with windrows := Sparse.set [] s.trg.windrows j ws } }

/-- A word enters the windrows of its input; an excluded one is counted once (R228). -/
def State.windrowWord (s : State) (n t word : Nat) (v : Fl) : State :=
  let counts := windrowExcludes word v && [0, 1, 2].any (s.contributes n t)
  let s := [0, 1, 2].foldl (fun s j => s.windrowAdd n t word v j) s
  if counts then s.addSat (P.TRG_WR_EXCL n) 1 else s

end Sys2Proof.Machine
end

