-- ==== Sys2Proof/Machine/FeCore.lean ====
section
/-! DEFINITION. Input states and SET windows (R86, R98), holds and stops (R119, R124), and output words of the front ends (R70, R83, R99, R129). -/

namespace Sys2Proof.Machine

/-! ### Input states (Table 3-8) -/

def inOff : Nat := 0
def inSettling : Nat := 1
def inValid : Nat := 2
def inSuspect : Nat := 3
def inConfirming : Nat := 4
def inBroken : Nat := 5
def inHeld : Nat := 6

def State.inState (s : State) (n : Nat) : Nat := s.rdN (P.FE_IN_STATE n)

/-- An input has left its scan set while its last conversion completes under the old settings (R120). -/
def State.leaves (s : State) (n : Nat) : Bool := match (s.group (n / 4)).leaving with
  | some x => x.1 == n
  | none => false

/-- Whether a state is one whose stamps carry SET: SETTLING or CONFIRMING (R143). -/
def settles (st : Nat) : Bool := st == inSettling || st == inConfirming

/-- An input enters a state: primitives clear on SETTLING from OFF, BROKEN or HELD (R201), the filter is empty from OFF on (R87), a confirmation
left is abandoned (Table 3-8), and the comparator follows (R138) unless the input has left its scan set. -/
def State.setInState (s : State) (n st : Nat) : State :=
  let old := s.inState n
  let s := s.wrN (P.FE_IN_STATE n) st
  let x := s.input n
  let s := s.setInput n { x with confTo := if old = inConfirming then min x.confTo s.now else x.confTo
                                 settle := if settles st then x.settle.begin s.time true else x.settle.end_ s.time }
  let s := if st = inSettling && (old = inOff || old = inBroken || old = inHeld) then (s.clearPrim n 0).clearPrim n 1 else s
  let s := if st = inOff then s.setInput n { s.input n with filter := [], fwd := none, rev := none, setLeft := 0, holds := [], sweep := none } else s
  if s.leaves n then s else s.refreshCmp n 5

/-- A SET window opens, or its count restarts, at an instant (R86); a confirmation that runs is over (Table 3-8). -/
def State.openWindow (s : State) (n t : Nat) : State :=
  let x := s.input n
  s.setInput n { x with setWas := x.setLeft != 0 || x.sweep.isSome, setLeft := s.rdN (P.FE_SET_COUNT n), setFrom := t
                        confTo := if s.inState n = inConfirming then min x.confTo t else x.confTo }

/-- An event of Table 3-4 reaches an input. -/
def State.setEvent (s : State) (n t : Nat) : State :=
  let st := s.inState n
  if st = inOff || st = inBroken || st = inHeld then s else (s.openWindow n t).setInState n inSettling

/-- An input starts to produce samples: mode not 0 and enabled in the scan mask. -/
def State.enableInput (s : State) (n t : Nat) : State := if s.inState n = inOff then (s.openWindow n t).setInState n inSettling else s

/-- A hold for a reason: 0 calibration, 1 low temperature, 2 VAN, 3 orderly stop. -/
def State.holdInput (s : State) (n reason : Nat) : State :=
  let st := s.inState n
  let x := s.input n
  if st = inOff then s
  else
    let s := s.setInput n { x with holds := if x.holds.contains reason then x.holds else x.holds ++ [reason]
                                   heldBroken := if st = inHeld then x.heldBroken else st == inBroken }
    if st = inHeld then s else s.setInState n inHeld

/-- The hold of a reason ends; with the last one the input is released at an instant.  A release into BROKEN resumes the break that was declared
and sets no FE_IN_STATUS[4], which the spec leaves open (log 108). -/
def State.releaseInput (s : State) (n reason t : Nat) : State :=
  let x := s.input n
  if s.inState n ≠ inHeld || !x.holds.contains reason then s
  else
    let holds := x.holds.filter (fun r => r != reason)
    let s := s.setInput n { x with holds, freed := if reason = 0 || reason = 4 then some s.now else x.freed }
    if !holds.isEmpty then s
    else
      let s := s.setInput n { s.input n with stlSince := none }
      if x.heldBroken then s.setInState n inBroken else (s.openWindow n t).setInState n inSettling

/-! ### Group states (Table 4-3) -/

def grpOff : Nat := 0
def grpAligning : Nat := 1
def grpScanning : Nat := 2
def grpStopped : Nat := 3
def grpFault : Nat := 4

def State.grpState (s : State) (g : Nat) : Nat := s.rdN (P.ADC_GRP_STATE g)
def membersOf (g : Nat) : List Nat := [4 * g, 4 * g + 1, 4 * g + 2, 4 * g + 3]

/-- The conversion a group has in progress: one that completes under the settings before a commit or a step of the time base, or the next of its grid
in a cycle that is converted.  Answers the input, the start, and the state whose parameters it runs under. -/
def State.inProgress (s : State) (g : Nat) : Option (Nat × Nat × State) := match (s.group g).finishing with
  | some (n, start) => some (n, start, { s with par := s.cmd.oldPar })
  | none => if s.grpState g = grpScanning then (s.nextRun g).map (fun (n, start) => (n, start, s)) else none

/-- The conversion in progress of a group has its sampling instant in [a, b), in the time in force or in the one before the latest step of the time base,
and belongs to one of some inputs. -/
def State.samples (s : State) (g : Nat) (old : Bool) (a b : Nat) (among : Nat → Bool) : Bool := match s.inProgress g with
  | some (n, start, view) =>
    let t := start + view.acqTime g
    let instant := s.recordInstant t
    s.beforeStep t == old && decide (a ≤ instant) && decide (instant < b) && among n
  | none => false

/-- A group aligns, its grid in force from an instant, from an instant E (R119, R120): the first S0 at or after E, the discharge step and the lowest member's settle time. -/
def State.align (s : State) (g from_ e : Nat) : State :=
  let s := s.setGroup g { s.group g with next := none, gridFrom := from_, first := s.firstS0 g (e + s.leadIn g) }
  (s.wrN (P.ADC_GRP_STATE g) grpAligning).setBit (P.ADC_GRP_STATUS g) 0

/-- A stop is imposed on a group for a reason; its inputs are HELD.  The conversion in progress is dropped, its sampling instant past or not: the
spec says nothing of it (log 108). -/
def State.stopGroup (s : State) (g reason : Nat) : State :=
  let s := s.noteSkip g s.now
  let x := s.group g
  let st := s.grpState g
  let s := s.setGroup g { x with stops := if x.stops.contains reason then x.stops else x.stops ++ [reason] }
  let s := if st = grpAligning || st = grpScanning then
      (((s.calSkipGroup g).setGroup g { s.group g with next := none, finishing := none, leaving := none }).wrN (P.ADC_GRP_STATE g) grpStopped).setBit
        (P.ADC_GRP_STATUS g) 1
    else s
  (membersOf g).foldl (fun s n => s.holdInput n reason) s

/-- A stop is released at a slot boundary. -/
def State.unstopGroup (s : State) (g reason t : Nat) : State :=
  let x := s.group g
  let stops := x.stops.filter (fun r => r != reason)
  let s := s.setGroup g { x with stops }
  let s := if stops.isEmpty && s.grpState g = grpStopped then
      (if (s.scanSet g).isEmpty then s.wrN (P.ADC_GRP_STATE g) grpOff else s.align g t t)
    else s
  (membersOf g).foldl (fun s n => s.releaseInput n reason t) s

/-- A group enters FAULT (R123); the conversion in progress is dropped (log 108). -/
def State.faultGroup (s : State) (g : Nat) : State :=
  let s := s.noteSkip g s.now
  (((s.calSkipGroup g).setGroup g { s.group g with next := none, finishing := none, leaving := none, fails := 0 }).wrN (P.ADC_GRP_STATE g) grpFault).setBit (P.ADC_GRP_STATUS g) 3

/-- The conversion of a scanning group whose sampling instant lies before an instant in ns: it completes under step 1 of R120. -/
def State.completes (s : State) (g t : Nat) : Option (Nat × Nat) :=
  if s.grpState g = grpScanning then (s.nextRun g).filter (fun c => decide (c.2 + s.acqTime g < t)) else none

/-- A group that aligns under a stop in force goes to STOPPED at once: Table 4-3 gives OFF and FAULT no row for it (log 108). -/
def State.alignUnderStops (s : State) (g from_ e : Nat) : State :=
  let s := s.align g from_ e
  if (s.group g).stops.isEmpty then s else (s.wrN (P.ADC_GRP_STATE g) grpStopped).setBit (P.ADC_GRP_STATUS g) 1

/-- The grid parameters of a group changed at a commit, `old` being the state under the old parameters (R119, R120).  An emptied scan set takes the
group to OFF at E, once the conversion that completes has ended. -/
def State.regrid (s old : State) (g t : Nat) : State :=
  let st := s.grpState g
  let x := s.group g
  let s := s.wrN (P.ADC_GRP_PERIOD g) (s.scanCycle g)
  let finishing := old.completes g t
  let e := match finishing with
    | some (_, start) => max t (start + old.convTime g)
    | none => t
  let s := s.setGroup g { x with next := none, finishing }
  if st = grpStopped then s
  else if (s.scanSet g).isEmpty then (if finishing.isSome then s else s.wrN (P.ADC_GRP_STATE g) grpOff)
  else s.alignUnderStops g t e

/-- Inputs under calibration are released together at an instant; one that a commit has taken out of its scan set meanwhile goes OFF, and its group
changes over (R54, R426). -/
def State.releaseCal (s : State) (inputs : List Nat) (t : Nat) : State :=
  let out := inputs.filter (fun n => s.inState n == inHeld && !s.configured n)
  let s := (inputs.map (· / 4)).foldl (fun s g => s.noteSkip g t) s
  let old := s
  let s := inputs.foldl (fun s n => s.releaseInput n 0 t) s
  let s := out.foldl (fun s n => s.setInState n inOff) s
  ((out.map (· / 4)).eraseDups).foldl (fun s g => s.regrid old g t) s

/-! ### The filter and output words (R70, R71, R99, R129, R130) -/

/-- The mean of the newest 2^m values, rounded ties away from zero, with what they carried. -/
def filterMean (vs : List FiltVal) : FiltVal :=
  { v := divAway ((vs.map (·.v)).sum) (max 1 vs.length), ovr := vs.any (·.ovr), recov := vs.any (·.recov), near := vs.any (·.near) }

/-- An output word (Table 4-6): the code of a value with OVR is clipped by its sign (R129). -/
def sampleWord (v : Int) (ovr stl set wbk : Bool) : Nat :=
  let code := if wbk then 0 else if ovr then (if 0 ≤ v then 32767 else -32768) else clipCode (codeOf v)
  16 * codeBits code + 8 * b2n ovr + 4 * b2n stl + 2 * b2n set + b2n wbk

/-- A value is out of the word's range. -/
def outOfRange (v : Int) : Bool := let c := codeOf v; decide (c < -32768) || decide (32767 < c)

/-- Linearised values no later conversion can refer to are forgotten: all but the newest that lie more than 40 ms back. -/
def pruneLins (t : Nat) (ls : List LinValue) : List LinValue :=
  let recent := ls.takeWhile (fun l => decide (t < l.instant + 40000000))
  recent ++ ((ls.drop recent.length).take 1)

/-- An output word is issued: the ring, the windrows and, without STL, WBK and SET, the primitives take it (R199, R201, R228, R280). -/
def State.issueWord (s : State) (n instant word : Nat) (lin : Word) (spacing hitAt done : Nat) : State :=
  let s := s.setInput n { s.input n with word, wordAt := instant }
  let s := if bitOf word 3 then s.setBit (P.FE_IN_STATUS n) 0 else s
  let s := s.ringWrite n instant word spacing
  let v := (s.viewAt instant).reduced n word lin
  let s := s.windrowWord n instant word v
  if bitOf word 0 || bitOf word 1 || bitOf word 2 then s
  else (s.samplePrim n (wordCode word) hitAt done 0).samplePrim n (wordCode word) hitAt done 1

/-- A SET sample counts for an open window; the count reached closes it (R86, Table 3-8). -/
def State.countSet (s : State) (n : Nat) : State :=
  let x := s.input n
  if x.setLeft = 0 then s
  else
    let s := s.setInput n { x with setLeft := x.setLeft - 1 }
    if x.setLeft = 1 && s.inState n = inSettling then s.setInState n inValid else s

/-- SET of an output word (Table 3-9), with whether the word counts for the window. -/
def State.setFlag (s : State) (n instant : Nat) (recov : Bool) : Bool × Bool :=
  let x := s.input n
  let st := s.inState n
  let open_ := x.setLeft != 0 && (decide (x.setFrom ≤ instant) || x.setWas)
  let counts := x.setLeft != 0 && decide (x.setFrom ≤ instant)
  let sweep := match x.sweep with
    | some a => decide (a ≤ instant)
    | none => false
  if st = inSettling then (open_ || recov || sweep, counts)
  else if st = inConfirming then (true, false)
  else if st = inSuspect then (open_ || recov || sweep, counts)
  else (recov || sweep, false)

/-- A conversion that starts during confirmation carries SET (R95, Table 3-9) (log 33). -/
def State.confirms (s : State) (n start : Nat) : Bool := match (s.input n).confFrom with
  | some a => decide (a ≤ start) && decide (start < (s.input n).confTo)
  | none => false

/-- A value of step 6, of a conversion with a given start, passes the filter and leaves as an output word (steps 7 to 9 of Table 3-1); `paired` is
a value of R83, whose SET window has opened before its span ended. -/
def State.outputValue (s : State) (n instant start : Nat) (f : FiltVal) (spacing hitAt done : Nat) (paired : Bool) : State :=
  let view := s.viewAt instant
  let x := s.input n
  let filter := (f :: x.filter).take 1024
  let s := s.setInput n { x with filter }
  let y := filterMean (filter.take (2 ^ view.rdN (P.FE_FILT_LEN n)))
  if s.inState n = inBroken && decide (x.brokenFrom ≤ start) then
    let lin : LinValue := { instant, value := nan0, ovr := false }
    let s := s.setInput n { s.input n with lins := lin :: pruneLins instant x.lins, stlSince := none }
    s.issueWord n instant (sampleWord 0 false false false true) nan0 spacing hitAt done
  else
    let ovr := y.ovr || outOfRange y.v
    let (set, counts) := if paired && (s.input n).setLeft ≠ 0 then (true, true) else s.setFlag n instant y.recov
    let set := set || s.confirms n start
    let word := sampleWord y.v ovr false set false
    let (lin, bit) := view.linearise n y.v ovr false instant
    let s := match bit with
      | some b => s.setBit (P.FE_IN_STATUS n) b
      | none => s
    let s := s.setInput n { s.input n with lins := { instant, value := lin, ovr } :: pruneLins instant x.lins, stlSince := none }
    let s := if y.near && set then s.setBit (P.FE_IN_STATUS n) 1 else s
    let s := s.issueWord n instant word lin spacing hitAt done
    if counts then s.countSet n else s

/-- A word without conversion (R124): the last word repeated with STL.  Table 3-14 repeats the last linearised value and names none for an input that
has had none: the model gives the quiet NaN 0x7FC0_0000 there (log 108). -/
def State.issueStl (s : State) (n instant : Nat) : State :=
  let x := s.input n
  let lin := match x.lins with
    | l :: _ => l.value
    | [] => nan0
  let s := s.setInput n { x with stlSince := some (x.stlSince.getD instant) }
  s.issueWord n instant (x.word ||| 4) lin (s.spacing n instant) instant (ns instant)

/-! ### Wire check (R94 to R96) -/

/-- A screening of an input at an instant in ns: hit or clear (Table 3-8).  It is suspended while a clamp is active (R92), and an event of
Table 3-4 since then prevails over it (R101). -/
def State.screen (s : State) (n t : Nat) (hit : Bool) : State :=
  let st := s.inState n
  let x := s.input n
  if s.rdN (P.FE_WB_EN n) = 0 || x.clamped (ns t) || (x.setLeft != 0 && decide (t ≤ x.setFrom)) then s
  else if st = inBroken && decide (t < x.brokenFrom) then s
  else if st = inBroken then
    if hit then s.setInput n { x with clear := 0 }
    else if x.clear + 1 = 16 then
      let s := (s.setInput n { x with clear := 0 }).setBit (P.FE_IN_STATUS n) 5
      (s.openWindow n t).setInState n inSettling
    else s.setInput n { x with clear := x.clear + 1 }
  else if hit then
    if st = inSettling || st = inValid then
      let s := ((s.setInput n { x with left := st }).addSat (P.FE_WB_COUNT n) 1).setBit (P.FE_IN_STATUS n) 3
      s.setInState n inSuspect
    else if st = inSuspect then (s.setInput n { x with confFrom := some t, confTo := t + 10000, confLow := true }).setInState n inConfirming
    else s
  else if st = inSuspect then s.setInState n (if x.left = inSettling && x.setLeft ≠ 0 then inSettling else inValid)
  else s

/-- The end of a confirmation (R94, R95). -/
def State.endConfirmation (s : State) (n t : Nat) (beyond : Bool) : State :=
  if s.inState n ≠ inConfirming then s
  else if beyond then ((s.setInput n { s.input n with clear := 0, setLeft := 0, brokenFrom := t }).setBit (P.FE_IN_STATUS n) 4).setInState n inBroken
  else (s.openWindow n t).setInState n inSettling

end Sys2Proof.Machine
end

