-- ==== Sys2Proof/Machine/Alm.lean ====
section
/-! DEFINITION. Meanings of the alarm and loop rows (chapter 14). -/

namespace Sys2Proof.Machine

/-! ### Alarm flits, words and acknowledgements (R16, R445, R447, R451) -/

/-- What the first alarm flit of a source carries, every source change of its instant (R455), and the list without it. -/
def takeFlit (src : Nat) : List (Nat × AlarmEvent) → List AlarmEvent × List (Nat × AlarmEvent)
  | [] => ([], [])
  | (k, e) :: xs =>
    if k = src then
      let with_ := fun (x : Nat × AlarmEvent) => x.1 == src && sameFlit e x.2
      (e :: (xs.filter with_).map Prod.snd, xs.filter (fun x => !with_ x))
    else let r := takeFlit src xs; (r.1, (k, e) :: r.2)

/-- A die passes alarm flits on to the link die, which compares those of the two dies afterwards; a silent die sends nothing (R398, Table 12-8). -/
def State.passAlarms (s : State) (d : Nat) (es : List AlarmEvent) : State :=
  if s.red.injections.any (fun i => i.kind == 2 && i.die == d && decide (s.time < i.until_)) then s
  else { s with alm := { s.alm with passed := s.alm.passed.set d (s.alm.passed.get d ++ es.map (fun e => (e.instant / 1000, e))) } }

/-- ALARM_FLIT_RECEIVE (R16, R444): the next alarm flit of a source reaches a die; one that fails its CRC is requested again.  The matrix the pins
follow is that of the die that holds the winning claim. -/
def alarmFlitReceive (d src : Nat) (good : Bool) (s : State) : State :=
  match takeFlit src (s.alm.flits.get d) with
  | ([], _) => s
  | (e :: es, rest) =>
    if !s.inService d then s
    else if !good then s.countIn d 1 src 1
    else
      let s := (({ s with alm := { s.alm with flits := s.alm.flits.set d rest } }).countIn d 2 src 1).passAlarms d (e :: es)
      if d = s.active then s.matrixTake (e :: es) else s
def execAlarmFlitReceive (t : Nat) (die : Fin 2) (source : Fin 5) (crcGood : Bool) (s : State) : Host.Outcome State Fault Refusal :=
  .next (alarmFlitReceive die source crcGood (s.at_ t))

/-- ALARM_REFRESH (R447): 1 ms after its last word with RAISE 1, while the local part stays active. -/
def alarmRefresh (l : Nat) (s : State) : State :=
  if bitOf s.alm.matrix.localMask l && decide (Sparse.get 0 s.alm.refreshed l + msec 1 ≤ s.time) then s.sendWord l true else s
def execAlarmRefresh (t : Nat) (line : Fin 8) (s : State) : Host.Outcome State Fault Refusal := .next (alarmRefresh line (s.at_ t))

/-- A word that refreshes an entry has been taken and has not reached the matrix yet (Table 14-8). -/
def State.refreshComes (s : State) (x : RemoteEntry) : Bool := (s.alm.flits.get s.active).any (fun y => match y.2 with
  | .word w _ => w.raise && w.origin == x.origin && w.line == x.line
  | _ => false)

/-- REMOTE_ENTRY_EXPIRY (R451): an entry of the remote table not refreshed for 3 ms goes, on both paths. -/
def remoteEntryExpiry (s : State) : State := match s.alm.matrix.remote.find? (fun e => decide (e.at_ + 3000000 ≤ s.now) && !s.refreshComes e) with
  | none => s
  | some e =>
    let x : AlarmEvent := .expiry e.origin e.line s.now
    (s.matrixStep x).send 4 (.alarm x)
def execRemoteEntryExpiry (t : Nat) (s : State) : Host.Outcome State Fault Refusal := .next (remoteEntryExpiry (s.at_ t))

/-- ALM_ACK (R445): it acts at the first slot boundary after receipt. -/
def almAckBody (p : List Word) (s : State) : State × Answer :=
  if p.length ≠ 1 || 256 ≤ word p 0 then refuse s stBadParam
  else if word p 0 = 0 then refuse s stRange
  else (s, .quiet (some (boundaryAfter s.now)))
def execAlmAck (h : Hdr) (p : List Word) (s : State) : Host.Outcome State Fault Refusal := .next (s.receive 0x07 h p (almAckBody p))

/-- Flits on their way whose changes lie at or before B are taken ahead of the acknowledgement (R445, R459). -/
def State.drainFlits (s : State) (b : Nat) : State :=
  let d := s.active
  let xs := s.alm.flits.get d
  let s := { s with alm := { s.alm with flits := s.alm.flits.set d (xs.filter (fun x => decide (b < x.2.instant))) } }
  let es := (xs.filter (fun x => decide (x.2.instant ≤ b))).map Prod.snd
  (alarmBatches es).foldl State.matrixTake (s.passAlarms d es)

/-- The lines whose states differ between two views. -/
def changedLines (v w : AlarmView) : Nat := maskOf (fun l => Sparse.get 0 v.lines l != Sparse.get 0 w.lines l)

/-- A waiting command whose instant has come, the first of its opcode. -/
def State.firstDue (s : State) (op : Nat) : Option Outstanding :=
  s.cmd.outstanding.find? (fun o => o.op == op && (match o.due with
    | some d => decide (d ≤ s.now)
    | none => false))

/-- ALM_ACK_ACT (R445): the named lines are acknowledged on both paths, and the reply names those whose state changed. -/
def almAckAct (s : State) : State := match s.firstDue 0x07 with
  | none => s
  | some o =>
    if s.commitBefore (o.due.getD 0) || s.earlierFirst o.h (o.due.getD 0) then s
    else
      let b := s.actAt (o.due.getD 0)
      let s := s.drainFlits b
      let e : AlarmEvent := .ack (word o.p 0) b
      let old := s.alm.matrix
      let s := (s.matrixStep e).send 4 (.alarm e)
      s.finish 0x07 o.h stOk [BitVec.ofNat 32 (changedLines old s.alm.matrix)]
def execAlmAckAct (t : Nat) (s : State) : Host.Outcome State Fault Refusal := .next (almAckAct (s.at_ t))

/-- PAD_READBACK_FAULT (R446): a pad reads another level than it drives. -/
def padReadbackFault (k : Nat) (level : Bool) (s : State) : State := match s.alarmPin k with
  | none => s
  | some driven => if driven == level then s else (s.setBit P.ALM_STATUS 3).logEvent 0x1001 7 3 k (b2n level)
def execPadReadbackFault (t : Nat) (pin : Fin 8) (level : Bool) (s : State) : Host.Outcome State Fault Refusal :=
  .next (padReadbackFault pin level (s.at_ t))

/-! ### Loop outputs (R456 to R458) -/

def State.loop (s : State) (k : Nat) : Loop := Sparse.get {} s.alm.loops k
def State.setLoop (s : State) (k : Nat) (x : Loop) : State := { s with alm := { s.alm with loops := Sparse.set {} s.alm.loops k x } }

/-- What a loop does at an update: a current in µA, its failure level, or its last current held. -/
inductive LoopLevel where
  | drive (microA : Nat)
  | fail
  | held
  deriving DecidableEq, Repr

/-- A finite non-negative value to the nearest integer, halves away from zero. -/
def Fl.nearest : Fl → Nat
  | .fin false m e => if 0 ≤ e then m * 2 ^ e.toNat else (2 * m + 2 ^ (-e).toNat) / (2 * 2 ^ (-e).toNat)
  | _ => 0

/-- The current of a value by Table 14-7, in µA (log 71). -/
def loopCurrent (lo hi y : Fl) : LoopLevel :=
  let top := if Fl.lt lo hi then 20500 else 3800
  match y with
  | .nan => .fail
  | .inf neg => .drive (if neg then 24300 - top else top)
  | y =>
    let i := Fl.add (Fl.ofNat 4000) (Fl.div (Fl.mul (Fl.ofNat 16000) (Fl.sub y lo)) (Fl.sub hi lo))
    .drive (if Fl.lt i (Fl.ofNat 3800) then 3800 else if Fl.lt (Fl.ofNat 20500) i then 20500 else i.nearest)

/-- The loop's own die holds no agreeing control, or is under reset (R457, R496). -/
def State.loopUncontrolled (s : State) (k : Nat) : Bool :=
  !s.running || s.red.held.any (fun x => x.fe == k / 2) || (Sparse.get {} s.pwr.fes (k / 2) : FePower).resetUntil.isSome

/-- The setpoint of a loop as its mode and Table 14-7 give it; in STOPPED loops stay at the failure level (R504; log 71). -/
def State.loopSetpoint (s : State) (k : Nat) : LoopLevel :=
  let n := s.rdN (P.ALM_LOOP_INPUT k)
  let x := s.input n
  if s.rdN P.PWR_STATE = 4 then (if s.rdN (P.ALM_LOOP_SRC k) = 0 then .drive 0 else .fail)
  else if s.loopUncontrolled k || (n < 512 && (x.holds.any (fun r => r == 0 || r == 4) || x.freed == some s.now)) then .held
  else match s.rdN (P.ALM_LOOP_SRC k) with
    | 0 => .drive 0
    | 1 =>
      if s.inState n = inOff then .fail
      else match x.stlSince with
        | some a => if s.now < a + 1000000 * s.rdN (P.ALM_LOOP_STALE k) then .held else .fail
        | none => match x.lins with
          | [] => .fail
          | l :: _ => loopCurrent (Fl.of32 (s.rd (P.ALM_LOOP_LO k))) (Fl.of32 (s.rd (P.ALM_LOOP_HI k))) (Fl.of32 l.value)
    | _ => .drive (if s.rdN (P.ALM_LINE_STATE (s.rdN (P.ALM_LOOP_LINE k))) = 0 then s.rdN (P.ALM_LOOP_OFF_UA k) else s.rdN (P.ALM_LOOP_ON_UA k))

/-- The failure level of a loop with the current it holds. -/
def State.failLevel (s : State) (k held : Nat) : Nat := match s.rdN (P.ALM_LOOP_FAIL k) with
  | 0 => 3600
  | 1 => 21000
  | _ => held

/-- A loop is driven as it stands now. -/
def State.driveLoop (s : State) (k : Nat) : State :=
  let x := s.loop k
  let v := s.loopSetpoint k
  let level := match v with
    | .drive i => i
    | .fail => s.failLevel k x.level
    | .held => x.level
  let on := if v = .held then x.on else s.rdN (P.ALM_LOOP_SRC k) != 0 && x.retryAt.isNone
  let s := (s.setLoop k { x with last := s.now, level, on }).wrN (P.ALM_LOOP_SETPOINT k) level
  (s.putBit (P.ALM_LOOP_STATUS k) 0 (v == .held || (v == .fail && s.rdN (P.ALM_LOOP_FAIL k) == 2))).putBit (P.ALM_LOOP_STATUS k) 3 (v == .fail)

/-- LOOP_UPDATE (R456): a whole multiple of ALM_LOOP_UPDATE. -/
def loopUpdate (k : Nat) (s : State) : State := if s.now % (1000 * s.rdN (P.ALM_LOOP_UPDATE k)) ≠ 0 then s else s.driveLoop k
def execLoopUpdate (t : Nat) (loop : Fin 8) (s : State) : Host.Outcome State Fault Refusal := .next (loopUpdate loop (s.at_ t))

/-- Since when a condition stands, and whether it has stood for 10 ms. -/
def standing (since : Option Nat) (c : Bool) (now : Nat) : Option Nat := if c then some (since.getD now) else none
def tenMs (since : Option Nat) (now : Nat) : Bool := match since with
  | some a => decide (a + msec 10 ≤ now)
  | none => false

/-- A loop fault is shown, counted and logged. -/
def State.loopFault (s : State) (k bit microA : Nat) : State :=
  ((s.setBit (P.ALM_LOOP_STATUS k) bit).addSat (P.ALM_LOOP_FAULTS k) 1).logEvent 0x1002 (1 + k / 2) 2 k microA

/-- LOOP_READBACK_CHECK (R458): the current read back against the setpoint; below it only while QLOOP is on (log 71). -/
def loopReadbackCheck (k microA : Nat) (s : State) : State :=
  let x := s.loop k
  let s := s.wrN (P.ALM_LOOP_MEASURED k) (min microA 30000)
  let low := standing x.lowSince (x.on && decide (microA + 200 < x.level)) s.time
  let high := standing x.highSince (decide (x.level + 200 < microA)) s.time
  let beyond := standing x.overSince (decide (24000 < microA)) s.time
  let newLow := tenMs low s.time && !x.lowShown
  let newHigh := (tenMs high s.time || tenMs beyond s.time) && !x.highShown
  let off := tenMs beyond s.time
  let s := s.setLoop k { x with lowSince := low, highSince := high, overSince := beyond, lowShown := tenMs low s.time
                                highShown := tenMs high s.time || tenMs beyond s.time, on := x.on && !off
                                retryAt := if off && x.retryAt.isNone then some (s.time + secs 1) else x.retryAt }
  let s := if newLow then s.loopFault k 1 microA else s
  if newHigh then s.loopFault k 2 microA else s
def execLoopReadbackCheck (t : Nat) (loop : Fin 8) (microA : Nat) (s : State) : Host.Outcome State Fault Refusal :=
  .next (loopReadbackCheck loop microA (s.at_ t))

/-- LOOP_RETRY (R458): 1 s after QLOOP was turned off it is turned on again. -/
def loopRetry (k : Nat) (s : State) : State :=
  let x := s.loop k
  match x.retryAt with
  | none => s
  | some a =>
    if s.time < a then s
    else s.setLoop k { x with on := s.rdN (P.ALM_LOOP_SRC k) != 0, retryAt := none, overSince := none, highSince := none, highShown := false }
def execLoopRetry (t : Nat) (loop : Fin 8) (s : State) : Host.Outcome State Fault Refusal := .next (loopRetry loop (s.at_ t))

end Sys2Proof.Machine
end

