-- ==== Sys2Proof/Machine/Flash.lean ====
section
/-! DEFINITION. The two flash devices and the order of their operations (R433, R434, R466, R467, R472). -/

namespace Sys2Proof.Machine

def State.setMgt (s : State) (m : MgtState) : State := { s with mgt := m }
def State.flash (s : State) (d : Nat) : Flash := s.mgt.flash.get d
def State.setFlash (s : State) (d : Nat) (x : Flash) : State := s.setMgt { s.mgt with flash := s.mgt.flash.set d x }

/-- The states of a boot record (Table 15-4) and of MGT_UPD_STATE. -/
def bootEmpty : Nat := 0
def bootTrial : Nat := 1
def bootConfirmed : Nat := 2
def bootFailed : Nat := 3
def updIdle : Nat := 0
def updWriting : Nat := 1
def updCommitting : Nat := 2

/-- The slot a store writes: not the one in force, and slot 0 while the factory record is in force (R434). -/
def State.storeSlot (s : State) : Nat := if s.rdN P.CAL_SLOT_IN_FORCE = 0 then 1 else 0
/-- The SLOT_SEQ a store writes (R434). -/
def State.storeSeq (s : State) : Nat := if s.rdN P.CAL_SLOT_IN_FORCE = 2 then 1 else (s.rdN P.CAL_SLOT_SEQ + 1) % 4294967296

/-- The operation at the front begins: a store erases its slot; the first write to an image area after the area's last commit or confirmation
makes the device's boot record EMPTY (R472). -/
def State.startFlash (s : State) : State := match s.mgt.ops with
  | [] => s.wrN P.MGT_UPD_STATE updIdle
  | .calStore :: _ =>
    ({ s with cal := { s.cal with slots := s.cal.slots.set s.storeSlot { good := false, empty := false } } }).wrN P.MGT_UPD_STATE updIdle
  | .save _ :: _ => s.wrN P.MGT_UPD_STATE updIdle
  | .commit _ _ _ :: _ => s.wrN P.MGT_UPD_STATE updCommitting
  | .write _ p :: _ =>
    let d := bits (word p 0) 1 0
    let s := s.wrN P.MGT_UPD_STATE updWriting
    if 2 ≤ d || (s.flash d).written then s
    else s.setFlash d { s.flash d with boot := { valid := true }, written := true }

/-- An operation is requested: it runs when those before it have run (R466). -/
def State.queueFlash (s : State) (op : FlashOp) : State :=
  let first := s.mgt.ops.isEmpty
  let s := s.setMgt { s.mgt with ops := s.mgt.ops ++ [op] }
  if first then s.startFlash else s

/-- The operation at the front has ended. -/
def State.endFlash (s : State) : State := (s.setMgt { s.mgt with ops := s.mgt.ops.drop 1 }).startFlash

/-- An operation is a firmware or key commit. -/
def FlashOp.isCommit : FlashOp → Bool
  | .commit _ _ _ => true
  | _ => false

/-- MGT.FW.COMMIT is running. -/
def State.committing (s : State) : Bool := s.mgt.ops.any FlashOp.isCommit

/-! ### Saving the configuration (R493) -/

/-- A parameter is part of the saved configuration. -/
def Params.saved (k : Nat) : Bool := k != P.PWR_CFG_SOURCE && (match Params.row k with
  | some r => r.access == .rwe || r.access == .rwi
  | none => false)

/-- The configuration in force. -/
def State.config (s : State) : SavedConfig :=
  { seq := (s.mgt.saved.seq + 1) % 4294967296, par := s.par.filter (fun e => Params.saved e.1), plots := if s.mem.granReady then s.mem.plots else s.pwr.plots }

def FlashOp.isSave : FlashOp → Bool
  | .save _ => true
  | _ => false

/-- A save is triggered: it starts, or follows the one that runs. -/
def State.requestSave (s : State) : State :=
  let s := s.setMgt { s.mgt with saveHourly := false }
  if s.mgt.ops.any FlashOp.isSave then s.setMgt { s.mgt with saveAgain := true } else s.queueFlash (.save s.config)

/-- CONFIG_SAVE (R493): the configuration has been written to both devices (log 93). -/
def configSave (s : State) : State := match s.mgt.ops.head? with
  | some (.save c) =>
    let s := ((s.setMgt { s.mgt with saved := c }).wrN P.PWR_CFG_SEQ c.seq).setBit P.PWR_STATUS 0
    let s := s.endFlash
    if s.mgt.saveAgain then (s.setMgt { s.mgt with saveAgain := false }).requestSave else s
  | _ => s
def execConfigSave (t : Nat) (s : State) : Host.Outcome State Fault Refusal := .next (configSave (s.at_ t))

/-- CONFIG_SAVE_HOURLY (R493): a whole hour of absolute time after an RWI write that no other save has taken. -/
def configSaveHourly (s : State) : State := if s.mgt.saveHourly && s.now % 3600000000000 = 0 then s.requestSave else s
def execConfigSaveHourly (t : Nat) (s : State) : Host.Outcome State Fault Refusal := .next (configSaveHourly (s.at_ t))

end Sys2Proof.Machine
end

