-- ==== Sys2Proof/Machine/Mem.lean ====
section
/-! DEFINITION. Meanings of the memory commands and events (chapter 9). -/

namespace Sys2Proof.Machine

/-- Parameter word 0 of a mode-split row with its MODE bits [lo + w - 1 : lo] at the row's value; the other words as sent. -/
def forceMode (p : List Word) (lo w v : Nat) : List Word := match p with
  | [] => []
  | a :: ps => BitVec.ofNat 32 (a.toNat - bits a.toNat (lo + w - 1) lo * 2 ^ lo + v * 2 ^ lo) :: ps

/-! ### Plots (R276 to R278) -/

/-- The capture state of a group is STOPPED (Table 7-6). -/
def State.groupStopped (s : State) (g : Nat) : Bool := s.rdN (P.TRG_GRP_STATE g) == 0

/-- The free MiB of the plot space, as extents (base, size) in rising order. -/
def freeExtents (plots : List Plot) : List (Nat × Nat) :=
  let starts := 0 :: plots.map (fun p => p.base + p.size)
  let free := fun b => plots.all (fun p => decide (b < p.base) || decide (p.base + p.size ≤ b))
  let endOf := fun b => ((plots.map (·.base)).filter (fun x => decide (b ≤ x))).foldl min 14540
  ((starts.filter free).map (fun b => (b, endOf b - b))).filter (fun e => decide (0 < e.2))

def State.granFree (s : State) : Nat := 14540 - (s.mem.plots.map (·.size)).sum
def State.granFreeLargest (s : State) : Nat := ((freeExtents s.mem.plots).map (·.2)).foldl max 0

/-- The weights WEIGHTS gives the groups (Table 9-4): group 8j + i in bits [4i + 3 : 4i] of P(3 + j); weight 0 is not listed. -/
def weightsOf (p : List Word) : List (Nat × Nat) :=
  ((List.range 128).map (fun g => (g, bits (word p (3 + g / 8)) (4 * (g % 8) + 3) (4 * (g % 8))))).filter (fun x => x.2 != 0)

/-- The checks of MEM.PLOT.NEW (R277, Table 9-4). -/
def plotNewCheck (s : State) (p : List Word) : Option (Nat × List Word) :=
  let kind := word p 0
  let size := word p 1
  let kinds := word p 2
  let ws := weightsOf p
  if p.length ≠ 19 || 4 ≤ kind || 256 ≤ kinds then some (stBadParam, [])
  else if kind = 1 && kinds ≠ 0 then some (stBadParam, [])
  else if kind = 2 && !ws.isEmpty then some (stBadParam, [])
  else if kind = 0 || kind = 3 || size = 0 || 14540 < size then some (stRange, [])
  else if kind = 1 && (ws.isEmpty || s.mem.plots.any (fun q => ws.any (fun w => q.weights.any (fun v => v.1 == w.1)))) then some (stRange, [])
  else if kind = 2 && (kinds = 0 || s.mem.plots.any (fun q => q.kind == 2 && (q.kinds &&& kinds) != 0)) then some (stRange, [])
  else if ws.any (fun w => !s.groupStopped w.1) then some (stLocked, [])
  else if 16 ≤ s.mem.plots.length then some (stBusy, [])
  else if (freeExtents s.mem.plots).all (fun e => decide (e.2 < size)) then some (stBusy, [satWord s.granFreeLargest])
  else none

/-- A plot in its place by ID. -/
def insertPlot (q : Plot) : List Plot → List Plot
  | [] => [q]
  | r :: rs => if q.id < r.id then q :: r :: rs else r :: insertPlot q rs

/-- A plot is created: the lowest free ID and the lowest-addressed extent large enough (R276). -/
def plotNewAct (s : State) (p : List Word) : State × Nat × List Word :=
  match plotNewCheck s p with
  | some (st, d) => (s, st, d)
  | none =>
    let size := word p 1
    let id := ((List.range 16).find? (fun i => s.mem.plots.all (fun q => q.id != i))).getD 0
    let base := (((freeExtents s.mem.plots).filter (fun e => decide (size ≤ e.2))).map (·.1)).foldl min 14540
    let q : Plot := { id, kind := word p 0, base, size, kinds := word p 2, weights := weightsOf p }
    let rings := q.weights.foldl (fun m w => Sparse.erase m w.1) s.mem.rings
    let s := { s with mem := { s.mem with plots := insertPlot q s.mem.plots, rings } }
    (s.setBit P.GRN_STATUS 1, stOk, [BitVec.ofNat 32 id, BitVec.ofNat 32 base])

/-- The checks of MEM.PLOT.FREE (R278). -/
def plotFreeCheck (s : State) (p : List Word) : Option (Nat × List Word) :=
  if p.length ≠ 1 || 16 ≤ word p 0 then some (stBadParam, [])
  else match s.plot? (word p 0) with
    | none => some (stRange, [])
    | some q =>
      if q.weights.any (fun w => !s.groupStopped w.1) then some (stLocked, [])
      else if (s.store q.id).entries.any (fun e => !e.acked) then some (stLocked, [])
      else none

/-- A plot is freed; the records it held go with it (R278, R285). -/
def plotFreeAct (s : State) (p : List Word) : State × Nat × List Word :=
  match plotFreeCheck s p with
  | some (st, d) => (s, st, d)
  | none =>
    let id := word p 0
    let rings := match s.plot? id with
      | some q => q.weights.foldl (fun m w => Sparse.erase m w.1) s.mem.rings
      | none => s.mem.rings
    let plots := s.mem.plots.filter (fun q => q.id != id)
    let s := { s with mem := { s.mem with plots, rings, stores := Sparse.erase s.mem.stores id } }
    (s.setBit P.GRN_STATUS 2, stOk, [])

/-- What the plot commands that wait for the next boundary will leave, in order of receipt: a later one is judged on it (R307). -/
def State.plotsAhead (s : State) : State :=
  s.cmd.outstanding.foldl (fun s o => if o.op = 0x50 then (plotNewAct s o.p).1 else if o.op = 0x51 then (plotFreeAct s o.p).1 else s) s

/-- MEM_PLOT_NEW (R276, R277): acts at the first slot boundary after receipt. -/
def plotNewBody (p : List Word) (s : State) : State × Answer := match plotNewCheck s.plotsAhead p with
  | some (st, d) => refuse s st d
  | none => (s, .quiet (some (boundaryAfter s.now)))
def execMemPlotNew (h : Hdr) (p : List Word) (s : State) : Host.Outcome State Fault Refusal := .next (s.receive 0x50 h p (plotNewBody p))

/-- MEM_PLOT_FREE (R276, R278): acts at the first slot boundary after receipt. -/
def plotFreeBody (p : List Word) (s : State) : State × Answer := match plotFreeCheck s.plotsAhead p with
  | some (st, d) => refuse s st d
  | none => (s, .quiet (some (boundaryAfter s.now)))
def execMemPlotFree (h : Hdr) (p : List Word) (s : State) : Host.Outcome State Fault Refusal := .next (s.receive 0x51 h p (plotFreeBody p))

/-- A capacity in KiB (log 8). -/
def kib (bytes : Nat) : Nat := (if Config.kibRoundsUp then bytes + 1023 else bytes) / 1024

/-- KiB a store uses and holds unacknowledged (Table 9-11). -/
def State.storeUsed (s : State) (id : Nat) : Nat := kib (64 * ((s.store id).entries.map (·.lines)).sum)
def State.storeUnack (s : State) (id : Nat) : Nat := kib (64 * (((s.store id).entries.filter (fun e => !e.acked)).map (·.lines)).sum)

/-- MEM_PLOT_LIST (R278): four data words for each plot, in ascending ID. -/
def plotListBody (p : List Word) (s : State) : State × Answer :=
  if p.length ≠ 0 then refuse s stBadParam
  else okay s (s.mem.plots.flatMap (fun q =>
    [BitVec.ofNat 32 (q.id + 16 * q.kind + 256 * q.kinds), BitVec.ofNat 32 q.base, BitVec.ofNat 32 q.size, satWord (s.storeUsed q.id)]))
def execMemPlotList (h : Hdr) (p : List Word) (s : State) : Host.Outcome State Fault Refusal := .next (s.receive 0x52 h p (plotListBody p))

/-! ### MEM.READ (R301) -/

/-- The 64-bit words a diagnostic read names: SRAM word indices, or byte addresses of Granary words divided by 8; none when outside. -/
def memReadSpan (s : State) (p : List Word) : Option (Nat × Nat) :=
  let n := bits (word p 2) 7 0
  if bitOf (word p 0) 0 then match s.plot? (bits (word p 0) 7 4) with
    | none => none
    | some q => if word p 1 + n ≤ q.size * 131072 then some (q.base * 131072 + word p 1, n) else none
  else if word p 1 + n ≤ 4194304 then some (word p 1, n) else none

/-- The outcome and the data of one 64-bit word a die reads. -/
def State.diagOut (s : State) (granary : Bool) (d w : Nat) : Nat := if granary then s.lineOut d (w / 8) else s.wordOut d w
def State.diagData (s : State) (granary : Bool) (d w : Nat) : Nat :=
  if granary then leNat ((List.range 8).map (fun i => s.granByte d (8 * w + i))) else (s.sramWord d w).toNat

/-- A diagnostic read notes what it finds but changes no mark (Table 9-7). -/
def State.diagNote (s : State) (granary : Bool) (d w : Nat) : State :=
  let o := s.diagOut granary d w
  let s := if granary then s.noteLine d (w / 8) else s.noteWord d w
  if o < 2 then s else s.logEvent 0x0901 (unitOf granary d) 2 (if granary then 64 * (w / 8) else 8 * w) (o + 256 * reqMemRead)

/-- MEM_READ (R301): the words, low half first, then two status bits a word. -/
def memReadWords (p : List Word) (s : State) : State × Answer :=
  let g := bitOf (word p 0) 0
  if p.length ≠ 3 || 256 ≤ word p 0 || bits (word p 0) 3 1 ≠ 0 || 256 ≤ word p 2 then refuse s stBadParam
  else if word p 2 = 0 || (!g && bits (word p 0) 7 4 ≠ 0) then refuse s stRange
  else match memReadSpan s p with
    | none => refuse s stRange
    | some (w, n) =>
      let ws := (List.range n).map (· + w)
      let data := ws.flatMap (fun x => let v := s.diagData g s.active x; [lo32 v, hi32 v])
      let status := (List.range (ceilDiv n 16)).map (fun i =>
        BitVec.ofNat 32 (((ws.drop (16 * i)).take 16).mapIdx (fun j x => s.diagOut g s.active x * 4 ^ j)).sum)
      okay (ws.foldl (fun s x => (s.diagNote g 0 x).diagNote g 1 x) s) (data ++ status)

/-! ### Check-bit test (R306) -/

/-- The places of the 1 bits of a 32-bit mask, from an offset. -/
def onesOf (mask off : Nat) : List Nat := ((List.range 32).filter (fun i => bitOf mask i)).map (· + off)

/-- The symbols TST.CHECKBIT selects in a line (Table 9-9). -/
def checkSymbols (p : List Word) : List (Nat × Byte) :=
  (onesOf (word p 2) 0 ++ onesOf (word p 3) 32 ++ onesOf (bits (word p 4) 7 0) 64).map (fun i => (i, BitVec.ofNat 8 (bits (word p 4) 15 8)))

/-- A line, or a word, of a die is read and written back corrected, with errors injected (R306). -/
def State.injectLine (s : State) (d line : Nat) (e : LineError) : State := ((s.noteLine d line).writeBackLine d line).setLineError d line e
def State.injectWord (s : State) (d w : Nat) (e : WordError) : State := ((s.noteWord d w).writeBackWord d w).setWordError d w e

/-- TST_CHECKBIT (R306, Table 9-9): the target is read, corrected, and written back with the selected bits inverted, in both dies alike. -/
def checkbitRun (p : List Word) (s : State) : State × Answer :=
  let g := bitOf (word p 0) 0
  let plot := bits (word p 0) 7 4
  let off := word p 1
  if p.length ≠ 5 || 256 ≤ word p 0 || bits (word p 0) 3 1 ≠ 0 || 65536 ≤ word p 4 then refuse s stBadParam
  else if !g && bits (word p 4) 15 8 ≠ 0 then refuse s stBadParam
  else if word p 2 = 0 && word p 3 = 0 && bits (word p 4) 7 0 = 0 then refuse s stRange
  else if g then match s.plot? plot with
    | none => refuse s stRange
    | some q =>
      let line := q.base * 16384 + off
      if q.size * 16384 ≤ off || bits (word p 4) 15 8 = 0 || 2 ≤ s.lineOut s.active line then refuse s stRange
      else
        let e : LineError := { symbols := checkSymbols p }
        okay ((s.injectLine 0 line e).injectLine 1 line e) [BitVec.ofNat 32 (s.lineOut s.active line)]
  else if plot ≠ 0 || 4194304 ≤ off || 2 ≤ s.wordOut s.active off then refuse s stRange
  else
    let e : WordError := { data := BitVec.ofNat 64 (word p 2 + 4294967296 * word p 3), check := BitVec.ofNat 8 (word p 4) }
    okay (((s.touch off true).injectWord 0 off e).injectWord 1 off e) [BitVec.ofNat 32 (s.wordOut s.active off)]

/-! ### The requests that wait for the SRAM (R289, R305) -/

/-- What a request does once it is served: an access is performed; a command that waited runs and replies, unless a reset has taken it away. -/
def State.runWait (s : State) (x : SramWait) : State :=
  let run := fun (code : Nat) (h : Hdr) (p : List Word) (body : State → State × Answer) =>
    if s.cmd.outstanding.any (fun o => samePair o.h h) then let r := body s; r.1.answer code h p r.2 else s
  match x.work with
  | .access a => s.access a x.word
  | .own => s
  | .memRead h p => run 0x53 h p (memReadWords p)
  | .checkbit h p => run 0xF2 h p (checkbitRun p)

/-- The requests of the cycles before the present one are served; those of the present cycle wait until all of it is known (log 109). -/
def State.settle (s : State) : State :=
  let s := serveUntil State.runWait (s.time / 4096) s.mem.test.waiting.length s
  { s with mem := { s.mem with portFree := s.mem.portFree.filter (fun e => decide (s.time / 4096 < e.2.1)) } }

/-- A command on SRAM words by the firmware: it runs at once, or, where a word of its span lies in a borrowed region, or in a bank that is held, it
waits for the return with the accesses (R304, R305). -/
def State.firmware (s : State) (span : Option (Nat × Nat)) (write : Bool) (work : SramWork) (body : State → State × Answer) : State × Answer :=
  match span with
  | none => body s
  | some (w, n) =>
    let t := (regionsOf w n).foldl (fun s v => s.touch v write) s.settle
    match (regionsOf w n).find? t.blocked with
    | none => body t
    | some v => (t.await { master := 6, word := v, since := s.time, work }, .quiet none)

/-- The SRAM words a MEM.READ or a TST.CHECKBIT addresses, where its checks find any. -/
def readTarget (s : State) (p : List Word) : Option (Nat × Nat) := if bitOf (word p 0) 0 || word p 2 = 0 || 256 ≤ word p 2 then none else memReadSpan s p
def checkTarget (p : List Word) : Option (Nat × Nat) := if bitOf (word p 0) 0 || 4194304 ≤ word p 1 then none else some (word p 1, 1)

def memReadBody (h : Hdr) (p : List Word) (s : State) : State × Answer := s.firmware (readTarget s p) false (.memRead h p) (memReadWords p)
def execMemRead (h : Hdr) (p : List Word) (s : State) : Host.Outcome State Fault Refusal := .next (s.receive 0x53 h p (memReadBody h p))

def checkbitBody (h : Hdr) (p : List Word) (s : State) : State × Answer := s.firmware (checkTarget p) true (.checkbit h p) (checkbitRun p)
def execTstCheckbit (h : Hdr) (p : List Word) (s : State) : Host.Outcome State Fault Refusal := .next (s.receive 0xF2 h p (checkbitBody h p))

/-! ### The background SRAM test (R303 to R305) -/

/-- A region may be borrowed: not in banks 0–3, not critical, and in no bank that holds a critical region (R303). -/
def State.critical (s : State) (r : Nat) : Bool := s.bit (P.SRM_REGION_CRIT (r / 32)) (r % 32)
def State.eligible (s : State) (r : Nat) : Bool :=
  decide (32 ≤ r) && (List.range 8).all (fun i => !s.critical (r / 8 * 8 + i))

/-- The first eligible region at or after one. -/
def State.nextRegion (s : State) (r : Nat) : Option Nat := ((List.range 512).drop r).find? s.eligible

/-- MEM.TEST in a mode (R303): STOP returns any borrowed region and ends the test. -/
def memTest (mode : Nat) (s : State) : State :=
  if mode = 0 then
    let s := s.forceReturn
    let s := if s.mem.test.phase = .save then s.setTest { s.mem.test with phase := .idle } else s
    s.wrN P.SRM_TEST_MODE 0
  else
    let s := if s.rdN P.SRM_TEST_MODE = 0 && s.mem.test.phase = .idle then s.setTest { s.mem.test with region := 0, again := false } else s
    s.wrN P.SRM_TEST_MODE mode

/-- MEM.TEST's checks and effect. -/
def memTestBody (p : List Word) (s : State) : State × Answer :=
  if p.length ≠ 1 || 4 ≤ word p 0 then refuse s stBadParam
  else if word p 0 = 3 then refuse s stRange
  else okay (memTest (word p 0) s)

def execMemTestStop (h : Hdr) (p : List Word) (s : State) : Host.Outcome State Fault Refusal :=
  .next (s.receive 0x54 h p (memTestBody (forceMode p 0 2 0)))
def execMemTestContinuous (h : Hdr) (p : List Word) (s : State) : Host.Outcome State Fault Refusal :=
  .next (s.receive 0x54 h p (memTestBody (forceMode p 0 2 1)))
def execMemTestOneLap (h : Hdr) (p : List Word) (s : State) : Host.Outcome State Fault Refusal :=
  .next (s.receive 0x54 h p (memTestBody (forceMode p 0 2 2)))

/-- SRM_TEST_PACE (R303): at a whole multiple of SRM_TEST_PACE the test starts the next region it may borrow. -/
def srmTestPace (s : State) : State :=
  if s.running && s.rdN P.SRM_TEST_MODE ≠ 0 && s.mem.test.phase = .idle && s.now % (1000 * s.rdN P.SRM_TEST_PACE) = 0 then
    match (match s.nextRegion s.mem.test.region with
      | some r => some r
      | none => if s.rdN P.SRM_TEST_MODE = 1 then s.nextRegion 0 else none) with
    | some r => s.setTest { s.mem.test with phase := .save, region := r, abandoned := false }
    | none => if s.rdN P.SRM_TEST_MODE = 2 then s.wrN P.SRM_TEST_MODE 0 else s
  else s
def execSrmTestPace (t : Nat) (s : State) : Host.Outcome State Fault Refusal := .next (srmTestPace (s.at_ t).settle)

/-- SRM_TEST_SAVE_DONE (R304): the region is borrowed, unless a write abandoned its save. -/
def srmTestSaveDone (s : State) : State :=
  if s.mem.test.phase = .save then
    if s.mem.test.abandoned then s.setTest { s.mem.test with phase := .idle } else s.setTest { s.mem.test with phase := .march }
  else s
def execSrmTestSaveDone (t : Nat) (s : State) : Host.Outcome State Fault Refusal := .next (srmTestSaveDone (s.at_ t).settle)

/-- A march found a fault in a die: logged, shown in RED_SRM_TEST_FAIL, and a penalty (R304, R400). -/
def State.marchFault (s : State) (d r : Nat) : State :=
  let s := s.logEvent 0x0A01 (5 + d) 3 r 0
  let s := s.setBit (P.RED_SRM_TEST_FAIL (16 * d + r / 32)) (r % 32)
  s.setDie d { s.die d with marches := (s.die d).marches + 1 }

/-- SRM_TEST_MARCH_DONE (R304): the region is restored; a fault in either die is reported. -/
def srmTestMarchDone (faultA faultB : Bool) (s : State) : State :=
  if s.mem.test.phase = .march then
    let r := s.mem.test.region
    let s := if faultA then s.marchFault 0 r else s
    let s := if faultB then s.marchFault 1 r else s
    s.setTest { s.mem.test with phase := .restore }
  else s
def execSrmTestMarchDone (t : Nat) (faultA faultB : Bool) (s : State) : Host.Outcome State Fault Refusal :=
  .next (srmTestMarchDone faultA faultB (s.at_ t).settle)

/-- SRM_TEST_RESTORE_DONE (R304, R305): the region is returned, the requests that waited for its bank are served in the order of R289, and an abandoned
region is tried again. -/
def srmTestRestoreDone (s : State) : State :=
  if s.mem.test.phase = .restore then
    let x := s.mem.test
    let s := s.heldByTest x.region (s.time / 4096)
    let next := if x.abandoned then x.region else x.region + 1
    let s := s.setTest { phase := .idle, region := next, again := x.abandoned, waiting := s.mem.test.waiting }
    if !x.abandoned && s.rdN P.SRM_TEST_MODE = 2 && (s.nextRegion next).isNone then s.wrN P.SRM_TEST_MODE 0 else s
  else s
def execSrmTestRestoreDone (t : Nat) (s : State) : Host.Outcome State Fault Refusal := .next (srmTestRestoreDone (s.at_ t).settle)

/-- BORROWED_REGION_ACCESS (R289, R304, R305, R307, R465; `SramAccess` holds the access, log 109): a processor access outside its map, or against its
rights, raises an access-fault trap in both dies; one to the Granary is done at once; one to a device has no effect the spec gives.  An access to the
SRAM abandons a save that it writes into, forces the return of a borrowed region, and joins the requests of its port. -/
def borrowedRegionAccess (a : SramAccess) (s : State) : State :=
  if isProcessor a.master && !mapped a.at_ a.kind then (s.trap 0 (trapOf a.kind) a.at_).trap 1 (trapOf a.kind) a.at_
  else match a.gran?, a.word? with
    | some g, _ => s.accessGran a g
    | none, some w => ((s.touch w a.writes).await { master := a.master, word := w, portB := a.portB, since := s.time, work := .access a })
    | none, none => s
def execBorrowedRegionAccess (t : Nat) (master : Fin 10) (channel : Fin 8) (request : SramRequest) (s : State) : Host.Outcome State Fault Refusal :=
  .next (borrowedRegionAccess { request with master, channel } (s.at_ t).settle)

/-! ### The Gleaner (R298 to R302) -/

/-- Lines of a stack and words of the SRAM (Table 9-1, R288). -/
def granLines : Nat := 238609294
def sramWords : Nat := 4194304

/-- Every stored record that covers a line or word a die found uncorrectable is marked DAMAGED (R302). -/
def State.damageCovering (s : State) (d : Nat) (granary : Bool) (a n : Nat) : State :=
  s.mem.stores.foldl (fun s (id, st) =>
    if (id == sramStore) == granary then s
    else st.entries.foldl (fun s e =>
      let from_ := s.storeBase id + 64 * e.line
      if from_ < a + n && a < from_ + 64 * e.lines then s.markDamaged d id e.kind e.run e.seq else s) s) s

def State.gleaner (s : State) (d : Nat) (granary : Bool) : Gleaner := if granary then (s.memDie d).granGleaner else (s.memDie d).sramGleaner
def State.setGleaner (s : State) (d : Nat) (granary : Bool) (x : Gleaner) : State :=
  if granary then s.setMemDie d { s.memDie d with granGleaner := x } else s.setMemDie d { s.memDie d with sramGleaner := x }

/-- A slice is marked failed when its corrected symbols within one lap reach GRN_SLICE_LIMIT, at most one per stack (R274). -/
def State.markSlice (s : State) (d : Nat) (e : LineError) : State :=
  let x := s.gleaner d true
  let slices := e.symbols.foldl (fun m y => Sparse.set 0 m (y.1 / 8) (Sparse.get 0 m (y.1 / 8) + 1)) x.slices
  let s := s.setGleaner d true { x with slices }
  match slices.find? (fun y => decide (s.rdN P.GRN_SLICE_LIMIT ≤ y.2)) with
  | some y => if 9 ≤ s.sliceFail d then s.wrN (P.RED_GRN_SLICE_FAIL d) y.1 else s
  | none => s

/-- A lap ends: its time is reported, and a lap beyond its limit is logged and counted (R300). -/
def State.endLap (s : State) (d : Nat) (granary : Bool) : State :=
  let x := s.gleaner d granary
  let lap := (s.time - x.lapStart) / 4096000000
  let limit := if granary then s.rdN P.GRN_GLEAN_LAP_MAX else s.rdN P.SRM_GLEAN_LAP_MAX
  let slow := decide (msec limit < s.time - x.lapStart)
  let s := s.wr (if granary then P.RED_GRN_LAP d else P.RED_SRM_LAP d) (satWord lap)
  let s := if slow then (s.logEvent 0x0903 (unitOf granary d) 1 lap (b2n granary)).addSat (P.RED_LAP_SLOW d) 1 else s
  s.setGleaner d granary { x with next := 0, lapStart := s.time, laps := x.laps + 1, slow, slices := [] }

/-- What the Gleaner does with the outcome of a read (R299, R302). -/
def State.gleanLine (s : State) (d line : Nat) : State :=
  let o := s.lineOut d line
  let e := s.lineError d line
  let s := s.noteLine d line
  if o = outCorrected then
    let s := s.writeBackLine d line
    if s.sliceFail d < 9 then s else s.markSlice d e
  else if o = outClean then s
  else
    let s := s.poisonLine d line
    let s := s.logEvent 0x0902 (unitOf true d) 2 (64 * line) o
    s.damageCovering d true (64 * line) 64
def State.gleanWord (s : State) (d w : Nat) : State :=
  let o := s.wordOut d w
  let s := s.noteWord d w
  if o = outCorrected then s.writeBackWord d w
  else if o = outClean then s
  else
    let s := s.poisonWord d w
    let s := s.logEvent 0x0902 (unitOf false d) 2 (8 * w) o
    (s.damageCovering d false (8 * w) 8).reloadPage d w

/-- The refresh interval of a band, in ns (Table 9-3). -/
def refreshNs : Nat → Nat
  | 0 => 3906
  | 1 => 1953
  | _ => 977

/-- REFRESH_DUE (R275): a refresh is due once the interval of the band has passed since the last, and is done before any other access. -/
def refreshDue (d : Nat) (s : State) : State :=
  if !s.mem.selfRefresh && decide ((s.memDie d).lastRefresh + ns (refreshNs (s.rdN (P.RED_GRN_BAND d))) ≤ s.time) then
    s.setMemDie d { s.memDie d with lastRefresh := s.time }
  else s

/-- A die's Gleaner may read within the present µs (R298). -/
def State.gleanFits (s : State) (d : Nat) (granary : Bool) : Bool :=
  let x := s.gleaner d granary
  x.readIn != s.now / 1000 || decide (x.reads < s.rdN (if granary then P.GRN_GLEAN_MAX else P.SRM_GLEAN_MAX))
def State.countRead (s : State) (d : Nat) (granary : Bool) : State :=
  let x := s.gleaner d granary
  let us := s.now / 1000
  s.setGleaner d granary { x with readIn := us, reads := if x.readIn = us then x.reads + 1 else 1 }

/-- The Gleaner's read of its next line or word, and the end of a lap. -/
def State.gleanNext (s : State) (d : Nat) (granary : Bool) : State :=
  let a := (s.gleaner d granary).next
  let s := s.countRead d granary
  let s := if granary then s.gleanLine d a else s.gleanWord d a
  if a + 1 = (if granary then granLines else sramWords) then s.endLap d granary
  else s.setGleaner d granary { s.gleaner d granary with next := a + 1 }

/-- A request, or a master at work, keeps the Gleaner from the port of a word (R289). -/
def State.portBusy (s : State) (w : Nat) : Bool :=
  let port := 2 * (w / 65536)
  decide (s.time / 4096 < (s.portHold port).1) || s.mem.test.waiting.any (fun x => x.port == port)

/-- GLEANER_READ (R298 to R302, R307): the Gleaner of a die reads its next line or word in an idle cycle, within its limit.  In the Granary a refresh
that is due is done first, and the Gleaner waits; in the SRAM a borrowed region is returned first. -/
def gleanerRead (d : Nat) (granary : Bool) (s : State) : State :=
  if !s.running || (granary && (s.mem.selfRefresh || !s.mem.granReady)) || !s.gleanFits d granary then s
  else
    let a := (s.gleaner d granary).next
    if granary then
      let t := refreshDue d s
      if (t.memDie d).lastRefresh = (s.memDie d).lastRefresh then s.gleanNext d true else t
    else
      let s := s.touch a false
      if s.blocked a || s.portBusy a then s else s.gleanNext d false
def execGleanerRead (t : Nat) (die : Fin 2) (granary : Bool) (s : State) : Host.Outcome State Fault Refusal :=
  .next (gleanerRead die granary (s.at_ t).settle)

/-! ### Refresh (R275) -/

/-- The band a temperature leads to from a band: entered at its lower bound, left downwards 2 °C under it (R275), in m°C. -/
def bandOf (old : Nat) (t : Int) : Nat :=
  if 95000 ≤ t then 2
  else if old = 2 && 93000 ≤ t then 2
  else if 85000 ≤ t then 1
  else if 1 ≤ old && 83000 ≤ t then 1
  else 0

/-- STACK_TEMP_READ (R275): the band follows the stack's temperature. -/
def stackTempRead (d : Nat) (milliC : Int) (s : State) : State :=
  let s := s.setMemDie d { s.memDie d with stackTemp := milliC }
  s.wrN (P.RED_GRN_BAND d) (bandOf (s.rdN (P.RED_GRN_BAND d)) milliC)
def execStackTempRead (t : Nat) (die : Fin 2) (milliC : Int) (s : State) : Host.Outcome State Fault Refusal :=
  .next (stackTempRead die milliC (s.at_ t))

/-- REFRESH_DUE. -/
def execRefreshDue (t : Nat) (die : Fin 2) (s : State) : Host.Outcome State Fault Refusal := .next (refreshDue die (s.at_ t))

end Sys2Proof.Machine
end

