-- ==== Sys2Proof/Machine/Tmr.lean ====
section
/-! DEFINITION. Meanings of the timing rows (chapter 5): edges, stamps, interval results, hits, and timed pulse outputs. -/

namespace Sys2Proof.Machine

/-! ### Edges and stamps (R135 to R146) -/

/-- COMPARATOR_CROSSING (R135): the comparator output of an input passes a level: 0 above U, 1 below U, 2 below L, 3 above L. -/
def execComparatorCrossing (t : Nat) (input : Fin 512) (kind : Fin 4) (s : State) : Host.Outcome State Fault Refusal :=
  .next ((s.at_ t).crossLevel input kind)

/-- EDGE_ACCEPT (R136): a crossing has stood for TMR_QUAL. -/
def execEdgeAccept (t : Nat) (input : Fin 512) (s : State) : Host.Outcome State Fault Refusal := .next ((s.at_ t).acceptDue input)

/-- HOLDOFF_END (R137). -/
def execHoldoffEnd (t : Nat) (input : Fin 512) (s : State) : Host.Outcome State Fault Refusal := .next ((s.at_ t).holdoffDue input)

/-- A stamp word meets its input's buffer (R144): bit 9 is GAP. -/
def State.bufferStamp (s : State) (n : Nat) (m : StampMade) : State :=
  let x := s.timing n
  if 4 ≤ x.buffer.length then
    ((s.setTiming n { x with gapRate := true }).addSat (P.TMR_LOST_RATE n) 1).setBit (P.TMR_IN_STATUS n) 3
  else
    let w := m.word + 512 * b2n (m.gap || x.gapRate)
    let s := s.setTiming n { x with gapRate := false, buffer := x.buffer ++ [(m.done, (m.stamp / 4096).toNat, BitVec.ofNat 64 w)] }
    (s.addWrap (P.TMR_STAMP_COUNT n) 1).setBit (P.TMR_IN_STATUS n) 0

/-- STAMP_WORD_COMPLETE (R143, R144, R147): the interval engines take the stamp, and its word enters the buffer. -/
def stampWordComplete (n : Nat) (s : State) : State := match (s.timing n).making with
  | [] => s
  | m :: ms =>
    if s.time < m.done then s
    else
      let s := s.setTiming n { s.timing n with making := ms }
      let rising := bitOf m.word 10
      let s := s.itvStamp n rising m.stamp m.crossing m.gap
      let s := if rising then s.startFrom n m.stamp m.crossing (inputsOf (n / 128)) else s
      (s.takeStarts n).bufferStamp n m
def execStampWordComplete (t : Nat) (input : Fin 512) (s : State) : Host.Outcome State Fault Refusal :=
  .next (stampWordComplete input (s.at_ t))

/-- The input of a die served next in ascending rotation after the one served last, among those that satisfy a test (R144; log 77). -/
def rotation (fe last : Nat) (ready : Nat → Bool) : Option Nat :=
  (((List.range 128).map (fun i => 128 * fe + (last + 1 + i) % 128))).find? ready

/-- STAMP_ARBITER_STEP (R144, R145): every 15.625 ns one word leaves a front end for both dies; a word that completes at the instant of the step is
not eligible (log 77). -/
def stampArbiterStep (fe : Nat) (s : State) : State :=
  let (last, at_) := Sparse.get (127, 0) s.tmr.stampLast fe
  if at_ ≠ 0 && decide (s.time < at_ + 64000) then s
  else
    let ready := fun n => match (s.timing n).buffer with
      | [] => false
      | w :: _ => decide (w.1 < s.time)
    let step := fun (s : State) (i : Nat) => { s with tmr := { s.tmr with stampLast := Sparse.set (127, 0) s.tmr.stampLast fe (i, s.time) } }
    match rotation fe last ready with
    | none => step s last
    | some n => match (s.timing n).buffer with
      | [] => s
      | w :: ws =>
        let s := s.setTiming n { s.timing n with buffer := ws }
        (step s (n % 128)).send fe (.stamp w.2.2 w.2.1)
def execStampArbiterStep (t : Nat) (fe : Fin 4) (s : State) : Host.Outcome State Fault Refusal := .next (stampArbiterStep fe (s.at_ t))

/-! ### Intervals (R147 to R152) -/

/-- ITV_SET_TIMEOUT (R148): TMR_ITV_TIMEOUT has elapsed since the set opened; the next set opens. -/
def itvSetTimeout (n : Nat) (s : State) : State := match (s.timing n).set with
  | none => s
  | some it =>
    let e := it.opened + msec (s.rdN (P.TMR_ITV_TIMEOUT n))
    if s.time < e then s else (s.closeSet n 2 e).openSet n e
def execItvSetTimeout (t : Nat) (input : Fin 512) (s : State) : Host.Outcome State Fault Refusal := .next (itvSetTimeout input (s.at_ t))

/-- ITV_DELAY_WINDOW_CLOSE (R147): the window of a pending start closes without an end. -/
def itvDelayWindowClose (n : Nat) (s : State) : State :=
  let s := s.takeStarts n
  let x := s.timing n
  match x.start with
  | none => s
  | some st =>
    let e := (st + ns (s.rdN (P.TMR_ITV_WINDOW n))).toNat
    if s.rdN (P.TMR_ITV_MODE n) ≠ 3 || s.time < e || !s.settled n e then s
    else (s.setTiming n { x with start := none, startOld := false }).missItv n
def execItvDelayWindowClose (t : Nat) (input : Fin 512) (s : State) : Host.Outcome State Fault Refusal :=
  .next (itvDelayWindowClose input (s.at_ t))

/-- The mean and the population deviation of a set with c ≥ 1 intervals, in ns, each rounded once (R150). -/
def ItvSet.mean (it : ItvSet) : Fl := Fl.div (.fin false it.s1 0) (.fin false (4096 * it.n) 0)
def ItvSet.deviation (it : ItvSet) : Fl :=
  let v := it.n * it.s2 - it.s1 * it.s1
  let a := v * 2 ^ 480 / (it.n * it.n)
  let r := Fl.isqrt (Fl.size a / 2 + 1) a 0
  if v = 0 then .fin false 0 0
  else Fl.to64 (.fin false (2 * r + (if r * r * (it.n * it.n) = v * 2 ^ 480 then 0 else 1)) (-253))

/-- The frequency of a set: 2^k over the mean in s (R152, Table 3-12). -/
def ItvSet.frequency (it : ItvSet) : Fl := Fl.div (Fl.ofNat (2 ^ it.prescale)) (Fl.mul it.mean (Fl.dec 1 9))

/-- LINVAL of a result (R152, Table 8-10): curve 12 over the frequency, with the gauge temperature at the close (log 76). -/
def State.linFrequency (s : State) (n : Nat) (it : ItvSet) (close : Nat) : Word × Option Nat :=
  if it.n = 0 || s.rdN (P.FE_LIN_CURVE n) ≠ 12 || s.rdN (P.FE_IN_MODE n) ≠ 4 then (nan0, none)
  else
    let r := s.rdN (P.FE_LIN_REF n)
    if r = 0xFFFF then ofCurved (s.curve12 n it.frequency none)
    else match s.refUsable r close with
      | some t => ofCurved (s.curve12 n it.frequency (some t))
      | none => (nan1, some 9)

/-- NS and FRAC of a stamp in 44 bits. -/
def stamp44 (x : Nat) : Nat := x % 17592186044416

/-- The eight words of an interval result (Table 8-10). -/
def itvWords (n : Nat) (c : ItvClosed) (mean sd : W64) (first wraps : Nat) (lin : Word) : List W64 :=
  let it := c.set
  let w := BitVec.ofNat 64
  [w (n + 512 * it.mode + 2048 * it.prescale + 32768 * c.reason + 262144 * it.n + 549755813888 * it.discards + 1152921504606846976 * wraps),
    mean, sd, w it.least, w it.most, w first, w (stamp44 c.close), w lin.toNat]

/-- ITV_RESULT_READY (R150 to R152): the result of a closed set is formed; FIRST and WRAPS of a set without an interval are left open (log 75).  The spec does
not say whether TMR_ITV_REC, FE_LIN_CURVE and FE_IN_MODE are those at the close or at the readiness up to 5 µs later, between which a commit may lie: the
model takes those at readiness (log 108). -/
def itvResultReady (n : Nat) (s : State) : State := match (s.timing n).closed with
  | [] => s
  | c :: cs =>
    if s.time < c.close || !s.settled n c.close then s
    else
      let it := c.set
      let s := s.setTiming n { s.timing n with closed := cs }
      let empty := decide (it.n = 0)
      let mean := if empty then 0x7FF8000000000000 else Fl.bits64 it.mean
      let sd := if empty then 0x7FF8000000000000 else Fl.bits64 it.deviation
      let s := if empty then s.setBit (P.TMR_IN_STATUS n) 6 else s
      let s := s.wrN (P.TMR_ITV_LAST_COUNT n) it.n
      let s := (s.wr64 (P.TMR_ITV_LAST_MEAN (2 * n)) mean.toNat).wr64 (P.TMR_ITV_LAST_SD (2 * n)) sd.toNat
      let (lin, bit) := s.linFrequency n it (c.close / 4096)
      let s := match bit with
        | some b => s.setBit (P.FE_IN_STATUS n) b
        | none => s
      let (first, wraps, s) :=
        if empty then
          let (a, s) := s.takeFree
          let (b, s) := s.takeFree
          (stamp44 (a.toNat + 4294967296 * b.toNat), b.toNat / 65536 % 15, s)
        else (stamp44 it.first.toNat, (c.close / 17592186044416 - it.first.toNat / 17592186044416) % 16, s)
      if s.rdN (P.TMR_ITV_REC n) = 1 then s.send (n / 128) (.interval (itvWords n c mean sd first wraps lin) (c.close / 4096)) else s
def execItvResultReady (t : Nat) (input : Fin 512) (s : State) : Host.Outcome State Fault Refusal := .next (itvResultReady input (s.at_ t))

/-! ### Hits (R203) -/

/-- A list without its first element that satisfies a test. -/
def dropFirstWhere {α : Type} (f : α → Bool) : List α → List α
  | [] => []
  | x :: xs => if f x then xs else x :: dropFirstWhere f xs

/-- A hit is lost (R203, R213). -/
def State.loseHit (s : State) (n : Nat) : State := (s.addSat (P.TRG_HIT_LOST (n / 128)) 1).setBit P.TRG_STATUS 6

/-- HIT_COMPLETE (R203): a hit that has completed enters its input's buffer of four, or is lost. -/
def hitComplete (n : Nat) (s : State) : State :=
  let x := s.timing n
  let due := fun (h : Hit) => decide (h.done ≤ s.time)
  match x.hits.find? due with
  | none => s
  | some h =>
    let s := s.setTiming n { x with hits := dropFirstWhere due x.hits }
    if 4 ≤ x.hitBuffer.length then s.loseHit n else s.setTiming n { s.timing n with hitBuffer := x.hitBuffer ++ [h] }
def execHitComplete (t : Nat) (input : Fin 512) (s : State) : Host.Outcome State Fault Refusal := .next (hitComplete input (s.at_ t))

/-- HIT_ARBITER_STEP (R203): every 7.8125 ns one hit leaves a front end for both dies (log 77). -/
def hitArbiterStep (fe : Nat) (s : State) : State :=
  let (last, at_) := Sparse.get (127, 0) s.tmr.hitLast fe
  if at_ ≠ 0 && decide (s.time < at_ + 32000) then s
  else
    let ready := fun n => match (s.timing n).hitBuffer with
      | [] => false
      | h :: _ => decide (h.done < s.time)
    let step := fun (s : State) (i : Nat) => { s with tmr := { s.tmr with hitLast := Sparse.set (127, 0) s.tmr.hitLast fe (i, s.time) } }
    match rotation fe last ready with
    | none => step s last
    | some n => match (s.timing n).hitBuffer with
      | [] => s
      | h :: hs => (step (s.setTiming n { s.timing n with hitBuffer := hs }) (n % 128)).send fe (.hit h)
def execHitArbiterStep (t : Nat) (fe : Fin 4) (s : State) : Host.Outcome State Fault Refusal := .next (hitArbiterStep fe (s.at_ t))

/-! ### Timed pulse outputs (R153 to R158) -/

def State.tpo (s : State) (i : Nat) : TpoState := Sparse.get {} s.tmr.tpos i
def State.setTpo (s : State) (i : Nat) (x : TpoState) : State := { s with tmr := { s.tmr with tpos := Sparse.set {} s.tmr.tpos i x } }

def tpoIdle : Nat := 0
def tpoArmed : Nat := 1
def tpoRunning : Nat := 2

/-- The TPOs a mask names. -/
def tposOf (mask : Nat) : List Nat := (List.range 32).filter (fun i => bitOf mask i)

/-- A schedule takes the settings in force (R153, R154); a pulse in progress holds its first pulses back (R157).  TMR_TPO_STATE reads ARMED at once, also while
the old pulse completes: `ARMED after R157' does not say when (log 108). -/
def State.armTpo (s : State) (first i : Nat) : State :=
  let x := s.tpo i
  let c : Schedule :=
    { first, period := 128 * s.rdN (P.TMR_TPO_PERIOD_NS i) + s.rdN (P.TMR_TPO_PERIOD_FR i), width := s.rdN (P.TMR_TPO_WIDTH i)
      count := s.rdN (P.TMR_TPO_COUNT i), pol := s.rdN (P.TMR_TPO_POL i)
      notBefore := match x.pulseEnd with
        | some e => e + 512
        | none => 0 }
  let s := s.setTpo i { x with schedule := some c, ending := false, disarmed := false }
  (s.wrN (P.TMR_TPO_STATE i) tpoArmed).setBit (P.TMR_TPO_STATUS i) 0

/-- DISARM (Table 5-9, R157): a running pulse completes its width. -/
def State.disarmTpo (s : State) (i : Nat) : State :=
  let x := s.tpo i
  let running := s.rdN (P.TMR_TPO_STATE i) = tpoRunning
  if running && x.pulseEnd.isSome then s.setTpo i { x with schedule := none, ending := false, disarmed := true }
  else (s.setTpo i { x with schedule := none, ending := false }).wrN (P.TMR_TPO_STATE i) tpoIdle

/-- The first-edge time of a TPO.ARM in 1/128 ns. -/
def tpoFirst (p : List Word) : Nat := 128 * (word p 1 + 4294967296 * word p 2) + bits (word p 3) 6 0

/-- What R155 refuses with RANGE, for an acting instant in 1/4096 ns. -/
def State.tpoRange (s : State) (p : List Word) (at_ : Nat) : Bool :=
  let mask := word p 0
  let f := 32 * tpoFirst p
  mask == 0 || (tposOf mask).any (fun i => s.rdN (P.TMR_TPO_EN i) == 0)
    || (!bitOf (word p 3) 8 && (decide (f < at_ + usec 5) || decide (at_ + secs 3600 < f)))

/-- TPO.ARM acts. -/
def State.tpoAct (s : State) (p : List Word) : State :=
  (tposOf (word p 0)).foldl (fun s i => if bitOf (word p 3) 8 then s.disarmTpo i else s.armTpo (tpoFirst p) i) s

/-- A scheduled TPO.ARM at its acting instant, with its final reply (R155). -/
def State.tpoScheduled (s : State) (h : Hdr) (p : List Word) : State :=
  if s.tpoRange p s.time then s.finish 0x44 h stRange [] else (s.tpoAct p).finish 0x44 h stOk [BitVec.ofNat 32 (word p 0)]

/-- TPO_ARM (R155, R188, Table 5-8; log 20). -/
def tpoArmBody (h : Hdr) (p : List Word) (s : State) : State × Answer :=
  let reserved := word p 3 / 512 ≠ 0 || bitOf (word p 3) 7
  let disarm := bitOf (word p 3) 8
  if p.length ≠ 4 || reserved || (disarm && (word p 1 ≠ 0 || word p 2 ≠ 0 || bits (word p 3) 6 0 ≠ 0)) then refuse s stBadParam
  else if s.rdN P.TB_STATE = 0 || s.tpoRange p (if h.sched then ns h.timeTag.toNat else s.time) then refuse s stRange
  else if h.sched then (s, .later (some h.timeTag.toNat))
  else okay (s.tpoAct p) [BitVec.ofNat 32 (word p 0)]

/-- Parameter word 3 with its DISARM bit as a mode-split row has it. -/
def forceDisarm (p : List Word) (on : Bool) : List Word :=
  if p.length ≤ 3 then p
  else
    let a := word p 3
    let a := if on then a ||| 256 else if bitOf a 8 then a - 256 else a
    p.take 3 ++ BitVec.ofNat 32 a :: p.drop 4

def execTpoArm (h : Hdr) (p : List Word) (s : State) : Host.Outcome State Fault Refusal :=
  .next (s.receive 0x44 h (forceDisarm p false) (tpoArmBody h (forceDisarm p false)))

/-- TPO_DISARM (R155, R156): TPO.ARM with DISARM 1. -/
def execTpoDisarm (h : Hdr) (p : List Word) (s : State) : Host.Outcome State Fault Refusal :=
  .next (s.receive 0x44 h (forceDisarm p true) (tpoArmBody h (forceDisarm p true)))

/-- A schedule none of whose pulses is left to place ends, with the inactive edge of its last placed pulse where that is in progress (Table 5-9; log 78). -/
def State.exhaustTpo (s : State) (i : Nat) : State :=
  let running := s.rdN (P.TMR_TPO_STATE i) = tpoRunning
  if running && (s.tpo i).pulseEnd.isSome then s.setTpo i { s.tpo i with ending := true } else
  let s := (s.setTpo i { s.tpo i with schedule := none }).wrN (P.TMR_TPO_STATE i) tpoIdle
  if running then s.setBit (P.TMR_TPO_STATUS i) 1 else s

/-- TPO_ACTIVE_EDGE (R153, R157, R158): the active edge of the next pulse falls due; it is placed and is a start event of R147, or it is skipped (log 78). -/
def tpoActiveEdge (i : Nat) (s : State) : State :=
  let x := s.tpo i
  match x.schedule with
  | none => s
  | some c =>
    let a := c.first + c.n * c.period
    if s.time < 32 * a then s
    else
      let c' := { c with n := c.n + 1 }
      let last := c.count != 0 && c'.n == c.count
      let s' := s.setTpo i { x with schedule := some c' }
      let skip := fun (bit : Nat) => let s := s'.setBit (P.TMR_TPO_STATUS i) bit; if last then s.exhaustTpo i else s
      if a < c.notBefore then skip 2
      else if a < c.stepFrom then skip 3
      else
        let s := s.setTpo i { x with schedule := some c', pulseEnd := some (a + c.width), ending := last, pulsePol := c.pol }
        let s := s.wrN (P.TMR_TPO_STATE i) tpoRunning
        s.startFrom (0x200 + i) ((32 * a : Nat) : Int) (32 * a) (inputsOf (i / 8))
def execTpoActiveEdge (t : Nat) (tpo : Fin 32) (s : State) : Host.Outcome State Fault Refusal := .next (tpoActiveEdge tpo (s.at_ t))

/-- TPO_INACTIVE_EDGE (R153, R156): the pulse in progress ends; the last pulse of a schedule, and a disarmed one, lead to IDLE. -/
def tpoInactiveEdge (i : Nat) (s : State) : State :=
  let s := (s.startedBy (0x200 + i) (inputsOf (i / 8))).foldl State.takeStarts s
  let x := s.tpo i
  match x.pulseEnd with
  | none => s
  | some e =>
    if s.time < 32 * e then s
    else if x.ending then
      ((s.setTpo i { x with pulseEnd := none, ending := false, schedule := none }).wrN (P.TMR_TPO_STATE i) tpoIdle).setBit (P.TMR_TPO_STATUS i) 1
    else if x.disarmed then (s.setTpo i { x with pulseEnd := none, disarmed := false }).wrN (P.TMR_TPO_STATE i) tpoIdle
    else s.setTpo i { x with pulseEnd := none }
def execTpoInactiveEdge (t : Nat) (tpo : Fin 32) (s : State) : Host.Outcome State Fault Refusal := .next (tpoInactiveEdge tpo (s.at_ t))

/-- The level a TPO's pin drives, none at high impedance (R153, R154): a pulse in progress keeps the polarity of its own schedule (R157). -/
def State.tpoPin (s : State) (i : Nat) : Option Bool :=
  let x := s.tpo i
  let pol := if x.pulseEnd.isSome then x.pulsePol else match x.schedule with
    | some c => c.pol
    | none => s.rdN (P.TMR_TPO_POL i)
  if s.rdN (P.TMR_TPO_EN i) = 0 || s.pwr.pinsOff || s.pwr.hardStop then none else some (x.pulseEnd.isSome != (pol == 1))

end Sys2Proof.Machine
end

