-- ==== Sys2Proof/Machine/Seq.lean ====
section
/-! DEFINITION. Hit lines and sequencers (R204 to R210). -/

namespace Sys2Proof.Machine

/-! ### Arc words (Table 7-2) -/

def arcNext (a : Nat) : Nat := bits a 28 26
def arcFire (a : Nat) : Bool := bitOf a 25
def arcTstart (a : Nat) : Bool := bitOf a 24
def arcCop (a : Nat) : Nat := bits a 23 22
def arcEvent (a : Nat) : Nat := bits a 19 16
def arcArg (a : Nat) : Nat := bits a 15 0

/-- An event that reaches a sequencer in a state (Table 7-3, kinds 1 to 3). -/
inductive SeqEvent where
  | line (l : Nat)
  | fired (q : Nat)
  | timer
  deriving DecidableEq, Repr

def arcMatches (ev : SeqEvent) (a : Nat) : Bool := match ev with
  | .line l => arcEvent a == 1 && arcArg a == l
  | .fired q => arcEvent a == 2 && arcArg a == q
  | .timer => arcEvent a == 3

def State.seq (s : State) (q : Nat) : Sequencer := Sparse.get {} s.trg.seqs q
def State.setSeq (s : State) (q : Nat) (x : Sequencer) : State := { s with trg := { s.trg with seqs := Sparse.set {} s.trg.seqs q x } }

def seqHalted : Nat := 8
def State.seqState (s : State) (q : Nat) : Nat := s.rdN (P.TRG_SEQ_STATE q)

/-- The two arc words of a state, under the parameters of a view. -/
def arcsOf (view : State) (q st : Nat) : List Nat := [view.rdN (P.TRG_SEQ_ARC (16 * q + 2 * st)), view.rdN (P.TRG_SEQ_ARC (16 * q + 2 * st + 1))]

/-- An arc examined on entry to a state matches (kinds 4 to 6). -/
def State.entryMatches (s : State) (q a : Nat) : Bool :=
  (arcEvent a == 4 && decide (arcArg a ≤ s.rdN (P.TRG_SEQ_CTR (2 * q)))) || (arcEvent a == 5 && decide (arcArg a ≤ s.rdN (P.TRG_SEQ_CTR (2 * q + 1))))
    || arcEvent a == 6

/-- COP of a taken arc; counters saturate at 65,535 (R206). -/
def State.doCop (s : State) (q cop : Nat) : State :=
  let up := fun (s : State) (k : Nat) => s.wrN k (min 65535 (s.rdN k + 1))
  match cop with
  | 1 => up s (P.TRG_SEQ_CTR (2 * q))
  | 2 => up s (P.TRG_SEQ_CTR (2 * q + 1))
  | 3 => (s.wrN (P.TRG_SEQ_CTR (2 * q)) 0).wrN (P.TRG_SEQ_CTR (2 * q + 1)) 0
  | _ => s

/-- The timer starts at an instant; an expiry below `lim` falls within the step in progress (R208, R213). -/
def State.startTimer (s view : State) (lim tau q : Nat) : State :=
  let e := tau + view.rdN (P.TRG_SEQ_TIMER q)
  s.setSeq q { s.seq q with timer := some e, timerDue := decide (e < lim) }

/-- A sequencer fires at an instant: counted, and its auto interval starts afresh (R209). -/
def State.noteFire (s view : State) (lim tau q : Nat) : State :=
  let auto := 1000 * view.rdN (P.TRG_SEQ_AUTO q)
  let s := s.setSeq q { s.seq q with lastFire := tau, autoDue := auto != 0 && decide (tau + auto < lim) }
  s.addWrap (P.TRG_FIRED_COUNT q) 1

/-- The step limit of R207 is exceeded. -/
def State.haltLoop (s : State) (q : Nat) : State := (s.wrN (P.TRG_SEQ_STATE q) seqHalted).setBit P.TRG_STATUS 7

/-- An arc is taken, then those its next state takes on entry (R206, R207); answers the fires, in order. -/
def seqTake (view : State) (lim tau q : Nat) : Nat → Nat → State → State × List Nat
  | 0, _, s => (s.haltLoop q, [])
  | k + 1, a, s =>
    let x := s.seq q
    let n := if x.arcsAt = tau + 1 then x.arcs else 0
    if 8 ≤ n then (s.haltLoop q, [])
    else
      let s := (s.setSeq q { x with arcsAt := tau + 1, arcs := n + 1 }).doCop q (arcCop a)
      let s := if arcTstart a then s.startTimer view lim tau q else s
      let s := if arcFire a then s.noteFire view lim tau q else s
      let fires := if arcFire a then [q] else []
      let s := s.wrN (P.TRG_SEQ_STATE q) (arcNext a)
      match (arcsOf view q (arcNext a)).find? (s.entryMatches q) with
      | none => (s, fires)
      | some b => let r := seqTake view lim tau q k b s; (r.1, fires ++ r.2)

/-- An event reaches one sequencer. -/
def State.deliver (s view : State) (lim tau : Nat) (ev : SeqEvent) (q : Nat) : State × List Nat :=
  if s.seqState q = seqHalted then (s, [])
  else match (arcsOf view q (s.seqState q)).find? (arcMatches ev) with
    | none => (s, [])
    | some a => seqTake view lim tau q 9 a s

/-- An event reaches every sequencer. -/
def State.deliverAll (s view : State) (lim tau : Nat) (ev : SeqEvent) : State × List Nat :=
  (List.range 32).foldl (fun (r : State × List Nat) q => let x := r.1.deliver view lim tau ev q; (x.1, r.2 ++ x.2)) (s, [])

/-- SEQ events follow once every sequencer has handled what caused the fires (Table 7-3). -/
def seqRounds (view : State) (lim tau : Nat) : Nat → List Nat → State → State × List Nat
  | 0, _, s => (s, [])
  | _, [], s => (s, [])
  | k + 1, fired, s =>
    let r := fired.foldl (fun (r : State × List Nat) q => let x := r.1.deliverAll view lim tau (.fired q); (x.1, r.2 ++ x.2)) (s, [])
    let rest := seqRounds view lim tau k r.2 r.1
    (rest.1, r.2 ++ rest.2)

/-- What an event fires, with the rounds of SEQ events that follow. -/
def State.withRounds (view : State) (lim tau : Nat) (r : State × List Nat) : State × List Nat :=
  let rest := seqRounds view lim tau 300 r.2 r.1
  (rest.1, r.2 ++ rest.2)

/-- A sequencer enters state 0 under R208; answers the fires of arcs taken on entry (log 85). -/
def State.restartSeq (s view : State) (lim tau q : Nat) : State × List Nat :=
  let auto := 1000 * view.rdN (P.TRG_SEQ_AUTO q)
  let x : Sequencer := { s.seq q with timer := none, timerDue := false, lastFire := tau, autoDue := auto != 0 && decide (tau + auto < lim) }
  let s := (s.setSeq q x).doCop q 3
  let s := s.wrN (P.TRG_SEQ_STATE q) 0
  match (arcsOf view q 0).find? (s.entryMatches q) with
  | none => (s, [])
  | some a => seqTake view lim tau q 9 a s

/-! ### Hit lines (R204) -/

/-- A hit reaches its line; a line event goes to the sequencers.  Hits are held for the longest TRG_LINE_WINDOW, which a commit may set. -/
def State.lineHit (s view : State) (lim : Nat) (h : Hit) : State × List Nat :=
  let t := h.instant
  let l := h.line
  let w := view.rdN (P.TRG_LINE_WINDOW l)
  let least := view.rdN (P.TRG_LINE_MIN l)
  let counts := decide (Sparse.get 0 s.trg.lineAt l ≤ t)
  let held := (Sparse.get [] s.trg.lines l).filter (fun x => decide (t < x.1 + 1000000) && decide (x.1 ≤ t))
  let held := if counts then (t, h.input) :: held else held
  let inputs := ((held.filter (fun x => decide (t < x.1 + w))).map (·.2)).eraseDups
  if least ≤ 1 || (counts && decide (least ≤ inputs.length)) then
    let s := { s with trg := { s.trg with lines := Sparse.set [] s.trg.lines l [], lineAt := Sparse.set 0 s.trg.lineAt l (t + 1) } }
    ((s.count 9 l).deliverAll view lim t (.line l)) |> State.withRounds view lim t
  else ({ s with trg := { s.trg with lines := Sparse.set [] s.trg.lines l held } }, [])

end Sys2Proof.Machine
end

