-- ==== Sys2Proof/Machine/Windrow.lean ====
section
/-! DEFINITION. WDR records (R227 to R231, R250). -/

namespace Sys2Proof.Machine

def allGroups : List Nat := List.range 128

/-! ### Windrows (R227 to R230, R250) -/

/-- MIN, MAX, MEAN and RMS of an interval's values, as two words (R228). -/
def windrowWords (vs : List W64) : List W64 :=
  let xs := vs.map Fl.of64
  let w := BitVec.ofNat 64
  match xs with
  | [] => [w (0x7FC00000 + 4294967296 * 0x7FC00000), w (0x7FC00000 + 4294967296 * 0x7FC00000)]
  | x :: rest =>
    let lo := rest.foldl (fun a b => if Fl.lt b a then b else a) x
    let hi := rest.foldl (fun a b => if Fl.lt a b then b else a) x
    let n := Fl.ofNat xs.length
    let mean := Fl.div (xs.foldl Fl.add flZero) n
    let rms := Fl.sqrt (Fl.div (xs.foldl (fun a b => Fl.add a (Fl.mul b b)) flZero) n)
    [w (bits32of lo + 4294967296 * bits32of hi), w (bits32of mean + 4294967296 * bits32of rms)]

/-- The thermal divisor that governs an interval with a given start (R230, R502). -/
def State.windrowDivisor (s : State) (from_ : Nat) : Nat :=
  max 1 (if from_ < s.trg.wrThr.1 then s.trg.wrThr.2 else s.rdN P.TRG_WR_THR_DIV)

/-- An input contributes to an interval of period j: its group was not STOPPED at the interval's last ns, or a word of it came (R227). -/
def State.contributed (s view : State) (j : Nat) (x : Windrow) (n : Nat) : Bool :=
  view.bit (P.TRG_WR_EN n) j && (s.ranAt (n / 4) (x.to_ - 1) || (Sparse.find? x.sums n).isSome)

/-- The WDR record of one front end for an interval of period j, when an input contributes. -/
def State.windrowRecord (s view : State) (j : Nat) (x : Windrow) (fe : Nat) : State :=
  let ns_ := (inputsOf fe).filter (s.contributed view j x)
  if ns_.isEmpty then s
  else
    let sums := ns_.map (fun n => (Sparse.get {} x.sums n : WindrowSum))
    let mask := (ns_.map (fun n => 2 ^ (n % 128))).sum
    let w := BitVec.ofNat 64
    let kspec := fe + 4 * j + 32 * b2n x.partial_ + 64 * b2n (sums.any (·.excluded)) + 128 * b2n (sums.any (·.settling))
      + 4294967296 * ((x.to_ - x.from_) / 1000)
    s.build { kind := 1, time := x.from_, last := x.to_, kspec, body := [w (mask % 18446744073709551616), w (mask / 18446744073709551616)]
                ++ sums.flatMap (fun v => windrowWords v.values), step := x.step, old := x.old, dir := s.recDir }

/-- The parameters an interval ran under. -/
def State.windrowView (s : State) (x : Windrow) : State := if x.old then { s with par := s.cmd.oldPar } else s.viewAt (x.to_ - 1)

/-- The last whole interval of period j that has ended by an instant, unless it has been built or skipped. -/
def State.wholeWindrow (s : State) (j now : Nat) : Option Windrow :=
  let d := 1000 * s.rdN (P.TRG_WR_PERIOD j)
  let to_ := now / d * d
  if d = 0 || to_ = 0 || to_ ≤ Sparse.get 0 s.trg.wrDone j then none else some { from_ := to_ - d, to_ }

/-- The interval of period j that ends next, when it has ended by an instant: the oldest one in progress, or a whole one that no word has entered. -/
def State.endingWindrow (s : State) (j now : Nat) : Option Windrow := match (Sparse.get [] s.trg.windrows j : List Windrow) with
  | w :: _ => if w.old || decide (w.to_ ≤ now) then some w else (s.wholeWindrow j now).filter (fun x => decide (x.to_ ≤ w.from_))
  | [] => s.wholeWindrow j now

/-- The interval of period j that ends next goes; the time up to its end is done. -/
def State.windrowTaken (s : State) (j : Nat) (x : Windrow) : State :=
  let ws : List Windrow := Sparse.get [] s.trg.windrows j
  { s with trg := { s.trg with windrows := Sparse.set [] s.trg.windrows j (if ws.head? == some x then ws.drop 1 else ws)
                               wrDone := if x.old then s.trg.wrDone else Sparse.set 0 s.trg.wrDone j x.to_ } }

/-- The interval of period j that has ended by an instant gives its WDR records, or a THROTTLE gap when its number is skipped (R229 to R231). -/
def State.closeWindrow (s : State) (j t : Nat) : State := match s.endingWindrow j t with
  | none => s
  | some x =>
    let s := s.windrowTaken j x
    let view := s.windrowView x
    let d := 1000 * view.rdN (P.TRG_WR_PERIOD j)
    if d = 0 then s
    else if x.from_ / d % s.windrowDivisor x.from_ ≠ 0 then
      (if (List.range 512).any (s.contributed view j x) then s.addGap 1 2 0 x.from_ x.to_ else s)
    else [0, 1, 2, 3].foldl (fun s fe => s.windrowRecord view j x fe) s

/-- The ends of intervals of period j by an instant, as local events in their order: those of intervals in progress, or of a whole one. -/
def State.windrowEnds (s : State) (j now : Nat) : List LocalEvent :=
  let ws : List Windrow := Sparse.get [] s.trg.windrows j
  let ended := ws.filter (fun w => w.old || decide (w.to_ ≤ now))
  let ended := if ended.isEmpty then (s.endingWindrow j now).toList else ended
  ended.map (fun w => .windrow j (if w.old then s.tb.stepped - 1 else w.to_))

/-- WINDROW_INTERVAL_END (R213, R229 to R231): an interval of period j has ended; the trigger step of its end builds its records, after all else of that
instant. -/
def windrowIntervalEnd (j : Nat) (s : State) : State := match (s.windrowEnds j s.now).find? (fun e => !s.trg.events.contains e) with
  | none => s
  | some e => { s with trg := { s.trg with events := s.trg.events ++ [e] } }
def execWindrowIntervalEnd (t : Nat) (j : Fin 3) (s : State) : Host.Outcome State Fault Refusal := .next (windrowIntervalEnd j (s.at_ t))

end Sys2Proof.Machine
end

