-- ==== Sys2Proof/Machine/TrgCore.lean ====
section
/-! DEFINITION. Triggers, capture slots, announcements and the trigger step (R211 to R225, R233). -/

namespace Sys2Proof.Machine

def State.setRun (s : State) (g : Nat) (x : GroupRun) : State := { s with trg := { s.trg with groups := Sparse.set {} s.trg.groups g x } }

/-! ### Missed triggers (R217, R219) -/

def missSlots : Nat := 0
def missRearm : Nat := 1
def missRate : Nat := 2
def missLate : Nat := 3

/-- A trigger is missed in a group. -/
def State.missTrigger (s : State) (id instant group reason : Nat) : State :=
  let s := (s.addSat (P.TRG_GRP_MISSED group) 1).setBit P.TRG_STATUS 1
  if s.trg.missed.length < 8 then { s with trg := { s.trg with missed := s.trg.missed ++ [{ id, instant, group, reason }] } }
  else ({ s with trg := { s.trg with unlisted := min 65535 (s.trg.unlisted + 1) } }).setBit P.TRG_STATUS 4

/-! ### Windows and slots (R216 to R218) -/

/-- The captured inputs of a group (R216), with what their furrows need. -/
def State.capturedInputs (s view : State) (g : Nat) : List CapturedInput :=
  ((view.scanSet g).filter (fun n => view.rdN (P.TRG_CAP_EN n) == 1)).map (fun n =>
    { input := n, cls := s.rdN (P.COD_CLASS n), meas := view.rdN (P.TRG_MEAS_EN n) == 1, thresh := view.rdN (P.TRG_MEAS_THRESH n) })

/-- H of R218: the oldest word held that was recorded since the group last left STOPPED. -/
def State.oldestHeld (s : State) (g : Nat) : Option Nat :=
  (((s.ring g).words.filter (fun w => decide ((s.run g).recordFrom ≤ w.instant))).map (·.instant)).min?

/-- The window of R218: PRE′, POST′ and the flags SHORTPRE and TRUNC, or none when the trigger comes LATE. -/
def captureWindow (depth t pre post : Nat) (h : Option Nat) : Option (Nat × Nat × Nat) :=
  let room := depth - 1000000
  let post' := min post room
  let back := match h with
    | some a => t - a
    | none => 0
  let pre' := min pre (min (room - post') back)
  let late := match h with
    | some a => decide (t + post' ≤ a)
    | none => false
  if late then none else some (pre', post', b2n (decide (pre' < pre)) + 2 * b2n (decide (post' < post)))

/-- A slot is free at T, or still capturing or re-arming (R217). -/
def slotFree (rearm t : Nat) : Option CaptureSlot → Bool
  | none => true
  | some x => decide (x.instant + x.post + rearm ≤ t)
def slotRearming (rearm t : Nat) : Option CaptureSlot → Bool
  | none => false
  | some x => decide (x.instant + x.post ≤ t) && decide (t < x.instant + x.post + rearm)

/-- What a group does with a trigger that addresses it. -/
inductive Taken where
  | ignored
  | missed
  | captured (c : GroupCapture) (flags : Nat)
  deriving DecidableEq, Repr

/-- A group that captures takes a slot and counts a shot (Table 7-6). -/
def State.takeSlot (s view : State) (g i t post : Nat) : State :=
  let x := s.run g
  let s := s.setRun g { x with slots := Sparse.put x.slots i { instant := t, post }, shots := x.shots + 1 }
  let s := s.addWrap (P.TRG_GRP_CAPTURED g) 1
  if view.rdN (P.TRG_GRP_MODE g) = 1 && view.rdN (P.TRG_GRP_SHOTS g) ≤ x.shots + 1 then s.wrN (P.TRG_GRP_STATE g) grpCapDisarmed else s

/-- A trigger reaches a group it addresses (R216 to R218). -/
def State.groupTrigger (s view : State) (id t pre post g : Nat) : State × Taken :=
  let inputs := s.capturedInputs view g
  let depth := view.ringDepth g
  if inputs.isEmpty || depth = 0 || s.capState g = grpCapStopped then (s, .ignored)
  else if s.capState g = grpCapDisarmed then (s.addSat (P.TRG_GRP_IGNORED g) 1, .ignored)
  else match captureWindow depth t pre post (s.oldestHeld g) with
    | none => (((s.missTrigger id t g missLate).addSat P.TRG_ANN_LATE 1).setBit P.TRG_STATUS 3, .missed)
    | some (pre', post', flags) =>
      let rearm := view.rdN (P.TRG_GRP_REARM g)
      let slots := (s.run g).slots
      match [0, 1, 2, 3].find? (fun i => slotFree rearm t (Sparse.find? slots i)) with
      | none =>
        let reason := if [0, 1, 2, 3].any (fun i => slotRearming rearm t (Sparse.find? slots i)) then missRearm else missSlots
        (s.missTrigger id t g reason, .missed)
      | some i => (s.takeSlot view g i t post', .captured { group := g, slot := i, inputs, pre := pre', post := post' } flags)

/-- A trigger whose step limit is exceeded is missed in every group it addresses (R211; log 84). -/
def State.rateMiss (s view : State) (t g : Nat) : State × Taken :=
  if (s.capturedInputs view g).isEmpty || view.ringDepth g = 0 || s.capState g = grpCapStopped then (s, .ignored)
  else if s.capState g = grpCapDisarmed then (s.addSat (P.TRG_GRP_IGNORED g) 1, .ignored)
  else (s.missTrigger 0 t g missRate, .missed)

/-- What the addressed groups make of a trigger: the captures with their flags, and how many missed. -/
structure Gathered where
  groups : List GroupCapture := []
  flags : Nat := 0
  missed : Nat := 0
  deriving DecidableEq, Repr

def Gathered.add (x : Gathered) : Taken → Gathered
  | .ignored => x
  | .missed => { x with missed := x.missed + 1 }
  | .captured c f => { x with groups := x.groups ++ [c], flags := x.flags ||| f }

def State.gather (s : State) (f : State → Nat → State × Taken) (groups : List Nat) : State × Gathered :=
  groups.foldl (fun (r : State × Gathered) g => let x := f r.1 g; (x.1, r.2.add x.2)) (s, {})

/-- A capture is opened when a group captures, and for an announced trigger in any case (R220, R244). -/
def State.openCapture (s : State) (c : Capture) (x : Gathered) (always : Bool) : State :=
  let c' : Capture :=
    if x.groups.isEmpty then { c with flags := c.flags ||| 8, end_ := c.instant + c.post }
    else
      { c with groups := x.groups, flags := c.flags ||| x.flags, pre := (x.groups.map (·.pre)).foldl max 0
               post := (x.groups.map (·.post)).foldl max 0, end_ := c.instant + (x.groups.map (·.post)).foldl max 0 }
  if x.groups.isEmpty && !always then s else { s with trg := { s.trg with captures := s.trg.captures ++ [c'] } }

/-! ### Announcements (R223, R354, Table 11-9) -/

/-- The payload of an announcement. -/
def announcePayload (id t pre post radius hopsLeft cause sdir ow oe : Nat) : List Byte :=
  leBytes 8 (id + 281474976710656 * radius + 72057594037927936 * hopsLeft) ++ leBytes 8 t ++ leBytes 8 (pre + 4294967296 * post)
    ++ leBytes 8 (4294967296 * cause + 549755813888 * sdir + 1099511627776 * oe + 4503599627370496 * ow)

/-- The origin's position of an announcement, kept beside its content. -/
def announceFrame (node : Nat) (payload : List Byte) : Frame := { ftype := 2, origin := node, dest := 0xFFF, prio := 0, payload }

/-- The origin sends its announcement on both ports (R223). -/
def State.announce (s : State) (id t pre post radius cause dir : Nat) : State :=
  let pl := announcePayload id t pre post radius (radius - 1) cause dir (s.rdN (P.CLP_POS_HOPS 0)) (s.rdN (P.CLP_POS_HOPS 1))
  let f := announceFrame (s.rdN P.SYS_NODE_ID) pl
  (s.emitFrame 0 f).emitFrame 1 f

/-- An ID is remembered for 1 s (R224). -/
def State.noteId (s : State) (id : Nat) : State :=
  { s with trg := { s.trg with ids := (id, s.time) :: s.trg.ids.filter (fun x => decide (s.time < x.2 + secs 1)) } }
def State.knowsId (s : State) (id : Nat) : Bool := s.trg.ids.any (fun x => x.1 == id && decide (s.time < x.2 + secs 1))

/-! ### Forming a trigger (R211, R212) -/

/-- What fired at an instant: sequencers by arcs and by auto, and forced triggers. -/
structure Fires where
  arcs : List Nat := []
  autos : List Nat := []
  forces : List (Hdr × List Word) := []
  deriving DecidableEq, Repr

def Fires.seqs (f : Fires) : List Nat := (f.arcs ++ f.autos).eraseDups

/-- A trigger addresses a group (R216). -/
def Fires.addresses (f : Fires) (view : State) (g : Nat) : Bool :=
  f.seqs.any (fun q => bitOf (view.rdN (P.TRG_GRP_SRC g)) q)
    || (bitOf (view.rdN (P.TRG_GRP_ACCEPT g)) 0 && f.forces.any (fun x => namesGroup x.2 g))

/-- The ID a broadcast ACQ.FORCE gives (R212; log 84). -/
def broadcastId (h : Hdr) : Nat := 281406257233920 + h.timeTag.toNat / 1000 % 68719476736

/-- The ID of a local trigger, and the count after it (R211). -/
def State.nextId (s : State) : Nat × State :=
  let n := s.rd64 (P.TRG_ID_COUNT 0)
  (68719476736 * s.rdN P.SYS_NODE_ID + n, s.wr64 (P.TRG_ID_COUNT 0) ((n + 1) % 68719476736))

/-- The final replies of the forced triggers (R212). -/
def State.replyForces (s : State) (forces : List (Hdr × List Word)) (id captured missed : Nat) : State :=
  forces.foldl (fun s f => s.finish 0x22 f.1 stOk [BitVec.ofNat 32 id, BitVec.ofNat 32 (id / 4294967296 % 65536), BitVec.ofNat 32 (captured + 65536 * missed)]) s

/-- The trigger of everything that fired at an instant (R211; log 84). -/
def State.formTrigger (s view : State) (t : Nat) (f : Fires) : State :=
  let seqs := f.seqs
  if seqs.isEmpty && f.forces.isEmpty then s
  else
    let pre := max ((seqs.map (fun q => view.rdN (P.TRG_SEQ_PRE q))).foldl max 0) ((f.forces.map (fun x => word x.2 4)).foldl max 0)
    let post := max ((seqs.map (fun q => view.rdN (P.TRG_SEQ_POST q))).foldl max 0) ((f.forces.map (fun x => word x.2 5)).foldl max 0)
    let radius := max ((seqs.map (fun q => view.rdN (P.TRG_SEQ_RADIUS q))).foldl max 0) ((f.forces.map (fun x => word x.2 6 % 256)).foldl max 0)
    let groups := allGroups.filter (f.addresses view)
    if 4 ≤ s.trg.formed then
      let r := s.gather (fun s g => s.rateMiss view t g) groups
      (r.1.setBit P.TRG_STATUS 5).replyForces f.forces 0 0 groups.length
    else
      let s := { s with trg := { s.trg with formed := s.trg.formed + 1 } }
      let (id, s) := match f.forces.find? (fun x => x.1.bcast) with
        | some x => (broadcastId x.1, s)
        | none => s.nextId
      let s := (s.noteId id).setBit P.TRG_STATUS 0
      let cause := b2n (!f.arcs.isEmpty) + 2 * b2n (!f.autos.isEmpty) + 4 * b2n (!f.forces.isEmpty)
      let r := s.gather (fun s g => s.groupTrigger view id t pre post g) groups
      let c : Capture :=
        { id, instant := t, pre, post, cause, seqs := (seqs.map (fun q => 2 ^ q)).sum, radius, distance := 0, flags := 0, groups := []
          dir := s.recDir, end_ := 0 }
      let s := r.1.openCapture c r.2 (radius != 0)
      let s := if radius = 0 then s else s.announce id t pre post radius cause s.recDir
      s.replyForces f.forces id r.2.groups.length r.2.missed

/-- An announcement is accepted: a trigger with cause REMOTE (R224, R225). -/
def State.acceptAnnounce (s view : State) (a : Announcement) (dir : Nat) : State :=
  let groups := allGroups.filter (fun g => bitOf (view.rdN (P.TRG_GRP_ACCEPT g)) 1)
  let s := s.setBit P.TRG_STATUS 0
  let r := s.gather (fun s g => s.groupTrigger view a.id a.instant a.pre a.post g) groups
  let c : Capture :=
    { id := a.id, instant := a.instant, pre := a.pre, post := a.post, cause := 8, seqs := 0, radius := a.radius, distance := a.radius - a.hopsLeft
      flags := 0, groups := [], dir, end_ := 0 }
  r.1.openCapture c r.2 true

/-! ### Acquisition commands (R222, Table 7-6) -/

/-- Open captures of the groups a test names end at an instant (ABORT 1, and step 1 of R504). -/
def State.abortCaptures (s : State) (named : Nat → Bool) (at_ : Nat) : State :=
  let cut := fun (c : Capture) =>
    if c.closed || c.end_ ≤ at_ || !c.groups.any (fun g => named g.group && decide (at_ < c.instant + g.post)) then c
    else
      let groups := c.groups.map (fun g => if named g.group && decide (at_ < c.instant + g.post) then { g with post := at_ - c.instant } else g)
      let post := (groups.map (·.post)).foldl max 0
      { c with groups, post, flags := c.flags ||| 18, end_ := c.instant + post }
  let s := { s with trg := { s.trg with captures := s.trg.captures.map cut } }
  (allGroups.filter named).foldl (fun s g =>
    let x := s.run g
    s.setRun g { x with slots := x.slots.map (fun y => (y.1, if at_ < y.2.instant + y.2.post then { y.2 with post := at_ - y.2.instant } else y.2)) }) s

/-- The end of the last open capture of a group. -/
def State.lastOpen (s : State) (g at_ : Nat) : Option Nat :=
  ((s.trg.captures.filter (fun c => !c.closed)).flatMap (fun c =>
    (c.groups.filter (fun x => x.group == g && decide (at_ < c.instant + x.post))).map (fun x => c.instant + x.post))).max?

/-- A group leaves STOPPED and records from an instant. -/
def State.armGroup (s : State) (g at_ : Nat) : State :=
  let x := s.run g
  ((s.setRun g { x with shots := 0, recordFrom := at_, stopAfter := none }).wrN (P.TRG_GRP_STATE g) grpCapArmed).restartRing g at_

/-- A group goes to STOPPED at an instant; its open captures run on. -/
def State.stopCapture (s : State) (g at_ : Nat) : State :=
  (s.setRun g { s.run g with stoppedAt := at_, stopAfter := s.lastOpen g at_ }).wrN (P.TRG_GRP_STATE g) grpCapStopped

/-- A DISARMED group is armed again, its shots counted afresh (Table 7-6). -/
def State.rearmGroup (s : State) (g : Nat) : State := (s.setRun g { s.run g with shots := 0 }).wrN (P.TRG_GRP_STATE g) grpCapArmed

/-- The groups and sequencers a command names. -/
def namedGroups (p : List Word) : List Nat := allGroups.filter (namesGroup p)
def namedSeqs (p : List Word) : List Nat := (List.range 32).filter (fun q => bitOf (word p 4) q)

/-- ACQ.START, ACQ.STOP and ACQ.REARM act at an instant; answers the fires of arcs taken on entry to state 0. -/
def State.acqActs (s view : State) (lim : Nat) (op : Nat) (p : List Word) (at_ : Nat) : State × List Nat × Nat :=
  let gs := namedGroups p
  let qs := namedSeqs p
  if op = 0x20 then
    let gs := gs.filter (fun g => s.capState g == grpCapStopped)
    let qs := qs.filter (fun q => s.seqState q == seqHalted)
    let s := gs.foldl (fun s g => s.armGroup g at_) s
    let r := qs.foldl (fun (r : State × List Nat) q => let x := r.1.restartSeq view lim at_ q; (x.1, r.2 ++ x.2)) (s, [])
    (r.1, r.2, gs.length + qs.length)
  else if op = 0x21 then
    let gs := gs.filter (fun g => s.capState g != grpCapStopped)
    let qs := qs.filter (fun q => s.seqState q != seqHalted)
    let s := if bitOf (word p 5) 0 then s.abortCaptures gs.contains at_ else s
    let s := gs.foldl (fun s g => s.stopCapture g at_) s
    let s := qs.foldl (fun s q => (s.setSeq q { s.seq q with timer := none, timerDue := false, autoDue := false }).wrN (P.TRG_SEQ_STATE q) seqHalted) s
    (s, [], gs.length + qs.length)
  else
    let gs := gs.filter (fun g => s.capState g == grpCapDisarmed)
    let changed := (qs.filter (fun q => s.seqState q != 0)).length
    let s := gs.foldl State.rearmGroup s
    let r := qs.foldl (fun (r : State × List Nat) q => let x := r.1.restartSeq view lim at_ q; (x.1, r.2 ++ x.2)) (s, [])
    (r.1, r.2, gs.length + changed)

/-! ### The trigger step (R213, R233) -/

def LocalEvent.instant : LocalEvent → Nat
  | .acq _ _ _ t => t
  | .force _ _ t => t
  | .hit h => h.instant
  | .commit _ _ t => t
  | .stop t => t
  | .windrow _ t => t
  | .alarm t _ => t

/-- Hits of one instant in ascending input, then primitive. -/
def insertHit (h : Hit) : List Hit → List Hit
  | [] => [h]
  | g :: gs => if 2 * h.input + h.prim < 2 * g.input + g.prim then h :: g :: gs else g :: insertHit h gs
def hitOf : LocalEvent → Option Hit
  | .hit h => some h
  | _ => none
def forceOf : LocalEvent → Option (Hdr × List Word)
  | .force h p _ => some (h, p)
  | _ => none

def windrowOf : LocalEvent → Option Nat
  | .windrow j _ => some j
  | _ => none
def alarmOf : LocalEvent → Option AlarmEvent
  | .alarm _ e => some e
  | _ => none

/-- The timer of a sequencer has come due in the step. -/
def Sequencer.timerAt (x : Sequencer) : Option Nat := if x.timerDue then x.timer else none

/-- The auto fire of a sequencer has come due in the step (log 85). -/
def State.autoAt (s : State) (q : Nat) : Option Nat :=
  let x := s.seq q
  if x.autoDue && s.seqState q != seqHalted then some (x.lastFire + 1000 * (s.viewAt (x.lastFire)).rdN (P.TRG_SEQ_AUTO q)) else none

def allSeqs : List Nat := List.range 32

/-- The instants of everything the step has still to handle. -/
def State.dueInstants (s : State) (lim : Nat) : List Nat :=
  (s.trg.events.map LocalEvent.instant ++ allSeqs.filterMap (fun q => (s.seq q).timerAt) ++ allSeqs.filterMap s.autoAt
    ++ (s.trg.captures.filter (fun c => !c.closed)).map (·.end_)).filter (fun t => decide (t < lim))

/-- The fragments whose trigger's capture end has come close, and take the pending misses (R219, R220). -/
def State.closeCaptures (s : State) (t : Nat) : State :=
  let step := fun (r : State × List Capture) (c : Capture) =>
    if c.closed || t < c.end_ then (r.1, r.2 ++ [c])
    else
      let c' := { c with closed := true, missed := r.1.trg.missed, unlisted := r.1.trg.unlisted }
      ({ r.1 with trg := { r.1.trg with missed := [], unlisted := 0 } }, r.2 ++ [c'])
  let r := s.trg.captures.foldl step (s, [])
  { r.1 with trg := { r.1.trg with captures := r.2 } }

/-- ACQ.STOP with ABORT 1 over every group and sequencer (step 1 of R504). -/
def stopAllWords : List Word := [0xFFFFFFFF, 0xFFFFFFFF, 0xFFFFFFFF, 0xFFFFFFFF, 0xFFFFFFFF, 1]

/-- A group's capture state is kept for the resume (R505). -/
def State.noteResume (s : State) (g : Nat) : State :=
  s.setRun g { s.run g with resume := if s.capState g = grpCapStopped then none else some (s.capState g) }

/-- A commit, then the ACQ commands of an instant (R210, R213), and an orderly stop (R504). -/
def State.earlyEvent (view : State) (lim t : Nat) (r : State × List Nat) (e : LocalEvent) : State × List Nat := match e with
  | .commit seqs groups _ =>
    let qs := allSeqs.filter (fun q => bitOf seqs q && r.1.seqState q != seqHalted)
    let s := groups.foldl (fun s g => if s.capState g = grpCapDisarmed then s.rearmGroup g else s) r.1
    qs.foldl (fun (r : State × List Nat) q => let x := r.1.restartSeq view lim t q; (x.1, r.2 ++ x.2)) (s, r.2)
  | .acq h op p _ =>
    let x := r.1.acqActs view lim op p t
    (x.1.finish op h stOk [BitVec.ofNat 32 x.2.2], r.2 ++ x.2.1)
  | .stop _ => let x := (allGroups.foldl State.noteResume r.1).acqActs view lim 0x21 stopAllWords t; (x.1, r.2 ++ x.2.1)
  | _ => r

/-- A forced trigger whose broadcast ID has been formed already is a duplicate (R233). -/
def State.duplicateForce (s : State) (x : Hdr × List Word) : Bool := x.1.bcast && s.knowsId (broadcastId x.1)

/-- The timer of a sequencer expires at an instant, unless an event before its turn has restarted it (R208). -/
def State.timerEvent (view : State) (lim t : Nat) (r : State × List Nat) (q : Nat) : State × List Nat :=
  if (r.1.seq q).timerAt ≠ some t then r
  else
    let s := r.1.setSeq q { r.1.seq q with timer := none, timerDue := false }
    let x := State.withRounds view lim t (s.deliver view lim t .timer q)
    (x.1, r.2 ++ x.2)

/-- Everything of one instant, in the order of R213. -/
def State.stepInstant (s : State) (lim t : Nat) : State :=
  let view := s.viewAt t
  let here := s.trg.events.filter (fun e => e.instant == t)
  let s := { s with trg := { s.trg with events := s.trg.events.filter (fun e => e.instant != t) } }
  let commits := here.filter (fun e => match e with
    | .commit _ _ _ => true
    | _ => false)
  let acqs := here.filter (fun e => match e with
    | .acq _ _ _ _ => true
    | .stop _ => true
    | _ => false)
  let r := (commits ++ acqs).foldl (State.earlyEvent view lim t) (s, [])
  let r := State.withRounds view lim t r
  let forces := here.filterMap forceOf
  let dup := forces.filter r.1.duplicateForce
  let s := dup.foldl (fun s x => s.replyForces [x] (broadcastId x.1)
    (((s.trg.captures.filter (fun c => c.id == broadcastId x.1)).map (fun c => c.groups.length)).sum) 0) r.1
  let hits := (here.filterMap hitOf).foldl (fun hs h => insertHit h hs) []
  let r := hits.foldl (fun (r : State × List Nat) h => let x := r.1.lineHit view lim h; (x.1, r.2 ++ x.2)) (s, r.2)
  let r := allSeqs.foldl (State.timerEvent view lim t) r
  let autos := allSeqs.filter (fun q => r.1.autoAt q == some t)
  let s := autos.foldl (fun s q => s.noteFire view lim t q) r.1
  let x := seqRounds view lim t 300 autos s
  let s := x.1.formTrigger view t { arcs := r.2 ++ x.2, autos, forces := forces.filter (fun f => !r.1.duplicateForce f) }
  let s := (here.filterMap windrowOf).foldl (fun s j => s.closeWindrow j t) (s.closeCaptures t)
  (alarmBatches (orderAlarms (here.filterMap alarmOf))).foldl (fun s es => view.orderedStep s es) s

/-- The local events below `to`, in ascending instant, of a step whose limit is `lim`. -/
def stepLocal (to_ lim : Nat) : Nat → State → State
  | 0, s => s
  | k + 1, s => match (s.dueInstants to_).min? with
    | none => s
    | some t => stepLocal to_ lim k (s.stepInstant lim t)

/-- More instants than a step can have to handle. -/
def State.stepFuel (s : State) (lim : Nat) : Nat := match (s.dueInstants lim).min? with
  | none => 0
  | some t => lim - t + 2 * (s.dueInstants lim).length + 16

/-- Trigger step k (R213): the local events up to slot k − 5, then the announcements of slot k, in arrival order. -/
def State.triggerStep (s : State) (k : Nat) : State :=
  let lim := 1000 * (k - 4)
  let s := { s with trg := { s.trg with formed := 0 } }
  let s := stepLocal lim lim (s.stepFuel lim) s
  let anns := s.trg.announces
  let s := { s with trg := { s.trg with announces := [], handled := max s.trg.handled lim } }
  anns.foldl (fun s a =>
    let s := s.acceptAnnounce (s.viewAt (1000 * k)) a a.sdir
    stepLocal lim lim (s.stepFuel lim) s) s

/-- A hit reaches a die for the trigger step: one that comes after the step for its instant is discarded (R213). -/
def State.takeHit (s : State) (h : Hit) : State :=
  if h.instant < s.trg.handled then s.loseHit h.input else { s with trg := { s.trg with events := s.trg.events ++ [.hit h] } }

end Sys2Proof.Machine
end

