-- ==== Sys2Proof/Machine/Trg.lean ====
section
/-! DEFINITION. Meanings of the acquisition commands, sequencer events and announcements (chapter 7, R376), and of the records closed by age (R251,
R252). -/

namespace Sys2Proof.Machine

def pwrStopped : Nat := 4
/-- The module is STOPPED (R504): acquisition and calibration do not begin. -/
def State.moduleStopped (s : State) : Bool := s.rdN P.PWR_STATE == pwrStopped

/-! ### ACQ.START, ACQ.STOP, ACQ.REARM (R222, Table 7-8) -/

/-- An acquisition command is a local event at A. -/
def State.acqEnqueue (s : State) (h : Hdr) (op : Nat) (p : List Word) (a : Nat) : State :=
  { s with trg := { s.trg with events := s.trg.events ++ [.acq h op p a] } }

def acqBody (op : Nat) (h : Hdr) (p : List Word) (s : State) : State × Answer :=
  if p.length ≠ 6 || 2 ≤ word p 5 || (op ≠ 0x21 && word p 5 ≠ 0) then refuse s stBadParam
  else if (List.range 5).all (fun i => word p i == 0) then refuse s stRange
  else if s.moduleStopped && op ≠ 0x21 then refuse s stLocked
  else if h.sched then (s, .later (some h.timeTag.toNat))
  else (s.acqEnqueue h op p (boundaryAfter s.now), .quiet none)
def execAcqStart (h : Hdr) (p : List Word) (s : State) : Host.Outcome State Fault Refusal := .next (s.receive 0x20 h p (acqBody 0x20 h p))
def execAcqStop (h : Hdr) (p : List Word) (s : State) : Host.Outcome State Fault Refusal := .next (s.receive 0x21 h p (acqBody 0x21 h p))
def execAcqRearm (h : Hdr) (p : List Word) (s : State) : Host.Outcome State Fault Refusal := .next (s.receive 0x23 h p (acqBody 0x23 h p))

/-! ### ACQ.FORCE (R212, Table 7-5) -/

def State.forceEnqueue (s : State) (h : Hdr) (p : List Word) (t : Nat) : State :=
  { s with trg := { s.trg with events := s.trg.events ++ [.force h p t] } }

def acqForceBody (h : Hdr) (p : List Word) (s : State) : State × Answer :=
  if p.length ≠ 7 || 256 ≤ word p 6 || (h.bcast && !h.sched) then refuse s stBadParam
  else if (h.bcast && word p 6 ≠ 0) || (List.range 4).all (fun i => word p i == 0) || 50000000 < word p 4 || word p 5 < 1000 || 50000000 < word p 5 then
    refuse s stRange
  else if s.moduleStopped then refuse s stLocked
  else if h.sched then (s, .later (some h.timeTag.toNat))
  else (s.forceEnqueue h p (boundaryAfter s.now), .quiet none)
def execAcqForce (h : Hdr) (p : List Word) (s : State) : Host.Outcome State Fault Refusal := .next (s.receive 0x22 h p (acqForceBody h p))

/-! ### ACQ.FETCH (R376, Table 11-17) -/

/-- The stored record of a kind and number of the current run, with its store: the one that takes the kind now, or one that took it before (R285). -/
def State.heldRecord (s : State) (kind seq : Nat) : Option (Nat × IndexEntry) :=
  (s.storeFor kind :: s.mem.stores.map Prod.fst).findSome? (fun id =>
    ((s.store id).entries.find? (fun e => e.kind == kind && e.run == s.rdN P.REC_RUN && e.seq == seq)).map (fun e => (id, e)))

/-- Records sent, the first number not held, and the number not held, over a span of numbers (log 86). -/
def fetchFrom (kind dir : Nat) : Nat → Nat → State × Nat × Option Nat × Nat → State × Nat × Option Nat × Nat
  | 0, _, r => r
  | k + 1, seq, (s, sent, first, missing) =>
    let next := (seq + 1) % 4294967296
    match s.heldRecord kind seq with
    | some (id, e) => fetchFrom kind dir k next (s.pushAll (descriptorsOf s id e dir true), sent + 1, first, missing)
    | none => fetchFrom kind dir k next (s, sent, some (first.getD seq), missing + 1)

/-- ACQ_FETCH: ACCEPTED, then the descriptors with REFETCH 1, then the final reply; the pushes of a node whose filling bank is full stall, and the fetch
runs until the last of them is done (R372, R376; log 86). -/
def acqFetchBody (h : Hdr) (p : List Word) (s : State) : State × Answer :=
  let kind := bits (word p 0) 3 0
  if p.length ≠ 3 || bits (word p 0) 31 16 ≠ 0 || bits (word p 0) 7 4 ≠ 0 then refuse s stBadParam
  else if 8 ≤ kind || bits (word p 0) 15 8 ≠ s.rdN P.REC_RUN || word p 2 = 0 || 65536 < word p 2 then refuse s stRange
  else if s.clp.fetch.isSome then refuse s stBusy
  else
    let s := s.accept 0x24 h p none
    let (s, sent, first, missing) := fetchFrom kind (arrivalPort h.arrival) (word p 2) (word p 1) (s, 0, none, 0)
    let data := [BitVec.ofNat 32 sent, BitVec.ofNat 32 (first.getD 0xFFFFFFFF), BitVec.ofNat 32 missing]
    (({ s with clp := { s.clp with fetch := some (h, data) } }).endFetch, .silent)
def execAcqFetch (h : Hdr) (p : List Word) (s : State) : Host.Outcome State Fault Refusal := .next (s.receive 0x24 h p (acqFetchBody h p))

/-! ### Sequencer events (R208, R209) -/

/-- SEQ_TIMER_EXPIRY (R208): the timer of a sequencer comes due; the next trigger step handles it. -/
def seqTimerExpiry (q : Nat) (s : State) : State :=
  let x := s.seq q
  match x.timer with
  | some e => if e ≤ s.now then s.setSeq q { x with timerDue := true } else s
  | none => s
def execSeqTimerExpiry (t : Nat) (q : Fin 32) (s : State) : Host.Outcome State Fault Refusal := .next (seqTimerExpiry q (s.at_ t))

/-- SEQ_AUTO_FIRE (R209): TRG_SEQ_AUTO has elapsed since the last fire or entry into RUNNING. -/
def seqAutoFire (q : Nat) (s : State) : State :=
  let x := s.seq q
  let auto := s.rdN (P.TRG_SEQ_AUTO q)
  if auto ≠ 0 && s.seqState q ≠ seqHalted && decide (x.lastFire + 1000 * auto ≤ s.now) then s.setSeq q { x with autoDue := true } else s
def execSeqAutoFire (t : Nat) (q : Fin 32) (s : State) : Host.Outcome State Fault Refusal := .next (seqAutoFire q (s.at_ t))

/-! ### Announcements (R224, R354, R369) -/

/-- The announcement a payload spells (Table 11-9). -/
def announcementOf (bs : List Byte) : Announcement :=
  let a := word64 bs 0
  let b := word64 bs 2
  let c := word64 bs 3
  { id := bits a 47 0, instant := word64 bs 1, pre := bits b 31 0, post := bits b 63 32, radius := bits a 55 48, hopsLeft := bits a 63 56
    cause := bits c 35 32, sdir := bits c 39 39 }

/-- ANNOUNCE_RECEIVE (R224): the first announcement that came by a port: a copy of an ID already accepted is dropped; else it goes on with one hop
less, and a node with an ID accepts it. -/
def announceReceive (p : Nat) (s : State) : State := match s.clp.announces.find? (fun a => a.1 == p) with
  | none => s
  | some (_, bs) =>
    let s := { s with clp := { s.clp with announces := dropFirstWhere (fun a => a.1 == p) s.clp.announces } }
    let a := announcementOf bs
    if s.knowsId a.id then s
    else
      let s := s.noteId a.id
      let fwd := bs.take 7 ++ [BitVec.ofNat 8 (a.hopsLeft - 1)] ++ bs.drop 8
      let s := if 1 ≤ a.hopsLeft && s.isRingPort (1 - p) then s.sendOn (1 - p) false (announceFrame (bits a.id 47 36) fwd) else s
      if s.rdN P.SYS_NODE_ID = 0 then s else s.send 4 (.announce a)
def execAnnounceReceive (t : Nat) (port : Fin 2) (s : State) : Host.Outcome State Fault Refusal := .next (announceReceive port (s.at_ t))

/-! ### Records that close by age (R251, R252) -/

/-- STP_RECORD_AGE_CLOSE: the first slot boundary at which REC_STP_AGE has elapsed since the first stamp word was processed. -/
def stpRecordAgeClose (s : State) : State := match s.recs.stp with
  | some o => if s.now % 1000 = 0 && o.opened + 1000 * s.rdN P.REC_STP_AGE ≤ s.now then s.closeStp else s
  | none => s
def execStpRecordAgeClose (t : Nat) (s : State) : Host.Outcome State Fault Refusal := .next (stpRecordAgeClose (s.at_ t))

/-- ITV_RECORD_AGE_CLOSE: as the STP record, with REC_ITV_AGE. -/
def itvRecordAgeClose (s : State) : State := match s.recs.itv with
  | some o => if s.now % 1000 = 0 && o.opened + 1000 * s.rdN P.REC_ITV_AGE ≤ s.now then s.closeItv else s
  | none => s
def execItvRecordAgeClose (t : Nat) (s : State) : Host.Outcome State Fault Refusal := .next (itvRecordAgeClose (s.at_ t))

end Sys2Proof.Machine
end

