-- ==== Sys2Proof/Machine/Cal.lean ====
section
/-! DEFINITION. Meanings of the calibration rows (chapter 13). -/

namespace Sys2Proof.Machine

/-! ### CAL.RUN, CAL.SHUNT and their start (R422, R423, R432) -/

/-- The numbers a mask of words names, from a parameter word on. -/
def maskList (p : List Word) (from_ count : Nat) : List Nat := (List.range (32 * count)).filter (fun i => bitOf (word p (from_ + i / 32)) (i % 32))

/-- The running engine refuses another: BUSY while one runs, LOCKED under a firmware commit and in STOPPED (R422, R505). -/
def State.calRefusal (s : State) : Option Nat :=
  if s.calStateOf ≠ calIdle then some stBusy else if s.committing || s.moduleStopped then some stLocked else none

def calRunRange (p : List Word) : Bool :=
  let scope := bits (word p 0) 3 0
  let all := bitOf (word p 0) 7
  let inputs := !(maskList p 1 16).isEmpty
  let sources := !(maskList p 17 2).isEmpty
  scope == 0 || (!all && !inputs && !sources) || (all && (inputs || sources)) || (bitOf scope 2 && !sources && !all) || (sources && !bitOf scope 2)

/-- CAL_RUN (R422, Table 13-2). -/
def calRunBody (h : Hdr) (p : List Word) (s : State) : State × Answer :=
  if p.length ≠ 19 || 256 ≤ word p 0 || bitOf (word p 0) 4 then refuse s stBadParam
  else if calRunRange p then refuse s stRange
  else match s.calRefusal with
    | some st => refuse s st
    | none => (s, .later (some (s.actInstant h)))
def execCalRun (h : Hdr) (p : List Word) (s : State) : Host.Outcome State Fault Refusal := .next (s.receive 0x30 h p (calRunBody h p))

/-- The global input a pin code names (R78). -/
def pinInput (code : Nat) : Nat := code / 2

/-- The range checks of CAL.SHUNT (R432): a curve, two different pins of the input's die, and EXPECT finite of magnitude 1.0 or more. -/
def State.shuntRange (s : State) (p : List Word) : Bool :=
  let n := bits (word p 0) 8 0
  let a := bits (word p 1) 15 0
  let b := bits (word p 1) 31 16
  let e := Fl.of32 (p.getD 2 0)
  let small := match e with
    | .fin _ m x => Fl.lt (.fin false m x) (Fl.ofNat 1)
    | _ => true
  s.rdN (P.FE_LIN_CURVE n) == 0 || a == b || pinInput a / 128 != n / 128 || pinInput b / 128 != n / 128 || small

/-- CAL_SHUNT (R432, Table 13-8). -/
def calShuntBody (h : Hdr) (p : List Word) (s : State) : State × Answer :=
  if p.length ≠ 3 || 2048 ≤ word p 0 then refuse s stBadParam
  else if s.shuntRange p then refuse s stRange
  else match s.calRefusal with
    | some st => refuse s st
    | none => (s, .later (some (s.actInstant h)))
def execCalShunt (h : Hdr) (p : List Word) (s : State) : Host.Outcome State Fault Refusal := .next (s.receive 0x32 h p (calShuntBody h p))

/-- An input can be calibrated: a member of its group's scan set, the group SCANNING (R422). -/
def State.calibrates (s : State) (n : Nat) : Bool := (s.scanSet (n / 4)).contains n && s.grpState (n / 4) == grpScanning

/-- The calibration indices of every range of an input's mode (R127, Table 3-2). -/
def State.allRanges (s : State) (n : Nat) : List Nat := match s.rdN (P.FE_IN_MODE n) with
  | 2 => [8 * n + 5, 8 * n + 6, 8 * n + 7]
  | 5 => [8 * n + 2, 8 * n + 3, 8 * n + 4]
  | _ => [8 * n, 8 * n + 1, 8 * n + 2, 8 * n + 3, 8 * n + 4]

/-- The points of a calibration in order (R424, R427, R428): each scope in run 1, then in run 2. -/
def analoguePoints (run ranges : Nat) (gain : Bool) : List CalPoint :=
  (List.range ranges).flatMap (fun j => (if gain then [0, 1, 2] else [0]).map (fun r => .analogue run j r))
def sourcePoints (run most : Nat) : List CalPoint := (List.range most).map (fun i => .source run i)
def calPlan (scope ranges most : Nat) (named : Bool) : List CalPoint :=
  let gain := bitOf scope 1
  (if (gain || bitOf scope 0) && named then analoguePoints 0 ranges gain ++ analoguePoints 1 ranges gain else [])
    ++ (if bitOf scope 2 then sourcePoints 0 most ++ sourcePoints 1 most else [])
    ++ (if bitOf scope 3 && named then [.timing 0, .timing 1] else [])

/-- The greatest number of selected sources on one die. -/
def mostOnDie (ks : List Nat) : Nat := ([0, 1, 2, 3].map (fun fe => (onDie fe ks).length)).foldl max 0

/-- The engine starts to hold (R423, R429; log 70). -/
def State.holdFor (s : State) (r : CalRun) : State :=
  let s := r.inputs.foldl (fun s x => s.holdInput x.input 0) s
  ((s.setCalRun r).wrN P.CAL_STATE calHolding).setBit P.CAL_STATUS 5

/-- CAL.RUN reaches S. -/
def State.startCal (s : State) (h : Hdr) (p : List Word) : State :=
  let w := word p 0
  let scope := bits w 3 0
  let all := bitOf w 7
  let inputs := if all then List.range 512 else maskList p 1 16
  let sources := if !bitOf scope 2 then [] else if all then List.range 64 else maskList p 17 2
  let good := inputs.filter s.calibrates
  let sourcesGood := sources.filter (fun k => s.rdN (P.FE_EXC_CURRENT k) != 0)
  let also := (List.range 512).filter (fun n => !inputs.contains n && sources.contains (s.rdN (P.FE_IN_EXC n)) && s.calibrates n)
  let ks := fun n => if bits scope 1 0 = 0 then [] else if bitOf w 5 then s.allRanges n else [s.calIndex n]
  let xs := good.map (fun n => ({ input := n, ks := ks n, named := true } : CalInput)) ++ also.map (fun n => { input := n, ks := [], named := false })
  let skipped := inputs.filter (fun n => !good.contains n) ++ (sources.filter (fun k => !sourcesGood.contains k)).map (512 + ·)
  let ranges := (good.map (fun n => (ks n).length)).foldl max 0
  s.holdFor { h, op := 0x30, scope, nostore := bitOf w 6, started := s.now, par := s.par, inputs := xs, sources := sourcesGood.map (fun k => { source := k })
              skipped, shunt := none, todo := calPlan scope ranges (mostOnDie sourcesGood) (!good.isEmpty), pointFrom := s.now }

/-- CAL.SHUNT reaches S: an input that is not SCANNING, or BROKEN, is SKIPPED with nothing held (R432). -/
def State.startShunt (s : State) (h : Hdr) (p : List Word) : State :=
  let n := bits (word p 0) 8 0
  if !s.calibrates n || s.inState n = inBroken then
    let (a, s) := s.takeFree
    let (b, s) := s.takeFree
    (s.wrN (P.CAL_RESULT n) 4).finish 0x32 h stOk [a, b, 4, 1]
  else
    s.holdFor { h, op := 0x32, scope := 0, nostore := bitOf (word p 0) 10, started := s.now, par := s.par
                inputs := [{ input := n, ks := [s.calIndex n], named := true }], sources := [], skipped := []
                shunt := some { apply := bitOf (word p 0) 9, expect := p.getD 2 0 }
                todo := [.shunt 0, .shunt 1, .shunt 2, .shunt 3], pointFrom := s.now }

/-- The waiting command of one of some opcodes that is due first. -/
def State.dueCommand (s : State) (ops : List Nat) : Option Outstanding :=
  let due := s.cmd.outstanding.filter (fun o => ops.contains o.op && (match o.due with
    | some d => decide (d ≤ s.now)
    | none => false))
  due.foldl (fun (b : Option Outstanding) o => match b with
    | none => some o
    | some x => if o.due.getD 0 < x.due.getD 0 then some o else some x) none

/-- The command no longer waits for an instant. -/
def State.undue (s : State) (h : Hdr) : State :=
  { s with cmd := { s.cmd with outstanding := s.cmd.outstanding.map (fun o => if samePair o.h h then { o with due := none } else o) } }

/-- CAL_START (R423, R429): a CAL.RUN or CAL.SHUNT reaches S; another that reached S first leaves it BUSY (log 61). -/
def calStart (s : State) : State := match s.dueCommand [0x30, 0x32] with
  | none => s
  | some o =>
    if s.commitBefore (o.due.getD 0) || s.earlierFirst o.h (o.due.getD 0) then s
    else
      let s := s.undue o.h
      if s.calStateOf ≠ calIdle then s.finish o.op o.h stBusy []
      else if o.op = 0x30 then s.startCal o.h o.p
      else s.startShunt o.h o.p
def execCalStart (t : Nat) (s : State) : Host.Outcome State Fault Refusal := .next (calStart (s.at_ t))

/-! ### The checks (R425, R426, R432) -/

/-- The standard deviation of a point lies above a limit in codes (log 63). -/
def CalSum.noisy (x : CalSum) (limit : Nat) : Bool := decide ((limit * limit * x.count * x.count : Nat) + x.sum * x.sum < ((x.count * x.squares : Nat) : Int))

/-- A condition stood at some instant since an instant in ns. -/
def Spell.since_ (x : Spell) (t : Nat) : Bool := x.since.isSome || x.past.any (fun p => decide (ns t < p.2.1))

/-- The sums of a point. -/
def CalInput.at_ (x : CalInput) (pt : CalPoint) : CalSum := ((x.done.find? (fun d => d.1 == pt)).map Prod.snd).getD {}

/-- The offset of a run, in 1/256 code, and the gain, in 2^-30, 0 where the difference of the references is not positive (R424). -/
def CalInput.offsetOf (x : CalInput) (run j : Nat) : Int := let z := x.at_ (.analogue run j 0); divAway (256 * z.sum) (max 1 z.count)
def CalInput.gainOf (x : CalInput) (run j : Nat) : Int :=
  let a := x.at_ (.analogue run j 1)
  let b := x.at_ (.analogue run j 2)
  let d := a.sum * b.count - b.sum * a.count
  if d ≤ 0 then 0 else divAway (57344 * 1073741824 * a.count * b.count) d.toNat

/-- The mean of two runs, rounded to nearest (log 63). -/
def meanOf (a b : Int) : Int := divAway (a + b) 2

/-- Two runs differ by more than a limit in ppm of their mean. -/
def apartBy (ppm : Nat) (a b : Int) : Bool := decide (((ppm * (a + b).natAbs : Nat) : Int) < 2000000 * ((a - b).natAbs : Nat))

/-- What an item comes to: unstable, the runs disagreeing, or its new values. -/
inductive Verdict where
  | unstable
  | disagree
  | values (vs : List (Nat × Int))
  deriving DecidableEq, Repr

/-- The verdict of an item from its two runs. -/
def judge (stable agree : Bool) (vs : List (Nat × Int)) : Verdict := if !stable then .unstable else if !agree then .disagree else .values vs

/-- The verdicts of several items taken together: any unstable one, else any disagreement. -/
def Verdict.both : Verdict → Verdict → Verdict
  | .unstable, _ => .unstable
  | _, .unstable => .unstable
  | .disagree, _ => .disagree
  | _, .disagree => .disagree
  | .values a, .values b => .values (a ++ b)
def allVerdicts (vs : List Verdict) : Verdict := vs.foldl Verdict.both (.values [])

/-- Offset and gain of one range (Tables 13-3 and 13-4) (log 63). -/
def State.judgeRange (s : State) (x : CalInput) (gain : Bool) (j k : Nat) : Verdict :=
  let o1 := x.offsetOf 0 j
  let o2 := x.offsetOf 1 j
  let small := fun (r : Nat) => let z := x.at_ (.analogue r j 0); decide (z.sum.natAbs ≤ 1024 * z.count)
  let off := judge (small 0 && small 1) (decide ((o1 - o2).natAbs ≤ s.rdN P.CAL_AGREE_OFS)) [(P.ADC_CAL_OFFSET k, meanOf o1 o2)]
  if !gain then off
  else
    let g1 := x.gainOf 0 j
    let g2 := x.gainOf 1 j
    let good := fun (g : Int) => decide (0x3CCCCCCD ≤ g) && decide (g ≤ 0x43333333)
    off.both (judge (good g1 && good g2) (!apartBy (s.rdN P.CAL_AGREE_GAIN) g1 g2) [(P.ADC_CAL_GAIN k, meanOf g1 g2)])

/-- The ranges of an input, each with its place. -/
def State.judgeRanges (s : State) (x : CalInput) (gain : Bool) : Nat → List Nat → List Verdict
  | _, [] => []
  | j, k :: ks => s.judgeRange x gain j k :: s.judgeRanges x gain (j + 1) ks

/-- Tap widths by largest remainder: they sum to 4,096 when the hits sum to 1,048,576 (R428). -/
def tapWidths (hits : List Nat) : List Nat :=
  let base := hits.map (fun h => h / 256)
  let short := 4096 - base.sum
  let above := fun (i h : Nat) => (hits.zipIdx.filter (fun (g, j) => decide (h % 256 < g % 256) || (g % 256 == h % 256 && decide (j < i)))).length
  hits.zipIdx.map (fun (h, i) => h / 256 + (if h % 256 ≠ 0 && above i h < short then 1 else 0))

/-- The delay of a run: the mean error of its 16 test edges. -/
def meanDelay (es : List Int) : Int := divAway es.sum (max 1 es.length)

/-- Tap widths, delay and threshold trim of an input (Tables 13-3 and 13-4); k is the calibration index of the range in force at S. -/
def State.judgeTiming (s : State) (x : CalInput) (k : Nat) : Verdict :=
  let n := x.input
  match x.taps, x.delays, x.trims with
  | [t1, t2], [d1, d2], [r1, r2] =>
    let width := fun (w : Nat) => decide (16 ≤ w) && decide (w ≤ 192)
    let pairs := t1.zip t2
    let taps := judge (t1.length == 64 && t2.length == 64 && t1.all width && t2.all width)
      (pairs.all (fun (a, b) => decide (a ≤ b + 4) && decide (b ≤ a + 4)))
      (pairs.zipIdx.map (fun ((a, b), i) => (P.CAL_TAP_WIDTH (64 * n + i), meanOf a b)))
    let inDelay := fun (d : Int) => decide (0 ≤ d) && decide (d ≤ 20480)
    let delay := judge (inDelay d1 && inDelay d2) (decide ((d1 - d2).natAbs ≤ s.rdN P.CAL_AGREE_TIME)) [(P.CAL_TMR_DELAY n, meanOf d1 d2)]
    let inTrim := fun (r : Int) => decide (-2048 < r) && decide (r < 2047)
    (taps.both delay).both (judge (inTrim r1 && inTrim r2) (decide ((r1 - r2).natAbs ≤ 4)) [(P.CAL_THR_TRIM k, meanOf r1 r2)])
  | _, _, _ => .unstable

def resApplied : Nat := 1
def resUnstable : Nat := 2
def resDisagree : Nat := 3
def resSkipped : Nat := 4
def resAborted : Nat := 5

/-- The result code of a verdict and its values as parameter words. -/
def Verdict.outcome : Verdict → Nat × List (Nat × Word)
  | .unstable => (resUnstable, [])
  | .disagree => (resDisagree, [])
  | .values vs => (resApplied, vs.map (fun (k, v) => (k, BitVec.ofInt 32 v)))

/-- An input's result and values (log 65). -/
def State.judgeInput (s : State) (r : CalRun) (x : CalInput) : CalInput :=
  let analogue := if bits r.scope 1 0 = 0 then [] else s.judgeRanges x (bitOf r.scope 1) 0 x.ks
  let timing := if bitOf r.scope 3 then [s.judgeTiming x (({ s with par := r.par } : State).calIndex x.input)] else []
  let bad := if x.bad then [Verdict.unstable] else []
  let (result, values) := (allVerdicts (analogue ++ timing ++ bad)).outcome
  if x.named then { x with result, values } else x

/-- A source's result and value. -/
def State.judgeSource (s : State) (x : CalSource) : CalSource := match x.ratios with
  | [a, b] =>
    let good := fun (g : Int) => decide (0x3F5C28F6 ≤ g) && decide (g ≤ 0x40A3D70A)
    if x.bad || !good a || !good b then { x with result := resUnstable }
    else if apartBy (s.rdN P.CAL_AGREE_EXC) a b then { x with result := resDisagree }
    else { x with result := resApplied, value := (meanOf a b).toNat }
  | _ => { x with result := resUnstable }

/-- The apparent change of a run of a shunt calibration as a fraction, in 2^-149: the numerator and the denominator; none when a value was not finite. -/
def CalInput.apparent (x : CalInput) (run : Nat) : Option (Int × Nat) :=
  let a := x.at_ (.shunt (2 * run))
  let b := x.at_ (.shunt (2 * run + 1))
  match a.lin, b.lin with
  | some u, some v => some (v * a.count - u * b.count, a.count * b.count)
  | _, _ => none

/-- The quotient of two integers, in binary64, the first scaled by 2^e. -/
def quotient (a : Int) (e : Int) (b : Int) : Fl := Fl.div (.fin (decide (a < 0)) a.natAbs e) (.fin (decide (b < 0)) b.natAbs 0)

/-- The verdict of a shunt calibration, with what its reply says (R432; log 66). -/
def State.judgeShunt (s : State) (r : CalRun) (sh : Shunt) (x : CalInput) : CalRun :=
  let k := x.ks.headD 0
  let done := fun (x : CalInput) (a q : Fl) =>
    { r with inputs := [x], answer := [a.bits32, q.bits32, BitVec.ofNat 32 x.result] }
  match x.apparent 0, x.apparent 1, scaled149 sh.expect with
  | some (n1, d1), some (n2, d2), some e =>
    let num := n1 * d2 + n2 * d1
    let den := 2 * d1 * d2
    let far := decide (((s.rdN P.CAL_SHUNT_TOL * num.natAbs : Nat) : Int) < 1000000 * ((e * den - num).natAbs : Nat))
    let apart := decide (((s.rdN P.CAL_AGREE_GAIN * num.natAbs : Nat) : Int) < 2000000 * ((n1 * d2 - n2 * d1).natAbs : Nat))
    let gain : Int := divAway ((s.rdN (P.ADC_CAL_GAIN k) : Int) * (e * den).natAbs) (max 1 num.natAbs)
    let x := if x.bad || num = 0 || far then { x with result := resUnstable }
      else if apart then { x with result := resDisagree }
      else { x with result := resApplied, values := if sh.apply then [(P.ADC_CAL_GAIN k, BitVec.ofInt 32 gain)] else [] }
    done x (quotient num (-149) den) (quotient (e * den) 0 num)
  | _, _, _ => done { x with result := resUnstable } .nan .nan

/-- The checks that follow the last point (R425, R426). -/
def State.checkCal (s : State) (r : CalRun) : State :=
  let r := { r with checked := s.now, todo := [] }
  let r := match r.shunt, r.inputs with
    | some sh, [x] => s.judgeShunt r sh x
    | _, _ => { r with inputs := r.inputs.map (s.judgeInput r), sources := r.sources.map s.judgeSource }
  (s.setCalRun r).wrN P.CAL_STATE calChecking

/-! ### Points (R424, R427 to R429) -/

/-- Measurement begins, or at once the checks where there is nothing to measure. -/
def State.beginPoint (s : State) (r : CalRun) : State :=
  let r := { r with pointFrom := s.now, inputs := r.inputs.map (fun x => { x with now := {} }) }
  if r.todo.isEmpty then s.checkCal r else (s.setCalRun r).wrN P.CAL_STATE calMeasuring

/-- CAL_HOLD_DONE (R429): 10 ms after S. -/
def calHoldDone (s : State) : State := match s.cal.run with
  | none => s
  | some r => if s.calStateOf = calHolding && decide (r.started + 10000000 ≤ s.now) then s.beginPoint r else s
def execCalHoldDone (t : Nat) (s : State) : Host.Outcome State Fault Refusal := .next (calHoldDone (s.at_ t))

/-- Every input that takes part in a point has its samples. -/
def State.pointFull (s : State) (r : CalRun) (pt : CalPoint) : Bool := r.inputs.all (fun x => !x.takes pt || decide (s.rdN P.CAL_SAMPLES ≤ x.now.count))

/-- A point's conversions of one input are in: unstable by noise, by the clamp detector, or by VAN on range 4 (Table 13-3). -/
def State.closePoint (s : State) (r : CalRun) (pt : CalPoint) (x : CalInput) : CalInput :=
  if !x.takes pt then x
  else
    let k := match pt with
      | .analogue _ j _ => x.ks.getD j 0
      | _ => x.ks.headD 0
    let clamp := (s.input x.input).clamps.a.since_ r.pointFrom || (s.input x.input).clamps.b.since_ r.pointFrom
    let van := k % 8 == 4 && (Sparse.get {} s.fe.vanLow (x.input / 128) : Spell).since_ r.pointFrom
    let shunt := match pt with
      | .shunt _ => true
      | _ => false
    let bad := x.now.noisy (s.rdN P.CAL_NOISE_MAX) || (!shunt && (clamp || van))
    { x with bad := x.bad || bad, done := x.done ++ [(pt, x.now)] }

/-- The ratio of a source by its voltages over 400 Ω in nV, at the current in force at S in nA (R427; log 66). -/
def State.ratioOf (s : State) (r : CalRun) (k : Nat) (f : CalFinding) : Int :=
  let nA := ({ s with par := r.par } : State).rdN (P.FE_EXC_CURRENT k)
  divAway ((f.forward - f.reverse) * 1073741824) (max 1 (800 * nA))

/-- A source measured at a point, where it is the die's source of that ordinal (log 64). -/
def State.closeSource (s : State) (r : CalRun) (ordinal : Nat) (found : List CalFinding) (x : CalSource) : CalSource :=
  if (onDie (x.source / 16) (r.sources.map (·.source)))[ordinal]? ≠ some x.source then x
  else
    let x := { x with bad := x.bad || (s.source x.source).compliance.since_ r.pointFrom }
    match found.find? (fun f => f.unit == 512 + x.source) with
    | some f => { x with ratios := x.ratios ++ [s.ratioOf r x.source f] }
    | none => { x with bad := true }

/-- The timing steps of an input in a run. -/
def closeTiming (found : List CalFinding) (x : CalInput) : CalInput := match found.find? (fun f => f.unit == x.input) with
  | some f =>
    if x.named then { x with taps := x.taps ++ [tapWidths f.hits], delays := x.delays ++ [meanDelay f.delays], trims := x.trims ++ [f.trim] } else x
  | none => x

/-- CAL_POINT_DONE (R424 to R429): the point in progress has its samples, or the event brings what it found; the next point begins, or the checks (log 62). -/
def calPointDone (found : List CalFinding) (s : State) : State := match s.cal.run with
  | none => s
  | some r =>
    match r.todo with
    | [] => s
    | pt :: rest =>
      if s.calStateOf ≠ calMeasuring || !s.pointFull r pt then s
      else
        let r := match pt with
          | .source _ ordinal => { r with sources := r.sources.map (s.closeSource r ordinal found) }
          | .timing _ => { r with inputs := r.inputs.map (closeTiming found) }
          | _ => { r with inputs := r.inputs.map (s.closePoint r pt) }
        s.beginPoint { r with todo := rest }
def execCalPointDone (t : Nat) (found : List CalFinding) (s : State) : Host.Outcome State Fault Refusal := .next (calPointDone found (s.at_ t))

/-! ### Release, abort and store (R426, R429 to R431, R434) -/

/-- The engine is IDLE again. -/
def State.calDone (s : State) : State := ((s.setCal { s.cal with run := none }).wrN P.CAL_STATE calIdle).clrBits P.CAL_STATUS 32

/-- The final reply of the running command (R430, R432): outcome 0 STORED, 1 NOT_STORED, 2 ABORTED, 3 STORE_FAILED. -/
def State.calReply (s : State) (r : CalRun) (outcome seq : Nat) : State :=
  let status := if outcome = 2 then stTimeout else if outcome = 3 then stInternal else stOk
  let data := if r.op = 0x30 then [BitVec.ofNat 32 (r.applied + 65536 * r.others), BitVec.ofNat 32 outcome, BitVec.ofNat 32 seq]
    else r.answer ++ [BitVec.ofNat 32 outcome]
  s.calDone.finish r.op r.h status data

/-- An item's result is shown; one other than APPLIED or SKIPPED sets CAL_STATUS[0]. -/
def State.showResult (s : State) (unit result : Nat) : State :=
  let s := s.wrN (P.CAL_RESULT unit) result
  if result = resApplied || result = resSkipped then s else s.setBit P.CAL_STATUS 0

/-- An input's values and result take effect; one not named itself has none. -/
def State.applyInput (s : State) (x : CalInput) : State :=
  if !x.named then s
  else if x.skipped then s.showResult x.input resSkipped
  else if x.aborted then s.showResult x.input resAborted
  else
    let s := x.values.foldl (fun s (kv : Nat × Word) => s.wr kv.1 kv.2) s
    let s := if x.result = resApplied then s.wr64 (P.CAL_LAST_TIME (2 * x.input)) s.now else s
    s.showResult x.input x.result
def State.applySource (s : State) (x : CalSource) : State :=
  if x.aborted then s.showResult (512 + x.source) resAborted
  else (if x.result = resApplied then s.wrN (P.CAL_EXC_RATIO x.source) x.value else s).showResult (512 + x.source) x.result

/-- Whether a released run goes on to a store: with NOSTORE 0, and for CAL.SHUNT when it applied its gain. -/
def CalRun.stores (r : CalRun) : Bool := !r.nostore && (match r.shunt with
  | some sh => sh.apply && r.inputs.any (fun x => x.result == resApplied && !x.skipped && !x.aborted)
  | none => true)

/-- CAL.SHUNT answers SKIPPED when its group stopped meanwhile, ABORTED when its front end was reset. -/
def CalRun.answered (r : CalRun) : CalRun := match r.shunt with
  | some _ => if r.inputs.any (·.skipped) then { r with answer := r.answer.take 2 ++ [BitVec.ofNat 32 resSkipped] }
    else if r.inputs.any (·.aborted) then { r with answer := r.answer.take 2 ++ [BitVec.ofNat 32 resAborted] }
    else r
  | none => r

/-- CAL_RELEASE (R426): at a slot boundary after the checks the values take effect and the inputs are released together (log 62). -/
def calRelease (s : State) : State := match s.cal.run with
  | none => s
  | some r =>
    let aborts := match r.abortAt with
      | some a => decide (a ≤ s.now)
      | none => false
    if s.calStateOf ≠ calChecking || s.now % 1000 ≠ 0 || s.now ≤ r.checked || s.commitDue || aborts then s
    else
      let quiet := match r.shunt with
        | some sh => !sh.apply
        | none => false
      let s := if quiet then s else r.sources.foldl State.applySource (r.inputs.foldl State.applyInput s)
      let s := r.skipped.foldl (fun s u => s.showResult u resSkipped) s
      let s := s.releaseCal (r.inputs.map (·.input)) s.now
      let named := r.inputs.filter (·.named)
      let applied := (named.filter (fun x => x.result == resApplied && !x.skipped && !x.aborted)).length + (r.sources.filter (fun x => x.result == resApplied && !x.aborted)).length
      let r := { r.answered with checked := s.now, applied, others := named.length + r.sources.length + r.skipped.length - applied }
      if r.stores then ((s.setCalRun r).wrN P.CAL_STATE calStoring).queueFlash .calStore else s.calReply r 1 0
def execCalRelease (t : Nat) (s : State) : Host.Outcome State Fault Refusal := .next (calRelease (s.at_ t))

/-- A calibration that is not yet released ends: its inputs are released unchanged, its items ABORTED (R431). -/
def State.abortCal (s : State) : State := match s.cal.run with
  | none => s
  | some r =>
    let named := r.inputs.filter (·.named)
    let s := named.foldl (fun s x => s.showResult x.input (if x.skipped then resSkipped else resAborted)) s
    let s := r.sources.foldl (fun s x => s.showResult (512 + x.source) resAborted) s
    let s := r.skipped.foldl (fun s u => s.showResult u resSkipped) s
    let s := s.releaseCal (r.inputs.map (·.input)) s.now
    let (a, s) := s.takeFree
    let (b, s) := s.takeFree
    let answer := if r.op = 0x32 then [a, b, BitVec.ofNat 32 resAborted] else []
    s.calReply { r with applied := 0, others := named.length + r.sources.length + r.skipped.length, answer } 2 0

/-- CAL_ABORT (R431). -/
def calAbortBody (p : List Word) (s : State) : State × Answer :=
  if p.length ≠ 0 then refuse s stBadParam
  else match s.cal.run with
    | none => okay s
    | some r =>
      if s.calStateOf = calStoring then refuse s stLocked
      else (s.setCalRun { r with abortAt := some (r.abortAt.getD (boundaryAfter s.now)) }, .quiet (some (boundaryAfter s.now)))
def execCalAbort (h : Hdr) (p : List Word) (s : State) : Host.Outcome State Fault Refusal := .next (s.receive 0x31 h p (calAbortBody p))

/-- Every CAL.ABORT whose boundary has come replies OK. -/
def State.answerAborts (s : State) : Nat → State
  | 0 => s
  | k + 1 => match s.dueCommand [0x31] with
    | some o => (s.finish 0x31 o.h stOk []).answerAborts k
    | none => s

/-- CAL_ABORT_ACT (R431): after a commit at the same boundary (Table 13-10); the running command's reply goes before that of CAL.ABORT. -/
def calAbortAct (s : State) : State := match s.dueCommand [0x31] with
  | none => s
  | some _ =>
    if s.commitDue then s
    else
      let s := if s.calStateOf = calIdle || s.calStateOf = calStoring then s else s.abortCal
      s.answerAborts s.cmd.outstanding.length
def execCalAbortAct (t : Nat) (s : State) : Host.Outcome State Fault Refusal := .next (calAbortAct (s.at_ t))

/-- The items a slot holds (R433): those of Table 13-1, CAL_RESULT and CAL_LAST_TIME (log 67). -/
def calItems : List (Nat × Nat) :=
  [(0x030A, 4096), (0x030B, 4096), (0x0F10, 64), (0x0F11, 512), (0x0F12, 4096), (0x0F13, 32768), (0x0F14, 576), (0x0F15, 1024)]
def isCalItem (k : Nat) : Bool := calItems.any (fun i => i.1 == k / 65536)

/-- CAL_STORE_COMPLETE (R434, R430): the values are written and read back, a first failure is tried again, and the final reply is sent. -/
def calStoreComplete (good : Bool) (s : State) : State := match s.mgt.ops.head?, s.cal.run with
  | some .calStore, some r =>
    let slot := s.storeSlot
    let seq := s.storeSeq
    if good then
      let x : CalSlot := { seq, time := r.checked, body := s.par.filter (fun e => isCalItem e.1), good := true, empty := false }
      let s := s.setCal { s.cal with slots := s.cal.slots.set slot x, retried := false }
      (((s.wrN P.CAL_SLOT_IN_FORCE slot).wrN P.CAL_SLOT_SEQ seq).endFlash).calReply r 0 seq
    else if !s.cal.retried then s.setCal { s.cal with retried := true }
    else
      let s := (s.setCal { s.cal with retried := false }).setBit P.CAL_STATUS 2
      ((s.logEvent 0x0F02 0 2 slot 0).endFlash).calReply r 3 0
  | _, _ => s
def execCalStoreComplete (t : Nat) (readBackGood : Bool) (s : State) : Host.Outcome State Fault Refusal := .next (calStoreComplete readBackGood (s.at_ t))

/-- The body of a slot, in address order (R433; log 67). -/
def CalSlot.bytes (x : CalSlot) : List Byte :=
  bytesOf (calItems.flatMap (fun (i, n) => (List.range n).map (fun j => Sparse.get (Params.reset (65536 * i + j)) x.body (65536 * i + j))))

/-- A slot passes the checks of R435. -/
def CalSlot.valid (x : CalSlot) : Bool := x.good && !x.empty

/-- CAL_READ (R436): an erased slot reads 0xFF, and of a slot that fails its checks the spec states no content (log 3, log 67). -/
def calReadBody (p : List Word) (s : State) : State × Answer :=
  let i := word p 0
  if p.length ≠ 1 || 4 ≤ i then refuse s stBadParam
  else if i = 3 then refuse s stRange
  else
    let x := if i = 2 then s.cal.factory else s.cal.slots.get i
    let state := b2n x.valid + 2 * b2n (s.rdN P.CAL_SLOT_IN_FORCE == i)
    if x.empty then okay s (List.replicate 6 0xFFFFFFFF ++ [BitVec.ofNat 32 state])
    else if x.good then
      let bs := x.bytes
      okay s [0, BitVec.ofNat 32 x.seq, BitVec.ofNat 32 bs.length, crc32c bs, lo32 x.time, hi32 x.time, BitVec.ofNat 32 state]
    else
      let (a, s) := s.takeFree
      let (b, s) := s.takeFree
      let (c, s) := s.takeFree
      let (d, s) := s.takeFree
      let (e, s) := s.takeFree
      let (f, s) := s.takeFree
      okay s [a, b, c, d, e, f, BitVec.ofNat 32 state]
def execCalRead (h : Hdr) (p : List Word) (s : State) : Host.Outcome State Fault Refusal := .next (s.receive 0x33 h p (calReadBody p))

/-- The slot R435 loads: the valid one of later SLOT_SEQ modulo 2^32, none for the factory record. -/
def State.slotToLoad (s : State) : Option Nat :=
  let a := s.cal.slots.a
  let b := s.cal.slots.b
  if a.valid && b.valid then some (if (b.seq + 4294967296 - a.seq) % 4294967296 < 2147483648 then 1 else 0)
  else if a.valid then some 0
  else if b.valid then some 1
  else none

/-- Calibration is loaded at a reset that reloads configuration (R435). -/
def State.loadCal (s : State) : State :=
  let s := { s with par := s.par.filter (fun e => !isCalItem e.1) }
  let put := fun (s : State) (x : CalSlot) => (x.body.filter (fun e => isCalItem e.1)).foldl (fun s (kv : Nat × Word) => s.wr kv.1 kv.2) s
  match s.slotToLoad with
  | some i => ((put s (s.cal.slots.get i)).wrN P.CAL_SLOT_IN_FORCE i).wrN P.CAL_SLOT_SEQ (s.cal.slots.get i).seq
  | none =>
    let s := ((put s s.cal.factory).wrN P.CAL_SLOT_IN_FORCE 2).wrN P.CAL_SLOT_SEQ 0
    if s.cal.slots.a.empty && s.cal.slots.b.empty then s else s.setBit P.CAL_STATUS 3

/-! ### The periodic check (R437, R438) -/

/-- An input fails the periodic check (log 69). -/
def State.failCheck (s : State) (n : Nat) (data1 : Nat) : State :=
  let s := (s.setBit (P.CAL_PCHK_FAIL (n / 32)) (n % 32)).setBit P.CAL_STATUS 1
  s.logEvent 0x0F01 (1 + n / 128) 2 n data1

/-- The error a failed check logs: the mean of the 16 intervals where it fails, else the largest. -/
def worstError (tol : Nat) (es : List Int) : Option Int :=
  if (tol * es.length : Nat) < es.sum.natAbs then some (meanDelay es) else es.find? (fun e => decide (4 * tol < e.natAbs))

/-- The stamper check of one input. -/
def State.checkStamper (s : State) (f : CheckFinding) : State :=
  let n := f.input.val
  if s.rdN (P.TMR_CMP_STATE n) = 0 || f.errors.length ≠ 16 || f.start < s.time then s
  else
    let s := s.setTiming n { s.timing n with testFrom := some f.start }
    match worstError (s.rdN P.CAL_PCHK_TOL) f.errors with
    | some e => s.failCheck n (e % 18446744073709551616).toNat
    | none => s

/-- PCHK_PERIOD (R437, R438): stampers are checked, pulse tests fall due, and one still deferred is skipped (log 69). -/
def pchkPeriod (found : List CheckFinding) (s : State) : State :=
  let period := 1000000000 * s.rdN P.CAL_PCHK_PERIOD
  if period = 0 || s.now % period ≠ 0 || s.now ≤ s.cal.checkedAt then s
  else
    let s := found.foldl State.checkStamper s
    let kept := s.cal.pulses.filter (fun x => x.2.isSome)
    let s := if kept.length < s.cal.pulses.length then s.setBit P.CAL_STATUS 4 else s
    let due := (List.range 512).filter (fun n => s.rdN (P.CAL_PCHK_WB n) == 1 && s.inState n != inHeld && s.inState n != inOff
      && !kept.any (fun x => x.1 == n))
    s.setCal { s.cal with checkedAt := s.now, pulses := kept ++ due.map (fun n => (n, none)) }
def execPchkPeriod (t : Nat) (found : List CheckFinding) (s : State) : Host.Outcome State Fault Refusal := .next (pchkPeriod found (s.at_ t))

/-- The reason number of a pulse test's hold. -/
def holdPulse : Nat := 4

/-- PCHK_PULSE_TEST (R438): the test begins when no capture slot of the group is capturing and holds the input; a scan cycle later it is judged and
the input released.  The event comes once for each (log 69). -/
def pchkPulseTest (n : Nat) (hit : Bool) (s : State) : State := match s.cal.pulses.find? (fun x => x.1 == n) with
  | none => s
  | some (_, none) =>
    if !(s.run (n / 4)).slots.isEmpty || s.grpState (n / 4) ≠ grpScanning || s.inState n = inHeld then s
    else (s.holdInput n holdPulse).setCal { s.cal with pulses := s.cal.pulses.map (fun x => if x.1 = n then (n, some s.now) else x) }
  | some (_, some a) =>
    if s.now < a + s.scanCycle (n / 4) then s
    else
      let s := s.setCal { s.cal with pulses := s.cal.pulses.filter (fun x => x.1 != n) }
      let (v, s') := s.takeFree
      let s := if hit then s'.failCheck n v.toNat else s
      s.releaseInput n holdPulse s.now
def execPchkPulseTest (t : Nat) (input : Fin 512) (hit : Bool) (s : State) : Host.Outcome State Fault Refusal := .next (pchkPulseTest input hit (s.at_ t))

end Sys2Proof.Machine
end

