-- ==== Sys2Proof/Machine/Coder.lean ====
section
/-! DEFINITION. Block coding (R258 to R263) and the copy of a capture's samples from the pre-trigger rings (R280, R282). -/

namespace Sys2Proof.Machine

/-! ### Blocks -/

/-- The predictors of Table 8-12. -/
def predictors : List (Int × Int × Int × Int) :=
  [(4, 0, 0, 0), (8, -4, 0, 0), (12, -12, 4, 0), (0, 0, 0, 0), (2, 2, 0, 0), (6, -2, 0, 0), (7, -4, 1, 0), (0, 4, 0, 0), (0, 8, 0, -4), (4, 4, -4, 0),
   (3, 0, 0, 1), (5, -2, 1, 0), (2, 1, 1, 0), (1, 1, 1, 1), (0, 0, 0, 4), (10, -8, 2, 0)]

/-- Block size S and field width w of a class (Table 8-13). -/
def classSize (c : Nat) : Nat := match c with
  | 0 => 32
  | 1 => 48
  | 2 => 64
  | 3 => 96
  | _ => 130
def classWidth (c : Nat) : Nat := match c with
  | 0 => 3
  | 1 => 5
  | 2 => 7
  | 3 => 11
  | _ => 0

/-- The candidates of an effort level (R262). -/
def candidates (e : Nat) : Nat := match e with
  | 0 => 1
  | 1 => 4
  | 2 => 8
  | _ => 16

/-- Residuals of codes under a predictor, the four codes before being given, newest first (R260). -/
def residuals (c : Int × Int × Int × Int) : Int → Int → Int → Int → List Int → List Int
  | _, _, _, _, [] => []
  | a, b, d, e, x :: xs => (x - (c.1 * a + c.2.1 * b + c.2.2.1 * d + c.2.2.2 * e) / 4) :: residuals c x a b d xs

/-- r[1] to r[63] of a block. -/
def blockResiduals (c : Int × Int × Int × Int) : List Int → List Int
  | [] => []
  | x :: xs => residuals c x x x x xs

/-- The best predictor with its range, bias and residuals (R262). -/
def bestPredictor (w : Nat) (xs : List Int) : Nat → List (Int × Int × Int × Int) → Option (Nat × Int × Int × List Int)
  | _, [] => none
  | k, c :: cs =>
    let r := blockResiduals c xs
    let lo := (r.min?).getD 0
    let hi := (r.max?).getD 0
    let range := hi - lo
    let b := lo + (range + 1) / 2
    let rest := bestPredictor w xs (k + 1) cs
    if range ≤ (2 ^ w - 1 : Nat) && -1024 ≤ b && b ≤ 1023 then match rest with
      | some x => if x.2.1 < range then some x else some (k, range, b, r)
      | none => some (k, range, b, r)
    else rest

/-- Fields of w bits packed from bit 0 upwards. -/
def packFields (w : Nat) : List Int → Nat
  | [] => 0
  | e :: es => (e % (2 ^ w : Nat)).toNat + 2 ^ w * packFields w es

/-- A raw block (R258). -/
def rawBlock (xs : List Int) : List Byte := leBytes 2 0x8000 ++ xs.flatMap (fun x => leBytes 2 (x % 65536).toNat)

/-- A block of 64 codes, coded at a class and a level: whether it is raw, and its bytes (R258, R262). -/
def codeBlock (cls level : Nat) (xs : List Int) : Bool × List Byte :=
  let w := classWidth cls
  match if cls = 4 then none else bestPredictor w xs 0 (predictors.take (candidates level)) with
  | none => (true, rawBlock xs)
  | some (k, _, b, r) =>
    let head := 2048 * k + (b % 2048).toNat
    (false, leBytes 2 head ++ leBytes 2 ((xs.headD 0) % 65536).toNat ++ leBytes (classSize cls - 4) (packFields w (r.map (· - b))))

/-- Codes of up to 64 samples, the last repeated up to 64 (R259). -/
def padCodes (xs : List Int) : List Int := xs ++ List.replicate (64 - xs.length) (xs.getLastD 0)

/-! ### The decoder (R263) -/

/-- The low w bits of a number, sign-extended. -/
def fieldAt (w n i : Nat) : Int := signed w (n / 2 ^ (w * i))

/-- The codes from residual fields, the four codes before being given, newest first. -/
def unpredict (c : Int × Int × Int × Int) (b : Int) : Int → Int → Int → Int → List Int → List Int
  | _, _, _, _, [] => []
  | x, y, z, t, e :: es =>
    let v := (c.1 * x + c.2.1 * y + c.2.2.1 * z + c.2.2.2 * t) / 4 + b + e
    v :: unpredict c b v x y z es

/-- The codes of a block's bytes. -/
def decodeBlock (cls : Nat) (bs : List Byte) : List Int :=
  let head := leNat (bs.take 2)
  if bitOf head 15 then (List.range 64).map (fun i => signed 16 (leNat ((bs.drop (2 + 2 * i)).take 2)))
  else
    let x := signed 16 (leNat ((bs.drop 2).take 2))
    let n := leNat (bs.drop 4)
    let w := classWidth cls
    let c := predictors.getD (bits head 14 11) (0, 0, 0, 0)
    x :: unpredict c (signed 11 head) x x x x ((List.range 63).map (fieldAt w n))

/-! ### The capture copy (R280, R282, R287) -/

/-- The words of an input that its group's ring holds in a span of instants [a, b), oldest first. -/
def State.heldWords (s : State) (n a b : Nat) : List RingWord :=
  ((s.ring (n / 4)).words.filter (fun w => w.input == n && decide (a ≤ w.instant) && decide (w.instant < b))).reverse

/-- The Granary lines that hold a ring word. -/
def State.wordLines (s : State) (g : Nat) (w : RingWord) : List Nat :=
  let a := s.segmentAt g (w.pos / 128) + 20 * (w.pos % 128) / 8
  spanOf 64 a 3

/-- The 20-bit word the active die's read of a ring place returns. -/
def State.wordAt (s : State) (g : Nat) (w : RingWord) : Nat :=
  let seg := s.segmentAt g (w.pos / 128)
  let i := w.pos % 128
  let a := seg + 20 * i / 8
  leNat ((List.range 3).map (fun j => s.granByte s.active (a + j))) / 2 ^ (20 * i % 8) % 1048576

/-- Words are copied: their lines are read by both dies, and an uncorrectable or poisoned one marks the record (Table 9-7). -/
def State.copyWords (s : State) (g : Nat) (ws : List RingWord) : State × List Sample × Two Bool :=
  let lines := (ws.flatMap (s.wordLines g)).eraseDups
  let bad := fun (d : Nat) => lines.any (fun l => decide (2 ≤ s.lineOut d l))
  let samples := ws.map (fun w => { at_ := w, word := s.wordAt g w : Sample })
  (lines.foldl (fun s l => s.readLineBoth l reqTransfer) s, samples, ⟨bad 0, bad 1⟩)

/-- The effective effort level of an input (R262). -/
def State.effortOf (s : State) (n : Nat) : Nat := s.rdN (P.COD_EFFORT n) - s.rdN P.COD_THR_REDUCE

/-- A block coder codes a block of samples (R262, Tables 8-20, 8-21). -/
def State.codeSamples (s : State) (n cls : Nat) (xs : List Sample) : State × Bool × List Byte :=
  let level := s.effortOf n
  let r := codeBlock cls level (padCodes (xs.map (fun x => wordCode x.word)))
  let s := s.addWrap (P.COD_BLOCKS n) 1
  let s := if r.1 && cls ≠ 4 then (s.addSat (P.COD_RAW n) 1).setBit P.COD_STATUS 0 else s
  let s := if level < s.rdN (P.COD_EFFORT n) then s.setBit P.COD_STATUS 1 else s
  (s, r.1, r.2)

def FurrowPart.lastInstant (x : FurrowPart) : Option Nat := (x.samples.getLast?).map (fun y => y.at_.instant)

/-- The words of a captured input still to be copied. -/
def State.waitingWords (s : State) (c : Capture) (g : GroupCapture) (n : Nat) : List RingWord :=
  if c.cut.isSome then [] else
  let part : FurrowPart := Sparse.get {} c.furrows n
  let from_ := match part.lastInstant with
    | some t => t + 1
    | none => c.instant - g.pre
  s.heldWords n from_ (c.instant + g.post)

/-- The next block of a captured input is copied and coded. -/
def State.copyBlock (s : State) (c : Capture) (g : GroupCapture) (x : CapturedInput) : State × Capture :=
  let ws := (s.waitingWords c g x.input).take 64
  let (s, samples, bad) := s.copyWords g.group ws
  let (s, raw, bytes) := s.codeSamples x.input x.cls samples
  let part : FurrowPart := Sparse.get {} c.furrows x.input
  let part := { samples := part.samples ++ samples, blocks := part.blocks ++ [(raw, bytes)] }
  (s, { c with furrows := Sparse.set {} c.furrows x.input part, marks := ⟨c.marks.a || bad.a, c.marks.b || bad.b⟩ })

/-- A capture holds its group's part for an input. -/
def Capture.partOf (c : Capture) (n : Nat) : Option (GroupCapture × CapturedInput) :=
  c.groups.findSome? (fun g => (g.inputs.find? (fun x => x.input == n)).map (fun x => (g, x)))

/-- A conversion whose word belongs to a capture is still in progress. -/
def State.awaits (s : State) (c : Capture) : Bool := c.groups.any (fun g =>
  s.samples g.group c.cut.isSome (c.instant - g.pre) (c.instant + g.post) (fun n => g.inputs.any (fun x => x.input == n)))

/-- The next block of the samples that a step of the time base has left without one is coded. -/
def State.codeBlockOf (s : State) (c : Capture) (x : CapturedInput) : State × Capture :=
  let part : FurrowPart := Sparse.get {} c.furrows x.input
  let r := s.codeSamples x.input x.cls ((part.samples.drop (64 * part.blocks.length)).take 64)
  (r.1, { c with furrows := Sparse.set {} c.furrows x.input { part with blocks := part.blocks ++ [r.2] } })

/-- The blocks of an input that wait for a coder in a capture: whole ones, and once its last word is there the short last one (R259). -/
def State.blocksWaiting (s : State) (c : Capture) (n : Nat) : Nat := match c.partOf n with
  | some (g, _) =>
    let part : FurrowPart := Sparse.get {} c.furrows n
    let k := if c.cut.isSome then part.samples.length - 64 * part.blocks.length else (s.waitingWords c g n).length
    if c.closed && !s.awaits c then ceilDiv k 64 else k / 64
  | none => 0
def State.blockWaits (s : State) (c : Capture) (n : Nat) : Bool := decide (0 < s.blocksWaiting c n)

/-- BLOCK_CODE (R262, R265): a coder takes block `block` of an input's furrow in the oldest capture in which it waits. -/
def blockCode (n block : Nat) (s : State) : State :=
  let hit := fun (c : Capture) => s.blockWaits c n && (Sparse.get {} c.furrows n : FurrowPart).blocks.length == block
  match s.trg.captures.find? hit with
  | none => s
  | some c => match c.partOf n with
    | none => s
    | some (g, x) =>
      let r := if c.cut.isSome then s.codeBlockOf c x else s.copyBlock c g x
      { r.1 with trg := { r.1.trg with captures := s.trg.captures.map (fun d => if d.id == c.id && d.instant == c.instant then r.2 else d) } }
def execBlockCode (t : Nat) (input : Fin 512) (block : Nat) (s : State) : Host.Outcome State Fault Refusal := .next (blockCode input block (s.at_ t))

/-- COD_BACKLOG: the blocks that wait for a coder (R265). -/
def State.codBacklog (s : State) : Nat := (s.trg.captures.map (fun c => ((List.range 512).map (s.blocksWaiting c)).sum)).sum

end Sys2Proof.Machine
end

