-- ==== Sys2Proof/Machine/Evt.lean ====
section
/-! DEFINITION. EVT fragments (R226, R232, R244 to R249). -/

namespace Sys2Proof.Machine

/-! ### Furrow gaps (R232, R282) -/

/-- A hole in a furrow: its reason, the missing sampling instants counted, and the first and last. -/
structure Hole where
  reason : Nat
  count : Nat
  first : Nat
  last : Nat
  deriving DecidableEq, Repr

/-- The grid instants t, t − sp, t − 2·sp, … that lie at or after `lo` and before t: their count and the first. -/
def backFrom (t sp lo : Nat) : Nat × Nat := let k := (t - lo) / max 1 sp; (k, t - k * max 1 sp)

/-- The hole before a sample: `lo` is the first instant not covered yet, `grid` when the grid before it came into force, `lost` what the ring has
overwritten. -/
def holeBefore (lost lo grid : Nat) (w : RingWord) : List Hole :=
  if grid < w.gridFrom && lo ≤ w.instant && decide (lo < w.instant) then
    let (k, first) := backFrom w.instant w.spacing (max lo w.gridFrom)
    if k ≠ 0 then [{ reason := 3, count := k, first, last := w.instant - w.spacing }]
    else if lo + w.spacing < w.gridFrom then [{ reason := 3, count := 0, first := lo, last := w.gridFrom - 1 }]
    else []
  else if lo < lost then
    let (k, first) := backFrom w.instant w.spacing lo
    if k = 0 then [] else [{ reason := 4, count := k, first, last := w.instant - w.spacing }]
  else []

/-- The holes before each sample of a furrow. -/
def holesIn (lost : Nat) : Nat → Nat → List Sample → List Hole
  | _, _, [] => []
  | lo, grid, x :: xs => holeBefore lost lo grid x.at_ ++ holesIn lost (x.at_.instant + x.at_.spacing) x.at_.gridFrom xs

/-- The first sampling instant of an input at or after an instant on the grid in force, and the output spacing (R117, R246). -/
def State.gridFirst (s : State) (n t : Nat) : Nat × Nat :=
  let g := n / 4
  let h := s.revHalf n
  let lead := if h ≠ 0 then h else s.memberOffset g n + s.acqTime g + s.rdN (P.ADC_PHASE g)
  let sp := max 1 (s.spacing n s.now)
  (if t ≤ lead then lead else lead + ceilDiv (t - lead) sp * sp, sp)

/-- Missing instants of the grid in force in [lo, hi) (log 83). -/
def State.gridHole (s : State) (n reason lo hi : Nat) : Hole :=
  let (first, sp) := s.gridFirst n lo
  if !(s.scanSet (n / 4)).contains n || hi ≤ first then { reason, count := 0, first := lo, last := hi - 1 }
  else
    let k := (hi - 1 - first) / sp
    { reason, count := k + 1, first, last := first + k * sp }

/-- The hole after the last sample of a furrow, z, b being the window's end, in a grid in force since after z: ALIGNING up to its first S0, or to the end
where the ring has overwritten none of its words, and OVERRUN from there on (log 83). -/
def State.gridAfter (s : State) (n lo b : Nat) : List Hole :=
  let lost := (s.ring (n / 4)).lost
  let first := (s.group (n / 4)).first
  let aligned := if first < lost then min b (max lo first) else b
  let h := s.gridHole n 3 lo aligned
  let o := s.gridHole n 4 (max lo first) (min b lost)
  (if h.count = 0 && aligned ≤ (s.gridFirst n lo).1 && (s.scanSet (n / 4)).contains n then [] else [h]) ++ (if first < lost && o.count ≠ 0 then [o] else [])

/-- The hole after the last sample of a furrow, `grid` being when its grid, or the window's, came into force: words overwritten since before they were
read, or a new grid (R232). -/
def State.holeAfter (s : State) (n b grid : Nat) (z : RingWord) : List Hole :=
  let from_ := (s.group (n / 4)).gridFrom
  let hi := min b (s.ring (n / 4)).lost
  if grid < from_ && from_ < b then s.gridAfter n (max (z.instant + 1) from_) b
  else if z.instant + z.spacing < hi then
    let k := (hi - 1 - z.instant) / max 1 z.spacing
    [{ reason := 4, count := k, first := z.instant + z.spacing, last := z.instant + k * z.spacing }]
  else []

/-- The gap entries of a furrow with window [a, b) (log 83). -/
def State.furrowGaps (s : State) (n a b : Nat) (xs : List Sample) : List GapEntry :=
  let lost := (s.ring (n / 4)).lost
  let entry := fun (h : Hole) => ({ reason := h.reason, count := h.count, firstSeq := 0, firstT := h.first, lastT := h.last, input := n } : GapEntry)
  match xs.getLast? with
  | none =>
    if b ≤ a then []
    else if a < lost then [entry (s.gridHole n 4 a (min b lost))]
    else [entry (s.gridHole n 3 a b)]
  | some z =>
    (holesIn lost a a xs ++ s.holeAfter n b (max a z.at_.gridFrom) z.at_).map entry

/-! ### Runs and flag runs (R246, R247) -/

structure SampleRun where
  first : Nat
  spacing : Nat
  count : Nat
  deriving DecidableEq, Repr

/-- The runs from a run in progress on: a new one begins at each sample that is not its SPACING after the one before, and at the first after a time-base
step. -/
def runsFrom (r : SampleRun) : List Sample → List SampleRun
  | [] => [r]
  | x :: xs =>
    if !x.at_.stepped && x.at_.instant == r.first + r.count * r.spacing then runsFrom { r with count := r.count + 1 } xs
    else r :: runsFrom { first := x.at_.instant, spacing := x.at_.spacing, count := 1 } xs

/-- The runs of a furrow; a run's SPACING is the output spacing in force at its first sample. -/
def runsOf : List Sample → List SampleRun
  | [] => []
  | x :: xs => runsFrom { first := x.at_.instant, spacing := x.at_.spacing, count := 1 } xs

def flagsOf (x : Sample) : Nat := x.word % 16

/-- Flag runs (Table 8-9): flags, first sample number, count. -/
def flagRuns : Nat → List Sample → List (Nat × Nat × Nat)
  | _, [] => []
  | i, x :: xs =>
    let rest := flagRuns (i + 1) xs
    let f := flagsOf x
    if f = 0 then rest
    else match rest with
      | (g, j, k) :: rs => if g == f && j == i + 1 then (f, i, k + 1) :: rs else (f, i, 1) :: rest
      | [] => [(f, i, 1)]

/-! ### Measurements (R226, Tables 7-12, 8-8) -/

/-- An evaluated sample: its instant, deviation and output spacing, whether it carries OVR. -/
structure Point where
  t : Nat
  y : Fl
  spacing : Nat
  ovr : Bool
  deriving DecidableEq, Repr

def Fl.abs : Fl → Fl
  | .nan => .nan
  | .inf _ => .inf false
  | .fin _ m e => .fin false m e

/-- The instant, in ns after an instant t0 up to the first point, at which a line from one point to the next reaches a level. -/
def crossing (t0 : Nat) (p q : Point) (level : Fl) : Fl :=
  let span := Fl.ofNat (q.t - p.t)
  let part := Fl.div (Fl.sub level p.y) (Fl.sub q.y p.y)
  Fl.add (Fl.ofNat (p.t - t0)) (Fl.mul span part)

/-- The point of largest magnitude, the earliest on a tie. -/
def peakOf : List Point → Option Point
  | [] => none
  | p :: ps => match peakOf ps with
    | none => some p
    | some q => if Fl.lt (Fl.abs p.y) (Fl.abs q.y) then some q else some p

/-- The first instant after t0 at which |y| reaches the level, interpolated from the point before (log 35). -/
def firstReach (t0 : Nat) (m : Fl) : Option Point → List Point → Option Fl
  | _, [] => none
  | prev, p :: ps =>
    if Fl.le m (Fl.abs p.y) then match prev with
      | none => some (Fl.ofNat (p.t - t0))
      | some q => some (crossing t0 q p (if Fl.lt p.y (.fin false 0 0) then m.neg else m))
    else firstReach t0 m (some p) ps

/-- The rising passages of y through the level after t0, interpolated (log 35). -/
def passages (t0 : Nat) (m : Fl) : List Point → List Fl
  | p :: q :: ps => if Fl.lt p.y m && Fl.le m q.y then crossing t0 p q m :: passages t0 m (q :: ps) else passages t0 m (q :: ps)
  | _ => []

/-- Σ y² (t − t before), the first point weighted by its output spacing. -/
def energyOf : Option Nat → Fl → List Point → Fl
  | _, e, [] => e
  | prev, e, p :: ps =>
    let w := match prev with
      | none => Fl.ofNat p.spacing
      | some t => Fl.ofNat (p.t - t)
    energyOf (some p.t) (Fl.add e (Fl.mul (Fl.mul p.y p.y) w)) ps

/-- A time in ns as an instant in 1/4096 ns, rounded down (log 35). -/
def fineOf (x : Fl) : Nat := match x with
  | .fin false m e => if 0 ≤ e + 12 then m * 2 ^ (e + 12).toNat else m / 2 ^ (-(e + 12)).toNat
  | _ => 0

/-- The measurement block of a furrow: the trigger at t, the level, its samples, and the first stamp in the window (R226). -/
def measure (t thresh : Nat) (xs : List Sample) (stamp : Option Nat) : List W64 :=
  let eval := xs.filter (fun x => !bitOf x.word 2 && !bitOf x.word 0)
  let excl := eval.length != xs.length
  let setin := xs.any (fun x => bitOf x.word 1)
  let before := eval.filter (fun x => decide (x.at_.instant < t))
  let base := if before.isEmpty then flZero else Fl.div (Fl.ofInt (before.map (fun x => wordCode x.word)).sum) (Fl.ofNat before.length)
  let pts : List Point := eval.map (fun x => { t := x.at_.instant, y := Fl.sub (Fl.ofInt (wordCode x.word)) base, spacing := x.at_.spacing, ovr := bitOf x.word 3 })
  let m := Fl.ofNat thresh
  let t0 := ((pts.head?).map (·.t)).getD 0
  let reach := pts.filter (fun p => Fl.le m (Fl.abs p.y))
  let nohit := reach.isEmpty
  let peak := peakOf pts
  let peakT := match peak with
    | some p => p.t
    | none => 0
  let peakY := match peak with
    | some p => p.y
    | none => flZero
  let clip := match peak with
    | some p => p.ovr
    | none => false
  let arrival : Option Nat := match stamp with
    | some a => some a
    | none => (firstReach t0 m none pts).map (fun x => 4096 * t0 + fineOf x)
  let rise := match arrival, peak with
    | some a, some p => Fl.div (Fl.ofInt ((4096 * p.t : Nat) - (a : Int))) (Fl.ofNat 4096)
    | _, _ => flZero
  let duration := match reach, reach.getLast? with
    | p :: _, some q => Fl.ofNat (q.t - p.t)
    | _, _ => flZero
  let ps := passages t0 m pts
  let counts := min 65535 ps.length
  let period := match ps, ps.getLast? with
    | p :: _ :: _, some q => bits32of (Fl.div (Fl.sub q p) (Fl.ofNat (ps.length - 1)))
    | _, _ => 0x7FC00000
  let flags := b2n before.isEmpty + 2 * b2n nohit + 4 * b2n clip + 8 * b2n stamp.isSome + 16 * b2n setin + 32 * b2n excl
  let w := BitVec.ofNat 64
  [w (flags + 256 * counts + 4294967296 * bits32of base), w (bits32of peakY + 4294967296 * bits32of rise), w (stamp44 (4096 * peakT)),
    w (stamp44 (arrival.getD 0)), w (bits32of duration + 4294967296 * period), w (bits32of (energyOf none flZero pts))]

/-! ### Furrows and fragments (R244 to R248) -/

/-- The 64-bit words of a byte list, zeros completing the last. -/
def words64 (bs : List Byte) : List W64 := (chunks 8 (bs.length / 8 + 1) bs).map (fun c => BitVec.ofNat 64 (leNat c))

/-- The raw map of a furrow (R248). -/
def rawMap (blocks : List (Bool × List Byte)) : List W64 :=
  (chunks 64 (blocks.length / 64 + 1) blocks).map (fun c => BitVec.ofNat 64 (c.foldr (fun b n => b2n b.1 + 2 * n) 0))

/-- The first stamp of an input in a window, when its edges are stamped (R226). -/
def State.firstStamp (s : State) (n a b : Nat) : Option Nat :=
  if s.rdN (P.TMR_EDGE n) = 0 then none
  else ((Sparse.get [] s.trg.stamps n).filter (fun x => decide (4096 * a ≤ x) && decide (x < 4096 * b))).min?

/-- The gap entries of a furrow and the first stamp of its window; a step of the time base has left both (log 50). -/
def State.furrowCut (s : State) (c : Capture) (g : GroupCapture) (n : Nat) (xs : List Sample) : CutFurrow := match c.cut with
  | some k => Sparse.get {} k.furrows n
  | none =>
    let a := c.instant - g.pre
    let b := c.instant + g.post
    { gaps := s.furrowGaps n a b xs, stamp := s.firstStamp n a b }

/-- A furrow's words (R245). -/
def State.furrowWords (s : State) (c : Capture) (g : GroupCapture) (x : CapturedInput) : List W64 :=
  let part : FurrowPart := Sparse.get {} c.furrows x.input
  let xs := part.samples
  let runs := runsOf xs
  let k := s.furrowCut c g x.input xs
  let gaps := k.gaps
  let flags := flagRuns 0 xs
  let w := BitVec.ofNat 64
  let raw := (part.blocks.filter (·.1)).length
  let meas := if x.meas then measure c.instant x.thresh xs k.stamp else []
  [w (x.input + 512 * b2n x.meas + 1024 * x.cls + 65536 * runs.length + 4294967296 * gaps.length), w (xs.length + 4294967296 * flags.length),
    w (part.blocks.length + 4294967296 * raw)]
    ++ meas ++ runs.flatMap (fun r => [w r.first, w (r.spacing + 4294967296 * r.count)]) ++ gaps.flatMap GapEntry.words
    ++ flags.map (fun f => w (f.2.1 + 16777216 * f.2.2 + 281474976710656 * f.1)) ++ rawMap part.blocks ++ words64 (part.blocks.flatMap (·.2))

/-- Every block of a capture still to be coded is copied and coded. -/
def copyRest (s : State) (c : Capture) (g : GroupCapture) (x : CapturedInput) : Nat → State × Capture
  | 0 => (s, c)
  | k + 1 => if (s.waitingWords c g x.input).isEmpty then (s, c) else let r := s.copyBlock c g x; copyRest r.1 r.2 g x k

/-- The samples that a step of the time base has left without a block are coded. -/
def codeRest (s : State) (c : Capture) (x : CapturedInput) : Nat → State × Capture
  | 0 => (s, c)
  | k + 1 =>
    let part : FurrowPart := Sparse.get {} c.furrows x.input
    if part.samples.length ≤ 64 * part.blocks.length then (s, c) else let r := s.codeBlockOf c x; codeRest r.1 r.2 x k

def State.copyAll (s : State) (c : Capture) : State × Capture :=
  if c.cut.isSome then
    (c.groups.flatMap (·.inputs)).foldl (fun (r : State × Capture) x =>
      codeRest r.1 r.2 x ((Sparse.get {} r.2.furrows x.input : FurrowPart).samples.length / 64 + 1)) (s, c)
  else
  (c.groups.flatMap (fun g => g.inputs.map (fun x => (g, x)))).foldl (fun (r : State × Capture) y =>
    copyRest r.1 r.2 y.1 y.2 ((r.1.waitingWords r.2 y.1 y.2.input).length / 64 + 1)) (s, c)

/-- Missed entries (Table 8-6). -/
def Missed.words (m : Missed) : List W64 := [BitVec.ofNat 64 (m.id + 281474976710656 * m.group + 36028797018963968 * m.reason), BitVec.ofNat 64 m.instant]

/-- The furrows of a capture in ascending input number. -/
def Capture.inputs (c : Capture) : List (GroupCapture × CapturedInput) :=
  (List.range 512).filterMap c.partOf

/-- The EVT fragment of a closed capture (R244, Table 8-5). -/
def State.fragment (s : State) (c : Capture) : Draft :=
  let inputs := c.inputs
  let w := BitVec.ofNat 64
  let block := [w (c.id + 281474976710656 * c.cause + 4503599627370496 * c.flags + 1152921504606846976 * c.missed.length), w c.instant,
    w (c.pre + 4294967296 * c.post), w (c.seqs + 4294967296 * c.radius + 1099511627776 * c.distance + 281474976710656 * c.unlisted)]
  { kind := 0, time := c.instant - c.pre, last := c.instant + c.post, kspec := c.id + 281474976710656 * inputs.length
    body := block ++ c.missed.flatMap Missed.words ++ inputs.flatMap (fun x => s.furrowWords c x.1 x.2), marks := c.marks
    step := bitOf c.flags 2 || c.cut.any (fun k => k.at_ == c.instant + c.post), old := c.cut.isSome, dir := c.dir }

/-- The fragment of a capture can be built: it has closed, and its last words are there. -/
def State.complete (s : State) (c : Capture) : Bool := c.closed && !s.awaits c

/-- CAPTURE_END (R220, R240, R284): a fragment that has closed is built and stored. -/
def captureEnd (s : State) : State := match s.trg.captures.find? s.complete with
  | none => s
  | some c =>
    let s := { s with trg := { s.trg with captures := dropFirstWhere s.complete s.trg.captures } }
    let r := s.copyAll c
    r.1.build (r.1.fragment r.2)
def execCaptureEnd (t : Nat) (s : State) : Host.Outcome State Fault Refusal := .next (captureEnd (s.at_ t))

end Sys2Proof.Machine
end

