-- ==== Sys2Proof/Machine/Fe.lean ====
section
/-! DEFINITION. Meanings of the front-end and conversion events (chapters 3 and 4). -/

namespace Sys2Proof.Machine

/-! ### A conversion (R89 to R92, R113, R123, R127, R128) -/

/-- The input that converts after an input, in the scan set in force: the next member, wrapping, or the lowest when the input is none (R89). -/
def State.nextMember (s : State) (g n : Nat) : Option Nat :=
  let es := s.scanSet g
  match memberAfter n es with
  | some m => some m
  | none => es.head?

/-- Recovery windows with one more; those that ended 4 µs or more before it meet no conversion any more. -/
def addWindow (w : Nat × Nat × Bool) (ws : List (Nat × Nat × Bool)) : List (Nat × Nat × Bool) := w :: ws.filter (fun x => decide (w.1 < x.2.1 + 4000))

/-- The recovery window a beyond-range conversion of input n opens, the conversion having ended at an instant (R89, R90); one that completes under the
settings before a commit opens it on the lowest member of the new grid (Table 4-7). -/
def State.openRecovery (s : State) (g n end_ : Nat) : State :=
  let changed := (s.group g).finishing.isSome
  let single := (s.scanSet g).length ≤ 1
  match (if changed then (s.scanSet g).head? else s.nextMember g n) with
  | none => s
  | some m =>
    let x := s.input m
    let w : Nat × Nat × Bool := if !changed && single && m == n then (end_, end_ + 400, true) else (end_ + 20, end_ + 420, true)
    s.setInput m { x with starts := addWindow w x.starts }

/-- An input is on range 4 of a voltage-based mode. -/
def State.onRange4 (s : State) (n : Nat) : Bool :=
  s.rdN (P.FE_IN_RANGE n) == 4 && s.rdN (P.FE_IN_MODE n) != 0

/-- The recovery condition of a conversion (R73, R76, R81, R89, R90, R92): whether one stands, and whether it is of R89 or R90, whose SET shows in
FE_IN_STATUS[1] (log 79). -/
def State.recovery (s : State) (n start instant : Nat) : Bool × Bool :=
  let x := s.input n
  let hits := x.starts.filter (fun w => decide (w.1 ≤ start) && decide (start < w.2.1))
  let windows := x.samples.any (fun w => decide (w.1 ≤ instant) && decide (instant ≤ w.2))
  let van := s.onRange4 n && (Sparse.get {} s.fe.vanLow (n / 128) : Spell).covers (ns instant)
  let k := s.rdN (P.FE_IN_EXC n)
  let compl := decide (k < 64) && (s.source k).compliance.covers (ns instant)
  (!hits.isEmpty || windows || van || compl, hits.any (fun w => w.2.2))

/-- The current of a mode-5 input lies below 1.0 mA (Table 3-6) (log 33). -/
def State.lowCurrent (s : State) (n : Nat) (v : Int) : Bool := Fl.lt (s.baseX n v) (Fl.dec 1 3)

/-- Wire check of a conversion (R94, Table 3-6): the pulse of the discharge step in modes 1, 3 and 4, the sample's current in mode 5 (log 33). -/
def State.wireCheck (s view : State) (g n start instant : Nat) (pulse : Bool) (v : Int) : State :=
  let mode := view.rdN (P.FE_IN_MODE n)
  if mode = 5 then
    let low := view.lowCurrent n v
    if s.inState n = inConfirming then s.setInput n { s.input n with confLow := (s.input n).confLow && low } else s.screen n instant low
  else if mode = 2 || (view.scanSet g).length ≤ 1 then s
  else s.screen n (start - view.rdN (P.ADC_SETTLE n)) pulse

/-- A half of a reversal pair takes a conversion (R83; log 81). -/
def Half.take (h : Option Half) (index : Nat) (f : FiltVal) : Half := match h with
  | some x => if x.index = index then { x with sum := x.sum + f.v, count := x.count + 1, ovr := x.ovr || f.ovr, recov := x.recov || f.recov
                                               near := x.near || f.near }
    else { index, sum := f.v, count := 1, ovr := f.ovr, recov := f.recov, near := f.near }
  | none => { index, sum := f.v, count := 1, ovr := f.ovr, recov := f.recov, near := f.near }

/-- A conversion of an input with a reversing source enters its half unless it lies in the blanking interval or ends after the half (R83), `view` holding
the parameters at its instant. -/
def State.pairUp (s view : State) (n k instant end_ : Nat) (f : FiltVal) : State :=
  let h := 500 * view.rdN (P.FE_EXC_REV_PERIOD k)
  let i := instant / h
  let x := s.input n
  if instant < i * h + 1000 * view.rdN (P.FE_EXC_BLANK k) || (i + 1) * h ≤ end_ then s
  else if i % 2 = 0 then s.setInput n { x with fwd := some (Half.take x.fwd i f) }
  else s.setInput n { x with rev := some (Half.take x.rev i f) }

/-- In mode 2 with AUTO, a sample of magnitude 28,672 or more closes the reset switch at the next slot boundary (R75). -/
def State.autoReset (s : State) (n : Nat) : State :=
  let c := wordCode (s.input n).word
  if s.rdN (P.FE_IN_MODE n) = 2 && s.rdN (P.FE_QRST_MODE n) = 0 && 28672 ≤ c.natAbs && (s.input n).resetDue.isNone then
    s.setInput n { s.input n with resetDue := some (boundaryAfter s.now) }
  else s

/-- The converter check counts towards FAULT (R123).  Table 4-3 leads to FAULT from SCANNING alone: where the 16th failure in a row comes of a
conversion that completes while the group is ALIGNING, FAULT comes with the next failure in SCANNING (log 108). -/
def State.checkConverter (s : State) (g : Nat) (fails : Bool) : State :=
  let x := s.group g
  let s := s.setGroup g { x with fails := if fails then x.fails + 1 else 0 }
  let s := s.putBit (P.ADC_GRP_STATUS g) 2 fails
  if 16 ≤ (s.group g).fails && s.grpState g = grpScanning then s.faultGroup g else s

/-- The value a clamped conversion takes: clipped towards the sign of the overdrive.  Where both detectors of the input are active with different
signs, the spec names none of the two (log 3). -/
def State.clampedValue (s : State) (n t : Nat) : Int × State :=
  let x := s.input n
  let value := fun (positive : Bool) => if positive then (32767 * 256 : Int) else -32768 * 256
  match x.clamps.a.flagAt t, x.clamps.b.flagAt t with
  | some p, none => (value p, s)
  | none, some p => (value p, s)
  | some p, some q => if p == q then (value p, s) else let (w, s) := s.takeFree; (value (bitOf w.toNat 0), s)
  | none, none => (0, s)

/-- Steps 4 to 9 of Table 3-1 for one conversion, `view` holding the parameters of its grid (log 32), with the pulse test of its discharge step. -/
def State.convertWord (s view : State) (g n start end_ : Nat) (raw : Nat) (pulse : Bool) : State :=
  let instant := start + view.acqTime g
  let now := s.viewAt instant
  let x := now.corrected n raw
  let (v, beyond) := overRange raw x
  let clamped := (s.input n).clamped (ns instant)
  let (forced, s) := s.clampedValue n (ns instant)
  let v := if clamped then forced else v
  let ovr := beyond || clamped
  let s := if now.rdN (P.FE_IN_MODE n) = 5 then s else s.wireCheck now g n start instant pulse x
  let (recov, near) := now.recovery n start instant
  let s := s.addWrap (P.ADC_CONV_COUNT g) 1
  let s := if ovr then (s.addSat (P.ADC_OVR_COUNT n) 1).openRecovery g n end_ else s
  let k := now.rdN (P.FE_IN_EXC n)
  if s.inState n = inHeld then s.calSample n start instant raw
  else if s.inState n = inOff || (bitOf (s.input n).word 2 && (s.input n).wordAt == instant) then s
  else
    let s := if decide (k < 64) && (s.source k).compliance.covers (ns instant) then s.setBit (P.FE_IN_STATUS n) 7 else s
    let f : FiltVal := { v, ovr, recov, near }
    if now.revHalf n ≠ 0 then s.pairUp now n k instant end_ f
    else (s.outputValue n instant start f (view.spacing n (start - view.memberOffset g n)) instant (ns end_) false).autoReset n

/-- What one conversion does.  The current test of mode 5 judges the sample once it has left with the flags of its state (R94, Table 3-9; log 33) (log 32). -/
def State.convert (s view : State) (g n start end_ : Nat) (raw : Nat) (pulse : Bool) : State :=
  let instant := start + view.acqTime g
  let now := s.viewAt instant
  let s := s.convertWord view g n start end_ raw pulse
  if now.rdN (P.FE_IN_MODE n) = 5 then s.wireCheck now g n start instant pulse (now.corrected n raw) else s

/-- An input that a commit has put OFF goes through its last conversion, whose sample belongs to the old epoch, in the state it had, and is OFF again
(R120). -/
def State.lastConversion (s : State) (n st : Nat) (x : InputState) (convert : State → State) : State :=
  let off := s.input n
  let s := convert ((s.setInput n x).wrN (P.FE_IN_STATE n) st)
  let y := s.input n
  (s.setInput n { off with word := y.word, wordAt := y.wordAt, lins := y.lins }).wrN (P.FE_IN_STATE n) inOff

/-- A conversion that completes under the settings before a commit or a step of the time base has ended; a group with an empty scan set is OFF then (R120). -/
def State.finishGroup (s : State) (g : Nat) : State :=
  let s := s.setGroup g { s.group g with finishing := none, leaving := none }
  if s.grpState g = grpScanning && (s.group g).next.isNone then s.wrN (P.ADC_GRP_STATE g) grpOff else s

/-- CONVERSION_END (R113): the conversion in progress ends with a raw code, the outcome of its redundant bit decision, and the outcome of the wire-check
pulse of the input's discharge step (log 34). -/
def conversionEnd (g : Nat) (raw : Nat) (fails pulse : Bool) (s : State) : State := match s.inProgress g with
  | none => s
  | some (n, start, view) =>
    let end_ := start + view.convTime g
    if s.time < ns end_ then s
    else
      let convert := fun (s : State) => s.convert view g n start end_ raw pulse
      let s := if (s.group g).finishing.isSome then ((match (s.group g).leaving with
          | some (m, st, x) => if m = n then s.lastConversion n st x convert else convert s
          | none => convert s).finishGroup g)
        else (convert (s.noteSkip g start)).advance g n start
      s.checkConverter g fails
def execConversionEnd (t : Nat) (group : Fin 128) (raw : BitVec 12) (checkFails pulse : Bool) (s : State) : Host.Outcome State Fault Refusal :=
  .next (conversionEnd group raw.toNat checkFails pulse (s.at_ t))

/-- REF_MONITOR_FAULT (R123): the converter's reference monitor has left its window for 1 µs or more. -/
def refMonitorFault (g : Nat) (s : State) : State :=
  if s.grpState g = grpScanning then (s.setBit (P.ADC_GRP_STATUS g) 2).faultGroup g else s
def execRefMonitorFault (t : Nat) (group : Fin 128) (s : State) : Host.Outcome State Fault Refusal := .next (refMonitorFault group (s.at_ t))

/-- WB_CONFIRMATION_END (R94, R95): 10 µs after the second hit the confirmation is judged, by the change of the pin voltage or in mode 5 by the samples. -/
def wbConfirmationEnd (n : Nat) (beyond : Bool) (s : State) : State := match (s.input n).confFrom with
  | none => s
  | some a =>
    if s.inState n ≠ inConfirming || s.now < a + 10000 then s
    else s.endConfirmation n (a + 10000) (if s.rdN (P.FE_IN_MODE n) = 5 then (s.input n).confLow else beyond)
def execWbConfirmationEnd (t : Nat) (input : Fin 512) (beyond : Bool) (s : State) : Host.Outcome State Fault Refusal :=
  .next (wbConfirmationEnd input beyond (s.at_ t))

/-- GROUP_S0_REACHED (R119): the first S0 of the grid in force. -/
def groupS0Reached (g : Nat) (s : State) : State :=
  let first := (s.group g).first
  if s.grpState g = grpAligning && first ≤ s.now then (s.wrN (P.ADC_GRP_STATE g) grpScanning).nextCycle g first else s
def execGroupS0Reached (t : Nat) (group : Fin 128) (s : State) : Host.Outcome State Fault Refusal := .next (groupS0Reached group (s.at_ t))

/-- STL_WORD_ISSUE (R124): a sampling instant of the grid in force of an input that is HELD or whose group is STOPPED or in FAULT. -/
def stlWordIssue (n : Nat) (s : State) : State :=
  let st := s.grpState (n / 4)
  let x := s.input n
  let idle := st == grpStopped || st == grpFault || s.inState n == inHeld
  if !idle || s.inState n = inOff || !s.onGrid n s.now || (bitOf x.word 2 && x.wordAt == s.now) then s
  else s.issueStl n s.now
def execStlWordIssue (t : Nat) (input : Fin 512) (s : State) : Host.Outcome State Fault Refusal := .next (stlWordIssue input (s.at_ t))

/-! ### Excitation (R81 to R83, R102) -/

/-- The inputs of a source's die whose FE_IN_EXC names it. -/
def State.namedBy (s : State) (k : Nat) : List Nat := (inputsOf (k / 16)).filter (fun n => s.rdN (P.FE_IN_EXC n) == k)

/-- The value of a pair (R83): half the difference of the means, rounded to 1/256 code, ties away from zero. -/
def pairValue (f r : Half) : Int := divAway (f.sum * r.count - r.sum * f.count) (2 * f.count * r.count)

/-- At the end of a reverse half an input outputs the value of its pair, whose instant is the reversal between the halves (R83; log 81). -/
def State.endPair (s : State) (h now n : Nat) : State :=
  let x := s.input n
  let index := now / h
  let s := s.setInput n { x with fwd := none, rev := none }
  match x.fwd, x.rev with
  | some f, some r =>
    if f.index + 2 ≠ index || r.index + 1 ≠ index || s.inState n = inHeld || s.inState n = inOff then s
    else
      let v : FiltVal := { v := pairValue f r, ovr := f.ovr || r.ovr, recov := f.recov || r.recov, near := f.near || r.near }
      (s.outputValue n (now - h) (now - h) v (2 * h) now s.time true).autoReset n
  | _, _ => s

/-- REVERSAL_INSTANT (R82, R83): a whole multiple of H; the source swaps its terminals.  A commit at the same boundary applies first (R101). -/
def reversalInstant (k : Nat) (s : State) : State :=
  let h := 500 * s.rdN (P.FE_EXC_REV_PERIOD k)
  if h = 0 || s.now % h ≠ 0 || s.commitDue then s
  else
    let odd := s.reversedAt k s.now
    let s := s.setSource k { s.source k with reversed := odd }
    if odd then s else (s.namedBy k).foldl (fun s n => s.endPair h s.now n) s
def execReversalInstant (t : Nat) (source : Fin 64) (s : State) : Host.Outcome State Fault Refusal := .next (reversalInstant source (s.at_ t))

/-- EXC_COMPLIANCE_CHANGE (R81): a source reaches compliance, or holds its current again. -/
def excComplianceChange (k : Nat) (reached : Bool) (s : State) : State :=
  let x := s.source k
  if reached then
    if s.rdN (P.FE_EXC_CURRENT k) = 0 || x.compliance.since.isSome then s
    else
      let s := s.setSource k { x with compliance := x.compliance.begin s.time false }
      let s := (s.setBit (P.FE_EXC_STATUS k) 1).setBit (P.FE_EXC_STATUS k) 0
      (s.namedBy k).foldl (fun s n => s.setBit (P.FE_IN_STATUS n) 7) s
  else (s.setSource k { x with compliance := x.compliance.end_ s.time }).clrBits (P.FE_EXC_STATUS k) 2
def execExcComplianceChange (t : Nat) (source : Fin 64) (reached : Bool) (s : State) : Host.Outcome State Fault Refusal :=
  .next (excComplianceChange source reached (s.at_ t))

/-- VW_SWEEP_START (R102): a sweep cycle starts, unless an input that names the source is BROKEN or HELD (R101; log 80). -/
def vwSweepStart (k : Nat) (s : State) : State :=
  let d := 1000000 * s.rdN (P.FE_VW_INTERVAL k)
  let ph := 1000 * s.rdN (P.FE_VW_PHASE k)
  let x := s.source k
  if d = 0 || s.now < ph || (s.now - ph) % d ≠ 0 || x.sweepAt = some s.now || s.commitDue then s
  else if s.calSteers k || (s.namedBy k).any (fun n => s.inState n == inBroken || s.inState n == inHeld) then s.setSource k { x with released := true }
  else
    let s := s.setSource k { x with sweepAt := some s.now, waitFrom := none, listenFrom := none }
    let s := (s.steer k).setBit (P.FE_EXC_STATUS k) 2
    (s.namedBy k).foldl (fun s n => if s.inState n = inOff then s else s.setInput n { s.input n with sweep := some s.now }) s
def execVwSweepStart (t : Nat) (source : Fin 64) (s : State) : Host.Outcome State Fault Refusal := .next (vwSweepStart source (s.at_ t))

/-- VW_SWEEP_END (R102, R86): the terminals are released, and a SET window opens. -/
def vwSweepEnd (k : Nat) (s : State) : State :=
  let x := s.source k
  match x.sweepAt with
  | none => s
  | some a =>
    let e := a + 1000 * s.rdN (P.FE_VW_SWEEP k)
    if s.now < e then s
    else
      let s := s.setSource k { x with sweepAt := none, waitFrom := some e, released := true }
      let s := s.clrBits (P.FE_EXC_STATUS k) 4
      (s.namedBy k).foldl (fun s n => let s := s.setEvent n e; s.setInput n { s.input n with sweep := none }) s
def execVwSweepEnd (t : Nat) (source : Fin 64) (s : State) : Host.Outcome State Fault Refusal := .next (vwSweepEnd source (s.at_ t))

/-- VW_LISTEN_START (R102): FE_VW_WAIT after the sweep the comparators are enabled. -/
def vwListenStart (k : Nat) (s : State) : State :=
  let x := s.source k
  match x.waitFrom with
  | none => s
  | some a =>
    let e := a + 1000 * s.rdN (P.FE_VW_WAIT k)
    if s.now < e then s
    else
      let s := s.setSource k { x with waitFrom := none, listenFrom := some e }
      (s.namedBy k).foldl (fun s n => s.refreshCmp n 1) s
def execVwListenStart (t : Nat) (source : Fin 64) (s : State) : Host.Outcome State Fault Refusal := .next (vwListenStart source (s.at_ t))

/-- VW_LISTEN_END (R102, R148): FE_VW_LISTEN later they are gated off, and open interval sets close. -/
def vwListenEnd (k : Nat) (s : State) : State :=
  let x := s.source k
  match x.listenFrom with
  | none => s
  | some a =>
    if s.now < a + 1000 * s.rdN (P.FE_VW_LISTEN k) then s
    else
      let s := s.setSource k { x with listenFrom := none }
      (s.namedBy k).foldl (fun s n => s.refreshCmp n 1) s
def execVwListenEnd (t : Nat) (source : Fin 64) (s : State) : Host.Outcome State Fault Refusal := .next (vwListenEnd source (s.at_ t))

/-! ### Charge reset, clamps and VAN (R73, R75, R76, R92) -/

/-- QRESET_CLOSE (R75, R76): the reset switch of a charge amplifier closes at the boundary due in AUTO, or at a whole multiple of FE_QRST_PERIOD. -/
def qresetClose (n : Nat) (s : State) : State :=
  let x := s.input n
  let mode := s.rdN (P.FE_QRST_MODE n)
  let due : Option Nat :=
    if s.rdN (P.FE_IN_MODE n) ≠ 2 || x.closed.isSome then none
    else if mode = 0 then x.resetDue.filter (fun b => decide (b ≤ s.now))
    else if mode = 1 && s.now % (1000 * s.rdN (P.FE_QRST_PERIOD n)) = 0 then some s.now
    else none
  match due with
  | none => s
  | some b =>
    (s.setInput n { x with closed := some b, resetDue := none, samples := (b, b + 400) :: x.samples.filter (fun w => decide (b < w.2 + 4000)) }).setBit (P.FE_IN_STATUS n) 6
def execQresetClose (t : Nat) (input : Fin 512) (s : State) : Host.Outcome State Fault Refusal := .next (qresetClose input (s.at_ t))

/-- QRESET_OPEN (R76): 100 ns later the switch opens. -/
def qresetOpen (n : Nat) (s : State) : State :=
  let x := s.input n
  match x.closed with
  | none => s
  | some b => if s.now < b + 100 then s else s.setInput n { x with closed := none }
def execQresetOpen (t : Nat) (input : Fin 512) (s : State) : Host.Outcome State Fault Refusal := .next (qresetOpen input (s.at_ t))

/-- CLAMP_ACTIVATE (R92): the clamp detector of pin P (0) or N (1) of an input becomes active, the overdrive positive or negative. -/
def clampActivate (n pin : Nat) (positive : Bool) (s : State) : State :=
  let x := s.input n
  let c := x.clamps.get pin
  if c.since.isSome then s
  else ((s.setInput n { x with clamps := x.clamps.set pin (c.begin s.time positive) }).setBit (P.FE_IN_STATUS n) 2).addSat (P.FE_CLAMP_COUNT n) 1
def execClampActivate (t : Nat) (detector : Detector) (positive : Bool) (s : State) : Host.Outcome State Fault Refusal :=
  .next (clampActivate detector.input detector.pin positive (s.at_ t))

/-- CLAMP_RELEASE (R92): the detector releases; conversions that start less than 2 µs later carry SET. -/
def clampRelease (n pin : Nat) (s : State) : State :=
  let x := s.input n
  let c := x.clamps.get pin
  if c.since.isNone then s
  else s.setInput n { x with clamps := x.clamps.set pin (c.end_ s.time), starts := addWindow (s.now, s.now + 2000, false) x.starts }
def execClampRelease (t : Nat) (detector : Detector) (s : State) : Host.Outcome State Fault Refusal :=
  .next (clampRelease detector.input detector.pin (s.at_ t))

/-- VAN_LOW_ONSET (R73): VAN of a die falls below 4.45 V while an input of the die is on range 4. -/
def vanLowOnset (fe : Nat) (s : State) : State :=
  let x : Spell := Sparse.get {} s.fe.vanLow fe
  let on4 := (inputsOf fe).filter s.onRange4
  if x.since.isSome || on4.isEmpty then s
  else
    let s := { s with fe := { s.fe with vanLow := Sparse.set {} s.fe.vanLow fe (x.begin s.time false) } }
    on4.foldl (fun s n => s.setBit (P.FE_IN_STATUS n) 10) s
def execVanLowOnset (t : Nat) (fe : Fin 4) (s : State) : Host.Outcome State Fault Refusal := .next (vanLowOnset fe (s.at_ t))

/-- VAN_LOW_END (R73): VAN has stayed at 4.5 V or above for 1 ms. -/
def vanLowEnd (fe : Nat) (s : State) : State :=
  let x : Spell := Sparse.get {} s.fe.vanLow fe
  { s with fe := { s.fe with vanLow := Sparse.set {} s.fe.vanLow fe (x.end_ s.time) } }
def execVanLowEnd (t : Nat) (fe : Fin 4) (s : State) : Host.Outcome State Fault Refusal := .next (vanLowEnd fe (s.at_ t))

end Sys2Proof.Machine
end

