-- ==== Sys2Proof/Machine/LineRx.lean ====
section
/-! DEFINITION. Receiving a codeword (R315 to R317): levels to symbols, RS(544,514) decoding, and the descrambled blocks; a block that an uncorrectable
codeword held is an error block. -/

namespace Sys2Proof.Machine

/-! ### RS(544,514) decoding (R316; log 40) -/

def gfPower (a : Nat) : Nat → Nat
  | 0 => 1
  | k + 1 => gfMul a (gfPower a k)
/-- The inverse: a^1022, by squares (1022 = 1111111110 in binary). -/
def gfInv (a : Nat) : Nat := ((List.range 9).foldl (fun (r : Nat × Nat) _ => let q := gfMul r.2 r.2; (gfMul r.1 q, q)) (1, a)).1

/-- A polynomial, its constant term first, at a point; and a word, its highest power first. -/
def polyAt (p : List Nat) (x : Nat) : Nat := p.foldr (fun c r => c ^^^ gfMul r x) 0
def wordAt (w : List Nat) (x : Nat) : Nat := w.foldl (fun r c => c ^^^ gfMul r x) 0

/-- The 30 syndromes of a received word. -/
def syndromes (w : List Nat) : List Nat := (List.range 30).map (fun j => wordAt w (gfPow2 j))

def polyAdd : List Nat → List Nat → List Nat
  | [], q => q
  | p, [] => p
  | a :: p, b :: q => (a ^^^ b) :: polyAdd p q
def polyScale (k : Nat) (p : List Nat) : List Nat := p.map (gfMul k)

/-- The state of the search for the error locator (Berlekamp and Massey): the locator, the one before its last lengthening, its length, the steps since,
and the discrepancy then. -/
structure Locator where
  c : List Nat
  b : List Nat
  len : Nat
  gap : Nat
  disc : Nat
  deriving DecidableEq, Repr

def Locator.step (syn : List Nat) (x : Locator) (n : Nat) : Locator :=
  let d := ((List.range (x.len + 1)).map (fun i => gfMul (x.c.getD i 0) (if i ≤ n then syn.getD (n - i) 0 else 0))).foldl (· ^^^ ·) 0
  let c := polyAdd x.c (List.replicate x.gap 0 ++ polyScale (gfMul d (gfInv x.disc)) x.b)
  if d = 0 then { x with gap := x.gap + 1 }
  else if 2 * x.len ≤ n then { c, b := x.c, len := n + 1 - x.len, gap := 1, disc := d }
  else { x with c, gap := x.gap + 1 }
def locatorOf (syn : List Nat) : Locator := (List.range 30).foldl (Locator.step syn) { c := [1], b := [1], len := 0, gap := 1, disc := 1 }

/-- The value of the error at the place whose locator's inverse is `x` (Forney). -/
def errorAt (syn locator : List Nat) (x : Nat) : Nat :=
  let omega := (List.range 30).map (fun i => ((List.range (i + 1)).map (fun j => gfMul (locator.getD j 0) (syn.getD (i - j) 0))).foldl (· ^^^ ·) 0)
  let slope := polyAt ((locator.drop 1).mapIdx (fun i a => if i % 2 = 0 then a else 0)) x
  gfMul (gfInv x) (gfMul (polyAt omega x) (gfInv slope))

/-- A received word of 544 symbols decoded: the codeword within 15 symbols of it with the number of symbols corrected, none where there is none. -/
def rsDecode (w : List Nat) : Option (List Nat × Nat) :=
  let syn := syndromes w
  if syn.all (· == 0) then some (w, 0)
  else
    let l := locatorOf syn
    let inverse := fun (i : Nat) => gfPow2 ((1023 - (543 - i)) % 1023)
    let fixed := w.mapIdx (fun i c => if polyAt l.c (inverse i) = 0 then c ^^^ errorAt syn l.c (inverse i) else c)
    let n := (List.zip w fixed).countP (fun x => x.1 != x.2)
    if l.len ≤ 15 && n ≤ 15 && (syndromes fixed).all (· == 0) then some (fixed, n) else none

/-! ### Levels and blocks -/

/-- The bits of a level. -/
def levelBits : Nat → List Bool
  | 0 => [false, false]
  | 1 => [false, true]
  | 2 => [true, true]
  | _ => [true, false]

/-- The 5,440 bits of a received codeword. -/
def receivedBits (cw : RxCodeword) : List Bool :=
  let p := (cw.levels.take 2720).map (·.toNat)
  let p := p ++ List.replicate (2720 - p.length) 0
  (if cw.precoded then unprecodeFrom cw.before.toNat p else p).flatMap levelBits

/-- A block at the receiver; an error block is none. -/
abbrev RxBlock := Option LineBlock

/-- The blocks of the bits of a codeword's block part, descrambled, with the descrambler's state after them. -/
def blocksOf : Nat → Nat → List Bool → List LineBlock × Nat
  | 0, st, _ => ([], st)
  | k + 1, st, bs =>
    let r := descramble st ((bs.drop 2).take 64)
    let rest := blocksOf k r.2 (bs.drop 66)
    ({ sync := BitVec.ofNat 2 (ofLineBits (bs.take 2)), payload := BitVec.ofNat 64 (ofLineBits r.1) } :: rest.1, rest.2)

/-- What a lane's receiver makes of a codeword: symbols corrected and the control field, none where it is uncorrectable; its 77 blocks; and the
descrambler's state. -/
structure Decoded where
  good : Option (Nat × Nat)
  blocks : List RxBlock
  descrambler : Nat
  deriving DecidableEq, Repr

def decodeCodeword (cw : RxCodeword) (descrambler : Nat) : Decoded :=
  match rsDecode ((chunks 10 544 (receivedBits cw)).map ofLineBits) with
  | some (w, n) =>
    let bits := w.flatMap (lineBits 10)
    let r := blocksOf 77 descrambler ((bits.drop 58).take 5082)
    { good := some (n, ofLineBits (bits.take 58)), blocks := r.1.map some, descrambler := r.2 }
  | none => { good := none, blocks := List.replicate 77 none, descrambler := (blocksOf 77 descrambler (((receivedBits cw).drop 58).take 5082)).2 }

end Sys2Proof.Machine
end

