-- ==== Sys2Proof/Machine/TbCore.lean ====
section
/-! DEFINITION. The time base (chapter 6): domains and their choice, states, uncertainty, slews and refusals (R168 to R189). -/

namespace Sys2Proof.Machine

/-! ### States (Table 6-2) and units -/

def tbUnset : Nat := 0
def tbAcquiring : Nat := 1
def tbLocked : Nat := 2
def tbHoldover : Nat := 3
def tbRecovery : Nat := 4
def tbTest : Nat := 5

def State.tbState (s : State) : Nat := s.rdN P.TB_STATE
def State.setTb (s : State) (x : TbState) : State := { s with tb := x }

/-- Units of 1/8192 ps in a ps, in a ns, and in 1/4096 ns. -/
def psUnit : Int := 8192
def nsUnit : Int := 8192000
def fineUnit : Int := 2000

/-- The nearest multiple of a unit, ties away from zero, as a count (R186). -/
def roundTo (unit x : Int) : Int := if 0 ≤ x then (2 * x + unit) / (2 * unit) else -((2 * -x + unit) / (2 * unit))

/-- A two's complement word that saturates (R194, R195), and one whose most negative value stands for `unusable'. -/
def satWordInt (i : Int) : Word := BitVec.ofInt 32 (clampInt (-2147483648) 2147483647 i)
def satInt (i : Int) : Word := BitVec.ofInt 32 (clampInt (-2147483647) 2147483647 i)

/-! ### The role and the source (R172, R174) -/

/-- A portal with TB_SRC LOCAL or PPS follows its own source (R182). -/
def State.ownSource (s : State) : Bool := s.prt.portal && decide (s.rdN P.TB_SRC < 2)
def State.tied (s : State) : Bool := s.prt.portal && decide (2 ≤ s.rdN P.TB_SRC)

/-- The domain a portal injects: a west portal, whose ring link is port E, the West domain (R172; log 88). -/
def State.injected (s : State) (d : Nat) : Bool := s.prt.portal && (if s.rdN (P.LNK_PORT_EN 0) = 1 then d == 0 else d == 1)

/-- A valid PPSIN edge has come within 1.5 s (Table 6-4). -/
def State.ppsAlive (s : State) : Bool := match s.tb.ppsAt with
  | some t => decide (s.time < t + msec 1500)
  | none => false

/-- PPS is not yet lost: no valid edge for 1.5 s counts from the commit that chose it on (R172, Table 6-4; log 103). -/
def State.ppsHeld (s : State) : Bool := s.ppsAlive || decide (s.time < s.tb.selected + msec 1500)

/-! ### Domains (R178 to R182) -/

def State.domain (s : State) (d : Nat) : Domain := s.tb.domains.get d
def State.setDomain (s : State) (d : Nat) (x : Domain) : State := s.setTb { s.tb with domains := s.tb.domains.set d x }
/-- A domain arrives at the port that faces its portal, and leaves by the other: West arrives on port W, E being port 0. -/
def State.domainPort (s : State) (d : Nat) : TimePort := s.tb.ports.get (1 - d)
def State.setTimePort (s : State) (p : Nat) (x : TimePort) : State := s.setTb { s.tb with ports := s.tb.ports.set p x }

/-- R175: a tied portal does not use a domain of a tied portal. -/
def State.excluded (s : State) (d : Nat) : Bool := s.tied && decide (2 ≤ (s.domain d).kind)

/-- A domain is usable (R180). -/
def State.usable (s : State) (d : Nat) : Bool :=
  let x := s.domain d
  x.avail && decide (s.time < x.heard + usec (s.rdN P.TB_LOSS_TIME)) && x.offset.isSome && decide (x.hops + 1 ≤ 4093) && !s.excluded d
    && (match (s.domainPort d).delay with
        | some q => decide (0 < q) && decide (q ≤ 500000 * nsUnit)
        | none => false)

/-- One domain goes before another under AUTO (R182): quality, kind, hops; West at last. -/
def Domain.rank (x : Domain) : Nat := 8192 * (2 * x.quality + b2n (decide (2 ≤ x.kind))) + x.hops
def State.bestDomain (s : State) : Option Nat :=
  match s.usable 0, s.usable 1 with
  | true, true => some (if (s.domain 1).rank < (s.domain 0).rank then 1 else 0)
  | true, false => some 0
  | false, true => some 1
  | false, false => none

/-- The domain R182 chooses under TB_DOMAIN_PREF. -/
def State.chosen (s : State) : Option Nat :=
  let pref := s.rdN P.TB_DOMAIN_PREF
  if pref = 0 then s.bestDomain else if s.usable (pref - 1) then some (pref - 1) else if s.usable (2 - pref) then some (2 - pref) else none

/-- The followed domain, 0 West and 1 East (log 88). -/
def State.followedDomain (s : State) : Option Nat :=
  let f := s.rdN P.TB_FOLLOWED
  if f = 1 then some 0 else if f = 2 then some 1 else none

/-! ### Quality and uncertainty (R171, R189) -/

/-- The quality of the source in use and the uncertainty it carries (Table 6-3). -/
def State.sourceQuality (s : State) : Nat := match s.followedDomain with
  | some d => (s.domain d).quality
  | none => if s.tb.onPps then 1 else 0
def State.carried (s : State) : Nat := match s.followedDomain with
  | some d => (s.domain d).uncert
  | none => if s.tb.onPps then s.rdN P.TB_PPS_UNC else 0

def State.jumpPending (s : State) : Bool := s.bit P.TB_STATUS 5

/-- Lock is reported (R171). -/
def State.lockReported (s : State) : Bool := s.tbState == tbLocked && s.sourceQuality == 0 && !s.jumpPending

/-- u(τ) of R189 in ns, rounded up (log 36): F, K and A of Table 6-8 in 10^-6 ppb. -/
def State.holdoverUncert (s : State) : Nat :=
  let learnt := s.rdN P.TB_MODEL_STATE = 2
  let tau := s.time - s.tb.origin
  let rate := (if learnt then 3000000 else 50000000) + (if learnt then 500 else 10000) * s.tb.tempMax
  let age := if learnt then 10 else 100
  let unit := 4096000000000
  s.tb.u0 + ceilDiv (2 * unit * rate * tau + age * tau * tau) (2 * unit * unit * 1000000)

/-- TB_UNCERT (Table 6-3) (log 36). -/
def State.tbUncert (s : State) : Nat :=
  let st := s.tbState
  let u := if st = tbUnset then 0xFFFFFFFF
    else if s.jumpPending || st = tbHoldover || st = tbRecovery || st = tbTest then s.holdoverUncert
    else if st = tbAcquiring then s.carried + ceilDiv s.tb.phase.natAbs 8192000 + s.rdN P.TB_LOCK_WINDOW
    else if s.sourceQuality = 0 then 0 else s.carried
  min u 0xFFFFFFFF

/-- TB_QUALITY (Table 6-3). -/
def State.tbQuality (s : State) : Nat :=
  let st := s.tbState
  if st = tbUnset then 3 else if st = tbLocked && !s.jumpPending then s.sourceQuality else 2

/-! ### Slews (R168) -/

/-- The frequency offset a slew adds, in 10^-12: TB_SLEW_MAX, or what the steering leaves of it within ±50 ppm. -/
def TbState.slewOffset (x : TbState) : Nat :=
  let rate : Int := 1000 * x.slewRate
  (if 0 ≤ x.slew then min rate (50000000 - x.steer) else min rate (50000000 + x.steer)).toNat

/-- What a slew has removed, and the correction not yet slewed, in 1/8192 ps. -/
def State.slewed (s : State) : Nat := s.tb.slewDone + (s.time - s.tb.slewFrom) * 2000 * s.tb.slewOffset / 1000000000000
def State.slewLeft (s : State) : Int :=
  let x := s.tb
  if 0 ≤ x.slew then max 0 (x.slew - s.slewed) else min 0 (x.slew + s.slewed)

/-- TB_FREQ_ADJ follows the loop or the model and the slew, within ±50 ppm (R167, R168). -/
def State.writeFreq (s : State) : State :=
  let slew : Int := if s.tb.slew = 0 then 0 else if 0 < s.tb.slew then s.tb.slewOffset else -(s.tb.slewOffset : Int)
  s.wrI P.TB_FREQ_ADJ (clampInt (-50000000) 50000000 (s.tb.steer + slew))

/-- A correction is slewed from now on; 0 ends a slew. -/
def State.slewBy (s : State) (c : Int) : State :=
  let s := s.setTb { s.tb with slew := c, slewFrom := s.time, slewDone := 0, slewRate := s.rdN P.TB_SLEW_MAX }
  (s.putBit P.TB_STATUS 6 (c != 0)).writeFreq

/-- Another steering of the loop or the model, in 10^-12; a slew that runs goes on with what it leaves of ±50 ppm. -/
def State.setSteer (s : State) (f : Int) : State :=
  (s.setTb { s.tb with steer := clampInt (-50000000) 50000000 f, slewDone := s.slewed, slewFrom := s.time }).writeFreq

/-- The steering the loop gives is left open (log 37). -/
def State.newSteer (s : State) : State :=
  let (w, s) := s.takeFree
  s.setSteer w.toInt

/-- The frequency error the ageing model predicts, in 10^-12: f = a0 + a1·age + b1·ΔT + b2·ΔT² + b3·ΔT³ with the age in s since the fit, ΔT in 0.001 °C, and
coefficients in 2^-16 of 10^-12 (R169; log 37). -/
def State.predicted (s : State) : Int :=
  let c := fun (i : Nat) => (s.tb.model.coef.getD i 0).toInt
  let age : Int := ((s.time - s.tb.fitted) / secs 1 : Nat)
  let dT := s.tb.temp - 25000
  roundTo (65536 * 1000000000) (1000000000 * (c 0 + c 1 * age) + 1000000 * c 2 * dT + 1000 * c 3 * dT * dT + c 4 * dT * dT * dT)

/-- The model sets the steering from the present temperature and age, against the error it predicts (R169); a model without a fit leaves it open (log 37). -/
def State.modelSteer (s : State) : State := if s.tb.model.coef.isEmpty then s.newSteer else s.setSteer (-s.predicted)

/-- The time base runs on the model (R169, R185). -/
def State.onModel (s : State) : Bool :=
  let st := s.tbState
  st == tbHoldover || st == tbRecovery || st == tbTest || (s.bit P.TB_STATUS 5 && st != tbUnset)

/-! ### Measurements -/

/-- A measured correction: kept for the average of 1 ms, and judged against TB_LOCK_WINDOW.  What a slew that runs is still to remove of it is no error
that moves a LOCKED node (R183). -/
def State.setPhase (s : State) (c : Int) : State :=
  let x := s.tb
  let window := s.rdN P.TB_LOCK_WINDOW * 8192000
  let within := decide (c.natAbs ≤ window)
  let held := within || decide ((c - s.slewLeft).natAbs ≤ window)
  s.setTb { x with phase := c, recent := (s.time, c) :: x.recent.filter (fun m => decide (s.time < m.1 + msec 1))
                   inSince := if within then some (x.inSince.getD s.time) else none
                   outSince := if held then none else some (x.outSince.getD s.time) }

/-- The correction averaged over 1 ms; the latest one when none is younger (R185, log 38). -/
def State.averaged (s : State) : Int :=
  let m := s.tb.recent.filter (fun m => decide (s.time < m.1 + msec 1))
  if m.isEmpty then s.tb.phase else (m.map (·.2)).sum / m.length

/-! ### Readings that follow the state -/

/-- A deferred commit gets its instant when lock is reported again (R60). -/
def State.lockReturned (s : State) : State := match s.cmd.commit with
  | some c =>
    if c.deferred && c.applyAt.isNone then
      { s with cmd := { s.cmd with commit := some { c with applyAt := some (boundaryFrom (ceilDiv s.time 4096 + s.rdN P.SYS_EPOCH_LEAD)) } } }
    else s
  | none => s

/-- TB_STATUS[0], LOCK_LOST and the history of lock follow the state (R171, R238). -/
def State.noteLock (s : State) : State :=
  let lock := s.lockReported
  let was := s.bit P.TB_STATUS 0
  if lock == was then s
  else
    let s := { s.putBit P.TB_STATUS 0 lock with recs := { s.recs with locks := (s.now, lock) :: s.recs.locks } }
    if lock then s.lockReturned else s.setBit P.TB_STATUS 1

/-- TB_OFFSET and TB_HOPS of a domain (R178, R180). -/
def State.noteDomain (s : State) (d : Nat) : State :=
  let x := s.domain d
  let s := if x.avail && s.excluded d then s.setBit P.TB_STATUS 9 else s
  if s.usable d then (s.wr (P.TB_OFFSET d) (satInt (roundTo psUnit (x.offset.getD 0)))).wrN (P.TB_HOPS d) (x.hops + 1)
  else (s.wrN (P.TB_OFFSET d) 0x80000000).wrN (P.TB_HOPS d) 0xFFFF

def State.tbNote (s : State) : State :=
  let s := (s.noteDomain 0).noteDomain 1
  (s.wrN P.TB_QUALITY s.tbQuality).noteLock

/-! ### Transitions (Tables 6-2 and 6-12, R183 to R185, R189) -/

/-- The estimate that starts now: u0 is the uncertainty reported just before, plus 1 ns, plus what is not yet slewed (R189; log 104). -/
def State.freshEstimate (s : State) (more : Int) : Estimate :=
  { origin := s.time, u0 := s.tbUncert + 1 + ceilDiv (s.slewLeft.natAbs + more.natAbs) 8192000, temp0 := s.tb.temp, tempMax := 0 }

/-- The holdover estimate starts at its origin (R189). -/
def State.startEstimate (s : State) (more : Int) : State :=
  let e := s.freshEstimate more
  s.setTb { s.tb with origin := e.origin, u0 := e.u0, temp0 := e.temp0, tempMax := e.tempMax }

/-- A state is entered: measurements start afresh. -/
def State.enterTb (s : State) (st : Nat) : State :=
  (s.setTb { s.tb with measured := s.time, recent := [], inSince := none, outSince := none }).wrN P.TB_STATE st

/-- HOLDOVER_ENTRY (R170, R184): the source is lost; a refusal and a slew end. -/
def State.enterHoldover (s : State) : State :=
  let s := (s.startEstimate 0).slewBy 0
  let s := s.clrBits P.TB_STATUS 32
  (((s.enterTb tbHoldover).setBit P.TB_STATUS 2).wrN P.TB_FOLLOWED 0).modelSteer

/-- RECOVERY is entered; from LOCKED the estimate starts here (R189). -/
def State.enterRecovery (s : State) (phase : Int) : State :=
  let s := if s.tbState = tbLocked then s.startEstimate phase else s
  ((s.setTb { s.tb with lost := none }).enterTb tbRecovery).modelSteer

/-- The source is lost (R184); in TEST the estimate of a HOLDOVER that follows has its origin here (R189). -/
def State.loseSource (s : State) : State :=
  let st := s.tbState
  if st = tbAcquiring || st = tbLocked || st = tbRecovery then s.enterHoldover
  else if st = tbTest then ((s.setTb { s.tb with lost := some (s.tb.lost.getD (s.freshEstimate 0)) }).clrBits P.TB_STATUS 32).wrN P.TB_FOLLOWED 0
  else s.wrN P.TB_FOLLOWED 0

/-- A source is available: HOLDOVER goes on to RECOVERY; UNSET gets its initial set, stepped at least 10 µs later (Table 6-2, R186). -/
def State.haveSource (s : State) (followed : Nat) : State :=
  let s := s.wrN P.TB_FOLLOWED followed
  if s.tbState = tbHoldover then s.enterRecovery 0
  else if s.tbState = tbUnset && followed ≠ 3 && s.tb.step.isNone then s.setTb { s.tb with step := some { instant := boundaryFrom (ceilDiv s.time 4096 + 10000), permit := none } }
  else if s.tbState = tbTest then s.setTb { s.tb with lost := none }
  else s

/-- A domain takes the place of the one followed while LOCKED (R183). -/
def State.switchDomain (s : State) (old : Option Nat) (d : Nat) : State :=
  let c := (s.domain d).offset.getD 0
  let oldUsable := match old with
    | some e => s.usable e
    | none => false
  if c.natAbs ≤ s.rdN P.TB_JUMP_LIMIT * 8192000 then
    (((s.wrN P.TB_FOLLOWED (d + 1)).slewBy c).setPhase c).setBit P.TB_STATUS 7
  else if oldUsable then s
  else (((s.enterHoldover).wrN P.TB_FOLLOWED (d + 1)).enterRecovery 0).setPhase c

/-- The node follows the domain R182 chooses (R182 to R184); a TIE_PPS portal falls back on PPSIN (R174). -/
def State.followDomain (s : State) : State :=
  let old := s.followedDomain
  match s.chosen with
  | some d =>
    let s := s.setTb { s.tb with onPps := false }
    if old = some d then (if s.tbState = tbHoldover || s.tbState = tbUnset then s.haveSource (d + 1) else s)
    else if s.tbState = tbLocked then s.switchDomain old d
    else (s.haveSource (d + 1)).setPhase ((s.domain d).offset.getD 0)
  | none =>
    let st := s.tbState
    if s.tb.onPps then (if s.ppsAlive then s else (s.setTb { s.tb with onPps := false }).loseSource)
    else if s.tied && s.rdN P.TB_SRC = 3 && st ≠ tbUnset && 100 ≤ s.tb.tie.length && s.ppsAlive then
      (s.setTb { s.tb with onPps := true }).haveSource 3
    else if old.isNone && (st = tbUnset || st = tbHoldover || st = tbTest) then s
    else s.loseSource

/-- LOCAL shows no phase error but one that a step has left to be slewed. -/
def State.localPhase (s : State) : State := if s.tb.slew = 0 && s.tb.inSince.isNone then s.setPhase 0 else s

/-- A portal's own source (R172): LOCAL is lost never, once set; PPS without a valid edge for 1.5 s, which shows in TB_STATUS (log 103). -/
def State.followOwn (s : State) : State :=
  let s := s.setTb { s.tb with onPps := false }
  let st := s.tbState
  if st = tbUnset then s.wrN P.TB_FOLLOWED 3
  else if s.rdN P.TB_SRC = 0 then (s.haveSource 3).localPhase
  else if s.ppsAlive then s.haveSource 3
  else if st = tbHoldover || s.ppsHeld then s.wrN P.TB_FOLLOWED 3
  else
    let s := if st = tbTest then s else s.setBit P.TB_STATUS 8
    s.loseSource.wrN P.TB_FOLLOWED 3

/-- The time base takes up whatever has changed. -/
def State.tbUpdate (s : State) : State := (if s.ownSource then s.followOwn else s.followDomain).tbNote

/-- The test of R170 begins or ends. -/
def State.beginTest (s : State) : State :=
  let st := s.tbState
  let s := s.setTb { s.tb with testing := true }
  if st = tbLocked || st = tbHoldover || st = tbRecovery then
    let s := if st = tbLocked then s.startEstimate 0 else s
    ((s.slewBy 0).enterTb tbTest).modelSteer.tbNote
  else s
def State.endTest (s : State) : State :=
  let s := s.setTb { s.tb with testing := false }
  if s.tbState ≠ tbTest then s
  else
    let source := if s.ownSource then s.rdN P.TB_SRC = 0 || s.ppsAlive else s.chosen.isSome || s.tb.onPps
    let e := s.tb.lost.getD { origin := s.tb.origin, u0 := s.tb.u0, temp0 := s.tb.temp0, tempMax := s.tb.tempMax }
    let held := s.setTb { s.tb with lost := none, origin := e.origin, u0 := e.u0, temp0 := e.temp0, tempMax := e.tempMax }
    (if source then s.enterRecovery 0 else (held.enterTb tbHoldover).setBit P.TB_STATUS 2).tbUpdate

/-- A commit changes TB_SRC of a portal (R172) (log 103). -/
def State.sourceChanged (s : State) : State :=
  let s := s.setTb { s.tb with onPps := false, recent := [], phase := 0, inSince := none, outSince := none, selected := s.time }
  let s := if s.tbState = tbLocked then s.enterRecovery 0 else s
  let s := if s.ownSource then s.wrN P.TB_FOLLOWED 3 else if s.rdN P.TB_FOLLOWED = 3 then s.wrN P.TB_FOLLOWED 0 else s
  s.tbUpdate

/-- The crystal temperature is read (R189); the model follows it (R169). -/
def State.noteCrystal (s : State) (milliC : Int) : State :=
  let lost := s.tb.lost.map (fun e => { e with tempMax := max e.tempMax (milliC - e.temp0).natAbs })
  let s := s.setTb { s.tb with temp := milliC, tempMax := max s.tb.tempMax (milliC - s.tb.temp0).natAbs, lost }
  if s.onModel && !s.tb.model.coef.isEmpty then s.setSteer (-s.predicted) else s

end Sys2Proof.Machine
end

