-- ==== Sys2Proof/Machine/Lnk.lean ====
section
/-! DEFINITION. Meanings of the lane rows (chapter 10): bring-up, LMASK, faults, training, freeze and eye checks, modules, and the LNK commands. -/

namespace Sys2Proof.Machine

/-! ### Lanes and ports -/

def laneFallow : Nat := 0
def laneWaking : Nat := 1
def laneSearch : Nat := 2
def laneAligned : Nat := 3
def laneNegotiate : Nat := 4
def laneTrain : Nat := 5
def laneHold : Nat := 6
def laneActive : Nat := 7
def laneFault : Nat := 8

def portFallow : Nat := 0
def portBringup : Nat := 1
def portActive_ : Nat := 2
def portDown : Nat := 3
def portLoop : Nat := 4
def portHost : Nat := 5

def State.laneState (s : State) (l : Nat) : Nat := s.rdN (P.LNK_LANE_STATE l)
def lanesOf (p : Nat) : List Nat := [4 * p, 4 * p + 1, 4 * p + 2, 4 * p + 3]
def State.enabledLanes (s : State) (p : Nat) : List Nat := (lanesOf p).filter (fun l => s.rdN (P.LNK_LANE_EN l) == 1)
def State.lnkPortState (s : State) (p : Nat) : Nat := s.rdN (P.LNK_PORT_STATE p)
/-- A port is enabled: E and W by LNK_PORT_EN; port H serves no ring (R312). -/
def State.portEnabled (s : State) (p : Nat) : Bool := p != 2 && s.rdN (P.LNK_PORT_EN p) == 1
/-- The mask of lanes within their port. -/
def laneMask (ls : List Nat) : Nat := (ls.map (fun l => 2 ^ (l % 4))).sum
def State.inMask (s : State) (l : Nat) : Bool := bitOf (s.lanePort (l / 4)).lmask (l % 4)

/-! ### Waiting commands (R338) -/

/-- The waits of a port that a test selects get their final reply. -/
def State.replyWaits (s : State) (p : Nat) (f : LaneWait → Bool) (status : Nat) : State :=
  let x := s.lanePort p
  let s := s.setLanePort p { x with waits := x.waits.filter (fun w => !f w) }
  (x.waits.filter f).foldl (fun s w => s.finish w.op w.h status []) s

/-- A wake is done when the port is ACTIVE, a retraining when its lanes are all ACTIVE again. -/
def State.checkWaits (s : State) (p : Nat) : State :=
  s.replyWaits p (fun w => if w.op = 0x73 then s.lnkPortState p == portActive_ else w.lanes.all (fun l => s.laneState l == laneActive)) stOk

/-! ### States (Table 10-6) -/

/-- An eye scan ends early when its lane leaves ALIGNED or later (R336). -/
def State.endScan (s : State) (l : Nat) : State := match (s.lane l).scan with
  | some e => (s.setLane l { s.lane l with scan := none, checking := false }).finish 0x71 e.h stTimeout []
  | none => s.setLane l { s.lane l with checking := false }

/-- A lane enters a state; its counts of the state start afresh. -/
def State.setLaneState (s : State) (l st : Nat) : State :=
  let s := s.wrN (P.LNK_LANE_STATE l) st
  let s := s.setLane l { s.lane l with entered := s.time, syncs := 0, absent := 0, clean := 0, bad := 0, alike := 0, done := false, best := 0xFFFFFFFF
                                       noGain := 0, rxCwc := if st ≤ laneSearch then none else (s.lane l).rxCwc
                                       windowFrom := s.time, symFrom := s.rdN (P.LNK_SYM_CORR l) }
  if st < laneAligned then s.endScan l else s

/-- A port changes state; a change of a portal's ring port signals vector 9 (Table 11-20). -/
def State.setPortState (s : State) (p st : Nat) : State :=
  let was := s.lnkPortState p
  let s := s.wrN (P.LNK_PORT_STATE p) st
  if s.prt.portal && p = lnkOf s.ringLink && was ≠ st then s.signal 9 else s

/-- BRINGUP while no lane is ACTIVE after a wake, ACTIVE while a lane is in LMASK, DOWN after the last has left (R330). -/
def State.notePort (s : State) (p : Nat) : State :=
  let x := s.lanePort p
  let st := s.lnkPortState p
  let n := popCount 4 x.lmask
  let s := s.wrN (P.LNK_PORT_WIDTH p) n
  if st = portLoop || st = portHost then s
  else if n ≠ 0 then s.setPortState p portActive_
  else if st = portActive_ then s.setPortState p portDown
  else if (lanesOf p).all (fun l => s.laneState l == laneFallow) then s.setPortState p portFallow
  else if st = portFallow then s.setPortState p portBringup
  else s

/-- LMASK of a port in force; TIME moves with its lowest lane and the exchange restarts (R176, R344). -/
def lowestLane (mask : Nat) : Option Nat := [0, 1, 2, 3].find? (fun i => bitOf mask i)
def State.putMask (s : State) (p mask : Nat) : State :=
  let x := s.lanePort p
  let was := s.lnkPortState p
  let x' := if mask = 0 then { x with stream := [], timeDue := [], arrived := [], buffer := [] } else x
  let s := (s.setLanePort p { x' with lmask := mask }).notePort p
  let s := if p < 2 && lowestLane mask ≠ lowestLane x.lmask then s.setTimePort p { s.tb.ports.get p with sent := [], got := none } else s
  if p < 2 && was ≠ portActive_ && s.lnkPortState p = portActive_ then s.endTurn (1 - p) else s

/-- The lanes used: the lowest-numbered ones, up to LNK_WIDTH_MAX (R323). -/
def State.widest (s : State) (p : Nat) (ls : List Nat) : Nat := laneMask (ls.take (s.rdN (P.LNK_WIDTH_MAX p)))

/-- An LMASK change is proposed for a CWC (R323). -/
def State.propose (s : State) (p mask ahead : Nat) (agreed : Bool) (joins : List Nat) (leaves : List Nat := []) : State :=
  let x := s.lanePort p
  s.setLanePort p { x with change := some { mask, switch := (x.cwc + ahead) % 65536, agreed, joins, leaves } }

/-- With no change to come, the lanes used are the lowest-numbered ACTIVE ones, up to LNK_WIDTH_MAX; else a change is proposed (R323). -/
def State.reconsider (s : State) (p : Nat) : State :=
  let x := s.lanePort p
  let want := s.widest p ((lanesOf p).filter (fun l => s.laneState l == laneActive))
  if x.change.isSome || x.lmask = 0 || want = x.lmask then s else s.propose p want 16 false []

/-- At first bring-up the lanes in HOLD join together once every enabled lane is in HOLD or FAULT (R330). -/
def State.firstJoin (s : State) (p : Nat) : State :=
  let es := s.enabledLanes p
  let st := s.lnkPortState p
  let held := es.filter (fun l => s.laneState l == laneHold)
  if (st = portBringup || st = portDown) && (s.lanePort p).change.isNone && !held.isEmpty
      && es.all (fun l => s.laneState l == laneHold || s.laneState l == laneFault) then
    s.propose p (s.widest p held) 16 false held
  else s

/-- LANE_DROP (R324): a lane leaves LMASK at once, and an LMASK without it is proposed for the next CWC. -/
def State.dropLane (s : State) (l : Nat) : State :=
  let p := l / 4
  let x := s.lanePort p
  let without := fun (m : Nat) => if bitOf m (l % 4) then m - 2 ^ (l % 4) else m
  let joins := match x.change with
    | some c => c.joins.filter (fun k => k != l)
    | none => []
  let leaves := match x.change with
    | some c => c.leaves.filter (fun k => k != l)
    | none => []
  let mask := match x.change with
    | some c => without c.mask
    | none => without x.lmask
  if !bitOf x.lmask (l % 4) then
    s.setLanePort p { x with change := x.change.map (fun c => { c with mask := without c.mask, joins, leaves }) }
  else
    let s := s.putMask p (without x.lmask)
    if without x.lmask = 0 then s.setLanePort p { s.lanePort p with change := none }
    else s.propose p mask 1 true joins leaves

/-- A lane enters FAULT with a status bit (R331). -/
def State.faultLane (s : State) (l bit : Nat) : State :=
  let st := s.laneState l
  let s := if bit = 10 then s else s.setBit (P.LNK_STATUS l) bit
  if st < laneSearch || st = laneFault then s
  else
    let s := if bit = 1 then s.addSat (P.LNK_LOCK_LOSS l) 1 else s
    let s := (s.setLaneState l laneFault).dropLane l
    (s.notePort (l / 4)).firstJoin (l / 4)

/-- A lane goes to FALLOW: transmitter idle, loops off (R337). -/
def State.fallowLane (s : State) (l : Nat) : State :=
  let s := (s.setLaneState l laneFallow).dropLane l
  let s := s.setLane l { s.lane l with frozen := none, checked := none, cwcLast := none, coef := (0, 0, 0), precode := false }
  (s.clrBits (P.LNK_STATUS l) 32).notePort (l / 4)

/-- MODRST_x is held asserted while the lanes of the port are in FALLOW from reset (R341). -/
def State.modRst (s : State) (p : Nat) : Bool := !(s.lanePort p).woken

/-- A lane wakes (R337). -/
def State.wakeLane (s : State) (l : Nat) : State :=
  if s.laneState l = laneFallow then
    ((s.setLanePort (l / 4) { s.lanePort (l / 4) with woken := true }).setLaneState l laneWaking).notePort (l / 4)
  else s
def State.wakePort (s : State) (p : Nat) : State :=
  let s := s.setLanePort p { s.lanePort p with fallow := false, lowPower := false }
  (s.enabledLanes p).foldl State.wakeLane s

/-- A port without a module present holds its lanes in FAULT (R331). -/
def State.holdAbsent (s : State) (l : Nat) : State := if (s.lanePort (l / 4)).present then s else s.faultLane l 10

/-- A lane goes to SEARCH (LNK.RETRAIN, the retry after a fault, TST.LOOP OFF). -/
def State.searchLane (s : State) (l : Nat) : State :=
  let st := s.laneState l
  if st < laneSearch then s
  else (((s.setLaneState l laneSearch).dropLane l).notePort (l / 4)).holdAbsent l

/-- What a commit that changes LNK_PORT_EN or LNK_LANE_EN does to a lane (Table 10-6, R337): one in LMASK leaves it 16 periods later and goes FALLOW then,
so that LMASK holds ACTIVE lanes alone (R323, Table 10-10; log 111). -/
def State.commitLane (old s : State) (l : Nat) : State :=
  let p := l / 4
  let on := fun (x : State) => x.portEnabled p && x.rdN (P.LNK_LANE_EN l) == 1
  if on old && !on s then
    if s.inMask l then
      let x := s.lanePort p
      let (m, joins, leaves) := match x.change with
        | some c => (c.mask, c.joins, c.leaves)
        | none => (x.lmask, [], [])
      s.propose p (if bitOf m (l % 4) then m - 2 ^ (l % 4) else m) 16 true joins (leaves ++ [l])
    else s.fallowLane l
  else if !on old && on s && !((s.lanePort p).fallow && old.portEnabled p) then s.wakeLane l
  else s
def State.commitLanes (s old : State) : State :=
  [0, 1].foldl State.firstJoin ([0, 1].foldl State.reconsider ((List.range 8).foldl (State.commitLane old) s))

/-! ### Commands (R338, R343) -/

/-- LNK_STATUS (R343). -/
def lnkStatusData (s : State) (p : Nat) : List Word :=
  BitVec.ofNat 32 (s.lnkPortState p + 16 * s.rdN (P.LNK_PORT_WIDTH p) + 256 * (s.lanePort p).lmask)
    :: (lanesOf p).map (fun l => BitVec.ofNat 32 (s.laneState l + 16 * (s.rdN (P.LNK_STATUS l) % 4096)))
    ++ (List.range 10).flatMap (fun i => (lanesOf p).map (fun l => s.rd (P.LNK_CW_CORR l + 65536 * i)))
def lnkStatusBody (p : List Word) (s : State) : State × Answer :=
  if p.length ≠ 1 || 4 ≤ word p 0 then refuse s stBadParam else if word p 0 = 3 then refuse s stRange else okay s (lnkStatusData s (word p 0))
def execLnkStatus (h : Hdr) (p : List Word) (s : State) : Host.Outcome State Fault Refusal := .next (s.receive 0x70 h p (lnkStatusBody p))

/-- LNK_FALLOW (R338, R344): every lane of the port goes to FALLOW; waits end with TIMEOUT. -/
def lnkFallowBody (p : List Word) (s : State) : State × Answer :=
  let port := word p 0 % 4
  if p.length ≠ 1 || 8 ≤ word p 0 then refuse s stBadParam
  else if port = 3 then refuse s stRange
  else if port = 2 && s.prt.portal then refuse s stLocked
  else
    let s := (lanesOf port).foldl State.fallowLane s
    let s := s.setLanePort port { s.lanePort port with fallow := true, change := none, lowPower := (s.lanePort port).lowPower || bitOf (word p 0) 2 }
    okay ((s.replyWaits port (fun _ => true) stTimeout).notePort port)
def execLnkFallow (h : Hdr) (p : List Word) (s : State) : Host.Outcome State Fault Refusal := .next (s.receive 0x72 h p (lnkFallowBody p))

/-- The bound of LNK.WAKE: 2 ms + LNK_TRAIN_TIMEOUT + 10 ms. -/
def State.wakeBound (s : State) : Nat := s.time + msec (12 + s.rdN P.LNK_TRAIN_TIMEOUT)

/-- LNK_WAKE (R338). -/
def lnkWakeBody (h : Hdr) (p : List Word) (s : State) : State × Answer :=
  let port := word p 0
  if p.length ≠ 1 || 4 ≤ port then refuse s stBadParam
  else if port = 3 then refuse s stRange
  else if !s.portEnabled port then refuse s stLocked
  else if s.lnkPortState port ≠ portFallow then okay s
  else
    let s := s.wakePort port
    (s.setLanePort port { s.lanePort port with waits := (s.lanePort port).waits ++ [{ h, op := 0x73, lanes := [], until_ := s.wakeBound }] }, .later none)
def execLnkWake (h : Hdr) (p : List Word) (s : State) : Host.Outcome State Fault Refusal := .next (s.receive 0x73 h p (lnkWakeBody h p))

/-- LNK_RETRAIN (R338). -/
def lnkRetrainBody (h : Hdr) (p : List Word) (s : State) : State × Answer :=
  let port := word p 0 % 4
  let named := bits (word p 0) 7 4
  if p.length ≠ 1 || 256 ≤ word p 0 || bits (word p 0) 3 2 ≠ 0 then refuse s stBadParam
  else if port = 3 then refuse s stRange
  else
    let ls := (lanesOf port).filter (fun l => named == 0 || bitOf named (l % 4))
    let s := ls.foldl State.searchLane s
    (s.setLanePort port { s.lanePort port with waits := (s.lanePort port).waits ++ [{ h, op := 0x74, lanes := ls, until_ := s.wakeBound }] }, .later none)
def execLnkRetrain (h : Hdr) (p : List Word) (s : State) : Host.Outcome State Fault Refusal := .next (s.receive 0x74 h p (lnkRetrainBody h p))

/-- LNK_WAKE_TIMEOUT (R338). -/
def execLnkWakeTimeout (t : Nat) (port : Fin 3) (s : State) : Host.Outcome State Fault Refusal :=
  let s := s.at_ t
  .next (s.replyWaits port (fun w => decide (w.until_ ≤ s.time)) stTimeout)

/-- LNK.EYESCAN (R336). -/
def lnkEyescanBody (h : Hdr) (p : List Word) (s : State) : State × Answer :=
  let l := word p 0 % 16
  let map := bitOf (word p 0) 6
  let dwell := bits (word p 0) 12 8
  if p.length ≠ 1 || 8192 ≤ word p 0 || bitOf (word p 0) 7 then refuse s stBadParam
  else if 12 ≤ l || bits (word p 0) 5 4 = 3 || (map && (dwell < 20 || 40 < dwell)) then refuse s stRange
  else if s.laneState l < laneAligned || (l / 4 = 2 && s.prt.portal) then refuse s stLocked
  else if (s.lane l).scan.isSome || (s.lane l).checking then refuse s stBusy
  else (s.setLane l { s.lane l with scan := some { h, map } }, .later none)
def execLnkEyescanHealth (h : Hdr) (p : List Word) (s : State) : Host.Outcome State Fault Refusal :=
  .next (s.receive 0x71 h p (lnkEyescanBody h (forceMode p 6 1 0)))
def execLnkEyescanMap (h : Hdr) (p : List Word) (s : State) : Host.Outcome State Fault Refusal :=
  .next (s.receive 0x71 h p (lnkEyescanBody h (forceMode p 6 1 1)))

/-- EYESCAN_DONE (R336): the openings found, or the 1,024 points of a map, four to a word. -/
def eyescanDone (l horizontal vertical : Nat) (points : List Byte) (s : State) : State := match (s.lane l).scan with
  | none => s
  | some e =>
    let s := (s.setLane l { s.lane l with scan := none }).wrN (P.LNK_EYE_LAST l) (horizontal + 256 * vertical)
    s.finish 0x71 e.h stOk (if e.map then wordsOf (padTo 1024 (points.take 1024)) else [BitVec.ofNat 32 (horizontal + 256 * vertical)])
def execEyescanDone (t : Nat) (lane : Fin 12) (horizontal vertical : Byte) (points : List Byte) (s : State) : Host.Outcome State Fault Refusal :=
  .next (eyescanDone lane horizontal.toNat vertical.toNat points (s.at_ t))

/-! ### Transmitting (R314 to R325) -/

/-- The STATUS word of a lane (Table 10-7) (log 41). -/
def State.lstate (s : State) (l : Nat) : Nat :=
  let st := s.laneState l
  if st = laneTrain && (s.lane l).done then laneHold else st
def State.statusWord (s : State) (l : Nat) : Nat :=
  let st := s.laneState l
  1048576 * s.lstate l + 524288 * b2n (st == laneFault || st == laneSearch) + 131072 * (l % 4) + 65536 * b2n (s.lane l).modLos

/-- An alarm word as 24 bits (Table 14-2). -/
def AlarmWord.bits24 (w : AlarmWord) : Nat := 4096 * w.origin + 512 * w.line + 256 * b2n w.raise + w.hopsLeft

/-- The alarm word of a period: own words first, then forwarded ones (R321, R448); a port with no lane in LMASK sends none, and they go on waiting. -/
def State.periodAlarm (s : State) (p cwc : Nat) : State :=
  let x := s.lanePort p
  if p = 2 || x.lmask = 0 || (x.alarm.map (·.1)) = some cwc then s
  else
    let q := 1 - p
    match s.alm.own.get q, s.alm.forward.get q with
    | w :: ws, _ => { s with alm := { s.alm with own := s.alm.own.set q ws } }.setLanePort p { x with alarm := some (cwc, w) }
    | [], w :: ws => { s with alm := { s.alm with forward := s.alm.forward.set q ws } }.setLanePort p { x with alarm := some (cwc, w) }
    | [], [] => s.setLanePort p { x with alarm := none }

/-- The slot of a lane in a period: ALARM, STATUS or EMPTY (R321). -/
def State.slotFor (s : State) (l cwc : Nat) : Nat :=
  let w := s.statusWord l
  match (s.lanePort (l / 4)).alarm with
  | some (c, a) =>
    if c = cwc && s.inMask l then slotWord 0x33 a.bits24
    else if w ≠ (s.lane l).statusSent || cwc % 8 = 0 then slotWord 0x55 w else slotWord 0x0F 0
  | none => if w ≠ (s.lane l).statusSent || cwc % 8 = 0 then slotWord 0x55 w else slotWord 0x0F 0

/-- The share of a lane in the blocks of a period, with the blocks since its last FILL. -/
structure Share where
  lane : Nat
  since : Nat
  blocks : List LineBlock
  deriving DecidableEq, Repr

/-- The next block of the stream for a lane: FILL at the latest after 2,047 others, and FILL when the stream is empty (R325). -/
def nextBlock (since : Nat) : List LineBlock → LineBlock × List LineBlock
  | [] => (fillBlock, [])
  | b :: bs => if 2047 ≤ since && b ≠ fillBlock then (fillBlock, b :: bs) else (b, bs)
def Share.take (y : Share) (b : LineBlock) : Share := { y with since := if b = fillBlock then 0 else y.since + 1, blocks := y.blocks ++ [b] }

/-- Blocks dealt one by one to the lanes in turn (R322): block j to position j / W of lane j mod W; the blocks of a TIME block that is due stand at the
first positions of the lane of the first block (R349). -/
def deal : Nat → Nat → List LineBlock → List Share → List LineBlock → List Share × List LineBlock
  | 0, _, _, ys, q => (ys, q)
  | _, _, _, [], q => ([], q)
  | k + 1, first, time, y :: ys, q => match (if y.lane = first then time else []) with
    | b :: bs => deal k first bs (ys ++ [y.take b]) q
    | [] => let r := nextBlock y.since q; deal k first time (ys ++ [y.take r.1]) r.2

/-- A new period of a port begins: the group of 77 W blocks is dealt to the W lanes in LMASK (R322). -/
def State.dealPeriod (s : State) (p cwc : Nat) : State :=
  let ls := (lanesOf p).filter s.inMask
  let x := s.lanePort p
  let r := deal (77 * ls.length) (ls.headD 0) x.timeDue (ls.map (fun l => { lane := l, since := (s.lane l).sinceFill, blocks := [] })) x.stream
  let s := s.setLanePort p { x with cwc, stream := r.2, timeDue := [] }
  r.1.foldl (fun s y => s.setLane y.lane { s.lane y.lane with sinceFill := y.since, carry := y.blocks }) s

/-- The coefficient request a lane in TRAIN sends (Table 10-3): which request is sent is left open; none while adaptation is frozen (R333). -/
def State.trainRequest (s : State) (l : Nat) : Nat × State :=
  if s.laneState l = laneTrain && !(s.lane l).done && (s.lane l).frozen.isNone then
    let (w, s) := s.takeFree
    (w.toNat % 64, s)
  else (0, s)

/-- LMASK_SWITCH (R323, R330): at the boundary of the period SWITCH, or of the first after it, the new LMASK is in force, lanes that join are ACTIVE and
lanes that leave go FALLOW; a proposal not yet answered is made again (log 111). -/
def lmaskSwitch (p : Nat) (s : State) : State := match (s.lanePort p).change with
  | none => s
  | some c =>
    let x := s.lanePort p
    if 32768 ≤ (x.cwc + 1 + 65536 - c.switch) % 65536 then s
    else if !c.agreed then s.setLanePort p { x with change := some { c with switch := (x.cwc + 16) % 65536 } }
    else
      let s := s.setLanePort p { x with change := none, force := (c.mask, c.switch), prev := x.force }
      let s := c.joins.foldl (fun s l => if s.laneState l = laneHold then s.setLaneState l laneActive else s) s
      let mask := laneMask ((lanesOf p).filter (fun l => bitOf c.mask (l % 4) && s.laneState l == laneActive))
      let s := c.leaves.foldl State.fallowLane (s.putMask p mask)
      ((s.notePort p).checkWaits p).reconsider p
def execLmaskSwitch (t : Nat) (port : Fin 3) (s : State) : Host.Outcome State Fault Refusal := .next (lmaskSwitch port (s.at_ t))

/-- The lane begins its port's next period, or one of the lanes has begun it: a change of LMASK that falls due comes first, then the alarm word of the
period is chosen and its blocks are dealt. -/
def State.beginPeriod (s : State) (l : Nat) : State :=
  let p := l / 4
  let x := s.lanePort p
  if (s.lane l).cwcLast = some x.cwc then
    let cwc := (x.cwc + 1) % 65536
    ((lmaskSwitch p s).dealPeriod p cwc).periodAlarm p cwc
  else s.periodAlarm p x.cwc

/-- CODEWORD_TRANSMIT (R314 to R325): a lane whose transmitter is on sends one codeword period. -/
def codewordTransmit (l : Nat) (s : State) : State :=
  let st := s.laneState l
  if st = laneFallow || (l / 4 = 2 && s.prt.portal) then s
  else
    let p := l / 4
    let s := s.beginPeriod l
    let port := s.lanePort p
    let cwc := port.cwc
    let (lmask, switch) := match port.change with
      | some c => (c.mask, c.switch)
      | none => (port.lmask, port.force.2)
    let (req, s) := s.trainRequest l
    let y := s.lane l
    let control := controlWord cwc (l % 4) lmask switch (s.rdN (P.LNK_PRECODE l) == 0) (s.lstate l) req
    let slot := s.slotFor l cwc
    let sent := y.carry ++ List.replicate (77 - y.carry.length) fillBlock
    let (bits, scrambler) := blocksBits y.scrambler sent
    let levels := periodLevels y.precode y.level control slot bits
    let status := if slot = slotWord 0x55 (s.statusWord l) then s.statusWord l else y.statusSent
    s.setLane l { y with cwcLast := some cwc, carry := [], scrambler, level := levels.getLast?.getD 0, statusSent := status
                         sinceFill := if y.carry.isEmpty then 0 else y.sinceFill
                         sent := some { cwc, control, slot, levels } }
def execCodewordTransmit (t : Nat) (port : Fin 3) (lane : Fin 4) (s : State) : Host.Outcome State Fault Refusal :=
  .next (codewordTransmit (4 * port + lane) (s.at_ t))

/-! ### Receiving (R316 to R330) -/

/-- A TRAIN_REQ from the far end moves the coefficients of this transmitter (Table 10-3). -/
def trainStep (c : Int) (r : Nat) : Int := match r with
  | 1 => c + 1
  | 2 => c - 1
  | 3 => 0
  | _ => c
def Lane.takeRequest (x : Lane) (r : Nat) : Lane :=
  { x with coef := (trainStep x.coef.1 (bits r 5 4), trainStep x.coef.2.1 (bits r 3 2), trainStep x.coef.2.2 (bits r 1 0)) }

/-- Training is done at both ends: HOLD (R328, R329; an end that is done shows LSTATE HOLD, log 41). -/
def State.trainEnds (s : State) (l : Nat) : State :=
  if s.laneState l = laneTrain && (s.lane l).done && (s.lane l).far ≥ laneHold && (s.lane l).far ≤ laneActive then
    (s.setLaneState l laneHold).firstJoin (l / 4)
  else s

/-- The far end's LMASK and SWITCH are taken up: as the answer to this end's proposal, or as a proposal, which this end answers with the same LMASK and
SWITCH when it can use all its lanes, whether SWITCH is to come or, for a lane the far end has dropped, has passed (R323, R324).  What the far end says
of the change in force, or of the one before it, proposes nothing; of two proposals that cross the later holds (log 111). -/
def State.takeMask (s : State) (p mask switch : Nat) : State :=
  let x := s.lanePort p
  let lanes := (lanesOf p).filter (fun l => bitOf mask (l % 4))
  let usable := lanes.all (fun l => s.laneState l == laneHold || s.laneState l == laneActive)
  let taken : MaskChange := { mask, switch, agreed := true, joins := lanes.filter (fun l => s.laneState l == laneHold) }
  let stale := (mask, switch) = x.force || (mask, switch) = x.prev || mask = 0
  match x.change with
  | some c =>
    if c.mask = mask && c.switch = switch then s.setLanePort p { x with change := some { c with agreed := true } }
    else if !stale && usable && (switch + 65536 - c.switch) % 65536 < 32768 then s.setLanePort p { x with change := some { taken with leaves := c.leaves } }
    else s
  | none => if !stale && usable && mask ≠ x.lmask then s.setLanePort p { x with change := some taken } else s

/-- A control field of a good codeword (R318, R328). -/
def State.takeControl (s : State) (l control : Nat) : State :=
  let far := bits control 42 39
  let later := laneAligned ≤ far && far ≤ laneActive
  let x := s.lane l
  let s := s.setLane l { (x.takeRequest (bits control 48 43)) with far, alike := if later then x.alike + 1 else 0 }
  let st := s.laneState l
  let s := if st = laneAligned && 8 ≤ (s.lane l).alike then s.setLaneState l laneNegotiate
    else if st = laneNegotiate then
      let s := s.setLane l { s.lane l with precode := bitOf control 38 }
      if laneNegotiate ≤ far && far ≤ laneActive then s.setLaneState l laneTrain else s
    else s.trainEnds l
  let s := s.setLane l { s.lane l with far }
  s.takeMask (l / 4) (bits control 21 18) (bits control 37 22)

/-- The receive elastic buffer as a group of blocks comes in (R326): what it holds, what it has passed on, whether a deletion is due, the insertions and
deletions so far, and whether it has over- or underflowed. -/
structure Elastic where
  buffer : List RxBlock
  heard : List RxBlock
  due : Bool
  ins : Nat := 0
  del : Nat := 0
  fault : Bool := false
  deriving DecidableEq, Repr

/-- One block comes in and the local clock draws some: above 14 blocks per lane the next FILL block is deleted, below 10 one is inserted.  The buffer
adds at most 20.48 ns to a block's passage, 16 blocks per lane (log 112). -/
def Elastic.step (width : Nat) (x : Elastic) (b : RxBlock) (drawn : Nat) : Elastic :=
  let due := x.due || decide (14 * width < x.buffer.length)
  let x := if due && b = some fillBlock then { x with due := false, del := x.del + 1 } else { x with due, buffer := x.buffer ++ [b] }
  let x := if x.buffer.length < 10 * width then { x with buffer := x.buffer ++ [some fillBlock], ins := x.ins + 1 } else x
  { x with buffer := x.buffer.drop drawn, heard := x.heard ++ x.buffer.take drawn
           fault := x.fault || decide (x.buffer.length < drawn) || decide (16 * width < x.buffer.length - drawn) }

/-- A group of blocks, the blocks drawn being spread evenly over it. -/
def Elastic.steps (width n drawn : Nat) (x : Elastic) (bs : List RxBlock) : Elastic :=
  (bs.zipIdx).foldl (fun x b => x.step width b.1 (drawn * (b.2 + 1) / n - drawn * b.2 / n)) x

/-- A group of the port's stream goes through the elastic buffer, counted on the lowest lane; a buffer that over- or underflows faults the lanes of the
port (R326, R327; log 112). -/
def State.elastic (s : State) (p drawn : Nat) (bs : List RxBlock) : State :=
  let x := s.lanePort p
  match lowestLane x.lmask with
  | none => s
  | some i =>
    let e := Elastic.steps (popCount 4 x.lmask) bs.length drawn { buffer := x.buffer, heard := [], due := x.deleteDue } bs
    let s := s.setLanePort p { x with buffer := e.buffer, heard := e.heard, deleteDue := e.due }
    let s := (s.addWrap (P.LNK_FILL_INS (4 * p + i)) e.ins).addWrap (P.LNK_FILL_DEL (4 * p + i)) e.del
    if e.fault then ((lanesOf p).filter s.inMask).foldl (fun s l => s.faultLane l 8) s else s

/-- The lanes' blocks of a period back in the order of the stream (R322). -/
def reassemble : Nat → List (List RxBlock) → List RxBlock
  | 0, _ => []
  | k + 1, ls => ls.filterMap List.head? ++ reassemble k (ls.map (List.drop 1))

/-- The blocks of a lane's codeword join those of its period; once every lane that is dealt to, and not dropped here, has delivered, the stream is
reassembled and goes on (R322, R324). -/
def State.deskew (s : State) (l cwc drawn : Nat) (bs : List RxBlock) : State :=
  let p := l / 4
  let x := s.lanePort p
  let arrived := x.arrived.filter (fun a => (cwc + 65536 - a.1) % 65536 < 2) ++ [(cwc, l, bs)]
  let lanes := (lanesOf p).filter (fun k => bitOf x.farMask (k % 4) && s.inMask k)
  let group := lanes.filterMap (fun k => (arrived.find? (fun a => a.1 == cwc && a.2.1 == k)).map (·.2.2))
  if group.length = lanes.length then
    (s.setLanePort p { x with arrived := arrived.filter (fun a => a.1 != cwc) }).elastic p drawn (reassemble 77 group)
  else s.setLanePort p { x with arrived }

/-- The LMASK the far end deals a period under, as its control field names it. -/
def State.noteFarMask (s : State) (p control : Nat) : State :=
  let x := s.lanePort p
  if (bits control 15 0 + 65536 - bits control 37 22) % 65536 < 32768 then s.setLanePort p { x with farMask := bits control 21 18 } else s

/-- CODEWORD_RECEIVE (R316): a lane that looks for codewords decodes one; an uncorrectable one passes 77 error blocks on. -/
def codewordReceive (l : Nat) (cw : RxCodeword) (s : State) : State :=
  let st := s.laneState l
  if st < laneSearch || st = laneFault || (l / 4 = 2 && s.prt.portal) then s
  else
    let d := decodeCodeword cw (s.lane l).descrambler
    let s := s.setLane l { s.lane l with descrambler := d.descrambler }
    match d.good with
    | none =>
      let cwc := (s.lane l).rxCwc.map (fun c => (c + 1) % 65536)
      let s := (s.setLane l { s.lane l with clean := 0, alike := 0, bad := (s.lane l).bad + 1, rxCwc := cwc }).addSat (P.LNK_CW_UNCORR l) 1
      if st ≠ laneSearch && 3 ≤ (s.lane l).bad then s.faultLane l 1
      else match cwc with
        | some c => if s.inMask l then s.deskew l c cw.drawn d.blocks else s
        | none => s
    | some (n, control) =>
      let s := if n = 0 then s else ((s.addWrap (P.LNK_CW_CORR l) 1).addWrap (P.LNK_SYM_CORR l) n).count 11 l
      let s := s.setLane l { s.lane l with bad := 0, clean := (s.lane l).clean + 1, rxCwc := some (bits control 15 0) }
      if st = laneSearch then
        if 4 ≤ (s.lane l).syncs && 16 ≤ (s.lane l).clean then
          let s := (s.setLaneState l laneAligned).wrN (P.LNK_SKEW l) (min cw.skewPs 24000)
          if 24000 < cw.skewPs then s.faultLane l 7 else s
        else s
      else
        let s := (s.takeControl l control).noteFarMask (l / 4) control
        if s.inMask l then s.deskew l (bits control 15 0) cw.drawn d.blocks else s
def execCodewordReceive (t : Nat) (lane : Fin 12) (cw : RxCodeword) (s : State) : Host.Outcome State Fault Refusal :=
  .next (codewordReceive lane cw (s.at_ t))

/-- The code of Table 10-5 within Hamming distance 1 of a received KIND (R320). -/
def slotKind (k : Nat) : Option Nat := [0x0F, 0x33, 0x55].find? (fun c => decide (popCount 8 (c ^^^ k) ≤ 1))

/-- Two of the three copies agree in every bit (R320). -/
def voteWord (a b c : BitVec 24) : Option Nat := if a = b || a = c then some a.toNat else if b = c then some b.toNat else none

/-- The copies of a period's alarm word on the other lanes carry the CWC of the one taken, which comes again only 65,536 periods later (R321). -/
def State.copyOfTaken (s : State) (p cwc : Nat) : Bool := match (s.lanePort p).taken with
  | some (c, at_) => c == cwc && decide (s.time < at_ + msec 3)
  | none => false

/-- A valid slot word: a STATUS with RF 1 faults the lane from NEGOTIATE on (log 113); the first ALARM copy of a period is taken. -/
def State.takeSlot_ (s : State) (l kind w cwc : Nat) : State :=
  let p := l / 4
  if kind = 0x55 then
    let s := s.setLane l { s.lane l with far := bits w 23 20 }
    if bitOf w 19 && laneNegotiate ≤ s.laneState l && s.laneState l ≤ laneActive then s.faultLane l 2 else s
  else if kind = 0x33 && p < 2 && !s.copyOfTaken p cwc then
    (s.setLanePort p { s.lanePort p with taken := some (cwc, s.time) }).takeWord (1 - p)
      { origin := bits w 23 12, line := bits w 11 9, raise := bitOf w 8, hopsLeft := bits w 7 0 }
  else s

/-- SLOT_RECEIVE (R319 to R321, R328, R331): an ordered-set slot on a lane. -/
def slotReceive (l : Nat) (slot : RxSlot) (s : State) : State :=
  let st := s.laneState l
  if st < laneSearch || (l / 4 = 2 && s.prt.portal) then s
  else if slot.sync ≠ 0xA55A then
    let s := s.setLane l { s.lane l with syncs := 0, absent := (s.lane l).absent + 1 }
    if laneAligned ≤ st && st ≤ laneActive && 4 ≤ (s.lane l).absent then s.faultLane l 1 else s
  else
    let s := s.setLane l { s.lane l with absent := 0, syncs := (s.lane l).syncs + 1, clean := if (s.lane l).syncs < 3 then 0 else (s.lane l).clean }
    match slotKind slot.kind.toNat, voteWord slot.word1 slot.word2 slot.word3 with
    | some k, some w => s.takeSlot_ l k w slot.cwc.toNat
    | _, _ => s.addSat (P.LNK_SLOT_BAD l) 1
def execSlotReceive (t : Nat) (lane : Fin 12) (slot : RxSlot) (s : State) : Host.Outcome State Fault Refusal :=
  .next (slotReceive lane slot (s.at_ t))

/-- LANE_PLL_LOCKED (R328). -/
def lanePllLocked (l : Nat) (s : State) : State :=
  if s.laneState l = laneWaking then (s.setLaneState l laneSearch).holdAbsent l else s
def execLanePllLocked (t : Nat) (lane : Fin 12) (s : State) : Host.Outcome State Fault Refusal := .next (lanePllLocked lane (s.at_ t))

/-- A window of a lane in TRAIN: done at a quarter of LNK_SER_DEGRADE, or after 8 requests without improvement below it (R329; one request a window,
log 41). -/
def State.trainWindow (s : State) (l n : Nat) : State :=
  let x := s.lane l
  let frozen := x.frozen.isSome
  let noGain := if frozen then x.noGain else if n < x.best then 0 else x.noGain + 1
  let limit := s.rdN P.LNK_SER_DEGRADE
  let done := x.done || decide (4 * n ≤ limit) || (decide (8 ≤ noGain) && decide (n < limit))
  (s.setLane l { x with best := min n x.best, noGain, done }).trainEnds l

/-- SER_WINDOW_END (R327, R329, R331, R332): a 1 ms window of corrected symbols is judged; the lane's rate offset over it is read. -/
def serWindowEnd (l : Nat) (centiPpm : Int) (s : State) : State :=
  let st := s.laneState l
  let x := s.lane l
  if st < laneSearch || s.time < x.windowFrom + msec 1 then s
  else
    let n := (s.rdN (P.LNK_SYM_CORR l) + 4294967296 - x.symFrom) % 4294967296
    let s := s.wrI (P.LNK_PPM l) (clampInt (-50000) 50000 centiPpm)
    let s := s.setLane l { x with windowFrom := s.time, symFrom := s.rdN (P.LNK_SYM_CORR l) }
    if s.rdN P.LNK_SER_FAIL < n && st ≤ laneActive then s.faultLane l 3
    else
      let s := if s.rdN P.LNK_SER_DEGRADE < n then s.setBit (P.LNK_STATUS l) 3 else s
      if st = laneTrain then s.trainWindow l n else s
def execSerWindowEnd (t : Nat) (lane : Fin 12) (centiPpm : Int) (s : State) : Host.Outcome State Fault Refusal :=
  .next (serWindowEnd lane centiPpm (s.at_ t))

/-- TRAIN_TIMEOUT (R328). -/
def trainTimeout (l : Nat) (s : State) : State :=
  if s.laneState l = laneTrain && (s.lane l).entered + msec (s.rdN P.LNK_TRAIN_TIMEOUT) ≤ s.time then s.faultLane l 6 else s
def execTrainTimeout (t : Nat) (lane : Fin 12) (s : State) : Host.Outcome State Fault Refusal := .next (trainTimeout lane (s.at_ t))

/-- REJOIN_HOLD_EXPIRY (R328, R330): a lane in HOLD joins an ACTIVE port. -/
def rejoinHoldExpiry (l : Nat) (s : State) : State :=
  let p := l / 4
  if s.laneState l ≠ laneHold || s.lnkPortState p ≠ portActive_ || (s.lanePort p).change.isSome
      || s.time < (s.lane l).entered + msec (s.rdN P.LNK_REJOIN_HOLD) then s
  else s.propose p (s.widest p ((lanesOf p).filter (fun k => k == l || s.laneState k == laneActive))) 16 false [l]
def execRejoinHoldExpiry (t : Nat) (lane : Fin 12) (s : State) : Host.Outcome State Fault Refusal := .next (rejoinHoldExpiry lane (s.at_ t))

/-- LANE_FAULT_RETRY (R328, R331): 1 ms after FAULT; a port without a module holds its lanes in FAULT. -/
def laneFaultRetry (l : Nat) (s : State) : State :=
  if s.laneState l = laneFault && s.rdN P.LNK_REJOIN = 1 && (s.lanePort (l / 4)).present && decide ((s.lane l).entered + msec 1 ≤ s.time) then
    (s.setLaneState l laneSearch).notePort (l / 4)
  else s
def execLaneFaultRetry (t : Nat) (lane : Fin 12) (s : State) : Host.Outcome State Fault Refusal := .next (laneFaultRetry lane (s.at_ t))

/-- LANE_FAULT (R331): a condition of Table 10-8 is detected, named by its LNK_STATUS bit. -/
def laneFaultEvent (l cause : Nat) (s : State) : State :=
  if [0, 1, 2, 3, 7, 8, 9, 10].contains cause && !(l / 4 = 2 && s.prt.portal) then s.faultLane l cause else s
def execLaneFault (t : Nat) (lane : Fin 12) (cause : Fin 12) (s : State) : Host.Outcome State Fault Refusal :=
  .next (laneFaultEvent lane cause (s.at_ t))

/-! ### Freeze, eye checks and rate (R327, R333, R334) -/

/-- DENSITY_WINDOW_END (R333): of the 112,500 symbols of a 4 µs window, those that differ from the one before. -/
def densityWindowEnd (l changes : Nat) (s : State) : State :=
  let x := s.lane l
  if s.laneState l < laneSearch then s
  else if 5 * changes < 112500 then
    ((s.setLane l { x with frozen := some (x.frozen.getD s.time), checked := if x.frozen.isSome then x.checked else none }).setBit (P.LNK_STATUS l) 5).setBit
      (P.LNK_STATUS l) 4
  else if 112500 ≤ 4 * changes then (s.setLane l { x with frozen := none, checked := none }).clrBits (P.LNK_STATUS l) 32
  else s
def execDensityWindowEnd (t : Nat) (lane : Fin 12) (changes : Nat) (s : State) : Host.Outcome State Fault Refusal :=
  .next (densityWindowEnd lane changes (s.at_ t))

/-- EYE_HEALTH_CHECK (R334): after 10 ms of freeze, and every 100 ms. -/
def eyeHealthCheck (l : Nat) (s : State) : State :=
  let x := s.lane l
  match x.frozen with
  | none => s
  | some f =>
    let due := match x.checked with
      | some c => decide (c + msec 100 ≤ s.time)
      | none => decide (f + msec 10 ≤ s.time)
    if due && x.scan.isNone && !x.checking then s.setLane l { x with checking := true, checked := some s.time } else s
def execEyeHealthCheck (t : Nat) (lane : Fin 12) (s : State) : Host.Outcome State Fault Refusal := .next (eyeHealthCheck lane (s.at_ t))

/-- EYE_HEALTH_CHECK_DONE (R334): the smallest openings are judged. -/
def eyeHealthCheckDone (l horizontal vertical : Nat) (s : State) : State :=
  if !(s.lane l).checking then s
  else
    let s := (s.setLane l { s.lane l with checking := false }).wrN (P.LNK_EYE_LAST l) (horizontal + 256 * vertical)
    if horizontal < s.rdN P.LNK_EYE_MIN_H || vertical < s.rdN P.LNK_EYE_MIN_V then s.faultLane l 9 else s
def execEyeHealthCheckDone (t : Nat) (lane : Fin 12) (horizontal vertical : Byte) (s : State) : Host.Outcome State Fault Refusal :=
  .next (eyeHealthCheckDone lane horizontal.toNat vertical.toNat (s.at_ t))

/-- RATE_OFFSET_FAULT (R327). -/
def execRateOffsetFault (t : Nat) (lane : Fin 12) (s : State) : Host.Outcome State Fault Refusal := .next (laneFaultEvent lane 8 (s.at_ t))

/-! ### Optical modules (R331, R341) -/

/-- MODULE_PRESENCE_CHANGE: an absent module holds the port's lanes in FAULT; one that is no CMIS module is shown (log 87). -/
def modulePresenceChange (p : Nat) (present cmis : Bool) (s : State) : State :=
  let s := s.setLanePort p { s.lanePort p with present, cmis, lowPower := false }
  let s := (lanesOf p).foldl (fun s l => (s.putBit (P.LNK_STATUS l) 10 (!present)).putBit (P.LNK_STATUS l) 11 (present && !cmis)) s
  if present then s else (lanesOf p).foldl (fun s l => (s.setLane l { s.lane l with modLos := false }).faultLane l 10) s
def execModulePresenceChange (t : Nat) (port : Fin 3) (present cmis : Bool) (s : State) : Host.Outcome State Fault Refusal :=
  .next (modulePresenceChange port present cmis (s.at_ t))

/-- The receive LOS flags of a CMIS module are read. -/
def State.moduleFlags (s : State) (p los : Nat) : State :=
  let x := s.lanePort p
  if !x.present || !x.cmis then s
  else (lanesOf p).foldl (fun s l =>
    let on := bitOf los (l % 4)
    let s := s.setLane l { s.lane l with modLos := on }
    if on then s.faultLane l 0 else s) (s.setLanePort p { x with polled := s.time })

/-- MODINT_ASSERT: the flags are read within 1 ms of MODINT_x. -/
def execModintAssert (t : Nat) (port : Fin 3) (los : BitVec 4) (s : State) : Host.Outcome State Fault Refusal :=
  .next ((s.at_ t).moduleFlags port los.toNat)
/-- MODULE_FLAG_POLL: the flags are polled every 100 ms. -/
def moduleFlagPoll (p los : Nat) (s : State) : State := if s.time < (s.lanePort p).polled + msec 100 then s else s.moduleFlags p los
def execModuleFlagPoll (t : Nat) (port : Fin 3) (los : BitVec 4) (s : State) : Host.Outcome State Fault Refusal :=
  .next (moduleFlagPoll port los.toNat (s.at_ t))

/-- CRYSTAL_FAULT (R416): the crystal or the time-base PLL has failed: the link die stops its ring ports. -/
def crystalFault (s : State) : State := [0, 1].foldl (fun s p =>
  let s := (lanesOf p).foldl State.fallowLane s
  let s := s.setLanePort p { s.lanePort p with fallow := true, change := none }
  (s.replyWaits p (fun _ => true) stTimeout).setPortState p portDown) s
def execCrystalFault (t : Nat) (s : State) : Host.Outcome State Fault Refusal := .next (crystalFault (s.at_ t))

/-! ### TST.LOOP (R342) -/

/-- The die and the source (0 to 3 FE, 4 LK) of a die-link target. -/
def loopPair (target : Nat) : Nat × Nat := if target < 11 then ((target - 3) % 2, (target - 3) / 2) else (target - 11, 4)

/-- A port is looped or taken back; the time base is in TEST while the followed domain's port is looped (R170). -/
def State.loopPort (s : State) (p mode : Nat) : State :=
  let follows := s.followedDomain = some (1 - p)
  if mode = 0 then
    if s.lnkPortState p ≠ portLoop then s
    else
      let s := (s.setLanePort p { s.lanePort p with loop := 0, change := none }).setPortState p portBringup
      let s := ((s.enabledLanes p).foldl State.searchLane s).notePort p
      let s := { s with tb := { s.tb with loopTests := s.tb.loopTests.filter (fun q => q != p) } }
      if s.tb.testing && s.tb.loopTests.isEmpty && !(s.red.injections.any (fun i => i.kind == 4)) then s.endTest else s
  else
    let s := s.setLanePort p { s.lanePort p with loop := mode, lmask := 0, change := none, stream := [], timeDue := [], arrived := [], buffer := [] }
    let s := (s.setPortState p portLoop).wrN (P.LNK_PORT_WIDTH p) 0
    if p < 2 && follows then ({ s with tb := { s.tb with loopTests := p :: s.tb.loopTests.filter (fun q => q != p) } }).beginTest else s

/-- TST_LOOP (R342). -/
def tstLoopBody (h : Hdr) (p : List Word) (s : State) : State × Answer :=
  let target := word p 0 % 16
  let mode := bits (word p 0) 5 4
  if p.length ≠ 2 || 64 ≤ word p 0 || (target < 3 && word p 1 ≠ 0) then refuse s stBadParam
  else if 13 ≤ target || mode = 3 then refuse s stRange
  else if target < 3 then
    if target = 2 && s.prt.portal then refuse s stLocked else okay (s.loopPort target mode)
  else if mode = 2 || 1000000 < word p 1 || (mode = 1 && word p 1 = 0) then refuse s stRange
  else if mode = 0 then okay s
  else
    let (die, source) := loopPair target
    ({ s with lnk := { s.lnk with flits := s.lnk.flits ++ [{ h, die, source, left := word p 1, count := word p 1 }] } }, .later none)
def execTstLoop (h : Hdr) (p : List Word) (s : State) : Host.Outcome State Fault Refusal := .next (s.receive 0xF0 h p (tstLoopBody h p))

/-- A flit comes back on a die link under test (R342); the flits that reached the far end in error are left open (log 42). -/
def State.testFlit (s : State) (die source : Nat) (good : Bool) : State :=
  match s.lnk.flits.find? (fun f => f.die == die && f.source == source) with
  | none => s
  | some f =>
    let f' := { f with left := f.left - 1, bad := f.bad + b2n (!good) }
    let rest := s.lnk.flits.filter (fun g => g != f)
    if f'.left = 0 then
      let (w, s) := ({ s with lnk := { s.lnk with flits := rest } }).takeFree
      s.finish 0xF0 f.h stOk [BitVec.ofNat 32 (w.toNat % (f.count + 1)), BitVec.ofNat 32 f'.bad]
    else { s with lnk := { s.lnk with flits := s.lnk.flits.map (fun g => if g == f then f' else g) } }

end Sys2Proof.Machine
end

