-- ==== Sys2Proof/Machine/Operands.lean ====
section
/-! DEFINITION. The operand forms of parameter writes: a parameter's own range (R52), the arc words of a sequencer (R205, R234) and the counter
selectors (R483). -/

namespace Sys2Proof.Machine.Params

/-- An arc word of sequencer q is well-formed (Tables 7-2 and 7-3). -/
def arcGood (q n : Nat) : Bool :=
  let arg := bits n 15 0
  bits n 31 29 == 0 && bits n 21 20 == 0 && (match bits n 19 16 with
    | 0 => arg == 0
    | 1 => decide (arg < 16)
    | 2 => decide (arg < 32) && arg != q
    | 3 => arg == 0
    | 4 => arg != 0
    | 5 => arg != 0
    | 6 => arg == 0
    | _ => false)

/-- How many instances a class of Table 15-13 has; 0 for a reserved class. -/
def instances (cls : Nat) : Nat := match cls with
  | 0 => 1
  | 1 => 5
  | 2 => 5
  | 3 => 8
  | 4 => 4
  | 5 => 1
  | 6 => 2
  | 7 => 9
  | 8 => 64
  | 9 => 16
  | 10 => 3
  | 11 => 12
  | 12 => 2
  | 13 => 2
  | _ => 0

/-- A counter selector names a class and an instance of it (R483). -/
def selectorGood (n : Nat) : Bool := decide (n < 65536) && decide (n % 4096 < instances (n / 4096))

/-- A word lies in a parameter's own range, at an index of the item. -/
def admits (r : Range) (i : Nat) (w : Word) : Bool := match r with
  | .any => true
  | .nat lo hi step others => (decide (lo ≤ w.toNat) && decide (w.toNat ≤ hi) && (w.toNat - lo) % step == 0) || others.contains w.toNat
  | .int lo hi step => decide (lo ≤ w.toInt) && decide (w.toInt ≤ hi) && (w.toInt - lo) % step == 0
  | .finite32 => bits w.toNat 30 23 != 255
  | .arc => arcGood (i / 16) w.toNat
  | .cntSel => selectorGood w.toNat

end Sys2Proof.Machine.Params
end

