-- ==== Sys2Proof/Machine/Relations.lean ====
section
/-! DEFINITION. The relations between parameters that EPOCH.COMMIT checks (R52): R73, R77, R80, R84, R87, R96, R103, R108, R112, R118, R126, R163, R236,
R271, R347, R442 and R463.  A relation that fails yields the addresses of its parameters. -/

namespace Sys2Proof.Machine

/-- A relation that fails, with its parameters: a row of a relation table is one relation, and its parameters are those the row names (R52; log 95). -/
def failing (bad : Bool) (ks : List Nat) : List (List Nat) := if bad then [ks] else []

/-! ### Front ends (R73, R77, R84, R87, R96, R108, R112) -/

/-- A range is permitted for a mode (Table 3-2); mode 0 has no range. -/
def rangeFits (mode range : Nat) : Bool := match mode with
  | 0 => true
  | 2 => decide (range ≤ 2)
  | 4 => decide (range ≤ 3)
  | 5 => decide (2 ≤ range) && decide (range ≤ 4)
  | _ => decide (range ≤ 4)

/-- A curve is permitted for a mode (Table 3-13), and whether it names a reference input in any case. -/
def curveFits (curve mode : Nat) : Bool :=
  if curve = 0 then true
  else if curve ≤ 4 then mode == 3
  else if curve ≤ 10 then mode == 1
  else if curve = 11 then mode == 5
  else if curve = 12 then mode == 4
  else mode != 0
def curveNeedsRef (curve : Nat) : Bool := decide (5 ≤ curve) && decide (curve ≤ 10)
def curveNeedsC0 (curve : Nat) : Bool := (decide (1 ≤ curve) && decide (curve ≤ 3)) || (decide (8 ≤ curve) && decide (curve ≤ 10))

/-- The relations of one input, under the values that would be in force (log 95). -/
def State.inputRelations (v : State) (n : Nat) : List (List Nat) :=
  let mode := v.rdN (P.FE_IN_MODE n)
  let range := v.rdN (P.FE_IN_RANGE n)
  let exc := v.rdN (P.FE_IN_EXC n)
  let ref := v.rdN (P.FE_LIN_REF n)
  let curve := v.rdN (P.FE_LIN_CURVE n)
  let wb := v.rdN (P.FE_WB_EN n) == 1
  let volt := mode == 1 || mode == 3 || mode == 4
  let scan := v.scanSet (n / 4)
  let rev := if exc < 64 then v.rdN (P.FE_EXC_REV_PERIOD exc) else 0
  failing (!rangeFits mode range) [P.FE_IN_MODE n, P.FE_IN_RANGE n]
    ++ failing (mode != 0 && range == 4 && decide (v.rdI (P.MGT_VOLT (7 + n / 128)) < 4500)) [P.FE_IN_RANGE n]
    ++ failing ((mode == 3 && exc == 0xFF) || (mode == 5 && v.rdN (P.FE_IN_SHUNT n) == 0)) [P.FE_IN_MODE n, P.FE_IN_EXC n, P.FE_IN_SHUNT n]
    ++ failing ((exc != 0xFF && exc / 16 != n / 128) || (ref != 0xFFFF && ref / 128 != n / 128) || ref == n
          || (decide (ref < 512) && v.rdN (P.FE_IN_MODE ref) == 0))
        ([P.FE_IN_EXC n, P.FE_LIN_REF n] ++ if ref < 512 then [P.FE_IN_MODE ref] else [])
    ++ failing (!curveFits curve mode || (curveNeedsRef curve && ref == 0xFFFF)) [P.FE_IN_MODE n, P.FE_LIN_CURVE n, P.FE_LIN_REF n]
    ++ failing (curveNeedsC0 curve && !Fl.lt (Fl.ofNat 0) (Fl.of32 (v.rd (P.FE_LIN_COEF (8 * n))))) [P.FE_LIN_CURVE n, P.FE_LIN_COEF (8 * n)]
    ++ failing (v.rdN (P.FE_QRST_MODE n) == 2 && v.rdN (P.FE_QHP n) == 0) [P.FE_QRST_MODE n, P.FE_QHP n]
    ++ failing (decide (v.rdN (P.FE_SET_COUNT n) < 2 ^ v.rdN (P.FE_FILT_LEN n))) [P.FE_FILT_LEN n, P.FE_SET_COUNT n]
    ++ failing (wb && mode == 2) [P.FE_IN_MODE n, P.FE_WB_EN n]
    ++ failing (wb && volt && decide (scan.length < 2)) [P.FE_IN_MODE n, P.FE_WB_EN n]
    ++ failing (rev != 0 && scan.contains n && decide (500 * rev < 1000 * v.rdN (P.FE_EXC_BLANK exc) + v.scanCycle (n / 4))) [P.FE_EXC_BLANK exc]

/-- The relations of one excitation source (R80, R103) (log 95). -/
def State.sourceRelations (v : State) (k : Nat) : List (List Nat) :=
  let a := v.rdN (P.FE_EXC_PIN_A k)
  let b := v.rdN (P.FE_EXC_PIN_B k)
  let interval := 1000 * v.rdN (P.FE_VW_INTERVAL k)
  let on := interval != 0
  let away := fun (pin : Nat) => pin != 0xFFFF && pin / 256 != k / 16
  failing (a != 0xFFFF && a == b) [P.FE_EXC_PIN_A k, P.FE_EXC_PIN_B k]
    ++ failing (away a) [P.FE_EXC_PIN_A k]
    ++ failing (away b) [P.FE_EXC_PIN_B k]
    ++ failing (v.rdN (P.FE_EXC_CURRENT k) != 0 && (a == 0xFFFF || b == 0xFFFF)) [P.FE_EXC_CURRENT k, P.FE_EXC_PIN_A k, P.FE_EXC_PIN_B k]
    ++ failing (on && v.rdN (P.FE_EXC_REV_PERIOD k) != 0) [P.FE_EXC_REV_PERIOD k, P.FE_VW_INTERVAL k]
    ++ failing (on && v.rdN (P.FE_VW_F_START k) == v.rdN (P.FE_VW_F_STOP k)) [P.FE_VW_F_START k, P.FE_VW_F_STOP k]
    ++ failing (on && decide (interval ≤ v.rdN (P.FE_VW_SWEEP k) + v.rdN (P.FE_VW_WAIT k) + v.rdN (P.FE_VW_LISTEN k)))
        [P.FE_VW_INTERVAL k, P.FE_VW_SWEEP k, P.FE_VW_WAIT k, P.FE_VW_LISTEN k]
    ++ failing (on && decide (interval ≤ v.rdN (P.FE_VW_PHASE k))) [P.FE_VW_INTERVAL k, P.FE_VW_PHASE k]

/-! ### Conversion (R118, R126) -/

def State.groupRelations (v : State) (g : Nat) : List (List Nat) :=
  let scan := v.scanSet g
  failing (!scan.isEmpty && decide (v.scanCycle g ≤ v.rdN (P.ADC_PHASE g))) [P.ADC_PHASE g]
    ++ (if v.rdN (P.ADC_THR_ELIG g) = 0 then []
      else scan.flatMap (fun n =>
        let k := v.rdN (P.FE_IN_EXC n)
        failing (decide (k < 64) && (v.rdN (P.FE_EXC_REV_PERIOD k) != 0 || v.rdN (P.FE_VW_INTERVAL k) != 0)) [P.FE_IN_EXC n, P.ADC_THR_ELIG g]))

/-! ### Timing (Table 5-15) -/

/-- TMR_EDGE selects an edge kind: 0 rising, 1 falling. -/
def selectsEdge (edge kind : Nat) : Bool := bitOf edge kind

/-- The relation of the source of a DELAY input (Table 5-15, fourth row): an input or a TPO of the same FE that gives starts. -/
def State.delayRelations (v : State) (n : Nat) : List (List Nat) :=
  let src := v.rdN (P.TMR_ITV_SRC n)
  let tpo := src - 512
  let edge := v.rdN (P.TMR_EDGE src)
  if src = 0xFFFF then []
  else if src < 512 then
    failing (src / 128 != n / 128 || src == n || (edge != 1 && edge != 3) || v.rdN (P.TMR_PRESCALE src) != 0)
      [P.TMR_ITV_MODE n, P.TMR_ITV_SRC n, P.TMR_EDGE src, P.TMR_PRESCALE src]
  else failing (tpo / 8 != n / 128 || v.rdN (P.TMR_TPO_EN tpo) != 1) [P.TMR_ITV_MODE n, P.TMR_ITV_SRC n, P.TMR_TPO_EN tpo]

def State.timingRelations (v : State) (n : Nat) : List (List Nat) :=
  let edge := v.rdN (P.TMR_EDGE n)
  let mode := v.rdN (P.TMR_ITV_MODE n)
  let selects := selectsEdge edge (v.rdN (P.TMR_ITV_EDGE n))
  let presc := v.rdN (P.TMR_PRESCALE n) != 0
  failing (edge != 0 && v.rdN (P.FE_IN_MODE n) == 0) [P.FE_IN_MODE n, P.TMR_EDGE n]
    ++ failing ((mode == 1 && !selects) || (mode == 2 && edge != 3)) [P.TMR_EDGE n, P.TMR_ITV_MODE n, P.TMR_ITV_EDGE n]
    ++ failing (mode == 3 && (!selects || decide (v.rdN (P.TMR_ITV_WINDOW n) ≤ v.rdN (P.TMR_ITV_DLY_MIN n)) || v.rdN (P.TMR_ITV_SRC n) == 0xFFFF))
        [P.TMR_EDGE n, P.TMR_ITV_MODE n, P.TMR_ITV_EDGE n, P.TMR_ITV_DLY_MIN n, P.TMR_ITV_WINDOW n, P.TMR_ITV_SRC n]
    ++ (if mode = 3 then v.delayRelations n else [])
    ++ failing (presc && ((edge != 1 && edge != 2) || (mode != 0 && mode != 1))) [P.TMR_EDGE n, P.TMR_PRESCALE n, P.TMR_ITV_MODE n]
    ++ failing (v.rdN (P.FE_IN_MODE n) == 4 && v.rdN (P.FE_LIN_CURVE n) == 12 && mode != 1) [P.FE_IN_MODE n, P.FE_LIN_CURVE n, P.TMR_ITV_MODE n]

def State.tpoRelations (v : State) (i : Nat) : List (List Nat) :=
  let period := v.rdN (P.TMR_TPO_PERIOD_NS i)
  failing ((v.rdN (P.TMR_TPO_COUNT i) != 1 && period == 0)
      || (period != 0 && decide (128 * period + v.rdN (P.TMR_TPO_PERIOD_FR i) < v.rdN (P.TMR_TPO_WIDTH i) + 512)))
    [P.TMR_TPO_WIDTH i, P.TMR_TPO_PERIOD_NS i, P.TMR_TPO_COUNT i]

/-! ### Trigger engine (Table 7-17) -/

/-- The arguments of a kind lie within Table 7-1. -/
def primGood (kind : Nat) (a b : Int) : Bool :=
  let code := fun (x : Int) => decide (-32768 ≤ x) && decide (x ≤ 32767)
  match kind with
  | 0 => true
  | 1 => a == 0 && b == 0
  | 2 => a == 0 && b == 0
  | 3 => code a && b == 0
  | 4 => code a && b == 0
  | 5 => code a && code b && decide (b < a)
  | 6 => code a && a != 0 && decide (1 ≤ b) && decide (b ≤ 255)
  | _ => decide (2 ≤ a) && decide (a ≤ 255) && decide (100 ≤ b) && decide (b ≤ 1000000)

def State.primRelations (v : State) (n : Nat) : List (List Nat) :=
  [2 * n, 2 * n + 1].flatMap (fun i =>
    let kind := v.rdN (P.TRG_PRIM_KIND i)
    failing ((kind != 0 && v.rdN (P.FE_IN_MODE n) == 0) || !primGood kind (v.rdI (P.TRG_PRIM_ARG_A i)) (v.rdI (P.TRG_PRIM_ARG_B i)))
      [P.FE_IN_MODE n, P.TRG_PRIM_KIND i, P.TRG_PRIM_ARG_A i, P.TRG_PRIM_ARG_B i])

def State.ringRelations (v : State) (g : Nat) : List (List Nat) :=
  let src := v.rdN (P.TRG_GRP_SRC g)
  if src = 0 then []
  else
    let depth := v.ringDepth g
    ((List.range 32).filter (fun q => bitOf src q)).flatMap (fun q =>
      failing (decide (depth < v.rdN (P.TRG_SEQ_PRE q) + v.rdN (P.TRG_SEQ_POST q) + 1000000)) [P.TRG_SEQ_PRE q, P.TRG_SEQ_POST q, P.TRG_GRP_SRC g])

def State.triggerRelations (v : State) : List (List Nat) :=
  let named := v.rdN P.SYS_NODE_ID != 0
  let arcs := (List.range 512).flatMap (fun i => failing (!Params.arcGood (i / 16) (v.rdN (P.TRG_SEQ_ARC i))) [P.TRG_SEQ_ARC i])
  let lines := (List.range 16).flatMap (fun l =>
    failing (decide (1 < v.rdN (P.TRG_LINE_MIN l)) && v.rdN (P.TRG_LINE_WINDOW l) == 0) [P.TRG_LINE_MIN l, P.TRG_LINE_WINDOW l])
  let windrows := [0, 1, 2].flatMap (fun j =>
    if v.rdN (P.TRG_WR_PERIOD j) ≠ 0 then []
    else
      let using_ := (List.range 512).filter (fun n => v.bit (P.TRG_WR_EN n) j)
      failing (!using_.isEmpty) (using_.map P.TRG_WR_EN ++ [P.TRG_WR_PERIOD j]))
  let accepts := (List.range 128).flatMap (fun g => failing (!named && v.bit (P.TRG_GRP_ACCEPT g) 1) [P.SYS_NODE_ID, P.TRG_GRP_ACCEPT g])
  let radii := (List.range 32).flatMap (fun q => failing (!named && v.rdN (P.TRG_SEQ_RADIUS q) != 0) [P.SYS_NODE_ID, P.TRG_SEQ_RADIUS q])
  arcs ++ lines ++ windrows ++ accepts ++ radii

/-! ### Records, lanes, the periodic check, alarms (Tables 8-22, 10-13, 14-12, R442) -/

def State.recordRelations (v : State) : List (List Nat) :=
  let count := v.rdN P.REC_HSK_COUNT
  failing (v.rdN P.REC_HSK_PERIOD != 0 && count == 0) [P.REC_HSK_PERIOD, P.REC_HSK_COUNT]
    ++ (List.range (min 64 count)).flatMap (fun i => failing (!Params.assigned (v.rdN (P.REC_HSK_ADDR i))) [P.REC_HSK_COUNT, P.REC_HSK_ADDR i])
    ++ failing (decide (1000000 < v.rdN P.REC_STP_AGE) || decide (1000000 < v.rdN P.REC_ITV_AGE)) [P.REC_STP_AGE, P.REC_ITV_AGE]

def State.laneRelations (v : State) : List (List Nat) :=
  let e := v.rdN (P.LNK_PORT_EN 0)
  let w := v.rdN (P.LNK_PORT_EN 1)
  let portal := v.prt.portal || v.rdN P.PRT_ENABLE == 1
  failing (portal && e + w != 1) [P.LNK_PORT_EN 0, P.LNK_PORT_EN 1, P.PRT_ENABLE]
    ++ failing (decide (v.rdN P.LNK_SER_FAIL < v.rdN P.LNK_SER_DEGRADE)) [P.LNK_SER_DEGRADE, P.LNK_SER_FAIL]
    ++ [0, 1].flatMap (fun p =>
      let lanes := [4 * p, 4 * p + 1, 4 * p + 2, 4 * p + 3]
      failing (v.rdN (P.LNK_PORT_EN p) == 1 && lanes.all (fun l => v.rdN (P.LNK_LANE_EN l) == 0)) (P.LNK_PORT_EN p :: lanes.map P.LNK_LANE_EN))

def State.checkRelations (v : State) (n : Nat) : List (List Nat) :=
  let mode := v.rdN (P.FE_IN_MODE n)
  failing (v.rdN (P.CAL_PCHK_WB n) == 1 && (v.scanSet (n / 4) != [n] || (mode != 1 && mode != 3 && mode != 4)))
    [P.FE_IN_MODE n, P.CAL_PCHK_WB n]

def State.alarmRelations (v : State) (n : Nat) : List (List Nat) :=
  let on := v.rdN (P.ALM_SRC_LINE n) != 0xFF
  failing (on && (v.rdN (P.FE_IN_MODE n) == 0 || (v.rdN (P.TMR_EDGE n) == 0 && v.rdN (P.ALM_SRC_WBK n) == 0)))
    [P.FE_IN_MODE n, P.TMR_EDGE n, P.ALM_SRC_LINE n, P.ALM_SRC_WBK n]

def State.loopRelations (v : State) (k : Nat) : List (List Nat) :=
  let n := v.rdN (P.ALM_LOOP_INPUT k)
  let one := v.rdN (P.ALM_LOOP_SRC k) == 1
  let lo := Fl.of32 (v.rd (P.ALM_LOOP_LO k))
  let hi := Fl.of32 (v.rd (P.ALM_LOOP_HI k))
  failing (one && (decide (512 ≤ n) || n / 128 != k / 2 || v.rdN (P.FE_LIN_CURVE n) == 0))
      ((if n < 512 then [P.FE_LIN_CURVE n] else []) ++ [P.ALM_LOOP_SRC k, P.ALM_LOOP_INPUT k])
    ++ failing (!Fl.lt lo hi && !Fl.lt hi lo) [P.ALM_LOOP_LO k, P.ALM_LOOP_HI k]
    ++ failing (v.rdN (P.ALM_LINE_RADIUS k) != 0 && v.rdN P.SYS_NODE_ID == 0) [P.SYS_NODE_ID, P.ALM_LINE_RADIUS k]

/-! ### All relations, and the offending parameter (R52) -/

/-- Every relation that fails under the values that would be in force. -/
def State.brokenRelations (v : State) : List (List Nat) :=
  (List.range 512).flatMap (fun n =>
      v.inputRelations n ++ v.timingRelations n ++ v.primRelations n ++ v.checkRelations n ++ v.alarmRelations n)
    ++ (List.range 128).flatMap (fun g => v.groupRelations g ++ v.ringRelations g)
    ++ (List.range 64).flatMap v.sourceRelations ++ (List.range 32).flatMap v.tpoRelations
    ++ v.triggerRelations ++ v.recordRelations ++ v.laneRelations ++ (List.range 8).flatMap v.loopRelations

/-- The offending parameter of a relation: its lowest that is staged, else its lowest (log 95). -/
def offending (staged : List (Nat × Word)) (ks : List Nat) : Nat :=
  let mine := ks.filter (fun k => (Sparse.find? staged k).isSome)
  ((if mine.isEmpty then ks else mine).min?).getD 0

/-- The first offending parameter of a commit, none when every relation holds. -/
def State.firstOffending (s : State) : Option Nat :=
  let v := s.cmd.staged.foldl (fun s (kv : Nat × Word) => s.wr kv.1 kv.2) s
  ((v.brokenRelations).map (offending s.cmd.staged)).min?

end Sys2Proof.Machine
end

