-- ==== Sys2Proof/Machine/Epoch.lean ====
section
/-! DEFINITION. Configuration epochs (R52 to R63): the commit, what the values it puts in force do to every unit, and the EPOCH rows. -/

namespace Sys2Proof.Machine

/-! ### What a commit changes -/

/-- A parameter has changed, `old` being the state before the commit (log 96). -/
def State.changed (s old : State) (k : Nat) : Bool := s.rd k != old.rd k

/-- The conditioning items of Table 3-4. -/
def windowItems (n : Nat) : List Nat :=
  [P.FE_IN_MODE n, P.FE_IN_RANGE n, P.FE_IN_BIAS n, P.FE_IN_EXC n, P.FE_IN_SHUNT n, P.FE_FILT_LEN n]
/-- The items of a source that open a SET window (Table 3-4), and those of its sweep cycle (R102). -/
def sourceItems (k : Nat) : List Nat := [P.FE_EXC_CURRENT k, P.FE_EXC_PIN_A k, P.FE_EXC_PIN_B k, P.FE_EXC_REV_PERIOD k]
def sweepItems (k : Nat) : List Nat :=
  [P.FE_VW_INTERVAL k, P.FE_VW_PHASE k, P.FE_VW_F_START k, P.FE_VW_F_STOP k, P.FE_VW_SWEEP k, P.FE_VW_WAIT k, P.FE_VW_LISTEN k]
/-- The TMR items of an input (Table 5-14, items 0x00 to 0x0F). -/
def timingItems (n : Nat) : List Nat := (List.range 16).map (fun i => 0x04000000 + 65536 * i + n)

/-! ### Inputs and sources (Table 3-4, Table 3-8, R83, R102) -/

/-- An input goes OFF at a commit at t; what its conversion in progress, completing under the old settings, still needs of it is kept (R120). -/
def State.putOff (s old : State) (n t : Nat) : State :=
  let g := n / 4
  let s := match old.completes g t with
    | some (m, _) => if m = n then s.setGroup g { s.group g with leaving := some (n, old.inState n, old.input n) } else s
    | none => s
  s.setInState n inOff

/-- The source an input names sweeps, or does not (R102): from the commit on for an input that comes to name it in mid-sweep. -/
def State.commitSweep (s old : State) (n t : Nat) : State :=
  let k := s.rdN (P.FE_IN_EXC n)
  let x := s.input n
  let since := if k < 64 then (s.source k).sweepAt else none
  let stays := x.sweep.isSome && !s.changed old (P.FE_IN_EXC n)
  if s.inState n = inOff then s
  else s.setInput n { x with sweep := if stays && since.isSome then x.sweep else since.map (max t) }

/-- An input that comes to name a source at compliance shows it (R81, R110). -/
def State.commitCompliance (s old : State) (n : Nat) : State :=
  let k := s.rdN (P.FE_IN_EXC n)
  if s.changed old (P.FE_IN_EXC n) && decide (k < 64) && (s.source k).compliance.since.isSome then s.setBit (P.FE_IN_STATUS n) 7 else s

/-- An input after a commit at t: it goes OFF, is enabled, or meets an event of Table 3-4. -/
def State.commitInput (old : State) (t : Nat) (s : State) (n : Nat) : State :=
  let s := s.commitCompliance old n
  let k := s.rdN (P.FE_IN_EXC n)
  let pairs := s.changed old (P.FE_IN_EXC n) || (decide (k < 64) && s.changed old (P.FE_EXC_REV_PERIOD k))
  let s := if pairs then s.setInput n { s.input n with fwd := none, rev := none } else s
  let s := if s.changed old (P.FE_IN_MODE n) then s.setInput n { s.input n with closed := none, resetDue := none } else s
  if !s.configured n && !(s.input n).holds.contains 0 then (if s.inState n = inOff then s else s.putOff old n t)
  else if s.inState n = inOff then
    let s := (s.enableInput n t).commitSweep old n t
    (s.group (n / 4)).stops.foldl (fun s r => s.holdInput n r) s
  else
    let bySource := decide (k < 64) && (sourceItems k).any (s.changed old)
    let swept := decide (k < 64) && (sweepItems k).any (s.changed old) && (s.input n).sweep.isSome
    let s := if (windowItems n).any (s.changed old) || bySource || swept then s.setEvent n t else s
    s.commitSweep old n t

/-- A source after a commit at t: one whose sweep cycle has changed leaves the cycle in progress (log 80), its terminals follow a changed current
(R79), and it runs as the half of t under a changed reversal period says (R82).  A source whose current becomes 0 keeps COMPL_NOW until
EXC_COMPLIANCE_CHANGE comes (log 108). -/
def State.commitSource (old : State) (t : Nat) (s : State) (k : Nat) : State :=
  let ch := s.changed old
  let s := if ch (P.FE_EXC_REV_PERIOD k) then s.setSource k { s.source k with reversed := s.reversedAt k t } else s
  if (sweepItems k).any ch then
    ((s.setSource k { s.source k with sweepAt := none, waitFrom := none, listenFrom := none }).steer k).clrBits (P.FE_EXC_STATUS k) 4
  else if ch (P.FE_EXC_CURRENT k) && ((s.rdN (P.FE_EXC_CURRENT k) == 0) != (old.rdN (P.FE_EXC_CURRENT k) == 0)) then s.steer k
  else s

/-! ### Timing and primitives (R138, R146, R148, R201) -/

/-- The open set of an input closes for reason 3 (Table 5-5). -/
def State.setEnds (s old : State) (n : Nat) : Bool :=
  [P.FE_IN_MODE n, P.FE_IN_RANGE n, P.FE_IN_EXC n].any (s.changed old) || (timingItems n).any (s.changed old)
def State.commitSets (old : State) (t : Nat) (s : State) (n : Nat) : State := if s.setEnds old n then s.closeSet n 3 (ns t) else s

/-- The timing path of an input after a commit: the comparator, the level it takes, the prescaler's count, the interval set, the alarm source (log 74). -/
def State.commitTiming (old : State) (t : Nat) (s : State) (n : Nat) : State :=
  let s := s.refreshCmp n 1
  let ch := s.changed old
  let level := (ch (P.TMR_THRESH n) || ch (P.TMR_HYST n) || ch (P.TMR_EDGE n)) && s.rdN (P.TMR_CMP_STATE n) != 0
  let s := if level then s.takeLevel n else s
  let s := if ch (P.TMR_PRESCALE n) then s.setTiming n { s.timing n with presc := 0 } else s
  let s := if s.setEnds old n then s.openSet n (ns t) else s
  let prim := fun (s : State) (p : Nat) =>
    let k := primKey n p
    if ch (P.TRG_PRIM_KIND k) || ch (P.TRG_PRIM_ARG_A k) || ch (P.TRG_PRIM_ARG_B k) then s.clearPrim n p else s
  (prim (prim s 0) 1).updateAlarm n t

/-! ### Groups and rings (R119, R120, R281) -/

/-- A group whose grid parameters have changed is aligned anew, and words older than its ring's new depth are no longer held. -/
def State.commitGroup (old : State) (t : Nat) (s : State) (g : Nat) : State :=
  let settle := (s.scanSet g).any (fun n => s.changed old (P.ADC_SETTLE n))
  if s.scanSet g == old.scanSet g && !settle && !s.changed old (P.ADC_LP g) && !s.changed old (P.ADC_PHASE g) then s
  else
    let s := s.regrid old g t
    let r := s.ring g
    s.setRingOf g { r with words := r.words.filter (fun w => decide (t ≤ w.instant + s.ringDepth g)) }

/-! ### Windrows (R230) -/

/-- A commit at t changes what an input of a group that is not STOPPED contributes to period j (R227, R230). -/
def State.windrowChanged (s old : State) (t j n : Nat) : Bool :=
  s.startedAt (n / 4) t && (s.bit (P.TRG_WR_EN n) j || old.bit (P.TRG_WR_EN n) j)
    && [P.TRG_WR_EN n, P.FE_IN_MODE n, P.FE_IN_RANGE n, P.FE_LIN_CURVE n].any (s.changed old)

/-- The interval of period j in progress ends at t, and the next one runs to the next boundary of the period in force then; `step` says that a
time-base step cuts it. -/
def State.cutWindrow (s old : State) (j a b : Nat) (step : Bool) : State :=
  let d := 1000 * old.rdN (P.TRG_WR_PERIOD j)
  let d' := 1000 * s.rdN (P.TRG_WR_PERIOD j)
  let ws : List Windrow := Sparse.get [] s.trg.windrows j
  let ws := if d = 0 || a % d = 0 then ws else windrowFor ws d a
  let cut := (ws.filter (fun w => w.old || !step || decide (w.from_ < a))).map (fun w =>
    if w.old then w
    else if w.from_ < a && a < w.to_ then { w with to_ := a, partial_ := true, step, old := step }
    else { w with step := step && w.to_ == a, old := step })
  let next : List Windrow := if d' = 0 then [] else [{ from_ := b, to_ := b / d' * d' + d', partial_ := b % d' != 0 }]
  { s with trg := { s.trg with windrows := Sparse.set [] s.trg.windrows j (cut ++ next) } }

def State.commitWindrow (old : State) (t : Nat) (s : State) (j : Nat) : State :=
  if s.changed old (P.TRG_WR_PERIOD j) || (List.range 512).any (s.windrowChanged old t j) then s.cutWindrow old j t t false else s

/-! ### Trigger engine and alarms (R210, Table 7-6, R452, Table 14-8) -/

/-- A sequencer's program, timer or auto fire has changed. -/
def State.seqChanged (s old : State) (q : Nat) : Bool :=
  s.changed old (P.TRG_SEQ_TIMER q) || s.changed old (P.TRG_SEQ_AUTO q) || (List.range 16).any (fun i => s.changed old (P.TRG_SEQ_ARC (16 * q + i)))

/-- What the trigger step of the commit instant has to do. -/
def State.commitTrigger (s old : State) (t : Nat) : State :=
  let seqs := ((allSeqs.filter (s.seqChanged old)).map (fun q => 2 ^ q)).sum
  let groups := allGroups.filter (fun g => s.changed old (P.TRG_GRP_MODE g) && s.rdN (P.TRG_GRP_MODE g) == 0)
  if seqs = 0 && groups.isEmpty then s else { s with trg := { s.trg with events := s.trg.events ++ [.commit seqs groups t] } }

/-- The alarm lines take the values in force; a line whose local part stays active is sent under its new radius at once (log 72). -/
def State.commitAlarms (s old : State) (t : Nat) : State :=
  let was := s.alm.matrix.localMask
  let s := (s.matrixStep (.commit t)).send 4 (.alarm (.commit t))
  lineNumbers.foldl (fun s l =>
    if s.changed old (P.ALM_LINE_RADIUS l) && bitOf was l && bitOf s.alm.matrix.localMask l then s.sendWord l true else s) s

/-! ### Applying a commit (R57 to R63, R69) -/

/-- The values in force are replaced as a whole; the staging area is empty and the state IDLE. -/
def State.installStaged (s : State) (c : Commit) (t uncert : Nat) : State :=
  let s := { s with cmd := { s.cmd with oldPar := s.par, parFrom := t } }
  let s := s.cmd.staged.foldl (fun s (kv : Nat × Word) => s.wr kv.1 kv.2) s
  let s := { s with cmd := { s.cmd with staged := [], commit := none }, recs := { s.recs with epochs := (t, c.newEpoch) :: s.recs.epochs } }
  (((s.wr P.SYS_EPOCH c.newEpoch).wr64 (P.SYS_EPOCH_TIME 0) t).wr P.SYS_EPOCH_UNCERT (satWord uncert)).wrN P.SYS_EPOCH_STATE 0

/-- Every unit takes the values in force from the commit instant on (log 96). -/
def State.takeUp (s old : State) (t : Nat) : State :=
  let s := (List.range 512).foldl (State.commitSets old t) s
  let s := (List.range 64).foldl (State.commitSource old t) s
  let s := (List.range 512).foldl (State.commitInput old t) s
  let s := (List.range 512).foldl (State.commitTiming old t) s
  let s := allGroups.foldl (State.commitGroup old t) s
  let s := [0, 1, 2].foldl (State.commitWindrow old t) s
  let s := (s.commitTrigger old t).commitAlarms old t
  let s := s.commitLanes old
  if s.prt.portal && s.changed old P.TB_SRC then s.sourceChanged else s

/-- A commit applies at an instant, with the uncertainty there; a save of the configuration follows (R493). -/
def State.applyCommit (s : State) (c : Commit) (t uncert : Nat) : State :=
  let s := allGroups.foldl (fun s g => s.noteSkip g t) s
  ((s.installStaged c t uncert).takeUp s t).requestSave

/-- The outcomes of Table 2-8. -/
def outApplied : Nat := 0
def outHoldover : Nat := 1
def outDeferred : Nat := 2
def outMissed : Nat := 3
def outAborted : Nat := 4

/-- The final reply of EPOCH.COMMIT (R59). -/
def State.finishCommit (s : State) (c : Commit) (status outcome uncert at_ : Nat) : State :=
  s.finish 0x13 c.h status [BitVec.ofNat 32 outcome, satWord uncert, lo32 at_, hi32 at_]

/-- The epoch state a withdrawn or missed commit leaves: STAGING while entries are staged, else IDLE. -/
def State.unseal (s : State) : State :=
  ({ s with cmd := { s.cmd with commit := none } }).wrN P.SYS_EPOCH_STATE (if s.cmd.staged.isEmpty then 0 else 1)

/-- The uncertainty R58 compares: 0 while lock is reported. -/
def State.commitUncert (s : State) : Nat := if s.lockReported then 0 else s.tbUncert

/-- The commit applies at its own instant. -/
def State.applyNow (s : State) (c : Commit) (u : Nat) : State :=
  let t := s.actAt c.instant
  let s := s.applyCommit c t u
  let s := if u = 0 then s else s.setBit P.SYS_CMD_FLAGS 4
  s.finishCommit c stOk (if u = 0 then outApplied else outHoldover) u t

/-- A command whose instant lies before a commit's still waits: a step of the time base has brought both due at once (R187). -/
def State.earlierWaits (s : State) (instant : Nat) : Bool := s.cmd.outstanding.any (fun o => match o.due with
  | some d => decide (d < instant)
  | none => false)

/-- EPOCH_COMMIT_INSTANT (R58): the uncertainty at the instant decides, after a loss of the source at the same instant (Table 6-12). -/
def epochCommitInstant (s : State) : State := match s.cmd.commit with
  | none => s
  | some c =>
    if c.deferred || s.now < c.instant || s.earlierWaits c.instant then s
    else
      let s := s.tbUpdate
      let u := s.commitUncert
      if !c.h.sched || u ≤ c.tolerance || c.policy = 0 then s.applyNow c u
      else if c.policy = 1 then ({ s with cmd := { s.cmd with commit := some { c with deferred := true, uncert := u } } }).wrN P.SYS_EPOCH_STATE 3
      else (s.unseal.setBit P.SYS_CMD_FLAGS 3).finishCommit c stTimeout outMissed u 0
def execEpochCommitInstant (t : Nat) (s : State) : Host.Outcome State Fault Refusal := .next (epochCommitInstant (s.at_ t))

/-- DEFERRED_COMMIT_APPLY (R60): the first slot boundary at least SYS_EPOCH_LEAD after lock is reported again. -/
def deferredCommitApply (s : State) : State := match s.cmd.commit with
  | none => s
  | some c => match c.applyAt with
    | none => s
    | some t =>
      if s.now < t then s
      else (s.applyCommit c t s.commitUncert).finishCommit c stOk outDeferred c.uncert t
def execDeferredCommitApply (t : Nat) (s : State) : Host.Outcome State Fault Refusal := .next (deferredCommitApply (s.at_ t))

/-! ### EPOCH.COMMIT, EPOCH.ABORT, EPOCH.STATUS (R56, R57, R61, R62) -/

/-- The value a TPO's enable would have puts a TPO that is not IDLE at rest (R154). -/
def State.commitStopsTpo (s : State) : Bool :=
  (List.range 32).any (fun i => s.rdN (P.TMR_TPO_STATE i) != tpoIdle && Sparse.find? s.cmd.staged (P.TMR_TPO_EN i) == some 0)

def epochCommitBody (h : Hdr) (p : List Word) (s : State) : State × Answer :=
  let policy := bits (word p 1) 17 16
  let expect := bits (word p 1) 15 0
  let count := s.cmd.staged.length
  if p.length ≠ 3 || 262144 ≤ word p 1 then refuse s stBadParam
  else if policy = 3 || 4000000 < word p 2 then refuse s stRange
  else if s.cmd.commit.isSome || word p 0 ≤ s.rdN P.SYS_EPOCH then refuse s stEpochConflict
  else if expect ≠ 0xFFFF && expect ≠ count then refuse s stEpochConflict [BitVec.ofNat 32 count]
  else if s.commitStopsTpo then refuse s stLocked
  else match s.firstOffending with
    | some k => refuse s stRange [BitVec.ofNat 32 k]
    | none =>
      let instant := if h.sched then h.timeTag.toNat else boundaryFrom (ceilDiv s.time 4096 + s.rdN P.SYS_EPOCH_LEAD)
      let c : Commit := { h, newEpoch := p.getD 0 0, policy, tolerance := word p 2, instant }
      (({ s with cmd := { s.cmd with commit := some c } }).wrN P.SYS_EPOCH_STATE 2, .later none)
/-- EPOCH_COMMIT (R57). -/
def execEpochCommit (h : Hdr) (p : List Word) (s : State) : Host.Outcome State Fault Refusal := .next (s.receive 0x13 h p (epochCommitBody h p))

/-- The staging area after EPOCH.ABORT: kept, or discarded. -/
def State.keepStaged (s : State) (keep : Bool) : State :=
  let s := if keep then s else { s with cmd := { s.cmd with staged := [] } }
  s.unseal

/-- The uncertainty word of a commit withdrawn before its instant is left open. -/
def epochAbortBody (p : List Word) (s : State) : State × Answer :=
  let keep := bitOf (word p 0) 0
  if p.length ≠ 1 || 2 ≤ word p 0 then refuse s stBadParam
  else match s.cmd.commit with
    | none => okay (s.keepStaged keep)
    | some c =>
      if !c.deferred && ns c.instant < s.time + ns (s.rdN P.SYS_EPOCH_LEAD) then refuse s stLocked
      else
        let (free, s) := s.takeFree
        okay ((s.keepStaged keep).finishCommit c stEpochConflict outAborted (if c.deferred then c.uncert else free.toNat) 0)
/-- EPOCH_ABORT (R61). -/
def execEpochAbort (h : Hdr) (p : List Word) (s : State) : Host.Outcome State Fault Refusal := .next (s.receive 0x14 h p (epochAbortBody p))

/-- EPOCH_STATUS (R62).  R62 lists the values and gives them no words: the model gives one word to each, the instant as a low and a high word
(log 107). -/
def epochStatusBody (p : List Word) (s : State) : State × Answer :=
  let (instant, tag) := match s.cmd.commit with
    | some c => (c.instant, c.h.tag.toNat)
    | none => (0, 0)
  if p.length ≠ 0 then refuse s stBadParam
  else okay s [s.rd P.SYS_EPOCH, s.rd P.SYS_EPOCH_STATE, BitVec.ofNat 32 s.cmd.staged.length, lo32 instant, hi32 instant, BitVec.ofNat 32 tag]
def execEpochStatus (h : Hdr) (p : List Word) (s : State) : Host.Outcome State Fault Refusal := .next (s.receive 0x15 h p (epochStatusBody p))

end Sys2Proof.Machine
end

