-- ==== Sys2Proof/Machine/Prt.lean ====
section
/-! DEFINITION. Meanings of frame reception and of the portal events (chapter 11): frames received, segments and sheaves timed out, delivery,
the PCI Express endpoint. -/

namespace Sys2Proof.Machine

/-! ### Frames received (R355, R359, R360) -/

/-- A discard is counted (R355). -/
def State.discard (s : State) (p : Nat) : State := (s.addSat (P.CLP_RX_DISCARD p) 1).setBit P.CLP_STATUS 1

/-- The frame as the node holds it once accepted. -/
def rxHeld (f : RxFrame) : Frame :=
  { ftype := f.ftype.toNat, origin := f.origin.toNat, dest := f.dest.toNat, prio := f.prio.toNat, turned := f.turned, auth := f.auth
    payload := f.payload }

/-- The side a port lies on. -/
def arrivalOf (p : Nat) : Arrival := if p = 0 then .west else .east

/-- HCRC holds, and no error block or reserved field other than 0 appears (R355); a reserved frame type is an error (R352). -/
def rxGood (f : RxFrame) : Bool :=
  !f.error && decide (f.ftype.toNat ≤ 2) && decide (f.payload.length ≤ 4112) && frameCrc f.hseq.toNat (rxHeld f) == f.hcrc

/-- A command packet waits to be judged by this node. -/
def State.inboxAdd (s : State) (a : Arrival) (issuer : Nat) (auth : Bool) (bytes : List Byte) : State :=
  { s with clp := { s.clp with inbox := s.clp.inbox ++ [{ arrival := a, issuer, auth, bytes }] } }

/-- An accepted frame goes where Table 11-10 says. -/
def State.route (s : State) (p : Nat) (f : Frame) : State :=
  let id := s.rdN P.SYS_NODE_ID
  if f.ftype = 0 then
    if f.turned then (if s.prt.portal then s.returned f.origin f.dest f.payload else s.sendOn (1 - p) false f)
    else if f.dest = 0xFFF then
      let s := s.inboxAdd (arrivalOf p) f.origin f.auth f.payload
      if s.prt.portal then s else s.sendOn (1 - p) false f
    else if f.dest = id && id ≠ 0 then s.inboxAdd (arrivalOf p) f.origin f.auth f.payload
    else if s.prt.portal then s.returned f.origin f.dest f.payload
    else s.sendOn (1 - p) false f
  else if f.ftype = 1 then
    if s.prt.portal then s.assemble f.origin f.turned f.prio f.payload else s.sendOn (1 - p) false f
  else { s with clp := { s.clp with announces := s.clp.announces ++ [(p, f.payload)] } }

/-- Whether the node passes a frame on along the ring, as its SOF says (Table 11-10). -/
def State.passesOn (s : State) (f : Frame) : Bool :=
  !s.prt.portal && (f.ftype == 1 || (f.ftype == 0 && (f.turned || f.dest == 0xFFF || f.dest != s.rdN P.SYS_NODE_ID || f.dest == 0)))

/-- A frame that fails has been passed on block by block as it came when its output port was free: the copy ends with ABORT, takes no HSEQ and leaves the
retransmit buffer (R355, R360; log 112). -/
def State.abortCopy (s : State) (p : Nat) (f : Frame) : State :=
  let o := 1 - p
  let x := s.port o
  let free := s.portActive o && !x.turning && x.choose.isNone && !f.heldBy x.xoffIn && decide (x.retransmitBytes + f.size ≤ 2097152)
  if s.passesOn f && free then
    (s.setPort o { x with aborted := some (x.txNext, f) }).queueBlocks (lnkOf o) false (frameBlocks x.txNext f true)
  else s

/-- FRAME_RECEIVE (R355 to R360, R366): the frame is accepted in order and routed, or discarded with the ACK R355 names. -/
def frameReceive (p : Nat) (f : RxFrame) (s : State) : State :=
  let x := s.port p
  if !s.portActive p || !s.isRingPort p then s
  else if f.abort then
    let s := if f.hseq.toNat = x.rxExpect then s.abortCopy p (rxHeld f) else s
    s.discard p
  else if !rxGood f then
    let s := if f.hseq.toNat = x.rxExpect then s.abortCopy p (rxHeld f) else s
    (s.discard p).sendAck p true
  else if f.hseq.toNat = x.rxExpect then
    let s := s.setPort p { x with rxExpect := (x.rxExpect + 1) % 65536, nakSent := false }
    let s := s.addWrap (P.CLP_RX_FRAMES p) 1
    let s := s.route p (rxHeld f)
    (s.sendAck p false).updateXoff p
  else if (f.hseq.toNat + 65536 - x.rxExpect) % 65536 < 32768 then
    let s := s.discard p
    if x.nakSent then s else (s.setPort p { s.port p with nakSent := true }).sendAck p true
  else (s.discard p).sendAck p false
def execFrameReceive (t : Nat) (port : Fin 2) (frame : RxFrame) (s : State) : Host.Outcome State Fault Refusal :=
  .next (frameReceive port frame (s.at_ t))

/-! ### Timeouts of segments and sheaves (R377, R379) -/

/-- SEGMENT_TIMEOUT (R377): a record whose next segment has not arrived for 10 ms is abandoned, and a LOSS entry names it. -/
def segmentTimeout (s : State) : State :=
  match s.prt.assembly.find? (fun a => decide (a.lastAt + msec 10 ≤ s.time)) with
  | none => s
  | some a =>
    let s := ({ s with prt := { s.prt with assembly := s.prt.assembly.filter (fun b => b != a) } }).updateAssembly
    (s.lossEntry a.node a.kind a.run a.seq).portalXoffMoves
def execSegmentTimeout (t : Nat) (s : State) : Host.Outcome State Fault Refusal := .next (segmentTimeout (s.at_ t))

/-- SHEAF_WAIT_EXPIRY (R379): PRT_SHEAF_WAIT has elapsed since a tag opened. -/
def sheafWaitExpiry (s : State) : State :=
  match s.prt.tags.find? (fun t => !t.closed && decide (t.at_ + msec (s.rdN P.PRT_SHEAF_WAIT) ≤ s.time)) with
  | none => s
  | some t => s.closeTag t 1
def execSheafWaitExpiry (t : Nat) (s : State) : Host.Outcome State Fault Refusal := .next (sheafWaitExpiry (s.at_ t))

/-- TAG_FREE (R379): a tag kept CLOSED for a further PRT_SHEAF_WAIT is freed. -/
def tagFree (s : State) : State :=
  match s.prt.tags.find? (fun t => t.closed && decide (t.at_ + msec (s.rdN P.PRT_SHEAF_WAIT) ≤ s.time)) with
  | none => s
  | some t => { s with prt := { s.prt with tags := s.prt.tags.filter (fun u => u.slot != t.slot) } }
def execTagFree (t : Nat) (s : State) : Host.Outcome State Fault Refusal := .next (tagFree (s.at_ t))

/-! ### Delivery into host memory (R384, R385) -/

/-- The four words of an entry (Table 11-19). -/
def entryWords (d : Delivery) (offset length index prev phase : Nat) : List W64 :=
  [BitVec.ofNat 64 (length + 4294967296 * offset),
   BitVec.ofNat 64 ((d.seq % 4294967296) + 4294967296 * (d.node % 4096) + 17592186044416 * (d.kind % 16) + 2 ^ 53 * b2n d.noTag
     + 2 ^ 54 * b2n d.straggler + 2 ^ 55 * b2n d.turned + 2 ^ 56 * b2n d.crcBad + 2 ^ 57 * b2n d.refetch + 2 ^ 58 * b2n d.damaged
     + 2 ^ 59 * d.type + 2 ^ 63 * phase),
   BitVec.ofNat 64 (d.id % 281474976710656 + 281474976710656 * (d.run % 256)),
   BitVec.ofNat 64 (prev % 4294967296 + 4294967296 * index)]

/-- log2 of a ring's entries and of its data area, within the ranges of Table 11-18. -/
def State.entLog (s : State) (r : Nat) : Nat := max 6 (min 16 (s.bar (barEntSize r) 6))
def State.dataLog (s : State) (r : Nat) : Nat := max 16 (min 30 (s.bar (barDataSize r) 16))

/-- A ring has room for an entry, and for an item of some bytes at an offset (R384). -/
def State.entryRoom (s : State) (r : Nat) : Bool :=
  decide ((s.bar (barProd r) 0 + 4294967296 - s.bar (barCons r) 0) % 4294967296 < 2 ^ s.entLog r)
def dataRoom (live : List (Nat × Nat × Nat)) (off n : Nat) : Bool :=
  live.all (fun x => decide (off + n ≤ x.2.1) || decide (x.2.1 + x.2.2 ≤ off))

/-- PREV of an entry (R379): the sheaf's previous fragment, or for a SHEAF entry its last. -/
def State.prevOf (s : State) (d : Delivery) : Nat :=
  if (d.type == 0 && d.sheaf.isSome) || d.type == 1 then
    match s.prt.tags.find? (fun t => t.id == d.id) with
    | some t => t.latest
    | none => 0xFFFFFFFF
  else 0xFFFFFFFF

/-- The vector of a ring is signalled per MOD after a write of PROD (R385). -/
def State.moderate (s : State) (r : Nat) : State :=
  let x := s.ringRt r
  let m := s.bar (barMod r) 0
  let n := x.unsignalled + 1
  if m = 0 || (bits m 15 0 ≠ 0 && bits m 15 0 ≤ n) then (s.setRing r { x with unsignalled := 0 }).signal r
  else s.setRing r { x with unsignalled := n, firstUnsignalled := if x.unsignalled = 0 then s.time else x.firstUnsignalled }

/-- A word goes to the host address that a pair of registers holds (R383, R384). -/
def State.writeBack (s : State) (off v : Nat) : State :=
  { s with prt := { s.prt with writebacks := (s.bar off 0 + 4294967296 * s.bar (off + 4) 0, v) :: s.prt.writebacks } }

/-- One entry is written: the item's data, the entry, PROD and any message, in that order (R384). -/
def State.writeEntry (s : State) (r : Nat) (d : Delivery) (offset length : Nat) (bytes : List Byte) : State :=
  let index := s.bar (barProd r) 0
  let prev := s.prevOf d
  let phase := if index / 2 ^ s.entLog r % 2 = 0 then 1 else 0
  let e : WrittenEntry := { ring := r, index, words := entryWords d offset length index prev phase, offset, bytes }
  let s := { s with prt := { s.prt with written := e :: s.prt.written } }
  let s := (s.setBar (barProd r) 0 (index + 1)).writeBack (0x110 + 64 * r) ((index + 1) % 4294967296)
  let s := if length = 0 then s else s.setRing r { s.ringRt r with live := (s.ringRt r).live ++ [(index, offset, ceilDiv length 64 * 64)] }
  let s := (s.addWrap (P.PRT_DELIVERED r) 1).prtStatus 0
  let s := if d.type == 0 && d.sheaf.isSome then
      match s.prt.tags.find? (fun t => t.id == d.id) with
      | some t => s.setTag { t with latest := index }
      | none => s
    else s
  s.moderate r

/-- The sheaf of a ring in which 2^28 entries have been written after its latest fragment closes by WAIT (R379). -/
def State.closeOld (s : State) (r : Nat) : State :=
  if s.rdN (P.PRT_KIND_RING 0) = r then
    match s.prt.tags.find? (fun t => !t.closed && t.latest != 0xFFFFFFFF
        && decide (268435457 ≤ (s.bar (barProd r) 0 + 4294967296 - t.latest) % 4294967296)) with
    | some t => s.closeTag t 1
    | none => s
  else s

/-- A delivered record of this node counts as acknowledged (R358). -/
def State.ackOwn (s : State) (d : Delivery) : State := match d.own with
  | some (id, kind, run, seq) => s.acknowledge id kind run seq
  | none => s

/-- A ring lacks room for its next item: it holds the item and XOFF is set (R386). -/
def State.ringFull (s : State) (r : Nat) : State :=
  if (s.ringRt r).full then s else ((s.setRing r { s.ringRt r with full := true }).prtStatus 7).portalXoffMoves

/-- A ring has room for the next thing an item needs: the SKIP entry before the end of the data area, or the item (R384). -/
def State.ringFits (s : State) (r : Nat) (d : Delivery) : Bool :=
  let x := s.ringRt r
  let size := 2 ^ s.dataLog r
  let n := d.bytes.length
  s.entryRoom r && (if size < x.offset + n then dataRoom x.live x.offset (size - x.offset) else dataRoom x.live x.offset n)

/-- A ring of a size, with an offset, live items and room for some entries, takes a queue of items, with the SKIP and LOSS entries they need (R384). -/
def ringTakes (size : Nat) : Nat → List (Nat × Nat × Nat) → Nat → List Delivery → Bool
  | _, _, _, [] => true
  | off, live, room, d :: ds =>
    let n := d.bytes.length
    let m := ceilDiv n 64 * 64
    if size < n then
      if d.type ≠ 0 then ringTakes size off live room ds else decide (1 ≤ room) && ringTakes size off live (room - 1) ds
    else if size < off + n then
      let skipped := live ++ [(0, off, size - off)]
      decide (2 ≤ room) && dataRoom live off (size - off) && dataRoom skipped 0 n
        && ringTakes size (m % size) (skipped ++ [(0, 0, m)]) (room - 2) ds
    else decide (1 ≤ room) && dataRoom live off n && ringTakes size ((off + m) % size) (live ++ [(0, off, m)]) (room - 1) ds

/-- A ring has room for every item it holds (R386). -/
def State.ringRoom (s : State) (r : Nat) : Bool :=
  let x := s.ringRt r
  let free := 2 ^ s.entLog r - (s.bar (barProd r) 0 + 4294967296 - s.bar (barCons r) 0) % 4294967296
  ringTakes (2 ^ s.dataLog r) x.offset x.live free x.queue

/-- XOFF for a ring ends once it has room for the items it holds (R386). -/
def State.easeRing (s : State) (r : Nat) : State := (s.setRing r { s.ringRt r with full := (s.ringRt r).full && !s.ringRoom r }).portalXoffMoves

/-- DELIVERY_WRITE (R384, R386): the first item of a ring's queue is written, preceded by a SKIP entry when it does not fit before the end of the
data area, or waits for room; an item longer than the data area is discarded, a record with a LOSS entry in its place. -/
def deliveryWrite (r : Nat) (s : State) : State :=
  let x := s.ringRt r
  match x.queue with
  | [] => s
  | d :: ds =>
    let size := 2 ^ s.dataLog r
    let n := d.bytes.length
    if !s.prt.linkUp || !s.ringEnabled r then (s.setRing r { x with queue := ds }).undelivered
    else if size < n then
      let loss : Delivery := { d with type := 4, bytes := [], sheaf := none, id := 0, own := none }
      let s := s.undelivered
      if d.type ≠ 0 then s.setRing r { x with queue := ds }
      else if s.entryRoom r then (s.setRing r { x with queue := ds }).writeEntry r loss x.offset 0 []
      else s.setRing r { x with queue := loss :: ds }
    else if !s.ringFits r d then s.ringFull r
    else if size < x.offset + n then
      let s := s.writeEntry r { type := 3, ring := r, bytes := [] } x.offset (size - x.offset) []
      s.setRing r { s.ringRt r with offset := 0 }
    else
      let s := s.setRing r { x with queue := ds, offset := (x.offset + ceilDiv n 64 * 64) % size }
      (((s.writeEntry r d x.offset n d.bytes).ackOwn d).closeOld r).easeRing r
def execDeliveryWrite (t : Nat) (ring : Fin 8) (s : State) : Host.Outcome State Fault Refusal := .next (deliveryWrite ring (s.at_ t))

/-- MSIX_MOD_TIMEOUT (R385): MOD[31:16] µs have elapsed since the first entry not yet signalled. -/
def msixModTimeout (r : Nat) (s : State) : State :=
  let x := s.ringRt r
  if x.unsignalled ≠ 0 && decide (x.firstUnsignalled + usec (bits (s.bar (barMod r) 0) 31 16) ≤ s.time) then
    (s.setRing r { x with unsignalled := 0 }).signal r
  else s
def execMsixModTimeout (t : Nat) (ring : Fin 8) (s : State) : Host.Outcome State Fault Refusal := .next (msixModTimeout ring (s.at_ t))

/-! ### BAR0 (R382) -/

/-- CONS_WRITE (R384, R386): the entries below CONS are freed; XOFF ends when the ring has room for the items it holds. -/
def consWrite (r v : Nat) (s : State) : State :=
  let s := s.setBar (barCons r) 0 v
  let x := s.ringRt r
  (s.setRing r { x with live := x.live.filter (fun e => decide ((e.1 + 4294967296 - v) % 4294967296 < 2147483648)) }).easeRing r
def execConsWrite (t : Nat) (ring : Fin 8) (value : Word) (s : State) : Host.Outcome State Fault Refusal :=
  .next (consWrite ring value.toNat (s.at_ t))

/-- CTRL_WRITE (R382, R386): enabling a ring sets its PROD to 0; the items a disabled ring holds are discarded. -/
def ctrlWrite (r v : Nat) (s : State) : State :=
  let was := s.ringEnabled r
  let s := s.setBar (barCtrl r) 0 (v % 2)
  if v % 2 = 1 && !was then (s.setBar (barProd r) 0 0).setRing r { queue := (s.ringRt r).queue }
  else if v % 2 = 0 then
    let n := (s.ringRt r).queue.length
    let s := s.setRing r { s.ringRt r with queue := [], full := false }
    ((List.range n).foldl (fun s _ => s.undelivered) s).portalXoffMoves
  else s
def execCtrlWrite (t : Nat) (ring : Fin 8) (value : Word) (s : State) : Host.Outcome State Fault Refusal :=
  .next (ctrlWrite ring value.toNat (s.at_ t))

/-- The command ring's registers (Table 11-18). -/
def barCmdSize : Nat := 0x18
def barCmdCtrl : Nat := 0x1C
def barCmdTail : Nat := 0x20
def barCmdHead : Nat := 0x24

/-- CMD_TAIL_WRITE and CMD_CTRL_WRITE (R382, R383). -/
def cmdTailWrite (v : Nat) (s : State) : State := s.setBar barCmdTail 0 v
def execCmdTailWrite (t : Nat) (value : Word) (s : State) : Host.Outcome State Fault Refusal := .next (cmdTailWrite value.toNat (s.at_ t))
def cmdCtrlWrite (v : Nat) (s : State) : State := s.setBar barCmdCtrl 0 (v % 2)
def execCmdCtrlWrite (t : Nat) (value : Word) (s : State) : Host.Outcome State Fault Refusal := .next (cmdCtrlWrite value.toNat (s.at_ t))

/-- The reset value of a BAR0 register that is not 0 (Table 11-18). -/
def barReset (off : Nat) : Nat :=
  if off = barCmdSize then 4
  else if 0x100 ≤ off && off < 0x300 && (off - 0x100) % 64 = 0x18 then 6
  else if 0x100 ≤ off && off < 0x300 && (off - 0x100) % 64 = 0x1C then 16
  else 0

/-- A base or size register: of the command ring, or of delivery ring r (R382). -/
def isCmdBase (off : Nat) : Bool := off == 0x10 || off == 0x14 || off == 0x18
def isRingBase (off : Nat) : Bool := decide (0x100 ≤ off) && decide (off < 0x300) && decide ((off - 0x100) % 64 < 0x20)

/-- BAR0_REGISTER_WRITE (R382): a write to a register that has a row of its own acts as that row; a base or size register of an enabled ring
ignores it, as do read-only and unlisted offsets. -/
def barWrite (off v : Nat) (s : State) : State :=
  if off % 4 ≠ 0 then s
  else if off = barCmdTail then cmdTailWrite v s
  else if off = barCmdCtrl then cmdCtrlWrite v s
  else if isCmdBase off then (if bitOf (s.bar barCmdCtrl 0) 0 then s else s.setBar off (barReset off) v)
  else if off = 0x28 || off = 0x2C then s.setBar off 0 v
  else if isRingBase off then
    let r := (off - 0x100) / 64
    if s.ringEnabled r && ((off - 0x100) % 64 < 0x10 || 0x18 ≤ (off - 0x100) % 64) then s else s.setBar off (barReset off) v
  else if 0x100 ≤ off && off < 0x300 then
    let r := (off - 0x100) / 64
    if (off - 0x100) % 64 = 0x20 then consWrite r v s
    else if (off - 0x100) % 64 = 0x28 then s.setBar off 0 v
    else if (off - 0x100) % 64 = 0x2C then ctrlWrite r v s
    else s
  else if 0x2000 ≤ off && off < 0x2400 then s.setBar off 0 v
  else s
def execBar0RegisterWrite (t : Nat) (offset : BitVec 16) (value : Word) (s : State) : Host.Outcome State Fault Refusal :=
  .next (barWrite offset.toNat value.toNat (s.at_ t))

/-- What BAR0 reads as at an offset (R382): DEV_STATE follows the state; offsets not listed read 0.  The revision is that of IDENT, left open. -/
def State.readBar (s : State) (off : Nat) : Nat :=
  if off = 0 then 0x51200000 + Config.revision % 65536
  else if off = 4 then b2n (s.portActive s.ringLink) + 2 * b2n (s.rdN P.TB_STATE == 3)
  else if off = barCmdCtrl || off = barCmdTail || off = barCmdHead || isCmdBase off || off = 0x28 || off = 0x2C then s.bar off (barReset off)
  else if 0x100 ≤ off && off < 0x300 && (off - 0x100) % 64 < 0x30 then s.bar off (barReset off)
  else if 0x2000 ≤ off && off < 0x2400 then s.bar off 0
  else 0

/-! ### The command ring (R383) -/

/-- The TARGET a packet names (Table 2-1). -/
def packetTarget (bs : List Byte) : Nat := bits (word64 bs 0) 43 32

/-- The CRC-32C of a packet holds (R32). -/
def packetCrcGood (bs : List Byte) : Bool := recordCrcGood bs

/-- A portal issues a packet of its host (R33, R43, R359): it executes what is addressed to it, and both dies send the rest to the
link die for its ring port (R19, R395). -/
def State.issue (s : State) (packet : List Byte) : State :=
  let target := packetTarget packet
  let id := s.rdN P.SYS_NODE_ID
  let auth := s.mgt.session.isSome
  let f : Frame := { ftype := 0, origin := id, dest := target, prio := 0, auth, payload := packet }
  if target = 0 then s.inboxAdd .host id auth packet
  else if target = 0xFFF then
    let s := s.inboxAdd .host id auth packet
    if packetCrcGood packet then s.emit (.frame s.ringLink f) else s
  else if target = id then s.inboxAdd .host id auth packet
  else s.emit (.frame s.ringLink f)

/-- COMMAND_RING_FETCH (R383): the portal fetches the next entry and its packet, advances CMD_HEAD, signals vector 8 and issues the packet; an entry
with a length outside 20–4,100 or with reserved bits set is skipped. -/
def commandRingFetch (e1 : Nat) (packet : List Byte) (s : State) : State :=
  let size := 2 ^ max 4 (min 12 (s.bar barCmdSize 4))
  let head := s.bar barCmdHead 0
  if !s.prt.portal || !s.prt.linkUp || !bitOf (s.bar barCmdCtrl 0) 0 || head % size = s.bar barCmdTail 0 % size then s
  else
    let s := ((s.setBar barCmdHead 0 ((head + 1) % size)).writeBack 0x28 ((head + 1) % size)).signal 8
    let len := bits e1 15 0
    if len < 20 || 4100 < len || bits e1 63 16 ≠ 0 then s.prtStatus 10
    else s.issue (padTo len (packet.take len))
def execCommandRingFetch (t : Nat) (_entry0 entry1 : BitVec 64) (packet : List Byte) (s : State) : Host.Outcome State Fault Refusal :=
  .next (commandRingFetch entry1.toNat packet (s.at_ t))

/-! ### The PCI Express link (R2, R381, R386) -/

/-- A session is logged as opened or closed (Table 15-12); the spec gives the cause no encoding (log 3, log 58). -/
def State.logSession (s : State) (x : Session) : State :=
  let (cause, s) := s.takeFree
  s.logEvent 0x1104 0 1 (x.portal + 65536 * x.key) cause.toNat

/-- The session of a portal closes (R475). -/
def State.closeSession (s : State) : State := match s.mgt.session with
  | none => s
  | some x => ({ s with mgt := { s.mgt with session := none } }).logSession x

/-- PCIE_LINK_UP (R381): PRT_LINK reports the rate and width, and delivery resumes. -/
def pcieLinkUp (rate width : Nat) (s : State) : State :=
  if !s.prt.portal then s
  else
    let s := { s with prt := { s.prt with linkUp := true } }
    (s.wrN P.PRT_LINK (128 + 16 * rate + width)).putBit P.PRT_STATUS 9 true
def execPcieLinkUp (t : Nat) (rate : Fin 8) (width : Fin 16) (s : State) : Host.Outcome State Fault Refusal :=
  .next (pcieLinkUp rate width (s.at_ t))

/-- Every item the rings hold is discarded (R386). -/
def State.dropRing (s : State) (r : Nat) : State :=
  let n := (s.ringRt r).queue.length
  let s := s.setRing r { s.ringRt r with queue := [], full := false }
  (List.range n).foldl (fun s _ => s.undelivered) s
def State.dropRings (s : State) : State := (List.range 8).foldl State.dropRing s

/-- PCIE_LINK_DOWN (R2, R386, R475): held items are discarded, the session closes, PRT_STATUS[8] is set. -/
def pcieLinkDown (s : State) : State :=
  if !s.prt.linkUp then s
  else
    let s := s.prtStatus 8
    let s := { s with prt := { s.prt with linkUp := false } }
    let s := ((s.wrN P.PRT_LINK 0).putBit P.PRT_STATUS 9 false).dropRings
    s.closeSession.portalXoffMoves
def execPcieLinkDown (t : Nat) (s : State) : Host.Outcome State Fault Refusal := .next (pcieLinkDown (s.at_ t))

/-- FUNCTION_LEVEL_RESET (R381, R387, R475): every ring is disabled and BAR0 returns to its reset values; the item being written is lost. -/
def functionLevelReset (s : State) : State :=
  if !s.prt.portal then s
  else
    let s := s.dropRings
    let s := { s with prt := { s.prt with bar0 := [], rings := [] } }
    s.closeSession.portalXoffMoves
def execFunctionLevelReset (t : Nat) (s : State) : Host.Outcome State Fault Refusal := .next (functionLevelReset (s.at_ t))

end Sys2Proof.Machine
end

