-- ==== Sys2Proof/Machine/Mgt.lean ====
section
/-! DEFINITION. Meanings of the management rows (chapter 15): sessions, the event log, event counters, firmware, keys, attestation. -/

namespace Sys2Proof.Machine

/-! ### Operator keys (R474, R476, R477) -/

def State.keySlot (s : State) (k : Nat) : KeySlot := Sparse.get {} s.mgt.keys k
def State.setKeySlot (s : State) (k : Nat) (x : KeySlot) : State := s.setMgt { s.mgt with keys := Sparse.set {} s.mgt.keys k x }

/-- MGT_KEY_STATE of a slot: 0 free, 1 enrolled, 2 revoked. -/
def KeySlot.state (x : KeySlot) : Nat := if x.revoked then 2 else if x.enrolled then 1 else 0
def State.keyState (s : State) (k : Nat) : Nat := (s.keySlot k).state
def State.enrolledAny (s : State) : Bool := [0, 1, 2, 3].any (fun k => s.keyState k == 1)

/-- The module's serial number (Table 15-8). -/
def serialBytes : List Byte := leBytes 8 Config.serial

/-! ### Sessions (R474, R475) -/

def State.lockedOut (s : State) : Bool := match s.mgt.lockedUntil with
  | some t => decide (s.time < t)
  | none => false

/-- A MGT.OPEN is refused with AUTH: counted, and the third in a row locks the opcode out for 60 s. -/
def State.failOpen (s : State) (h : Hdr) : State :=
  let n := s.mgt.authFails + 1
  let s := (s.setBit P.MGT_STATUS 2).logEvent 0x1105 0 1 0x80 h.tag.toNat
  if 3 ≤ n then s.setMgt { s.mgt with authFails := 0, lockedUntil := some (s.time + secs 60) } else s.setMgt { s.mgt with authFails := n }

/-- The bytes of a challenge nonce (log 24). -/
def nonceBytes (i : Nat) : List Byte := (List.range 32).map (Config.nonceByte i)

/-- The message a RESPONSE signs: nonce, serial, node ID and lifetime. -/
def State.responseDigest (s : State) (nonce lifetime : Nat) : Nat :=
  Config.shake64 (nonceBytes nonce ++ serialBytes ++ leBytes 2 (s.rdN P.SYS_NODE_ID) ++ leBytes 4 lifetime)

/-- A session opens, in place of one that is open. -/
def State.openSession (s : State) (key lifetime : Nat) : State :=
  let x : Session := { portal := s.rdN P.SYS_NODE_ID, key, until_ := s.time + secs lifetime }
  (s.setMgt { s.mgt with session := some x, nonce := none, authFails := 0 }).logSession x

/-- MGT.OPEN CHALLENGE. -/
def openChallenge (p : List Word) (s : State) : State × Answer :=
  if p.length ≠ 1 || word p 0 ≠ 0 then refuse s stBadParam
  else if s.lockedOut then refuse s stLocked
  else
    let i := s.mgt.nonceCount
    okay (s.setMgt { s.mgt with nonce := some (i, s.time + secs 10), nonceCount := i + 1 }) (wordsOf (nonceBytes i))

/-- The nonce held, while it is valid (log 43). -/
def State.heldNonce (s : State) : Option Nat := match s.mgt.nonce with
  | some (i, t) => if s.time < t then some i else none
  | none => none

/-- MGT.OPEN RESPONSE (log 43). -/
def openResponse (h : Hdr) (p : List Word) (s : State) : State × Answer :=
  let key := bits (word p 0) 7 4
  let lifetime := word p 1
  let sig := (bytesOf (p.drop 2)).take 3309
  let unsigned := key == 15
  if (if unsigned then p.length ≠ 2 else p.length ≠ 830) || 256 ≤ word p 0 || bits (word p 0) 3 1 ≠ 0 || (!unsigned && word p 829 / 256 ≠ 0) then
    refuse s stBadParam
  else if lifetime < 60 || 86400 < lifetime || (3 < key && !unsigned) || (unsigned && s.enrolledAny) || (!unsigned && s.keyState key ≠ 1) then
    refuse s stRange
  else if s.lockedOut then refuse s stLocked
  else match s.heldNonce with
    | none => refuse (s.failOpen h) stAuth
    | some n =>
      if unsigned || Config.keyVerifies (s.keySlot key).key (s.responseDigest n lifetime) sig then okay (s.openSession key lifetime)
      else refuse (s.failOpen h) stAuth

/-- MGT.OPEN (R474, Table 15-7): only the receiving portal executes it, by TARGET 0x000. -/
def mgtOpenBody (h : Hdr) (p : List Word) (s : State) : State × Answer :=
  if h.target ≠ 0 || p.length = 0 then refuse s stBadParam
  else if word p 0 % 2 = 0 then openChallenge p s
  else openResponse h p s
def execMgtOpenChallenge (h : Hdr) (p : List Word) (s : State) : Host.Outcome State Fault Refusal :=
  .next (s.receive 0x80 h p (mgtOpenBody h (forceMode p 0 1 0)))
def execMgtOpenResponse (h : Hdr) (p : List Word) (s : State) : Host.Outcome State Fault Refusal :=
  .next (s.receive 0x80 h p (mgtOpenBody h (forceMode p 0 1 1)))

/-- MGT_CLOSE (R475). -/
def mgtCloseBody (p : List Word) (s : State) : State × Answer := if p.length ≠ 0 then refuse s stBadParam else okay s.closeSession
def execMgtClose (h : Hdr) (p : List Word) (s : State) : Host.Outcome State Fault Refusal := .next (s.receive 0x81 h p (mgtCloseBody p))

/-- NONCE_EXPIRY (R474): 10 s after the CHALLENGE. -/
def nonceExpiry (s : State) : State := match s.mgt.nonce with
  | some (_, t) => if t ≤ s.time then s.setMgt { s.mgt with nonce := none } else s
  | none => s
def execNonceExpiry (t : Nat) (s : State) : Host.Outcome State Fault Refusal := .next (nonceExpiry (s.at_ t))

/-- SESSION_EXPIRY (R475): the end of LIFETIME. -/
def sessionExpiry (s : State) : State := match s.mgt.session with
  | some x => if x.until_ ≤ s.time then s.closeSession else s
  | none => s
def execSessionExpiry (t : Nat) (s : State) : Host.Outcome State Fault Refusal := .next (sessionExpiry (s.at_ t))

/-- OPEN_LOCKOUT_END (R474): 60 s after the third AUTH refusal. -/
def openLockoutEnd (s : State) : State := match s.mgt.lockedUntil with
  | some t => if t ≤ s.time then s.setMgt { s.mgt with lockedUntil := none } else s
  | none => s
def execOpenLockoutEnd (t : Nat) (s : State) : Host.Outcome State Fault Refusal := .next (openLockoutEnd (s.at_ t))

/-! ### The event log (R481, R482) -/

/-- An entry goes to the persistent log: severity ERROR or FAULT, and all of block 0x11. -/
def LogEntry.persists (e : LogEntry) : Bool := decide (2 ≤ e.severity) || e.code / 256 == 0x11

/-- An entry enters the SRAM log, which holds the latest 8,192. -/
def State.appendLog (s : State) (e : LogEntry) : State × LogEntry :=
  let seq := s.rdN P.MGT_LOG_SEQ
  let e := { e with seq }
  let log := s.mgt.log ++ [e]
  ((s.setMgt { s.mgt with log := log.drop (log.length - 8192) }).wrN P.MGT_LOG_SEQ (seq + 1), e)

/-- At most 64 entries a second are persisted; the first beyond is recorded by an entry of code 0x1108 (R481; log 59). -/
def State.writeLog (s : State) (e : LogEntry) : State :=
  let (s, e) := s.appendLog e
  if !e.persists then s
  else
    let second := s.now / 1000000000
    let count := if s.mgt.persistSecond = second then s.mgt.persistCount else 0
    if count < 64 then
      s.setMgt { s.mgt with persistSecond := second, persistCount := count + 1, persistWait := s.mgt.persistWait ++ [e] }
    else
      let s := (s.setMgt { s.mgt with persistSecond := second, persistCount := count + 1 }).setBit P.MGT_STATUS 5
      if count = 64 then (s.appendLog { code := 0x1108, unit := 0, severity := 1, time := s.now, data0 := e.seq, data1 := 0 }).1 else s

/-- Events of a slot reach the log when the slot is processed: those before an instant in ns (R481). -/
def State.flushLog (s : State) (before : Nat) : State :=
  let due := s.mgt.logWait.filter (fun e => decide (e.time < before))
  let s := s.setMgt { s.mgt with logWait := s.mgt.logWait.filter (fun e => !decide (e.time < before)) }
  due.foldl State.writeLog s

/-- LOG_PERSIST (R481, R484): with the flash idle, the next entry is written to both devices; a full log first loses its oldest sector of 2,048. -/
def logPersist (s : State) : State := match s.mgt.persistWait with
  | [] => s
  | e :: rest =>
    if !s.mgt.ops.isEmpty then s
    else
      let old := if 16384 ≤ s.mgt.persistLog.length then s.mgt.persistLog.drop 2048 else s.mgt.persistLog
      s.setMgt { s.mgt with persistWait := rest, persistLog := old ++ [{ e with persisted := true }]
                            log := s.mgt.log.map (fun x => if x.seq = e.seq then { x with persisted := true } else x) }
def execLogPersist (t : Nat) (s : State) : Host.Outcome State Fault Refusal := .next (logPersist (s.at_ t))

/-- The eight data words of an entry (Table 15-11). -/
def LogEntry.words (e : LogEntry) : List Word :=
  [BitVec.ofNat 32 (32 * b2n e.persisted + 64 * e.severity + 256 * e.unit + 65536 * e.code), BitVec.ofNat 32 e.seq,
   lo32 e.time, hi32 e.time, lo32 e.data0, hi32 e.data0, lo32 e.data1, hi32 e.data1]

/-- MGT_LOG (R482); of an empty log the oldest SEQ held is left open. -/
def mgtLogBody (p : List Word) (s : State) : State × Answer :=
  let count := bits (word p 1) 6 0
  if p.length ≠ 2 || 512 ≤ word p 1 || bitOf (word p 1) 7 then refuse s stBadParam
  else if count = 0 then refuse s stRange
  else
    let log := if bitOf (word p 1) 8 then s.mgt.persistLog else s.mgt.log
    let es := (log.filter (fun e => decide (word p 0 ≤ e.seq))).take count
    match log with
    | [] => let (v, s) := s.takeFree; okay s [0, v]
    | e :: _ => okay s ([BitVec.ofNat 32 es.length, BitVec.ofNat 32 e.seq] ++ es.flatMap LogEntry.words)
def execMgtLog (h : Hdr) (p : List Word) (s : State) : Host.Outcome State Fault Refusal := .next (s.receive 0x82 h p (mgtLogBody p))

/-! ### Event counters (R483) -/

/-- A selection or a clear waits for the next slot boundary. -/
def State.queueSelect (s : State) (c : Nat) (source : Option Nat) : State := s.setMgt { s.mgt with selects := s.mgt.selects ++ [(c, source)] }

/-- At a slot boundary selections take effect and clear their counters, and the dies' counts are exchanged. -/
def State.applySelect (s : State) (x : Nat × Option Nat) : State :=
  let counters := Sparse.erase (Sparse.erase s.mgt.counters x.1) (64 + x.1)
  let selectors := match x.2 with
    | some v => Sparse.set 0 s.mgt.selectors x.1 v
    | none => s.mgt.selectors
  s.setMgt { s.mgt with counters, selectors }
def State.publishCounter (s : State) (c : Nat) : State :=
  let a := Sparse.get 0 s.mgt.counters c
  let b := Sparse.get 0 s.mgt.counters (64 + c)
  (s.wr64 (P.MGT_CNT_A (2 * c)) a).wr64 (P.MGT_CNT_B (2 * c)) b
def State.exchangeCounters (s : State) : State :=
  let s := (List.range 64).foldl State.publishCounter s
  let s' := s.mgt.selects.foldl State.applySelect (s.setMgt { s.mgt with selects := [] })
  s.mgt.selects.foldl (fun s x => s.publishCounter x.1) s'

/-- The counters a MGT.CNT names. -/
def namedCounters (p : List Word) : List Nat := (List.range (bits (word p 0) 19 14 + 1)).map (· + bits (word p 0) 13 8)

/-- MGT.CNT (R483). -/
def mgtCntBody (p : List Word) (s : State) : State × Answer :=
  let mode := bits (word p 0) 1 0
  let cs := namedCounters p
  if p.length ≠ 2 || 1048576 ≤ word p 0 || bits (word p 0) 7 2 ≠ 0 || 65536 ≤ word p 1 then refuse s stBadParam
  else if mode = 3 || 64 < bits (word p 0) 13 8 + cs.length || (mode = 1 && !Params.selectorGood (word p 1)) then refuse s stRange
  else if mode = 0 then
    okay s (cs.flatMap (fun c => [s.rd (P.MGT_CNT_A (2 * c)), s.rd (P.MGT_CNT_A (2 * c + 1)), s.rd (P.MGT_CNT_B (2 * c)), s.rd (P.MGT_CNT_B (2 * c + 1))]))
  else if mode = 1 then okay (cs.foldl (fun s c => (s.wrN (P.MGT_CNT_SEL c) (word p 1)).queueSelect c (some (word p 1))) s)
  else okay (cs.foldl (fun s c => s.queueSelect c none) s)
def execMgtCntRead (h : Hdr) (p : List Word) (s : State) : Host.Outcome State Fault Refusal :=
  .next (s.receive 0x83 h p (mgtCntBody (forceMode p 0 2 0)))
def execMgtCntSelect (h : Hdr) (p : List Word) (s : State) : Host.Outcome State Fault Refusal :=
  .next (s.receive 0x83 h p (mgtCntBody (forceMode p 0 2 1)))
def execMgtCntClear (h : Hdr) (p : List Word) (s : State) : Host.Outcome State Fault Refusal :=
  .next (s.receive 0x83 h p (mgtCntBody (forceMode p 0 2 2)))

/-! ### Flash contents and images (R467, R468) -/

def imageBase : Nat := 0x10000
def keyBase : Nat := 0x01130000
def imageSize : Nat := 16777216
def keySize : Nat := 262144

def Flash.read (x : Flash) (a n : Nat) : List Byte := (List.range n).map (fun i => Sparse.get 0xFF x.bytes (a + i))
/-- Bytes programmed: programming only clears bits. -/
def programAt (m : List (Nat × Byte)) : Nat → List Byte → List (Nat × Byte)
  | _, [] => m
  | a, b :: bs => programAt (Sparse.set 0xFF m a (Sparse.get 0xFF m a &&& b)) (a + 1) bs
def eraseSector (m : List (Nat × Byte)) (a : Nat) : List (Nat × Byte) := m.filter (fun e => e.1 / 65536 != a / 65536)

/-- The image header's fields (Table 15-3). -/
def Flash.header (x : Flash) (w : Nat) : Nat := leNat (x.read (imageBase + 8 * w) 8)
def Flash.svn (x : Flash) : Nat := if x.factory then x.boot.svn else bits (x.header 1) 63 32
def Flash.version (x : Flash) : Nat := if x.factory then x.boot.version else bits (x.header 1) 31 0
def Flash.revoke (x : Flash) : Nat := if x.factory then 0 else bits (x.header 2) 3 0
def Flash.digest (x : Flash) : Nat := if x.factory then x.boot.digest else Config.shake64 (x.read imageBase 128)

/-- The image of a device verifies (R468); the one written at manufacture does, under release key 0 (log 45). -/
def State.imageVerifies (s : State) (d : Nat) : Bool :=
  let x := s.flash d
  let key := if x.factory then 0 else bits (x.header 0) 1 0
  let bodyLen := bits (x.header 2) 63 32
  let good := x.factory || (bits (x.header 0) 63 32 == 0x49474D46 && bits (x.header 0) 31 16 == 0
    && Config.releaseKeyVerifies key x.digest (x.read (imageBase + 128) 3309)
    && Config.shake64 (x.read (imageBase + 4096) bodyLen) == leNat (x.read (imageBase + 32) 64))
  good && !bitOf s.mgt.relkeyRevoked key && decide (s.mgt.arb ≤ x.svn)

/-! ### MGT.FW.WRITE and MGT.FW.COMMIT (R472, R473, R476) -/

def State.running_ (s : State) : Nat := s.rdN P.MGT_BOOT_IMAGE

def mgtFwWriteBody (h : Hdr) (p : List Word) (s : State) : State × Answer :=
  let area := word p 0 % 4
  let erase := bitOf (word p 0) 2
  let offset := word p 1
  let len := word p 2
  if p.length < 3 || 8 ≤ word p 0 || 4 * p.length ≠ 12 + len then refuse s stBadParam
  else if area = 3 || offset % 256 ≠ 0 || (erase && offset % 65536 ≠ 0) || len < 256 || 3840 < len || len % 256 ≠ 0
    || (if area = 2 then keySize else imageSize) < offset + len then refuse s stRange
  else if area = s.running_ || s.committing then refuse s stLocked
  else (s.queueFlash (.write h p), .later none)
/-- MGT_FW_WRITE (R472, Table 15-5). -/
def execMgtFwWrite (h : Hdr) (p : List Word) (s : State) : Host.Outcome State Fault Refusal := .next (s.receive 0x84 h p (mgtFwWriteBody h p))

/-- A device after a write, and whether it reads back what was written. -/
def Flash.write (x : Flash) (erase : Bool) (a : Nat) (bs : List Byte) : Flash × Bool :=
  let m := if erase then eraseSector x.bytes a else x.bytes
  let m := programAt m a bs
  let y := { x with bytes := m }
  (y, y.read a bs.length == bs)

/-- FW_WRITE_COMPLETE (R472): the bytes are programmed and read back. -/
def fwWriteComplete (good : Bool) (s : State) : State := match s.mgt.ops.head? with
  | some (.write h p) =>
    let area := word p 0 % 4
    let erase := bitOf (word p 0) 2
    let bs := bytesOf (p.drop 3)
    let a := (if area = 2 then keyBase else imageBase) + word p 1
    let one := fun (s : State) (d : Nat) => let r := (s.flash d).write erase a bs; (s.setFlash d { r.1 with factory := r.1.factory && area == 2 }, r.2)
    let (s, ok) := if area = 2 then (let r := one s 0; let q := one r.1 1; (q.1, r.2 && q.2)) else one s area
    (s.endFlash).finish 0x84 h (if good && ok then stOk else stInternal) []
  | _ => s
def execFwWriteComplete (t : Nat) (readBackGood : Bool) (s : State) : Host.Outcome State Fault Refusal := .next (fwWriteComplete readBackGood (s.at_ t))

/-- MGT.FW.COMMIT (R473); a calibration store that runs refuses MODE 0 (Table 13-10; log 114). -/
def mgtFwCommitBody (h : Hdr) (p : List Word) (s : State) : State × Answer :=
  let mode := word p 0 % 4
  let area := bits (word p 0) 2 2
  if p.length ≠ 1 || 8 ≤ word p 0 then refuse s stBadParam
  else if mode = 3 || (mode = 1 && s.rdN P.MGT_BOOT_STATE ≠ bootTrial) then refuse s stRange
  else if mode = 0 && (area = s.running_ || s.rdN P.CAL_STATE = 4) then refuse s stLocked
  else (s.queueFlash (.commit h mode area), .later none)
/-- MGT_FW_COMMIT (R473). -/
def execMgtFwCommitCommit (h : Hdr) (p : List Word) (s : State) : Host.Outcome State Fault Refusal :=
  .next (s.receive 0x85 h p (mgtFwCommitBody h (forceMode p 0 2 0)))
def execMgtFwCommitConfirm (h : Hdr) (p : List Word) (s : State) : Host.Outcome State Fault Refusal :=
  .next (s.receive 0x85 h p (mgtFwCommitBody h (forceMode p 0 2 1)))
def execMgtFwCommitKeys (h : Hdr) (p : List Word) (s : State) : Host.Outcome State Fault Refusal :=
  .next (s.receive 0x85 h p (mgtFwCommitBody h (forceMode p 0 2 2)))

/-- An entry of a key block: slot, and the public key to enrol or none to revoke. -/
structure KeyEntry where
  slot : Nat
  key : Option (List Byte)
  deriving DecidableEq, Repr

/-- The entries of a key block from an address on, and the address after them. -/
def keyEntries (x : Flash) : Nat → Nat → List KeyEntry × Nat
  | 0, a => ([], a)
  | n + 1, a =>
    let w := leNat (x.read a 4)
    if bitOf w 8 then let r := keyEntries x n (a + 4); ({ slot := w % 4, key := none } :: r.1, r.2)
    else let r := keyEntries x n (a + 1956); ({ slot := w % 4, key := some (x.read (a + 4) 1952) } :: r.1, r.2)

/-- The states of the slots after an entry, none where it enrols a slot that is not free (log 43). -/
def keyStep (st : Option (List Nat)) (e : KeyEntry) : Option (List Nat) := match st with
  | none => none
  | some ks => match e.key with
    | some _ => if ks.getD e.slot 0 = 0 then some (ks.set e.slot 1) else none
    | none => some (ks.set e.slot 2)

/-- An entry is applied to the fuses; revoking the session's key closes it (R475). -/
def State.applyKey (s : State) (e : KeyEntry) : State :=
  let x := s.keySlot e.slot
  let s := s.logEvent 0x1103 0 1 2 e.slot
  match e.key with
  | some k => s.setKeySlot e.slot { x with enrolled := true, digest := Config.shake32 k, key := k }
  | none =>
    let s := s.setKeySlot e.slot { x with revoked := true }
    match s.mgt.session with
    | some y => if y.key = e.slot then s.closeSession else s
    | none => s

/-- The outcome of a KEYS commit (R476): a status, and the state. -/
def State.commitKeys (s : State) : State × Nat :=
  let x := s.flash 0
  let w := leNat (x.read keyBase 4)
  let signer := w % 16
  let count := bits w 7 4
  let (es, end_) := keyEntries x count (keyBase + 4)
  let signed := if signer = 15 then !s.enrolledAny
    else s.keyState signer == 1 && decide (signer < 4)
      && Config.keyVerifies (s.keySlot signer).key (Config.shake64 (x.read keyBase (end_ - keyBase))) (x.read end_ 3309)
  if w / 256 ≠ 0 || count = 0 || 4 < count then (s, stRange)
  else if !signed then (s.setBit P.MGT_STATUS 2, stAuth)
  else match es.foldl keyStep (some ([0, 1, 2, 3].map s.keyState)) with
    | none => (s, stRange)
    | some ks => if ks.any (fun k => k == 1) then (es.foldl State.applyKey s, stOk) else (s, stRange)

/-- FW_COMMIT_COMPLETE (R473): the operation takes effect and the final reply is sent. -/
def fwCommitComplete (s : State) : State := match s.mgt.ops.head? with
  | some (.commit h 0 area) =>
    if !s.imageVerifies area then s.endFlash.finish 0x85 h stRange []
    else
      let x := s.flash area
      let bseq := ((s.flash s.running_).boot.bseq + 1) % 4294967296
      let boot : BootRecord := { bseq, state := bootTrial, attempt := true, svn := x.svn, version := x.version, digest := x.digest, valid := true }
      let s := (s.setFlash area { x with boot, written := false }).logEvent 0x1103 0 1 0 bseq
      s.endFlash.finish 0x85 h stOk [BitVec.ofNat 32 bseq]
  | some (.commit h 1 _) =>
    let d := s.running_
    let x := s.flash d
    let s := s.setFlash d { x with boot := { x.boot with state := bootConfirmed }, written := false }
    let arb := max s.mgt.arb x.boot.svn
    let s := s.setMgt { s.mgt with arb, relkeyRevoked := s.mgt.relkeyRevoked ||| x.revoke }
    let s := ((s.wrN P.MGT_BOOT_STATE bootConfirmed).wrN P.MGT_ARB_COUNT arb).logEvent 0x1103 0 1 1 x.boot.bseq
    s.endFlash.finish 0x85 h stOk [BitVec.ofNat 32 arb]
  | some (.commit h _ _) => let (s, st) := s.commitKeys; s.endFlash.finish 0x85 h st []
  | _ => s
def execFwCommitComplete (t : Nat) (s : State) : Host.Outcome State Fault Refusal := .next (fwCommitComplete (s.at_ t))

/-! ### Boot (R470, R471, R476) -/

/-- A TRIAL record whose boot has been attempted is rewritten FAILED. -/
def State.failTrial (s : State) (d : Nat) : State :=
  let x := s.flash d
  if x.boot.valid && x.boot.state = bootTrial && !x.boot.attempt then
    ((s.setFlash d { x with boot := { x.boot with state := bootFailed } }).setBit P.MGT_STATUS 1).logEvent 0x1102 0 2 x.boot.bseq x.boot.version
  else s

/-- A device's record takes part in the selection, and its image verifies with the record's digest. -/
def State.bootable (s : State) (d : Nat) : Bool :=
  let x := s.flash d
  x.boot.valid && (x.boot.state == bootTrial || x.boot.state == bootConfirmed) && s.imageVerifies d && x.digest == x.boot.digest

/-- The device selected: the bootable one of later BSEQ, modulo 2^32. -/
def State.bootChoice (s : State) : Option Nat :=
  let later := ((s.flash 1).boot.bseq + 4294967296 - (s.flash 0).boot.bseq) % 4294967296
  if s.bootable 0 && s.bootable 1 then some (if later ≠ 0 && later < 2147483648 then 1 else 0)
  else if s.bootable 0 then some 0
  else if s.bootable 1 then some 1
  else none

/-- The operator keys of the store whose digests match their slots' fuses (R476). -/
def State.loadKeys (s : State) : State :=
  let x := s.flash 0
  let es := (keyEntries x (min 4 (bits (leNat (x.read keyBase 4)) 7 4)) (keyBase + 4)).1
  [0, 1, 2, 3].foldl (fun s k =>
    let slot := s.keySlot k
    let key := es.filterMap (fun e => if e.slot = k then e.key else none) |>.find? (fun key => Config.shake32 key == slot.digest)
    if slot.enrolled then s.setKeySlot k { slot with key := key.getD [] } else s) s

/-- BOOT_IMAGE_SELECT (R470): the boot ROMs select, verify and load an image; with none, no firmware runs (log 4). -/
def State.bootSelect (s : State) : State :=
  let s := (s.failTrial 0).failTrial 1
  match s.bootChoice with
  | none => { s with pwr := { s.pwr with firmware := false } }
  | some d =>
    let x := s.flash d
    let trial := x.boot.state == bootTrial
    let s := s.setFlash d { x with boot := { x.boot with attempt := x.boot.attempt && !trial } }
    let s := if trial then s else s.setMgt { s.mgt with arb := max s.mgt.arb x.boot.svn, relkeyRevoked := s.mgt.relkeyRevoked ||| x.revoke }
    let s := ((s.wrN P.MGT_FW_VERSION x.boot.version).wrN P.MGT_FW_SVN x.boot.svn).wrN P.MGT_BOOT_IMAGE d
    let s := (s.wrN P.MGT_BOOT_STATE x.boot.state).wrN P.MGT_ARB_COUNT s.mgt.arb
    let s := s.logEvent 0x1101 0 0 (x.boot.bseq + 4294967296 * d) (x.boot.version + 4294967296 * x.boot.svn)
    ({ s with pwr := { s.pwr with firmware := true } }).loadKeys

/-! ### Attestation (R479) -/

/-- Data words 0 to 35 of a measurement (Table 15-9). -/
def State.measurement (s : State) (nonce : List Word) : List Word :=
  let x := s.flash s.running_
  let keys := ([0, 1, 2, 3].map (fun k => s.keyState k * 4 ^ k)).sum
  nonce ++ [lo32 Config.serial, hi32 Config.serial, BitVec.ofNat 32 (s.rdN P.SYS_NODE_ID + 4096 * b2n s.prt.portal), lo32 s.now, hi32 s.now,
    s.rd P.MGT_FW_VERSION, s.rd P.MGT_FW_SVN,
    BitVec.ofNat 32 (s.mgt.arb + 256 * s.running_ + 512 * x.boot.state + 2048 * s.mgt.relkeyRevoked + 32768 + 65536 * keys
      + 16777216 * b2n s.mgt.session.isSome)]
    ++ wordsOf (leBytes 64 x.boot.digest)
    ++ [s.rd P.CAL_SLOT_SEQ, s.rd P.CAL_SLOT_IN_FORCE, s.rd P.SYS_EPOCH, s.rd P.REC_RUN]

/-- ATTEST (R479): MEASURE replies later, once the signature is made; one at a time (log 44). -/
def attestMeasure (h : Hdr) (p : List Word) (s : State) : State × Answer :=
  if p.length ≠ 9 then refuse s stBadParam
  else if s.mgt.attest.isSome then refuse s stBusy
  else (s.setMgt { s.mgt with attest := some (h, s.measurement (p.drop 1), s.time) }, .later none)

/-- One part of the certificate. -/
def attestCert (p : List Word) (s : State) : State × Answer :=
  if p.length ≠ 1 then refuse s stBadParam
  else
    let c := Config.certificate
    let part := if bitOf (word p 0) 1 then c.drop 4000 else c.take 4000
    okay s ([BitVec.ofNat 32 c.length, BitVec.ofNat 32 part.length] ++ wordsOf part)
def attestBody (h : Hdr) (p : List Word) (s : State) : State × Answer :=
  if p.length = 0 || 4 ≤ word p 0 then refuse s stBadParam else if word p 0 % 2 = 0 then attestMeasure h p s else attestCert p s
def execAttestMeasure (h : Hdr) (p : List Word) (s : State) : Host.Outcome State Fault Refusal :=
  .next (s.receive 0x86 h p (attestBody h (forceMode p 0 1 0)))
def execAttestCert (h : Hdr) (p : List Word) (s : State) : Host.Outcome State Fault Refusal :=
  .next (s.receive 0x86 h p (attestBody h (forceMode p 0 1 1)))

/-- ATTEST_SIGNATURE_DONE (R479): the final reply, with the signature over data words 0 to 35 (log 44). -/
def attestSignatureDone (s : State) : State := match s.mgt.attest with
  | none => s
  | some (h, ws, _) =>
    let sig := padTo 3312 ((Config.identitySign (Config.shake64 (bytesOf ws))).take 3309)
    (s.setMgt { s.mgt with attest := none }).finish 0x86 h stOk (ws ++ wordsOf sig)
def execAttestSignatureDone (t : Nat) (s : State) : Host.Outcome State Fault Refusal := .next (attestSignatureDone (s.at_ t))

end Sys2Proof.Machine
end

