-- ==== Sys2Proof/Machine/Compare.lean ====
section
/-! DEFINITION. The comparator, mismatches, the decision of the link die, switch-over and die states (R395 to R412). -/

namespace Sys2Proof.Machine

/-! ### What is compared (R395, R402, R414) -/

/-- A die takes part in the comparison: IN_STEP, or SYNCING from the boundary of R413 on (log 54). -/
def State.compares (s : State) (d : Nat) : Bool :=
  s.dieState d == dieInStep || (s.dieState d == dieSyncing && (s.die d).syncFrom.isSome && decide (ns (s.die d).compareFrom ≤ s.time))

/-- Both dies' items are compared: at least one die is IN_STEP and the other takes part. -/
def State.comparing (s : State) : Bool := s.running && s.compares 0 && s.compares 1

/-- Items leave the claim gate, in their order. -/
def State.releaseAll (s : State) (xs : List HeldItem) : State :=
  xs.foldl (fun s x => ({ s with red := { s.red with passed := max s.red.passed (x.order + 1) } }).release x.item) s

/-- What the link die holds of a die is released, in its order. -/
def State.releaseHeld (s : State) (d : Nat) : State := (s.setDie d { s.die d with held := [] }).releaseAll (s.die d).held

/-- What the link die holds of both dies is discarded. -/
def State.discardHeld (s : State) : State := (s.setDie 0 { s.die 0 with held := [] }).setDie 1 { s.die 1 with held := [] }

/-! ### Mismatch (R396, R398, R403, R417) -/

def kindDiff : Nat := 1
def kindIncomplete : Nat := 2
def kindMissing : Nat := 3
def kindDigest : Nat := 4
def kindAlarm : Nat := 5
def kindFeCtrl : Nat := 6
def kindTimeout : Nat := 7

/-- A mismatch is detected: release stops, it is counted and timed, and both dies are sent a MISMATCH item (R403); a second one during arbitration joins the first (R417; log 52). -/
def State.mismatch (s : State) (kind slot : Nat) (checks : Two (Option Nat) := ⟨none, none⟩) : State :=
  if s.red.mismatch.isSome || !s.comparing then s
  else
    let s := { s with red := { s.red with mismatch := some { kind, slot, at_ := s.time, checks } } }
    (((s.setBit P.RED_STATUS 0).addSat P.RED_MISMATCH_COUNT 1).wr64 (P.RED_LAST_MISMATCH 0) s.now).send 4 (.mismatch kind slot)

/-- A pair of copies is judged by Table 12-1: the mismatch kind and the check that attributes a die, or none when the pair is released (log 18). -/
def judgePair (x y : HeldItem) : Option (Nat × Two (Option Nat)) :=
  if x.incomplete == y.incomplete then
    if x.flaw == y.flaw then none
    else match x.item with
      | .digest .. => some (kindDigest, ⟨none, none⟩)
      | _ => some (kindDiff, ⟨none, none⟩)
  else some (kindIncomplete, if x.incomplete then ⟨some 4, none⟩ else ⟨none, some 4⟩)

/-- A slot whose digests agree leaves no evidence behind (R403). -/
def State.clearEvidence (s : State) : State := (s.setDie 0 { s.die 0 with evidence := 0 }).setDie 1 { s.die 1 with evidence := 0 }

/-- The sources whose marker is missing from both dies in a slot; they are reported in the event log as they become so, under a code and a severity that
the spec does not give (Tables 12-1, 12-9; log 18). -/
def State.reportSources (s : State) (slot : Nat) : State :=
  let missing := [0, 1, 2, 3, 4].filter (fun src => (s.die 0).missing.contains (slot, src) && (s.die 1).missing.contains (slot, src))
  let new := missing.filter (fun src => !s.red.faulty.contains src)
  new.foldl (fun s src =>
    let (a, s) := s.takeFree
    let (b, s) := s.takeFree
    s.logEvent (0x0E00 + a.toNat % 256) (if src = 4 then 7 else 1 + src) (b.toNat % 4) slot src) { s with red := { s.red with faulty := missing } }

/-- A pair is released: the copy of the die that holds the winning claim.  With the digest of a slot the sources that both dies miss are reported. -/
def State.releasePair (s : State) (x : HeldItem) : State :=
  let s := s.releaseAll [x]
  match x.item with
  | .digest slot _ _ _ _ => s.clearEvidence.reportSources slot
  | _ => s

/-- The die whose items of a slot pass the claim gate (R19, R408). -/
def State.gateOf (s : State) (slot : Nat) : Nat := if slot < s.red.gate.1 then s.red.gate.2 else s.active

/-- A copy of die d meets its partner in what is held of the other die, or is held itself. -/
def State.compareItem (s : State) (d : Nat) (x : HeldItem) : State :=
  let o := 1 - d
  match (s.die o).held.find? (fun y => y.order == x.order) with
  | none => s.setDie d { s.die d with held := (s.die d).held ++ [{ x with arrivedAt := s.time }] }
  | some y =>
    let (a, b) := if d = 0 then (x, y) else (y, x)
    match judgePair a b with
    | none =>
      let s := s.setDie o { s.die o with held := (s.die o).held.filter (fun z => z.order != x.order) }
      s.releasePair (if s.gateOf x.slot = 0 then a else b)
    | some (kind, checks) =>
      let s := s.setDie d { s.die d with held := (s.die d).held ++ [{ x with arrivedAt := s.time }] }
      s.mismatch kind x.slot checks

/-- The next item of a die reaches the link die (R395, R402, R414). -/
def State.takeItem (s : State) (d : Nat) (x : HeldItem) : State :=
  if !s.compares d || x.order < s.red.passed then s
  else if !s.comparing then (if s.dieState d = dieInStep then s.releaseAll [x] else s)
  else if x.unchecked && decide (d ≠ s.gateOf x.slot) then s
  else if x.unchecked && s.red.mismatch.isNone then s.releaseAll [x]
  else if s.red.mismatch.isSome then s.setDie d { s.die d with held := (s.die d).held ++ [{ x with arrivedAt := s.time }] }
  else s.compareItem d x

/-! ### Die states (R401) -/

def State.setDieState (s : State) (d n : Nat) : State := s.wrN (P.RED_DIE_STATE d) n

/-- A die leaves IN_STEP: FORCED of it ends, and nothing is compared with it any more (R402, R409). -/
def State.leaveStep (s : State) (d : Nat) : State :=
  let s := { s with red := { s.red with forced := if s.red.forced = some d then none else s.red.forced
                                        forcedNext := if s.red.forcedNext = some d then none else s.red.forcedNext } }
  s.setDie d { s.die d with held := [], out := [], syncFrom := none, syncStore := false, syncRing := false }

/-- A die starts the standby self-test (R412). -/
def State.startSelftest (s : State) (d : Nat) : State :=
  let s := (s.leaveStep d).setDie d { (s.leaveStep d).die d with testStart := s.time, retryAt := none }
  s.setDieState d dieSelftest

/-- A die enters OUT and from there SELFTEST at once (R401, R412). -/
def State.enterOut (s : State) (d : Nat) : State := (s.setDieState d dieOut).startSelftest d

/-- A die joins the streams of the other die where that one stands: items on the links and received, alarm flits, slot and markers (R413). -/
def State.joinStreams (s : State) (d : Nat) : State :=
  let copy := fun (m : List (Nat × List StreamItem)) =>
    [0, 1, 2, 3, 4].foldl (fun m src => Sparse.set [] m (8 * d + src) (Sparse.get [] m (8 * (1 - d) + src))) m
  let s := { s with link := { sent := copy s.link.sent, got := copy s.link.got, kept := s.link.kept.set d (s.link.kept.get (1 - d)) } }
  let s := { s with alm := { s.alm with flits := s.alm.flits.set d (s.alm.flits.get (1 - d)), passed := s.alm.passed.set d (s.alm.passed.get (1 - d)) } }
  s.setDie d { s.die d with slot := (s.die (1 - d)).slot, missing := (s.die (1 - d)).missing, late := (s.die (1 - d)).late }

/-- A die enters IN_STEP; a preferred die that came from SYNCING waits for RED_REVERT_HOLD (R408; log 56). -/
def State.enterStep (s : State) (d : Nat) (synced : Bool) : State :=
  let at_ := if synced then ns (boundaryFrom (s.now + 1000000 * s.rdN P.RED_REVERT_HOLD)) else 0
  (s.setDie d { s.die d with preferAt := at_, failures := 0 }).setDieState d dieInStep

/-! ### The decision (R404 to R407, R417) -/

/-- The records of a store not yet acknowledged, pushed again (R405 step 1). -/
def State.resendStore (s : State) (id : Nat) : State :=
  let es := (s.store id).entries.filter (fun e => !e.acked)
  es.foldl (fun s e => (s.pushAll (descriptorsOf s id e e.dir false)).addSat P.RED_RESENT 1) s

/-- The claim gate moves to a die: alarm flits that die has taken and the die before it has not are acted on now, so that the pins follow the new
die (R19, R446). -/
def State.moveGate (s : State) (d : Nat) : State :=
  let old := s.alm.flits.get s.active
  let new := s.alm.flits.get d
  let ahead := fun (src : Nat) =>
    let o := old.filter (fun x => x.1 == src)
    (o.take (o.length - (new.filter (fun x => x.1 == src)).length)).map Prod.snd
  let s := ({ s with red := { s.red with gate := (0, d) } }).wrN P.RED_ACTIVE d
  (alarmBatches ([0, 1, 2, 3, 4].flatMap ahead)).foldl State.matrixTake s

/-- The W1C bits that a snapshot cleared are set again. -/
def State.restoreW1c (s : State) (x : Snapshot) : State :=
  if !x.take.clear then s
  else x.par.foldl (fun s (kv : Nat × Word) => match Params.row kv.1 with
    | some r => (match r.access with
      | .w1c m => if bitOf x.mask (Params.blockOf kv.1) then s.wr kv.1 (s.rd kv.1 ||| (kv.2 &&& m)) else s
      | _ => s)
    | none => s) s

/-- The reply to a SNAP.TAKE has not left the node: no hop has acknowledged its record. -/
def State.replyHeld (s : State) (seq : Nat) : Bool :=
  s.mem.stores.any (fun x => x.2.entries.any (fun e => e.kind == 7 && e.run == s.rdN P.REC_RUN && e.seq == seq && !e.acked))

/-- The die that latched the snapshot has failed before the reply has left: the reply is withdrawn and the snapshot taken again at the next slot boundary,
with its ID (R30; log 12). -/
def State.repeatSnap (s : State) (failed : Nat) : State := match s.cmd.snap with
  | none => s
  | some x =>
    if x.die ≠ failed || !s.replyHeld x.reply || s.cmd.snapWait.isSome then s
    else
      let s := s.restoreW1c x
      let instant := boundaryAfter s.now
      let h := x.take.h
      let ours := fun (d : Descriptor) => d.kind == 7 && d.seq == x.reply
      let stores := s.mem.stores.map (fun y => (y.1, { y.2 with entries := y.2.entries.filter (fun e => !(e.kind == 7 && e.seq == x.reply)) }))
      let clp := { s.clp with fill := s.clp.fill.filter (fun d => !ours d), drain := s.clp.drain.filter (fun d => !ours d)
                              stalled := s.clp.stalled.filter (fun d => !ours d) }
      let kept := s.cmd.kept.filter (fun k => !(k.issuer == h.issuer.toNat && k.tag == h.tag.toNat))
      let s := { s with mem := { s.mem with stores }, clp, cmd := { s.cmd with kept, snap := none, snapWait := some { x.take with instant } } }
      let s := s.wrN P.SYS_SNAP_ID ((x.id + 65535) % 65536)
      s.hold 0x03 h [BitVec.ofNat 32 x.mask, BitVec.ofNat 32 (b2n x.take.clear)] (some instant) none

/-- A store in progress is written again by the new active die, from the erase, with its own second try (R439, R466). -/
def State.retryStore (s : State) : State := { s with cal := { s.cal with retried := false } }

/-- A switch-over (R405): the gate changes, held items are discarded, unacknowledged records are pushed again, and the announcements among the
discarded items are sent again. -/
def State.switchOver (s : State) (d : Nat) : State :=
  let announcements := ((s.die d).held.map (·.item)).filter (fun i => match i with
    | .frame _ f => f.ftype == 2
    | _ => false)
  let s := ((s.discardHeld.moveGate d).repeatSnap (1 - d)).setBit P.RED_STATUS 1
  let s := (s.addSat P.RED_SWITCH_COUNT 1).retryStore
  let s := (s.mem.stores.map Prod.fst).foldl State.resendStore s
  announcements.foldl (fun s i => s.emit i) s

/-- The decision is logged and shown (R404): kind, slot, die (0 none, 1 CD-A, 2 CD-B) and check (log 58). -/
def State.noteDecision (s : State) (kind slot die check : Nat) : State :=
  let (free, s) := s.takeFree
  let s := s.logEvent 0x0E01 0 2 (kind + 16 * slot) (die + 16 * check + 4294967296 * free.toNat)
  s.wrN P.RED_LAST_CAUSE (kind + 16 * die + 256 * check)

/-- An attributed die is dealt with: it keeps control with penalty 6 when no other die is IN_STEP (R407), else it enters OUT, with a switch-over
when it was active. -/
def State.attribute (s : State) (d : Nat) : State :=
  let o := 1 - d
  if s.dieState o ≠ dieInStep then
    let s := s.setDie d { s.die d with aloneFault := true }
    let s := (s.setBit P.RED_STATUS 5).releaseHeld d
    s.setDie o { s.die o with held := [] }
  else if s.active = d then (s.switchOver o).enterOut d
  else ((s.releaseHeld o).enterOut d)

/-- Two unresolved mismatches within RED_UNRES_WINDOW in which one die was active put penalty 7 on it (R404). -/
def State.noteUnresolved (s : State) (d : Nat) : State :=
  let recent := (s.die d).unresolved.filter (fun t => decide (s.time ≤ t + secs (s.rdN P.RED_UNRES_WINDOW)))
  s.setDie d { s.die d with unresolved := s.time :: recent, unresFault := (s.die d).unresFault || !recent.isEmpty }

/-- The link die decides the mismatch (R404): a die without a claim item is attributed and its claim counts as 0. -/
def State.decideMismatch (s : State) : State := match s.red.mismatch with
  | none => s
  | some m =>
    let claimOf := fun d => (m.claims.get d).getD 0
    let checkOf := fun d => match m.checks.get d with
      | some c => if c = 0 && (m.claims.get d).isNone then 7 else c
      | none => if (m.claims.get d).isNone then 7 else 0
    let timeout := fun d => decide ((m.checks.get d).getD 0 = 0) && (m.claims.get d).isNone
    let a := checkOf 0 != 0
    let b := checkOf 1 != 0
    let w := winnerOf (claimOf 0) (claimOf 1)
    let s := { s with red := { s.red with mismatch := none } }
    let s := if a && b then
        let keep := if s.dieState w = dieInStep then w else 1 - w
        let out := 1 - keep
        let s := s.noteDecision (if timeout out then kindTimeout else m.kind) m.slot (out + 1) (checkOf out)
        let s := s.attribute out
        let s := s.setDie keep { s.die keep with aloneFault := true }
        s.setBit P.RED_STATUS 5
      else if a || b then
        let out := if a then 0 else 1
        (s.noteDecision (if timeout out then kindTimeout else m.kind) m.slot (out + 1) (checkOf out)).attribute out
      else
        let s := (s.noteDecision m.kind m.slot 0 0).noteUnresolved s.active
        let s := (s.setBit P.RED_STATUS 3).addSat P.RED_UNRES_COUNT 1
        if w = s.active then (s.releaseHeld w).enterOut (1 - w) else (s.switchOver w).enterOut (1 - w)
    s.clearEvidence

/-! ### Alarm flits (R398) -/

/-- The source of an alarm event: 0 to 3 FE0 to FE3, 4 the link die. -/
def AlarmEvent.from_ : AlarmEvent → Nat
  | .source n _ _ => n / 128
  | _ => 4

/-- The link die compares the two dies' alarm flits of the slots before one: a slot in which they differ is a mismatch of kind ALARM. -/
def State.compareAlarms (s : State) (before : Nat) : State :=
  let a := s.alm.passed.get 0
  let b := s.alm.passed.get 1
  let of := fun (xs : List (Nat × AlarmEvent)) (k src : Nat) => xs.filter (fun x => x.1 == k && x.2.from_ == src)
  let differs := ((a ++ b).map Prod.fst).find? (fun k => decide (k < before) && [0, 1, 2, 3, 4].any (fun src => of a k src != of b k src))
  let later := fun (xs : List (Nat × AlarmEvent)) => xs.filter (fun x => decide (before ≤ x.1))
  let s := { s with alm := { s.alm with passed := ⟨later a, later b⟩ } }
  match differs with
  | some k => s.mismatch kindAlarm k
  | none => s

/-! ### Planned changes of winner (R408) -/

/-- The winner as the claims stand. -/
def State.winner (s : State) : Nat := winnerOf (s.claim 0) (s.claim 1)

/-- The claim gate follows the claims when both dies are IN_STEP and no mismatch is pending; control back at the preferred die after SYNCING is
shown. -/
def State.plannedWinner (s : State) : State :=
  let w := s.winner
  if s.red.mismatch.isSome || s.dieState 0 ≠ dieInStep || s.dieState 1 ≠ dieInStep || w = s.active then s
  else
    let old := s.active
    let s := s.moveGate w
    let s := { s with red := { s.red with gate := (s.red.slot, old) } }
    if w = s.rdN P.RED_PREF && (s.die w).preferAt ≠ 0 then s.setBit P.RED_STATUS 2 else s

end Sys2Proof.Machine
end

