-- ==== Sys2Proof/Machine/Red.lean ====
section
/-! DEFINITION. Meanings of the redundancy rows (chapter 12): comparison, arbitration, self-test, synchronisation, control items. -/

namespace Sys2Proof.Machine

/-! ### Commands (R409, R412, R420) -/

/-- RED_STATUS with its computed bits FORCED and SIMPLEX (R419). -/
def State.redStatusWord (s : State) : Nat :=
  let one := (s.dieState 0 == dieInStep) != (s.dieState 1 == dieInStep)
  s.rdN P.RED_STATUS ||| (16 * b2n one) ||| (256 * b2n s.red.forced.isSome)

/-- RED_STATUS (R420, Table 12-14). -/
def redStatusBody (p : List Word) (s : State) : State × Answer :=
  if p.length ≠ 0 then refuse s stBadParam
  else
    let w := BitVec.ofNat 32
    okay s [w (s.active + 256 * s.claim 0 + 65536 * s.claim 1 + 16777216 * s.dieState 0 + 134217728 * s.dieState 1),
      w s.redStatusWord, s.rd P.RED_SWITCH_COUNT, s.rd P.RED_MISMATCH_COUNT, s.rd (P.RED_LAST_MISMATCH 0), s.rd (P.RED_LAST_MISMATCH 1),
      s.rd P.RED_LAST_CAUSE]
def execRedStatus (h : Hdr) (p : List Word) (s : State) : Host.Outcome State Fault Refusal := .next (s.receive 0x60 h p (redStatusBody p))

/-- RED_ACTIVE as it will stand after the next slot boundary (R409). -/
def State.nextActive (s : State) : Nat :=
  if s.red.mismatch.isSome || s.dieState 0 ≠ dieInStep || s.dieState 1 ≠ dieInStep then s.active
  else ({ s with red := { s.red with forced := s.red.forcedNext } }).winner

/-- RED_SWITCH (R409): FORCED is given to the standby, or removed, from the next slot boundary. -/
def redSwitchBody (p : List Word) (s : State) : State × Answer :=
  if p.length ≠ 1 || 2 ≤ word p 0 then refuse s stBadParam
  else if word p 0 = 0 then
    let d := 1 - s.active
    if s.dieState d ≠ dieInStep then refuse s stLocked
    else
      let s := { s with red := { s.red with forcedNext := some d } }
      okay s [BitVec.ofNat 32 s.nextActive]
  else
    let s := { s with red := { s.red with forced := none, forcedNext := none } }
    okay s [BitVec.ofNat 32 s.nextActive]
def execRedSwitchMove (h : Hdr) (p : List Word) (s : State) : Host.Outcome State Fault Refusal :=
  .next (s.receive 0x61 h p (redSwitchBody (forceMode p 0 1 0)))
def execRedSwitchRelease (h : Hdr) (p : List Word) (s : State) : Host.Outcome State Fault Refusal :=
  .next (s.receive 0x61 h p (redSwitchBody (forceMode p 0 1 1)))

/-- RED_SELFTEST (R412): an IN_STEP standby or a FAILED die starts the self-test; a die already testing, or one that Table 12-4 gives no such
change, answers with its next result (log 55). -/
def redSelftestBody (h : Hdr) (p : List Word) (s : State) : State × Answer :=
  if p.length ≠ 1 || 4 ≤ word p 0 then refuse s stBadParam
  else if word p 0 = 3 then refuse s stRange
  else
    let d := if word p 0 = 2 then 1 - s.active else word p 0
    if d = s.active then refuse s stLocked
    else if (s.die d).testCmd.isSome then refuse s stBusy
    else
      let s := if s.dieState d = dieInStep || s.dieState d = dieFailed then s.startSelftest d else s
      (s.setDie d { s.die d with testCmd := some h }, .later none)
def execRedSelftest (h : Hdr) (p : List Word) (s : State) : Host.Outcome State Fault Refusal :=
  .next (s.receive 0x62 h p (redSelftestBody h p))

/-! ### Comparison and arbitration -/

/-- DIE_ITEM_COMPARE (R395, R396): the next item of a die reaches the link die. -/
def dieItemCompare (d : Nat) (s : State) : State := match (s.die d).out with
  | [] => s
  | x :: xs => (s.setDie d { s.die d with out := xs }).takeItem d x
def execDieItemCompare (t : Nat) (die : Fin 2) (s : State) : Host.Outcome State Fault Refusal := .next (dieItemCompare die (s.at_ t))

/-- COMPARE_WINDOW_TIMEOUT (R396): a copy has waited 4 µs for its partner; the silent die is attributed (log 53). -/
def compareWindowTimeout (s : State) : State :=
  let old := fun d => (s.die d).held.find? (fun x => decide (x.arrivedAt + usec 4 ≤ s.time))
  if s.red.mismatch.isSome then s
  else match (old 0, old 1) with
    | (some x, _) => s.mismatch kindMissing x.slot ⟨none, some 7⟩
    | (none, some x) => s.mismatch kindMissing x.slot ⟨some 7, none⟩
    | (none, none) => s
def execCompareWindowTimeout (t : Nat) (s : State) : Host.Outcome State Fault Refusal := .next (compareWindowTimeout (s.at_ t))

/-- ATTRIBUTION_CHECK (R403, Table 12-5): a die judges itself; `evidence` is what its checks 2 to 6 find, 0 for nothing, beside what the state holds. -/
def attributionCheck (d evidence : Nat) (s : State) : State := match s.red.mismatch with
  | none => s
  | some m =>
    let found := if evidence ≠ 0 then evidence else (s.die d).evidence
    let check := match m.checks.get d with
      | some c => if c ≠ 0 then c else found
      | none => found
    { s with red := { s.red with mismatch := some { m with checks := m.checks.set d (some check) } } }
def execAttributionCheck (t : Nat) (die : Fin 2) (evidence : Fin 8) (s : State) : Host.Outcome State Fault Refusal :=
  .next (attributionCheck die evidence (s.at_ t))

/-- A die sends nothing (Table 12-8 SILENT) (log 53). -/
def State.silent (s : State) (d : Nat) : Bool := s.red.injections.any (fun i => i.kind == 2 && i.die == d && decide (s.time < i.until_))

/-- CLAIM_ITEM_RECEIVE (R403, R404): the claim of a die that has run its checks arrives within 20 µs of detection; an attributed die reports
ROLE OUT. -/
def claimItemReceive (d : Nat) (s : State) : State := match s.red.mismatch with
  | none => s
  | some m => match m.checks.get d with
    | none => s
    | some c =>
      if s.silent d || m.at_ + usec 20 < s.time then s
      else
        let claim := if c = 0 then s.claim d else s.health d
        let m := { m with claims := m.claims.set d (some claim) }
        let s := { s with red := { s.red with mismatch := some m } }
        if m.claims.a.isSome && m.claims.b.isSome then s.decideMismatch else s
def execClaimItemReceive (t : Nat) (die : Fin 2) (s : State) : Host.Outcome State Fault Refusal := .next (claimItemReceive die (s.at_ t))

/-- ARBITRATION_TIMEOUT (R404): 20 µs after detection the link die decides. -/
def arbitrationTimeout (s : State) : State := match s.red.mismatch with
  | none => s
  | some m => if m.at_ + usec 20 ≤ s.time then s.decideMismatch else s
def execArbitrationTimeout (t : Nat) (s : State) : Host.Outcome State Fault Refusal := .next (arbitrationTimeout (s.at_ t))

/-- REVERT_HOLD_EXPIRY (R408): at a slot boundary RED_REVERT_HOLD after its entry, control returns to the preferred die. -/
def revertHoldExpiry (s : State) : State := if s.now % 1000 = 0 then s.plannedWinner else s
def execRevertHoldExpiry (t : Nat) (s : State) : Host.Outcome State Fault Refusal := .next (revertHoldExpiry (s.at_ t))

/-! ### Self-test and synchronisation (R401, R412 to R414) -/

/-- The final reply of a RED.SELFTEST that waits for a die. -/
def State.replySelftest (s : State) (d status : Nat) : State := match (s.die d).testCmd with
  | none => s
  | some h => (s.setDie d { s.die d with testCmd := none }).finish 0x62 h status [s.rd (P.RED_SELFTEST_RESULT d)]

/-- SELFTEST_COMPLETE (R401, R412): pass leads to SYNCING; a failure is retried after 1 s, and RED_RETRY_MAX in a row lead to FAILED. -/
def selftestComplete (d failed : Nat) (s : State) : State :=
  if s.dieState d ≠ dieSelftest || (s.die d).retryAt.isSome then s
  else
    let s := s.wrN (P.RED_SELFTEST_RESULT d) (2147483648 + failed)
    if failed = 0 then
      let s := s.setDie d { s.die d with failures := 0, syncFrom := none, syncStore := false, syncRing := false }
      (s.setDieState d dieSyncing).replySelftest d stOk
    else
      let n := (s.die d).failures + 1
      let s := s.setBit P.RED_STATUS 6
      let s := if s.rdN P.RED_RETRY_MAX ≤ n then (s.setDie d { s.die d with failures := 0 }).setDieState d dieFailed
        else s.setDie d { s.die d with failures := n, retryAt := some (s.time + secs 1) }
      s.replySelftest d stInternal
def execSelftestComplete (t : Nat) (die : Fin 2) (failed : BitVec 4) (s : State) : Host.Outcome State Fault Refusal :=
  .next (selftestComplete die failed.toNat (s.at_ t))

/-- SELFTEST_RETRY (R401): the test runs again 1 s after it failed. -/
def selftestRetry (d : Nat) (s : State) : State := match (s.die d).retryAt with
  | none => s
  | some at_ =>
    if s.dieState d = dieSelftest && decide (at_ ≤ s.time) then s.setDie d { s.die d with retryAt := none, testStart := s.time } else s
def execSelftestRetry (t : Nat) (die : Fin 2) (s : State) : Host.Outcome State Fault Refusal := .next (selftestRetry die (s.at_ t))

/-- The die that is SYNCING beside a die IN_STEP. -/
def State.syncing (s : State) : Option Nat :=
  if s.dieState 0 = dieSyncing && s.dieState 1 = dieInStep then some 0
  else if s.dieState 1 = dieSyncing && s.dieState 0 = dieInStep then some 1
  else none

/-- The three parts of R413 are complete: the die enters IN_STEP. -/
def State.endSync (s : State) (d : Nat) : State :=
  let x := s.die d
  if x.syncFrom.isSome && x.syncStore && x.syncRing then
    (s.setDie d { x with syncFrom := none, syncStore := false, syncRing := false }).enterStep d true
  else s

/-- The bytes of records that part 2 copies: those stored before the boundary of part 1 (R413). -/
def State.syncBytes (s : State) (d : Nat) : Nat :=
  ((s.mem.stores.flatMap (fun x => x.2.entries.filter (fun e => s.storedBefore d e.kind e.seq))).map (fun e => 64 * e.lines)).sum

/-- Whole per cents of a part. -/
def percent (a b : Nat) : Nat := if b ≤ a then 100 else 100 * a / b

/-- How long the copy of part 2 takes at RED_SYNC_RATE, and part 3 the deepest ring, in ns (R413). -/
def State.syncCopyNs (s : State) (d : Nat) : Nat := ceilDiv (1000 * s.syncBytes d) (s.rdN P.RED_SYNC_RATE)
def State.syncRingNs (s : State) : Nat := ((List.range 128).map s.ringDepth).foldl max 0

/-- RED_SYNC_PROGRESS: the part in force and its percentage (R414), that of part 1 left open. -/
def State.syncProgress (s : State) (d : Nat) : Nat :=
  if s.dieState d ≠ dieSyncing then 0
  else match (s.die d).syncFrom with
    | none => 256 + (Config.freeWord s.free).toNat % 101
    | some a =>
      if !(s.die d).syncStore then 512 + percent (s.now - a) (s.syncCopyNs d)
      else 768 + percent (s.now - a) s.syncRingNs

/-- SYNC_STATE_SENT (R413 part 1): the active die's state has reached the syncing die; its rings start afresh, and comparison begins at the next
slot boundary (log 56). -/
def syncStateSent (s : State) : State := match s.syncing with
  | none => s
  | some d =>
    if (s.die d).syncFrom.isSome then s
    else
      let copyMarks := fun (e : IndexEntry) => { e with marks := e.marks.set d (e.marks.get (1 - d)) }
      let stores := s.mem.stores.map (fun x => (x.1, { x.2 with entries := x.2.entries.map copyMarks }))
      let s := { s with mem := { s.mem with stores } }
      let seqs := (List.range 8).map (fun k => s.rdN (P.REC_SEQ k))
      (s.joinStreams d).setDie d { (s.joinStreams d).die d with syncFrom := some s.now, syncSeq := seqs, compareFrom := boundaryAfter s.now }
def execSyncStateSent (t : Nat) (s : State) : Host.Outcome State Fault Refusal := .next (syncStateSent (s.at_ t))

/-- A line of a record plot, or a word of the SRAM record area. -/
def State.inStore (s : State) (granary : Bool) (a : Nat) : Bool :=
  if granary then s.mem.plots.any (fun p => p.kind == 2 && decide (16384 * p.base ≤ a) && decide (a < 16384 * (p.base + p.size)))
  else decide (262144 ≤ a) && decide (a < 262144 + 8 * 30720)

/-- What a die holds otherwise than it should, with that of the store taken over from the other die. -/
def takeStore {α : Type} [DecidableEq α] (zero : α) (inside : Nat → Bool) (own other : List (Nat × α)) : List (Nat × α) :=
  (other.filter (fun x => inside x.1)).foldl (fun m x => Sparse.set zero m x.1 x.2) (own.filter (fun x => !inside x.1))

/-- SYNC_STORE_COPIED (R413 part 2): after the time RED_SYNC_RATE allows the record store of the syncing die holds what that of the active die holds,
and no error stands in its lines, since they have been written. -/
def syncStoreCopied (s : State) : State := match s.syncing with
  | none => s
  | some d =>
    if (s.die d).syncFrom.isNone || s.now < (s.die d).syncFrom.getD 0 + s.syncCopyNs d then s
    else
      let m := s.memDie d
      let o := s.memDie (1 - d)
      let granDiff := takeStore 0 (fun a => s.inStore true (a / 64)) m.granDiff o.granDiff
      let sramDiff := takeStore 0 (s.inStore false) m.sramDiff o.sramDiff
      let lines := m.lines.filter (fun x => !s.inStore true x.1)
      let words := m.words.filter (fun x => !s.inStore false x.1)
      let s := s.setMemDie d { m with lines, words, granDiff, sramDiff }
      (s.setDie d { s.die d with syncStore := true }).endSync d
def execSyncStoreCopied (t : Nat) (s : State) : Host.Outcome State Fault Refusal := .next (syncStoreCopied (s.at_ t))

/-- SYNC_RING_FILLED (R413 part 3, R414): the depth of every ring has passed since the boundary of part 1. -/
def syncRingFilled (s : State) : State := match s.syncing with
  | none => s
  | some d =>
    if (s.die d).syncFrom.isNone || s.now < (s.die d).syncFrom.getD 0 + s.syncRingNs then s
    else (s.setDie d { s.die d with syncRing := true }).endSync d
def execSyncRingFilled (t : Nat) (s : State) : Host.Outcome State Fault Refusal := .next (syncRingFilled (s.at_ t))

end Sys2Proof.Machine
end

