-- ==== Sys2Proof/Machine/Reading.lean ====
section
/-! DEFINITION. What a parameter reads as (R10, R50): its value held, or for what follows the state the value computed at the reading. -/

namespace Sys2Proof.Machine

/-- A plot's parameters at its ID, `none` for a free ID (R308). -/
def plotWord (x : Option Plot) (item : Nat) : Nat := match x with
  | none => 0
  | some p => if item = 0x0910 then p.kind else if item = 0x0911 then p.base else if item = 0x0912 then p.size else p.kinds

/-- The plot a group's ring lies in (R308). -/
def State.ringPlotId (s : State) (g : Nat) : Nat := match s.ringPlot g with
  | some p => p.id
  | none => 0xFF

/-- A slot of a group: 0 free, 1 capturing, 2 re-arming (R217, R234). -/
def State.slotState (s : State) (g i : Nat) : Nat := match Sparse.find? (s.run g).slots i with
  | none => 0
  | some x =>
    let e := x.instant + x.post
    if s.now < e then 1 else if s.now < e + 1000 * s.rdN (P.TRG_GRP_REARM g) then 2 else 0

/-- Seconds left of the session, rounded up (R475; log 60). -/
def State.sessionLeft (s : State) : Nat := match s.mgt.session with
  | some x => ceilDiv (x.until_ - s.time) 4096000000000
  | none => 0

/-- MGT_STATUS with the bits that show the state (Table 15-15). -/
def State.mgtStatusWord (s : State) : Nat :=
  s.rdN P.MGT_STATUS ||| b2n s.mgt.session.isSome ||| (8 * b2n s.lockedOut) ||| (16 * b2n (!s.enrolledAny))

/-- CLP_XOFF_TIME: how long the neighbour has held XOFF (R362). -/
def State.xoffTime (s : State) (p : Nat) : Nat :=
  let x := s.clp.ports.get p
  (x.xoffHeld + (if x.xoffIn = 0 then 0 else s.time - x.xoffSince)) / usec 1 % 4294967296

/-- CLP_DSP_STALL, with the stall that lasts (R372). -/
def State.stallTime (s : State) : Nat :=
  (s.rdN P.CLP_DSP_STALL + (if s.clp.stalled.isEmpty then 0 else (s.time - s.clp.stalledSince) / 4096)) % 4294967296

/-- Items whose value follows the state, with the number of their indices. -/
def computedItems : List (Nat × Nat) :=
  [(0x0104, 1), (0x0107, 1), (0x0313, 128), (0x0510, 2), (0x0511, 1), (0x0518, 1), (0x0631, 512), (0x0813, 1), (0x0900, 1), (0x0901, 1), (0x0902, 1), (0x0910, 16), (0x0911, 16),
   (0x0912, 16), (0x0913, 16), (0x0914, 128), (0x0915, 128), (0x0916, 128), (0x0920, 17), (0x0921, 17), (0x0922, 17), (0x0C18, 2), (0x0C23, 2), (0x0C24, 1), (0x0D14, 1), (0x0E11, 2), (0x0E12, 2),
   (0x0E14, 2), (0x0E15, 1), (0x0E1D, 2), (0x1106, 1), (0x1107, 4), (0x1108, 2), (0x1121, 1)]

/-- The value of a parameter computed from the state; none for one that is held. -/
def State.computed (s : State) (k : Nat) : Option Word :=
  let i := k % 65536
  let w := fun n => some (satWord n)
  match k / 65536 with
  | 0x0104 => w s.cmd.staged.length
  | 0x0107 => w s.cmd.outstanding.length
  | 0x0313 => some (s.rd k ||| (if s.skipDue i (s.now + 1) then 16 else 0))
  | 0x0510 => some (if i = 0 then lo32 s.now else hi32 s.now)
  | 0x0511 => w s.tbUncert
  | 0x0518 => some (hi32 s.now)
  | 0x0631 => w (s.slotState (i / 4) (i % 4))
  | 0x0813 => w s.codBacklog
  | 0x0900 => w 14540
  | 0x0901 => w s.granFree
  | 0x0902 => w s.granFreeLargest
  | 0x0910 => w (plotWord (s.plot? i) 0x0910)
  | 0x0911 => w (plotWord (s.plot? i) 0x0911)
  | 0x0912 => w (plotWord (s.plot? i) 0x0912)
  | 0x0913 => w (plotWord (s.plot? i) 0x0913)
  | 0x0914 => w (s.ringPlotId i)
  | 0x0915 => w (s.ringWords i / 128)
  | 0x0916 => w (s.ringDepth i / 1000)
  | 0x0920 => w (s.storeUsed i)
  | 0x0921 => w (s.storeUnack i)
  | 0x0922 => w (s.store i).entries.length
  | 0x0C18 => w (s.xoffTime i)
  | 0x0C23 => let x := s.clp.at_ s.cycle; w (if i = 0 then x.fill.length else x.drain.length)
  | 0x0C24 => w (s.stallTime)
  | 0x0D14 => w s.prt.tags.length
  | 0x0E11 => w (s.claim i)
  | 0x0E12 => w (s.health i)
  | 0x0E14 => w (s.penalties i)
  | 0x0E15 => w s.redStatusWord
  | 0x0E1D => w (s.syncProgress i)
  | 0x1106 => w s.sessionLeft
  | 0x1107 => w (s.keyState i)
  | 0x1108 => some (if i = 0 then lo32 Config.serial else hi32 Config.serial)
  | 0x1121 => w s.mgtStatusWord
  | _ => none

/-- What a parameter reads as (log 4, log 46). -/
def State.readNow (s : State) (k : Nat) : Word := (s.computed k).getD (s.rd k)

/-- The computed values that differ from what the parameter file holds, as a snapshot keeps them. -/
def State.computedAll (s : State) : List (Nat × Word) :=
  computedItems.flatMap (fun x => (List.range x.2).filterMap (fun i =>
    let k := 65536 * x.1 + i
    match s.computed k with
    | some v => if v = s.rd k then none else some (k, v)
    | none => none))

end Sys2Proof.Machine
end

