-- ==== Sys2Proof/Machine/Therm.lean ====
section
/-! DEFINITION. Meanings of the supply and temperature rows (R480, R490, R500 to R507): sensors, throttling, low-temperature and VAN stops, and the
orderly stop. -/

namespace Sys2Proof.Machine

/-! ### Module states (Table 16-5) -/

def pwrStarting : Nat := 0
def pwrInService : Nat := 1
def pwrThrottled : Nat := 2
def pwrStopping : Nat := 3

def State.pwrState (s : State) : Nat := s.rdN P.PWR_STATE
def State.setPwr (s : State) (x : PwrState) : State := { s with pwr := x }
def State.sensor (s : State) (i : Nat) : SensorRuntime := Sparse.get {} s.pwr.sensors i
def State.setSensor (s : State) (i : Nat) (x : SensorRuntime) : State := s.setPwr { s.pwr with sensors := Sparse.set {} s.pwr.sensors i x }
def State.fePower (s : State) (k : Nat) : FePower := Sparse.get {} s.pwr.fes k
def State.setFePower (s : State) (k : Nat) (x : FePower) : State := s.setPwr { s.pwr with fes := Sparse.set {} s.pwr.fes k x }
def State.groupsOf (k : Nat) : List Nat := (List.range 32).map (· + 32 * k)

/-! ### Thermal classes and levels (R500, R501) -/

/-- Throttle start S and orderly stop L of a sensor's class in m°C (Table 16-7); the crystal has none. -/
def classOf (i : Nat) : Option (Int × Int) :=
  if i < 6 then some (100000, 110000) else if i < 16 then some (95000, 105000) else none

/-- The trip temperature lies 5 °C above L. -/
def tripOf (i : Nat) : Option Int := (classOf i).map (fun c => c.2 + 5000)

/-- The sensors whose rate of rise is watched. -/
def watchedSensors : List Nat := [4, 6, 7]

/-- The level of a temperature, and the entry value of a level. -/
def levelOf (c : Int × Int) (t : Int) : Nat := if t < c.1 then 0 else min 7 (1 + (8 * (t - c.1) / (c.2 - c.1)).toNat)
def entryOf (c : Int × Int) (j : Nat) : Int := c.1 + ((j : Int) - 1) * (c.2 - c.1) / 8

/-- A sensor's level after a reading: it rises at once, and falls by one after 1 s more than 2 °C under its entry value (log 90). -/
def SensorRuntime.judge (x : SensorRuntime) (c : Int × Int) (t : Int) (now : Nat) : SensorRuntime :=
  let n := levelOf c t
  if x.level ≤ n then { x with level := n, belowSince := none }
  else if t < entryOf c x.level - 2000 then
    let since := x.belowSince.getD now
    if since + secs 1 ≤ now then
      let j := x.level - 1
      { x with level := j, belowSince := if 0 < j && decide (t < entryOf c j - 2000) then some now else none }
    else { x with belowSince := some since }
  else { x with belowSince := none }

def State.highest (s : State) (is : List Nat) : Nat := (is.map (fun i => (s.sensor i).level)).foldl max 0

/-- λ_FE(k), and λ_N, which is 7 during a rise event. -/
def State.levelFe (s : State) (k : Nat) : Nat := s.highest [8 + k, 12 + k]
def State.levelN (s : State) : Nat := if s.pwr.rise.isSome then 7 else s.highest [0, 1, 2, 3, 4, 5, 6, 7]
def State.throttled (s : State) : Bool := s.levelN != 0 || [0, 1, 2, 3].any (fun k => s.levelFe k != 0)

/-- The throttle values the levels call for (Table 16-8). -/
def State.throttleFor (s : State) : Throttle :=
  { divs := [0, 1, 2, 3].map (fun k => 1 + max (s.levelFe k) s.levelN), windrow := 1 + s.levelN, reduce := min 3 (ceilDiv s.levelN 2) }
/-- The throttle values in force. -/
def State.throttleNow (s : State) : Throttle :=
  { divs := [0, 1, 2, 3].map (fun k => s.rdN (P.ADC_THR_DIV k)), windrow := s.rdN P.TRG_WR_THR_DIV, reduce := s.rdN P.COD_THR_REDUCE }

/-- The levels are published, and a change of the throttle values waits for the next slot boundary (R502). -/
def State.noteLevels (s : State) : State :=
  let s := (s.wrN P.THM_LEVEL_N s.levelN).putBit P.THM_STATUS 0 s.throttled
  let s := [0, 1, 2, 3].foldl (fun s k => s.wrN (P.THM_LEVEL_FE k) (s.levelFe k)) s
  s.setPwr { s.pwr with throttle := if s.throttleFor = s.throttleNow then none else some s.throttleFor }

/-- The module's state follows the levels while it is in service (Table 16-5). -/
def State.followLevels (s : State) : State :=
  if s.pwrState = pwrInService || s.pwrState = pwrThrottled then s.wrN P.PWR_STATE (if s.throttled then pwrThrottled else pwrInService) else s

/-- THROTTLE_APPLY (R502, R125): at a slot boundary the decided values take effect, after a commit at the same boundary (R508). -/
def throttleApply (s : State) : State := match s.pwr.throttle with
  | none => s
  | some x =>
    if s.now % 1000 ≠ 0 || s.commitDue then s
    else
      let s := allGroups.foldl (fun s g => s.noteSkip g s.now) s
      let s := [0, 1, 2, 3].foldl (fun s k =>
        let d := x.divs.getD k 1
        let old := s.rdN (P.ADC_THR_DIV k)
        if d = old then s
        else ({ s with fe := { s.fe with thr := Sparse.put s.fe.thr k (s.now, old) } }).wrN (P.ADC_THR_DIV k) d) s
      let old := s.rdN P.TRG_WR_THR_DIV
      let s := if x.windrow = old then s else { s with trg := { s.trg with wrThr := (s.now, old) } }
      let s := (s.wrN P.TRG_WR_THR_DIV x.windrow).wrN P.COD_THR_REDUCE x.reduce
      (s.setPwr { s.pwr with throttle := none }).followLevels
def execThrottleApply (t : Nat) (s : State) : Host.Outcome State Fault Refusal := .next (throttleApply (s.at_ t))

/-! ### The orderly stop (R503 to R505) -/

/-- Since when the three conditions of R505 hold together. -/
def State.noteCool (s : State) : State :=
  let cool := fun (i : Nat) => match classOf i with
    | some c => decide ((s.rd (P.MGT_TEMP i)).toInt ≤ c.2 - 10000)
    | none => true
  let ok := s.pwr.rise.isNone && (List.range 16).all cool && [0, 1, 2, 3].all (fun k => !(s.fePower k).coldStop)
  s.setPwr { s.pwr with coolSince := if ok then some (s.pwr.coolSince.getD s.time) else none }

/-- A stop condition arises in service: STOPPING begins with its first step (R504; log 91). -/
def State.startStop (s : State) (lanes : Bool) : State :=
  if s.pwrState ≠ pwrInService && s.pwrState ≠ pwrThrottled then s
  else
    let s := s.setPwr { s.pwr with therm := true, stopSince := some s.time, stopLanes := lanes }
    let s := ((s.wrN P.PWR_STATE pwrStopping).setBit P.THM_STATUS 2).addSat P.THM_STOP_COUNT 1
    let s := { s with trg := { s.trg with events := s.trg.events ++ [.stop s.now] } }
    if s.calStateOf = calIdle || s.calStateOf = calStoring then s else s.abortCal

/-- Step 1 of R504 is done: the trigger step has stopped every group, and the captures it ended are built (log 91). -/
def State.stopActed (s : State) : Bool :=
  s.trg.captures.isEmpty && !s.trg.events.any (fun e => match e with
    | .stop _ => true
    | _ => false)

/-- The dispatch queue is empty and its records are acknowledged. -/
def State.drained (s : State) : Bool :=
  s.clp.fill.isEmpty && s.clp.drain.isEmpty && s.clp.stalled.isEmpty && s.mem.stores.all (fun x => x.2.entries.all (·.acked))

/-- Both ring ports go to FALLOW, where the stop arose in the lanes or the LK core. -/
def State.fallowPorts (s : State) : State :=
  [0, 1].foldl (fun s p => ((lanesOf p).foldl State.fallowLane s).notePort p) s

/-- Every group ceases, every source is released and every timed output disarmed (R504).  What VW_ACTIVE and COMPL_NOW read for a source released in
mid-sweep or at compliance the spec leaves open: they stay until VW_SWEEP_END and EXC_COMPLIANCE_CHANGE come (log 108). -/
def State.stopOutputs (s : State) : State :=
  let s := allGroups.foldl (fun s g => s.stopGroup g 3) s
  let s := (List.range 64).foldl (fun s k => s.setSource k { s.source k with released := true }) s
  (List.range 32).foldl (fun s i => if s.rdN (P.TMR_TPO_STATE i) = tpoIdle then s else s.disarmTpo i) s

/-- Steps 3 to 5 of R504, and STOPPED. -/
def State.completeStop (s : State) : State :=
  let s := s.stopOutputs.wrN P.PWR_STATE pwrStopped
  let s := (List.range 8).foldl State.driveLoop s
  let s := { s with mem := { s.mem with selfRefresh := true } }
  if s.pwr.stopLanes then s.fallowPorts else s

/-- STOP_DRAIN_END (R504): step 2 ends, and the rest of the stop follows. -/
def stopDrainEnd (s : State) : State := match s.pwr.stopSince with
  | none => s
  | some a =>
    let late := decide (a + msec (s.rdN P.THM_STOP_DRAIN) ≤ s.time)
    if s.pwrState = pwrStopping && ((s.stopActed && s.drained) || late) then s.completeStop else s
def execStopDrainEnd (t : Nat) (s : State) : Host.Outcome State Fault Refusal := .next (stopDrainEnd (s.at_ t))

/-- A group returns to the capture state it had at the stop, its ring started afresh. -/
def State.resumeGroup (s : State) (g : Nat) : State := match (s.run g).resume with
  | none => s
  | some st => ((s.setRun g { s.run g with resume := none, recordFrom := s.now, stopAfter := none }).wrN (P.TRG_GRP_STATE g) st).restartRing g s.now

/-- RESUME (R505): at a slot boundary, the conditions having held for THM_RESUME_HOLD. -/
def resume (s : State) : State := match s.pwr.coolSince with
  | none => s
  | some a =>
    if s.pwrState ≠ pwrStopped || s.rdN P.THM_AUTO_RESUME = 0 || s.now % 1000 ≠ 0 || s.time < a + secs (s.rdN P.THM_RESUME_HOLD) then s
    else
      let s := { s with mem := { s.mem with selfRefresh := false } }
      let s := [0, 1].foldl (fun s p => if s.portEnabled p && s.lnkPortState p = portFallow then s.wakePort p else s) s
      let s := allGroups.foldl (fun s g => s.unstopGroup g 3 s.now) s
      let s := allGroups.foldl State.resumeGroup s
      let s := s.setPwr { s.pwr with therm := false, stopSince := none, stopLanes := false }
      let s := (s.setBit P.THM_STATUS 3).wrN P.PWR_STATE (if s.throttled then pwrThrottled else pwrInService)
      (List.range 64).foldl State.steer s
def execResume (t : Nat) (s : State) : Host.Outcome State Fault Refusal := .next (resume (s.at_ t))

/-! ### Rise events (R503) -/

/-- RISE_EVENT_END: every watched rise has stayed at or below half of THM_RISE_MAX for THM_RESUME_HOLD. -/
def riseEventEnd (s : State) : State := match s.pwr.rise, s.pwr.calmSince with
  | some _, some c =>
    if c + secs (s.rdN P.THM_RESUME_HOLD) ≤ s.time then ((s.setPwr { s.pwr with rise := none }).noteLevels).noteCool else s
  | _, _ => s
def execRiseEventEnd (t : Nat) (s : State) : Host.Outcome State Fault Refusal := .next (riseEventEnd (s.at_ t))

/-- RISE_HOLD_EXPIRY: a rise event that has lasted THM_RISE_HOLD raises a stop condition. -/
def riseHoldExpiry (s : State) : State := match s.pwr.rise with
  | some a => if a + msec (s.rdN P.THM_RISE_HOLD) ≤ s.time then s.startStop s.pwr.riseLanes else s
  | none => s
def execRiseHoldExpiry (t : Nat) (s : State) : Host.Outcome State Fault Refusal := .next (riseHoldExpiry (s.at_ t))

/-! ### Low temperature (R507) -/

def State.anyCold (s : State) : Bool := [0, 1, 2, 3].any (fun k => (s.fePower k).coldStop)

/-- An analogue sensor of front end k has read a temperature, `old` being the value before. -/
def State.judgeCold (s : State) (k : Nat) (old t : Int) : State :=
  let x := s.fePower k
  let s := if t < -40000 && -40000 ≤ old then s.setBit P.THM_STATUS 5 else s
  let s := s.setFePower k { x with coldStop := x.coldStop || decide (t < -45000), warmSince := if -43000 ≤ t then some (x.warmSince.getD s.time) else none }
  if t < -45000 && !x.coldStop then ((State.groupsOf k).foldl (fun s g => s.stopGroup g 1) s).setBit P.THM_STATUS 6 else s

/-- LOW_TEMP_RELEASE: at a slot boundary, after 10 s at −43.0 °C or above. -/
def lowTempRelease (k : Nat) (s : State) : State :=
  let x := s.fePower k
  match x.warmSince with
  | none => s
  | some a =>
    if !x.coldStop || s.now % 1000 ≠ 0 || s.time < a + secs 10 then s
    else
      let s := s.setFePower k { x with coldStop := false }
      let s := (State.groupsOf k).foldl (fun s g => s.unstopGroup g 1 s.now) s
      (s.putBit P.THM_STATUS 6 s.anyCold).noteCool
def execLowTempRelease (t : Nat) (fe : Fin 4) (s : State) : Host.Outcome State Fault Refusal := .next (lowTempRelease fe (s.at_ t))

/-! ### Sensors (R480) -/

/-- The unit of a temperature sensor and of a voltage point in the event log (Tables 15-10, 15-11). -/
def tempUnit (i : Nat) : Nat :=
  if i < 2 then 5 else if i < 4 then 6 else if i < 6 then 7 else if i < 8 then 2 + i else if i < 16 then 1 + i % 4 else 0
def voltUnit (i : Nat) : Nat :=
  if i = 0 then 5 else if i = 1 then 6 else if i = 2 then 7 else if i < 7 then i - 2 else if i < 11 then i - 6 else if i < 14 then 0
  else if i < 18 then 8 else 9

/-- The rise of a sensor over the last second, with its history (R503): the reading 1 s ago, or the oldest held (log 90). -/
def riseOf (now : Nat) (t : Int) (hist : List (Nat × Int)) : Int × List (Nat × Int) :=
  let recent := hist.takeWhile (fun x => decide (now < x.1 + 1000000000))
  let kept := recent ++ (hist.drop recent.length).take 1
  (t - (match kept.getLast? with
    | some x => x.2
    | none => t), (now, t) :: kept)

/-- A temperature sensor has converted: a failed self-check shows 0x8000_0000 and is logged once, and leaves its level as it is (log 90). -/
def State.readTemp (s : State) (i : Nat) (r : Reading) : State :=
  let x := s.sensor i
  match r with
  | none =>
    let s := (s.setSensor i { x with failed := true }).wrN (P.MGT_TEMP i) 0x80000000
    if x.failed then s else s.logEvent 0x1106 (tempUnit i) 2 i 0
  | some t =>
    let old := if s.rd (P.MGT_TEMP i) = 0x80000000 then 0 else (s.rd (P.MGT_TEMP i)).toInt
    let s := s.wrI (P.MGT_TEMP i) t
    let s := if (s.rd (P.THM_PEAK i)).toInt < t then s.wrI (P.THM_PEAK i) t else s
    let (rise, history) := riseOf s.now t x.history
    let x := { x with failed := false, history := if watchedSensors.contains i then history else [] }
    let s := if watchedSensors.contains i then s.wrI (P.THM_RISE i) rise else s
    let s := s.setSensor i (match classOf i with
      | some c => x.judge c t s.time
      | none => x)
    if i = 16 then s.noteCrystal t
    else if 8 ≤ i && i < 12 then s.judgeCold (i - 8) old t
    else s

/-- A voltage point has converted; its failures share the sensor numbers from 32 on. -/
def State.readVolt (s : State) (i : Nat) (r : Reading) : State :=
  let x := s.sensor (32 + i)
  match r with
  | none =>
    let s := (s.setSensor (32 + i) { x with failed := true }).wrN (P.MGT_VOLT i) 0x80000000
    if x.failed then s else s.logEvent 0x1106 (voltUnit i) 2 (32 + i) 0
  | some v => (s.setSensor (32 + i) { x with failed := false }).wrI (P.MGT_VOLT i) v

/-- The rise event begins, and its end is timed (R503). -/
def State.judgeRise (s : State) : State :=
  let rise := fun i => (s.rd (P.THM_RISE i)).toInt
  let limit : Int := s.rdN P.THM_RISE_MAX
  let calm := watchedSensors.all (fun i => decide (2 * rise i ≤ limit))
  let s := s.setPwr { s.pwr with calmSince := if calm then some (s.pwr.calmSince.getD s.time) else none }
  if s.pwr.rise.isNone && watchedSensors.any (fun i => decide (limit < rise i)) then
    (s.setPwr { s.pwr with rise := some s.time, riseLanes := decide (limit < rise 4) }).setBit P.THM_STATUS 1
  else s

/-- A sensor stands at or above its L, and whether one of the lanes and LK core classes does. -/
def State.overLimit (s : State) (i : Nat) : Bool := match classOf i with
  | some c => !(s.sensor i).failed && decide (c.2 ≤ (s.rd (P.MGT_TEMP i)).toInt) && (s.rd (P.MGT_TEMP i)) != 0x80000000
  | none => false

/-- SENSOR_CONVERSION (R480, R501 to R507): every sensor's new value, and what the firmware decides on them. -/
def sensorConversion (temps volts : List Reading) (s : State) : State :=
  if !s.running then s
  else
    let s := (temps.take 17).zipIdx.foldl (fun s (r, i) => s.readTemp i r) s
    let s := (volts.take 22).zipIdx.foldl (fun s (r, i) => s.readVolt i r) s
    let s := s.putBit P.THM_STATUS 4 ([8, 9, 10, 11].any (fun i => !(s.sensor i).failed && decide ((s.rd (P.MGT_TEMP i)).toInt < -40000)))
    let s := s.judgeRise.noteLevels.noteCool
    if (List.range 16).any s.overLimit then s.startStop (s.overLimit 4 || s.overLimit 5) else s
def execSensorConversion (t : Nat) (temps volts : List Reading) (s : State) : Host.Outcome State Fault Refusal :=
  .next (sensorConversion temps volts (s.at_ t))

/-! ### Supplies (R490) -/

/-- RAIL_OUT_OF_WINDOW: a rail has stayed outside its window for 10 µs; the log entry's severity and data are left open. -/
def railOutOfWindow (rail : Nat) (high : Bool) (s : State) : State :=
  if !s.running || s.rdN (P.PWR_RAIL_STATE rail) ≠ 0 then s
  else
    let s := ((s.wrN (P.PWR_RAIL_STATE rail) (if high then 2 else 1)).addSat (P.PWR_RAIL_EVENTS rail) 1).setBit P.PWR_STATUS 1
    let (a, s) := s.takeFree
    let (b, s) := s.takeFree
    let (c, s) := s.takeFree
    s.logEvent (0x1200 + b.toNat % 256) (voltUnit rail) (a.toNat % 4) c.toNat 0
def execRailOutOfWindow (t : Nat) (rail : Fin 22) (high : Bool) (s : State) : Host.Outcome State Fault Refusal :=
  .next (railOutOfWindow rail high (s.at_ t))

/-- RAIL_BACK_IN_WINDOW. -/
def execRailBackInWindow (t : Nat) (rail : Fin 22) (s : State) : Host.Outcome State Fault Refusal := .next ((s.at_ t).wrN (P.PWR_RAIL_STATE rail) 0)

/-- VAN_STOP: VAN of a front end has stayed below 2.7 V for 10 µs. -/
def vanStop (k : Nat) (s : State) : State :=
  if !s.running || (s.fePower k).vanStop then s
  else
    let s := (s.setFePower k { s.fePower k with vanStop := true }).setBit P.PWR_STATUS 2
    (State.groupsOf k).foldl (fun s g => s.stopGroup g 2) s
def execVanStop (t : Nat) (fe : Fin 4) (s : State) : Host.Outcome State Fault Refusal := .next (vanStop fe (s.at_ t))

/-- VAN_STOP_RELEASE: at a slot boundary, VAN having stayed at 2.7 V or more for 10 ms. -/
def vanStopRelease (k : Nat) (s : State) : State :=
  if !(s.fePower k).vanStop || s.now % 1000 ≠ 0 then s
  else (State.groupsOf k).foldl (fun s g => s.unstopGroup g 2 s.now) (s.setFePower k { s.fePower k with vanStop := false })
def execVanStopRelease (t : Nat) (fe : Fin 4) (s : State) : Host.Outcome State Fault Refusal := .next (vanStopRelease fe (s.at_ t))

end Sys2Proof.Machine
end

