-- ==== Sys2Proof/Machine/Rst.lean ====
section
/-! DEFINITION. Meanings of the reset and start-up rows (R489 to R499, R506, R508): what each reset kind returns to its reset value and what it keeps,
the loading of the configuration, and the way to service. -/

namespace Sys2Proof.Machine

/-! ### What a reset keeps (R491, R492) -/

/-- A parameter value of the LK that a CONCENTRATOR reset leaves as it is: state of the time base, the lanes, positions on the ring and the PCI
Express link; counters and W1C bits are reset (R492). -/
def lkItems : List Nat :=
  [0x0500, 0x0503, 0x0504, 0x0505, 0x050C, 0x0511, 0x0512, 0x0513, 0x0514, 0x0515, 0x0516, 0x0517, 0x0518, 0x051A,
   0x0B10, 0x0B11, 0x0B12, 0x0B1B, 0x0B1C, 0x0B1D, 0x0C10, 0x0C11, 0x0D10]
/-- The RO bits of status words that show what the LK does now (Tables 6-11, 10-12, 11-23, 11-25). -/
def lkBits (k : Nat) : Nat := match k / 65536 with
  | 0x0501 => 0x61
  | 0x0B13 => 0xC20
  | 0x0C19 => 0x004
  | 0x0D19 => 0x200
  | _ => 0

/-- The parameters a CONCENTRATOR reset leaves. -/
def State.lkPar (s : State) : List (Nat × Word) :=
  s.par.foldl (fun m e =>
    if lkItems.contains (e.1 / 65536) then Sparse.set (Params.reset e.1) m e.1 e.2
    else if lkBits e.1 = 0 then m
    else Sparse.set (Params.reset e.1) m e.1 (BitVec.ofNat 32 (e.2.toNat &&& lkBits e.1))) []

/-- A comparator's analogue level and a module's presence are facts outside the units that are reset. -/
def TimingState.analogue (x : TimingState) : TimingState := { aboveU := x.aboveU, belowL := x.belowL }
def LanePort.module (x : LanePort) : LanePort := { present := x.present, cmis := x.cmis }
def Lane.module (x : Lane) : Lane := { modLos := x.modLos }
def analogueOf (m : List (Nat × TimingState)) : List (Nat × TimingState) := (m.map (fun x => (x.1, x.2.analogue))).filter (fun x => x.2 != {})

/-- Management state that survives: fuses, flash, the persistent log, the saved configuration. -/
def MgtState.kept (m : MgtState) : MgtState :=
  { flash := m.flash, keys := m.keys, relkeyRevoked := m.relkeyRevoked, arb := m.arb, saved := m.saved, persistLog := m.persistLog
    nonceCount := m.nonceCount }

/-- The device whose boot record a running commit writes. -/
def State.recordWritten (s : State) : Option Nat := match s.mgt.ops.head? with
  | some (.commit _ 0 area) => if s.imageVerifies area then some area else none
  | some (.commit _ 1 _) => some s.running_
  | _ => none

/-- The flash devices after a reset: one before a boot record is written leaves the record failing its CRC (R473; log 114). -/
def State.flashLeft (s : State) : Two Flash := match s.recordWritten with
  | some d => s.mgt.flash.set d { s.flash d with boot := { (s.flash d).boot with valid := false } }
  | none => s.mgt.flash

/-- Every unit of a reset of kind 0 to 2 at its reset value, with what R492 keeps; `lk` says that the LK is not reset. -/
def State.cleared (s : State) (lk : Bool) : State :=
  { pending := s.pending, free := s.free
    time := if lk then s.time else 0
    par := if lk then s.lkPar else []
    cmd := { replies := s.cmd.replies }
    clp := if lk then { ports := s.clp.ports } else {}
    prt := { written := s.prt.written, writebacks := s.prt.writebacks, signals := s.prt.signals, linkUp := s.prt.linkUp && lk }
    red := { slot := if lk then s.red.slot else 0, acted := s.red.acted }
    mgt := { s.mgt.kept with flash := s.flashLeft }
    tmr := { inputs := analogueOf s.tmr.inputs }
    tb := if lk then { s.tb with permits := [], jumpSet := none, measures := [] } else { model := s.tb.model, temp := s.tb.temp }
    lnk := if lk then s.lnk else { ports := s.lnk.ports.map (fun x => (x.1, x.2.module)), lanes := s.lnk.lanes.map (fun x => (x.1, x.2.module)) }
    cal := { slots := s.cal.slots, factory := s.cal.factory }
    pwr := { pinsOff := !lk, porLow := s.pwr.porLow, brownOut := s.pwr.brownOut, hardStop := s.pwr.hardStop, therm := s.pwr.therm && !lk } }

/-- The saved configuration is loaded (R492, R493), unless PWR_CFG_SOURCE was 1 (log 93). -/
def State.loadConfig (s : State) (fromReset : Bool) : State :=
  let c := s.mgt.saved
  let s := s.wrN P.PWR_CFG_SEQ c.seq
  if fromReset then s
  else
    let s := (c.par.filter (fun e => Params.saved e.1)).foldl (fun s (kv : Nat × Word) => s.wr kv.1 kv.2) s
    s.setPwr { s.pwr with plots := c.plots }

/-- The next number of the event log follows the highest persisted one (R481). -/
def State.nextLogSeq (s : State) : Nat := match s.mgt.persistLog.getLast? with
  | some e => (e.seq + 1) % 4294967296
  | none => 0

/-- A reset of kind 0, 1 or 2 with its cause (Tables 16-3, 16-4): a failed slice stays marked unless the Granary is initialised (R274).  A kind 2 reset that falls due while PRT_ENABLE differs from the role in force is
performed as kind 1 (log 93). -/
def State.reloadReset (s : State) (kind cause : Nat) : State :=
  let lk := kind == 2 && (s.rdN P.PRT_ENABLE == 1) == s.prt.portal
  let fromReset := s.rdN P.PWR_CFG_SOURCE == 1
  let id := s.rdN P.SYS_NODE_ID
  let run := s.rdN P.REC_RUN
  let slices := [0, 1].map (fun d => (P.RED_GRN_SLICE_FAIL d, s.sliceFail d))
  let s := ((s.cleared lk).loadConfig fromReset)
  let s := if kind = 0 then s else slices.foldl (fun s x => s.wrN x.1 x.2) s
  let s := (s.wrN P.SYS_NODE_ID id).wrN P.REC_RUN ((run + 1) % 256)
  let s := (s.wrN P.PWR_RESET_CAUSE cause).wrN P.MGT_LOG_SEQ s.nextLogSeq
  let s := { s with prt := { s.prt with portal := s.rdN P.PRT_ENABLE == 1 } }
  let s := if s.prt.portal then (s.wrN (P.LNK_PORT_STATE 2) portHost).endHere (1 - s.ringLink) else s
  let s := if s.ownSource then s.tbUpdate else s
  let s := if s.tb.testing && s.tb.loopTests.isEmpty then s.endTest else s
  let s := s.loadCal.bootSelect
  s.setPwr { s.pwr with resetEnd := s.time }

/-- A reset is held: POR_N low, a brown-out, or the hard stop. -/
def State.resetHeld (s : State) : Bool := s.pwr.porLow || s.pwr.brownOut || s.pwr.hardStop

/-! ### RESET and resets that fall due (R491, R494, R508) -/

/-- The first slot boundary at least 100 µs after the final reply. -/
def State.resetInstant (s : State) : Nat := boundaryFrom (ceilDiv s.time 4096 + 100000)

def State.pushReset (s : State) (kind unit cause instant : Nat) : State :=
  s.setPwr { s.pwr with resets := s.pwr.resets ++ [{ kind, unit, cause, instant }] }

/-- RESET's effect once its final reply is built. -/
def State.queueReset (s : State) (p : List Word) : State :=
  let kind := bits (word p 0) 2 0
  s.pushReset kind (bits (word p 0) 5 4) (4 + kind) s.resetInstant

def resetBody (h : Hdr) (p : List Word) (s : State) : State × Answer :=
  let kind := bits (word p 0) 2 0
  let unit := bits (word p 0) 5 4
  if p.length ≠ 1 || 64 ≤ word p 0 || bitOf (word p 0) 3 then refuse s stBadParam
  else if kind < 3 && unit ≠ 0 || kind = 3 && 2 ≤ unit then refuse s stBadParam
  else if 5 ≤ kind then refuse s stRange
  else if kind = 3 && s.inService unit && !s.inService (1 - unit) then refuse s stLocked
  else if h.sched then (s, .later (some h.timeTag.toNat))
  else okay (s.queueReset p)
/-- RESET (R494). -/
def execReset (h : Hdr) (p : List Word) (s : State) : Host.Outcome State Fault Refusal := .next (s.receive 0x02 h p (resetBody h p))

/-- The reset of a kind that has fallen due, unless one of wider scope has too (Table 16-10). -/
def State.dueReset (s : State) (kind unit : Nat) : Option ResetDue :=
  let due := s.pwr.resets.filter (fun r => decide (r.instant ≤ s.now))
  let scope := fun (k : Nat) => min k 3
  if due.any (fun r => decide (scope r.kind < scope kind)) then none else due.find? (fun r => r.kind == kind && r.unit == unit)

/-- COLD_RESET, MODULE_RESET and CONCENTRATOR_RESET: the reset that has fallen due acts. -/
def wideReset (kind : Nat) (s : State) : State := match s.dueReset kind 0 with
  | some r => s.reloadReset kind r.cause
  | none => s
def execColdReset (t : Nat) (s : State) : Host.Outcome State Fault Refusal := .next (wideReset 0 (s.at_ t))
def execModuleReset (t : Nat) (s : State) : Host.Outcome State Fault Refusal := .next (wideReset 1 (s.at_ t))
def execConcentratorReset (t : Nat) (s : State) : Host.Outcome State Fault Refusal := .next (wideReset 2 (s.at_ t))

/-- A reset that is no longer waiting, its cause shown (R495, R498). -/
def State.takeReset (s : State) (r : ResetDue) : State :=
  (s.setPwr { s.pwr with resets := s.pwr.resets.filter (fun x => x != r), bootLog := true }).wrN P.PWR_RESET_CAUSE r.cause

/-- The parameters of the RED block that are one die's own, but for its failed slice, which outlasts its reset (R274). -/
def redDieItems : List Nat := [0x0E1D, 0x0E1E, 0x0E20, 0x0E21, 0x0E22, 0x0E24, 0x0E25, 0x0E26, 0x0E27, 0x0E28, 0x0E29, 0x0E2A, 0x0E2B]
def ofDie (d k : Nat) : Bool :=
  (redDieItems.contains (k / 65536) && k % 65536 == d) || (k / 65536 == 0x0E2C && k % 65536 / 10 == d) || (k / 65536 == 0x0E2D && k % 65536 / 16 == d)

/-- What Table 12-3 keeps of a die through its own reset: penalties 1, 6 and 7 last until a reset that reloads configuration, 4 while the die is hot. -/
def DieState.penalised (x : DieState) : DieState :=
  { marches := x.marches, hot := x.hot, aloneFault := x.aloneFault, unresFault := x.unresFault, unresolved := x.unresolved }
/-- And penalty 3 until the next lap. -/
def DieMemory.penalised (x : DieMemory) : DieMemory :=
  { granGleaner := { slow := x.granGleaner.slow }, sramGleaner := { slow := x.sramGleaner.slow } }

/-- One concentrator die is reset: it boots, its memories are trained anew, its event counters start from 0 (log 94). -/
def State.resetDie (s : State) (d : Nat) : State :=
  let s := s.leaveStep d
  let s := s.setDie d (s.die d).penalised
  let s := s.setMemDie d (s.memDie d).penalised
  let s := { s with par := s.par.filter (fun e => !ofDie d e.1) }
  let s := s.setMgt { s.mgt with counters := s.mgt.counters.filter (fun e => e.1 / 64 != d) }
  s.setDieState d dieBoot

/-- DIE_RESET (R491, R494, R495): control moves off the active die first, and the reset follows at the next boundary; a watchdog's reset follows the
decision of its mismatch (log 94). -/
def dieReset (d : Nat) (s : State) : State := match s.dueReset 3 d with
  | none => s
  | some r =>
    if s.red.mismatch.isSome then s
    else if s.active = d && s.dieState (1 - d) = dieInStep && !r.moved then
      let s := s.moveGate (1 - d)
      s.setPwr { s.pwr with resets := s.pwr.resets.map (fun x => if x = r then { x with moved := true, instant := boundaryAfter s.now } else x) }
    else
      let s := if s.active = d && s.dieState (1 - d) = dieInStep then s.moveGate (1 - d) else s
      (s.takeReset r).resetDie d
def execDieReset (t : Nat) (die : Fin 2) (s : State) : Host.Outcome State Fault Refusal := .next (dieReset die (s.at_ t))

/-- WATCHDOG_EXPIRY (R495; log 94). -/
def watchdogExpiry (d : Nat) (s : State) : State :=
  if s.resetHeld || !s.pwr.firmware || s.dieState d = dieBoot then s
  else if s.dieState (1 - d) = dieInStep then
    (s.mismatch kindMissing s.red.slot (if d = 0 then ⟨some 7, none⟩ else ⟨none, some 7⟩)).pushReset 3 d 9 s.now
  else s.pushReset 2 0 9 s.now
def execWatchdogExpiry (t : Nat) (die : Fin 2) (s : State) : Host.Outcome State Fault Refusal := .next (watchdogExpiry die (s.at_ t))

/-! ### Front ends (R491, R496, R499) -/

/-- A parameter that is a front end's own state: RO and W1C items of the FE, ADC and TMR blocks but for calibration values, the throttle divisor and
the group period, which are reloaded as they stand. -/
def feOwn (k e : Nat) : Bool :=
  (Params.blockOf e == 2 || Params.blockOf e == 3 || Params.blockOf e == 4) && !isCalItem e && e / 65536 != 0x0311 && e / 65536 != 0x0312
    && (match Params.row e with
      | some r => (r.access != .rwe && r.access != .rwi) && 4 * Params.indexOf e / (r.last + 1) == k
      | none => false)

def feInputs (k : Nat) : List Nat := (List.range 128).map (· + 128 * k)

/-- One front end is reset: inputs OFF, groups idle but for the stops imposed on them, sources and test points at rest, what it was sending lost (log 94). -/
def State.resetFe (s : State) (k : Nat) : State :=
  let s := (feInputs k).foldl (fun s n => s.setInState n inOff) s
  let mine := fun (n x : Nat) => x / n == k
  let groups := (State.groupsOf k).foldl (fun m g => Sparse.set {} m g { stops := (s.group g).stops }) s.fe.groups
  let fe := { s.fe with inputs := s.fe.inputs.filter (fun x => !mine 128 x.1), sources := s.fe.sources.filter (fun x => !mine 16 x.1), groups }
  let inputs := analogueOf (s.tmr.inputs.filter (fun x => mine 128 x.1))
  let others := s.tmr.inputs.filter (fun x => !mine 128 x.1)
  let merged := inputs.foldl (fun m x => Sparse.put m x.1 x.2) others
  let tmr := { s.tmr with inputs := merged, tpos := s.tmr.tpos.filter (fun x => !mine 8 x.1) }
  let sent := (s.link.sent.filter (fun x => x.1 != k && x.1 != 8 + k))
  let s := { s with fe, tmr, link := { s.link with sent }, par := s.par.filter (fun e => !feOwn k e.1) }
  let s := [2 * k, 2 * k + 1].foldl (fun s i => s.setLoop i { s.loop i with on := false }) s
  match s.cal.run with
  | none => s
  | some r =>
    s.setCalRun { r with inputs := r.inputs.map (fun x => if x.input / 128 = k then { x with aborted := true } else x)
                         sources := r.sources.map (fun x => if x.source / 16 = k then { x with aborted := true } else x) }

/-- A front end's references settle for 10 ms. -/
def State.settleFe (s : State) (k : Nat) : State := s.setFePower k { s.fePower k with resetUntil := some (s.now + 10000000) }

/-- FRONT_END_RESET (R491; log 94). -/
def frontEndReset (k : Nat) (s : State) : State := match s.dueReset 4 k with
  | none => s
  | some r => ((s.takeReset r).resetFe k).settleFe k
def execFrontEndReset (t : Nat) (fe : Fin 4) (s : State) : Host.Outcome State Fault Refusal := .next (frontEndReset fe (s.at_ t))

/-- The module enters service: IN_SERVICE, or THROTTLED, once its firmware runs, a die is IN_STEP, the front ends have settled and the Granary is ready;
PWR_UP_TIME is measured the first time (R498). -/
def State.enterService (s : State) : State :=
  if s.pwrState ≠ pwrStarting || !s.running || !s.mem.granReady || [0, 1, 2, 3].any (fun k => (s.fePower k).resetUntil.isSome) then s
  else
    let s := s.wrN P.PWR_STATE (if s.throttled then pwrThrottled else pwrInService)
    if s.pwr.serviced then s else (s.setPwr { s.pwr with serviced := true }).wr P.PWR_UP_TIME (satWord ((s.time - s.pwr.resetEnd) / 4096000))

/-- A group of a reloaded front end aligns, or stays under the stops imposed on it. -/
def State.reloadGroup (s : State) (g : Nat) : State :=
  let s := s.wrN (P.ADC_GRP_PERIOD g) (s.scanCycle g)
  let s := (s.scanSet g).foldl (fun s n => s.enableInput n s.now) s
  let stops := (s.group g).stops
  if (s.scanSet g).isEmpty then s
  else
    let s := s.alignUnderStops g s.now s.now
    stops.foldl (fun s r => (membersOf g).foldl (fun s n => s.holdInput n r) s) s

/-- A source of a reloaded front end drives as its values in force say (R79, R82). -/
def State.reloadSource (s : State) (k : Nat) : State :=
  let s := s.steer k
  s.setSource k { s.source k with reversed := s.reversedAt k s.now }

/-- A loop that has been driven since the module's reset is on again when its front end is (R457, R496). -/
def State.reloadLoop (s : State) (i : Nat) : State :=
  let x := s.loop i
  if x.last = 0 then s else s.setLoop i { x with on := s.rdN (P.ALM_LOOP_SRC i) != 0 && x.retryAt.isNone }

/-- FRONT_END_RELOADED (R491, R497): 10 ms after a front end was reset or configured, its values in force are loaded and its groups align. -/
def frontEndReloaded (k : Nat) (s : State) : State := match (s.fePower k).resetUntil with
  | none => s
  | some a =>
    if s.now < a || !s.running then s
    else
      let s := s.setFePower k { s.fePower k with resetUntil := none }
      let s := [2 * k, 2 * k + 1].foldl State.reloadLoop (((List.range 16).map (· + 16 * k)).foldl State.reloadSource s)
      ((State.groupsOf k).foldl State.reloadGroup s).enterService
def execFrontEndReloaded (t : Nat) (fe : Fin 4) (s : State) : Host.Outcome State Fault Refusal := .next (frontEndReloaded fe (s.at_ t))

/-! ### From power-up to service (R489, R497) -/

/-- What the firmware does once a first die is ready: the pins are driven again, with THERM_N, which kept its state through the reset, released (R496, Table 17-12);
enabled ports wake and the front ends are configured. -/
def State.bringUp (s : State) : State :=
  let s := s.setPwr { s.pwr with pinsOff := false, therm := false }
  let s := [0, 1].foldl (fun s p => if s.portEnabled p then s.wakePort p else s) s
  [0, 1, 2, 3].foldl State.settleFe s

/-- The reset is logged at the boot that follows it, with code 0x1201; its severity and data are left open (R495). -/
def State.logBoot (s : State) : State :=
  if !s.pwr.bootLog then s
  else
    let (a, s) := s.takeFree
    let (b, s) := s.takeFree
    let (c, s) := s.takeFree
    (s.setPwr { s.pwr with bootLog := false }).logEvent 0x1201 0 (a.toNat % 4) b.toNat c.toNat

/-- A die that starts takes its slots from the present one on. -/
def State.startSlots (s : State) (d : Nat) : State :=
  let s := s.setDie d { s.die d with slot := s.now / 1000, missing := [] }
  { s with red := { s.red with done := s.now / 1000 } }

/-- DIE_READY (R497): firmware runs and configuration and calibration are loaded; beside a die IN_STEP the die is SYNCING. -/
def dieReady (d : Nat) (s : State) : State :=
  if s.resetHeld || !s.pwr.firmware || s.dieState d ≠ dieBoot || (s.die d).ready then s
  else
    let s := s.setDie d { s.die d with ready := true, readyAt := s.time }
    let s := s.logBoot
    if s.dieState (1 - d) = dieInStep then s.setDieState d dieSyncing
    else if (s.die (1 - d)).ready then s
    else s.bringUp
def execDieReady (t : Nat) (die : Fin 2) (s : State) : Host.Outcome State Fault Refusal := .next (dieReady die (s.at_ t))

/-- At the first slot boundary at which both dies are ready, both enter IN_STEP (R497). -/
def State.joinDies (s : State) : State :=
  if s.dieState 0 = dieBoot && s.dieState 1 = dieBoot && (s.die 0).ready && (s.die 1).ready then
    (((s.startSlots 0).startSlots 1).enterStep 0 false).enterStep 1 false
  else s

/-- JOIN_WAIT_EXPIRY (R497): a ready die that has waited PWR_JOIN_WAIT enters IN_STEP alone. -/
def joinWaitExpiry (d : Nat) (s : State) : State :=
  let x := s.die d
  if s.dieState d ≠ dieBoot || !x.ready || (s.die (1 - d)).ready || s.running || s.time < x.readyAt + msec (s.rdN P.PWR_JOIN_WAIT) then s
  else
    let s := ((s.startSlots d).enterStep d false).setBit P.PWR_STATUS 3
    ((if s.active = d then s else s.moveGate d)).enterService
def execJoinWaitExpiry (t : Nat) (die : Fin 2) (s : State) : Host.Outcome State Fault Refusal := .next (joinWaitExpiry die (s.at_ t))

/-- GRANARY_READY (R497): training, and after a COLD reset clearing, are done; the plots are recreated, empty (R276). -/
def granaryReady (s : State) : State :=
  if s.mem.granReady || !((s.die 0).ready || (s.die 1).ready) then s
  else
    let plots := s.pwr.plots.foldl (fun ps q => if ps.any (fun r => r.id == q.id) then ps else insertPlot q ps) s.mem.plots
    ({ s with mem := { s.mem with plots, granReady := true } }).enterService
def execGranaryReady (t : Nat) (s : State) : Host.Outcome State Fault Refusal := .next (granaryReady (s.at_ t))

/-! ### Supplies and pins (R489 to R491, R506) -/

/-- A COLD reset that is held begins: everything is reset at once, and nothing starts until the hold is released (log 92). -/
def State.holdCold (s : State) (cause : Nat) (hold : PwrState → PwrState) : State :=
  if s.resetHeld then s.setPwr (hold s.pwr) else (s.setPwr (hold s.pwr)).reloadReset 0 cause

/-- A hold ends, and with the last one the reset (log 92). -/
def State.releaseCold (s : State) (cause : Nat) (release : PwrState → PwrState) : State :=
  let s := s.setPwr (release s.pwr)
  if s.resetHeld then s
  else
    let s := { s with time := 0 }
    (s.setPwr { s.pwr with resetEnd := 0 }).wrN P.PWR_RESET_CAUSE cause

/-- POR_N_CHANGE (R489): low holds the power-on reset; high, with every rail but VAN in its window for 2 ms, releases it. -/
def porNChange (level : Bool) (s : State) : State :=
  if level then (if s.pwr.porLow then s.releaseCold 0 (fun p => { p with porLow := false }) else s)
  else s.holdCold 0 (fun p => { p with porLow := true })
def execPorNChange (t : Nat) (level : Bool) (s : State) : Host.Outcome State Fault Refusal := .next (porNChange level (s.at_ t))

/-- RST_N_PULSE (R491): low for 1 µs or more. -/
def rstNPulse (lengthNs : Nat) (s : State) : State :=
  if s.resetHeld || lengthNs < 1000 || (s.dueReset 0 0).isSome then s else s.reloadReset 1 3
def execRstNPulse (t : Nat) (lengthNs : Nat) (s : State) : Host.Outcome State Fault Refusal := .next (rstNPulse lengthNs (s.at_ t))

/-- The points of VAN among the rails (Table 15-10). -/
def vanRails : List Nat := [7, 8, 9, 10]

/-- BROWN_OUT (R490): a rail other than VAN has stayed below its brown-out level for 10 µs. -/
def brownOut (rail : Nat) (s : State) : State :=
  if vanRails.contains rail then s else s.holdCold 1 (fun p => { p with brownOut := true })
def execBrownOut (t : Nat) (rail : Fin 22) (s : State) : Host.Outcome State Fault Refusal := .next (brownOut rail (s.at_ t))

/-- BROWN_OUT_RESET_RELEASE (R490): every rail has been back within its window for 2 ms. -/
def brownOutResetRelease (s : State) : State :=
  if s.pwr.brownOut then s.releaseCold 1 (fun p => { p with brownOut := false }) else s
def execBrownOutResetRelease (t : Nat) (s : State) : Host.Outcome State Fault Refusal := .next (brownOutResetRelease (s.at_ t))

/-- The hard stop (R506): THERM_N asserted, every die held in reset. -/
def State.hardTrip (s : State) : State := s.holdCold 2 (fun p => { p with hardStop := true, therm := true })

/-- HARDWARE_TRIP: a sensor with a trip temperature reaches it, whatever the firmware does. -/
def hardwareTrip (sensor : Nat) (s : State) : State := if (tripOf sensor).isSome then s.hardTrip else s
def execHardwareTrip (t : Nat) (sensor : Fin 17) (s : State) : Host.Outcome State Fault Refusal := .next (hardwareTrip sensor (s.at_ t))

/-- STOP_MAX_EXPIRY: STOPPING has lasted THM_STOP_MAX. -/
def stopMaxExpiry (s : State) : State := match s.pwr.stopSince with
  | none => s
  | some a => if s.pwrState = pwrStopping && decide (a + msec (s.rdN P.THM_STOP_MAX) ≤ s.time) then s.hardTrip else s
def execStopMaxExpiry (t : Nat) (s : State) : Host.Outcome State Fault Refusal := .next (stopMaxExpiry (s.at_ t))

/-- HARD_STOP_END: every trip sensor has stayed at least 15 °C below its trip temperature for 10 s. -/
def hardStopEnd (s : State) : State := if s.pwr.hardStop then s.releaseCold 2 (fun p => { p with hardStop := false }) else s
def execHardStopEnd (t : Nat) (s : State) : Host.Outcome State Fault Refusal := .next (hardStopEnd (s.at_ t))

end Sys2Proof.Machine
end

