-- ==== Sys2Proof/Machine/Tb.lean ====
section
/-! DEFINITION. Meanings of the time-base rows but for its steps (chapter 6): TB.READ, TB.DOMAIN, TB.ASYM, TB.JUMP, TIME blocks, PPSIN, the states'
events and the ageing model. -/

namespace Sys2Proof.Machine

/-- TB_READ (R191, Table 6-9). -/
def tbReadData (s : State) : List Word :=
  let hops := fun d => s.rdN (P.TB_HOPS d) % 4096
  [lo32 s.now, hi32 s.now,
   BitVec.ofNat 32 (1048576 * (s.time % 4096) + 131072 * s.tbState + 32768 * s.rdN P.TB_FOLLOWED + 8192 * s.rdN P.TB_QUALITY + 2048 * s.rdN P.TB_DOMAIN_PREF),
   BitVec.ofNat 32 s.tbUncert, s.rd (P.TB_OFFSET 0), s.rd (P.TB_OFFSET 1), BitVec.ofNat 32 (65536 * hops 1 + hops 0), s.rd P.TB_STATUS]
def tbReadBody (p : List Word) (s : State) : State × Answer := if p.length ≠ 0 then refuse s stBadParam else okay s (tbReadData s)
def execTbRead (h : Hdr) (p : List Word) (s : State) : Host.Outcome State Fault Refusal := .next (s.receive 0x40 h p (tbReadBody p))

/-- TB.DOMAIN acts (R192): the preference is written and the choice made again; answers TB_FOLLOWED and the offset being slewed. -/
def State.domainAct (s : State) (p : List Word) : State × List Word :=
  let s := (s.wrN P.TB_DOMAIN_PREF (word p 0)).tbUpdate
  (s, [s.rd P.TB_FOLLOWED, satInt (roundTo psUnit s.slewLeft)])
def tbDomainBody (h : Hdr) (p : List Word) (s : State) : State × Answer :=
  if p.length ≠ 1 || 4 ≤ word p 0 then refuse s stBadParam
  else if word p 0 = 3 then refuse s stRange
  else if h.sched then (s, .later (some h.timeTag.toNat))
  else let r := s.domainAct p; okay r.1 r.2
/-- TB_DOMAIN (R192). -/
def execTbDomain (h : Hdr) (p : List Word) (s : State) : Host.Outcome State Fault Refusal := .next (s.receive 0x41 h p (tbDomainBody h p))

/-! ### TB.ASYM (R193) -/

/-- TB_ASYM of a port changes: half the change moves the node's time when the followed domain enters there, and is slewed (R193, Table 6-12). -/
def State.setAsym (s : State) (port : Nat) (v : Int) : State :=
  let half := (v - s.rdI (P.TB_ASYM port)) * 4096
  let s := s.wrI (P.TB_ASYM port) v
  let d := 1 - port
  let x := s.domain d
  let s := s.setDomain d { x with offset := x.offset.map (· + half) }
  let s := if s.followedDomain = some d then (s.setTb { s.tb with phase := s.tb.phase + half }).slewBy (s.slewLeft + half) else s
  s.tbNote

/-- SET and CLEAR. -/
def asymSet (p : List Word) (s : State) : State × Answer :=
  let port := word p 0 % 2
  let v := (p.getD 1 0).toInt
  if v < -1000000 || 1000000 < v || 2000 * (s.rdN P.TB_JUMP_LIMIT : Int) < ((v - s.rdI (P.TB_ASYM port)).natAbs : Int) then refuse s stRange
  else okay (s.setAsym port v)

def tbAsymBody (h : Hdr) (p : List Word) (s : State) : State × Answer :=
  let mode := bits (word p 0) 2 1
  let port := word p 0 % 2
  if p.length ≠ 2 || 8 ≤ word p 0 || (mode ≠ 0 && word p 1 ≠ 0) then refuse s stBadParam
  else if mode = 3 then refuse s stRange
  else if mode = 1 then
    if s.tbState ≠ tbLocked || s.followedDomain ≠ some (1 - port) then refuse s stLocked
    else (s.setTb { s.tb with measures := s.tb.measures ++ [{ h, port, since := s.time }] }, .later none)
  else asymSet p s
def execTbAsymSet (h : Hdr) (p : List Word) (s : State) : Host.Outcome State Fault Refusal :=
  .next (s.receive 0x42 h p (tbAsymBody h (forceMode p 1 2 0)))
def execTbAsymMeasure (h : Hdr) (p : List Word) (s : State) : Host.Outcome State Fault Refusal :=
  .next (s.receive 0x42 h p (tbAsymBody h (forceMode p 1 2 1)))
def execTbAsymClear (h : Hdr) (p : List Word) (s : State) : Host.Outcome State Fault Refusal :=
  .next (s.receive 0x42 h p (tbAsymBody h (forceMode p 1 2 2)))

/-- A MEASURE has its 64 comparisons: TB_ASYM + 2ē, ē and the standard deviation in ps (log 39). -/
def State.finishMeasure (s : State) (m : AsymMeasure) : State :=
  let n := m.errors.length
  let sum := m.errors.sum
  let mean := roundTo (psUnit * n) sum
  let v := s.rdI (P.TB_ASYM m.port) + roundTo (psUnit * n) (2 * sum)
  let var := (n * (m.errors.map (fun e => e * e)).sum - sum * sum).toNat
  let sd := Fl.isqrt (Fl.size var / 2 + 1) var 0 / (8192 * n)
  if v < -1000000 || 1000000 < v || (s.rdN P.TB_JUMP_LIMIT * 1000 : Int) < mean.natAbs then s.finish 0x42 m.h stRange []
  else (s.setAsym m.port v).finish 0x42 m.h stOk [BitVec.ofInt 32 v, BitVec.ofInt 32 mean, BitVec.ofNat 32 sd]

/-- A valid edge reaches the running measurements; an invalid one breaks their runs (log 39). -/
def State.measureEdge (s : State) (c : Int) : State :=
  let ms := s.tb.measures.map (fun m => { m with errors := m.errors ++ [c], since := s.time })
  let full := fun (m : AsymMeasure) => decide (64 ≤ m.errors.length)
  (ms.filter full).foldl State.finishMeasure (s.setTb { s.tb with measures := ms.filter (fun m => !full m) })

/-! ### TB.JUMP (R194) -/

/-- PERMIT (R194): each steps at a boundary of its own; one that then finds no correction pending replies TIMEOUT. -/
def tbJumpPermit (h : Hdr) (s : State) : State × Answer :=
  if !s.jumpPending then refuse s stRange
  else (s.setTb { s.tb with permits := s.tb.permits ++ [{ instant := boundaryFrom (ceilDiv s.time 4096 + 10000), permit := some h }] }, .later none)

/-- A waiting SET is withdrawn by a later one (R47, R194). -/
def State.withdrawSet (s : State) : State := match s.tb.jumpSet with
  | some j => (s.setTb { s.tb with jumpSet := none }).finish 0x43 j.h stTimeout [1]
  | none => s

def tbJumpSet (h : Hdr) (p : List Word) (s : State) : State × Answer :=
  let v := word p 1 + 4294967296 * word p 2
  let src := s.rdN P.TB_SRC
  if !s.ownSource then refuse s stLocked
  else if v % (if src = 0 then 1000 else 1000000000) ≠ 0 then refuse s stRange
  else
    let s := s.withdrawSet
    let j : JumpSet :=
      { h, value := v, pps := src == 1, boundary := if src = 0 then some (boundaryFrom (ceilDiv s.time 4096 + 10000)) else none, receipt := s.time }
    (s.setTb { s.tb with jumpSet := some j }, .later none)

def tbJumpBody (h : Hdr) (p : List Word) (s : State) : State × Answer :=
  if p.length ≠ 3 || 2 ≤ word p 0 || (word p 0 = 0 && (word p 1 ≠ 0 || word p 2 ≠ 0)) then refuse s stBadParam
  else if word p 0 = 0 then tbJumpPermit h s else tbJumpSet h p s
def execTbJumpPermit (h : Hdr) (p : List Word) (s : State) : Host.Outcome State Fault Refusal :=
  .next (s.receive 0x43 h p (tbJumpBody h (forceMode p 0 1 0)))
def execTbJumpSet (h : Hdr) (p : List Word) (s : State) : Host.Outcome State Fault Refusal :=
  .next (s.receive 0x43 h p (tbJumpBody h (forceMode p 0 1 1)))

/-- TB_JUMP_SET_TIMEOUT (R194): no PPSIN edge within 1.5 s of receipt. -/
def tbJumpSetTimeout (s : State) : State := match s.tb.jumpSet with
  | some j =>
    if j.pps && j.boundary.isNone && j.receipt + msec 1500 ≤ s.time then (s.setTb { s.tb with jumpSet := none }).finish 0x43 j.h stTimeout [] else s
  | none => s
def execTbJumpSetTimeout (t : Nat) (s : State) : Host.Outcome State Fault Refusal := .next (tbJumpSetTimeout (s.at_ t))

/-! ### TIME blocks (R176 to R181) -/

/-- What a block sent on a port says of its domain: AVAIL, SRC_KIND, QUALITY, HOPS, UNCERT and DELTA (R177, R181). -/
def State.relayed (s : State) (d : Nat) : Bool × Nat × Nat × Nat × Nat × Int :=
  let x := s.domain d
  if s.injected d then (s.tbState != tbUnset, s.rdN P.TB_SRC, s.tbQuality, 0, s.tbUncert, 0)
  else (s.usable d, x.kind, x.quality, x.hops + 1, x.uncert, roundTo fineUnit (x.offset.getD 0))

/-- TIME_BLOCK_SEND (R176, R177, R349): a port in service sends its domain; West leaves on port E.  Its instant is that of the codeword that carries TIME0
(log 112). -/
def timeBlockSend (p : Nat) (s : State) : State :=
  if s.rdN (P.LNK_PORT_STATE p) ≠ 2 then s
  else
    let y := s.tb.ports.get p
    let (avail, kind, quality, hops, uncert, delta) := s.relayed p
    let prev := match y.sent with
      | x :: _ => if x.1 = (y.seq + 255) % 256 then x.2 else 0
      | [] => 0
    let (rxSeq, rxStamp) := y.got.getD (0, 0)
    let b : TimeBlock :=
      { seq := BitVec.ofNat 8 y.seq, rxSeq := BitVec.ofNat 8 rxSeq, avail, srcKind := BitVec.ofNat 2 kind, quality := BitVec.ofNat 2 quality
        hops := BitVec.ofNat 12 hops, uncert := BitVec.ofNat 32 uncert, delta := BitVec.ofInt 48 delta, txPrev := BitVec.ofNat 76 prev
        rxStamp := BitVec.ofNat 76 rxStamp }
    let s := s.setLanePort p { s.lanePort p with timeDue := timeBlocks b }
    s.setTimePort p { y with seq := (y.seq + 1) % 256, sent := (y.seq, s.time) :: y.sent.take 255, block := some b }
def execTimeBlockSend (t : Nat) (port : Fin 2) (s : State) : Host.Outcome State Fault Refusal := .next (timeBlockSend port (s.at_ t))

/-- The four stamps of an exchange, when it is complete (R178): t1, t2, t3 and t4 in 1/4096 ns. -/
def exchange (y : TimePort) (b : TimeBlock) : Option (Int × Int × Int × Int) :=
  match y.got, y.sent.find? (fun x => x.1 == b.rxSeq.toNat) with
  | some (q, t2), some (_, t3) => if (q + 1) % 256 = b.seq.toNat then some (b.txPrev.toNat, t2, t3, b.rxStamp.toNat) else none
  | _, _ => none

/-- The mean hop delay and the offset of a domain in 1/8192 ps (R178, R179). -/
def hopDelay (t1 t2 t3 t4 : Int) : Int := ((t4 - t1) - (t3 - t2)) * 1000
def domainOffset (t1 t2 t3 t4 delta asym : Int) : Int := (t1 + delta - t2) * fineUnit + hopDelay t1 t2 t3 t4 + asym * 4096

/-- A complete exchange of a port: TB_HOP_DELAY and the domain's offset. -/
def State.noteExchange (s : State) (p : Nat) (b : TimeBlock) : State := match exchange (s.tb.ports.get p) b with
  | none => s
  | some (t1, t2, t3, t4) =>
    let q := hopDelay t1 t2 t3 t4
    let s := s.setTimePort p { s.tb.ports.get p with delay := some q }
    let good := decide (0 < q) && decide (q ≤ 500000 * nsUnit)
    let s := s.wrI (P.TB_HOP_DELAY p) (if good then max 1 (roundTo psUnit q) else 0)
    let x := s.domain (1 - p)
    let c := domainOffset t1 t2 t3 t4 b.delta.toInt (s.rdI (P.TB_ASYM p))
    let s := s.setDomain (1 - p) { x with offset := some c }
    if s.followedDomain = some (1 - p) && s.tbState ≠ tbUnset && s.tbState ≠ tbHoldover then
      let s := s.setPhase c
      if s.tbState = tbAcquiring || s.tbState = tbLocked then s.newSteer else s
    else s

/-- TIME_BLOCK_RECEIVE (R178, R180, R181). -/
def timeBlockReceive (p : Nat) (b : TimeBlock) (s : State) : State :=
  if s.rdN (P.LNK_PORT_STATE p) ≠ 2 then s
  else
    let d := 1 - p
    let x := s.domain d
    -- A block with AVAIL 0 is a loss under the uncertainty reported before it (R184, R189).
    let s := if b.avail then s else (s.setDomain d { x with avail := false }).tbUpdate
    let s := s.setDomain d { x with heard := if b.avail then s.time else x.heard, avail := b.avail, kind := b.srcKind.toNat, quality := b.quality.toNat
                                    hops := b.hops.toNat, uncert := b.uncert.toNat }
    let s := s.noteExchange p b
    (s.setTimePort p { s.tb.ports.get p with got := some (b.seq.toNat, s.time) }).tbUpdate
def execTimeBlockReceive (t : Nat) (port : Fin 2) (block : TimeBlock) (s : State) : Host.Outcome State Fault Refusal :=
  .next (timeBlockReceive port block (s.at_ t))

/-- DOMAIN_LOSS_TIMEOUT (R184): a domain has been silent for TB_LOSS_TIME. -/
def domainLossTimeout (s : State) : State := s.tbUpdate
def execDomainLossTimeout (t : Nat) (s : State) : Host.Outcome State Fault Refusal := .next (domainLossTimeout (s.at_ t))

/-! ### Lock and corrections (R170, R185) -/

/-- Since when the phase error has lain within TB_LOCK_WINDOW: as measured, or as a slew towards a source that is not measured meanwhile has brought
it there (log 38). -/
def State.windowSince (s : State) : Option Nat := match s.tb.inSince with
  | some a => some a
  | none =>
    let x := s.tb
    let w := s.rdN P.TB_LOCK_WINDOW * 8192000
    if !(s.ownSource || x.onPps) || x.slew = 0 || x.phase.natAbs < x.slew.natAbs || w + x.slew.natAbs < x.phase.natAbs + s.slewLeft.natAbs then none
    else some (x.slewFrom + ceilDiv ((x.phase.natAbs - w - x.slewDone) * 1000000000000) (2000 * max 1 x.slewOffset))

/-- TB_LOCK_ACHIEVED: the phase error has lain within TB_LOCK_WINDOW for 10 ms. -/
def tbLockAchieved (s : State) : State := match s.windowSince with
  | some a =>
    if (s.tbState = tbAcquiring || s.tbState = tbRecovery) && !s.jumpPending && decide (a + msec 10 ≤ s.time) then (s.enterTb tbLocked).newSteer.tbUpdate
    else s
  | none => s
def execTbLockAchieved (t : Nat) (s : State) : Host.Outcome State Fault Refusal := .next (tbLockAchieved (s.at_ t))

/-- TB_PHASE_ERROR_EXCEED: the phase error has lain beyond TB_LOCK_WINDOW for 1 ms while LOCKED. -/
def tbPhaseErrorExceed (s : State) : State := match s.tb.outSince with
  | some a => if s.tbState = tbLocked && decide (a + msec 1 ≤ s.time) then (s.enterRecovery s.tb.phase).tbUpdate else s
  | none => s
def execTbPhaseErrorExceed (t : Nat) (s : State) : Host.Outcome State Fault Refusal := .next (tbPhaseErrorExceed (s.at_ t))

/-- A source is at hand to measure a correction against. -/
def State.measurable (s : State) : Bool := s.tb.onPps || s.followedDomain.isSome || (s.ownSource && s.tbState != tbUnset)

/-- A correction beyond TB_JUMP_LIMIT is refused (R185); it has not been slewed at the origin of the estimate (R189; log 104). -/
def State.refuseCorrection (s : State) (c : Int) : State :=
  if s.jumpPending then s
  else
    let s := (s.startEstimate c).slewBy 0
    (((s.setBit P.TB_STATUS 3).setBit P.TB_STATUS 5).addSat P.TB_REFUSED_COUNT 1).modelSteer

/-- CORRECTION_REMEASURE (R185): the correction averaged over 1 ms is slewed, or refused; in TEST it is not applied.  Without a new measurement a slew
goes on (log 38). -/
def correctionRemeasure (s : State) : State :=
  let st := s.tbState
  if !(st = tbAcquiring || st = tbRecovery || st = tbTest) || !s.measurable || s.time < s.tb.measured + msec 1 then s
  else
    let c := s.averaged
    let fresh := s.tb.recent.any (fun m => decide (s.time < m.1 + msec 1))
    let s := s.setTb { s.tb with measured := s.time }
    if !fresh && s.tb.slew ≠ 0 then s
    else if s.rdN P.TB_JUMP_LIMIT * 8192000 < c.natAbs then (s.refuseCorrection c).tbUpdate
    else
      let s := s.clrBits P.TB_STATUS 32
      (if st = tbTest then s else s.slewBy c).tbUpdate
def execCorrectionRemeasure (t : Nat) (s : State) : Host.Outcome State Fault Refusal := .next (correctionRemeasure (s.at_ t))

/-- SLEW_COMPLETE (R168): the correction has been removed; a source that is not measured meanwhile shows it so. -/
def slewComplete (s : State) : State :=
  if s.tb.slew = 0 || s.slewLeft ≠ 0 then s
  else
    let c := s.tb.phase - s.tb.slew
    let s := s.slewBy 0
    (if s.ownSource || s.tb.onPps then s.setPhase c else s).tbNote
def execSlewComplete (t : Nat) (s : State) : Host.Outcome State Fault Refusal := .next (slewComplete (s.at_ t))

/-! ### PPSIN (R173, R174, R193) -/

/-- The instant of an edge comes with a step of the time base that has just been made: it is judged in the old time (Table 6-12). -/
def State.steppedBy (s : State) : Int := if s.tb.stepped ≠ 0 && ns (s.tb.stepped - 1) = s.time then s.tb.stepBy else 0

/-- The correction an edge shows in 1/8192 ps: the whole second nearest to the edge less TB_PPS_DELAY, minus that (R173). -/
def State.ppsCorrection (s : State) : Int :=
  let x := s.time * fineUnit - s.steppedBy * nsUnit - s.rdI P.TB_PPS_DELAY * psUnit
  roundTo (1000000000 * nsUnit) x * (1000000000 * nsUnit) - x

/-- A valid edge steers, is averaged, or is compared. -/
def State.validEdge (s : State) (c : Int) : State :=
  let s := (s.setTb { s.tb with ppsAt := some s.time }).tbUpdate
  let st := s.tbState
  let s := if s.ownSource && s.rdN P.TB_SRC = 1 && st ≠ tbUnset then
      let s := s.setPhase c
      if st = tbAcquiring || st = tbLocked then s.newSteer else s
    else if s.tied && s.rdN P.TB_SRC = 3 then
      if s.tb.onPps then
        let s := s.setPhase (c + s.tb.tie.sum / s.tb.tie.length)
        if st = tbAcquiring || st = tbLocked then s.newSteer else s
      else if s.followedDomain.isSome && s.sourceQuality = 0 then s.setTb { s.tb with tie := (s.tb.phase - c) :: s.tb.tie.take 999 }
      else s
    else s
  (s.measureEdge c).tbUpdate

/-- Where a waiting TB.JUMP SET steps the correction of an edge: the next slot boundary, at least 10 µs after the command (R186, R194; log 105). -/
def State.setBoundary (s : State) (j : JumpSet) : Nat := max (boundaryAfter s.now) (boundaryFrom (ceilDiv j.receipt 4096 + 10000))

/-- An edge is judged by its distance from its expected instant (R173); in a time stepped since, it is off by the step. -/
def State.judgeEdge (s : State) (c : Int) : State :=
  if s.tbState ≠ tbUnset && 100000 * nsUnit < c.natAbs then
    (s.setTb { s.tb with measures := s.tb.measures.map (fun m => { m with errors := [] }) }).setBit P.TB_STATUS 8
  else s.validEdge (c - s.steppedBy * nsUnit)

/-- PPSIN_EDGE (R173): a rising edge is stamped; a waiting TB.JUMP SET takes it whatever its phase (R194) (log 105). -/
def ppsinEdge (s : State) : State :=
  let c := s.ppsCorrection
  match s.tb.jumpSet with
  | some j =>
    if j.pps && j.boundary.isNone then
      let edge := j.value * nsUnit - (s.time * fineUnit - s.rdI P.TB_PPS_DELAY * psUnit)
      s.setTb { s.tb with ppsAt := some s.time, jumpSet := some { j with boundary := some (s.setBoundary j), edge := some edge } }
    else s.judgeEdge c
  | none =>
    s.judgeEdge c
def execPpsinEdge (t : Nat) (s : State) : Host.Outcome State Fault Refusal := .next (ppsinEdge (s.at_ t))

/-- PPS_MISSING (R172, R174, R193): no valid edge for 1.5 s. -/
def ppsMissing (s : State) : State :=
  let late := fun (m : AsymMeasure) => decide (m.since + msec 1500 ≤ s.time)
  let out := s.tb.measures.filter late
  let s := out.foldl (fun s m => s.finish 0x42 m.h stTimeout []) (s.setTb { s.tb with measures := s.tb.measures.filter (fun m => !late m) })
  let st := s.tbState
  let using_ := s.tb.onPps || (s.ownSource && s.rdN P.TB_SRC = 1 && st ≠ tbUnset && st ≠ tbHoldover)
  if using_ && !s.ppsAlive && (s.tb.onPps || !s.ppsHeld) then (s.setBit P.TB_STATUS 8).tbUpdate else if out.isEmpty then s else s.setBit P.TB_STATUS 8
def execPpsMissing (t : Nat) (s : State) : Host.Outcome State Fault Refusal := .next (ppsMissing (s.at_ t))

/-! ### The ageing model (R169) -/

/-- TB_MODEL_STATE and TB_MODEL_AGE of the records held. -/
def State.noteModel (s : State) : State :=
  let n := s.tb.records.length
  let s := s.wrN P.TB_MODEL_AGE (min 720 (n / 360))
  s.wrN P.TB_MODEL_STATE (if n = 0 then 0 else if s.tb.model.learnt && decide (8640 ≤ n) then 2 else 1)

/-- MODEL_RECORD: every 10 s while LOCKED with quality GOOD; records of 30 days are held. -/
def modelRecord (milliC : Int) (s : State) : State :=
  let last := match s.tb.records with
    | r :: _ => r.1 + secs 10
    | [] => 0
  if s.tbState ≠ tbLocked || s.rdN P.TB_QUALITY ≠ 0 || s.time < last then s
  else
    let rs := (s.time, s.rdI P.TB_FREQ_ADJ, milliC) :: s.tb.records.filter (fun r => decide (s.time < r.1 + secs 2592000))
    (s.setTb { s.tb with records := rs }).noteModel
def execModelRecord (t : Nat) (milliC : Int) (s : State) : Host.Outcome State Fault Refusal := .next (modelRecord milliC (s.at_ t))

/-- MODEL_REFIT: every hour; the coefficients and the residual in 10^-12 that the fit leaves are left open (log 37). -/
def modelRefit (s : State) : State :=
  if s.tb.records.isEmpty || s.time < s.tb.fitted + secs 3600 then s
  else
    let coef := (List.range 5).map (fun i => Config.freeWord (s.free + i))
    let residual := (Config.freeWord (s.free + 5)).toNat
    let learnt := decide (residual < 1000)
    ({ s with free := s.free + 6 }.setTb { s.tb with fitted := s.time, model := { coef, learnt } }).noteModel
def execModelRefit (t : Nat) (s : State) : Host.Outcome State Fault Refusal := .next (modelRefit (s.at_ t))

end Sys2Proof.Machine
end

