-- ==== Sys2Proof/Machine/Cmd.lean ====
section
/-! DEFINITION. Meanings of the general commands (chapter 2): NOP, IDENT, snapshots, CANCEL, NODE.SETID, PAR.READ, PAR.WRITE, PAR.STAGED, TST.INJECT; of
the receipt of a command packet, and of what scheduled commands do when they act. -/

namespace Sys2Proof.Machine

/-! ### NOP and IDENT (R48) -/

/-- NOP: the node time (log 47). -/
def nopBody (p : List Word) (s : State) : State × Answer := if p.length ≠ 0 then refuse s stBadParam else okay s [lo32 s.now, hi32 s.now]
def execNop (h : Hdr) (p : List Word) (s : State) : Host.Outcome State Fault Refusal := .next (s.receive 0x00 h p (nopBody p))

/-- IDENT: part number, revision, role in force and node ID, a word each (log 47). -/
def identBody (p : List Word) (s : State) : State × Answer :=
  if p.length ≠ 0 then refuse s stBadParam
  else okay s [0x5120, BitVec.ofNat 32 Config.revision, BitVec.ofNat 32 (b2n s.prt.portal), s.rd P.SYS_NODE_ID]
def execIdent (h : Hdr) (p : List Word) (s : State) : Host.Outcome State Fault Refusal := .next (s.receive 0x01 h p (identBody p))

/-! ### NODE.SETID (R368) -/

/-- h: the node's hop count from the issuing portal. -/
def State.hopsFrom (s : State) (h : Hdr) : Nat := match h.arrival with
  | .host => 0
  | _ => s.rdN (P.CLP_POS_HOPS (arrivalPort h.arrival))

/-- The node takes an ID at the first slot boundary after its reply is built. -/
def State.takeId (s : State) (id : Nat) : State × Answer :=
  if id = 0 || 0xFFE < id then refuse s stRange
  else okay { s with cmd := { s.cmd with newId := some (id, boundaryAfter s.now) } } [BitVec.ofNat 32 id]

def setidBody (h : Hdr) (p : List Word) (s : State) : State × Answer :=
  let mode := bits (word p 0) 1 0
  let hops := s.hopsFrom h
  let all := h.target == 0xFFF
  if p.length ≠ 3 || 16 ≤ word p 0 || 4096 ≤ word p 1 || 4096 ≤ word p 2 || (mode < 2 && word p 2 ≠ 0) then refuse s stBadParam
  else if (mode = 0 && all) || ((mode = 1 || mode = 2) && !all) then refuse s stBadParam
  else if mode = 3 then refuse s stRange
  else if mode = 2 && hops ≠ word p 2 then (s, .silent)
  else if mode ≠ 1 then s.takeId (word p 1)
  else if s.rdN P.SYS_NODE_ID ≠ 0 && !bitOf (word p 0) 2 then okay s [s.rd P.SYS_NODE_ID]
  else if bitOf (word p 0) 3 then s.takeId (word p 1 - hops)
  else s.takeId (word p 1 + hops)
def execNodeSetidById (h : Hdr) (p : List Word) (s : State) : Host.Outcome State Fault Refusal :=
  .next (s.receive 0x06 h (forceMode p 0 2 0) (setidBody h (forceMode p 0 2 0)))
def execNodeSetidSequence (h : Hdr) (p : List Word) (s : State) : Host.Outcome State Fault Refusal :=
  .next (s.receive 0x06 h (forceMode p 0 2 1) (setidBody h (forceMode p 0 2 1)))
def execNodeSetidByPosition (h : Hdr) (p : List Word) (s : State) : Host.Outcome State Fault Refusal :=
  .next (s.receive 0x06 h (forceMode p 0 2 2) (setidBody h (forceMode p 0 2 2)))

/-! ### PAR.READ and PAR.STAGED (R50, R53) -/

/-- What refuses COUNT values of consecutive indices from an address: an unassigned item, COUNT 0, an index past the last (log 13). -/
def spanRefusal (start count : Nat) : Option Nat := match Params.row start with
  | none => some stBadParam
  | some r => if count = 0 || r.last + 1 < Params.indexOf start + count then some stRange else none

/-- The addresses of a span. -/
def spanKeys (start count : Nat) : List Nat := (List.range count).map (· + start)

/-- A read of a span of parameters: the values, given the state with the reading command outstanding (log 46). -/
def readBody (code : Nat) (h : Hdr) (p : List Word) (values : State → List Nat → List Word) (s : State) : State × Answer :=
  if p.length ≠ 2 || 256 ≤ word p 1 then refuse s stBadParam
  else match spanRefusal (word p 0) (word p 1) with
    | some st => refuse s st
    | none => okay s (values (s.hold code h p none none) (spanKeys (word p 0) (word p 1)))

def parReadBody (h : Hdr) (p : List Word) : State → State × Answer := readBody 0x10 h p (fun s ks => ks.map s.readNow)
def execParRead (h : Hdr) (p : List Word) (s : State) : Host.Outcome State Fault Refusal := .next (s.receive 0x10 h p (parReadBody h p))

/-- The staged values with the bit mask, bit i set when value i is staged.  R53 places the mask nowhere: the model puts it after the values, 32 bits
to a word, bit i of the mask in bit i mod 32 of word i / 32 (log 107). -/
def State.stagedSpan (s : State) (ks : List Nat) : List Word :=
  let value := fun k => (Sparse.find? s.cmd.staged k).getD (s.readNow k)
  let mask := fun i => (((ks.drop (32 * i)).take 32).mapIdx (fun j k => b2n (Sparse.find? s.cmd.staged k).isSome * 2 ^ j)).sum
  ks.map value ++ (List.range (ceilDiv ks.length 32)).map (fun i => BitVec.ofNat 32 (mask i))
def parStagedBody (h : Hdr) (p : List Word) : State → State × Answer := readBody 0x12 h p State.stagedSpan
def execParStaged (h : Hdr) (p : List Word) (s : State) : Host.Outcome State Fault Refusal := .next (s.receive 0x12 h p (parStagedBody h p))

/-! ### PAR.WRITE (R10, R12, R51 to R56) -/

/-- The rules that relate an RWI parameter to another (R195, and the THM block's; log 11). -/
def State.writeRelation (s : State) (k : Nat) (v : Word) : Bool :=
  let at_ := fun x => if x = k then v.toNat else s.rdN x
  if k = P.THM_STOP_DRAIN || k = P.THM_STOP_MAX then decide (at_ P.THM_STOP_DRAIN < at_ P.THM_STOP_MAX)
  else if k = P.TB_LOCK_WINDOW || k = P.TB_JUMP_LIMIT then decide (at_ P.TB_LOCK_WINDOW ≤ at_ P.TB_JUMP_LIMIT)
  else true

/-- An RWI parameter of the calibration engine is held while the engine runs (R54, log 48). -/
def State.heldWrite (s : State) (k : Nat) : Bool := decide (P.CAL_SAMPLES ≤ k) && decide (k ≤ P.CAL_SHUNT_TOL) && s.calStateOf != calIdle

/-- Step 6 of Table 2-2 for an entry: the item is assigned and may be written. -/
def entryForm (k : Nat) : Option Nat := match Params.row k with
  | none => some stBadParam
  | some r => if r.access = .ro then some stBadParam else none

/-- Step 7 for an entry, on the state that the entries before it leave: its index, its range, and the relations between RWI parameters (log 11). -/
def State.entryRange (s : State) (k : Nat) (v : Word) : Option Nat := match Params.row k with
  | none => none
  | some r =>
    if r.last < Params.indexOf k then some stRange
    else match r.access with
      | .rwe => if Params.admits r.range (Params.indexOf k) v then none else some stRange
      | .rwi => if Params.admits r.range (Params.indexOf k) v && s.writeRelation k v then none else some stRange
      | _ => none

/-- Step 8 for an entry, on the state that the entries before it leave: a sealed or full staging area, a parameter held by a running operation
(R54, R56). -/
def State.entryHeld (s : State) (k : Nat) : Option Nat := match Params.row k with
  | none => none
  | some r => match r.access with
    | .rwe =>
      if s.cmd.commit.isSome then some stEpochConflict
      else if (Sparse.find? s.cmd.staged k).isNone && 4096 ≤ s.cmd.staged.length then some stBusy
      else none
    | .rwi => if s.heldWrite k then some stLocked else none
    | _ => none

/-- Bits of SRM_REGION_CRIT that always read 1 (R309). -/
def fixedCrit (k : Nat) : Word := if k = P.SRM_REGION_CRIT 0 then 0xFFFFFFFF else if k = P.SRM_REGION_CRIT 6 then 0x0000FFFF else 0

/-- A write to a W1C item.  A cycle skipped before it is shown first, one that begins with it after (R11, R125), and FE_IN_STATUS[7] stays set while the
input's source is at compliance (R81). -/
def State.clearStatus (s : State) (k mask : Nat) (v : Word) : State :=
  let i := Params.indexOf k
  let s := if k = P.ADC_GRP_STATUS i then s.noteSkip i s.now else s
  let s := s.writeW1c k mask v
  let s := if k = P.ADC_GRP_STATUS i then s.noteSkip i (s.now + 1) else s
  let c := s.rdN (P.FE_IN_EXC i)
  if k = P.FE_IN_STATUS i && decide (c < 64) && (s.source c).compliance.since.isSome then s.setBit k 7 else s

/-- An accepted entry takes effect: an RWE value is staged, an RWI value written, and the W1C bits written as 1 are cleared. -/
def State.writeParam (s : State) (k : Nat) (v : Word) : State := match Params.row k with
  | none => s
  | some r => match r.access with
    | .ro => s
    | .rwe => ({ s with cmd := { s.cmd with staged := Sparse.put s.cmd.staged k v } }).wrN P.SYS_EPOCH_STATE 1
    | .rwi =>
      let s := s.wr k (v ||| fixedCrit k)
      let s := if k / 65536 = P.MGT_CNT_SEL 0 / 65536 then s.queueSelect (Params.indexOf k) (some v.toNat) else s
      if Params.saved k then s.setMgt { s.mgt with saveHourly := true } else s
    | .w1c mask => s.clearStatus k mask v

/-- The entries of a packet. -/
def entriesOf : List Word → List (Nat × Word)
  | k :: v :: ws => (k.toNat, v) :: entriesOf ws
  | _ => []

/-- The entries in packet order, each checked on the state the entries before it leave: the status and the position of the first that fails a
check. -/
def firstFailing (check : State → Nat → Word → Option Nat) : Nat → List (Nat × Word) → State → Option (Nat × Nat)
  | _, [], _ => none
  | i, (k, v) :: es, s => match check s k v with
    | some st => some (st, i)
    | none => firstFailing check (i + 1) es (s.writeParam k v)

/-- The first check of a write that fails, in the order of Table 2-2: step 6 over all entries, then step 7, then step 8 (R34; log 11). -/
def State.writeRefusal (s : State) (es : List (Nat × Word)) : Option (Nat × Nat) :=
  match firstFailing (fun _ k _ => entryForm k) 0 es s with
  | some e => some e
  | none => match firstFailing State.entryRange 0 es s with
    | some e => some e
    | none => firstFailing (fun s k _ => s.entryHeld k) 0 es s

/-- The entries act in packet order. -/
def State.writeAll (s : State) (es : List (Nat × Word)) : State := es.foldl (fun s (e : Nat × Word) => s.writeParam e.1 e.2) s

/-- The whole write takes effect, or none of it does (R51). -/
def State.parWrite (s : State) (p : List Word) : State × Nat × List Word :=
  let es := entriesOf (p.drop 1)
  match s.writeRefusal es with
  | none => (s.writeAll es, stOk, [])
  | some e => (s, e.1, [BitVec.ofNat 32 e.2])

def parWriteBody (h : Hdr) (p : List Word) (s : State) : State × Answer :=
  let count := word p 0
  if p.length = 0 || 256 ≤ count || p.length ≠ 1 + 2 * count then refuse s stBadParam
  else if count = 0 then refuse s stRange
  else
    let r := s.parWrite p
    if h.sched && r.2.1 = stOk then (s, .later (some h.timeTag.toNat)) else (r.1, .final r.2.1 r.2.2)
def execParWrite (h : Hdr) (p : List Word) (s : State) : Host.Outcome State Fault Refusal := .next (s.receive 0x11 h p (parWriteBody h p))

/-! ### Snapshots (R29, R64 to R66) -/

def snapTakeBody (h : Hdr) (p : List Word) (s : State) : State × Answer :=
  let instant := s.actInstant h
  if p.length ≠ 2 || bitOf (word p 0) 0 || 1048576 ≤ word p 0 || 2 ≤ word p 1 then refuse s stBadParam
  else if s.cmd.snapWait.isSome then refuse s stBusy
  else
    let s := { s with cmd := { s.cmd with snapWait := some { h, mask := word p 0, clear := word p 1 == 1, instant } } }
    (s, if h.sched then .later (some instant) else .quiet (some instant))
def execSnapTake (h : Hdr) (p : List Word) (s : State) : Host.Outcome State Fault Refusal := .next (s.receive 0x03 h p (snapTakeBody h p))

/-- The W1C bits of the selected blocks are cleared. -/
def State.clearW1c (s : State) (mask : Nat) : State :=
  s.par.foldl (fun s (kv : Nat × Word) => match Params.row kv.1 with
    | some r => (match r.access with
      | .w1c m => if bitOf mask (Params.blockOf kv.1) then s.clrBits kv.1 m else s
      | _ => s)
    | none => s) s

/-- SNAP_LATCH (R29, R64, R65): the latching instant has come; the new epoch of that instant is latched (R46; log 12).  R64 gives the final reply's
values no words: the model sends SYS_SNAP_ID, then the instant's low and high word (log 107). -/
def snapLatch (s : State) : State := match s.cmd.snapWait with
  | none => s
  | some w =>
    if s.now < w.instant || s.commitBefore w.instant || s.earlierFirst w.h w.instant then s
    else
      let at_ := s.actAt w.instant
      let s := (s.wrN P.SYS_SNAP_ID ((s.rdN P.SYS_SNAP_ID + 1) % 65536)).wr64 (P.SYS_SNAP_TIME 0) at_
      let x : Snapshot := { id := s.rdN P.SYS_SNAP_ID, instant := at_, mask := w.mask, par := s.par, computed := s.computedAll, take := w, die := s.active
                            reply := s.rdN (P.REC_SEQ 7) }
      let s := { s with cmd := { s.cmd with snap := some x, snapWait := none } }
      let s := if w.clear then s.clearW1c w.mask else s
      s.finish 0x03 w.h stOk [BitVec.ofNat 32 x.id, lo32 at_, hi32 at_]
def execSnapLatch (t : Nat) (s : State) : Host.Outcome State Fault Refusal := .next (snapLatch (s.at_ t))

/-- What the snapshot holds of a parameter. -/
def Snapshot.read (x : Snapshot) (k : Nat) : Word := (Sparse.find? x.computed k).getD (Sparse.get (Params.reset k) x.par k)

def snapReadBody (p : List Word) (s : State) : State × Answer :=
  if p.length ≠ 3 || 65536 ≤ word p 0 || 256 ≤ word p 2 || word p 0 ≠ s.rdN P.SYS_SNAP_ID then refuse s stBadParam
  else match spanRefusal (word p 1) (word p 2) with
    | some st => refuse s st
    | none => match s.cmd.snap with
      | none => refuse s stRange
      | some x => if bitOf x.mask (Params.blockOf (word p 1)) then okay s ((spanKeys (word p 1) (word p 2)).map x.read) else refuse s stRange
def execSnapRead (h : Hdr) (p : List Word) (s : State) : Host.Outcome State Fault Refusal := .next (s.receive 0x04 h p (snapReadBody p))

/-! ### CANCEL (R47) -/

/-- A waiting scheduled command is withdrawn. -/
def State.withdraw (s : State) (o : Outstanding) : State :=
  let snapWait := match s.cmd.snapWait with
    | some w => if samePair w.h o.h then none else some w
    | none => none
  ({ s with cmd := { s.cmd with snapWait } }).finish o.op o.h stTimeout [1]

def cancelBody (h : Hdr) (p : List Word) (s : State) : State × Answer :=
  if p.length ≠ 1 || 65536 ≤ word p 0 then refuse s stBadParam
  else match s.cmd.outstanding.find? (fun o => o.h.issuer == h.issuer && o.h.tag.toNat == word p 0 && o.h.sched && o.due.isSome) with
    | none => refuse s stRange
    | some o => if ns o.h.timeTag.toNat < s.time + usec 10 then refuse s stLocked else okay (s.withdraw o)
def execCancel (h : Hdr) (p : List Word) (s : State) : Host.Outcome State Fault Refusal := .next (s.receive 0x05 h p (cancelBody h p))

/-! ### TST.INJECT (R415) -/

/-- Every injection of a kind ends; the time base leaves its test when nothing else holds it there (R170). -/
def State.withdrawKind (s : State) (kind : Nat) : State :=
  let s := { s with red := { s.red with injections := s.red.injections.filter (fun i => i.kind != kind) } }
  if kind = 4 && s.tb.testing && s.tb.loopTests.isEmpty then s.endTest else s

def injectBody (p : List Word) (s : State) : State × Answer :=
  let kind := bits (word p 0) 3 0
  let die := bits (word p 0) 4 4
  let timed := kind = 2 || kind = 5
  let withdraw := bitOf (word p 0) 5
  if p.length ≠ 2 || 128 ≤ word p 0 then refuse s stBadParam
  else if 6 ≤ kind || (timed && (word p 1 = 0 || 1000000 < word p 1)) || (!timed && word p 1 ≠ 0) then refuse s stRange
  else if kind ≠ 4 && s.dieState (1 - die) ≠ dieInStep then refuse s stLocked
  else if withdraw then okay (s.withdrawKind kind)
  else
    let x : Injection := { kind, die, evidence := bitOf (word p 0) 6, until_ := s.time + usec (word p 1) }
    let s := { s with red := { s.red with injections := s.red.injections ++ [x] } }
    okay (if kind = 4 then s.beginTest else s)
def execTstInject (h : Hdr) (p : List Word) (s : State) : Host.Outcome State Fault Refusal := .next (s.receive 0xF1 h p (injectBody p))

/-! ### Receipt of a packet (R31 to R34) -/

/-- The checks and the effect an opcode runs once steps 1 to 5 hold. -/
def opcodeBody (code : Nat) (h : Hdr) (p : List Word) : State → State × Answer := match code with
  | 0x00 => nopBody p
  | 0x01 => identBody p
  | 0x02 => resetBody h p
  | 0x03 => snapTakeBody h p
  | 0x04 => snapReadBody p
  | 0x05 => cancelBody h p
  | 0x06 => setidBody h p
  | 0x07 => almAckBody p
  | 0x10 => parReadBody h p
  | 0x11 => parWriteBody h p
  | 0x12 => parStagedBody h p
  | 0x13 => epochCommitBody h p
  | 0x14 => epochAbortBody p
  | 0x15 => epochStatusBody p
  | 0x20 => acqBody 0x20 h p
  | 0x21 => acqBody 0x21 h p
  | 0x22 => acqForceBody h p
  | 0x23 => acqBody 0x23 h p
  | 0x24 => acqFetchBody h p
  | 0x30 => calRunBody h p
  | 0x31 => calAbortBody p
  | 0x32 => calShuntBody h p
  | 0x33 => calReadBody p
  | 0x40 => tbReadBody p
  | 0x41 => tbDomainBody h p
  | 0x42 => tbAsymBody h p
  | 0x43 => tbJumpBody h p
  | 0x44 => tpoArmBody h p
  | 0x50 => plotNewBody p
  | 0x51 => plotFreeBody p
  | 0x52 => plotListBody p
  | 0x53 => memReadBody h p
  | 0x54 => memTestBody p
  | 0x60 => redStatusBody p
  | 0x61 => redSwitchBody p
  | 0x62 => redSelftestBody h p
  | 0x70 => lnkStatusBody p
  | 0x71 => lnkEyescanBody h p
  | 0x72 => lnkFallowBody p
  | 0x73 => lnkWakeBody h p
  | 0x74 => lnkRetrainBody h p
  | 0x80 => mgtOpenBody h p
  | 0x81 => mgtCloseBody p
  | 0x82 => mgtLogBody p
  | 0x83 => mgtCntBody p
  | 0x84 => mgtFwWriteBody h p
  | 0x85 => mgtFwCommitBody h p
  | 0x86 => attestBody h p
  | 0xF0 => tstLoopBody h p
  | 0xF1 => injectBody p
  | 0xF2 => checkbitBody h p
  | _ => fun s => refuse s stBadOpcode

/-- The opcode of a packet (Table 2-1). -/
def packetOpcode (bs : List Byte) : Nat := bits (word64 bs 0) 7 0

/-- The bytes of the parameter field of a packet. -/
def packetParams (bs : List Byte) : List Byte := (bs.drop 16).take (bs.length - 20)

/-- The header of a packet (Table 2-1), received at an instant; a parameter field that is no whole number of words agrees with no LENGTH. -/
def packetHeader (x : Packet) (t : Nat) : Hdr :=
  let w := word64 x.bytes 0
  { at_ := t, issuer := BitVec.ofNat 12 x.issuer, auth := x.auth, arrival := x.arrival, target := BitVec.ofNat 12 (bits w 43 32)
    tag := BitVec.ofNat 16 (bits w 31 16), bcast := bitOf w 10, priv := bitOf w 9, sched := bitOf w 8
    reserved := BitVec.ofNat 9 (32 * bits w 47 44 + bits w 15 11)
    length := if x.bytes.length % 4 = 0 then BitVec.ofNat 16 (bits w 63 48) else 0xFFFF
    timeTag := BitVec.ofNat 64 (word64 x.bytes 1), crc := BitVec.ofNat 32 (leNat (x.bytes.drop (x.bytes.length - 4))) }

/-- COMMAND_RECEIPT (R33, R34): the packet that reached the node first is judged; one whose CRC fails is discarded and counted (log 98). -/
def commandReceipt (s : State) : State := match s.clp.inbox with
  | [] => s
  | x :: rest =>
    let s := { s with clp := { s.clp with inbox := rest } }
    if !s.takesCommands then s
    else if x.bytes.length < 20 || !packetCrcGood x.bytes then (s.addSat P.SYS_CMD_CRC_COUNT 1).setBit P.SYS_CMD_FLAGS 0
    else
      let h := packetHeader x s.time
      let p := wordsOf (packetParams x.bytes)
      let code := packetOpcode x.bytes
      s.receive code h p (opcodeBody code h p)
def execCommandReceipt (t : Nat) (s : State) : Host.Outcome State Fault Refusal := .next (commandReceipt (s.at_ t))

/-- REPLY_RETENTION_EXPIRY (R40): replies sent 1 ms ago are no longer kept. -/
def replyRetentionExpiry (s : State) : State := { s with cmd := { s.cmd with kept := s.cmd.kept.filter (fun k => decide (s.time < k.until_)) } }
def execReplyRetentionExpiry (t : Nat) (s : State) : Host.Outcome State Fault Refusal := .next (replyRetentionExpiry (s.at_ t))

/-! ### Waiting commands act (R44 to R46) -/

/-- The opcodes whose waiting commands act here; calibration, alarm and snapshot commands have events of their own. -/
def actingOps : List Nat := [0x02, 0x11, 0x20, 0x21, 0x22, 0x23, 0x41, 0x44, 0x50, 0x51]

/-- A plot command has acted: its reply, and a save of the configuration when it changed the plots (R493). -/
def State.plotReply (o : Outstanding) (r : State × Nat × List Word) : State :=
  let s := r.1.finish o.op o.h r.2.1 r.2.2
  if r.2.1 = stOk then s.requestSave else s

/-- A waiting command acts at its instant. -/
def State.actCommand (s : State) (o : Outstanding) : State :=
  let at_ := s.actAt (o.due.getD 0)
  match o.op with
  | 0x02 => (s.finish 0x02 o.h stOk []).queueReset o.p
  | 0x11 => let r := s.parWrite o.p; r.1.finish 0x11 o.h r.2.1 r.2.2
  | 0x22 => (s.undue o.h).forceEnqueue o.h o.p at_
  | 0x41 => let r := s.domainAct o.p; r.1.finish 0x41 o.h stOk r.2
  | 0x44 => s.tpoScheduled o.h o.p
  | 0x50 => State.plotReply o (plotNewAct s o.p)
  | 0x51 => State.plotReply o (plotFreeAct s o.p)
  | _ => (s.undue o.h).acqEnqueue o.h o.op o.p at_

/-- The node takes an ID, which it shows as the end it is itself (R351, R368). -/
def State.nameNode (s : State) (id : Nat) : State :=
  [0, 1].foldl (fun s p => if s.rdN (P.CLP_POS_HOPS p) = 0 then s.wrN (P.CLP_POS_END p) id else s) (s.wrN P.SYS_NODE_ID id)

/-- SCHEDULED_COMMAND_ACT: a new node ID takes effect at its boundary (R368), else the waiting command due first acts, after a commit of the
same instant (R46). -/
def scheduledCommandAct (s : State) : State :=
  let next := match s.dueCommand actingOps with
    | some o => if s.commitBefore (o.due.getD 0) || s.earlierFirst o.h (o.due.getD 0) then s else s.actCommand o
    | none => s
  match s.cmd.newId with
  | some (id, t) => if t ≤ s.now then ({ s with cmd := { s.cmd with newId := none } }).nameNode id else next
  | none => next
def execScheduledCommandAct (t : Nat) (s : State) : Host.Outcome State Fault Refusal := .next (scheduledCommandAct (s.at_ t))

end Sys2Proof.Machine
end

