-- ==== Sys2Proof/Machine/Control.lean ====
section
/-! DEFINITION. The control items that the concentrator dies send to the front ends (R17, R411). -/

namespace Sys2Proof.Machine

/-- A front end holds an RWE or RWI parameter of its blocks FE, ADC and TMR: its share of the indices. -/
def feHolds (fe k : Nat) : Bool := (Params.blockOf k == 2 || Params.blockOf k == 3 || Params.blockOf k == 4)
  && (match Params.row k with
    | some r => (r.access == .rwe || r.access == .rwi) && decide (3 ≤ r.last) && decide (Params.indexOf k ≤ r.last) && 4 * Params.indexOf k / (r.last + 1) == fe
    | none => false)
def admitted (k : Nat) (v : Word) : Bool := match Params.row k with
  | some r => Params.admits r.range (Params.indexOf k) v
  | none => false

/-- A front end acts on an item: a parameter it holds takes the value, with the effect a change of it has at that instant (R17; log 57). -/
def State.feActs (s : State) (fe : Nat) (item : FeItem) : State :=
  let s := { s with red := { s.red with acted := (fe, item) :: s.red.acted } }
  if feHolds fe item.target && admitted item.target item.value && s.rd item.target ≠ item.value then
    ({ s with cmd := { s.cmd with oldPar := s.par, parFrom := s.now } }.wr item.target item.value).takeUp s s.now
  else s

/-- A front end reports a disagreement (R17, R398). -/
def State.reportControl (s : State) : State := (s.setBit P.RED_STATUS 7).mismatch kindFeCtrl s.red.slot

/-- At the slot markers, items without an equal partner in the comparison window are decided by the claims: the winner's copy is acted on, the other
discarded (R411; log 57). -/
def State.resolveControls (s : State) : State :=
  let stale := fun (x : HeldControl) => x.differs || decide (x.since + usec 4 ≤ s.time)
  let late := s.red.held.filter stale
  let s' := { s with red := { s.red with held := s.red.held.filter (fun x => !stale x) } }
  let s' := if late.any (fun x => !x.differs) then s'.reportControl else s'
  (late.filter (fun x => x.die == s.winner)).foldl (fun s x => s.feActs x.fe x.item) s'

/-- The item a die sends, altered by a FECTRL injection on its next item to FE0. -/
def State.sentControl (s : State) (fe d : Nat) (item : FeItem) : FeItem × State :=
  let hit := fun (i : Injection) => i.kind == 3 && i.die == d
  match (if fe = 0 then s.red.injections.find? hit else none) with
  | none => (item, s)
  | some i =>
    let s := { s with red := { s.red with injections := s.red.injections.filter (fun j => !hit j) } }
    let s := if i.evidence then s.setDie d { s.die d with evidence := 3 } else s
    ({ item with value := item.value ^^^ 1 }, s)

/-- FE_CONTROL_ITEM (R17, R411): a control item of a die reaches a front end (log 57). -/
def feControlItem (fe d : Nat) (item : FeItem) (s : State) : State :=
  if !s.inService d then s
  else
    let r := s.sentControl fe d item
    let item := r.1
    let s := r.2
    if !s.inService (1 - d) then s.feActs fe item
    else match s.red.held.find? (fun x => x.fe == fe && x.die == 1 - d && !x.differs) with
      | none => { s with red := { s.red with held := s.red.held ++ [{ fe, die := d, item, since := s.time, differs := false }] } }
      | some x =>
        let rest := s.red.held.filter (fun y => y != x)
        if x.item = item && s.time < x.since + usec 4 then ({ s with red := { s.red with held := rest } }).feActs fe item
        else
          let both : List HeldControl := [{ x with differs := true }, { fe, die := d, item, since := x.since, differs := true }]
          ({ s with red := { s.red with held := rest ++ both } }).reportControl
def execFeControlItem (t : Nat) (fe : Fin 4) (die : Fin 2) (item : FeItem) (s : State) : Host.Outcome State Fault Refusal :=
  .next (feControlItem fe die item (s.at_ t))

/-- FE_CONTROL_HOLD_TIMEOUT (R411): items held for 50 µs without claims that name a winner are discarded (log 57). -/
def feControlHoldTimeout (fe : Nat) (s : State) : State :=
  { s with red := { s.red with held := s.red.held.filter (fun x => !(x.fe == fe && decide (x.since + usec 50 ≤ s.time))) } }
def execFeControlHoldTimeout (t : Nat) (fe : Fin 4) (s : State) : Host.Outcome State Fault Refusal := .next (feControlHoldTimeout fe (s.at_ t))

end Sys2Proof.Machine
end

