-- ==== Sys2Proof/Machine/Slot.lean ====
section
/-! DEFINITION. Meanings of the slot rows (R15, R22, R23, R392 to R394): the die links, slot markers, the processing of a slot, and the records the
clock brings about (R165, R254). -/

namespace Sys2Proof.Machine

/-! ### The links of a die -/

/-- The five sources in the order in which a slot's items are taken (R22): FE0 to FE3, LK. -/
def sources : List Nat := [0, 1, 2, 3, 4]

/-- A die takes part in slot processing: IN_STEP, or SYNCING from the boundary of R413 on (log 19). -/
def State.processes (s : State) (d : Nat) : Bool := s.dieState d == dieInStep || (s.dieState d == dieSyncing && (s.die d).syncFrom.isSome)

def State.gotOf (s : State) (d src : Nat) : List StreamItem := Sparse.get [] s.link.got (8 * d + src)
def State.setGot (s : State) (d src : Nat) (xs : List StreamItem) : State :=
  { s with link := { s.link with got := Sparse.set [] s.link.got (8 * d + src) xs } }
def State.sentOf (s : State) (d src : Nat) : List StreamItem := Sparse.get [] s.link.sent (8 * d + src)
def State.setSent (s : State) (d src : Nat) (xs : List StreamItem) : State :=
  { s with link := { s.link with sent := Sparse.set [] s.link.sent (8 * d + src) xs } }

/-- The slot of the first marker of a stream; the items before it, and those after it. -/
def nextMarker : List StreamItem → Option Nat
  | [] => none
  | .marker k :: _ => some k
  | _ :: xs => nextMarker xs
def beforeMarker : List StreamItem → List StreamItem
  | [] => []
  | .marker _ :: _ => []
  | x :: xs => x :: beforeMarker xs
def afterMarker : List StreamItem → List StreamItem
  | [] => []
  | .marker _ :: xs => xs
  | _ :: xs => afterMarker xs

/-- Items of slots already processed go, up to the last such marker (R23; log 17). -/
def dropLate (next : Nat) : Nat → List StreamItem → List StreamItem
  | 0, xs => xs
  | fuel + 1, xs => match nextMarker xs with
    | some k => if k < next then dropLate next fuel (afterMarker xs) else xs
    | none => xs

/-- FLIT_RECEIVE (R15, R16, R18, R22, R342): the next items of a link arrive in order; a flit whose CRC fails is requested again and counted.  A die
that processes no slots keeps nothing (log 19). -/
def flitReceive (d src n : Nat) (good : Bool) (s : State) : State :=
  let s := s.testFlit d src good
  if !good then s.countIn d 1 src 1
  else
    let s := s.countIn d 2 src 1
    let sent := s.sentOf d src
    let s := s.setSent d src (sent.drop n)
    if s.processes d then
      let xs := s.gotOf d src ++ sent.take n
      let s := s.setDie d { s.die d with late := (s.die d).late.filter (fun m => !(m.2 == src && (sent.take n).contains (.marker m.1))) }
      s.setGot d src (dropLate (s.die d).slot xs.length xs)
    else s
def execFlitReceive (t : Nat) (die : Fin 2) (source : Fin 5) (items : Nat) (crcGood : Bool) (s : State) : Host.Outcome State Fault Refusal :=
  .next (flitReceive die source items crcGood (s.at_ t))

/-! ### Slot boundaries (R22, R392, R408, R483, R497) -/

/-- Nothing waits on the links of a die that processes no slots. -/
def State.idleLinks (s : State) (d : Nat) : State :=
  if s.processes d then s else sources.foldl (fun s src => (s.setSent d src []).setGot d src []) s

/-- SLOT_BOUNDARY: every source ends its slot with a marker; the claims the markers carry apply from here on (R392), counters are exchanged (R483),
dies that are ready join, and the module enters service when it can (R497, R498). -/
def slotBoundary (s : State) : State :=
  let slot := s.now / 1000
  if s.now % 1000 ≠ 0 || slot ≤ s.red.slot then s
  else
    let s := { s.settle with red := { s.settle.red with slot, forced := s.red.forcedNext } }.compareAlarms (slot - 8)
    let s := sources.foldl (fun s src => s.send src (.marker (slot - 1))) s
    let s := (s.idleLinks 0).idleLinks 1
    ((s.plannedWinner.resolveControls).exchangeCounters.joinDies).enterService
def execSlotBoundary (t : Nat) (s : State) : Host.Outcome State Fault Refusal := .next (slotBoundary (s.at_ t))

/-! ### Processing a slot (R22, R23, R213, R251, R252, R255, R393, R452, R481) -/

/-- A stamp may still lie in the window of a capture: not before the oldest word its group's ring holds, or in the last 200 ms where it holds none. -/
def State.stampHeld (s : State) (n x : Nat) : Bool := match s.oldestHeld (n / 4) with
  | some a => decide (4096 * a ≤ x)
  | none => decide (s.time ≤ x + msec 200)

/-- A stamp word as a die takes it: for the STP record where the input's stamps are recorded, and for the measurements of captures (R226). -/
def State.takeStamp (s : State) (w : W64) (t : Nat) : State :=
  let n := bits w.toNat 19 11
  let fine := 4096 * t + bits w.toNat 31 20
  let old := (Sparse.get [] s.trg.stamps n).filter (fun x => !s.trg.captures.isEmpty || s.stampHeld n x)
  let s := { s with trg := { s.trg with stamps := Sparse.set [] s.trg.stamps n (fine :: old) } }
  if (s.viewAt t).rdN (P.TMR_STP_EN n) = 1 then s.addStp w t else s

/-- What an item of slot k does; an alarm event waits for the trigger step of its instant (R452), and a MISMATCH item tells the die to run its checks,
which ATTRIBUTION_CHECK does (R403). -/
def State.takeStream (k : Nat) (s : State) : StreamItem → State
  | .marker _ => s
  | .stamp w t => s.takeStamp w t
  | .hit h => s.takeHit h
  | .interval ws close => s.addItv ws close
  | .alarm e => { s with trg := { s.trg with events := s.trg.events ++ [.alarm (min e.instant (1000 * k + 999)) e] } }
  | .mismatch _ _ => s
  | .announce a => { s with trg := { s.trg with announces := s.trg.announces ++ [a] } }

/-- The digest of a slot follows its frames: the slot, their number, the two CRCs over what the spec gives no layout, and the claims the dies carry with it
(R392, R393; log 18). -/
def State.emitDigest (s : State) (k : Nat) : State :=
  let (controls, s) := s.takeFree
  let (changes, s) := s.takeFree
  let s := s.emit (.digest k (s.red.order - s.red.digested) controls changes ⟨s.claim 0, s.claim 1⟩)
  { s with red := { s.red with digested := s.red.order } }

/-- What processing slot k with its items does: its items in their order, the log (R481), the trigger step, the ALM record of the slot and the digest
(log 17). -/
def State.slotEffects (s : State) (k : Nat) (items : List StreamItem) : State :=
  let current := s.red.slot
  let s := { s with red := { s.red with slot := k, done := k + 1 } }
  let s := items.foldl (State.takeStream k) s
  let s := (s.flushLog (1000 * (k + 1))).triggerStep k
  let s := (s.closeAlm).emitDigest k
  { s with red := { s.red with slot := current } }

/-- The next slot of a die: the lowest whose marker has come, else the one after the last it processed. -/
def State.nextSlot (s : State) (d : Nat) : Nat := ((sources.filterMap (fun src => nextMarker (s.gotOf d src))).min?).getD (s.die d).slot

/-- The sources whose marker of a slot has not come. -/
def State.absent (s : State) (d k : Nat) : List Nat := sources.filter (fun src => nextMarker (s.gotOf d src) != some k)

/-- The items of slot k that have come: those before its marker, and what a source without any marker has sent so far, unless it still owes the marker of
an earlier slot, whose items are late and not processed any more (R23). -/
def State.slotItems (s : State) (d k : Nat) : List StreamItem :=
  sources.flatMap (fun src => match nextMarker (s.gotOf d src) with
    | some m => if m = k then beforeMarker (s.gotOf d src) else []
    | none => if (s.die d).late.any (fun m => m.2 == src) then [] else s.gotOf d src)

/-- The die has taken slot k; markers that were missing are noted, for its items of that slot (R23; log 17), and the slot's items are kept (R394). -/
def State.passSlot (s : State) (d k : Nat) : State :=
  let late := (s.absent d k).map (fun src => (k, src))
  let items := s.slotItems d k
  let s := sources.foldl (fun s src => match nextMarker (s.gotOf d src) with
    | some m => if m = k then s.setGot d src (afterMarker (s.gotOf d src)) else s
    | none => s.setGot d src []) s
  let mark := fun (x : HeldItem) => if x.slot = k && !late.isEmpty then { x with incomplete := true } else x
  let s := { s with link := { s.link with kept := s.link.kept.set d (((k, items) :: s.link.kept.get d).take 16) } }
  let x := s.die d
  let recent := fun (m : Nat × Nat) => decide (k ≤ m.1 + 16)
  s.setDie d { x with slot := k + 1, missing := (x.missing ++ late).filter recent, late := x.late ++ late
                      out := x.out.map mark, held := x.held.map mark }

/-- A die processes slot k.  Its effects on the module come about once, with the first die IN_STEP that has every item, or the last that can
process it. -/
def State.processSlot (s : State) (d k : Nat) : State :=
  let o := 1 - d
  let items := s.slotItems d k
  let whole := (s.absent d k).isEmpty
  if s.dieState d ≠ dieInStep || k < s.red.done then s.passSlot d k
  else if !whole && s.dieState o = dieInStep && (s.die o).slot ≤ k then s.passSlot d k
  else (s.passSlot d k).slotEffects k items

/-- A slot that this die has passed without all its items still waits for the other die. -/
def State.awaitsOther (s : State) (d : Nat) : Bool :=
  s.dieState d == dieInStep && decide (s.red.done < (s.die d).slot) && s.dieState (1 - d) == dieInStep && decide ((s.die (1 - d)).slot ≤ s.red.done)

/-- SLOT_PROCESS (R22): the markers of all five sources have come. -/
def slotProcess (d : Nat) (s : State) : State :=
  let k := s.nextSlot d
  if !s.processes d || !(s.absent d k).isEmpty || s.awaitsOther d then s else s.processSlot d k
def execSlotProcess (t : Nat) (die : Fin 2) (s : State) : Host.Outcome State Fault Refusal := .next (slotProcess die (s.at_ t))

/-- SLOT_MARKER_TIMEOUT (R23): 2 µs after the end of the slot a marker is still missing (log 16). -/
def slotMarkerTimeout (d : Nat) (s : State) : State :=
  let k := s.nextSlot d
  if !s.processes d || (s.absent d k).isEmpty || s.now < 1000 * (k + 1) + 2000 || s.awaitsOther d then s else s.processSlot d k
def execSlotMarkerTimeout (t : Nat) (die : Fin 2) (s : State) : Host.Outcome State Fault Refusal := .next (slotMarkerTimeout die (s.at_ t))

/-! ### Records of the clock (R165, R253, R254) -/

/-- A BCN record of the present instant (R165, R253), or, `stepped`, of the latest step instant. -/
def State.beacon (s : State) (stepped : Bool) : State :=
  let now := if stepped then s.tb.stepped - 1 else s.now
  let b0 := now / 4294967296 % 281474976710656
  let b1 := s.tbState + 8 * s.rdN P.TB_FOLLOWED + 32 * s.rdN P.TB_QUALITY + 128 * b2n stepped + 4294967296 * min 0xFFFFFFFF s.tbUncert
  let b2 := if stepped then s.rdN P.TB_LAST_STEP else 0
  s.build { kind := 4, time := now, last := now, kspec := 0, body := [BitVec.ofNat 64 b0, BitVec.ofNat 64 b1, BitVec.ofNat 64 b2], step := stepped, dir := s.recDir }

/-- BCN_WRAP (R165): bits [31:0] of the time have become 0 by counting. -/
def bcnWrap (s : State) : State := if s.running && s.time % 17592186044416 = 0 then s.beacon false else s
def execBcnWrap (t : Nat) (s : State) : Host.Outcome State Fault Refusal := .next (bcnWrap (s.at_ t))

/-- HSK_LATCH (R254): at a whole multiple of REC_HSK_PERIOD the listed parameters are latched into an HSK record. -/
def hskLatch (s : State) : State :=
  let period := s.rdN P.REC_HSK_PERIOD
  if !s.running || period = 0 || s.now % (1000000000 * period) ≠ 0 || s.commitDue then s
  else
    let words := (List.range (s.rdN P.REC_HSK_COUNT)).map (fun i =>
      let k := s.rdN (P.REC_HSK_ADDR i)
      BitVec.ofNat 64 (k + 4294967296 * (s.readNow k).toNat))
    s.build { kind := 5, time := s.now, last := s.now, kspec := words.length, body := words, dir := s.recDir }
def execHskLatch (t : Nat) (s : State) : Host.Outcome State Fault Refusal := .next (hskLatch (s.at_ t))

end Sys2Proof.Machine
end

