-- ==== Sys2Proof/Machine/TbStep.lean ====
section
/-! DEFINITION. Steps of the time base (R122, R148, R149, R158, R165, R186, R187, R194, R197, R204, R230, R280): TB_STEP and TB_JUMP_SET_APPLY. -/

namespace Sys2Proof.Machine

/-! ### Instants that mark durations move with the time base (log 49) -/

/-- An instant in ns, and one in 1/4096 ns, moved by a step in ns. -/
def mvN (d : Int) (t : Nat) : Nat := (t + d).toNat
def mvF (d : Int) (t : Nat) : Nat := (t + 4096 * d).toNat
def Spell.move (x : Spell) (d : Int) : Spell := { x with since := x.since.map (mvF d), past := x.past.map (fun p => (mvF d p.1, mvF d p.2.1, p.2.2)) }

/-- Chapter 2: kept replies, and boundaries counted from a receipt. -/
def CmdState.move (x : CmdState) (d : Int) : CmdState :=
  { x with kept := x.kept.map (fun k => { k with until_ := mvF d k.until_ }), newId := x.newId.map (fun y => (y.1, mvN d y.2))
           commit := x.commit.map (fun c => { c with applyAt := c.applyAt.map (mvN d) }) }

/-- Chapter 3: recovery windows, confirmations, spells, holds, sweeps, resets of the charge amplifiers, and the places of the last words. -/
def InputState.move (x : InputState) (d : Int) : InputState :=
  { x with setFrom := mvN d x.setFrom, wordAt := mvN d x.wordAt, lins := x.lins.map (fun l => { l with instant := mvN d l.instant })
           confFrom := x.confFrom.map (mvN d), confTo := mvN d x.confTo, brokenFrom := mvN d x.brokenFrom
           starts := x.starts.map (fun w => (mvN d w.1, mvN d w.2.1, w.2.2)), samples := x.samples.map (fun w => (mvN d w.1, mvN d w.2))
           clamps := ⟨x.clamps.a.move d, x.clamps.b.move d⟩, settle := x.settle.move d, fwd := none, rev := none, stlSince := x.stlSince.map (mvN d), sweep := x.sweep.map (mvN d)
           prims := ⟨{ x.prims.a with edges := [] }, { x.prims.b with edges := [] }⟩
           closed := x.closed.map (mvN d), resetDue := x.resetDue.map (mvN d), freed := x.freed.map (mvN d) }
def SourceState.move (x : SourceState) (d : Int) : SourceState :=
  { x with compliance := x.compliance.move d, sweepAt := x.sweepAt.map (mvN d), waitFrom := x.waitFrom.map (mvN d)
           listenFrom := x.listenFrom.map (mvN d) }
def FeState.move (x : FeState) (d : Int) : FeState :=
  { x with inputs := x.inputs.map (fun y => (y.1, y.2.move d)), sources := x.sources.map (fun y => (y.1, y.2.move d))
           vanLow := x.vanLow.map (fun y => (y.1, y.2.move d)), thr := x.thr.map (fun y => (y.1, mvN d y.2.1, y.2.2)) }

/-- Chapter 5: qualifiers, stampers, arbiters; a pulse in progress keeps its width and no pulse is placed before the step instant (R158). -/
def TimingState.move (x : TimingState) (d : Int) : TimingState :=
  { x with cross := x.cross.map (fun c => (mvF d c.1, c.2)), holdEnd := x.holdEnd.map (mvF d), busyUntil := mvF d x.busyUntil
           testFrom := x.testFrom.map (mvF d), start := x.start.map (· + 4096 * d), startAt := mvF d x.startAt, startStep := x.start.isSome
           starts := x.starts.map (fun e => (e.1 + 4096 * d, mvF d e.2)), levelAt := x.levelAt.map (mvF d) }
def TpoState.move (x : TpoState) (d : Int) (b : Nat) : TpoState :=
  { x with pulseEnd := x.pulseEnd.map (fun e => (e + 128 * d).toNat)
           schedule := x.schedule.map (fun c => { c with notBefore := (c.notBefore + 128 * d).toNat, stepFrom := 128 * b }) }
def TmrState.move (x : TmrState) (d : Int) (b : Nat) : TmrState :=
  { inputs := x.inputs.map (fun y => (y.1, y.2.move d)), tpos := x.tpos.map (fun y => (y.1, y.2.move d b))
    stampLast := x.stampLast.map (fun y => (y.1, y.2.1, mvF d y.2.2)), hitLast := x.hitLast.map (fun y => (y.1, y.2.1, mvF d y.2.2)) }

/-- Chapter 6: stamps of TIME blocks, silences, the holdover origin, records of the model; offsets of the domains shrink by the step. -/
def TimePort.move (x : TimePort) (d : Int) : TimePort :=
  { x with sent := x.sent.map (fun y => (y.1, mvF d y.2)), got := x.got.map (fun y => (y.1, mvF d y.2)) }
def Domain.move (x : Domain) (d : Int) : Domain := { x with heard := mvF d x.heard, offset := x.offset.map (· - d * nsUnit) }
def TbState.move (x : TbState) (d : Int) : TbState :=
  { x with domains := ⟨x.domains.a.move d, x.domains.b.move d⟩, ports := ⟨x.ports.a.move d, x.ports.b.move d⟩
           step := x.step.map (fun y => { y with instant := mvN d y.instant }), permits := x.permits.map (fun y => { y with instant := mvN d y.instant })
           lost := x.lost.map (fun e => { e with origin := mvF d e.origin })
           jumpSet := x.jumpSet.map (fun j => { j with boundary := j.boundary.map (mvN d), receipt := mvF d j.receipt })
           measures := x.measures.map (fun m => { m with errors := [], since := mvF d m.since })
           phase := x.phase - d * nsUnit, recent := [], inSince := none, outSince := none, measured := mvF d x.measured, selected := mvF d x.selected
           slewFrom := mvF d x.slewFrom, origin := mvF d x.origin, ppsAt := x.ppsAt.map (mvF d)
           records := x.records.map (fun r => (mvF d r.1, r.2)), fitted := mvF d x.fitted }

/-- Chapter 9: laps of the Gleaners, refreshes, and masters that wait for the background test. -/
def DieMemory.move (x : DieMemory) (d : Int) : DieMemory :=
  { x with granGleaner := { x.granGleaner with lapStart := mvF d x.granGleaner.lapStart }
           sramGleaner := { x.sramGleaner with lapStart := mvF d x.sramGleaner.lapStart }, lastRefresh := mvF d x.lastRefresh }
def MemState.move (x : MemState) (d : Int) : MemState :=
  { x with dies := ⟨x.dies.a.move d, x.dies.b.move d⟩, test := { x.test with waiting := x.test.waiting.map (fun w => { w with since := mvF d w.since }) }
           portFree := x.portFree.map (fun p => (p.1, (mvN d p.2.1, p.2.2))) }

/-- Chapter 10: states of the lanes, their windows and checks, polls, and commands that wait for a lane. -/
def Lane.move (x : Lane) (d : Int) : Lane :=
  { x with entered := mvF d x.entered, windowFrom := mvF d x.windowFrom, frozen := x.frozen.map (mvF d), checked := x.checked.map (mvF d) }
def LaneState.move (x : LaneState) (d : Int) : LaneState :=
  { x with lanes := x.lanes.map (fun y => (y.1, y.2.move d))
           ports := x.ports.map (fun y => (y.1, { y.2 with polled := mvF d y.2.polled, taken := y.2.taken.map (fun c => (c.1, mvF d c.2)), waits := y.2.waits.map (fun w => { w with until_ := mvF d w.until_ }) })) }

/-- Chapter 11: retransmit buffers, acknowledgements, positions, the dispatch banks; the portal's assembly, tags and rings. -/
def ClpPort.move (x : ClpPort) (d : Int) : ClpPort :=
  { x with retransmit := x.retransmit.map (fun f => { f with sentAt := mvF d f.sentAt }), xoffSince := mvF d x.xoffSince, ackAt := mvF d x.ackAt
           pos := x.pos.map (fun q => { q with at_ := mvF d q.at_ }), posSent := x.posSent.map (fun q => { q with at_ := mvF d q.at_ }) }
def Descriptor.move (x : Descriptor) (d : Int) : Descriptor := { x with pushed := mvN d x.pushed, cycle := mvN d x.cycle }
def ClpState.move (x : ClpState) (d : Int) : ClpState :=
  { x with ports := ⟨x.ports.a.move d, x.ports.b.move d⟩, fill := x.fill.map (·.move d), drain := x.drain.map (·.move d)
           stalled := x.stalled.map (·.move d), stalledSince := mvF d x.stalledSince
           emptyFrom := mvN d x.emptyFrom, readable := mvN d x.readable, pushNext := mvN d x.pushNext, popNext := mvN d x.popNext }
def PrtState.move (x : PrtState) (d : Int) : PrtState :=
  { x with assembly := x.assembly.map (fun a => { a with lastAt := mvF d a.lastAt }), tags := x.tags.map (fun t => { t with at_ := mvF d t.at_ })
           rings := x.rings.map (fun r => (r.1, { r.2 with firstUnsignalled := mvF d r.2.firstUnsignalled })) }

/-- Chapter 12: the dies' tests, waits and windows, what the comparator and the front ends hold, injections; slots are counted in the new time, and
those before it have been processed. -/
def DieState.move (x : DieState) (d : Int) (b : Nat) : DieState :=
  { x with readyAt := mvF d x.readyAt, preferAt := if x.preferAt = 0 then 0 else mvF d x.preferAt, testStart := mvF d x.testStart
           retryAt := x.retryAt.map (mvF d), ceTimes := x.ceTimes.map (mvF d), unresolved := x.unresolved.map (mvF d)
           syncFrom := x.syncFrom.map (mvN d), compareFrom := mvN d x.compareFrom
           held := x.held.map (fun y => { y with arrivedAt := mvF d y.arrivedAt }), slot := b / 1000, missing := [], late := [] }
def RedState.move (x : RedState) (d : Int) (b : Nat) : RedState :=
  { x with dies := ⟨x.dies.a.move d b, x.dies.b.move d b⟩, mismatch := x.mismatch.map (fun m => { m with at_ := mvF d m.at_ })
           held := x.held.map (fun y => { y with since := mvF d y.since }), injections := x.injections.map (fun i => { i with until_ := mvF d i.until_ })
           slot := (x.slot + d / 1000).toNat, done := b / 1000, gate := (0, x.gate.2) }

/-- Chapter 13: a running calibration and the periodic check. -/
def CalState.move (x : CalState) (d : Int) : CalState :=
  { x with run := x.run.map (fun r => { r with started := mvN d r.started, pointFrom := mvN d r.pointFrom, checked := mvN d r.checked
                                               abortAt := r.abortAt.map (mvN d) })
           checkedAt := mvN d x.checkedAt, pulses := x.pulses.map (fun p => (p.1, p.2.map (mvN d))) }

/-- Chapter 14: remote entries, refreshes, and the loops' updates and faults. -/
def AlarmView.move (x : AlarmView) (d : Int) : AlarmView := { x with remote := x.remote.map (fun e => { e with at_ := mvN d e.at_ }) }
def Loop.move (x : Loop) (d : Int) : Loop :=
  { x with last := mvN d x.last, lowSince := x.lowSince.map (mvF d), highSince := x.highSince.map (mvF d), overSince := x.overSince.map (mvF d)
           retryAt := x.retryAt.map (mvF d) }
def AlmState.move (x : AlmState) (d : Int) : AlmState :=
  { x with matrix := x.matrix.move d, ordered := x.ordered.move d, passed := ⟨[], []⟩, refreshed := x.refreshed.map (fun r => (r.1, mvF d r.2))
           loops := x.loops.map (fun l => (l.1, l.2.move d)) }

/-- Chapter 15: the session, the nonce and the lock-out. -/
def MgtState.move (x : MgtState) (d : Int) : MgtState :=
  { x with session := x.session.map (fun y => { y with until_ := mvF d y.until_ }), nonce := x.nonce.map (fun n => (n.1, mvF d n.2))
           lockedUntil := x.lockedUntil.map (mvF d) }

/-- Chapter 16: resets to come, sensors, the rise event and the orderly stop. -/
def SensorRuntime.move (x : SensorRuntime) (d : Int) : SensorRuntime :=
  { x with belowSince := x.belowSince.map (mvF d), history := x.history.map (fun h => (mvN d h.1, h.2)) }
def PwrState.move (x : PwrState) (d : Int) : PwrState :=
  { x with resets := x.resets.map (fun r => { r with instant := mvN d r.instant }), resetEnd := mvF d x.resetEnd
           sensors := x.sensors.map (fun y => (y.1, y.2.move d)), rise := x.rise.map (mvF d), calmSince := x.calmSince.map (mvF d)
           stopSince := x.stopSince.map (mvF d), coolSince := x.coolSince.map (mvF d)
           fes := x.fes.map (fun y => (y.1, { y.2 with warmSince := y.2.warmSince.map (mvF d), resetUntil := y.2.resetUntil.map (mvN d) })) }

/-- The time base reads another time from now on: node time and every instant that marks a duration move by S; b is the step instant in the new time
(log 49). -/
def State.moveTime (s : State) (d : Int) (b : Nat) : State :=
  { s with time := mvF d s.time, cmd := s.cmd.move d, fe := s.fe.move d, tmr := s.tmr.move d b, tb := s.tb.move d, mem := s.mem.move d
           lnk := s.lnk.move d, clp := s.clp.move d, prt := s.prt.move d, red := s.red.move d b, cal := s.cal.move d, alm := s.alm.move d
           mgt := s.mgt.move d, pwr := s.pwr.move d
           trg := { s.trg with ids := s.trg.ids.map (fun x => (x.1, mvF d x.2)) } }

/-! ### What ends at the step instant, in the old time -/

/-- The stamps of an input that are still being made are completed (log 50). -/
def State.completeStamps (s : State) (n : Nat) : State :=
  let x := s.timing n
  let s := s.setTiming n { x with making := x.making.map (fun m => { m with done := s.time }), cross := none }
  let s := x.making.foldl (fun s _ => stampWordComplete n s) s
  let s := s.takeStarts n
  s.setTiming n { s.timing n with cross := x.cross }

/-- The results of its closed sets are formed, and its stamp words and hits have reached the dies. -/
def State.drainTiming (s : State) (n : Nat) : State :=
  let x := s.timing n
  let s := s.setTiming n { x with cross := none }
  let s := x.closed.foldl (fun s _ => itvResultReady n s) s
  let s := x.buffer.foldl (fun s w => s.takeStamp w.2.2 w.2.1) s
  let s := (x.hitBuffer ++ x.hits).foldl State.takeHit s
  s.setTiming n { s.timing n with cross := x.cross, buffer := [], hits := [], hitBuffer := [] }

/-- Items on the links of a die that runs the node are taken; every link is empty. -/
def State.drainLinks (s : State) : State :=
  let d := if s.dieState 0 = dieInStep then 0 else 1
  let items := if s.running then sources.flatMap (fun src => s.gotOf d src ++ s.sentOf d src) else []
  let s := { s with link := {} }
  items.foldl (State.takeStream s.red.slot) s

/-- Captures still open at b end there with STEP and TRUNC (R233); a fragment with NOCAP keeps the window requested (R244; log 50). -/
def State.cutCaptures (s : State) (b : Nat) : State :=
  let cut := fun (c : Capture) =>
    if c.closed || c.end_ ≤ b then c
    else if c.groups.isEmpty then { c with flags := c.flags ||| 4, end_ := b }
    else
      let groups := c.groups.map (fun g => { g with post := min g.post (b - c.instant) })
      { c with groups, post := min c.post (b - c.instant), flags := c.flags ||| 6, end_ := b }
  let s := { s with trg := { s.trg with captures := s.trg.captures.map cut } }
  allGroups.foldl (fun s g =>
    let x := s.run g
    s.setRun g { x with slots := x.slots.map (fun y => (y.1, { y.2 with post := min y.2.post (b - y.2.instant) }))
                        stopAfter := x.stopAfter.map (fun e => min e b) }) s

/-- What a furrow holds at a step instant is kept: its words are copied, and its gap entries counted with the word that is still to come (R232). -/
def State.keepFurrow (s : State) (c : Capture) (k : List (Nat × CutFurrow)) (g : GroupCapture) (x : CapturedInput) : State × Capture × List (Nat × CutFurrow) :=
  let n := x.input
  let a := c.instant - g.pre
  let b := c.instant + g.post
  let (s, samples, bad) := s.copyWords g.group (s.waitingWords c g n)
  let part : FurrowPart := Sparse.get {} c.furrows n
  let xs := part.samples ++ samples
  let next : List Sample := match s.inProgress g.group with
    | some (m, start, view) =>
      let instant := start + view.acqTime g.group
      if m = n && a ≤ instant && instant < b then
        [{ at_ := { input := n, instant, pos := 0, spacing := view.spacing n (start - view.memberOffset g.group n), gridFrom := (s.group g.group).gridFrom }, word := 0 }]
      else []
    | none => []
  let c := { c with furrows := Sparse.set {} c.furrows n { part with samples := xs }, marks := ⟨c.marks.a || bad.a, c.marks.b || bad.b⟩ }
  (s, c, Sparse.set {} k n { gaps := s.furrowGaps n a b (xs ++ next), stamp := s.firstStamp n a b })

/-- A capture that is not yet built keeps what it holds of the old time, in which it is built once its last words are there (R233; log 50). -/
def State.keepCapture (s : State) (b : Nat) (c : Capture) : State × Capture :=
  if c.cut.isSome then (s, c)
  else
    let xs := c.groups.flatMap (fun g => g.inputs.map (fun x => (g, x)))
    let y := xs.foldl (fun (y : State × Capture × List (Nat × CutFurrow)) z => y.1.keepFurrow y.2.1 y.2.2 z.1 z.2) (s, c, [])
    (y.1, { y.2.1 with cut := some { at_ := b, furrows := y.2.2 } })
def State.keepCaptures (s : State) (b : Nat) : State :=
  let r := s.trg.captures.foldl (fun (r : State × List Capture) c => let y := r.1.keepCapture b c; (y.1, r.2 ++ [y.2])) (s, [])
  { r.1 with trg := { r.1.trg with captures := r.2 } }

/-- Open STP, ITV and ALM records close at a step instant (R251, R252; log 50). -/
def State.closeStepped (s : State) : State :=
  let close := fun (s : State) (o : Option OpenRecord) (kind : Nat) => match o with
    | some o => s.build { o.draft kind s.recDir with step := true }
    | none => s
  let r := s.recs
  let s := { s with recs := { r with stp := none, itv := none, alm := none } }
  close (close (close s r.stp 2) r.itv 3) r.alm 6

/-- The trigger steps of the slots that have still to come below a limit, each with its own count of local triggers (R211). -/
def stepSlots (lim : Nat) : Nat → State → State
  | 0, s => s
  | k + 1, s => match (s.dueInstants lim).min? with
    | none => s
    | some t =>
      let to_ := min lim (boundaryAfter t)
      let s := { s with trg := { s.trg with formed := 0 } }
      stepSlots lim k (stepLocal to_ lim (s.stepFuel to_) s)

/-- Everything of the old time comes to its end at b: what is in flight is taken, the events up to b are handled, open captures end, open records
close (log 50). -/
def State.finishOldTime (s : State) (b : Nat) : State :=
  let s := (List.range 512).foldl State.completeStamps s
  let s := (List.range 512).foldl State.drainTiming s
  let s := s.drainLinks
  let s := (stepSlots (b + 1) (s.stepFuel (b + 1)) s).cutCaptures b
  let s := (s.closeCaptures b).keepCaptures b
  s.closeStepped

/-! ### What begins at the step instant, in the new time -/

/-- The windrow intervals in progress end at b, those that ended before keep the old time; the next run from b' on (R230). -/
def State.stepWindrows (s : State) (b b' : Nat) : State :=
  [0, 1, 2].foldl (fun s j =>
    let s := match (Sparse.get [] s.trg.windrows j : List Windrow), s.endingWindrow j b with
      | [], some x => { s with trg := { s.trg with windrows := Sparse.set [] s.trg.windrows j [x] } }
      | _, _ => s
    let s := s.cutWindrow s j b b' true
    { s with trg := { s.trg with wrDone := Sparse.set 0 s.trg.wrDone j b' } }) s

/-- A group aligns anew at b' (R122); a conversion whose sampling instant lies before b completes. -/
def State.stepGroup (d : Int) (b b' : Nat) (s : State) (g : Nat) : State :=
  let st := s.grpState g
  if st ≠ grpScanning && st ≠ grpAligning then s
  else
    let x := s.group g
    let view : State := if x.finishing.isSome then { s with par := s.cmd.oldPar } else s
    let before := match x.finishing with
      | some c => some c
      | none => s.completes g b
    let finishing := before.map (fun (c : Nat × Nat) => (c.1, mvN d c.2))
    let e := match finishing with
      | some (_, start) => max b' (start + view.convTime g)
      | none => b'
    let leaving := x.leaving.map (fun y => (y.1, y.2.1, y.2.2.move d))
    let s := s.setGroup g { x with next := none, finishing, leaving }
    if (s.scanSet g).isEmpty then s else s.align g b' e

/-- A group's ring: its members' next words are the first after the step; after a backward step words at or after b' are no longer held (R280). -/
def State.stepRing (b' : Nat) (s : State) (g : Nat) : State :=
  let r := s.ring g
  if r.words.isEmpty && r.lost = 0 then s
  else s.setRingOf g { r with fresh := s.scanSet g, words := r.words.filter (fun w => decide (w.instant < b')), lost := min r.lost b' }

/-- A start of DELAY mode that is pending at the step is abandoned: a miss and a discard (R149, R159). -/
def State.stepStart (b' : Nat) (s : State) (n : Nat) : State :=
  let x := s.timing n
  if x.start.isSome && s.rdN (P.TMR_ITV_MODE n) = 3 then
    (((s.setTiming n { x with start := none, startOld := false, startStep := false }).missItv n).discardItv n (ns b')).setBit (P.TMR_IN_STATUS n) 4
  else s

/-- Interval sets close for reason 4 and open again (R148). -/
def State.stepSet (b' : Nat) (s : State) (n : Nat) : State :=
  let s := s.stepStart b' n
  if (s.timing n).set.isSome then (s.closeSet n 4 (ns b')).openSet n (ns b') else s

/-- A timer expiry or auto instant that a positive step passes falls at the step instant (R233). -/
def State.stepSeq (b b' : Nat) (s : State) (q : Nat) : State :=
  let x := s.seq q
  let auto := 1000 * s.rdN (P.TRG_SEQ_AUTO q)
  let passed := fun (e : Nat) => decide (b < e) && decide (e ≤ b')
  let x := match x.timer with
    | some e => if passed e then { x with timer := some b', timerDue := true } else x
    | none => x
  let x := if auto ≠ 0 && s.seqState q ≠ seqHalted && passed (x.lastFire + auto) then { x with lastFire := b' - auto, autoDue := true } else x
  s.setSeq q { x with arcsAt := 0, arcs := 0 }

/-- Histories of epochs and lock hold no instant after b'. -/
def State.stepHistories (s : State) (b' : Nat) : State :=
  { s with recs := { s.recs with oldEpochs := s.recs.epochs, oldLocks := s.recs.locks, epochs := s.recs.epochs.map (fun e => (min e.1 b', e.2)), locks := s.recs.locks.map (fun l => (min l.1 b', l.2)) } }

/-- The trigger engine in the new time: line windows restart, instants below b' are handled, local events to come keep their distance (R204). -/
def State.stepTrigger (s : State) (d : Int) (b' : Nat) : State :=
  let later := fun (e : LocalEvent) => match e with
    | .acq h op p t => .acq h op p (mvN d t)
    | .force h p t => .force h p (mvN d t)
    | .commit q g t => .commit q g (mvN d t)
    | .stop t => .stop (mvN d t)
    | .windrow j t => .windrow j (mvN d t)
    | .alarm t e => .alarm (mvN d t) e
    | .hit h => .hit h
  { s with trg := { s.trg with events := s.trg.events.map later, lines := [], lineAt := [], stamps := [], handled := b'
                               groups := s.trg.groups.map (fun g => (g.1, { g.2 with
                                 recordFrom := min g.2.recordFrom b', stoppedAt := min g.2.stoppedAt b', stopAfter := g.2.stopAfter.map (min b')
                                 slots := g.2.slots.map (fun y => (y.1, { y.2 with instant := mvN d y.2.instant })) })) } }

/-- Every unit goes over to the new time at b'. -/
def State.beginNewTime (s : State) (d : Int) (b b' : Nat) : State :=
  let s := allGroups.foldl (fun s g => s.noteSkip g b) s
  let s := s.stepWindrows b b'
  let s := { s with cmd := { s.cmd with oldPar := if s.cmd.parFrom = b then s.cmd.oldPar else s.par, parFrom := b' } }
  let s := s.moveTime d b'
  let s := (List.range 64).foldl (fun s k => s.setSource k { s.source k with reversed := s.reversedAt k b' }) s
  let s := (s.stepHistories b').stepTrigger d b'
  let s := allGroups.foldl (State.stepGroup d b b') s
  let s := allGroups.foldl (State.stepRing b') s
  let s := (List.range 512).foldl (State.stepSet b') s
  allSeqs.foldl (State.stepSeq b b') s

/-- A step by S ns at the slot boundary b of the old time, with a remainder to be slewed (R186); from UNSET it is the initial set. -/
def State.stepTime (s : State) (d : Int) (rest : Int) (b : Nat) : State :=
  let b' := mvN d b
  let s := (s.finishOldTime b).beginNewTime d b b'
  let s := s.setTb { s.tb with stepped := b' + 1, stepBy := d }
  let s := ((s.setBit P.TB_STATUS 4).clrBits P.TB_STATUS 32).addSat P.TB_JUMP_COUNT 1
  let s := s.wr P.TB_LAST_STEP (satWordInt d)
  let s := if s.tbState = tbUnset then (s.enterTb tbAcquiring).newSteer else s
  let s := s.slewBy rest
  let s := (s.setTb { s.tb with measured := s.time }).tbUpdate
  let s := if s.ownSource || s.tb.onPps then s.setPhase rest else s
  (if s.running then s.beacon true else s).tbNote

/-- A commit, a waiting command or an acquisition command that is due at or before b still has to act (R187). -/
def State.waitsBefore (s : State) (b : Nat) : Bool :=
  s.cmd.outstanding.any (fun o => match o.due with
    | some x => decide (x ≤ b)
    | none => false)
  || (match s.commitInstant with
    | some a => decide (a ≤ b)
    | none => false)

/-- S of a correction in 1/8192 ps: a multiple of 1,000 ns, ties away from zero (R186). -/
def stepOf (c : Int) : Int := 1000 * roundTo (1000 * nsUnit) c

/-- The initial set is made at its boundary, where the source is still there (R186). -/
def State.initialSet (s : State) (instant : Nat) : State :=
  let s := s.setTb { s.tb with step := none }
  let c := s.averaged
  if s.tbState = tbUnset && s.followedDomain.isSome then s.stepTime (stepOf c) (c - stepOf c * nsUnit) instant else s

/-- The first TB.JUMP PERMIT that waits steps at its boundary; without a correction that waits, or with the source lost, no step is made (R194). -/
def State.permitStep (s : State) (x : StepDue) : State := match x.permit with
  | none => s
  | some h =>
    let s := s.setTb { s.tb with permits := s.tb.permits.drop 1 }
    let c := s.averaged
    if !s.jumpPending || !s.measurable then s.finish 0x43 h stTimeout []
    else (s.stepTime (stepOf c) (c - stepOf c * nsUnit) x.instant).finish 0x43 h stOk [satWordInt (stepOf c)]

/-- TB_STEP (R186, R194): the initial set, or the step of a TB.JUMP PERMIT, falls due. -/
def tbStep (s : State) : State :=
  let due := fun (x : StepDue) => decide (x.instant ≤ s.now) && !s.waitsBefore x.instant
  match s.tb.step.filter due, s.tb.permits.head?.filter due with
  | some x, _ => s.initialSet x.instant
  | none, some x => s.permitStep x
  | none, none => s
def execTbStep (t : Nat) (s : State) : Host.Outcome State Fault Refusal := .next (tbStep (s.at_ t))

/-- TB_JUMP_SET_APPLY (R194): under LOCAL the time becomes V at the boundary; under PPS the edge's correction is stepped and its remainder slewed. -/
def tbJumpSetApply (s : State) : State := match s.tb.jumpSet with
  | none => s
  | some j => match j.boundary with
    | none => s
    | some b =>
      if s.now < b || s.waitsBefore b then s
      else
        let c := match j.edge with
          | some c => c
          | none => ((j.value : Int) - b) * nsUnit
        let d := stepOf c
        let s := (s.setTb { s.tb with jumpSet := none }).stepTime d (c - d * nsUnit) b
        s.finish 0x43 j.h stOk [satWordInt d]
def execTbJumpSetApply (t : Nat) (s : State) : Host.Outcome State Fault Refusal := .next (tbJumpSetApply (s.at_ t))

end Sys2Proof.Machine
end

