-- ==== Sys2Proof/Machine/Dispatch.lean ====
section
/-! DEFINITION. Dispatch: one arm per command, each a direct call of its meaning. -/

namespace Sys2Proof.Machine

/-- A command's effect on everything but the queue (chapters 2 to 16 of the spec, one meaning per row). -/
def exec (i : Instr) (s : State) : Host.Outcome State Fault Refusal :=
  match i with
  | .nop h p => Sys2Proof.Machine.execNop h p s
  | .ident h p => Sys2Proof.Machine.execIdent h p s
  | .reset h p => Sys2Proof.Machine.execReset h p s
  | .snapTake h p => Sys2Proof.Machine.execSnapTake h p s
  | .snapRead h p => Sys2Proof.Machine.execSnapRead h p s
  | .cancel h p => Sys2Proof.Machine.execCancel h p s
  | .nodeSetidById h p => Sys2Proof.Machine.execNodeSetidById h p s
  | .nodeSetidSequence h p => Sys2Proof.Machine.execNodeSetidSequence h p s
  | .nodeSetidByPosition h p => Sys2Proof.Machine.execNodeSetidByPosition h p s
  | .almAck h p => Sys2Proof.Machine.execAlmAck h p s
  | .parRead h p => Sys2Proof.Machine.execParRead h p s
  | .parWrite h p => Sys2Proof.Machine.execParWrite h p s
  | .parStaged h p => Sys2Proof.Machine.execParStaged h p s
  | .epochCommit h p => Sys2Proof.Machine.execEpochCommit h p s
  | .epochAbort h p => Sys2Proof.Machine.execEpochAbort h p s
  | .epochStatus h p => Sys2Proof.Machine.execEpochStatus h p s
  | .acqStart h p => Sys2Proof.Machine.execAcqStart h p s
  | .acqStop h p => Sys2Proof.Machine.execAcqStop h p s
  | .acqForce h p => Sys2Proof.Machine.execAcqForce h p s
  | .acqRearm h p => Sys2Proof.Machine.execAcqRearm h p s
  | .acqFetch h p => Sys2Proof.Machine.execAcqFetch h p s
  | .calRun h p => Sys2Proof.Machine.execCalRun h p s
  | .calAbort h p => Sys2Proof.Machine.execCalAbort h p s
  | .calShunt h p => Sys2Proof.Machine.execCalShunt h p s
  | .calRead h p => Sys2Proof.Machine.execCalRead h p s
  | .tbRead h p => Sys2Proof.Machine.execTbRead h p s
  | .tbDomain h p => Sys2Proof.Machine.execTbDomain h p s
  | .tbAsymSet h p => Sys2Proof.Machine.execTbAsymSet h p s
  | .tbAsymMeasure h p => Sys2Proof.Machine.execTbAsymMeasure h p s
  | .tbAsymClear h p => Sys2Proof.Machine.execTbAsymClear h p s
  | .tbJumpPermit h p => Sys2Proof.Machine.execTbJumpPermit h p s
  | .tbJumpSet h p => Sys2Proof.Machine.execTbJumpSet h p s
  | .tpoArm h p => Sys2Proof.Machine.execTpoArm h p s
  | .tpoDisarm h p => Sys2Proof.Machine.execTpoDisarm h p s
  | .memPlotNew h p => Sys2Proof.Machine.execMemPlotNew h p s
  | .memPlotFree h p => Sys2Proof.Machine.execMemPlotFree h p s
  | .memPlotList h p => Sys2Proof.Machine.execMemPlotList h p s
  | .memRead h p => Sys2Proof.Machine.execMemRead h p s
  | .memTestStop h p => Sys2Proof.Machine.execMemTestStop h p s
  | .memTestContinuous h p => Sys2Proof.Machine.execMemTestContinuous h p s
  | .memTestOneLap h p => Sys2Proof.Machine.execMemTestOneLap h p s
  | .redStatus h p => Sys2Proof.Machine.execRedStatus h p s
  | .redSwitchMove h p => Sys2Proof.Machine.execRedSwitchMove h p s
  | .redSwitchRelease h p => Sys2Proof.Machine.execRedSwitchRelease h p s
  | .redSelftest h p => Sys2Proof.Machine.execRedSelftest h p s
  | .lnkStatus h p => Sys2Proof.Machine.execLnkStatus h p s
  | .lnkEyescanHealth h p => Sys2Proof.Machine.execLnkEyescanHealth h p s
  | .lnkEyescanMap h p => Sys2Proof.Machine.execLnkEyescanMap h p s
  | .lnkFallow h p => Sys2Proof.Machine.execLnkFallow h p s
  | .lnkWake h p => Sys2Proof.Machine.execLnkWake h p s
  | .lnkRetrain h p => Sys2Proof.Machine.execLnkRetrain h p s
  | .mgtOpenChallenge h p => Sys2Proof.Machine.execMgtOpenChallenge h p s
  | .mgtOpenResponse h p => Sys2Proof.Machine.execMgtOpenResponse h p s
  | .mgtClose h p => Sys2Proof.Machine.execMgtClose h p s
  | .mgtLog h p => Sys2Proof.Machine.execMgtLog h p s
  | .mgtCntRead h p => Sys2Proof.Machine.execMgtCntRead h p s
  | .mgtCntSelect h p => Sys2Proof.Machine.execMgtCntSelect h p s
  | .mgtCntClear h p => Sys2Proof.Machine.execMgtCntClear h p s
  | .mgtFwWrite h p => Sys2Proof.Machine.execMgtFwWrite h p s
  | .mgtFwCommitCommit h p => Sys2Proof.Machine.execMgtFwCommitCommit h p s
  | .mgtFwCommitConfirm h p => Sys2Proof.Machine.execMgtFwCommitConfirm h p s
  | .mgtFwCommitKeys h p => Sys2Proof.Machine.execMgtFwCommitKeys h p s
  | .attestMeasure h p => Sys2Proof.Machine.execAttestMeasure h p s
  | .attestCert h p => Sys2Proof.Machine.execAttestCert h p s
  | .tstLoop h p => Sys2Proof.Machine.execTstLoop h p s
  | .tstInject h p => Sys2Proof.Machine.execTstInject h p s
  | .tstCheckbit h p => Sys2Proof.Machine.execTstCheckbit h p s
  | .commandReceipt t => Sys2Proof.Machine.execCommandReceipt t s
  | .replyRetentionExpiry t => Sys2Proof.Machine.execReplyRetentionExpiry t s
  | .scheduledCommandAct t => Sys2Proof.Machine.execScheduledCommandAct t s
  | .epochCommitInstant t => Sys2Proof.Machine.execEpochCommitInstant t s
  | .deferredCommitApply t => Sys2Proof.Machine.execDeferredCommitApply t s
  | .snapLatch t => Sys2Proof.Machine.execSnapLatch t s
  | .slotBoundary t => Sys2Proof.Machine.execSlotBoundary t s
  | .slotProcess t die => Sys2Proof.Machine.execSlotProcess t die s
  | .slotMarkerTimeout t die => Sys2Proof.Machine.execSlotMarkerTimeout t die s
  | .flitReceive t die source items crcGood => Sys2Proof.Machine.execFlitReceive t die source items crcGood s
  | .feControlItem t fe die item => Sys2Proof.Machine.execFeControlItem t fe die item s
  | .feControlHoldTimeout t fe => Sys2Proof.Machine.execFeControlHoldTimeout t fe s
  | .conversionEnd t group raw checkFails pulse => Sys2Proof.Machine.execConversionEnd t group raw checkFails pulse s
  | .refMonitorFault t group => Sys2Proof.Machine.execRefMonitorFault t group s
  | .wbConfirmationEnd t input beyond => Sys2Proof.Machine.execWbConfirmationEnd t input beyond s
  | .groupS0Reached t group => Sys2Proof.Machine.execGroupS0Reached t group s
  | .stlWordIssue t input => Sys2Proof.Machine.execStlWordIssue t input s
  | .reversalInstant t source => Sys2Proof.Machine.execReversalInstant t source s
  | .qresetClose t input => Sys2Proof.Machine.execQresetClose t input s
  | .qresetOpen t input => Sys2Proof.Machine.execQresetOpen t input s
  | .excComplianceChange t source reached => Sys2Proof.Machine.execExcComplianceChange t source reached s
  | .clampActivate t detector positive => Sys2Proof.Machine.execClampActivate t detector positive s
  | .clampRelease t detector => Sys2Proof.Machine.execClampRelease t detector s
  | .vanLowOnset t fe => Sys2Proof.Machine.execVanLowOnset t fe s
  | .vanLowEnd t fe => Sys2Proof.Machine.execVanLowEnd t fe s
  | .vwSweepStart t source => Sys2Proof.Machine.execVwSweepStart t source s
  | .vwSweepEnd t source => Sys2Proof.Machine.execVwSweepEnd t source s
  | .vwListenStart t source => Sys2Proof.Machine.execVwListenStart t source s
  | .vwListenEnd t source => Sys2Proof.Machine.execVwListenEnd t source s
  | .comparatorCrossing t input kind => Sys2Proof.Machine.execComparatorCrossing t input kind s
  | .edgeAccept t input => Sys2Proof.Machine.execEdgeAccept t input s
  | .holdoffEnd t input => Sys2Proof.Machine.execHoldoffEnd t input s
  | .stampWordComplete t input => Sys2Proof.Machine.execStampWordComplete t input s
  | .itvSetTimeout t input => Sys2Proof.Machine.execItvSetTimeout t input s
  | .itvDelayWindowClose t input => Sys2Proof.Machine.execItvDelayWindowClose t input s
  | .itvResultReady t input => Sys2Proof.Machine.execItvResultReady t input s
  | .stampArbiterStep t fe => Sys2Proof.Machine.execStampArbiterStep t fe s
  | .tpoActiveEdge t tpo => Sys2Proof.Machine.execTpoActiveEdge t tpo s
  | .tpoInactiveEdge t tpo => Sys2Proof.Machine.execTpoInactiveEdge t tpo s
  | .hitComplete t input => Sys2Proof.Machine.execHitComplete t input s
  | .hitArbiterStep t fe => Sys2Proof.Machine.execHitArbiterStep t fe s
  | .seqTimerExpiry t q => Sys2Proof.Machine.execSeqTimerExpiry t q s
  | .seqAutoFire t q => Sys2Proof.Machine.execSeqAutoFire t q s
  | .captureEnd t => Sys2Proof.Machine.execCaptureEnd t s
  | .windrowIntervalEnd t j => Sys2Proof.Machine.execWindrowIntervalEnd t j s
  | .blockCode t input block => Sys2Proof.Machine.execBlockCode t input block s
  | .stpRecordAgeClose t => Sys2Proof.Machine.execStpRecordAgeClose t s
  | .itvRecordAgeClose t => Sys2Proof.Machine.execItvRecordAgeClose t s
  | .hskLatch t => Sys2Proof.Machine.execHskLatch t s
  | .bcnWrap t => Sys2Proof.Machine.execBcnWrap t s
  | .gleanerRead t die granary => Sys2Proof.Machine.execGleanerRead t die granary s
  | .refreshDue t die => Sys2Proof.Machine.execRefreshDue t die s
  | .stackTempRead t die milliC => Sys2Proof.Machine.execStackTempRead t die milliC s
  | .srmTestPace t => Sys2Proof.Machine.execSrmTestPace t s
  | .srmTestSaveDone t => Sys2Proof.Machine.execSrmTestSaveDone t s
  | .srmTestMarchDone t faultA faultB => Sys2Proof.Machine.execSrmTestMarchDone t faultA faultB s
  | .srmTestRestoreDone t => Sys2Proof.Machine.execSrmTestRestoreDone t s
  | .borrowedRegionAccess t master channel request => Sys2Proof.Machine.execBorrowedRegionAccess t master channel request s
  | .timeBlockSend t port => Sys2Proof.Machine.execTimeBlockSend t port s
  | .timeBlockReceive t port block => Sys2Proof.Machine.execTimeBlockReceive t port block s
  | .domainLossTimeout t => Sys2Proof.Machine.execDomainLossTimeout t s
  | .tbLockAchieved t => Sys2Proof.Machine.execTbLockAchieved t s
  | .tbPhaseErrorExceed t => Sys2Proof.Machine.execTbPhaseErrorExceed t s
  | .correctionRemeasure t => Sys2Proof.Machine.execCorrectionRemeasure t s
  | .slewComplete t => Sys2Proof.Machine.execSlewComplete t s
  | .tbStep t => Sys2Proof.Machine.execTbStep t s
  | .tbJumpSetApply t => Sys2Proof.Machine.execTbJumpSetApply t s
  | .ppsinEdge t => Sys2Proof.Machine.execPpsinEdge t s
  | .ppsMissing t => Sys2Proof.Machine.execPpsMissing t s
  | .modelRecord t milliC => Sys2Proof.Machine.execModelRecord t milliC s
  | .modelRefit t => Sys2Proof.Machine.execModelRefit t s
  | .codewordTransmit t port lane => Sys2Proof.Machine.execCodewordTransmit t port lane s
  | .codewordReceive t lane cw => Sys2Proof.Machine.execCodewordReceive t lane cw s
  | .slotReceive t lane slot => Sys2Proof.Machine.execSlotReceive t lane slot s
  | .lanePllLocked t lane => Sys2Proof.Machine.execLanePllLocked t lane s
  | .serWindowEnd t lane centiPpm => Sys2Proof.Machine.execSerWindowEnd t lane centiPpm s
  | .trainTimeout t lane => Sys2Proof.Machine.execTrainTimeout t lane s
  | .rejoinHoldExpiry t lane => Sys2Proof.Machine.execRejoinHoldExpiry t lane s
  | .laneFaultRetry t lane => Sys2Proof.Machine.execLaneFaultRetry t lane s
  | .laneFault t lane cause => Sys2Proof.Machine.execLaneFault t lane cause s
  | .lmaskSwitch t port => Sys2Proof.Machine.execLmaskSwitch t port s
  | .densityWindowEnd t lane changes => Sys2Proof.Machine.execDensityWindowEnd t lane changes s
  | .eyeHealthCheck t lane => Sys2Proof.Machine.execEyeHealthCheck t lane s
  | .eyeHealthCheckDone t lane horizontal vertical => Sys2Proof.Machine.execEyeHealthCheckDone t lane horizontal vertical s
  | .eyescanDone t lane horizontal vertical points => Sys2Proof.Machine.execEyescanDone t lane horizontal vertical points s
  | .rateOffsetFault t lane => Sys2Proof.Machine.execRateOffsetFault t lane s
  | .modulePresenceChange t port present cmis => Sys2Proof.Machine.execModulePresenceChange t port present cmis s
  | .modintAssert t port los => Sys2Proof.Machine.execModintAssert t port los s
  | .moduleFlagPoll t port los => Sys2Proof.Machine.execModuleFlagPoll t port los s
  | .lnkWakeTimeout t port => Sys2Proof.Machine.execLnkWakeTimeout t port s
  | .frameReceive t port frame => Sys2Proof.Machine.execFrameReceive t port frame s
  | .ackReceive t port ack => Sys2Proof.Machine.execAckReceive t port ack s
  | .retransmitTimeout t port => Sys2Proof.Machine.execRetransmitTimeout t port s
  | .xoffAckRepeat t port => Sys2Proof.Machine.execXoffAckRepeat t port s
  | .frameSend t port => Sys2Proof.Machine.execFrameSend t port s
  | .posSend t port => Sys2Proof.Machine.execPosSend t port s
  | .posReceive t port endId hops brk => Sys2Proof.Machine.execPosReceive t port endId hops brk s
  | .posTimeout t port => Sys2Proof.Machine.execPosTimeout t port s
  | .portBroken t port => Sys2Proof.Machine.execPortBroken t port s
  | .dispatchPush t => Sys2Proof.Machine.execDispatchPush t s
  | .dispatchPop t => Sys2Proof.Machine.execDispatchPop t s
  | .dispatchDrop t => Sys2Proof.Machine.execDispatchDrop t s
  | .segmentTimeout t => Sys2Proof.Machine.execSegmentTimeout t s
  | .sheafWaitExpiry t => Sys2Proof.Machine.execSheafWaitExpiry t s
  | .tagFree t => Sys2Proof.Machine.execTagFree t s
  | .deliveryWrite t ring => Sys2Proof.Machine.execDeliveryWrite t ring s
  | .msixModTimeout t ring => Sys2Proof.Machine.execMsixModTimeout t ring s
  | .commandRingFetch t entry0 entry1 packet => Sys2Proof.Machine.execCommandRingFetch t entry0 entry1 packet s
  | .cmdTailWrite t value => Sys2Proof.Machine.execCmdTailWrite t value s
  | .cmdCtrlWrite t value => Sys2Proof.Machine.execCmdCtrlWrite t value s
  | .ctrlWrite t ring value => Sys2Proof.Machine.execCtrlWrite t ring value s
  | .consWrite t ring value => Sys2Proof.Machine.execConsWrite t ring value s
  | .bar0RegisterWrite t offset value => Sys2Proof.Machine.execBar0RegisterWrite t offset value s
  | .pcieLinkUp t rate width => Sys2Proof.Machine.execPcieLinkUp t rate width s
  | .pcieLinkDown t => Sys2Proof.Machine.execPcieLinkDown t s
  | .functionLevelReset t => Sys2Proof.Machine.execFunctionLevelReset t s
  | .announceReceive t port => Sys2Proof.Machine.execAnnounceReceive t port s
  | .dieItemCompare t die => Sys2Proof.Machine.execDieItemCompare t die s
  | .compareWindowTimeout t => Sys2Proof.Machine.execCompareWindowTimeout t s
  | .attributionCheck t die evidence => Sys2Proof.Machine.execAttributionCheck t die evidence s
  | .claimItemReceive t die => Sys2Proof.Machine.execClaimItemReceive t die s
  | .arbitrationTimeout t => Sys2Proof.Machine.execArbitrationTimeout t s
  | .revertHoldExpiry t => Sys2Proof.Machine.execRevertHoldExpiry t s
  | .selftestComplete t die failed => Sys2Proof.Machine.execSelftestComplete t die failed s
  | .selftestRetry t die => Sys2Proof.Machine.execSelftestRetry t die s
  | .syncStateSent t => Sys2Proof.Machine.execSyncStateSent t s
  | .syncStoreCopied t => Sys2Proof.Machine.execSyncStoreCopied t s
  | .syncRingFilled t => Sys2Proof.Machine.execSyncRingFilled t s
  | .alarmFlitReceive t die source crcGood => Sys2Proof.Machine.execAlarmFlitReceive t die source crcGood s
  | .alarmRefresh t line => Sys2Proof.Machine.execAlarmRefresh t line s
  | .remoteEntryExpiry t => Sys2Proof.Machine.execRemoteEntryExpiry t s
  | .almAckAct t => Sys2Proof.Machine.execAlmAckAct t s
  | .padReadbackFault t pin level => Sys2Proof.Machine.execPadReadbackFault t pin level s
  | .loopUpdate t loop => Sys2Proof.Machine.execLoopUpdate t loop s
  | .loopReadbackCheck t loop microA => Sys2Proof.Machine.execLoopReadbackCheck t loop microA s
  | .loopRetry t loop => Sys2Proof.Machine.execLoopRetry t loop s
  | .calStart t => Sys2Proof.Machine.execCalStart t s
  | .calHoldDone t => Sys2Proof.Machine.execCalHoldDone t s
  | .calPointDone t found => Sys2Proof.Machine.execCalPointDone t found s
  | .calRelease t => Sys2Proof.Machine.execCalRelease t s
  | .calAbortAct t => Sys2Proof.Machine.execCalAbortAct t s
  | .calStoreComplete t readBackGood => Sys2Proof.Machine.execCalStoreComplete t readBackGood s
  | .pchkPeriod t found => Sys2Proof.Machine.execPchkPeriod t found s
  | .pchkPulseTest t input hit => Sys2Proof.Machine.execPchkPulseTest t input hit s
  | .watchdogExpiry t die => Sys2Proof.Machine.execWatchdogExpiry t die s
  | .sensorConversion t temps volts => Sys2Proof.Machine.execSensorConversion t temps volts s
  | .throttleApply t => Sys2Proof.Machine.execThrottleApply t s
  | .riseEventEnd t => Sys2Proof.Machine.execRiseEventEnd t s
  | .riseHoldExpiry t => Sys2Proof.Machine.execRiseHoldExpiry t s
  | .stopDrainEnd t => Sys2Proof.Machine.execStopDrainEnd t s
  | .stopMaxExpiry t => Sys2Proof.Machine.execStopMaxExpiry t s
  | .resume t => Sys2Proof.Machine.execResume t s
  | .hardwareTrip t sensor => Sys2Proof.Machine.execHardwareTrip t sensor s
  | .hardStopEnd t => Sys2Proof.Machine.execHardStopEnd t s
  | .lowTempRelease t fe => Sys2Proof.Machine.execLowTempRelease t fe s
  | .nonceExpiry t => Sys2Proof.Machine.execNonceExpiry t s
  | .sessionExpiry t => Sys2Proof.Machine.execSessionExpiry t s
  | .openLockoutEnd t => Sys2Proof.Machine.execOpenLockoutEnd t s
  | .logPersist t => Sys2Proof.Machine.execLogPersist t s
  | .configSave t => Sys2Proof.Machine.execConfigSave t s
  | .configSaveHourly t => Sys2Proof.Machine.execConfigSaveHourly t s
  | .fwWriteComplete t readBackGood => Sys2Proof.Machine.execFwWriteComplete t readBackGood s
  | .fwCommitComplete t => Sys2Proof.Machine.execFwCommitComplete t s
  | .porNChange t level => Sys2Proof.Machine.execPorNChange t level s
  | .rstNPulse t lengthNs => Sys2Proof.Machine.execRstNPulse t lengthNs s
  | .railOutOfWindow t rail high => Sys2Proof.Machine.execRailOutOfWindow t rail high s
  | .brownOut t rail => Sys2Proof.Machine.execBrownOut t rail s
  | .vanStop t fe => Sys2Proof.Machine.execVanStop t fe s
  | .vanStopRelease t fe => Sys2Proof.Machine.execVanStopRelease t fe s
  | .coldReset t => Sys2Proof.Machine.execColdReset t s
  | .moduleReset t => Sys2Proof.Machine.execModuleReset t s
  | .concentratorReset t => Sys2Proof.Machine.execConcentratorReset t s
  | .dieReset t die => Sys2Proof.Machine.execDieReset t die s
  | .frontEndReset t fe => Sys2Proof.Machine.execFrontEndReset t fe s
  | .dieReady t die => Sys2Proof.Machine.execDieReady t die s
  | .joinWaitExpiry t die => Sys2Proof.Machine.execJoinWaitExpiry t die s
  | .granaryReady t => Sys2Proof.Machine.execGranaryReady t s
  | .crystalFault t => Sys2Proof.Machine.execCrystalFault t s
  | .tbJumpSetTimeout t => Sys2Proof.Machine.execTbJumpSetTimeout t s
  | .brownOutResetRelease t => Sys2Proof.Machine.execBrownOutResetRelease t s
  | .railBackInWindow t rail => Sys2Proof.Machine.execRailBackInWindow t rail s
  | .frontEndReloaded t fe => Sys2Proof.Machine.execFrontEndReloaded t fe s
  | .attestSignatureDone t => Sys2Proof.Machine.execAttestSignatureDone t s

end Sys2Proof.Machine
end

