-- ==== Sys2Proof/WellFormed.lean ====
section
/-! DEFINITION. Well-formed commands: what the packets, frames and codewords of the spec can carry.  The model gives every command a meaning, well-formed
or not; these bounds say which ones the hardware can be sent. -/

namespace Sys2Proof

/-- A host command: its parameter field holds at most 4,080 bytes, 1,020 words (Table 2-1). -/
def wfParams (p : List Word) : Bool := decide (p.length ≤ 1020)

/-- A frame: its payload holds at most 4,112 bytes (R352). -/
def wfFrame (f : RxFrame) : Bool := decide (f.payload.length ≤ 4112)

/-- A codeword is 544 symbols of 10 bits, 2,720 levels (R314, R316). -/
def wfCodeword (cw : RxCodeword) : Bool := cw.levels.length == 2720

/-- An access to a memory: a write gives a word for each of its burst, an atomic operation one, a read or a fetch none (R292). -/
def wfAccess (a : SramRequest) : Bool := match a.kind with
  | .read | .fetch => a.data.isEmpty
  | .write => a.data.length == a.burst.toNat + 1
  | _ => a.data.length == 1

/-- A map of an eye holds 1,024 points (R336). -/
def wfPoints (bs : List Byte) : Bool := bs.isEmpty || bs.length == 1024

/-- Readings of the 17 temperature sensors and the 22 supplies (Table 15-10). -/
def wfSensors (temps volts : List Reading) : Bool := temps.length == 17 && volts.length == 22

/-- A packet of the command ring: its entry gives a length of at most 4,100 bytes (R383). -/
def wfPacket (bs : List Byte) : Bool := decide (bs.length ≤ 4100)

/-- A finding of the periodic check: 16 intervals (R437). -/
def wfCheck (f : CheckFinding) : Bool := f.errors.length == 16

/-- A finding of a calibration: its unit is an input or a source; 64 taps and 16 delay edges where the point measures them (R428). -/
def wfFinding (f : CalFinding) : Bool :=
  decide (f.unit < 512) && (f.hits.isEmpty || f.hits.length == 64) && (f.delays.isEmpty || f.delays.length == 16)

/-- The packet of a host command (Table 2-1): its OPCODE of Table 2-5, its header and its parameter words; none for the other commands of the block. -/
def Instr.packet : Instr → Option (Nat × Hdr × List Word)
  | .nop h p => some (0x00, h, p)
  | .ident h p => some (0x01, h, p)
  | .reset h p => some (0x02, h, p)
  | .snapTake h p => some (0x03, h, p)
  | .snapRead h p => some (0x04, h, p)
  | .cancel h p => some (0x05, h, p)
  | .nodeSetidById h p | .nodeSetidSequence h p | .nodeSetidByPosition h p => some (0x06, h, p)
  | .almAck h p => some (0x07, h, p)
  | .parRead h p => some (0x10, h, p)
  | .parWrite h p => some (0x11, h, p)
  | .parStaged h p => some (0x12, h, p)
  | .epochCommit h p => some (0x13, h, p)
  | .epochAbort h p => some (0x14, h, p)
  | .epochStatus h p => some (0x15, h, p)
  | .acqStart h p => some (0x20, h, p)
  | .acqStop h p => some (0x21, h, p)
  | .acqForce h p => some (0x22, h, p)
  | .acqRearm h p => some (0x23, h, p)
  | .acqFetch h p => some (0x24, h, p)
  | .calRun h p => some (0x30, h, p)
  | .calAbort h p => some (0x31, h, p)
  | .calShunt h p => some (0x32, h, p)
  | .calRead h p => some (0x33, h, p)
  | .tbRead h p => some (0x40, h, p)
  | .tbDomain h p => some (0x41, h, p)
  | .tbAsymSet h p | .tbAsymMeasure h p | .tbAsymClear h p => some (0x42, h, p)
  | .tbJumpPermit h p | .tbJumpSet h p => some (0x43, h, p)
  | .tpoArm h p | .tpoDisarm h p => some (0x44, h, p)
  | .memPlotNew h p => some (0x50, h, p)
  | .memPlotFree h p => some (0x51, h, p)
  | .memPlotList h p => some (0x52, h, p)
  | .memRead h p => some (0x53, h, p)
  | .memTestStop h p | .memTestContinuous h p | .memTestOneLap h p => some (0x54, h, p)
  | .redStatus h p => some (0x60, h, p)
  | .redSwitchMove h p | .redSwitchRelease h p => some (0x61, h, p)
  | .redSelftest h p => some (0x62, h, p)
  | .lnkStatus h p => some (0x70, h, p)
  | .lnkEyescanHealth h p | .lnkEyescanMap h p => some (0x71, h, p)
  | .lnkFallow h p => some (0x72, h, p)
  | .lnkWake h p => some (0x73, h, p)
  | .lnkRetrain h p => some (0x74, h, p)
  | .mgtOpenChallenge h p | .mgtOpenResponse h p => some (0x80, h, p)
  | .mgtClose h p => some (0x81, h, p)
  | .mgtLog h p => some (0x82, h, p)
  | .mgtCntRead h p | .mgtCntSelect h p | .mgtCntClear h p => some (0x83, h, p)
  | .mgtFwWrite h p => some (0x84, h, p)
  | .mgtFwCommitCommit h p | .mgtFwCommitConfirm h p | .mgtFwCommitKeys h p => some (0x85, h, p)
  | .attestMeasure h p | .attestCert h p => some (0x86, h, p)
  | .tstLoop h p => some (0xF0, h, p)
  | .tstInject h p => some (0xF1, h, p)
  | .tstCheckbit h p => some (0xF2, h, p)
  | _ => none

/-- The operands of a command lie within what carries it. -/
def Instr.wellFormed (i : Instr) : Bool := match i with
  | .codewordReceive _ _ cw => wfCodeword cw
  | .borrowedRegionAccess _ _ _ a => wfAccess a
  | .eyescanDone _ _ _ _ points => wfPoints points
  | .frameReceive _ _ frame => wfFrame frame
  | .commandRingFetch _ _ _ packet => wfPacket packet
  | .sensorConversion _ temps volts => wfSensors temps volts
  | .calPointDone _ found => found.all wfFinding
  | .pchkPeriod _ found => found.all wfCheck
  | .rstNPulse _ lengthNs => decide (0 < lengthNs)
  | i => match i.packet with
    | some x => wfParams x.2.2
    | none => true

end Sys2Proof
end

