-- ==== Sys2Proof/Safety.lean ====
section
/-! DEFINITION. What counts as a sound state and a safe step, in the terms the claims use. -/

namespace Sys2Proof.Machine

/-- The parameter file is in canonical form: addresses strictly rising, no entry equal to its reset value (R49). -/
def State.parSound (s : State) : Prop := Sparse.wf Params.reset s.par = true

/-- The Granary's plot space and the on-chip SRAM are in canonical form against the byte an unlisted address reads as (log 5). -/
def State.memSound (s : State) : Prop := Memory.wf s.mem.gran ∧ Memory.wf s.mem.sram

/-- A state the model keeps to. -/
def State.sound (s : State) : Prop := s.parSound ∧ s.memSound

/-- A step is safe: the command has a meaning and ends in a next state. -/
def State.safeStep (s : State) : Prop := ∃ t, step s = .next t

/-- A command packet is executed at its receipt: the node takes commands and is a target (R43, R496), the packet repeats no command (R39, R40), and steps 1
to 5 of Table 2-2 hold (R34). -/
abbrev State.passes (s : State) (code : Nat) (h : Hdr) (p : List Word) : Prop :=
  (s.at_ h.at_).takesCommands = true ∧ (s.at_ h.at_).isTarget code h = true ∧ ((s.at_ h.at_).duplicate code h).isNone = true
    ∧ (s.at_ h.at_).refusal code h p = none

end Sys2Proof.Machine
end

