-- ==== Sys2Proof/Certificates/Slice0/Obligations.lean ====
section
/-! DEFINITION. The statements for the provers, each about every state and every operand its hypotheses admit. -/

open Sys2Proof Sys2Proof.Machine

/-- A step takes the command at the front of the queue and runs it on the state with the queue's rest; on an empty queue the block idles (the model's choice,
log 1). -/
def Obligations.StepRunsFront : Prop :=
  ∀ s : State, (∀ (c : Instr) (rest : List Instr), s.pending = c :: rest → step s = exec c { s with pending := rest })
    ∧ (s.pending = [] → step s = .next s)

/-- Every command completes, well-formed or not, in every state, and leaves the waiting commands as they stand: what a host is refused it learns from a reply
(R34, R35), and the block goes on. -/
def Obligations.CommandsLeaveQueue : Prop := ∀ (i : Instr) (s : State), ∃ t, exec i s = .next t ∧ t.pending = s.pending

/-- The state right after reset is sound. -/
def Obligations.ResetSound : Prop := State.reset.sound

/-- Every step keeps the state sound: the parameter file keeps its canonical form, no address twice and none at its reset value, and so do the Granary's plot
space and the on-chip SRAM. -/
def Obligations.StepKeepsSound : Prop := ∀ s t : State, s.sound → step s = .next t → t.sound

/-- What reset leaves: every parameter reads its reset value, the memories list nothing, nothing waits or is outstanding, time is 0; among the values the
parameter tables give, SYS_EPOCH_LEAD 200,000, TB_QUALITY 3, TB_UNCERT 0xFFFF_FFFF, ADC_USER_GAIN 0x4000_0000, TRG_SEQ_STATE 8, GRN_FREE 14,540, MGT_TEMP
0x8000_0000, RED_HEALTH_MIN 40, CAL_SAMPLES 16,384 and THM_RESUME_HOLD 60, both dies in BOOT and TB_STATE UNSET. -/
def Obligations.ResetValues : Prop :=
  (∀ k : Nat, State.reset.rd k = Params.reset k)
  ∧ (∀ a : Nat, Sparse.get 0 State.reset.mem.gran a = 0 ∧ Sparse.get 0 State.reset.mem.sram a = 0)
  ∧ State.reset.pending = [] ∧ State.reset.cmd.outstanding = [] ∧ State.reset.cmd.replies = [] ∧ State.reset.time = 0
  ∧ State.reset.dieState 0 = dieBoot ∧ State.reset.dieState 1 = dieBoot ∧ State.reset.rdN P.TB_STATE = 0
  ∧ State.reset.rdN P.SYS_EPOCH_LEAD = 200000 ∧ State.reset.rdN P.TB_QUALITY = 3 ∧ State.reset.rdN P.TB_UNCERT = 0xFFFFFFFF
  ∧ (∀ i < 288, State.reset.rdN (P.ADC_USER_GAIN i) = 0x40000000) ∧ (∀ g < 16, State.reset.rdN (P.TRG_SEQ_STATE g) = 8)
  ∧ State.reset.rdN P.GRN_FREE = 14540 ∧ (∀ i < 17, State.reset.rdN (P.MGT_TEMP i) = 0x80000000)
  ∧ State.reset.rdN P.RED_HEALTH_MIN = 40 ∧ State.reset.rdN P.CAL_SAMPLES = 16384 ∧ State.reset.rdN P.THM_RESUME_HOLD = 60

/-- Steps 1 to 5 of Table 2-2 in their order, for every host command that is no duplicate: the first failing check gives the status, the reply carries no data,
and nothing else of the command is performed; only SYS_CMD_FLAGS and the event log note it, and the note of the bits set in this cycle (R11, R34, R41, R44,
R188, R475). -/
def Obligations.RefusalOrder : Prop :=
  ∀ (i : Instr) (code : Nat) (h : Hdr) (p : List Word) (s : State), i.packet = some (code, h, p) → let r := s.at_ h.at_
  r.takesCommands = true → r.isTarget code h = true → r.duplicate code h = none →
  let headerBad := h.reserved ≠ 0 ∨ (h.bcast ≠ decide (h.target = 0xFFF)) ∨ (h.sched = false ∧ h.timeTag ≠ 0) ∨ h.length.toNat ≠ 4 * p.length
    ∨ 4080 < h.length.toNat
  let session := h.priv = true ∧ (h.auth = true ∨ (h.arrival = .host ∧ r.mgt.session.isSome = true)) ∨ (code = 0x06 ∧ h.auth = true ∧ r.rdN P.SYS_NODE_ID = 0)
  let lead := if code = 0x13 then r.rdN P.SYS_EPOCH_LEAD else 10000
  let timeBad := r.rdN P.TB_STATE = 0 ∨ h.timeTag.toNat % 1000 ≠ 0 ∨ ns h.timeTag.toNat < r.time + ns lead ∨ r.time + secs 3600 < ns h.timeTag.toNat
  let refused := fun (st : Nat) => ∃ u : State, exec i s = .next (u.finish code h st []) ∧ (∀ k, k ≠ P.SYS_CMD_FLAGS → u.rd k = r.rd k) ∧
    u = { r with par := u.par, mgt := { r.mgt with logWait := u.mgt.logWait }, cmd := { r.cmd with bitsAt := u.cmd.bitsAt, bitsSet := u.cmd.bitsSet } }
  (opInfo code = none → refused stBadOpcode)
  ∧ (∀ o : OpInfo, opInfo code = some o →
      (headerBad ∨ (h.bcast = true ∧ o.bcast = false) → refused stBadParam)
      ∧ (¬ headerBad → (h.bcast = true → o.bcast = true) →
        (o.priv = true ∧ ¬ session → refused stAuth)
        ∧ ((o.priv = true → session) →
          (256 ≤ r.cmd.outstanding.length → refused stBusy)
          ∧ (r.cmd.outstanding.length < 256 →
            (h.sched = true ∧ o.sched = false → refused stBadParam)
            ∧ (h.sched = true ∧ o.sched = true ∧ timeBad → refused stRange)
            ∧ ((h.sched = true → o.sched = true ∧ ¬ timeBad) → r.refusal code h p = none)))))

/-- A packet whose pair matches an outstanding command, or a final reply sent within the last 1 ms, is not executed: with the content of one of them the last
reply sent for that one is sent again (an ACCEPTED where none was sent so far, which is then the last), with another content it is refused with BAD_PARAM;
the outstanding command goes on, and every final reply but BUSY, that refusal too, is kept with its pair and CRC for 1 ms (R39, R40). That the pair is
compared before steps 1 to 3 of Table 2-2 is the model's choice (log 97). -/
def Obligations.DuplicateRules : Prop :=
  (∀ (i : Instr) (code : Nat) (h : Hdr) (p : List Word) (s : State), i.packet = some (code, h, p) → let r := s.at_ h.at_
    r.takesCommands = true → r.isTarget code h = true →
    let refusal := r.mkReply code h stBadParam []
    let kept := { issuer := h.issuer.toNat, tag := h.tag.toNat, crc := h.crc, until_ := r.time + msec 1, reply := refusal : KeptReply }
    let other := ({ r with cmd := { r.cmd with kept := kept :: r.cmd.kept } } : State).sendReply refusal
    let recent := fun (k : KeptReply) => k.issuer == h.issuer.toNat && k.tag == h.tag.toNat && decide (r.time < k.until_)
    let same := r.cmd.kept.find? (fun k => recent k && k.crc == h.crc)
    (∀ o : Outstanding, r.cmd.outstanding.find? (fun o => o.h.issuer == h.issuer && o.h.tag == h.tag) = some o →
      (o.h.crc = h.crc →
        let q := match o.last with | some q => q | none => r.mkReply code h stAccepted []
        let noted := r.cmd.outstanding.map (fun o => if o.h.issuer == h.issuer && o.h.tag == h.tag then { o with last := some q } else o)
        exec i s = .next (({ r with cmd := { r.cmd with outstanding := noted } } : State).sendReply q))
      ∧ (o.h.crc ≠ h.crc → exec i s = .next (match same with | some k => r.sendReply k.reply | none => other)))
    ∧ (r.cmd.outstanding.find? (fun o => o.h.issuer == h.issuer && o.h.tag == h.tag) = none →
        (∀ k, same = some k → exec i s = .next (r.sendReply k.reply))
        ∧ (same = none → r.cmd.kept.any recent = true → exec i s = .next other)))
  ∧ (∀ (s : State) (q : Reply), (s.sendReply q).cmd.outstanding = s.cmd.outstanding ∧ (s.sendReply q).cmd.kept = s.cmd.kept
      ∧ (s.sendReply q).cmd.replies = q :: s.cmd.replies)
  ∧ (∀ (s : State) (code st : Nat) (h : Hdr) (data : List Word), (s.finish code h st data).cmd.kept
      = if st = stBusy then s.cmd.kept
        else { issuer := h.issuer.toNat, tag := h.tag.toNat, crc := h.crc, until_ := s.time + msec 1, reply := s.mkReply code h st data } :: s.cmd.kept)

/-- When 256 commands are outstanding and a packet arrives that is not covered by R39, it is refused with BUSY and SYS_CMD_FLAGS[1] is set; the refusal takes no
outstanding place. (A packet that an earlier step of Table 2-2 refuses, or that R40 answers, is not asked this.) -/
def Obligations.OutstandingLimit : Prop :=
  ∀ (i : Instr) (code : Nat) (h : Hdr) (p : List Word) (s : State) (o : OpInfo), i.packet = some (code, h, p) → let r := s.at_ h.at_
  r.takesCommands = true → r.isTarget code h = true → r.duplicate code h = none → opInfo code = some o → headerGood o h p = true →
  r.authorised code o h = true → 256 ≤ r.cmd.outstanding.length →
  exec i s = .next ((r.setBit P.SYS_CMD_FLAGS 1).finish code h stBusy [])
  ∧ (∀ u : State, exec i s = .next u → bitOf (u.rdN P.SYS_CMD_FLAGS) 1 = true
      ∧ u.cmd.outstanding = r.cmd.outstanding ∧ u.cmd.kept = r.cmd.kept)

/-- Every reply, final or ACCEPTED, carries the node's ID, the command's TAG and OPCODE, the status, SYS_EPOCH and the time at which it is built, and the result
words, none for ACCEPTED; it becomes an RPL record under the next number of its kind; a final reply ends the command's place among the outstanding ones, and
one that refuses is counted; and sending it changes nothing of the inputs, timing, time base, lanes, calibration, supplies, dies, alarms, portal and trigger
engine, nor any parameter but the counts and status bits of replies, records, stores and dispatch. -/
def Obligations.FinalReply : Prop :=
  ∀ (s : State) (code st : Nat) (h : Hdr) (data : List Word) (p : List Word) (due : Option Nat),
  let t := s.finish code h st data
  let a := s.accept code h p due
  let reply := fun (st : Nat) (data : List Word) => (
    { node := s.rdN P.SYS_NODE_ID, issuer := h.issuer.toNat, arrival := h.arrival, tag := h.tag.toNat, opcode := code, status := st
      epoch := s.rd P.SYS_EPOCH, time := s.time / 4096, data := data } : Reply)
  t.cmd.replies = reply st data :: s.cmd.replies ∧ a.cmd.replies = reply stAccepted [] :: s.cmd.replies
  ∧ t.cmd.outstanding = s.cmd.outstanding.filter (fun o => !(o.h.issuer == h.issuer && o.h.tag == h.tag))
  ∧ a.cmd.outstanding = s.cmd.outstanding ++ [{ h := h, op := code, p := p, due := due, last := some (reply stAccepted []) }]
  ∧ t.rdN P.SYS_CMD_REFUSED_COUNT = (if 0x10 ≤ st then min (s.rdN P.SYS_CMD_REFUSED_COUNT + 1) 0xFFFFFFFF else s.rdN P.SYS_CMD_REFUSED_COUNT)
  ∧ a.rdN P.SYS_CMD_REFUSED_COUNT = s.rdN P.SYS_CMD_REFUSED_COUNT
  ∧ (∀ u : State, u = t ∨ u = a →
      u.rdN (P.REC_SEQ 7) = (s.rdN (P.REC_SEQ 7) + 1) % 4294967296 ∧ u.rdN (P.REC_BUILT 7) = (s.rdN (P.REC_BUILT 7) + 1) % 4294967296
      ∧ u.pending = s.pending ∧ u.time = s.time ∧ u.free = s.free ∧ u.prt = s.prt ∧ u.red = s.red ∧ u.alm = s.alm ∧ u.pwr = s.pwr ∧ u.fe = s.fe
      ∧ u.tmr = s.tmr ∧ u.trg = s.trg ∧ u.tb = s.tb ∧ u.lnk = s.lnk ∧ u.cal = s.cal ∧ u.link = s.link
      ∧ u.cmd.staged = s.cmd.staged ∧ u.cmd.commit = s.cmd.commit ∧ u.cmd.snap = s.cmd.snap ∧ u.cmd.snapWait = s.cmd.snapWait ∧ u.cmd.newId = s.cmd.newId
      ∧ (∀ k, k ∉ [P.SYS_CMD_REFUSED_COUNT, P.REC_SEQ 7, P.REC_STATUS, P.REC_BUILT 7, P.GRN_STORE_REFUSED 7, P.GRN_STATUS, P.CLP_STATUS, P.TRG_GAP_COUNT 7,
          P.TRG_STATUS] → (∀ i, i ≤ 16 → k ≠ P.GRN_STORE_DAMAGED i) → u.rd k = s.rd k))

/-- NOP, IDENT, RESET, the snapshot commands, CANCEL and ALM.ACK complete (R29, R47, R48, R64 to R66, R445, R494): a packet that passes steps 1 to 5 of Table
2-2 and the command's own checks is answered, or waits for its instant, and nothing else of the state changes. NODE.SETID in its three modes (R368): the ID
sent, the ID reckoned from the hops to the issuing portal, or the ID of the node at a position; it takes effect at the first slot boundary after the reply,
a node at another position answers nothing, and an ID outside 1 to 0xFFE is refused. -/
def Obligations.GeneralAndSetidCommandsComplete : Prop :=
  (∀ (s : State) (h : Hdr), let r := s.at_ h.at_
   (s.passes 0x00 h [] → exec (.nop h []) s = .next (r.finish 0x00 h stOk [lo32 r.now, hi32 r.now]))
   ∧ (s.passes 0x01 h [] → exec (.ident h []) s
       = .next (r.finish 0x01 h stOk [0x5120, BitVec.ofNat 32 Config.revision, BitVec.ofNat 32 (b2n r.prt.portal), r.rd P.SYS_NODE_ID]))
   ∧ (∀ w : Word, s.passes 0x02 h [w] → h.sched = false → w.toNat < 64 → bitOf w.toNat 3 = false → bits w.toNat 2 0 ≤ 4 →
       (bits w.toNat 2 0 < 3 → bits w.toNat 5 4 = 0) →
       (bits w.toNat 2 0 = 3 → bits w.toNat 5 4 < 2 ∧ (r.inService (bits w.toNat 5 4) = true → r.inService (1 - bits w.toNat 5 4) = true)) →
       exec (.reset h [w]) s
         = .next ((r.pushReset (bits w.toNat 2 0) (bits w.toNat 5 4) (4 + bits w.toNat 2 0) r.resetInstant).finish 0x02 h stOk []))
   ∧ (∀ m c : Word, s.passes 0x03 h [m, c] → bitOf m.toNat 0 = false → m.toNat < 1048576 → c.toNat < 2 → r.cmd.snapWait = none →
       let wait : SnapWait := { h, mask := m.toNat, clear := c.toNat == 1, instant := r.actInstant h }
       let t := { r with cmd := { r.cmd with snapWait := some wait } }
       exec (.snapTake h [m, c]) s
         = .next (if h.sched then t.accept 0x03 h [m, c] (some h.timeTag.toNat) else t.hold 0x03 h [m, c] (some (boundaryAfter r.now)) none))
   ∧ (∀ (n k c : Word) (x : Snapshot), s.passes 0x04 h [n, k, c] → n.toNat < 65536 → c.toNat < 256 → n.toNat = r.rdN P.SYS_SNAP_ID →
       spanRefusal k.toNat c.toNat = none → r.cmd.snap = some x → bitOf x.mask (Params.blockOf k.toNat) = true →
       exec (.snapRead h [n, k, c]) s = .next (r.finish 0x04 h stOk ((spanKeys k.toNat c.toNat).map x.read)))
   ∧ (∀ (w : Word) (o : Outstanding), s.passes 0x05 h [w] → w.toNat < 65536 →
       r.cmd.outstanding.find? (fun o => o.h.issuer == h.issuer && o.h.tag.toNat == w.toNat && o.h.sched && o.due.isSome) = some o →
       r.time + usec 10 ≤ ns o.h.timeTag.toNat →
       exec (.cancel h [w]) s = .next ((r.withdraw o).finish 0x05 h stOk []))
   ∧ (∀ w : Word, s.passes 0x07 h [w] → w.toNat < 256 → w ≠ 0 →
       exec (.almAck h [w]) s = .next (r.hold 0x07 h [w] (some (boundaryAfter r.now)) none)))
  ∧ (∀ (s : State) (h : Hdr) (n w : Word), n.toNat < 4096 → w.toNat < 4096 → let r := s.at_ h.at_
   let give := fun (id : Nat) => if id = 0 ∨ 0xFFE < id then r.finish 0x06 h stRange []
     else ({ r with cmd := { r.cmd with newId := some (id, boundaryAfter r.now) } }).finish 0x06 h stOk [BitVec.ofNat 32 id]
   (s.passes 0x06 h [0, n, 0] → h.target ≠ 0xFFF → exec (.nodeSetidById h [0, n, 0]) s = .next (give n.toNat))
   ∧ (∀ force down : Bool, let m := BitVec.ofNat 32 (1 + 4 * b2n force + 8 * b2n down)
       s.passes 0x06 h [m, n, 0] → h.target = 0xFFF → exec (.nodeSetidSequence h [m, n, 0]) s
         = .next (if r.rdN P.SYS_NODE_ID ≠ 0 ∧ force = false then r.finish 0x06 h stOk [r.rd P.SYS_NODE_ID]
                  else give (if down then n.toNat - r.hopsFrom h else n.toNat + r.hopsFrom h)))
   ∧ (s.passes 0x06 h [2, n, w] → h.target = 0xFFF → exec (.nodeSetidByPosition h [2, n, w]) s
       = .next (if r.hopsFrom h = w.toNat then give n.toNat else r)))

/-- PAR.READ, PAR.STAGED and PAR.WRITE complete (R50, R51, R53): a read answers the values of consecutive addresses, and, staged, the bits that say which were
staged; a write whose entries all pass takes effect as a whole, and one that does not leaves the state as it was and names the entry. -/
def Obligations.ParameterCommandsComplete : Prop :=
  ∀ (s : State) (h : Hdr), let r := s.at_ h.at_
  (∀ k c : Word, s.passes 0x10 h [k, c] → c.toNat < 256 → spanRefusal k.toNat c.toNat = none →
      exec (.parRead h [k, c]) s
        = .next (r.finish 0x10 h stOk ((spanKeys k.toNat c.toNat).map (r.hold 0x10 h [k, c] none none).readNow)))
  ∧ (∀ k c : Word, s.passes 0x12 h [k, c] → c.toNat < 256 → spanRefusal k.toNat c.toNat = none →
      exec (.parStaged h [k, c]) s
        = .next (r.finish 0x12 h stOk ((r.hold 0x12 h [k, c] none none).stagedSpan (spanKeys k.toNat c.toNat))))
  ∧ (∀ (n : Word) (es : List Word), s.passes 0x11 h (n :: es) → h.sched = false → 0 < n.toNat → n.toNat < 256 → es.length = 2 * n.toNat →
      exec (.parWrite h (n :: es)) s
        = .next (match r.writeRefusal (entriesOf es) with
            | none => (r.writeAll (entriesOf es)).finish 0x11 h stOk []
            | some e => r.finish 0x11 h e.1 [BitVec.ofNat 32 e.2]))

/-- A write to an RWI parameter in its range is in force at once and touches no other address; a write to an RWE parameter is staged, leaves every value in
force as it is and makes the epoch state STAGING; a write to a W1C parameter clears exactly the W1C bits written 1 but those that the node has set in this
cycle, and touches no other address; of ADC_GRP_STATUS bit 4 apart, which every cycle skipped until now sets (R125), and of FE_IN_STATUS bit 7, which stays
set while the input's source is at compliance (R81) (R10 to R12, R51, R56). -/
def Obligations.ParameterWrite : Prop :=
  ∀ (s : State) (k : Nat) (v : Word) (row : ParamRow), Params.row k = some row →
  (row.access = .rwe → Sparse.find? (s.writeParam k v).cmd.staged k = some v ∧ (s.writeParam k v).rdN P.SYS_EPOCH_STATE = 1
    ∧ (∀ j, j ≠ P.SYS_EPOCH_STATE → (s.writeParam k v).rd j = s.rd j)
    ∧ (∀ j, j ≠ k → Sparse.find? (s.writeParam k v).cmd.staged j = Sparse.find? s.cmd.staged j))
  ∧ (row.access = .rwi → (s.writeParam k v).rd k = v ||| fixedCrit k ∧ (s.writeParam k v).cmd = s.cmd
    ∧ ∀ j, j ≠ k → (s.writeParam k v).rd j = s.rd j)
  ∧ (∀ m, row.access = .w1c m →
    let i := Params.indexOf k
    let t := s.writeParam k v
    let fresh := if s.cmd.bitsAt = s.now then Sparse.get 0 s.cmd.bitsSet k else 0
    let left := fun (b : Nat) => s.bit k b && !(bitOf v.toNat b && bitOf m b && !bitOf fresh b)
    (∀ b, b < 32 → ¬ (k = P.ADC_GRP_STATUS i ∧ b = 4) → ¬ (k = P.FE_IN_STATUS i ∧ b = 7) → t.bit k b = left b)
    ∧ (k = P.FE_IN_STATUS i → k ≠ P.ADC_GRP_STATUS i → t.bit k 7 =
        (left 7 || (decide (s.rdN (P.FE_IN_EXC i) < 64) && (s.source (s.rdN (P.FE_IN_EXC i))).compliance.since.isSome)))
    ∧ (k = P.ADC_GRP_STATUS i → s.skipDue i s.now = false → s.skipDue i (s.now + 1) = false → t.bit k 4 = left 4)
    ∧ (k ≠ P.ADC_GRP_STATUS i → t.fe = s.fe) ∧ t.cmd.staged = s.cmd.staged ∧ t.cmd.outstanding = s.cmd.outstanding
    ∧ ∀ j, j ≠ k → t.rd j = s.rd j)
  ∧ (row.access = .ro → s.writeParam k v = s)

/-- PAR.WRITE is all or nothing (R51), its entries checked in the order of Table 2-2 (R34): the form of every entry, then the range of every entry, then what
holds it, the last two on the state that the entries before it leave (log 11); when an entry fails, the data word is its position, every check before it in
that order passes, and nothing is written. -/
def Obligations.WriteIsAllOrNothing : Prop :=
  ∀ (s : State) (p : List Word) (st i : Nat), let es := entriesOf (p.drop 1)
  (s.writeRefusal es = some (st, i) → s.parWrite p = (s, st, [BitVec.ofNat 32 i]) ∧ i < es.length ∧ ∀ e, es[i]? = some e →
    let before := s.writeAll (es.take i)
    (entryForm e.1 = some st ∧ ∀ j x, j < i → es[j]? = some x → entryForm x.1 = none)
    ∨ ((∀ x ∈ es, entryForm x.1 = none) ∧
        ((before.entryRange e.1 e.2 = some st ∧ ∀ j x, j < i → es[j]? = some x → (s.writeAll (es.take j)).entryRange x.1 x.2 = none)
        ∨ ((∀ j x, es[j]? = some x → (s.writeAll (es.take j)).entryRange x.1 x.2 = none) ∧
            before.entryHeld e.1 = some st ∧ ∀ j x, j < i → es[j]? = some x → (s.writeAll (es.take j)).entryHeld x.1 = none))))
  ∧ (s.writeRefusal es = none → s.parWrite p = (s.writeAll es, stOk, []))

/-- What each check of an entry refuses (R51 to R56): an unassigned item or a read-only one BAD_PARAM at the first; an index past the last RANGE and a value
outside its range RANGE at the second; at the third, for an RWE parameter EPOCH_CONFLICT while the staging area is sealed and BUSY when it is full, and for
an RWI parameter of the calibration engine LOCKED while the engine runs (that these are the parameters held is the model's reading, log 48). -/
def Obligations.WriteRefusals : Prop :=
  ∀ (s : State) (k : Nat) (v : Word),
  (Params.row k = none → entryForm k = some stBadParam)
  ∧ ∀ row, Params.row k = some row →
    (row.access = .ro → entryForm k = some stBadParam) ∧ (row.access ≠ .ro → entryForm k = none)
    ∧ (row.last < Params.indexOf k → s.entryRange k v = some stRange)
    ∧ (row.access = .rwe ∨ row.access = .rwi → Params.admits row.range (Params.indexOf k) v = false → s.entryRange k v = some stRange)
    ∧ (row.access = .rwe → Params.indexOf k ≤ row.last → Params.admits row.range (Params.indexOf k) v = true → s.entryRange k v = none)
    ∧ (row.access = .rwe → s.cmd.commit.isSome = true → s.entryHeld k = some stEpochConflict)
    ∧ (row.access = .rwe → s.cmd.commit = none → Sparse.find? s.cmd.staged k = none → 4096 ≤ s.cmd.staged.length → s.entryHeld k = some stBusy)
    ∧ (row.access = .rwe → s.cmd.commit = none → (Sparse.find? s.cmd.staged k).isSome = true ∨ s.cmd.staged.length < 4096 → s.entryHeld k = none)
    ∧ (row.access = .rwi → P.CAL_SAMPLES ≤ k → k ≤ P.CAL_SHUNT_TOL → s.calStateOf ≠ calIdle → s.entryHeld k = some stLocked)

/-- EPOCH.COMMIT, EPOCH.ABORT and EPOCH.STATUS complete (R56, R57, R61, R62): a commit that passes its checks seals the staging area and is accepted; an abort
discards or keeps the staging area and withdraws a commit that may still be withdrawn; the status is six words. -/
def Obligations.EpochCommandsComplete : Prop :=
  ∀ (s : State) (h : Hdr), let r := s.at_ h.at_
  (∀ e w tol : Word, s.passes 0x13 h [e, w, tol] → w.toNat < 262144 → bits w.toNat 17 16 ≠ 3 → tol.toNat ≤ 4000000 → r.cmd.commit = none →
      r.rdN P.SYS_EPOCH < e.toNat → (bits w.toNat 15 0 = 0xFFFF ∨ bits w.toNat 15 0 = r.cmd.staged.length) → r.commitStopsTpo = false →
      r.firstOffending = none →
      let instant := if h.sched then h.timeTag.toNat else boundaryFrom (ceilDiv r.time 4096 + r.rdN P.SYS_EPOCH_LEAD)
      let c : Commit := { h, newEpoch := e, policy := bits w.toNat 17 16, tolerance := tol.toNat, instant }
      exec (.epochCommit h [e, w, tol]) s
        = .next ((({ r with cmd := { r.cmd with commit := some c } }).wrN P.SYS_EPOCH_STATE 2).accept 0x13 h [e, w, tol] none))
  ∧ (∀ w : Word, s.passes 0x14 h [w] → w.toNat < 2 → r.cmd.commit = none →
      exec (.epochAbort h [w]) s = .next ((r.keepStaged (bitOf w.toNat 0)).finish 0x14 h stOk []))
  ∧ (∀ (w : Word) (c : Commit), s.passes 0x14 h [w] → w.toNat < 2 → r.cmd.commit = some c → c.deferred = true →
      exec (.epochAbort h [w]) s
        = .next (({ (r.keepStaged (bitOf w.toNat 0)) with free := r.free + 1 }.finishCommit c stEpochConflict outAborted c.uncert 0).finish 0x14 h stOk []))
  ∧ (s.passes 0x15 h [] → r.cmd.commit = none → exec (.epochStatus h []) s
      = .next (r.finish 0x15 h stOk [r.rd P.SYS_EPOCH, r.rd P.SYS_EPOCH_STATE, BitVec.ofNat 32 r.cmd.staged.length, 0, 0, 0]))
  ∧ (∀ c, s.passes 0x15 h [] → r.cmd.commit = some c → exec (.epochStatus h []) s
      = .next (r.finish 0x15 h stOk [r.rd P.SYS_EPOCH, r.rd P.SYS_EPOCH_STATE, BitVec.ofNat 32 r.cmd.staged.length, lo32 c.instant, hi32 c.instant,
          BitVec.ofNat 32 c.h.tag.toNat]))

/-- The values a commit puts in force (R57, R58): every staged value is in force, every other parameter but the SYS ones of the commit keeps its value, the
staging area is empty, the epoch and its time are the commit's, and the state is IDLE. -/
def Obligations.CommitInstallsStaged : Prop :=
  ∀ (s : State) (c : Commit) (t u : Nat), Sparse.sorted s.cmd.staged = true → (∀ e ∈ s.cmd.staged, 33554432 ≤ e.1) →
  let v := s.installStaged c t u
  v.cmd.staged = [] ∧ v.cmd.commit = none ∧ v.rd P.SYS_EPOCH = c.newEpoch ∧ v.rdN P.SYS_EPOCH_STATE = 0
  ∧ v.rd64 (P.SYS_EPOCH_TIME 0) = t % 18446744073709551616 ∧ v.rd P.SYS_EPOCH_UNCERT = satWord u
  ∧ (∀ k x, Sparse.find? s.cmd.staged k = some x → v.rd k = x)
  ∧ (∀ k, Sparse.find? s.cmd.staged k = none → 33554432 ≤ k → v.rd k = s.rd k)

/-- EPOCH_COMMIT_INSTANT and DEFERRED_COMMIT_APPLY (R58, R60): at its instant, once a loss of the source at the same instant is taken, a commit whose
uncertainty is tolerated applies, one of policy 1 is deferred, and one of policy 2 is missed; a deferred commit applies at the boundary found for it. -/
def Obligations.CommitInstant : Prop :=
  ∀ (s : State) (t : Nat) (c : Commit), let r := s.at_ t
  r.cmd.commit = some c → c.instant ≤ r.now →
  let u := r.tbUpdate
  (c.deferred = false → r.earlierWaits c.instant = false → (c.h.sched = false ∨ u.commitUncert ≤ c.tolerance ∨ c.policy = 0) →
      exec (.epochCommitInstant t) s = .next (u.applyNow c u.commitUncert))
  ∧ (c.deferred = false → r.earlierWaits c.instant = false → c.h.sched = true → c.tolerance < u.commitUncert → c.policy = 1 →
      exec (.epochCommitInstant t) s
        = .next (({ u with cmd := { u.cmd with commit := some { c with deferred := true, uncert := u.commitUncert } } }).wrN P.SYS_EPOCH_STATE 3))
  ∧ (c.deferred = false → r.earlierWaits c.instant = false → c.h.sched = true → c.tolerance < u.commitUncert → c.policy = 2 →
      exec (.epochCommitInstant t) s
        = .next ((u.unseal.setBit P.SYS_CMD_FLAGS 3).finish 0x13 c.h stTimeout [3, satWord u.commitUncert, 0, 0]))
  ∧ (∀ a, c.applyAt = some a → a ≤ r.now → exec (.deferredCommitApply t) s
      = .next ((r.applyCommit c a r.commitUncert).finish 0x13 c.h stOk [2, satWord c.uncert, lo32 a, hi32 a]))

/-- ACQ.START, ACQ.STOP, ACQ.REARM, ACQ.FORCE and ACQ.FETCH complete (R212, R222, R376): an acquisition command becomes an event at the first slot boundary
after receipt, or waits for its TIME_TAG; a fetch is accepted, pushes the records held, and answers how many it sent, the first it does not hold and how
many it does not hold, at once or, where a push stalls, with the last of them (log 86). The memory commands complete (R276 to R278, R301, R303, R305, R307):
a plot command that passes its checks, on the plots that the commands ahead of it leave, acts at the first slot boundary after receipt; the list gives four
words for each plot; a diagnostic read answers the words and two status bits for each, of the SRAM or of a plot, and waits where a word of it lies in a
borrowed region or a bank that the test holds; MEM.TEST sets the mode of the background test. -/
def Obligations.AcquisitionAndMemoryCommandsComplete : Prop :=
  (∀ (s : State) (h : Hdr) (p : List Word), let r := s.at_ h.at_
   let named := p.length = 6 ∧ (List.range 5).any (fun i => word p i != 0) = true
   let takes := fun (op : Nat) => if h.sched then r.accept op h p (some h.timeTag.toNat)
     else (r.acqEnqueue h op p (boundaryAfter r.now)).hold op h p none none
   (s.passes 0x20 h p → named → word p 5 = 0 → r.moduleStopped = false → exec (.acqStart h p) s = .next (takes 0x20))
   ∧ (s.passes 0x21 h p → named → word p 5 < 2 → exec (.acqStop h p) s = .next (takes 0x21))
   ∧ (s.passes 0x23 h p → named → word p 5 = 0 → r.moduleStopped = false → exec (.acqRearm h p) s = .next (takes 0x23))
   ∧ (s.passes 0x22 h p → p.length = 7 → (List.range 4).any (fun i => word p i != 0) = true → word p 4 ≤ 50000000 → 1000 ≤ word p 5 → word p 5 ≤ 50000000 → word p 6 < 256 →
       (h.bcast = true → h.sched = true ∧ word p 6 = 0) → r.moduleStopped = false →
       exec (.acqForce h p) s = .next (if h.sched then r.accept 0x22 h p (some h.timeTag.toNat)
         else (r.forceEnqueue h p (boundaryAfter r.now)).hold 0x22 h p none none))
   ∧ (s.passes 0x24 h p → p.length = 3 → bits (word p 0) 31 16 = 0 → bits (word p 0) 7 4 = 0 → bits (word p 0) 3 0 < 8 →
       bits (word p 0) 15 8 = r.rdN P.REC_RUN → 0 < word p 2 → word p 2 ≤ 65536 → r.clp.fetch = none →
       let f := fetchFrom (bits (word p 0) 3 0) (arrivalPort h.arrival) (word p 2) (word p 1) (r.accept 0x24 h p none, 0, none, 0)
       let data := [BitVec.ofNat 32 f.2.1, BitVec.ofNat 32 (f.2.2.1.getD 0xFFFFFFFF), BitVec.ofNat 32 f.2.2.2]
       let t : State := { f.1 with clp := { f.1.clp with fetch := some (h, data) } }
       exec (.acqFetch h p) s = .next (if t.clp.stalled.any (fun d => d.refetch) then t
         else State.finish { t with clp := { t.clp with fetch := none } } 0x24 h stOk data)))
  ∧ (∀ (s : State) (h : Hdr) (p : List Word), let r := s.at_ h.at_
   (s.passes 0x50 h p → plotNewCheck r.plotsAhead p = none → exec (.memPlotNew h p) s = .next (r.hold 0x50 h p (some (boundaryAfter r.now)) none))
   ∧ (s.passes 0x51 h p → plotFreeCheck r.plotsAhead p = none → exec (.memPlotFree h p) s = .next (r.hold 0x51 h p (some (boundaryAfter r.now)) none))
   ∧ (s.passes 0x52 h [] → exec (.memPlotList h []) s = .next (r.finish 0x52 h stOk (r.mem.plots.flatMap (fun q =>
       [BitVec.ofNat 32 (q.id + 16 * q.kind + 256 * q.kinds), BitVec.ofNat 32 q.base, BitVec.ofNat 32 q.size, satWord (r.storeUsed q.id)]))))
   ∧ (let answer := fun (t : State) (granary : Bool) (first n : Nat) =>
         let ws := (List.range n).map (· + first)
         (ws.foldl (fun s x => (s.diagNote granary 0 x).diagNote granary 1 x) t).finish 0x53 h stOk
           (ws.flatMap (fun x => let v := t.diagData granary t.active x; [lo32 v, hi32 v])
             ++ (List.range (ceilDiv n 16)).map (fun i =>
               BitVec.ofNat 32 (((ws.drop (16 * i)).take 16).mapIdx (fun j x => t.diagOut granary t.active x * 4 ^ j)).sum));
       (∀ a n : Word, s.passes 0x53 h [0, a, n] → 0 < n.toNat → n.toNat < 256 → a.toNat + n.toNat ≤ 4194304 →
         let rs := regionsOf a.toNat n.toNat
         let t := rs.foldl (fun s v => s.touch v false) r.settle
         (rs.find? t.blocked = none → exec (.memRead h [0, a, n]) s = .next (answer t false a.toNat n.toNat))
         ∧ (∀ v, rs.find? t.blocked = some v → exec (.memRead h [0, a, n]) s
             = .next ((t.await { master := 6, word := v, since := r.time, work := .memRead h [0, a, n] }).hold 0x53 h [0, a, n] none none)))
       ∧ (∀ (id : Nat) (a n : Word) (q : Plot), let w := BitVec.ofNat 32 (1 + 16 * id)
           id < 16 → s.passes 0x53 h [w, a, n] → 0 < n.toNat → n.toNat < 256 → r.plot? id = some q → a.toNat + n.toNat ≤ q.size * 131072 →
           exec (.memRead h [w, a, n]) s = .next (answer r true (q.base * 131072 + a.toNat) n.toNat)))
   ∧ (s.passes 0x54 h [0] → let t := r.forceReturn
       let u := if t.mem.test.phase = .save then t.setTest { t.mem.test with phase := .idle } else t
       exec (.memTestStop h [0]) s = .next ((u.wrN P.SRM_TEST_MODE 0).finish 0x54 h stOk []))
   ∧ (∀ m : Word, m = 1 ∨ m = 2 → s.passes 0x54 h [m] → exec (if m = 1 then .memTestContinuous h [m] else .memTestOneLap h [m]) s
       = .next (((if r.rdN P.SRM_TEST_MODE = 0 && r.mem.test.phase = .idle then r.setTest { r.mem.test with region := 0, again := false } else r).wrN
           P.SRM_TEST_MODE m.toNat).finish 0x54 h stOk [])))

/-- The time-base commands complete (R155, R156, R191 to R194): TB.READ gives eight words; TB.DOMAIN sets the preference and has the choice made again; TB.ASYM
sets, measures or clears an asymmetry; TB.JUMP permits a pending jump or names a time to step to, in place of one named before; TPO.ARM arms or disarms the
outputs named, at once or at its TIME_TAG. -/
def Obligations.TimeCommandsComplete : Prop :=
  ∀ (s : State) (h : Hdr), let r := s.at_ h.at_
  (s.passes 0x40 h [] → exec (.tbRead h []) s = .next (r.finish 0x40 h stOk (tbReadData r)))
  ∧ (∀ w : Word, s.passes 0x41 h [w] → w.toNat < 3 → exec (.tbDomain h [w]) s
      = .next (if h.sched then r.accept 0x41 h [w] (some h.timeTag.toNat)
          else let t := (r.wrN P.TB_DOMAIN_PREF w.toNat).tbUpdate
            t.finish 0x41 h stOk [t.rd P.TB_FOLLOWED, satInt (roundTo psUnit t.slewLeft)]))
  ∧ (∀ port v : Word, port.toNat < 2 → s.passes 0x42 h [port, v] → -1000000 ≤ v.toInt → v.toInt ≤ 1000000 →
      ((v.toInt - r.rdI (P.TB_ASYM port.toNat)).natAbs : Int) ≤ 2000 * r.rdN P.TB_JUMP_LIMIT →
      exec (.tbAsymSet h [port, v]) s = .next ((r.setAsym port.toNat v.toInt).finish 0x42 h stOk []))
  ∧ (∀ port : Nat, port < 2 → let w := BitVec.ofNat 32 (2 + port); s.passes 0x42 h [w, 0] → r.tbState = tbLocked → r.followedDomain = some (1 - port) →
      exec (.tbAsymMeasure h [w, 0]) s
        = .next ((r.setTb { r.tb with measures := r.tb.measures ++ [{ h, port, since := r.time }] }).accept 0x42 h [w, 0] none))
  ∧ (∀ port : Nat, port < 2 → let w := BitVec.ofNat 32 (4 + port); s.passes 0x42 h [w, 0] →
      ((0 - r.rdI (P.TB_ASYM port)).natAbs : Int) ≤ 2000 * r.rdN P.TB_JUMP_LIMIT →
      exec (.tbAsymClear h [w, 0]) s = .next ((r.setAsym port 0).finish 0x42 h stOk []))
  ∧ (s.passes 0x43 h [0, 0, 0] → r.jumpPending = true →
      exec (.tbJumpPermit h [0, 0, 0]) s
        = .next ((r.setTb { r.tb with permits := r.tb.permits ++ [{ instant := boundaryFrom (ceilDiv r.time 4096 + 10000), permit := some h }] }).accept 0x43 h
            [0, 0, 0] none))
  ∧ (∀ a b : Word, let value := a.toNat + 4294967296 * b.toNat
      let free := decide (r.rdN P.TB_SRC = 0)
      s.passes 0x43 h [1, a, b] → r.ownSource = true → value % (if free then 1000 else 1000000000) = 0 →
      let t := match r.tb.jumpSet with
        | some j => (r.setTb { r.tb with jumpSet := none }).finish 0x43 j.h stTimeout [1]
        | none => r
      let j : JumpSet := { h, value, pps := decide (r.rdN P.TB_SRC = 1), receipt := r.time
                           boundary := if free then some (boundaryFrom (ceilDiv r.time 4096 + 10000)) else none }
      exec (.tbJumpSet h [1, a, b]) s = .next ((t.setTb { t.tb with jumpSet := some j }).accept 0x43 h [1, a, b] none))
  ∧ (∀ m a b c : Word, c.toNat < 128 → s.passes 0x44 h [m, a, b, c] → r.rdN P.TB_STATE ≠ 0 →
      r.tpoRange [m, a, b, c] (if h.sched then ns h.timeTag.toNat else r.time) = false →
      exec (.tpoArm h [m, a, b, c]) s = .next (if h.sched then r.accept 0x44 h [m, a, b, c] (some h.timeTag.toNat)
        else ((tposOf m.toNat).foldl (fun s i => s.armTpo (tpoFirst [m, a, b, c]) i) r).finish 0x44 h stOk [m]))
  ∧ (∀ m : Word, s.passes 0x44 h [m, 0, 0, 256] → r.rdN P.TB_STATE ≠ 0 → m ≠ 0 → (tposOf m.toNat).all (fun i => r.rdN (P.TMR_TPO_EN i) != 0) = true →
      exec (.tpoDisarm h [m, 0, 0, 256]) s = .next (if h.sched then r.accept 0x44 h [m, 0, 0, 256] (some h.timeTag.toNat)
        else ((tposOf m.toNat).foldl (fun s i => s.disarmTpo i) r).finish 0x44 h stOk [m]))

/-- The calibration commands complete (R422, R431, R432, R436): a run that may begin is accepted for its instant, an abort acts at the first slot boundary after
receipt, and CAL.READ gives seven words of a slot or of the factory record. -/
def Obligations.CalibrationCommandsComplete : Prop :=
  ∀ (s : State) (h : Hdr) (p : List Word), let r := s.at_ h.at_
  (s.passes 0x30 h p → p.length = 19 → word p 0 < 256 → bitOf (word p 0) 4 = false → calRunRange p = false → r.calRefusal = none →
      exec (.calRun h p) s = .next (r.accept 0x30 h p (some (r.actInstant h))))
  ∧ (s.passes 0x32 h p → p.length = 3 → word p 0 < 2048 → r.shuntRange p = false → r.calRefusal = none →
      exec (.calShunt h p) s = .next (r.accept 0x32 h p (some (r.actInstant h))))
  ∧ (s.passes 0x31 h [] → r.cal.run = none → exec (.calAbort h []) s = .next (r.finish 0x31 h stOk []))
  ∧ (∀ x, s.passes 0x31 h [] → r.cal.run = some x → r.calStateOf ≠ calStoring → exec (.calAbort h []) s
      = .next ((r.setCalRun { x with abortAt := some (x.abortAt.getD (boundaryAfter r.now)) }).hold 0x31 h [] (some (boundaryAfter r.now)) none))
  ∧ (∀ w : Word, s.passes 0x33 h [w] → w.toNat < 3 →
      let x := if w = 2 then r.cal.factory else r.cal.slots.get w.toNat
      let state := BitVec.ofNat 32 (b2n x.valid + 2 * b2n (r.rdN P.CAL_SLOT_IN_FORCE == w.toNat))
      (x.empty = true → exec (.calRead h [w]) s = .next (r.finish 0x33 h stOk (List.replicate 6 0xFFFFFFFF ++ [state])))
      ∧ (x.empty = false → x.good = true → exec (.calRead h [w]) s
          = .next (r.finish 0x33 h stOk [0, BitVec.ofNat 32 x.seq, BitVec.ofNat 32 x.bytes.length, crc32c x.bytes, lo32 x.time, hi32 x.time, state])))

/-- The redundancy commands complete (R409, R412, R420): RED.STATUS gives seven words; RED.SWITCH forces the standby, or ends FORCED; RED.SELFTEST starts the
self-test of a die other than the active one. The link commands complete (R336, R338, R342 to R344): LNK.STATUS gives the port's words; LNK.FALLOW puts the
port's lanes to FALLOW; LNK.WAKE and LNK.RETRAIN are accepted and wait; LNK.EYESCAN begins a scan of a lane that is ALIGNED or beyond; TST.LOOP begins or
ends a loop of a port, or a run of flits on a die link. -/
def Obligations.RedundancyAndLinkCommandsComplete : Prop :=
  (∀ (s : State) (h : Hdr), let r := s.at_ h.at_
   (s.passes 0x60 h [] → exec (.redStatus h []) s
       = .next (r.finish 0x60 h stOk
           [BitVec.ofNat 32 (r.active + 256 * r.claim 0 + 65536 * r.claim 1 + 16777216 * r.dieState 0 + 134217728 * r.dieState 1),
            BitVec.ofNat 32 r.redStatusWord, r.rd P.RED_SWITCH_COUNT, r.rd P.RED_MISMATCH_COUNT, r.rd (P.RED_LAST_MISMATCH 0),
            r.rd (P.RED_LAST_MISMATCH 1), r.rd P.RED_LAST_CAUSE]))
   ∧ (s.passes 0x61 h [0] → r.dieState (1 - r.active) = dieInStep →
       let t := { r with red := { r.red with forcedNext := some (1 - r.active) } }
       exec (.redSwitchMove h [0]) s = .next (t.finish 0x61 h stOk [BitVec.ofNat 32 t.nextActive]))
   ∧ (s.passes 0x61 h [1] →
       let t := { r with red := { r.red with forced := none, forcedNext := none } }
       exec (.redSwitchRelease h [1]) s = .next (t.finish 0x61 h stOk [BitVec.ofNat 32 t.nextActive]))
   ∧ (∀ (w : Word) (d : Nat), s.passes 0x62 h [w] → w.toNat < 3 → d = (if w.toNat = 2 then 1 - r.active else w.toNat) → d ≠ r.active →
       (r.die d).testCmd = none →
       let t := if r.dieState d = dieInStep || r.dieState d = dieFailed then r.startSelftest d else r
       exec (.redSelftest h [w]) s = .next ((t.setDie d { t.die d with testCmd := some h }).accept 0x62 h [w] none)))
  ∧ (∀ (s : State) (h : Hdr), let r := s.at_ h.at_
   (∀ w : Word, s.passes 0x70 h [w] → w.toNat < 3 → exec (.lnkStatus h [w]) s = .next (r.finish 0x70 h stOk (lnkStatusData r w.toNat)))
   ∧ (∀ w : Word, s.passes 0x72 h [w] → w.toNat < 8 → w.toNat % 4 < 3 → (w.toNat % 4 = 2 → r.prt.portal = false) →
       let a := (lanesOf (w.toNat % 4)).foldl State.fallowLane r
       let b := a.setLanePort (w.toNat % 4) { a.lanePort (w.toNat % 4) with fallow := true, change := none
                                                                            lowPower := (a.lanePort (w.toNat % 4)).lowPower || bitOf w.toNat 2 }
       exec (.lnkFallow h [w]) s
         = .next (((b.replyWaits (w.toNat % 4) (fun _ => true) stTimeout).notePort (w.toNat % 4)).finish 0x72 h stOk []))
   ∧ (∀ w : Word, s.passes 0x73 h [w] → w.toNat < 3 → r.portEnabled w.toNat = true →
       (r.lnkPortState w.toNat ≠ portFallow → exec (.lnkWake h [w]) s = .next (r.finish 0x73 h stOk []))
       ∧ (r.lnkPortState w.toNat = portFallow → let a := r.wakePort w.toNat
           exec (.lnkWake h [w]) s
             = .next ((a.setLanePort w.toNat { a.lanePort w.toNat with
                 waits := (a.lanePort w.toNat).waits ++ [{ h, op := 0x73, lanes := [], until_ := a.wakeBound }] }).accept 0x73 h [w] none)))
   ∧ (∀ port named : Nat, port < 3 → named < 16 → let w := BitVec.ofNat 32 (port + 16 * named); s.passes 0x74 h [w] →
       let ls := (lanesOf port).filter (fun l => named == 0 || bitOf named (l % 4))
       let a := ls.foldl State.searchLane r
       exec (.lnkRetrain h [w]) s
         = .next ((a.setLanePort port { a.lanePort port with
             waits := (a.lanePort port).waits ++ [{ h, op := 0x74, lanes := ls, until_ := a.wakeBound }] }).accept 0x74 h [w] none))
   ∧ (∀ l ber : Nat, l < 12 → ber < 3 → (l / 4 = 2 → r.prt.portal = false) → laneAligned ≤ r.laneState l → (r.lane l).scan = none →
       (r.lane l).checking = false →
       (let w := BitVec.ofNat 32 (l + 16 * ber); s.passes 0x71 h [w] →
         exec (.lnkEyescanHealth h [w]) s = .next ((r.setLane l { r.lane l with scan := some { h, map := false } }).accept 0x71 h [w] none))
       ∧ (∀ dwell : Nat, 20 ≤ dwell → dwell < 32 → let w := BitVec.ofNat 32 (l + 16 * ber + 64 + 256 * dwell); s.passes 0x71 h [w] →
         exec (.lnkEyescanMap h [w]) s = .next ((r.setLane l { r.lane l with scan := some { h, map := true } }).accept 0x71 h [w] none)))
   ∧ (∀ target mode : Nat, target < 13 → mode < 3 → let w := BitVec.ofNat 32 (target + 16 * mode)
       (s.passes 0xF0 h [w, 0] → target < 3 → (target = 2 → r.prt.portal = false) →
         exec (.tstLoop h [w, 0]) s = .next ((r.loopPort target mode).finish 0xF0 h stOk []))
       ∧ (∀ n : Word, s.passes 0xF0 h [w, n] → 3 ≤ target → mode = 0 → n.toNat ≤ 1000000 → exec (.tstLoop h [w, n]) s = .next (r.finish 0xF0 h stOk []))
       ∧ (∀ n : Word, s.passes 0xF0 h [w, n] → 3 ≤ target → mode = 1 → 1 ≤ n.toNat → n.toNat ≤ 1000000 →
         let x : FlitTest := { h, die := (loopPair target).1, source := (loopPair target).2, left := n.toNat, count := n.toNat }
         exec (.tstLoop h [w, n]) s = .next (State.accept { r with lnk := { r.lnk with flits := r.lnk.flits ++ [x] } } 0xF0 h [w, n] none))))

/-- The management commands complete (R472 to R476, R479, R482, R483): a challenge answers a fresh nonce; a response signed by an enrolled key, or unsigned
where no key is enrolled, opens the session, and any other response to a challenge fails; the session closes; the log, the persistent log, the counters and
the certificate are read (of an empty log the oldest number is left open); counters are selected and cleared; a write or a commit of an image waits for the
flash; a measurement waits for its signature. The test commands complete (R306, R415): TST.INJECT puts an injection in place with its duration, the one of
the time base beginning its test, or withdraws a kind; and TST.CHECKBIT reads and corrects one SRAM word or Granary line, inverts the bits named in both
dies, and answers the outcome of its read, or waits where its word lies in a borrowed region or a bank that the test holds. -/
def Obligations.ManagementAndTestCommandsComplete : Prop :=
  (∀ (s : State) (h : Hdr), let r := s.at_ h.at_
   (s.passes 0x80 h [0] → h.target = 0 → r.lockedOut = false →
       exec (.mgtOpenChallenge h [0]) s
         = .next ((r.setMgt { r.mgt with nonce := some (r.mgt.nonceCount, r.time + secs 10), nonceCount := r.mgt.nonceCount + 1 }).finish 0x80 h stOk
             (wordsOf (nonceBytes r.mgt.nonceCount))))
   ∧ (∀ (key : Nat) (life : Word) (sig : List Word), key < 4 → let p := BitVec.ofNat 32 (1 + 16 * key) :: life :: sig
       s.passes 0x80 h p → h.target = 0 → sig.length = 828 → word p 829 < 256 → 60 ≤ life.toNat → life.toNat ≤ 86400 → r.keyState key = 1 →
       r.lockedOut = false →
       (∀ n, r.heldNonce = some n → exec (.mgtOpenResponse h p) s
         = .next (if Config.keyVerifies (r.keySlot key).key (r.responseDigest n life.toNat) ((bytesOf sig).take 3309)
             then (r.openSession key life.toNat).finish 0x80 h stOk [] else (r.failOpen h).finish 0x80 h stAuth []))
       ∧ (r.heldNonce = none → exec (.mgtOpenResponse h p) s = .next ((r.failOpen h).finish 0x80 h stAuth [])))
   ∧ (∀ (life : Word) (n : Nat), s.passes 0x80 h [0xF1, life] → h.target = 0 → 60 ≤ life.toNat → life.toNat ≤ 86400 → r.enrolledAny = false →
       r.lockedOut = false → r.heldNonce = some n → exec (.mgtOpenResponse h [0xF1, life]) s = .next ((r.openSession 15 life.toNat).finish 0x80 h stOk []))
   ∧ (s.passes 0x81 h [] → exec (.mgtClose h []) s = .next (r.closeSession.finish 0x81 h stOk []))
   ∧ (∀ (from_ : Word) (count : Nat) (persistent : Bool), 0 < count → count < 128 →
       let p := [from_, BitVec.ofNat 32 (count + 256 * b2n persistent)]
       let log := if persistent then r.mgt.persistLog else r.mgt.log
       s.passes 0x82 h p →
       let found := (log.filter (fun x => decide (from_.toNat ≤ x.seq))).take count
       (log = [] → exec (.mgtLog h p) s = .next (r.takeFree.2.finish 0x82 h stOk [0, r.takeFree.1]))
       ∧ (∀ (e : LogEntry) (es : List LogEntry), log = e :: es → exec (.mgtLog h p) s
           = .next (r.finish 0x82 h stOk ([BitVec.ofNat 32 found.length, BitVec.ofNat 32 e.seq] ++ found.flatMap LogEntry.words))))
   ∧ (∀ first more : Nat, first + more < 64 → let cs := (List.range (more + 1)).map (· + first)
       let w := fun (mode : Nat) => BitVec.ofNat 32 (mode + 256 * first + 16384 * more)
       (s.passes 0x83 h [w 0, 0] → exec (.mgtCntRead h [w 0, 0]) s
         = .next (r.finish 0x83 h stOk (cs.flatMap (fun c =>
             [r.rd (P.MGT_CNT_A (2 * c)), r.rd (P.MGT_CNT_A (2 * c + 1)), r.rd (P.MGT_CNT_B (2 * c)), r.rd (P.MGT_CNT_B (2 * c + 1))]))))
       ∧ (∀ v : Word, s.passes 0x83 h [w 1, v] → v.toNat < 65536 → Params.selectorGood v.toNat = true → exec (.mgtCntSelect h [w 1, v]) s
         = .next ((cs.foldl (fun s c => (s.wrN (P.MGT_CNT_SEL c) v.toNat).queueSelect c (some v.toNat)) r).finish 0x83 h stOk []))
       ∧ (s.passes 0x83 h [w 2, 0] → exec (.mgtCntClear h [w 2, 0]) s
         = .next ((cs.foldl (fun s c => s.queueSelect c none) r).finish 0x83 h stOk [])))
   ∧ (∀ (area : Nat) (erase : Bool) (off len : Word) (body : List Word), area < 3 → let p := BitVec.ofNat 32 (area + 4 * b2n erase) :: off :: len :: body
       s.passes 0x84 h p → off.toNat % 256 = 0 → (erase = true → off.toNat % 65536 = 0) → 256 ≤ len.toNat → len.toNat ≤ 3840 → len.toNat % 256 = 0 →
       4 * body.length = len.toNat → off.toNat + len.toNat ≤ (if area = 2 then 262144 else 16777216) → area ≠ r.rdN P.MGT_BOOT_IMAGE → r.committing = false →
       exec (.mgtFwWrite h p) s = .next ((r.queueFlash (.write h p)).accept 0x84 h p none))
   ∧ (∀ area : Nat, area < 2 → let w := BitVec.ofNat 32 (4 * area); s.passes 0x85 h [w] → area ≠ r.rdN P.MGT_BOOT_IMAGE → r.rdN P.CAL_STATE ≠ 4 →
       exec (.mgtFwCommitCommit h [w]) s = .next ((r.queueFlash (.commit h 0 area)).accept 0x85 h [w] none))
   ∧ (s.passes 0x85 h [1] → r.rdN P.MGT_BOOT_STATE = bootTrial →
       exec (.mgtFwCommitConfirm h [1]) s = .next ((r.queueFlash (.commit h 1 0)).accept 0x85 h [1] none))
   ∧ (s.passes 0x85 h [2] → exec (.mgtFwCommitKeys h [2]) s = .next ((r.queueFlash (.commit h 2 0)).accept 0x85 h [2] none))
   ∧ (∀ nonce : List Word, nonce.length = 8 → s.passes 0x86 h (0 :: nonce) → r.mgt.attest = none →
       exec (.attestMeasure h (0 :: nonce)) s
         = .next ((r.setMgt { r.mgt with attest := some (h, r.measurement nonce, r.time) }).accept 0x86 h (0 :: nonce) none))
   ∧ (∀ second : Bool, let w := BitVec.ofNat 32 (1 + 2 * b2n second); s.passes 0x86 h [w] →
       let part := if second then Config.certificate.drop 4000 else Config.certificate.take 4000
       exec (.attestCert h [w]) s
         = .next (r.finish 0x86 h stOk ([BitVec.ofNat 32 Config.certificate.length, BitVec.ofNat 32 part.length] ++ wordsOf part))))
  ∧ (∀ (s : State) (h : Hdr), let r := s.at_ h.at_
   (∀ (kind die : Nat) (d : Word) (evidence withdraw : Bool), die < 2 → kind < 6 →
       ((kind = 2 ∨ kind = 5) → 1 ≤ d.toNat ∧ d.toNat ≤ 1000000) → (¬ (kind = 2 ∨ kind = 5) → d = 0) → (kind ≠ 4 → r.dieState (1 - die) = dieInStep) →
       let w := BitVec.ofNat 32 (kind + 16 * die + 32 * b2n withdraw + 64 * b2n evidence)
       let x : Injection := { kind, die, evidence, until_ := r.time + usec d.toNat }
       let t : State := { r with red := { r.red with injections := r.red.injections ++ [x] } }
       s.passes 0xF1 h [w, d] → exec (.tstInject h [w, d]) s
         = .next ((if withdraw then r.withdrawKind kind else if kind = 4 then t.beginTest else t).finish 0xF1 h stOk []))
   ∧ (∀ off lo hi c : Word, s.passes 0xF2 h [0, off, lo, hi, c] → off.toNat < 4194304 → c.toNat < 256 → (lo ≠ 0 ∨ hi ≠ 0 ∨ c ≠ 0) →
       let rs := regionsOf off.toNat 1
       let t := rs.foldl (fun s v => s.touch v true) r.settle
       let u := t.touch off.toNat true
       let e : WordError := { data := BitVec.ofNat 64 (lo.toNat + 4294967296 * hi.toNat), check := BitVec.ofNat 8 c.toNat }
       (rs.find? t.blocked = none → t.wordOut t.active off.toNat < 2 → exec (.tstCheckbit h [0, off, lo, hi, c]) s
         = .next (((u.injectWord 0 off.toNat e).injectWord 1 off.toNat e).finish 0xF2 h stOk [BitVec.ofNat 32 (t.wordOut t.active off.toNat)]))
       ∧ (∀ v, rs.find? t.blocked = some v → exec (.tstCheckbit h [0, off, lo, hi, c]) s
         = .next ((t.await { master := 6, word := v, since := r.time, work := .checkbit h [0, off, lo, hi, c] }).hold 0xF2 h [0, off, lo, hi, c] none none)))
   ∧ (∀ (id : Nat) (off lo hi c : Word) (q : Plot), let w := BitVec.ofNat 32 (1 + 16 * id)
       id < 16 → s.passes 0xF2 h [w, off, lo, hi, c] → c.toNat < 65536 → bits c.toNat 15 8 ≠ 0 → (lo ≠ 0 ∨ hi ≠ 0 ∨ bits c.toNat 7 0 ≠ 0) → r.plot? id = some q →
       off.toNat < q.size * 16384 → let line := q.base * 16384 + off.toNat
       r.lineOut r.active line < 2 →
       let e : LineError := { symbols := checkSymbols [w, off, lo, hi, c] }
       exec (.tstCheckbit h [w, off, lo, hi, c]) s
         = .next (((r.injectLine 0 line e).injectLine 1 line e).finish 0xF2 h stOk [BitVec.ofNat 32 (r.lineOut r.active line)])))

/-- The general command events complete (R33, R34, R40, R44 to R46, R64, R368): the packet that came first is judged by the table's steps when its CRC is good,
and counted when it is not; kept replies go after their time; a new ID takes effect at its boundary; a waiting command acts at its instant, and the snapshot
is latched at its instant with its number, time and parameters and its command answered, once no commit and no other waiting command comes before. -/
def Obligations.CommandEventsComplete : Prop :=
  ∀ (s : State) (t : Nat), let r := s.at_ t
  (∀ x rest, r.clp.inbox = x :: rest → r.takesCommands = true → let a := { r with clp := { r.clp with inbox := rest } }
    ((x.bytes.length < 20 ∨ packetCrcGood x.bytes = false) → exec (.commandReceipt t) s = .next ((a.addSat P.SYS_CMD_CRC_COUNT 1).setBit P.SYS_CMD_FLAGS 0))
    ∧ (20 ≤ x.bytes.length → packetCrcGood x.bytes = true →
        let h := packetHeader x r.time
        let p := wordsOf (packetParams x.bytes)
        let code := packetOpcode x.bytes
        exec (.commandReceipt t) s = .next (a.receive code h p (opcodeBody code h p))))
  ∧ exec (.replyRetentionExpiry t) s
      = .next { r with cmd := { r.cmd with kept := r.cmd.kept.filter (fun k => decide (r.time < k.until_)) } }
  ∧ (∀ id b, r.cmd.newId = some (id, b) → b ≤ r.now →
      exec (.scheduledCommandAct t) s = .next (State.nameNode { r with cmd := { r.cmd with newId := none } } id))
  ∧ (∀ o, r.cmd.newId = none ∨ (∃ id b, r.cmd.newId = some (id, b) ∧ r.now < b) → r.dueCommand actingOps = some o →
      r.commitBefore (o.due.getD 0) = false → r.earlierFirst o.h (o.due.getD 0) = false →
      exec (.scheduledCommandAct t) s = .next (r.actCommand o))
  ∧ (∀ w, r.cmd.snapWait = some w → w.instant ≤ r.now → r.commitBefore w.instant = false → r.earlierFirst w.h w.instant = false →
      let at_ := r.actAt w.instant
      let a := (r.wrN P.SYS_SNAP_ID ((r.rdN P.SYS_SNAP_ID + 1) % 65536)).wr64 (P.SYS_SNAP_TIME 0) at_
      let x : Snapshot := { id := a.rdN P.SYS_SNAP_ID, instant := at_, mask := w.mask, par := a.par, computed := a.computedAll, take := w, die := a.active,
                             reply := a.rdN (P.REC_SEQ 7) }
      let b := { a with cmd := { a.cmd with snap := some x, snapWait := none } }
      exec (.snapLatch t) s
        = .next ((if w.clear then b.clearW1c w.mask else b).finish 0x03 w.h stOk [BitVec.ofNat 32 x.id, lo32 at_, hi32 at_]))

/-- What a waiting command does when it acts (R44, R222, R277, R494): a write takes effect as a whole or names its entry, a reset is queued, a force and the
acquisition commands become events of the instant, a plot is made or freed, and a TPO command arms or refuses. -/
def Obligations.WaitingCommandActs : Prop :=
  ∀ (s : State) (o : Outstanding), let i := s.actAt (o.due.getD 0)
  (o.op = 0x11 → s.actCommand o = (s.parWrite o.p).1.finish 0x11 o.h (s.parWrite o.p).2.1 (s.parWrite o.p).2.2)
  ∧ (o.op = 0x02 → s.actCommand o = (s.finish 0x02 o.h stOk []).queueReset o.p)
  ∧ (o.op = 0x22 → s.actCommand o = (s.undue o.h).forceEnqueue o.h o.p i)
  ∧ (o.op = 0x20 ∨ o.op = 0x21 ∨ o.op = 0x23 → s.actCommand o = (s.undue o.h).acqEnqueue o.h o.op o.p i)
  ∧ (o.op = 0x41 → s.actCommand o = (s.domainAct o.p).1.finish 0x41 o.h stOk (s.domainAct o.p).2)
  ∧ (o.op = 0x44 → s.actCommand o = s.tpoScheduled o.h o.p)
  ∧ (o.op = 0x50 → plotNewCheck s o.p = none → ∃ q : Plot,
      (s.actCommand o).mem.plots = insertPlot q s.mem.plots ∧ q.size = word o.p 1 ∧ q.kind = word o.p 0 ∧ q.kinds = word o.p 2 ∧ q.weights = weightsOf o.p
      ∧ ((∃ i, i < 16 ∧ ∀ x ∈ s.mem.plots, x.id ≠ i) → (∀ x ∈ s.mem.plots, x.id ≠ q.id) ∧ ∀ i, i < q.id → ∃ x ∈ s.mem.plots, x.id = i))
  ∧ (o.op = 0x51 → plotFreeCheck s o.p = none → (s.actCommand o).mem.plots = s.mem.plots.filter (fun q => q.id != word o.p 0))

/-- The slot events complete (R15, R22, R23, R392): flits arrive in order or are counted when their CRC fails; at a boundary every source ends its slot with a
marker, the copies of alarm flits compared and the claims apply; a die processes its next slot once all five markers have come, or 2 µs after the slot's
end; the slot's effects come about once for the two dies (log 17). -/
def Obligations.SlotEventsComplete : Prop :=
  ∀ (s : State) (t : Nat), let r := s.at_ t
  (∀ (d : Fin 2) (src : Fin 5) (n : Nat), r.lnk.flits = [] →
    exec (.flitReceive t d src n false) s = .next (r.countIn d 1 src 1)
    ∧ (r.processes d = false → exec (.flitReceive t d src n true) s = .next ((r.countIn d 2 src 1).setSent d src ((r.sentOf d src).drop n)))
    ∧ (r.processes d = true →
        let come := (r.sentOf d src).take n
        let xs := r.gotOf d src ++ come
        let a := (r.countIn d 2 src 1).setSent d src ((r.sentOf d src).drop n)
        let b := a.setDie d { a.die d with late := (a.die d).late.filter (fun m => !(m.2 == src.val && come.contains (.marker m.1))) }
        exec (.flitReceive t d src n true) s = .next (b.setGot d src (dropLate (r.die d).slot xs.length xs))))
  ∧ (r.now % 1000 = 0 → r.red.slot < r.now / 1000 →
      let a := State.compareAlarms { r.settle with red := { r.settle.red with slot := r.now / 1000, forced := r.red.forcedNext } } (r.now / 1000 - 8)
      let b := ((sources.foldl (fun s src => s.send src (.marker (r.now / 1000 - 1))) a).idleLinks 0).idleLinks 1
      exec (.slotBoundary t) s = .next ((b.plannedWinner.resolveControls).exchangeCounters.joinDies).enterService)
  ∧ (∀ d : Fin 2, r.dieState d = dieInStep → r.awaitsOther d = false → r.red.done ≤ r.nextSlot d →
      let k := r.nextSlot d
      let effects := (r.passSlot d k).slotEffects k (r.slotItems d k)
      (r.absent d k = [] → exec (.slotProcess t d) s = .next effects)
      ∧ (r.absent d k ≠ [] → 1000 * (k + 1) + 2000 ≤ r.now → (r.dieState (1 - d) ≠ dieInStep ∨ k < (r.die (1 - d)).slot) →
          exec (.slotMarkerTimeout t d) s = .next effects))
  ∧ (∀ d : Fin 2, r.processes d = true → r.awaitsOther d = false → (r.dieState d ≠ dieInStep ∨ r.nextSlot d < r.red.done) →
      (r.absent d (r.nextSlot d) = [] → exec (.slotProcess t d) s = .next (r.passSlot d (r.nextSlot d)))
      ∧ (r.absent d (r.nextSlot d) ≠ [] → 1000 * (r.nextSlot d + 1) + 2000 ≤ r.now →
          exec (.slotMarkerTimeout t d) s = .next (r.passSlot d (r.nextSlot d))))

/-- The events that end captures, intervals and open records complete (R165, R229 to R231, R251 to R254, R258): a block that waits is copied and coded; a closed
capture whose last words are there has its blocks copied and its record built; the end of a windrow interval is an event of its instant (R213), which gives
the WDR records of the front ends or a THROTTLE gap; open STP and ITV records close by age; the beacon and the housekeeping record are built at their
instants. -/
def Obligations.RecordEventsComplete : Prop :=
  ∀ (s : State) (t : Nat), let r := s.at_ t
  (∀ c, r.trg.captures.find? r.complete = some c →
      let a := ({ r with trg := { r.trg with captures := dropFirstWhere r.complete r.trg.captures } } : State).copyAll c
      exec (.captureEnd t) s = .next (a.1.build (a.1.fragment a.2)))
  ∧ (∀ (n : Fin 512) (block : Nat) (c : Capture) (g : GroupCapture) (x : CapturedInput),
      r.trg.captures.find? (fun c => r.blockWaits c n && (Sparse.get {} c.furrows n : FurrowPart).blocks.length == block) = some c →
      c.partOf n = some (g, x) →
      let a := if c.cut.isSome then r.codeBlockOf c x else r.copyBlock c g x
      exec (.blockCode t n block) s = .next { a.1 with trg := { a.1.trg with
        captures := r.trg.captures.map (fun d => if d.id == c.id && d.instant == c.instant then a.2 else d) } })
  ∧ (∀ (j : Fin 3) (e : LocalEvent), (r.windrowEnds j r.now).find? (fun e => !r.trg.events.contains e) = some e →
      exec (.windrowIntervalEnd t j) s = .next { r with trg := { r.trg with events := r.trg.events ++ [e] } })
  ∧ (∀ (j n : Nat) (x : Windrow), r.endingWindrow j n = some x →
      let a := r.windrowTaken j x
      let view := a.windrowView x
      let d := 1000 * view.rdN (P.TRG_WR_PERIOD j)
      d ≠ 0 →
      (x.from_ / d % a.windrowDivisor x.from_ = 0 → r.closeWindrow j n = [0, 1, 2, 3].foldl (fun s fe => s.windrowRecord view j x fe) a)
      ∧ (x.from_ / d % a.windrowDivisor x.from_ ≠ 0 →
          r.closeWindrow j n = (if (List.range 512).any (a.contributed view j x) then a.addGap 1 2 0 x.from_ x.to_ else a)))
  ∧ (∀ o, r.recs.stp = some o → r.now % 1000 = 0 → o.opened + 1000 * r.rdN P.REC_STP_AGE ≤ r.now →
      exec (.stpRecordAgeClose t) s = .next (State.build { r with recs := { r.recs with stp := none } } (o.draft 2 r.recDir)))
  ∧ (∀ o, r.recs.itv = some o → r.now % 1000 = 0 → o.opened + 1000 * r.rdN P.REC_ITV_AGE ≤ r.now →
      exec (.itvRecordAgeClose t) s = .next (State.build { r with recs := { r.recs with itv := none } } (o.draft 3 r.recDir)))
  ∧ (r.running = true → r.time % 17592186044416 = 0 → exec (.bcnWrap t) s
      = .next (r.build { kind := 4, time := r.now, last := r.now, kspec := 0, dir := r.recDir
                         body := [BitVec.ofNat 64 (r.now / 4294967296 % 281474976710656),
                           BitVec.ofNat 64 (r.tbState + 8 * r.rdN P.TB_FOLLOWED + 32 * r.rdN P.TB_QUALITY + 4294967296 * min 0xFFFFFFFF r.tbUncert),
                           BitVec.ofNat 64 0] }))
  ∧ (r.running = true → r.rdN P.REC_HSK_PERIOD ≠ 0 → r.now % (1000000000 * r.rdN P.REC_HSK_PERIOD) = 0 → r.commitDue = false →
      let words := (List.range (r.rdN P.REC_HSK_COUNT)).map (fun i => BitVec.ofNat 64 (r.rdN (P.REC_HSK_ADDR i) + 4294967296 * (r.readNow (r.rdN (P.REC_HSK_ADDR i))).toNat))
      exec (.hskLatch t) s = .next (r.build { kind := 5, time := r.now, last := r.now, kspec := words.length, body := words, dir := r.recDir }))

/-- The conversion events complete (R113, R119, R120, R123 to R125): the conversion in progress is corrected, flagged and issued and the grid advances, passing
over the cycles that are skipped; one that completes under the settings before a commit is the last of its old grid (R120); a group reaches the first
conversion of its grid and scans; a converter fault stops the group; an idle input issues words that repeat its last. -/
def Obligations.ConversionEventsComplete : Prop :=
  ∀ (s : State) (t : Nat) (g : Fin 128), let r := s.at_ t
  (∀ (n start : Nat) (raw : BitVec 12) (fails pulse : Bool), (r.group g).finishing = none → r.grpState g = grpScanning → r.nextRun g = some (n, start) →
      let end_ := start + r.convTime g
      ns end_ ≤ r.time →
      exec (.conversionEnd t g raw fails pulse) s = .next ((((r.noteSkip g start).convert r g n start end_ raw.toNat pulse).advance g n start).checkConverter g fails))
  ∧ (∀ (n start : Nat) (raw : BitVec 12) (fails pulse : Bool), (r.group g).finishing = some (n, start) →
      let view := { r with par := r.cmd.oldPar }
      let end_ := start + view.convTime g
      let conv := fun (s : State) => s.convert view g n start end_ raw.toNat pulse
      let done := match (r.group g).leaving with
        | some (m, st, x) => if m = n then r.lastConversion n st x conv else conv r
        | none => conv r
      ns end_ ≤ r.time → exec (.conversionEnd t g raw fails pulse) s = .next ((done.finishGroup g).checkConverter g fails))
  ∧ (r.grpState g = grpScanning → exec (.refMonitorFault t g) s = .next ((r.setBit (P.ADC_GRP_STATUS g) 2).faultGroup g))
  ∧ (r.grpState g = grpAligning → (r.group g).first ≤ r.now →
      exec (.groupS0Reached t g) s = .next ((r.wrN (P.ADC_GRP_STATE g) grpScanning).nextCycle g (r.group g).first))
  ∧ (∀ n : Fin 512, (r.grpState (n / 4) = grpStopped ∨ r.grpState (n / 4) = grpFault ∨ r.inState n = inHeld) → r.inState n ≠ inOff → r.onGrid n r.now = true →
      (bitOf (r.input n).word 2 = false ∨ (r.input n).wordAt ≠ r.now) → exec (.stlWordIssue t n) s = .next (r.issueStl n r.now))

/-- The input events complete (R73, R75, R76, R92, R94, R95): a wire-check confirmation is judged; the reset switch closes when it is due and opens 100 ns
later; the clamp of a pin is noted, counted and released; VAN low is noted on the inputs of range 4. -/
def Obligations.InputEventsComplete : Prop :=
  ∀ (s : State) (t : Nat) (n : Fin 512), let r := s.at_ t
  (∀ (a : Nat) (beyond : Bool), (r.input n).confFrom = some a → r.inState n = inConfirming → a + 10000 ≤ r.now →
      exec (.wbConfirmationEnd t n beyond) s
        = .next (r.endConfirmation n (a + 10000) (if r.rdN (P.FE_IN_MODE n) = 5 then (r.input n).confLow else beyond)))
  ∧ (∀ b, r.rdN (P.FE_IN_MODE n) = 2 → (r.input n).closed = none →
      (r.rdN (P.FE_QRST_MODE n) = 0 ∧ (r.input n).resetDue = some b ∧ b ≤ r.now)
        ∨ (r.rdN (P.FE_QRST_MODE n) = 1 ∧ r.now % (1000 * r.rdN (P.FE_QRST_PERIOD n)) = 0 ∧ b = r.now) →
      ∃ u, exec (.qresetClose t n) s = .next u ∧ (u.input n).closed = some b ∧ (u.input n).resetDue = none ∧ u.bit (P.FE_IN_STATUS n) 6 = true
        ∧ (u.input n).samples = (b, b + 400) :: (r.input n).samples.filter (fun w => decide (b < w.2 + 4000)) ∧ (∀ m, m ≠ n.val → u.input m = r.input m)
        ∧ (∀ k, k ≠ P.FE_IN_STATUS n → u.rd k = r.rd k) ∧ u.mem = r.mem)
  ∧ (∀ b, (r.input n).closed = some b → b + 100 ≤ r.now →
      exec (.qresetOpen t n) s = .next (r.setInput n { r.input n with closed := none }))
  ∧ (∀ (pin : Fin 2) (positive : Bool), let c := (r.input n).clamps.get pin
      (c.since.isSome = true → exec (.clampActivate t ⟨n, pin⟩ positive) s = .next r)
      ∧ (c.since = none → ∃ u, exec (.clampActivate t ⟨n, pin⟩ positive) s = .next u ∧ (u.input n).clamps = (r.input n).clamps.set pin (c.begin r.time positive)
        ∧ u.bit (P.FE_IN_STATUS n) 2 = true ∧ u.rd (P.FE_CLAMP_COUNT n) = satWord (r.rdN (P.FE_CLAMP_COUNT n) + 1)
        ∧ (∀ m, m ≠ n.val → u.input m = r.input m) ∧ (∀ k, k ≠ P.FE_IN_STATUS n → k ≠ P.FE_CLAMP_COUNT n → u.rd k = r.rd k) ∧ u.mem = r.mem))
  ∧ (∀ pin : Fin 2, let c := (r.input n).clamps.get pin
      c.since.isSome = true → exec (.clampRelease t ⟨n, pin⟩) s
        = .next (r.setInput n { r.input n with clamps := (r.input n).clamps.set pin (c.end_ r.time)
                                               starts := addWindow (r.now, r.now + 2000, false) (r.input n).starts }))
  ∧ (∀ fe : Fin 4, (Sparse.get {} r.fe.vanLow fe : Spell).since = none → (inputsOf fe).any r.onRange4 = true →
      exec (.vanLowOnset t fe) s
        = .next (((inputsOf fe).filter r.onRange4).foldl (fun s n => s.setBit (P.FE_IN_STATUS n) 10)
            { r with fe := { r.fe with vanLow := Sparse.set {} r.fe.vanLow fe ((Sparse.get {} r.fe.vanLow fe : Spell).begin r.time false) } }))
  ∧ (∀ fe : Fin 4, exec (.vanLowEnd t fe) s
      = .next { r with fe := { r.fe with vanLow := Sparse.set {} r.fe.vanLow fe ((Sparse.get {} r.fe.vanLow fe : Spell).end_ r.time) } })

/-- The excitation events complete (R81 to R83, R86, R102): a source swaps its terminals and its inputs output the value of a pair; a source reaches compliance
or holds its current again; a sweep starts and ends, or is skipped, and the listening interval opens and closes. -/
def Obligations.ExcitationEventsComplete : Prop :=
  ∀ (s : State) (t : Nat) (k : Fin 64), let r := s.at_ t
  (let h := 500 * r.rdN (P.FE_EXC_REV_PERIOD k)
   h ≠ 0 → r.now % h = 0 → r.commitDue = false →
    (r.now / h % 2 = 1 → exec (.reversalInstant t k) s = .next (r.setSource k { r.source k with reversed := true }))
    ∧ (r.now / h % 2 = 0 → exec (.reversalInstant t k) s
        = .next ((r.namedBy k).foldl (fun s n => s.endPair h s.now n) (r.setSource k { r.source k with reversed := false }))))
  ∧ (r.rdN (P.FE_EXC_CURRENT k) ≠ 0 → (r.source k).compliance.since = none →
      exec (.excComplianceChange t k true) s
        = .next ((r.namedBy k).foldl (fun s n => s.setBit (P.FE_IN_STATUS n) 7)
            (((r.setSource k { r.source k with compliance := (r.source k).compliance.begin r.time false }).setBit (P.FE_EXC_STATUS k) 1).setBit
              (P.FE_EXC_STATUS k) 0)))
  ∧ (exec (.excComplianceChange t k false) s
      = .next ((r.setSource k { r.source k with compliance := (r.source k).compliance.end_ r.time }).clrBits (P.FE_EXC_STATUS k) 2))
  ∧ (let d := 1000000 * r.rdN (P.FE_VW_INTERVAL k)
     let ph := 1000 * r.rdN (P.FE_VW_PHASE k)
     let skipped := r.calSteers k || (r.namedBy k).any (fun n => r.inState n == inBroken || r.inState n == inHeld)
     d ≠ 0 → ph ≤ r.now → (r.now - ph) % d = 0 → (r.source k).sweepAt ≠ some r.now → r.commitDue = false →
      (skipped = true → exec (.vwSweepStart t k) s = .next (r.setSource k { r.source k with released := true }))
      ∧ (skipped = false → exec (.vwSweepStart t k) s
        = .next ((r.namedBy k).foldl (fun s n => if s.inState n = inOff then s else s.setInput n { s.input n with sweep := some s.now })
            (((r.setSource k { r.source k with sweepAt := some r.now, waitFrom := none, listenFrom := none }).steer k).setBit (P.FE_EXC_STATUS k) 2))))
  ∧ (∀ a, (r.source k).sweepAt = some a → let e := a + 1000 * r.rdN (P.FE_VW_SWEEP k); e ≤ r.now →
      exec (.vwSweepEnd t k) s
        = .next ((r.namedBy k).foldl (fun s n => let u := s.setEvent n e; u.setInput n { u.input n with sweep := none })
            ((r.setSource k { r.source k with sweepAt := none, waitFrom := some e, released := true }).clrBits (P.FE_EXC_STATUS k) 4)))
  ∧ (∀ a, (r.source k).waitFrom = some a → let e := a + 1000 * r.rdN (P.FE_VW_WAIT k); e ≤ r.now →
      exec (.vwListenStart t k) s
        = .next ((r.namedBy k).foldl (fun s n => s.refreshCmp n 1) (r.setSource k { r.source k with waitFrom := none, listenFrom := some e })))
  ∧ (∀ a, (r.source k).listenFrom = some a → a + 1000 * r.rdN (P.FE_VW_LISTEN k) ≤ r.now →
      exec (.vwListenEnd t k) s = .next ((r.namedBy k).foldl (fun s n => s.refreshCmp n 1) (r.setSource k { r.source k with listenFrom := none })))

/-- The edge events complete (R135 to R137, R144, R145): a level passed begins or breaks a crossing; a crossing that has stood for TMR_QUAL is accepted; a
hold-off ends with the present level and no edge; a stamp made enters its input's buffer of four, or is counted as lost; a word leaves in rotation. -/
def Obligations.EdgeEventsComplete : Prop :=
  ∀ (s : State) (t : Nat) (n : Fin 512), let r := s.at_ t
  let x := r.timing n
  (x.cross = none → x.holdEnd = none → x.aboveU = false → r.rdN (P.TMR_CMP_STATE n) = 1 → x.levelAt ≠ some r.time →
      exec (.comparatorCrossing t n 0) s = .next ((r.setTiming n { x with aboveU := true, belowL := false }).beginCross n true))
  ∧ (x.cross = none → x.holdEnd = none → x.belowL = false → r.rdN (P.TMR_CMP_STATE n) = 2 → x.levelAt ≠ some r.time →
      exec (.comparatorCrossing t n 2) s = .next ((r.setTiming n { x with aboveU := false, belowL := true }).beginCross n false))
  ∧ (∀ kind : Fin 4, x.cross = none → x.holdEnd = none → r.rdN (P.TMR_CMP_STATE n) = 0 →
      exec (.comparatorCrossing t n kind) s = .next (r.setTiming n (levelAfter (r.rdN (P.TMR_HYST n)) kind x)))
  ∧ (∀ c rising, x.cross = some (c, rising) → x.holdEnd = none → r.time < c + ns (r.rdN (P.TMR_QUAL n)) → r.rdN (P.TMR_CMP_STATE n) ≠ 0 →
      x.levelAt ≠ some r.time → let kind : Fin 4 := if rising then 1 else 3
      exec (.comparatorCrossing t n kind) s = .next ((r.setTiming n (levelAfter (r.rdN (P.TMR_HYST n)) kind x)).glitch n))
  ∧ (∀ kind : Fin 4, x.cross = none → x.holdEnd = none → r.rdN (P.TMR_CMP_STATE n) ≠ 0 → x.levelAt = some r.time →
      exec (.comparatorCrossing t n kind) s
        = .next (((r.setTiming n (levelAfter (r.rdN (P.TMR_HYST n)) kind x)).takeLevel n).updateAlarm n r.now))
  ∧ (∀ c rising, x.cross = some (c, rising) → c + ns (r.rdN (P.TMR_QUAL n)) ≤ r.time → exec (.edgeAccept t n) s = .next (r.acceptEdge n rising c))
  ∧ (∀ e, x.holdEnd = some e → e ≤ r.time → let a := r.setTiming n { x with holdEnd := none }
      (r.rdN (P.TMR_CMP_STATE n) = 3 → exec (.holdoffEnd t n) s = .next ((a.wrN (P.TMR_CMP_STATE n) (if x.belowL then 1 else 2)).updateAlarm n (e / 4096)))
      ∧ (r.rdN (P.TMR_CMP_STATE n) = 4 →
          exec (.holdoffEnd t n) s = .next ((a.wrN (P.TMR_CMP_STATE n) (if x.aboveU then 2 else 1)).updateAlarm n (e / 4096))))
  ∧ (∀ m ms, x.making = m :: ms → m.done ≤ r.time →
      let a := (r.setTiming n { x with making := ms }).itvStamp n (bitOf m.word 10) m.stamp m.crossing m.gap
      let b := if bitOf m.word 10 then a.startFrom n m.stamp m.crossing (inputsOf (n / 128)) else a
      exec (.stampWordComplete t n) s = .next ((b.takeStarts n).bufferStamp n m))
  ∧ (∀ (fe : Fin 4) (last at_ i : Nat) (w : Nat × Nat × W64) (ws : List (Nat × Nat × W64)), Sparse.get (127, 0) r.tmr.stampLast fe = (last, at_) →
      (at_ = 0 ∨ at_ + 64000 ≤ r.time) →
      rotation fe last (fun n => match (r.timing n).buffer with
        | [] => false
        | w :: _ => decide (w.1 < r.time)) = some i →
      (r.timing i).buffer = w :: ws →
      exec (.stampArbiterStep t fe) s
        = .next (State.send (let a := r.setTiming i { r.timing i with buffer := ws }
            { a with tmr := { a.tmr with stampLast := Sparse.set (127, 0) a.tmr.stampLast fe (i % 128, a.time) } }) fe (.stamp w.2.2 w.2.1)))

/-- What becomes of a stamp word (R144): with fewer than four words waiting it is counted and waits, marked when one before it was lost; else it is lost. -/
def Obligations.StampBuffer : Prop :=
  ∀ (s : State) (n : Nat) (m : StampMade), let x := s.timing n
  (x.buffer.length < 4 → let u := s.bufferStamp n m
    (u.timing n).buffer = x.buffer ++ [(m.done, (m.stamp / 4096).toNat, BitVec.ofNat 64 (m.word + 512 * b2n (m.gap || x.gapRate)))]
    ∧ (u.timing n).gapRate = false ∧ u.rdN (P.TMR_STAMP_COUNT n) = (s.rdN (P.TMR_STAMP_COUNT n) + 1) % 4294967296 ∧ u.bit (P.TMR_IN_STATUS n) 0 = true
    ∧ (∀ j, j ≠ n → u.timing j = s.timing j) ∧ (∀ k, k ≠ P.TMR_STAMP_COUNT n → k ≠ P.TMR_IN_STATUS n → u.rd k = s.rd k))
  ∧ (4 ≤ x.buffer.length → let u := s.bufferStamp n m
    (u.timing n).buffer = x.buffer ∧ (u.timing n).gapRate = true ∧ u.rd (P.TMR_LOST_RATE n) = satWord (s.rdN (P.TMR_LOST_RATE n) + 1)
    ∧ u.bit (P.TMR_IN_STATUS n) 3 = true ∧ (∀ j, j ≠ n → u.timing j = s.timing j)
    ∧ (∀ k, k ≠ P.TMR_LOST_RATE n → k ≠ P.TMR_IN_STATUS n → u.rd k = s.rd k))

/-- The interval and hit events complete (R147, R148, R150 to R152, R203): a set times out and the next opens; the window of a pending start closes and a miss
is counted; a result is formed and, where intervals are recorded, sent; a hit enters its input's buffer of four or is lost; a hit leaves in rotation. The
timed output events complete (R153, R156 to R158): the next pulse of a schedule is placed, or skipped when it falls into a pulse still running or before a
step of the time base; a pulse ends, and the last one of a schedule, or a disarmed one, leaves the output IDLE. -/
def Obligations.IntervalAndOutputEventsComplete : Prop :=
  (∀ (s : State) (t : Nat) (n : Fin 512), let r := s.at_ t
   let x := r.timing n
   (∀ it, x.set = some it → let e := it.opened + msec (r.rdN (P.TMR_ITV_TIMEOUT n)); e ≤ r.time →
       exec (.itvSetTimeout t n) s = .next ((r.closeSet n 2 e).openSet n e))
   ∧ (∀ st, let r := r.takeStarts n; (r.timing n).start = some st → r.rdN (P.TMR_ITV_MODE n) = 3 →
       let e := (st + ns (r.rdN (P.TMR_ITV_WINDOW n))).toNat; e ≤ r.time → r.settled n e = true →
       ∃ u, exec (.itvDelayWindowClose t n) s = .next u ∧ (u.timing n).start = none ∧ u.rd (P.TMR_ITV_MISS n) = satWord (r.rdN (P.TMR_ITV_MISS n) + 1)
         ∧ u.bit (P.TMR_IN_STATUS n) 5 = true ∧ (∀ j, j ≠ n.val → u.timing j = r.timing j)
         ∧ (∀ k, k ≠ P.TMR_ITV_MISS n → k ≠ P.TMR_IN_STATUS n → u.rd k = r.rd k) ∧ u.mem = r.mem)
   ∧ (∀ c cs, x.closed = c :: cs → c.close ≤ r.time → r.settled n c.close = true → c.set.n = 0 →
       ∃ u, exec (.itvResultReady t n) s = .next u ∧ (u.timing n).closed = cs ∧ u.bit (P.TMR_IN_STATUS n) 6 = true ∧ u.rdN (P.TMR_ITV_LAST_COUNT n) = 0
         ∧ u.rd64 (P.TMR_ITV_LAST_MEAN (2 * n)) = 0x7FF8000000000000 ∧ u.rd64 (P.TMR_ITV_LAST_SD (2 * n)) = 0x7FF8000000000000)
   ∧ (∀ c cs, x.closed = c :: cs → c.close ≤ r.time → r.settled n c.close = true → 0 < c.set.n →
       let a := (r.setTiming n { x with closed := cs }).wrN (P.TMR_ITV_LAST_COUNT n) c.set.n
       let b := (a.wr64 (P.TMR_ITV_LAST_MEAN (2 * n)) (Fl.bits64 c.set.mean).toNat).wr64 (P.TMR_ITV_LAST_SD (2 * n)) (Fl.bits64 c.set.deviation).toNat
       let lin := b.linFrequency n c.set (c.close / 4096)
       let d := match lin.2 with
         | some i => b.setBit (P.FE_IN_STATUS n) i
         | none => b
       exec (.itvResultReady t n) s
         = .next (if d.rdN (P.TMR_ITV_REC n) = 1 then
             d.send (n / 128) (.interval (itvWords n c (Fl.bits64 c.set.mean) (Fl.bits64 c.set.deviation) (stamp44 c.set.first.toNat)
               ((c.close / 17592186044416 - c.set.first.toNat / 17592186044416) % 16) lin.1) (c.close / 4096))
           else d))
   ∧ (∀ h, x.hits.find? (fun h => decide (h.done ≤ r.time)) = some h →
       let a := r.setTiming n { x with hits := dropFirstWhere (fun h => decide (h.done ≤ r.time)) x.hits }
       exec (.hitComplete t n) s
         = .next (if x.hitBuffer.length < 4 then a.setTiming n { a.timing n with hitBuffer := x.hitBuffer ++ [h] } else a.loseHit n))
   ∧ (∀ (fe : Fin 4) (last at_ i : Nat) (h : Hit) (hs : List Hit), Sparse.get (127, 0) r.tmr.hitLast fe = (last, at_) → (at_ = 0 ∨ at_ + 32000 ≤ r.time) →
       rotation fe last (fun n => match (r.timing n).hitBuffer with
         | [] => false
         | h :: _ => decide (h.done < r.time)) = some i →
       (r.timing i).hitBuffer = h :: hs →
       exec (.hitArbiterStep t fe) s
         = .next (State.send (let a := r.setTiming i { r.timing i with hitBuffer := hs }
             { a with tmr := { a.tmr with hitLast := Sparse.set (127, 0) a.tmr.hitLast fe (i % 128, a.time) } }) fe (.hit h))))
  ∧ (∀ (s : State) (t : Nat) (i : Fin 32), let r := s.at_ t
   let x := r.tpo i
   (∀ c, x.schedule = some c → let a := c.first + c.n * c.period; 32 * a ≤ r.time →
       let c' := { c with n := c.n + 1 }
       let last := c.count != 0 && c.n + 1 == c.count
       (c.notBefore ≤ a → c.stepFrom ≤ a → exec (.tpoActiveEdge t i) s
         = .next (((r.setTpo i { x with schedule := some c', pulseEnd := some (a + c.width), ending := last, pulsePol := c.pol }).wrN (P.TMR_TPO_STATE i) tpoRunning).startFrom
             (0x200 + i) ((32 * a : Nat) : Int) (32 * a) (inputsOf (i / 8))))
       ∧ (a < c.notBefore → exec (.tpoActiveEdge t i) s
           = .next (let b := (r.setTpo i { x with schedule := some c' }).setBit (P.TMR_TPO_STATUS i) 2; if last then b.exhaustTpo i else b))
       ∧ (c.notBefore ≤ a → a < c.stepFrom → exec (.tpoActiveEdge t i) s
           = .next (let b := (r.setTpo i { x with schedule := some c' }).setBit (P.TMR_TPO_STATUS i) 3; if last then b.exhaustTpo i else b)))
   ∧ (∀ e, let r := (r.startedBy (0x200 + i) (inputsOf (i / 8))).foldl State.takeStarts r
       let x := r.tpo i
       x.pulseEnd = some e → 32 * e ≤ r.time →
       (x.ending = true → exec (.tpoInactiveEdge t i) s
         = .next (((r.setTpo i { x with pulseEnd := none, ending := false, schedule := none }).wrN (P.TMR_TPO_STATE i) tpoIdle).setBit (P.TMR_TPO_STATUS i) 1))
       ∧ (x.ending = false → x.disarmed = true → exec (.tpoInactiveEdge t i) s
           = .next ((r.setTpo i { x with pulseEnd := none, disarmed := false }).wrN (P.TMR_TPO_STATE i) tpoIdle))
       ∧ (x.ending = false → x.disarmed = false → exec (.tpoInactiveEdge t i) s = .next (r.setTpo i { x with pulseEnd := none }))))

/-- The memory events complete (R275, R289, R298 to R305, R465): the refresh band and the refresh; the Gleaner's read of its next line or word, once no refresh
is due and no borrowed region or request stands before it; the memory test, which starts a region at its pace, saves, marches and restores it and reports a
fault of either die; and an access, which raises a trap in both dies where the processor's map gives it no right, reaches the Granary at once, and at the
SRAM forces the return of a borrowed region and joins the requests of its port. The acquisition events complete (R208, R209, R224): a sequencer's timer
comes due; its automatic fire comes due; an announcement of an ID not seen before goes on by the ring's other port with one hop less, and a node that has an
ID takes it into its slot stream; a copy is dropped. -/
def Obligations.MemoryAndAcquisitionEventsComplete : Prop :=
  (∀ (s : State) (t : Nat), let r := s.at_ t
   let q := r.settle
   let x := q.mem.test
   (∀ (d : Fin 2) milliC, ∃ u, exec (.stackTempRead t d milliC) s = .next u ∧ (u.memDie d).stackTemp = milliC
       ∧ u.rdN (P.RED_GRN_BAND d) = bandOf (r.rdN (P.RED_GRN_BAND d)) milliC ∧ (∀ k, k ≠ P.RED_GRN_BAND d → u.rd k = r.rd k))
   ∧ (∀ d : Fin 2, r.mem.selfRefresh = false → (r.memDie d).lastRefresh + ns (refreshNs (r.rdN (P.RED_GRN_BAND d))) ≤ r.time →
       exec (.refreshDue t d) s = .next (r.setMemDie d { r.memDie d with lastRefresh := r.time }))
   ∧ (∀ d : Fin 2, q.running = true → q.mem.selfRefresh = false → q.mem.granReady = true → q.gleanFits d true = true →
       let due := (q.memDie d).lastRefresh + ns (refreshNs (q.rdN (P.RED_GRN_BAND d)))
       (q.time < due → exec (.gleanerRead t d true) s = .next (q.gleanNext d true))
       ∧ (due ≤ q.time → (q.memDie d).lastRefresh < q.time → exec (.gleanerRead t d true) s = .next (q.setMemDie d { q.memDie d with lastRefresh := q.time })))
   ∧ (∀ d : Fin 2, q.running = true → q.gleanFits d false = true → let a := (q.gleaner d false).next
       let u := q.touch a false
       exec (.gleanerRead t d false) s = .next (if u.blocked a || u.portBusy a then u else u.gleanNext d false))
   ∧ (∀ (s : State) (d : Nat) (granary : Bool), let a := (s.gleaner d granary).next
       let c := s.countRead d granary
       let g := if granary then c.gleanLine d a else c.gleanWord d a
       let last := if granary then granLines else sramWords
       (a + 1 = last → s.gleanNext d granary = g.endLap d granary)
       ∧ (a + 1 ≠ last → s.gleanNext d granary = g.setGleaner d granary { g.gleaner d granary with next := a + 1 }))
   ∧ (q.running = true → x.phase = .idle → q.rdN P.SRM_TEST_MODE ≠ 0 → q.now % (1000 * q.rdN P.SRM_TEST_PACE) = 0 →
       (∀ i, q.nextRegion x.region = some i → exec (.srmTestPace t) s = .next (q.setTest { x with phase := .save, region := i, abandoned := false }))
       ∧ (∀ i, q.nextRegion x.region = none → q.nextRegion 0 = some i → q.rdN P.SRM_TEST_MODE = 1 →
           exec (.srmTestPace t) s = .next (q.setTest { x with phase := .save, region := i, abandoned := false }))
       ∧ (q.nextRegion x.region = none → q.rdN P.SRM_TEST_MODE = 2 → exec (.srmTestPace t) s = .next (q.wrN P.SRM_TEST_MODE 0)))
   ∧ (x.phase = .save → exec (.srmTestSaveDone t) s = .next (q.setTest { x with phase := if x.abandoned then .idle else .march }))
   ∧ (∀ a b, x.phase = .march →
       let m := if a then q.marchFault 0 x.region else q
       let m := if b then m.marchFault 1 x.region else m
       exec (.srmTestMarchDone t a b) s = .next (m.setTest { m.mem.test with phase := .restore }))
   ∧ (x.phase = .restore → let h := q.heldByTest x.region (q.time / 4096)
       let next := if x.abandoned then x.region else x.region + 1
       let u := h.setTest { phase := .idle, region := next, again := x.abandoned, waiting := h.mem.test.waiting }
       exec (.srmTestRestoreDone t) s
         = .next (if !x.abandoned && u.rdN P.SRM_TEST_MODE = 2 && (u.nextRegion next).isNone then u.wrN P.SRM_TEST_MODE 0 else u))
   ∧ (∀ a : SramAccess,
       (isProcessor a.master = true → mapped a.at_ a.kind = false →
         exec (.borrowedRegionAccess t a.master a.channel a.toSramRequest) s = .next ((q.trap 0 (trapOf a.kind) a.at_).trap 1 (trapOf a.kind) a.at_))
       ∧ ((isProcessor a.master = false ∨ mapped a.at_ a.kind = true) →
         (∀ g, a.gran? = some g → exec (.borrowedRegionAccess t a.master a.channel a.toSramRequest) s = .next (q.accessGran a g))
         ∧ (∀ w, a.gran? = none → a.word? = some w → exec (.borrowedRegionAccess t a.master a.channel a.toSramRequest) s
             = .next ((q.touch w a.writes).await { master := a.master, word := w, portB := a.portB, since := q.time, work := .access a }))
         ∧ (a.gran? = none → a.word? = none → exec (.borrowedRegionAccess t a.master a.channel a.toSramRequest) s = .next q))))
  ∧ (∀ (s : State) (t : Nat), let r := s.at_ t
   (∀ (q : Fin 32) e, (r.seq q).timer = some e → e ≤ r.now → exec (.seqTimerExpiry t q) s = .next (r.setSeq q { r.seq q with timerDue := true }))
   ∧ (∀ q : Fin 32, r.rdN (P.TRG_SEQ_AUTO q) ≠ 0 → r.seqState q ≠ seqHalted → (r.seq q).lastFire + 1000 * r.rdN (P.TRG_SEQ_AUTO q) ≤ r.now →
       exec (.seqAutoFire t q) s = .next (r.setSeq q { r.seq q with autoDue := true }))
   ∧ (∀ (p : Fin 2) k bs, r.clp.announces.find? (fun a => a.1 == p.val) = some (k, bs) →
       let taken := { r with clp := { r.clp with announces := dropFirstWhere (fun a => a.1 == p.val) r.clp.announces } }
       let a := announcementOf bs
       let noted := taken.noteId a.id
       let onward := bs.take 7 ++ [BitVec.ofNat 8 (a.hopsLeft - 1)] ++ bs.drop 8
       let sent := noted.sendOn (1 - p.val) false (announceFrame (bits a.id 47 36) onward)
       (taken.knowsId a.id = true → exec (.announceReceive t p) s = .next taken)
       ∧ (taken.knowsId a.id = false → 1 ≤ a.hopsLeft → noted.isRingPort (1 - p.val) = true → sent.rdN P.SYS_NODE_ID ≠ 0 →
           exec (.announceReceive t p) s = .next (sent.send 4 (.announce a)))
       ∧ (taken.knowsId a.id = false → a.hopsLeft = 0 → noted.rdN P.SYS_NODE_ID ≠ 0 → exec (.announceReceive t p) s = .next (noted.send 4 (.announce a)))
       ∧ (taken.knowsId a.id = false → a.hopsLeft = 0 → noted.rdN P.SYS_NODE_ID = 0 → exec (.announceReceive t p) s = .next noted)))

/-- The alarm events complete (R16, R444 to R447, R451): a flit of a source reaches a die, which passes it on to the link die for comparison, or is counted and
asked for again; an active local part is announced again every millisecond; a remote entry not refreshed for 3 ms goes, unless a word that refreshes it is
on its way; an acknowledgement acts at its boundary; a pad that reads another level is shown and logged. The loop output events complete (R456 to R458): an
update drives the loop's setpoint as its mode gives it; the current read back is shown, and one that has stood 10 ms beyond its limits is a fault, an
over-current turning the driver off; 1 s after that it is turned on again. -/
def Obligations.AlarmAndLoopEventsComplete : Prop :=
  (∀ (s : State) (t : Nat), let r := s.at_ t
   (∀ (d : Fin 2) (src : Fin 5) e es rest, takeFlit src (r.alm.flits.get d) = (e :: es, rest) → r.inService d = true →
       let a := State.passAlarms (State.countIn { r with alm := { r.alm with flits := r.alm.flits.set d rest } } d 2 src 1) d (e :: es)
       exec (.alarmFlitReceive t d src false) s = .next (r.countIn d 1 src 1)
       ∧ exec (.alarmFlitReceive t d src true) s = .next (if d = r.active then a.matrixTake (e :: es) else a))
   ∧ (∀ l : Fin 8, bitOf r.alm.matrix.localMask l = true → Sparse.get 0 r.alm.refreshed l + msec 1 ≤ r.time →
       exec (.alarmRefresh t l) s = .next (r.sendWord l true))
   ∧ (∀ e, r.alm.matrix.remote.find? (fun e => decide (e.at_ + 3000000 ≤ r.now) && !r.refreshComes e) = some e →
       let x : AlarmEvent := .expiry e.origin e.line r.now
       exec (.remoteEntryExpiry t) s = .next ((r.matrixStep x).send 4 (.alarm x)))
   ∧ (∀ o, r.firstDue 0x07 = some o → r.commitBefore (o.due.getD 0) = false → r.earlierFirst o.h (o.due.getD 0) = false →
       let b := r.actAt (o.due.getD 0)
       let e : AlarmEvent := .ack (word o.p 0) b
       let before := r.drainFlits b
       let after := (before.matrixStep e).send 4 (.alarm e)
       exec (.almAckAct t) s = .next (after.finish 0x07 o.h stOk [BitVec.ofNat 32 (changedLines before.alm.matrix after.alm.matrix)]))
   ∧ (∀ (k : Fin 8) driven, r.alarmPin k = some driven → exec (.padReadbackFault t k (!driven)) s
       = .next ((r.setBit P.ALM_STATUS 3).logEvent 0x1001 7 3 k (b2n (!driven)))))
  ∧ (∀ (s : State) (t : Nat) (k : Fin 8), let r := s.at_ t
   let x := r.loop k
   (r.now % (1000 * r.rdN (P.ALM_LOOP_UPDATE k)) = 0 →
       (∀ i, r.loopSetpoint k = .drive i → ∃ u, exec (.loopUpdate t k) s = .next u ∧ u.rdN (P.ALM_LOOP_SETPOINT k) = i % 4294967296
           ∧ u.bit (P.ALM_LOOP_STATUS k) 0 = false ∧ u.bit (P.ALM_LOOP_STATUS k) 3 = false ∧ (u.loop k).level = i
           ∧ (∀ j, j ≠ k.val → u.loop j = r.loop j) ∧ (∀ a, a ≠ P.ALM_LOOP_SETPOINT k → a ≠ P.ALM_LOOP_STATUS k → u.rd a = r.rd a) ∧ u.mem = r.mem)
       ∧ (r.loopSetpoint k = .fail → r.rdN (P.ALM_LOOP_FAIL k) = 0 → ∃ u, exec (.loopUpdate t k) s = .next u ∧ u.rdN (P.ALM_LOOP_SETPOINT k) = 3600
           ∧ u.bit (P.ALM_LOOP_STATUS k) 3 = true)
       ∧ (r.loopSetpoint k = .fail → r.rdN (P.ALM_LOOP_FAIL k) = 1 → ∃ u, exec (.loopUpdate t k) s = .next u ∧ u.rdN (P.ALM_LOOP_SETPOINT k) = 21000
           ∧ u.bit (P.ALM_LOOP_STATUS k) 3 = true)
       ∧ (r.loopSetpoint k = .fail → 2 ≤ r.rdN (P.ALM_LOOP_FAIL k) → ∃ u, exec (.loopUpdate t k) s = .next u
           ∧ u.rdN (P.ALM_LOOP_SETPOINT k) = x.level % 4294967296 ∧ u.bit (P.ALM_LOOP_STATUS k) 0 = decide (r.rdN (P.ALM_LOOP_FAIL k) = 2)
           ∧ u.bit (P.ALM_LOOP_STATUS k) 3 = true ∧ (u.loop k).level = x.level)
       ∧ (r.loopSetpoint k = .held → ∃ u, exec (.loopUpdate t k) s = .next u ∧ u.rdN (P.ALM_LOOP_SETPOINT k) = x.level % 4294967296
           ∧ u.bit (P.ALM_LOOP_STATUS k) 0 = true ∧ (u.loop k).level = x.level))
   ∧ (∀ microA, x.lowSince = none → x.highSince = none → x.overSince = none → x.lowShown = false → x.highShown = false → x.level ≤ microA + 200 →
       microA ≤ x.level + 200 → microA ≤ 24000 →
       exec (.loopReadbackCheck t k microA) s = .next ((r.wrN (P.ALM_LOOP_MEASURED k) microA).setLoop k x))
   ∧ (∀ microA a, x.lowSince = some a → a + msec 10 ≤ r.time → x.highSince = none → x.overSince = none → x.lowShown = false → x.highShown = false →
       x.on = true → microA + 200 < x.level → x.level ≤ 24000 →
       exec (.loopReadbackCheck t k microA) s
         = .next (((r.wrN (P.ALM_LOOP_MEASURED k) microA).setLoop k { x with lowShown := true }).loopFault k 1 microA))
   ∧ (∀ microA a, x.highSince = some a → a + msec 10 ≤ r.time → x.lowSince = none → x.overSince = none → x.lowShown = false → x.highShown = false →
       x.level + 200 < microA → microA ≤ 24000 →
       exec (.loopReadbackCheck t k microA) s
         = .next (((r.wrN (P.ALM_LOOP_MEASURED k) microA).setLoop k { x with highShown := true }).loopFault k 2 microA))
   ∧ (∀ microA a, x.overSince = some a → a + msec 10 ≤ r.time → x.lowSince = none → x.highSince.isSome = true → x.lowShown = false → x.highShown = false →
       x.retryAt = none → x.level + 200 < microA → 24000 < microA →
       exec (.loopReadbackCheck t k microA) s
         = .next (((r.wrN (P.ALM_LOOP_MEASURED k) (min microA 30000)).setLoop k
             { x with highShown := true, on := false, retryAt := some (r.time + secs 1) }).loopFault k 2 microA))
   ∧ (∀ a, x.retryAt = some a → a ≤ r.time → exec (.loopRetry t k) s
       = .next (r.setLoop k { x with on := r.rdN (P.ALM_LOOP_SRC k) != 0, retryAt := none, overSince := none, highSince := none, highShown := false })))

/-- The comparison and arbitration events complete (R395, R396, R403, R404, R408): the next item of a die reaches the link die; a copy without a partner for 4
µs is a mismatch against the silent die; a die's checks and claims are taken; when both claims are there, or after 20 µs, the link die decides; control
returns at a slot boundary. -/
def Obligations.ComparisonEventsComplete : Prop :=
  ∀ (s : State) (t : Nat), let r := s.at_ t
  (∀ (d : Fin 2) x xs, (r.die d).out = x :: xs → exec (.dieItemCompare t d) s = .next ((r.setDie d { r.die d with out := xs }).takeItem d x))
  ∧ (∀ x, r.red.mismatch = none →
      ((r.die 0).held.find? (fun x => decide (x.arrivedAt + usec 4 ≤ r.time)) = some x →
        exec (.compareWindowTimeout t) s = .next (r.mismatch kindMissing x.slot ⟨none, some 7⟩))
      ∧ ((r.die 0).held.find? (fun x => decide (x.arrivedAt + usec 4 ≤ r.time)) = none →
          (r.die 1).held.find? (fun x => decide (x.arrivedAt + usec 4 ≤ r.time)) = some x →
          exec (.compareWindowTimeout t) s = .next (r.mismatch kindMissing x.slot ⟨some 7, none⟩)))
  ∧ (∀ m, r.red.mismatch = some m →
      (∀ (d : Fin 2) (e : Fin 8), (m.checks.get d = none ∨ m.checks.get d = some 0) →
        exec (.attributionCheck t d e) s = .next { r with red := { r.red with mismatch := some { m with
          checks := m.checks.set d (some (if e.val = 0 then (r.die d).evidence else e)) } } })
      ∧ (∀ (d : Fin 2) (e : Fin 8) c, m.checks.get d = some c → c ≠ 0 →
        exec (.attributionCheck t d e) s = .next { r with red := { r.red with mismatch := some { m with checks := m.checks.set d (some c) } } })
      ∧ (∀ (d : Fin 2) c, m.checks.get d = some c → r.silent d = false → r.time ≤ m.at_ + usec 20 →
          let m' := { m with claims := m.claims.set d (some (if c = 0 then r.claim d else r.health d)) }
          let a := { r with red := { r.red with mismatch := some m' } }
          exec (.claimItemReceive t d) s = .next (if m'.claims.a.isSome && m'.claims.b.isSome then a.decideMismatch else a))
      ∧ (m.at_ + usec 20 ≤ r.time → exec (.arbitrationTimeout t) s = .next r.decideMismatch))
  ∧ (r.now % 1000 = 0 → r.red.mismatch = none → r.dieState 0 = dieInStep → r.dieState 1 = dieInStep → r.winner ≠ r.active →
      let m := r.moveGate r.winner
      let a := { m with red := { m.red with gate := (m.red.slot, r.active) } }
      exec (.revertHoldExpiry t) s = .next (if r.winner = a.rdN P.RED_PREF && (a.die r.winner).preferAt != 0 then a.setBit P.RED_STATUS 2 else a))

/-- The self-test and synchronisation events complete (R401, R412 to R414): a pass leads to SYNCING and answers the command that waits; a failure is retried,
and RED_RETRY_MAX in a row lead to FAILED; the three parts of a synchronisation, the last two no sooner than the rate and the ring depths allow, end with
the die IN_STEP. The control item events complete (R17, R411): a front end acts on an item that only one die in service sends, or that both sent alike
within the window; an item without its partner is held; two that differ, or that come 4 µs apart, are held and reported; what is held for 50 µs is
discarded. -/
def Obligations.SyncAndControlItemEventsComplete : Prop :=
  (∀ (s : State) (t : Nat), let r := s.at_ t
   (∀ d : Fin 2, r.dieState d = dieSelftest → (r.die d).retryAt = none →
       let answered := fun (u : State) (status result : Nat) => match (r.die d).testCmd with
         | some h => (u.setDie d { u.die d with testCmd := none }).finish 0x62 h status [BitVec.ofNat 32 result]
         | none => u
       exec (.selftestComplete t d 0) s = .next (answered (((r.wrN (P.RED_SELFTEST_RESULT d) 2147483648).setDie d
           { r.die d with failures := 0, syncFrom := none, syncStore := false, syncRing := false }).setDieState d dieSyncing) stOk 2147483648)
       ∧ (∀ f : BitVec 4, f ≠ 0 → let result := 2147483648 + f.toNat
           let a := (r.wrN (P.RED_SELFTEST_RESULT d) result).setBit P.RED_STATUS 6
           ((r.die d).failures + 1 < r.rdN P.RED_RETRY_MAX → exec (.selftestComplete t d f) s
             = .next (answered (a.setDie d { r.die d with failures := (r.die d).failures + 1, retryAt := some (r.time + secs 1) }) stInternal result))
           ∧ (r.rdN P.RED_RETRY_MAX ≤ (r.die d).failures + 1 → exec (.selftestComplete t d f) s
               = .next (answered ((a.setDie d { r.die d with failures := 0 }).setDieState d dieFailed) stInternal result))))
   ∧ (∀ (d : Fin 2) a, (r.die d).retryAt = some a → a ≤ r.time → r.dieState d = dieSelftest →
       exec (.selftestRetry t d) s = .next (r.setDie d { r.die d with retryAt := none, testStart := r.time }))
   ∧ (∀ d, r.syncing = some d →
       ((r.die d).syncFrom = none → (r.die d).syncStore = false → ∃ u, exec (.syncStateSent t) s = .next u ∧ (u.die d).syncFrom = some r.now
         ∧ (u.die d).compareFrom = boundaryAfter r.now ∧ (u.die d).slot = (r.die (1 - d)).slot ∧ u.syncProgress d / 256 = 2
         ∧ u.mem.gran = r.mem.gran ∧ u.mem.sram = r.mem.sram)
       ∧ (∀ f, (r.die d).syncFrom = some f →
           (f + r.syncCopyNs d ≤ r.now → (r.die d).syncRing = true → ∃ u, exec (.syncStoreCopied t) s = .next u ∧ u.dieState d = dieInStep ∧ u.syncProgress d = 0)
           ∧ (f + r.syncCopyNs d ≤ r.now → (r.die d).syncRing = false → ∃ u, exec (.syncStoreCopied t) s = .next u ∧ (u.die d).syncStore = true
             ∧ u.dieState d = dieSyncing ∧ u.syncProgress d / 256 = 3 ∧ (∀ x ∈ (u.memDie d).lines, u.inStore true x.1 = false)
             ∧ (∀ x ∈ (u.memDie d).words, u.inStore false x.1 = false))
           ∧ (f + r.syncRingNs ≤ r.now → (r.die d).syncStore = false → exec (.syncRingFilled t) s = .next (r.setDie d { r.die d with syncRing := true }))
           ∧ (f + r.syncRingNs ≤ r.now → (r.die d).syncStore = true → ∃ u, exec (.syncRingFilled t) s = .next u ∧ u.dieState d = dieInStep ∧ u.syncProgress d = 0
               ∧ (u.die d).preferAt = ns (boundaryFrom (r.now + 1000000 * r.rdN P.RED_REVERT_HOLD))))))
  ∧ (∀ (s : State) (t : Nat) (fe : Fin 4), let r := s.at_ t
   (∀ (d : Fin 2) item, r.inService d = true → r.red.injections = [] →
       (r.inService (1 - d) = false → exec (.feControlItem t fe d item) s = .next (r.feActs fe item))
       ∧ (r.inService (1 - d) = true →
           (r.red.held.find? (fun x => x.fe == fe.val && x.die == 1 - d.val && !x.differs) = none → exec (.feControlItem t fe d item) s
             = .next { r with red := { r.red with held := r.red.held ++ [{ fe, die := d, item, since := r.time, differs := false }] } })
           ∧ (∀ x, r.red.held.find? (fun x => x.fe == fe.val && x.die == 1 - d.val && !x.differs) = some x →
               let rest := r.red.held.filter (fun y => y != x)
               (x.item = item → r.time < x.since + usec 4 →
                 exec (.feControlItem t fe d item) s = .next (State.feActs { r with red := { r.red with held := rest } } fe item))
               ∧ ((x.item ≠ item ∨ x.since + usec 4 ≤ r.time) → exec (.feControlItem t fe d item) s = .next (State.reportControl { r with red := { r.red with
                   held := rest ++ [{ x with differs := true }, { fe, die := d, item, since := x.since, differs := true }] } })))))
   ∧ exec (.feControlHoldTimeout t fe) s
       = .next { r with red := { r.red with held := r.red.held.filter (fun x => !(x.fe == fe.val && decide (x.since + usec 50 ≤ r.time))) } })

/-- The time exchange events complete (R176 to R181, R184): an ACTIVE port sends its domain's TIME block, numbered and stamped; a block received renews what is
known of its domain, and its SEQ and arrival stamp are kept for the answer; the choice among the domains is made again. The synchronisation events complete
(R168 to R170, R185): lock, loss of lock, a correction slewed, refused, or only shown in TEST, a slew that goes on while nothing new is measured, and a slew
that ends. -/
def Obligations.TimeExchangeAndLockComplete : Prop :=
  (∀ (s : State) (t : Nat), let r := s.at_ t
   (∀ p : Fin 2, r.rdN (P.LNK_PORT_STATE p) = 2 → let y := r.tb.ports.get p.val
       ∃ b u, exec (.timeBlockSend t p) s = .next u
         ∧ u = (r.setLanePort p { r.lanePort p with timeDue := timeBlocks b }).setTimePort p { y with seq := (y.seq + 1) % 256, sent := (y.seq, r.time) :: y.sent.take 255, block := some b }
         ∧ b.seq.toNat = y.seq % 256 ∧ b.rxStamp.toNat = (y.got.getD (0, 0)).2 % 2 ^ 76
         ∧ (r.injected p = false → b.avail = r.usable p ∧ b.hops.toNat = ((r.domain p).hops + 1) % 4096 ∧ b.uncert.toNat = (r.domain p).uncert % 4294967296)
         ∧ (r.injected p = true → b.hops = 0 ∧ b.delta = 0 ∧ (b.avail = true ↔ r.tbState ≠ tbUnset)))
   ∧ (∀ (p : Fin 2) b, r.rdN (P.LNK_PORT_STATE p) = 2 → let d := 1 - p.val
       let x := r.domain d
       let before := if b.avail then r else (r.setDomain d { x with avail := false }).tbUpdate
       let y : Domain := { x with heard := if b.avail then r.time else x.heard, avail := b.avail, kind := b.srcKind.toNat, quality := b.quality.toNat, hops := b.hops.toNat, uncert := b.uncert.toNat }
       let heard := (before.setDomain d y).noteExchange p b
       exec (.timeBlockReceive t p b) s = .next (heard.setTimePort p { heard.tb.ports.get p.val with got := some (b.seq.toNat, r.time) }).tbUpdate)
   ∧ exec (.domainLossTimeout t) s = .next r.tbUpdate)
  ∧ (∀ (s : State) (t : Nat), let r := s.at_ t
   (∀ a, r.windowSince = some a → a + msec 10 ≤ r.time → (r.tbState = tbAcquiring ∨ r.tbState = tbRecovery) → r.jumpPending = false →
       exec (.tbLockAchieved t) s = .next ((r.enterTb tbLocked).newSteer.tbUpdate))
   ∧ (∀ a, r.tb.outSince = some a → a + msec 1 ≤ r.time → r.tbState = tbLocked →
       exec (.tbPhaseErrorExceed t) s = .next (r.enterRecovery r.tb.phase).tbUpdate)
   ∧ (r.measurable = true → r.tb.measured + msec 1 ≤ r.time → let a := r.setTb { r.tb with measured := r.time }
       let c := r.averaged
       let fresh := r.tb.recent.any (fun m => decide (r.time < m.1 + msec 1))
       ((r.tbState = tbAcquiring ∨ r.tbState = tbRecovery ∨ r.tbState = tbTest) → fresh = false → r.tb.slew ≠ 0 → exec (.correctionRemeasure t) s = .next a)
       ∧ ((fresh = true ∨ r.tb.slew = 0) →
       ((r.tbState = tbAcquiring ∨ r.tbState = tbRecovery) → c.natAbs ≤ r.rdN P.TB_JUMP_LIMIT * 8192000 →
           exec (.correctionRemeasure t) s = .next (((a.clrBits P.TB_STATUS 32).slewBy c).tbUpdate))
       ∧ ((r.tbState = tbAcquiring ∨ r.tbState = tbRecovery ∨ r.tbState = tbTest) → r.rdN P.TB_JUMP_LIMIT * 8192000 < c.natAbs →
           exec (.correctionRemeasure t) s = .next (a.refuseCorrection c).tbUpdate)
       ∧ (r.tbState = tbTest → c.natAbs ≤ r.rdN P.TB_JUMP_LIMIT * 8192000 →
           exec (.correctionRemeasure t) s = .next ((a.clrBits P.TB_STATUS 32).tbUpdate))))
   ∧ (r.tb.slew ≠ 0 → r.slewLeft = 0 → let u := r.slewBy 0
       exec (.slewComplete t) s = .next (if u.ownSource || u.tb.onPps then u.setPhase (r.tb.phase - r.tb.slew) else u).tbNote))

/-- The stepping events complete (R186, R194): the initial set and a permitted jump are made at their boundary by a multiple of 1 µs, the remainder slewed; a
TB.JUMP SET is made at its boundary, or times out without an edge; without a source, or with nothing pending, no step is made. The PPSIN and ageing-model
events complete (R169, R173, R174, R194): an edge far from a whole second is shown and not used, one near it steers; a waiting SET takes an edge whatever
its phase; an edge missing for 1.5 s is shown, and ends a measurement that waits for it; records and refits of the model. -/
def Obligations.TimeStepsAndSourceComplete : Prop :=
  (∀ (s : State) (t : Nat), let r := s.at_ t
   (∀ b, r.tb.step = some ⟨b, none⟩ → b ≤ r.now → r.waitsBefore b = false →
       let a := r.setTb { r.tb with step := none }
       let d := stepOf r.averaged
       (r.tbState = tbUnset → r.followedDomain.isSome = true → exec (.tbStep t) s = .next (a.stepTime d (r.averaged - d * nsUnit) b))
       ∧ ((r.tbState ≠ tbUnset ∨ r.followedDomain = none) → exec (.tbStep t) s = .next a))
   ∧ (∀ b h rest, r.tb.step = none → r.tb.permits = ⟨b, some h⟩ :: rest → b ≤ r.now → r.waitsBefore b = false →
       let a := r.setTb { r.tb with permits := rest }
       let d := stepOf r.averaged
       (r.jumpPending = true → r.measurable = true → exec (.tbStep t) s
         = .next ((a.stepTime d (r.averaged - d * nsUnit) b).finish 0x43 h stOk [satWordInt d]))
       ∧ ((r.jumpPending = false ∨ r.measurable = false) → exec (.tbStep t) s = .next (a.finish 0x43 h stTimeout [])))
   ∧ (∀ j b, r.tb.jumpSet = some j → j.boundary = some b → b ≤ r.now → r.waitsBefore b = false →
       let a := r.setTb { r.tb with jumpSet := none }
       (j.edge = none → let d := stepOf (((j.value : Int) - b) * nsUnit)
         let rest := ((j.value : Int) - b) * nsUnit - d * nsUnit
         exec (.tbJumpSetApply t) s = .next ((a.stepTime d rest b).finish 0x43 j.h stOk [satWordInt d]))
       ∧ (∀ c, j.edge = some c → exec (.tbJumpSetApply t) s
           = .next ((a.stepTime (stepOf c) (c - stepOf c * nsUnit) b).finish 0x43 j.h stOk [satWordInt (stepOf c)])))
   ∧ (∀ j, r.tb.jumpSet = some j → j.pps = true → j.boundary = none → j.receipt + msec 1500 ≤ r.time →
       exec (.tbJumpSetTimeout t) s = .next ((r.setTb { r.tb with jumpSet := none }).finish 0x43 j.h stTimeout [])))
  ∧ (∀ (s : State) (t : Nat), let r := s.at_ t
   (r.tb.jumpSet.all (fun j => !(j.pps && j.boundary.isNone)) = true →
       ((r.tbState = tbUnset ∨ r.ppsCorrection.natAbs ≤ 100000 * nsUnit) → exec (.ppsinEdge t) s = .next (r.validEdge (r.ppsCorrection - r.steppedBy * nsUnit)))
       ∧ (r.tbState ≠ tbUnset → 100000 * nsUnit < r.ppsCorrection.natAbs → exec (.ppsinEdge t) s
           = .next ((r.setTb { r.tb with measures := r.tb.measures.map (fun m => { m with errors := [] }) }).setBit P.TB_STATUS 8)))
   ∧ (∀ j, r.tb.jumpSet = some j → j.pps = true → j.boundary = none → ∃ u, exec (.ppsinEdge t) s = .next u
       ∧ (∃ j', u.tb.jumpSet = some j' ∧ j'.boundary = some (max (boundaryAfter r.now) (boundaryFrom (ceilDiv j.receipt 4096 + 10000))) ∧ j'.value = j.value ∧ j'.h = j.h) ∧ u.par = r.par ∧ u.mem = r.mem)
   ∧ (r.tb.measures = [] → r.ppsAlive = false → (r.tb.onPps = true ∨ (r.ownSource = true ∧ r.rdN P.TB_SRC = 1 ∧ r.tbState ≠ tbUnset ∧ r.tbState ≠ tbHoldover ∧ r.ppsHeld = false)) →
       exec (.ppsMissing t) s = .next (r.setBit P.TB_STATUS 8).tbUpdate)
   ∧ (∀ m, r.tb.measures = [m] → m.since + msec 1500 ≤ r.time → r.tb.onPps = false → r.ownSource = false →
       exec (.ppsMissing t) s = .next (((r.setTb { r.tb with measures := [] }).finish 0x42 m.h stTimeout []).setBit P.TB_STATUS 8))
   ∧ (∀ milliC, r.tbState = tbLocked → r.rdN P.TB_QUALITY = 0 → r.tb.records.head?.all (fun x => decide (x.1 + secs 10 ≤ r.time)) = true →
       exec (.modelRecord t milliC) s = .next (State.noteModel (r.setTb { r.tb with
         records := (r.time, r.rdI P.TB_FREQ_ADJ, milliC) :: r.tb.records.filter (fun x => decide (r.time < x.1 + secs 2592000)) })))
   ∧ (r.tb.records ≠ [] → r.tb.fitted + secs 3600 ≤ r.time → ∃ u, exec (.modelRefit t) s = .next u ∧ u.tb.fitted = r.time ∧ u.tb.records = r.tb.records
       ∧ u.rdN P.TB_MODEL_AGE = min 720 (r.tb.records.length / 360)
       ∧ (r.tb.records.length < 8640 → u.rdN P.TB_MODEL_STATE = 1) ∧ (u.rdN P.TB_MODEL_STATE = 1 ∨ u.rdN P.TB_MODEL_STATE = 2)
       ∧ (∀ k, k ≠ P.TB_MODEL_AGE → k ≠ P.TB_MODEL_STATE → u.rd k = r.rd k) ∧ u.mem = r.mem)
   ∧ (∃ u, exec (.crystalFault t) s = .next u ∧ ∀ p : Fin 2, u.lnkPortState p = portDown ∧ (u.lanePort p).fallow = true
       ∧ ∀ l ∈ lanesOf p, u.laneState l = laneFallow))

/-- The codeword events complete (R314 to R331): a lane whose transmitter is on sends one period of the port's stream, its control field, slot and blocks
spelled as Table 10-2 gives them; a codeword is decoded, its corrections counted and its control field and blocks passed on; an uncorrectable one is
counted, and the third in a row is loss of lock; a slot whose copies disagree is counted, and four slots without their SYNC are loss of lock. -/
def Obligations.CodewordEventsComplete : Prop :=
  ∀ (s : State) (t : Nat) (l : Fin 12), let r := s.at_ t
  let st := r.laneState l
  let y := r.lane l
  let p := l.val / 4
  (p ≠ 2 ∨ r.prt.portal = false) →
  (∀ (port : Fin 3) (i : Fin 4), 4 * port.val + i.val = l.val → st ≠ laneFallow →
      let a := ((r.beginPeriod l).trainRequest l).2
      let req := ((r.beginPeriod l).trainRequest l).1
      let z := a.lane l
      let x := a.lanePort p
      let sent := z.carry ++ List.replicate (77 - z.carry.length) fillBlock
      let out := fun (mask switch : Nat) =>
        let control := controlWord x.cwc (l % 4) mask switch (a.rdN (P.LNK_PRECODE l) == 0) (a.lstate l) req
        let slot := a.slotFor l x.cwc
        let b := blocksBits z.scrambler sent
        let levels := periodLevels z.precode z.level control slot b.1
        a.setLane l { z with cwcLast := some x.cwc, carry := [], sinceFill := if z.carry.isEmpty then 0 else z.sinceFill, scrambler := b.2
                             level := levels.getLast?.getD 0, statusSent := if slot = slotWord 0x55 (a.statusWord l) then a.statusWord l else z.statusSent
                             sent := some { cwc := x.cwc, control, slot, levels } }
      ((r.beginPeriod l).lanePort p).change = x.change
      ∧ (x.change = none → exec (.codewordTransmit t port i) s = .next (out x.lmask x.force.2))
      ∧ (∀ c, x.change = some c → exec (.codewordTransmit t port i) s = .next (out c.mask c.switch)))
  ∧ (∀ cw : RxCodeword, laneSearch ≤ st → st ≠ laneFault →
      let d := decodeCodeword cw y.descrambler
      let y := { y with descrambler := d.descrambler }
      (d.good = none → let n := y.rxCwc.map (fun c => (c + 1) % 65536)
        let a := (r.setLane l { y with clean := 0, alike := 0, bad := y.bad + 1, rxCwc := n }).addSat (P.LNK_CW_UNCORR l) 1
        (st ≠ laneSearch → 3 ≤ y.bad + 1 → exec (.codewordReceive t l cw) s = .next (a.faultLane l 1))
        ∧ ((st = laneSearch ∨ y.bad + 1 < 3) →
            (∀ c, n = some c → exec (.codewordReceive t l cw) s = .next (if a.inMask l then a.deskew l c cw.drawn d.blocks else a))
            ∧ (n = none → exec (.codewordReceive t l cw) s = .next a)))
      ∧ (∀ n control, d.good = some (n, control) →
          let r := r.setLane l y
          let a := if n = 0 then r else ((r.addWrap (P.LNK_CW_CORR l) 1).addWrap (P.LNK_SYM_CORR l) n).count 11 l
          let b := a.setLane l { a.lane l with bad := 0, clean := (a.lane l).clean + 1, rxCwc := some (bits control 15 0) }
          let e := (b.takeControl l control).noteFarMask p control
          (st = laneSearch →
            (4 ≤ y.syncs → 16 ≤ y.clean + 1 → let f := (b.setLaneState l laneAligned).wrN (P.LNK_SKEW l) (min cw.skewPs 24000)
              exec (.codewordReceive t l cw) s = .next (if 24000 < cw.skewPs then f.faultLane l 7 else f))
            ∧ ((y.syncs < 4 ∨ y.clean + 1 < 16) → exec (.codewordReceive t l cw) s = .next b))
          ∧ (st ≠ laneSearch → exec (.codewordReceive t l cw) s = .next (if e.inMask l then e.deskew l (bits control 15 0) cw.drawn d.blocks else e))))
  ∧ (∀ slot : RxSlot, laneSearch ≤ st →
      (slot.sync ≠ 0xA55A → let a := r.setLane l { y with syncs := 0, absent := y.absent + 1 }
        exec (.slotReceive t l slot) s = .next (if laneAligned ≤ st ∧ st ≤ laneActive ∧ 4 ≤ y.absent + 1 then a.faultLane l 1 else a))
      ∧ (slot.sync = 0xA55A → let a := r.setLane l { y with absent := 0, syncs := y.syncs + 1, clean := if y.syncs + 1 < 3 then 0 else y.clean }
          (∀ k w, slotKind slot.kind.toNat = some k → voteWord slot.word1 slot.word2 slot.word3 = some w →
            exec (.slotReceive t l slot) s = .next (a.takeSlot_ l k w slot.cwc.toNat))
          ∧ ((slotKind slot.kind.toNat = none ∨ voteWord slot.word1 slot.word2 slot.word3 = none) →
              exec (.slotReceive t l slot) s = .next (a.addSat (P.LNK_SLOT_BAD l) 1))))

/-- The lane state events complete (R323, R327 to R332): PLL lock, training's bound, the window of 1 ms, a fault and its retry, rejoining, and the switch of the
lane mask. The freeze, eye, module and wake events complete (R333 to R336, R338, R341): adaptation freezes below 20 percent of symbol changes and resumes at
25; a check starts and its openings are judged; a scan replies; a module comes, goes and is polled; a wait that has run out replies TIMEOUT. -/
def Obligations.LaneStateAndHealthComplete : Prop :=
  (∀ (s : State) (t : Nat) (l : Fin 12), let r := s.at_ t
   let st := r.laneState l
   let x := r.lane l
   let p := l.val / 4
   (st = laneWaking → let a := r.setLaneState l laneSearch
       exec (.lanePllLocked t l) s = .next (if (r.lanePort p).present then a else a.faultLane l 10))
   ∧ (st = laneTrain → x.entered + msec (r.rdN P.LNK_TRAIN_TIMEOUT) ≤ r.time → exec (.trainTimeout t l) s = .next (r.faultLane l 6))
   ∧ (∀ ppm, laneSearch ≤ st → x.windowFrom + msec 1 ≤ r.time →
       let n := (r.rdN (P.LNK_SYM_CORR l) + 4294967296 - x.symFrom) % 4294967296
       let a := (r.wrI (P.LNK_PPM l) (clampInt (-50000) 50000 ppm)).setLane l { x with windowFrom := r.time, symFrom := r.rdN (P.LNK_SYM_CORR l) }
       (st ≤ laneActive → r.rdN P.LNK_SER_FAIL < n → exec (.serWindowEnd t l ppm) s = .next (a.faultLane l 3))
       ∧ ((n ≤ r.rdN P.LNK_SER_FAIL ∨ laneActive < st) →
           (st = laneTrain → r.rdN P.LNK_SER_DEGRADE < n → exec (.serWindowEnd t l ppm) s = .next ((a.setBit (P.LNK_STATUS l) 3).trainWindow l n))
           ∧ (st = laneTrain → n ≤ r.rdN P.LNK_SER_DEGRADE → exec (.serWindowEnd t l ppm) s = .next (a.trainWindow l n))
           ∧ (st ≠ laneTrain → r.rdN P.LNK_SER_DEGRADE < n → exec (.serWindowEnd t l ppm) s = .next (a.setBit (P.LNK_STATUS l) 3))
           ∧ (st ≠ laneTrain → n ≤ r.rdN P.LNK_SER_DEGRADE → exec (.serWindowEnd t l ppm) s = .next a)))
   ∧ (st = laneHold → r.lnkPortState p = portActive_ → (r.lanePort p).change = none → x.entered + msec (r.rdN P.LNK_REJOIN_HOLD) ≤ r.time →
       exec (.rejoinHoldExpiry t l) s
         = .next (r.propose p (r.widest p ((lanesOf p).filter (fun k => k == l.val || r.laneState k == laneActive))) 16 false [l.val]))
   ∧ (st = laneFault → r.rdN P.LNK_REJOIN = 1 → (r.lanePort p).present = true → x.entered + msec 1 ≤ r.time →
       exec (.laneFaultRetry t l) s = .next ((r.setLaneState l laneSearch).notePort p))
   ∧ ((p ≠ 2 ∨ r.prt.portal = false) →
       (∀ c : Fin 12, c.val ∈ [0, 1, 2, 3, 7, 8, 9, 10] → exec (.laneFault t l c) s = .next (r.faultLane l c))
       ∧ exec (.rateOffsetFault t l) s = .next (r.faultLane l 8))
   ∧ (∀ (q : Fin 3) c, (r.lanePort q).change = some c → ((r.lanePort q).cwc + 1 + 65536 - c.switch) % 65536 < 32768 →
       let y := r.lanePort q
       (c.agreed = false → exec (.lmaskSwitch t q) s = .next (r.setLanePort q { y with change := some { c with switch := (y.cwc + 16) % 65536 } }))
       ∧ (c.agreed = true →
           let a := List.foldl (fun (s : State) (l : Nat) => if s.laneState l = laneHold then s.setLaneState l laneActive else s)
             (r.setLanePort q { y with change := none, force := (c.mask, c.switch), prev := y.force }) c.joins
           let mask := laneMask ((lanesOf q).filter (fun l => bitOf c.mask (l % 4) && a.laneState l == laneActive))
           exec (.lmaskSwitch t q) s = .next ((((List.foldl State.fallowLane (a.putMask q mask) c.leaves).notePort q).checkWaits q).reconsider q))))
  ∧ (∀ (s : State) (t : Nat) (l : Fin 12) (q : Fin 3), let r := s.at_ t
   let x := r.lane l
   (∀ n, laneSearch ≤ r.laneState l →
       (5 * n < 112500 → exec (.densityWindowEnd t l n) s
         = .next (((r.setLane l { x with frozen := some (x.frozen.getD r.time), checked := if x.frozen.isSome then x.checked else none }).setBit (P.LNK_STATUS l)
             5).setBit (P.LNK_STATUS l) 4))
       ∧ (112500 ≤ 5 * n → 4 * n < 112500 → exec (.densityWindowEnd t l n) s = .next r)
       ∧ (112500 ≤ 4 * n → exec (.densityWindowEnd t l n) s = .next ((r.setLane l { x with frozen := none, checked := none }).clrBits (P.LNK_STATUS l) 32)))
   ∧ (∀ f, x.frozen = some f → x.scan = none → x.checking = false →
       ((x.checked = none ∧ f + msec 10 ≤ r.time) ∨ x.checked.any (fun c => decide (c + msec 100 ≤ r.time)) = true) →
       exec (.eyeHealthCheck t l) s = .next (r.setLane l { x with checking := true, checked := some r.time }))
   ∧ (∀ a b : Byte, x.checking = true → let d := (r.setLane l { x with checking := false }).wrN (P.LNK_EYE_LAST l) (a.toNat + 256 * b.toNat)
       ((a.toNat < r.rdN P.LNK_EYE_MIN_H ∨ b.toNat < r.rdN P.LNK_EYE_MIN_V) → exec (.eyeHealthCheckDone t l a b) s = .next (d.faultLane l 9))
       ∧ (r.rdN P.LNK_EYE_MIN_H ≤ a.toNat → r.rdN P.LNK_EYE_MIN_V ≤ b.toNat → exec (.eyeHealthCheckDone t l a b) s = .next d))
   ∧ (∀ (a b : Byte) (bs : List Byte) e, x.scan = some e → let d := (r.setLane l { x with scan := none }).wrN (P.LNK_EYE_LAST l) (a.toNat + 256 * b.toNat)
       (e.map = false → exec (.eyescanDone t l a b bs) s = .next (d.finish 0x71 e.h stOk [BitVec.ofNat 32 (a.toNat + 256 * b.toNat)]))
       ∧ (e.map = true → exec (.eyescanDone t l a b bs) s = .next (d.finish 0x71 e.h stOk (wordsOf (padTo 1024 (bs.take 1024))))))
   ∧ (∀ c : Bool, ∃ u, exec (.modulePresenceChange t q true c) s = .next u ∧ (u.lanePort q).present = true ∧ (u.lanePort q).cmis = c ∧ (u.lanePort q).lowPower = false
       ∧ (∀ k ∈ lanesOf q, u.bit (P.LNK_STATUS k) 10 = false ∧ u.bit (P.LNK_STATUS k) 11 = !c ∧ u.laneState k = r.laneState k))
   ∧ (∀ c : Bool, ∃ u, exec (.modulePresenceChange t q false c) s = .next u ∧ (u.lanePort q).present = false
       ∧ (∀ k ∈ lanesOf q, u.bit (P.LNK_STATUS k) 10 = true ∧ u.bit (P.LNK_STATUS k) 11 = false ∧ (u.lane k).modLos = false ∧ (laneSearch ≤ r.laneState k → u.laneState k = laneFault)))
   ∧ (∀ los : BitVec 4, (r.lanePort q).present = true → (r.lanePort q).cmis = true →
       let read := (lanesOf q).foldl (fun (s : State) (l : Nat) =>
         let s := s.setLane l { s.lane l with modLos := bitOf los.toNat (l % 4) }
         if bitOf los.toNat (l % 4) then s.faultLane l 0 else s) (r.setLanePort q { r.lanePort q with polled := r.time })
       exec (.modintAssert t q los) s = .next read
       ∧ ((r.lanePort q).polled + msec 100 ≤ r.time → exec (.moduleFlagPoll t q los) s = .next read))
   ∧ exec (.lnkWakeTimeout t q) s = .next (r.replyWaits q (fun w => decide (w.until_ ≤ r.time)) stTimeout))

/-- The ring-protocol events complete (R351, R354 to R358, R361 to R365): the best frame leaves an ACTIVE port and its blocks join the port's stream; a frame in
order is accepted, counted, routed and acknowledged, and any other is discarded with the ACK the rule names; an ACK frees what it covers; a retransmission,
a repeated ACK, a headland turn, and the positions. -/
def Obligations.ChainEventsComplete : Prop :=
  ∀ (s : State) (t : Nat) (p : Fin 2), let r := s.at_ t
  let x := r.port p
  (∀ (k : Nat) (own : Bool) (f : Frame), r.portActive p = true → x.turning = false → x.choose = some (k, own) → x.txNext < 65536 →
      firstOf x.xoffIn k (if own then x.own else x.through) = some f → x.retransmitBytes + f.size ≤ 2097152 →
      let y := if own then { x with own := dropFirst x.xoffIn k x.own } else { x with through := dropFirst x.xoffIn k x.through }
      let z := { y with lastOwn := Sparse.set false x.lastOwn k own, txNext := (x.txNext + 1) % 65536
                        retransmit := x.retransmit ++ [{ hseq := x.txNext, sentAt := r.time, frame := f }] }
      exec (.frameSend t p) s
        = .next (((((r.setPort p z).addWrap (P.CLP_TX_FRAMES p) 1).queueBlocks (lnkOf p) false (frameBlocks x.txNext f false)).count 12 p).updateXoff (1 - p.val)))
  ∧ (∀ f : RxFrame, r.portActive p = true → r.isRingPort p = true →
      let a := if f.hseq.toNat = x.rxExpect then r.abortCopy p (rxHeld f) else r
      (f.abort = true → exec (.frameReceive t p f) s = .next (a.discard p))
      ∧ (f.abort = false → rxGood f = false → exec (.frameReceive t p f) s = .next ((a.discard p).sendAck p true))
      ∧ (f.abort = false → rxGood f = true →
          (f.hseq.toNat = x.rxExpect → exec (.frameReceive t p f) s
            = .next (((((r.setPort p { x with rxExpect := (x.rxExpect + 1) % 65536, nakSent := false }).addWrap (P.CLP_RX_FRAMES p) 1).route p (rxHeld f)).sendAck
                p false).updateXoff p))
          ∧ (f.hseq.toNat ≠ x.rxExpect → (f.hseq.toNat + 65536 - x.rxExpect) % 65536 < 32768 → x.nakSent = false →
              exec (.frameReceive t p f) s = .next (((r.discard p).setPort p { (r.discard p).port p with nakSent := true }).sendAck p true))
          ∧ (f.hseq.toNat ≠ x.rxExpect → (f.hseq.toNat + 65536 - x.rxExpect) % 65536 < 32768 → x.nakSent = true →
              exec (.frameReceive t p f) s = .next (r.discard p))
          ∧ (f.hseq.toNat ≠ x.rxExpect → 32768 ≤ (f.hseq.toNat + 65536 - x.rxExpect) % 65536 →
              exec (.frameReceive t p f) s = .next ((r.discard p).sendAck p false))))
  ∧ (∀ a : AckBlock, r.portActive p = true → x.turning = false →
      let kept := r.setPort p { x with retransmit := x.retransmit.filter (fun f => !covers a.ackSeq.toNat f.hseq) }
      let freed := (x.retransmit.filter (fun f => covers a.ackSeq.toNat f.hseq)).foldl State.ackFrame kept
      let again := if a.nak then freed.resend p else freed
      exec (.ackReceive t p a) s = .next ((again.takeXoff p a.xoff.toNat).updateXoff (1 - p.val)))
  ∧ (∀ f fs, x.retransmit = f :: fs → f.sentAt + r.ackTime p ≤ r.time → x.turning = false → exec (.retransmitTimeout t p) s = .next (r.resend p))
  ∧ (r.xoffOf p ≠ 0 → x.ackAt + usec 1 ≤ r.time → exec (.xoffAckRepeat t p) s = .next (r.sendAck p false))
  ∧ (r.portActive p = false → x.turning = false → r.isRingPort p = true →
      let a := ((r.setPort p { x with turning := true, retransmit := [] }).setBit P.CLP_STATUS 2).setBit P.CLP_STATUS 3
      exec (.portBroken t p) s = .next (((x.retransmit.foldl (fun s f => s.sendOn p true f.frame) a).turnWaiting p).endHere p))
  ∧ (r.portActive p = true → r.isRingPort p = true → x.posSent.all (fun q => decide (q.at_ + usec 8 ≤ r.time)) = true →
      let id := r.rdN P.SYS_NODE_ID
      let tells := fun (q : PosContent) => (r.setPort p { x with posSent := some q }).queueBlocks (lnkOf p) true [posBlock q.endId q.hops q.brk]
      (r.prt.portal = true → exec (.posSend t p) s = .next (tells { endId := id, hops := 0, brk := false, at_ := r.time }))
      ∧ (r.prt.portal = false → r.portActive (1 - p.val) = false → exec (.posSend t p) s = .next (tells { endId := id, hops := 0, brk := true, at_ := r.time }))
      ∧ (∀ q, r.prt.portal = false → r.portActive (1 - p.val) = true → (r.port (1 - p.val)).pos = some q →
          exec (.posSend t p) s = .next (tells { q with hops := q.hops + 1, at_ := r.time })))
  ∧ (∀ (e h : BitVec 12) (b : Bool), ∃ u, exec (.posReceive t p e h b) s = .next u ∧ u.rdN (P.CLP_POS_HOPS p) = h.toNat + 1
      ∧ u.rdN (P.CLP_POS_END p) = e.toNat ∧ (b = true → u.bit P.CLP_STATUS 8 = true)
      ∧ (u.port p).pos = some { endId := e.toNat, hops := h.toNat, brk := b, at_ := r.time } ∧ u.mem = r.mem
      ∧ (∀ k, k ≠ P.CLP_POS_HOPS p → k ≠ P.CLP_POS_END p → k ≠ P.CLP_STATUS → u.rd k = r.rd k))
  ∧ ((r.isEnd p = true → ∃ u, exec (.posTimeout t p) s = .next u ∧ u.rdN (P.CLP_POS_HOPS p) = 0 ∧ u.rd (P.CLP_POS_END p) = r.rd P.SYS_NODE_ID ∧ (u.port p).pos = none)
      ∧ (r.isEnd p = false → x.pos.all (fun q => decide (q.at_ + usec 50 ≤ r.time)) = true → ∃ u, exec (.posTimeout t p) s = .next u
          ∧ u.rdN (P.CLP_POS_HOPS p) = 0xFFF ∧ u.rdN (P.CLP_POS_END p) = 0xFFF ∧ (u.port p).pos = none))

/-- The dispatch events complete (R370 to R373): a stalled descriptor enters the filling bank once it has room; in a cycle in which the draining bank is
readable its best descriptor is popped, and the other segments of its record keep the ORIGIN of its first; a push that has stalled too long drops the rest
of its record and leaves a gap entry. -/
def Obligations.DispatchEventsComplete : Prop :=
  ∀ (s : State) (t : Nat), let r := s.at_ t
  let n := r.cycle
  let x := { r with clp := r.clp.at_ n }
  (∀ d ds, x.clp.stalled = d :: ds →
      (x.bankFull = false → x.clp.pushNext ≤ n → ∃ u, exec (.dispatchPush t) s = .next u ∧ u.clp.stalled = ds
        ∧ u.clp.fill = x.clp.fill ++ [{ d with pushed := r.now, cycle := n }] ∧ u.clp.drain = x.clp.drain ∧ u.clp.pushNext = n + 1
        ∧ (r.clp.fetch = none → u.mem = r.mem ∧ u.rdN P.CLP_DSP_STALL = (r.rdN P.CLP_DSP_STALL + (r.time - r.clp.stalledSince) / 4096) % 4294967296
            ∧ (∀ k, k ≠ P.CLP_DSP_STALL → u.rd k = r.rd k)))
      ∧ (x.bankFull = true → r.clp.stalledSince + usec (r.rdN P.CLP_DSP_DROP_WAIT) ≤ r.time → r.rdN P.CLP_DSP_DROP_MIN ≤ d.prio →
          ∃ u, exec (.dispatchDrop t) s = .next u ∧ u.clp.fill = x.clp.fill ∧ u.clp.drain = x.clp.drain
            ∧ u.clp.stalled = x.clp.stalled.filter (fun e => !(e.kind == d.kind && e.run == d.run && e.seq == d.seq && e.refetch == d.refetch))))
  ∧ (r.running = true → r.clp.popNext ≤ n → x.clp.readable ≤ n →
      (∀ d, bestOf x.clp.drain = some d → let y := x.clp.keepOrigin d (r.rdN P.SYS_NODE_ID)
        exec (.dispatchPop t) s = .next (State.popItem { r with clp := { y with drain := dropPrio d.prio y.drain, popNext := n + 1, emptyFrom := n + 1 } } d))
      ∧ (x.clp.drain = [] → exec (.dispatchPop t) s = .next x))

/-- The descriptor a pop takes (R370) is one of the bank, none of the bank has a lower priority number, and of those with its number it is the earliest pushed;
the bank keeps every other in its order. -/
def Obligations.PopTakesBest : Prop :=
  ∀ (bank : List Descriptor),
  (bank ≠ [] → ∃ d before after, bestOf bank = some d ∧ bank = before ++ d :: after ∧ dropPrio d.prio bank = before ++ after
    ∧ (∀ e ∈ bank, d.prio ≤ e.prio) ∧ (∀ e ∈ before, d.prio < e.prio))
  ∧ (bank = [] → bestOf bank = none)

/-- The merge events complete (R377, R379): a record whose next segment has not come for 10 ms is abandoned and named lost; a sheaf closes by WAIT; a closed tag
is freed. The delivery events complete (R384 to R386): an item that fits is written with its entry; one that does not fit before the end of the data area is
preceded by a SKIP entry; without room the ring holds it; an item longer than the data area is discarded, a record with a LOSS entry in its place; an item
of a disabled ring is discarded; a moderated vector is signalled in time. -/
def Obligations.MergeAndDeliveryEventsComplete : Prop :=
  (∀ (s : State) (t : Nat), let r := s.at_ t
   (∀ a, r.prt.assembly.find? (fun a => decide (a.lastAt + msec 10 ≤ r.time)) = some a → exec (.segmentTimeout t) s
       = .next ((State.updateAssembly { r with prt := { r.prt with assembly := r.prt.assembly.filter (fun b => b != a) } }).lossEntry a.node a.kind a.run
           a.seq).portalXoffMoves)
   ∧ (∀ x, r.prt.tags.find? (fun t => !t.closed && decide (t.at_ + msec (r.rdN P.PRT_SHEAF_WAIT) ≤ r.time)) = some x →
       exec (.sheafWaitExpiry t) s = .next (r.closeTag x 1))
   ∧ (∀ x, r.prt.tags.find? (fun t => t.closed && decide (t.at_ + msec (r.rdN P.PRT_SHEAF_WAIT) ≤ r.time)) = some x →
       exec (.tagFree t) s = .next { r with prt := { r.prt with tags := r.prt.tags.filter (fun u => u.slot != x.slot) } }))
  ∧ (∀ (s : State) (t : Nat) (i : Fin 8), let r := s.at_ t
   let x := r.ringRt i
   let size := 2 ^ r.dataLog i
   (∀ d ds, x.queue = d :: ds → let n := d.bytes.length
       let rest := r.setRing i { x with queue := ds }
       (r.prt.linkUp = true → r.ringEnabled i = true →
         (n ≤ size → r.ringFits i d = true →
           (x.offset + n ≤ size → exec (.deliveryWrite t i) s
             = .next (((((r.setRing i { x with queue := ds, offset := (x.offset + ceilDiv n 64 * 64) % size }).writeEntry i d x.offset n
                 d.bytes).ackOwn d).closeOld i).easeRing i))
           ∧ (size < x.offset + n → let a := r.writeEntry i { type := 3, ring := i, bytes := [] } x.offset (size - x.offset) []
               exec (.deliveryWrite t i) s = .next (a.setRing i { a.ringRt i with offset := 0 })))
         ∧ (n ≤ size → r.ringFits i d = false → exec (.deliveryWrite t i) s = .next (r.ringFull i))
         ∧ (size < n → let loss : Delivery := { d with type := 4, bytes := [], sheaf := none, id := 0, own := none }
             let a := r.undelivered
             (d.type ≠ 0 → exec (.deliveryWrite t i) s = .next (a.setRing i { x with queue := ds }))
             ∧ (d.type = 0 → a.entryRoom i = true → exec (.deliveryWrite t i) s
                 = .next ((a.setRing i { x with queue := ds }).writeEntry i loss x.offset 0 []))
             ∧ (d.type = 0 → a.entryRoom i = false → exec (.deliveryWrite t i) s = .next (a.setRing i { x with queue := loss :: ds }))))
       ∧ ((r.prt.linkUp = false ∨ r.ringEnabled i = false) → exec (.deliveryWrite t i) s = .next rest.undelivered))
   ∧ (x.unsignalled ≠ 0 → x.firstUnsignalled + usec (bits (r.bar (barMod i) 0) 31 16) ≤ r.time →
       exec (.msixModTimeout t i) s = .next ((r.setRing i { x with unsignalled := 0 }).signal i)))

/-- The endpoint events complete (R381 to R383, R386, R387, R475): the command ring's registers and its fetch, the rings' registers, the link up and down, and a
function-level reset. -/
def Obligations.EndpointEventsComplete : Prop :=
  ∀ (s : State) (t : Nat), let r := s.at_ t
  (∀ v : Word, exec (.cmdTailWrite t v) s = .next (r.setBar barCmdTail 0 v.toNat)
      ∧ exec (.cmdCtrlWrite t v) s = .next (r.setBar barCmdCtrl 0 (v.toNat % 2)))
  ∧ (∀ (i : Fin 8) (v : Word), let a := r.setBar (barCons i) 0 v.toNat
      let y := a.ringRt i
      let b := a.setRing i { y with live := y.live.filter (fun e => decide ((e.1 + 4294967296 - v.toNat) % 4294967296 < 2147483648)) }
      let room := fun (full : Bool) => (b.setRing i { b.ringRt i with full }).portalXoffMoves
      (y.queue = [] → exec (.consWrite t i v) s = .next (room false))
      ∧ (b.ringRoom i = true → exec (.consWrite t i v) s = .next (room false))
      ∧ (b.ringRoom i = false → exec (.consWrite t i v) s = .next (room y.full)))
  ∧ (∀ (i : Fin 8) (v : Word), let a := r.setBar (barCtrl i) 0 (v.toNat % 2)
      (v.toNat % 2 = 1 → r.ringEnabled i = false → exec (.ctrlWrite t i v) s = .next ((a.setBar (barProd i) 0 0).setRing i { queue := (a.ringRt i).queue }))
      ∧ (v.toNat % 2 = 1 → r.ringEnabled i = true → exec (.ctrlWrite t i v) s = .next a)
      ∧ (v.toNat % 2 = 0 → let b := a.setRing i { a.ringRt i with queue := [], full := false }
          exec (.ctrlWrite t i v) s = .next (((List.range (a.ringRt i).queue.length).foldl (fun (s : State) _ => s.undelivered) b).portalXoffMoves)))
  ∧ (∀ (o : BitVec 16) (v : Word),
      (o.toNat = barCmdTail → exec (.bar0RegisterWrite t o v) s = exec (.cmdTailWrite t v) s)
      ∧ (o.toNat = barCmdCtrl → exec (.bar0RegisterWrite t o v) s = exec (.cmdCtrlWrite t v) s)
      ∧ (∀ i : Fin 8, o.toNat = barCons i → exec (.bar0RegisterWrite t o v) s = exec (.consWrite t i v) s)
      ∧ (∀ i : Fin 8, o.toNat = barCtrl i → exec (.bar0RegisterWrite t o v) s = exec (.ctrlWrite t i v) s)
      ∧ (isCmdBase o.toNat = true → bitOf (r.bar barCmdCtrl 0) 0 = true → exec (.bar0RegisterWrite t o v) s = .next r)
      ∧ (isCmdBase o.toNat = true → bitOf (r.bar barCmdCtrl 0) 0 = false →
          exec (.bar0RegisterWrite t o v) s = .next (r.setBar o.toNat (barReset o.toNat) v.toNat)))
  ∧ (∀ (e0 e1 : BitVec 64) packet, r.prt.portal = true → r.prt.linkUp = true → bitOf (r.bar barCmdCtrl 0) 0 = true →
      let size := 2 ^ max 4 (min 12 (r.bar barCmdSize 4))
      let head := r.bar barCmdHead 0
      let n := bits e1.toNat 15 0
      let a := ((r.setBar barCmdHead 0 ((head + 1) % size)).writeBack 0x28 ((head + 1) % size)).signal 8
      head % size ≠ r.bar barCmdTail 0 % size →
      (20 ≤ n → n ≤ 4100 → bits e1.toNat 63 16 = 0 → exec (.commandRingFetch t e0 e1 packet) s = .next (a.issue (padTo n (packet.take n))))
      ∧ ((n < 20 ∨ 4100 < n ∨ bits e1.toNat 63 16 ≠ 0) → exec (.commandRingFetch t e0 e1 packet) s = .next (a.prtStatus 10)))
  ∧ (∀ (g : Fin 8) (w : Fin 16), r.prt.portal = true → exec (.pcieLinkUp t g w) s
      = .next ((State.wrN { r with prt := { r.prt with linkUp := true } } P.PRT_LINK (128 + 16 * g.val + w.val)).putBit P.PRT_STATUS 9 true))
  ∧ (r.prt.linkUp = true → ∃ u, exec (.pcieLinkDown t) s = .next u ∧ u.prt.linkUp = false ∧ u.rdN P.PRT_LINK = 0 ∧ u.bit P.PRT_STATUS 9 = false
      ∧ u.mgt.session = none ∧ (∀ i : Fin 8, (u.ringRt i).queue = []))
  ∧ (r.prt.portal = true → exec (.functionLevelReset t) s
      = .next (State.closeSession { r.dropRings with prt := { r.dropRings.prt with bar0 := [], rings := [] } }).portalXoffMoves)

/-- The calibration events complete (R422 to R431, R434): a command reaches its start and holds its inputs, or is BUSY; the settling time ends; a point ends and
the next begins; the values take effect at a slot boundary, with or without a store; an abort ends the run first; a store is read back, tried again once. -/
def Obligations.CalibrationEventsComplete : Prop :=
  ∀ (s : State) (t : Nat), let r := s.at_ t
  (∀ o, r.dueCommand [0x30, 0x32] = some o → r.commitBefore (o.due.getD 0) = false → r.earlierFirst o.h (o.due.getD 0) = false → let a := r.undue o.h
      (a.calStateOf ≠ calIdle → exec (.calStart t) s = .next (a.finish o.op o.h stBusy []))
      ∧ (a.calStateOf = calIdle → o.op = 0x30 → exec (.calStart t) s = .next (a.startCal o.h o.p))
      ∧ (a.calStateOf = calIdle → o.op = 0x32 → exec (.calStart t) s = .next (a.startShunt o.h o.p)))
  ∧ (∀ c, r.cal.run = some c →
      (r.calStateOf = calHolding → c.started + 10000000 ≤ r.now → exec (.calHoldDone t) s = .next (r.beginPoint c))
      ∧ (∀ found run j k rest, c.todo = .analogue run j k :: rest → r.calStateOf = calMeasuring → r.pointFull c (.analogue run j k) = true →
          exec (.calPointDone t found) s = .next (r.beginPoint { c with inputs := c.inputs.map (r.closePoint c (.analogue run j k)), todo := rest }))
      ∧ (∀ found run i rest, c.todo = .source run i :: rest → r.calStateOf = calMeasuring → r.pointFull c (.source run i) = true →
          exec (.calPointDone t found) s = .next (r.beginPoint { c with sources := c.sources.map (r.closeSource c i found), todo := rest }))
      ∧ (∀ found run rest, c.todo = .timing run :: rest → r.calStateOf = calMeasuring → r.pointFull c (.timing run) = true →
          exec (.calPointDone t found) s = .next (r.beginPoint { c with inputs := c.inputs.map (closeTiming found), todo := rest }))
      ∧ (∀ found i rest, c.todo = .shunt i :: rest → r.calStateOf = calMeasuring → r.pointFull c (.shunt i) = true →
          exec (.calPointDone t found) s = .next (r.beginPoint { c with inputs := c.inputs.map (r.closePoint c (.shunt i)), todo := rest }))
      ∧ (r.calStateOf = calChecking → r.now % 1000 = 0 → c.checked < r.now → r.commitDue = false → c.abortAt.all (fun a => decide (r.now < a)) = true →
          let quiet := c.shunt.any (fun x => !x.apply)
          let b := if quiet then r else c.sources.foldl State.applySource (c.inputs.foldl State.applyInput r)
          let a := (c.skipped.foldl (fun s u => s.showResult u resSkipped) b).releaseCal (c.inputs.map (·.input)) r.now
          let named := c.inputs.filter (·.named)
          let n := (named.filter (fun x => x.result == resApplied && !x.skipped && !x.aborted)).length
            + (c.sources.filter (fun x => x.result == resApplied && !x.aborted)).length
          let d := { c.answered with checked := r.now, applied := n, others := named.length + c.sources.length + c.skipped.length - n }
          (d.stores = false → exec (.calRelease t) s = .next (a.calReply d 1 0))
          ∧ (d.stores = true → exec (.calRelease t) s = .next (((a.setCalRun d).wrN P.CAL_STATE calStoring).queueFlash .calStore)))
      ∧ (r.mgt.ops.head? = some .calStore →
          (r.cal.retried = false → exec (.calStoreComplete t false) s = .next (r.setCal { r.cal with retried := true }))
          ∧ (r.cal.retried = true → exec (.calStoreComplete t false) s
              = .next (((((r.setCal { r.cal with retried := false }).setBit P.CAL_STATUS 2).logEvent 0x0F02 0 2 r.storeSlot 0).endFlash).calReply c 3 0))
          ∧ (∀ x : CalSlot, x = { seq := r.storeSeq, time := c.checked, body := r.par.filter (fun e => isCalItem e.1), good := true, empty := false } →
              exec (.calStoreComplete t true) s
                = .next (((((r.setCal { r.cal with slots := r.cal.slots.set r.storeSlot x, retried := false }).wrN P.CAL_SLOT_IN_FORCE r.storeSlot).wrN
                    P.CAL_SLOT_SEQ r.storeSeq).endFlash).calReply c 0 r.storeSeq))))
  ∧ (∀ o, r.dueCommand [0x31] = some o → r.commitDue = false → let a := if r.calStateOf = calIdle ∨ r.calStateOf = calStoring then r else r.abortCal
      exec (.calAbortAct t) s = .next (a.answerAborts a.cmd.outstanding.length))

/-- The periodic check events complete (R437, R438): at a whole period the stampers found are checked and the pulse tests fall due, one left over being skipped
and shown; a test begins when its group scans and captures nothing, and a scan cycle later it is judged and its input released. -/
def Obligations.PeriodicCheckComplete : Prop :=
  ∀ (s : State) (t : Nat), let r := s.at_ t
  (∀ found, r.rdN P.CAL_PCHK_PERIOD ≠ 0 → r.now % (1000000000 * r.rdN P.CAL_PCHK_PERIOD) = 0 → r.cal.checkedAt < r.now →
      let a := found.foldl State.checkStamper r
      ∃ u, exec (.pchkPeriod t found) s = .next u ∧ u.cal.checkedAt = r.now
        ∧ (∀ n, (n, none) ∈ u.cal.pulses ↔ n < 512 ∧ a.rdN (P.CAL_PCHK_WB n) = 1 ∧ a.inState n ≠ inHeld ∧ a.inState n ≠ inOff
            ∧ ∀ b, (n, some b) ∉ a.cal.pulses)
        ∧ ((∃ n, (n, none) ∈ a.cal.pulses) → u.bit P.CAL_STATUS 4 = true) ∧ u.mem = r.mem)
  ∧ (∀ (n : Fin 512) hit,
      (r.cal.pulses.find? (fun x => x.1 == n.val) = some (n.val, none) → (r.run (n / 4)).slots = [] → r.grpState (n / 4) = grpScanning → r.inState n ≠ inHeld →
        let a := r.holdInput n holdPulse
        exec (.pchkPulseTest t n hit) s = .next (a.setCal { r.cal with pulses := r.cal.pulses.map (fun x => if x.1 = n.val then (n.val, some r.now) else x) }))
      ∧ (∀ b, r.cal.pulses.find? (fun x => x.1 == n.val) = some (n.val, some b) → b + r.scanCycle (n / 4) ≤ r.now →
          let a := r.setCal { r.cal with pulses := r.cal.pulses.filter (fun x => x.1 != n.val) }
          exec (.pchkPulseTest t n false) s = .next (a.releaseInput n holdPulse r.now)
          ∧ ∃ v, exec (.pchkPulseTest t n true) s = .next ((State.failCheck { a with free := a.free + 1 } n v).releaseInput n holdPulse r.now)))

/-- The management events complete (R466, R472 to R475, R479, R481, R484, R493): a nonce, a session and a lock-out end; a log entry is persisted; a saved
configuration is in force, and asked for hourly; firmware is written and committed; an attestation is signed. -/
def Obligations.ManagementEventsComplete : Prop :=
  ∀ (s : State) (t : Nat), let r := s.at_ t
  (∀ n e, r.mgt.nonce = some (n, e) → e ≤ r.time → exec (.nonceExpiry t) s = .next (r.setMgt { r.mgt with nonce := none }))
  ∧ (∀ x, r.mgt.session = some x → x.until_ ≤ r.time →
      exec (.sessionExpiry t) s = .next (State.logSession { r with mgt := { r.mgt with session := none } } x))
  ∧ (∀ e, r.mgt.lockedUntil = some e → e ≤ r.time → exec (.openLockoutEnd t) s = .next (r.setMgt { r.mgt with lockedUntil := none }))
  ∧ (∀ e rest, r.mgt.persistWait = e :: rest → r.mgt.ops = [] →
      exec (.logPersist t) s = .next (r.setMgt { r.mgt with
        persistWait := rest
        persistLog := (if 16384 ≤ r.mgt.persistLog.length then r.mgt.persistLog.drop 2048 else r.mgt.persistLog) ++ [{ e with persisted := true }]
        log := r.mgt.log.map (fun x => if x.seq = e.seq then { x with persisted := true } else x) }))
  ∧ (∀ c, r.mgt.ops.head? = some (.save c) → r.mgt.saveAgain = false →
      exec (.configSave t) s = .next ((((r.setMgt { r.mgt with saved := c }).wrN P.PWR_CFG_SEQ c.seq).setBit P.PWR_STATUS 0).endFlash))
  ∧ (r.mgt.saveHourly = true → r.now % 3600000000000 = 0 → exec (.configSaveHourly t) s = .next r.requestSave)
  ∧ (∀ h p good, r.mgt.ops.head? = some (.write h p) → word p 0 % 4 < 2 →
      let d := word p 0 % 4
      let w := (r.flash d).write (bitOf (word p 0) 2) (imageBase + word p 1) (bytesOf (p.drop 3))
      exec (.fwWriteComplete t good) s
        = .next (((r.setFlash d { w.1 with factory := false }).endFlash).finish 0x84 h (if good && w.2 then stOk else stInternal) []))
  ∧ (∀ h p good, r.mgt.ops.head? = some (.write h p) → word p 0 % 4 = 2 →
      let w := fun (s : State) (d : Nat) => (s.flash d).write (bitOf (word p 0) 2) (keyBase + word p 1) (bytesOf (p.drop 3))
      let a := r.setFlash 0 (w r 0).1
      let b := a.setFlash 1 (w a 1).1
      exec (.fwWriteComplete t good) s = .next (b.endFlash.finish 0x84 h (if good && ((w r 0).2 && (w a 1).2) then stOk else stInternal) []))
  ∧ (∀ h area, r.mgt.ops.head? = some (.commit h 0 area) →
      let x := r.flash area
      let n := ((r.flash r.running_).boot.bseq + 1) % 4294967296
      let boot : BootRecord := { bseq := n, state := bootTrial, attempt := true, svn := x.svn, version := x.version, digest := x.digest, valid := true }
      exec (.fwCommitComplete t) s
        = .next (if r.imageVerifies area then
            (((r.setFlash area { x with boot, written := false }).logEvent 0x1103 0 1 0 n).endFlash).finish 0x85 h stOk [BitVec.ofNat 32 n]
          else r.endFlash.finish 0x85 h stRange []))
  ∧ (∀ h area, r.mgt.ops.head? = some (.commit h 1 area) →
      let x := r.flash r.running_
      let a := r.setFlash r.running_ { x with boot := { x.boot with state := bootConfirmed }, written := false }
      let arb := max r.mgt.arb x.boot.svn
      let b := a.setMgt { a.mgt with arb, relkeyRevoked := r.mgt.relkeyRevoked ||| x.revoke }
      exec (.fwCommitComplete t) s
        = .next (((((b.wrN P.MGT_BOOT_STATE bootConfirmed).wrN P.MGT_ARB_COUNT arb).logEvent 0x1103 0 1 1 x.boot.bseq).endFlash).finish 0x85 h stOk
            [BitVec.ofNat 32 arb]))
  ∧ (∀ h area, r.mgt.ops.head? = some (.commit h 2 area) →
      exec (.fwCommitComplete t) s = .next (r.commitKeys.1.endFlash.finish 0x85 h r.commitKeys.2 []))
  ∧ (∀ h ws e, r.mgt.attest = some (h, ws, e) →
      let sig := wordsOf (padTo 3312 ((Config.identitySign (Config.shake64 (bytesOf ws))).take 3309))
      exec (.attestSignatureDone t) s = .next ((r.setMgt { r.mgt with attest := none }).finish 0x86 h stOk (ws ++ sig)))

/-- The temperature events complete (R500 to R507): a conversion of every sensor is read, judged and published; decided throttle values take effect at a
boundary; a stop drains, completes and ends; a rise ends or leads to a stop; a cold front end is released. -/
def Obligations.ThermalEventsComplete : Prop :=
  ∀ (s : State) (t : Nat), let r := s.at_ t
  (∀ temps volts, r.running = true →
      let a := (temps.take 17).zipIdx.foldl (fun (s : State) (x : Reading × Nat) => s.readTemp x.2 x.1) r
      let b := (volts.take 22).zipIdx.foldl (fun (s : State) (x : Reading × Nat) => s.readVolt x.2 x.1) a
      let c := (b.putBit P.THM_STATUS 4 ([8, 9, 10, 11].any (fun i => !(b.sensor i).failed && decide ((b.rd (P.MGT_TEMP i)).toInt < -40000)))).judgeRise.noteLevels.noteCool
      exec (.sensorConversion t temps volts) s
        = .next (if (List.range 16).any c.overLimit then c.startStop (c.overLimit 4 || c.overLimit 5) else c))
  ∧ (∀ x, r.pwr.throttle = some x → r.now % 1000 = 0 → r.commitDue = false →
      ∃ u, exec (.throttleApply t) s = .next u ∧ u.pwr.throttle = none ∧ u.rdN P.TRG_WR_THR_DIV = x.windrow % 4294967296
        ∧ u.rdN P.COD_THR_REDUCE = x.reduce % 4294967296 ∧ (∀ k : Fin 4, u.rdN (P.ADC_THR_DIV k) = (x.divs.getD k 1) % 4294967296) ∧ u.mem = r.mem)
  ∧ (∀ a, r.pwr.stopSince = some a → r.pwrState = pwrStopping →
      ((r.stopActed = true ∧ r.drained = true) ∨ a + msec (r.rdN P.THM_STOP_DRAIN) ≤ r.time) → exec (.stopDrainEnd t) s = .next r.completeStop)
  ∧ (∀ a, r.pwr.stopSince = some a → r.pwrState = pwrStopping → a + msec (r.rdN P.THM_STOP_MAX) ≤ r.time → exec (.stopMaxExpiry t) s = .next r.hardTrip)
  ∧ (∀ a, r.pwr.coolSince = some a → r.pwrState = pwrStopped → r.rdN P.THM_AUTO_RESUME ≠ 0 → r.now % 1000 = 0 →
      a + secs (r.rdN P.THM_RESUME_HOLD) ≤ r.time →
      let a := { r with mem := { r.mem with selfRefresh := false } }
      let a := [0, 1].foldl (fun s p => if s.portEnabled p && s.lnkPortState p = portFallow then s.wakePort p else s) a
      let a := allGroups.foldl State.resumeGroup (allGroups.foldl (fun s g => s.unstopGroup g 3 s.now) a)
      let b := (a.setPwr { a.pwr with therm := false, stopSince := none, stopLanes := false }).setBit P.THM_STATUS 3
      exec (.resume t) s = .next ((List.range 64).foldl State.steer (b.wrN P.PWR_STATE (if b.throttled then pwrThrottled else pwrInService))))
  ∧ (∀ a, r.pwr.rise = some a →
      (∀ c, r.pwr.calmSince = some c → c + secs (r.rdN P.THM_RESUME_HOLD) ≤ r.time →
        exec (.riseEventEnd t) s = .next ((r.setPwr { r.pwr with rise := none }).noteLevels).noteCool)
      ∧ (a + msec (r.rdN P.THM_RISE_HOLD) ≤ r.time → exec (.riseHoldExpiry t) s = .next (r.startStop r.pwr.riseLanes)))
  ∧ (∀ (k : Fin 4) a, (r.fePower k).warmSince = some a → (r.fePower k).coldStop = true → r.now % 1000 = 0 → a + secs 10 ≤ r.time →
      let b := (State.groupsOf k).foldl (fun s g => s.unstopGroup g 1 r.now) (r.setFePower k { r.fePower k with coldStop := false })
      exec (.lowTempRelease t k) s = .next ((b.putBit P.THM_STATUS 6 b.anyCold).noteCool))
  ∧ (∀ i : Fin 17, (i.val < 16 → exec (.hardwareTrip t i) s = .next r.hardTrip) ∧ (i.val = 16 → exec (.hardwareTrip t i) s = .next r))

/-- The supply events complete (R489, R490, R506): a rail outside its window is counted, shown and logged, and shown back; VAN stops and releases the groups of
a front end; a brown-out, a low POR_N and a trip hold a COLD reset, and the last hold to end releases it with its cause. -/
def Obligations.SupplyEventsComplete : Prop :=
  ∀ (s : State) (t : Nat), let r := s.at_ t
  (∀ (i : Fin 22) high, r.running = true → r.rdN (P.PWR_RAIL_STATE i) = 0 →
      let a := ((r.wrN (P.PWR_RAIL_STATE i) (if high then 2 else 1)).addSat (P.PWR_RAIL_EVENTS i) 1).setBit P.PWR_STATUS 1
      ∃ code sev data, exec (.railOutOfWindow t i high) s = .next (State.logEvent { a with free := a.free + 3 } code (voltUnit i) sev data 0)
        ∧ code / 256 = 0x12 ∧ sev < 4)
  ∧ (∀ i : Fin 22, exec (.railBackInWindow t i) s = .next (r.wrN (P.PWR_RAIL_STATE i) 0))
  ∧ (∀ k : Fin 4,
      (r.running = true → (r.fePower k).vanStop = false → exec (.vanStop t k) s
        = .next ((State.groupsOf k).foldl (fun s g => s.stopGroup g 2) ((r.setFePower k { r.fePower k with vanStop := true }).setBit P.PWR_STATUS 2)))
      ∧ ((r.fePower k).vanStop = true → r.now % 1000 = 0 → exec (.vanStopRelease t k) s
          = .next ((State.groupsOf k).foldl (fun s g => s.unstopGroup g 2 r.now) (r.setFePower k { r.fePower k with vanStop := false }))))
  ∧ (∀ i : Fin 22, (7 ≤ i.val ∧ i.val ≤ 10 → exec (.brownOut t i) s = .next r)
      ∧ (¬(7 ≤ i.val ∧ i.val ≤ 10) → r.resetHeld = true → exec (.brownOut t i) s = .next (r.setPwr { r.pwr with brownOut := true }))
      ∧ (¬(7 ≤ i.val ∧ i.val ≤ 10) → r.resetHeld = false → exec (.brownOut t i) s = .next ((r.setPwr { r.pwr with brownOut := true }).reloadReset 0 1)))
  ∧ (r.resetHeld = true → exec (.porNChange t false) s = .next (r.setPwr { r.pwr with porLow := true }))
  ∧ (r.resetHeld = false → exec (.porNChange t false) s = .next ((r.setPwr { r.pwr with porLow := true }).reloadReset 0 0))
  ∧ (r.pwr.porLow = true → r.pwr.brownOut = false → r.pwr.hardStop = false → ∃ u, exec (.porNChange t true) s = .next u ∧ u.resetHeld = false ∧ u.time = 0
      ∧ u.rdN P.PWR_RESET_CAUSE = 0 ∧ u.mem = r.mem)
  ∧ (r.pwr.porLow = false → r.pwr.brownOut = true → r.pwr.hardStop = false → ∃ u, exec (.brownOutResetRelease t) s = .next u ∧ u.resetHeld = false ∧ u.time = 0
      ∧ u.rdN P.PWR_RESET_CAUSE = 1 ∧ u.mem = r.mem)
  ∧ (r.pwr.porLow = false → r.pwr.brownOut = false → r.pwr.hardStop = true → ∃ u, exec (.hardStopEnd t) s = .next u ∧ u.resetHeld = false ∧ u.time = 0
      ∧ u.rdN P.PWR_RESET_CAUSE = 2 ∧ u.pwr.therm = r.pwr.therm ∧ u.mem = r.mem)

/-- The reset events complete (R491, R494 to R496): a reset that has fallen due acts with its cause, one of wider scope first; a short RST_N is no reset; a
die's reset moves control away first; a watchdog asks for one; a front end's reset lasts its settling time. -/
def Obligations.ResetEventsComplete : Prop :=
  ∀ (s : State) (t : Nat), let r := s.at_ t
  (∀ x, (r.dueReset 0 0 = some x → exec (.coldReset t) s = .next (r.reloadReset 0 x.cause))
      ∧ (r.dueReset 1 0 = some x → exec (.moduleReset t) s = .next (r.reloadReset 1 x.cause))
      ∧ (r.dueReset 2 0 = some x → exec (.concentratorReset t) s = .next (r.reloadReset 2 x.cause)))
  ∧ (∀ n, (n < 1000 → exec (.rstNPulse t n) s = .next r)
      ∧ (1000 ≤ n → r.resetHeld = false → r.dueReset 0 0 = none → exec (.rstNPulse t n) s = .next (r.reloadReset 1 3)))
  ∧ (∀ (d : Fin 2) x, r.dueReset 3 d = some x → r.red.mismatch = none →
      (r.active = d → r.dieState (1 - d) = dieInStep → x.moved = false → let a := r.moveGate (1 - d)
        exec (.dieReset t d) s = .next (a.setPwr { a.pwr with
          resets := a.pwr.resets.map (fun y => if y = x then { y with moved := true, instant := boundaryAfter a.now } else y) }))
      ∧ ((r.active ≠ d ∨ r.dieState (1 - d) ≠ dieInStep) → exec (.dieReset t d) s = .next ((r.takeReset x).resetDie d)))
  ∧ (∀ d : Fin 2, r.resetHeld = false → r.pwr.firmware = true → r.dieState d ≠ dieBoot →
      (r.dieState (1 - d) = dieInStep → exec (.watchdogExpiry t d) s
        = .next ((r.mismatch kindMissing r.red.slot (if d = 0 then ⟨some 7, none⟩ else ⟨none, some 7⟩)).pushReset 3 d 9 r.now))
      ∧ (r.dieState (1 - d) ≠ dieInStep → exec (.watchdogExpiry t d) s = .next (r.pushReset 2 0 9 r.now)))
  ∧ (∀ (k : Fin 4) x, r.dueReset 4 k = some x → exec (.frontEndReset t k) s = .next (((r.takeReset x).resetFe k).settleFe k))
  ∧ (∀ (k : Fin 4) a, (r.fePower k).resetUntil = some a → a ≤ r.now → r.running = true →
      exec (.frontEndReloaded t k) s
        = .next ((State.groupsOf k).foldl State.reloadGroup ([2 * k.val, 2 * k.val + 1].foldl State.reloadLoop
            (((List.range 16).map (· + 16 * k.val)).foldl State.reloadSource (r.setFePower k { r.fePower k with resetUntil := none })))).enterService)

/-- The start-up events complete (R497, R498): a die becomes ready, SYNCING beside one IN_STEP, else the first to bring the module up; a die that has waited
alone enters IN_STEP; the Granary becomes ready with its configured plots. -/
def Obligations.StartUpEventsComplete : Prop :=
  ∀ (s : State) (t : Nat), let r := s.at_ t
  (∀ d : Fin 2, r.resetHeld = false → r.pwr.firmware = true → r.dieState d = dieBoot → (r.die d).ready = false →
      let a := (r.setDie d { r.die d with ready := true, readyAt := r.time }).logBoot
      (a.dieState (1 - d) = dieInStep → exec (.dieReady t d) s = .next (a.setDieState d dieSyncing))
      ∧ (a.dieState (1 - d) ≠ dieInStep → (a.die (1 - d)).ready = true → exec (.dieReady t d) s = .next a)
      ∧ (a.dieState (1 - d) ≠ dieInStep → (a.die (1 - d)).ready = false → exec (.dieReady t d) s = .next a.bringUp))
  ∧ (∀ d : Fin 2, r.dieState d = dieBoot → (r.die d).ready = true → (r.die (1 - d)).ready = false → r.running = false →
      (r.die d).readyAt + msec (r.rdN P.PWR_JOIN_WAIT) ≤ r.time → let a := ((r.startSlots d).enterStep d false).setBit P.PWR_STATUS 3
      exec (.joinWaitExpiry t d) s = .next (if a.active = d then a else a.moveGate d).enterService)
  ∧ (r.mem.granReady = false → ((r.die 0).ready = true ∨ (r.die 1).ready = true) →
      exec (.granaryReady t) s = .next (State.enterService { r with mem := { r.mem with
        granReady := true
        plots := r.pwr.plots.foldl (fun ps q => if ps.any (fun p => p.id == q.id) then ps else insertPlot q ps) r.mem.plots } }))

/-- What a reset of kind 0, 1 or 2 leaves (R491, R492, R495, R1): the node ID stays, the run number is the next one, the cause is shown, the persistent log, the
saved configuration, the stored calibration and the key fuses stay, every command outstanding is gone without a reply, the role follows PRT_ENABLE, memory
lists no byte, and a failed slice stays marked but for kind 0 (R274). -/
def Obligations.ReloadResetLeaves : Prop :=
  ∀ (s : State) (kind cause : Nat), cause < 4294967296 → let u := s.reloadReset kind cause
  u.rd P.SYS_NODE_ID = s.rd P.SYS_NODE_ID ∧ u.rdN P.REC_RUN = (s.rdN P.REC_RUN + 1) % 256 ∧ u.rdN P.PWR_RESET_CAUSE = cause
  ∧ u.cmd.outstanding = [] ∧ u.cmd.replies = s.cmd.replies ∧ u.mgt.persistLog = s.mgt.persistLog
  ∧ u.mgt.saved = s.mgt.saved ∧ u.mem.gran = [] ∧ u.mem.sram = [] ∧ u.pending = s.pending
  ∧ (kind ≠ 2 → u.time = 0 ∧ u.dieState 0 = dieBoot ∧ u.dieState 1 = dieBoot)
  ∧ u.cal.slots = s.cal.slots ∧ u.cal.factory = s.cal.factory
  ∧ (∀ k, (u.keySlot k).enrolled = (s.keySlot k).enrolled ∧ (u.keySlot k).revoked = (s.keySlot k).revoked ∧ (u.keySlot k).digest = (s.keySlot k).digest)
  ∧ u.prt.portal = (u.rdN P.PRT_ENABLE == 1) ∧ (kind ≠ 0 → ∀ d : Fin 2, u.sliceFail d = s.sliceFail d)

/-- The claim of a die: HEALTH in bits [5:0], 63 less the penalties of Table 12-3 in force and never below 0; ROLE in bits [7:6], FORCED, PREFERRED, ALTERNATE
or OUT (a preferred die that came from SYNCHRONISING waits for RED_REVERT_HOLD); the higher claim wins, CD-A on a tie (R19, R399, R400, R408). -/
def Obligations.ClaimNumber : Prop :=
  (∀ (s : State) (d : Nat), let x := s.die d
    let points := (if s.sliceFail d < 9 then 16 else 0) + 8 * min 4 x.marches + (if s.rdN P.RED_CE_LIMIT < s.ceLastHour d then 4 else 0)
      + (if (s.memDie d).granGleaner.slow = true ∨ (s.memDie d).sramGleaner.slow = true then 2 else 0) + (if x.hot = true then 8 else 0)
      + (if s.clockFast d = true then 8 else 0) + (if x.aloneFault = true then 16 else 0) + (if x.unresFault = true then 32 else 0)
    s.claim d % 64 = 63 - points
    ∧ (s.claim d / 64 = 0 ↔ s.dieState d ≠ dieInStep)
    ∧ (s.dieState d = dieInStep → s.red.forced = some d → s.claim d / 64 = 3)
    ∧ (s.dieState d = dieInStep → s.red.forced ≠ some d →
        s.claim d / 64 = if s.rdN P.RED_PREF = d ∧ s.rdN P.RED_HEALTH_MIN ≤ 63 - points ∧ x.preferAt ≤ s.time then 2 else 1))
  ∧ (∀ a b : Nat, (winnerOf a b = 1 ↔ a < b) ∧ (winnerOf a b = 0 ↔ b ≤ a))

/-- Temperature bands and levels: a refresh band is entered at its lower bound and left downwards 2 °C under it (R275); a sensor's level counts the entry values
it has reached, rises at once, and falls by one only after 1 s spent more than 2 °C under the entry value of the level held (R501). -/
def Obligations.TemperatureBands : Prop :=
  (∀ (old : Nat) (t : Int), old ≤ 2 →
    (bandOf old t = 2 ↔ 95000 ≤ t ∨ (old = 2 ∧ 93000 ≤ t))
    ∧ (bandOf old t = 1 ↔ (85000 ≤ t ∨ (1 ≤ old ∧ 83000 ≤ t)) ∧ t < 95000 ∧ (old = 2 → t < 93000))
    ∧ (bandOf old t = 0 ↔ t < 85000 ∧ (1 ≤ old → t < 83000)))
  ∧ (∀ (i : Nat) (c : Int × Int) (t : Int), classOf i = some c →
    levelOf c t ≤ 7 ∧ (∀ j : Nat, 1 ≤ j → j ≤ 7 → (j ≤ levelOf c t ↔ entryOf c j ≤ t)))
  ∧ (∀ (x : SensorRuntime) (c : Int × Int) (t : Int) (now : Nat),
    (x.level ≤ levelOf c t → (x.judge c t now).level = levelOf c t)
    ∧ (levelOf c t < x.level → t < entryOf c x.level - 2000 → (∃ a, x.belowSince = some a ∧ a + secs 1 ≤ now) → (x.judge c t now).level = x.level - 1)
    ∧ (levelOf c t < x.level → t < entryOf c x.level - 2000 → (∀ a, x.belowSince = some a → now < a + secs 1) →
        (x.judge c t now).level = x.level ∧ (x.judge c t now).belowSince = some (x.belowSince.getD now))
    ∧ (levelOf c t < x.level → entryOf c x.level - 2000 ≤ t → (x.judge c t now).level = x.level ∧ (x.judge c t now).belowSince = none))

/-- Storing a record for which there is room: its index entry becomes the newest of its store, the write position moves behind its lines, its bytes stand in
those lines, zeros behind them, clean in both dies, and no other byte of either memory changes (R283, R284, R294). -/
def Obligations.RecordStored : Prop :=
  ∀ (s : State) (r : Record) (dir : Nat) (c : Nat) (es : List IndexEntry), let id := s.storeFor r.kind
  let n := ceilDiv r.length 64
  makeRoom (s.storeLines id) (s.storeSlots id) n (s.store id).wp (s.store id).entries.length (s.store id).entries = (some c, es) →
  let t := s.storeRecord r dir ⟨false, false⟩
  let a := s.storeBase id + 64 * c
  t.store id = { wp := (c + n) % s.storeLines id, entries := es ++
    [{ kind := r.kind, seq := r.seq, run := r.run, time := r.time, line := c, lines := n, length := r.length, dir := dir }] }
  ∧ (∀ k, k ≠ id → t.store k = s.store k)
  ∧ (id ≠ sramStore → t.mem.sram = s.mem.sram ∧ (∀ d : Fin 2, ∀ i < 64 * n, t.granByte d (a + i) = r.bytes.getD i 0)
      ∧ (∀ j, j < a ∨ a + 64 * n ≤ j → Sparse.get 0 t.mem.gran j = Sparse.get 0 s.mem.gran j)
      ∧ (∀ i < n, t.lineError 0 (a / 64 + i) = {} ∧ t.lineError 1 (a / 64 + i) = {}))
  ∧ (id = sramStore → t.mem.gran = s.mem.gran ∧ (∀ d : Fin 2, ∀ i < 64 * n, t.sramByte d (2097152 + 64 * c + i) = r.bytes.getD i 0)
      ∧ (∀ j, j < 2097152 + 64 * c ∨ 2097152 + 64 * (c + n) ≤ j → Sparse.get 0 t.mem.sram j = Sparse.get 0 s.mem.sram j)
      ∧ (∀ i < 8 * n, t.wordError 0 (262144 + 8 * c + i) = {} ∧ t.wordError 1 (262144 + 8 * c + i) = {}))

/-- The room of a record: acknowledged records go, oldest first and only while the record does not fit; an unacknowledged one is never freed or moved; the
record takes the first free extent at or after the write position, in circular order; and it is refused only when nothing acknowledged is left and it still
does not fit (R284). -/
def Obligations.RoomFreed : Prop :=
  ∀ (cap slots n wp : Nat) (es : List IndexEntry), let r := makeRoom cap slots n wp es.length es
  let fits := fun (xs : List IndexEntry) (c : Nat) => xs.length < slots ∧ c + n ≤ cap ∧ ∀ e ∈ xs, c + n ≤ e.line ∨ e.line + e.lines ≤ c
  (∃ old new : List IndexEntry, es = old ++ new ∧ r.2 = old.filter (fun e => !e.acked) ++ new)
  ∧ ((∃ c, fits es c) → r.2 = es)
  ∧ (∀ c, r.1 = some c → fits r.2 c ∧ ((wp ≤ c ∧ ∀ b, wp ≤ b → fits r.2 b → c ≤ b) ∨ (c < wp ∧ ∀ b, fits r.2 b → c ≤ b ∧ b < wp)))
  ∧ (r.1 = none → (∀ e ∈ r.2, e.acked = false) ∧ ∀ c, ¬ fits r.2 c)

/-- A record whose CRC holds is judged at the portal by Table 12-6 (R406): one marked in the window of its run is a duplicate; any other is delivered, and marks
its number, moves the window, restarts it for a newer run, or leaves it; a re-fetched record is always delivered. -/
def Obligations.PortalDuplicates : Prop :=
  ∀ (s : State) (node kind run seq : Nat) (refetch : Bool), run < 256 → seq < 4294967296 →
  let r := s.judgeDuplicate node kind run seq refetch
  (∀ (m l : Nat), (m ≠ node ∨ l ≠ kind) → r.2.window? m l = s.window? m l)
  ∧ r.2 = { s with prt := { s.prt with windows := r.2.prt.windows } }
  ∧ (s.window? node kind = none → r.1 = false ∧ r.2.window? node kind = some { node := node, kind := kind, run := run, high := seq, map := 1 })
  ∧ (∀ w : DupWindow, s.window? node kind = some w → w.run < 256 → w.high < 4294967296 →
      let back := (w.high + 4294967296 - seq) % 4294967296
      let ahead := (seq + 4294967296 - w.high) % 4294967296
      (run = w.run → back < 1024 → bitOf w.map back = true → refetch = false → r.1 = true ∧ r.2 = s)
      ∧ (run = w.run → back < 1024 → (bitOf w.map back = false ∨ refetch = true) → r.1 = false ∧
          r.2.window? node kind = some { w with map := w.map ||| 2 ^ back })
      ∧ (run = w.run → 1 ≤ ahead → ahead < 2147483648 → r.1 = false ∧
          r.2.window? node kind = some { w with high := seq, map := if ahead < 1024 then (w.map * 2 ^ ahead + 1) % 2 ^ 1024 else 1 })
      ∧ (run = w.run → 1024 ≤ back → back ≤ 2147483648 → r.1 = false ∧ r.2.window? node kind = some w)
      ∧ (run ≠ w.run → (run + 256 - w.run) % 256 ≤ 127 → r.1 = false ∧
          r.2.window? node kind = some { node := node, kind := kind, run := run, high := seq, map := 1 })
      ∧ (128 ≤ (run + 256 - w.run) % 256 → r.1 = false ∧ r.2 = s))

/-- The scrambler x^58 + x^39 + 1 (R317): a receiver in the sender's state gives the payload back and ends in the sender's state, and one in any other state
gives it back from the 59th bit on; a number sent bit 0 first is read back, and precoded levels are recovered (R315). -/
def Obligations.ScramblerRoundTrip : Prop :=
  (∀ (st : Nat) (bs : List Bool), descramble st (scramble st bs).1 = (bs, (scramble st bs).2))
  ∧ (∀ (st st' : Nat) (bs : List Bool), (descramble st' (scramble st bs).1).1.drop 58 = bs.drop 58)
  ∧ (∀ w n : Nat, ofLineBits (lineBits w n) = n % 2 ^ w)
  ∧ (∀ (p : Nat) (g : List Nat), p < 4 → (∀ x ∈ g, x < 4) → unprecodeFrom p (precodeFrom p g) = g)

/-- The port of an SRAM bank serves, of the requests that ask for it, one that has waited 64 cycles before one that has not, then the one of the highest
priority in Table 9-6, which is the lowest ID, and of one master the earliest (R289); an atomic operation returns the old value, ADD wraps modulo its word
size, SWAP stores its operand, and no other bit of the word and no other word changes (R292), where each die's read of the word is CLEAN or CORRECTED
(R295). -/
def Obligations.SramServesInOrder : Prop :=
  (∀ (c : Nat) (xs : List SramWait), xs ≠ [] → ∃ before x after, servedFirst c xs = some x ∧ xs = before ++ x :: after
    ∧ (∀ y ∈ xs, y.aged c = true → x.aged c = true)
    ∧ (∀ y ∈ xs, y.aged c = x.aged c → x.master ≤ y.master)
    ∧ (∀ y ∈ before, y.aged c = x.aged c → x.master < y.master))
  ∧ (∀ c, servedFirst c [] = none)
  ∧ (∀ (s : State) (a : SramAccess) (w : Nat) (d : Fin 2), a.atomic = true → s.wordOut 0 w < 2 → s.wordOut 1 w < 2 → let t := s.access a w
    let old := s.sramWord d w
    let new := t.sramWord d w
    (Sparse.get (⟨none, none⟩ : Two (Option W64)) t.mem.returned a.master.val).get d = some (a.part old)
    ∧ (a.kind = .add → a.part new = BitVec.ofNat 64 (((a.part old).toNat + (a.data.getD 0 0).toNat) % 2 ^ a.width))
    ∧ (a.kind = .swap → a.part new = BitVec.ofNat 64 ((a.data.getD 0 0).toNat % 2 ^ a.width))
    ∧ (∀ j, j < 64 → (j < a.shift ∨ a.shift + a.width ≤ j) → new.getLsbD j = old.getLsbD j)
    ∧ t.wordOut d w = outClean ∧ (∀ v, v ≠ w → t.sramWord d v = s.sramWord d v))
end

