-- ==== Sys2Proof/Laws/Commands.lean ====
section
/-! SUPPORT. What receiving a command packet does. -/

namespace Sys2Proof.Machine

/-- A packet that passes runs its own checks and effect, and its answer follows. -/
theorem State.receive_of_passes {s : State} {code : Nat} {h : Hdr} {p : List Word} (g : s.passes code h p) (body : State → State × Answer) :
    s.receive code h p body = (body (s.at_ h.at_)).1.answer code h p (body (s.at_ h.at_)).2 := by
  obtain ⟨h₁, h₂, h₃, h₄⟩ := g
  simp [State.receive, h₁, h₂, h₄, Option.isNone_iff_eq_none.mp h₃]

/-- A packet of which the node is no target, or that reaches a node that takes no commands, moves time only. -/
theorem State.receive_of_not_target {s : State} {code : Nat} {h : Hdr} {p : List Word} (body : State → State × Answer)
    (g : (s.at_ h.at_).takesCommands = false ∨ (s.at_ h.at_).isTarget code h = false) : s.receive code h p body = s.at_ h.at_ := by
  unfold State.receive
  rcases g with g | g <;> simp [g]

/-- A packet that repeats a command does what the duplicate rules say and nothing else. -/
theorem State.receive_of_duplicate {s t : State} {code : Nat} {h : Hdr} {p : List Word} (body : State → State × Answer)
    (h₁ : (s.at_ h.at_).takesCommands = true) (h₂ : (s.at_ h.at_).isTarget code h = true) (h₃ : (s.at_ h.at_).duplicate code h = some t) :
    s.receive code h p body = t := by
  simp [State.receive, h₁, h₂, h₃]

/-- A packet refused by steps 1 to 5 is answered with its status and has no effect of its own. -/
theorem State.receive_of_refusal {s : State} {code st : Nat} {h : Hdr} {p : List Word} (body : State → State × Answer)
    (h₁ : (s.at_ h.at_).takesCommands = true) (h₂ : (s.at_ h.at_).isTarget code h = true) (h₃ : (s.at_ h.at_).duplicate code h = none)
    (h₄ : (s.at_ h.at_).refusal code h p = some st) :
    s.receive code h p body = ((s.at_ h.at_).noteRefusal code h st).finish code h st [] := by
  simp [State.receive, h₁, h₂, h₃, h₄]

/-- A packet that passes and whose own checks give a final reply. -/
theorem State.receive_final {s t : State} {code st : Nat} {h : Hdr} {p : List Word} {data : List Word} {body : State → State × Answer}
    (g : s.passes code h p) (e : body (s.at_ h.at_) = (t, .final st data)) : s.receive code h p body = t.finish code h st data := by
  rw [State.receive_of_passes g, e]; rfl
/-- A packet that passes and whose command is accepted to act later. -/
theorem State.receive_later {s t : State} {code : Nat} {h : Hdr} {p : List Word} {due : Option Nat} {body : State → State × Answer}
    (g : s.passes code h p) (e : body (s.at_ h.at_) = (t, .later due)) : s.receive code h p body = t.accept code h p due := by
  rw [State.receive_of_passes g, e]; rfl
/-- A packet that passes and whose command waits without an ACCEPTED reply. -/
theorem State.receive_quiet {s t : State} {code : Nat} {h : Hdr} {p : List Word} {due : Option Nat} {body : State → State × Answer}
    (g : s.passes code h p) (e : body (s.at_ h.at_) = (t, .quiet due)) : s.receive code h p body = t.hold code h p due none := by
  rw [State.receive_of_passes g, e]; rfl
/-- A packet that passes and whose command answers nothing here. -/
theorem State.receive_silent {s t : State} {code : Nat} {h : Hdr} {p : List Word} {body : State → State × Answer}
    (g : s.passes code h p) (e : body (s.at_ h.at_) = (t, .silent)) : s.receive code h p body = t := by
  rw [State.receive_of_passes g, e]; rfl

/-- A mode-split row leaves the number of parameter words as it is. -/
theorem forceMode_length (p : List Word) (lo w v : Nat) : (forceMode p lo w v).length = p.length := by cases p <;> rfl
theorem forceDisarm_length (p : List Word) (on : Bool) : (forceDisarm p on).length = p.length := by
  unfold forceDisarm; split
  · rfl
  · simp; omega
/-- Every host command is received as Table 2-1 lays its packet out: opcode, header and as many parameter words. -/
theorem exec_packet {i : Instr} {code : Nat} {h : Hdr} {p : List Word} (e : i.packet = some (code, h, p)) :
    ∃ q, q.length = p.length ∧ ∃ body, ∀ s, exec i s = .next (s.receive code h q body) := by
  cases i with
  | nop g q => cases e; exact ⟨p, rfl, _, fun _ => rfl⟩
  | ident g q => cases e; exact ⟨p, rfl, _, fun _ => rfl⟩
  | reset g q => cases e; exact ⟨p, rfl, _, fun _ => rfl⟩
  | snapTake g q => cases e; exact ⟨p, rfl, _, fun _ => rfl⟩
  | snapRead g q => cases e; exact ⟨p, rfl, _, fun _ => rfl⟩
  | cancel g q => cases e; exact ⟨p, rfl, _, fun _ => rfl⟩
  | nodeSetidById g q => cases e; exact ⟨(forceMode p 0 2 0), forceMode_length _ _ _ _, _, fun _ => rfl⟩
  | nodeSetidSequence g q => cases e; exact ⟨(forceMode p 0 2 1), forceMode_length _ _ _ _, _, fun _ => rfl⟩
  | nodeSetidByPosition g q => cases e; exact ⟨(forceMode p 0 2 2), forceMode_length _ _ _ _, _, fun _ => rfl⟩
  | almAck g q => cases e; exact ⟨p, rfl, _, fun _ => rfl⟩
  | parRead g q => cases e; exact ⟨p, rfl, _, fun _ => rfl⟩
  | parWrite g q => cases e; exact ⟨p, rfl, _, fun _ => rfl⟩
  | parStaged g q => cases e; exact ⟨p, rfl, _, fun _ => rfl⟩
  | epochCommit g q => cases e; exact ⟨p, rfl, _, fun _ => rfl⟩
  | epochAbort g q => cases e; exact ⟨p, rfl, _, fun _ => rfl⟩
  | epochStatus g q => cases e; exact ⟨p, rfl, _, fun _ => rfl⟩
  | acqStart g q => cases e; exact ⟨p, rfl, _, fun _ => rfl⟩
  | acqStop g q => cases e; exact ⟨p, rfl, _, fun _ => rfl⟩
  | acqForce g q => cases e; exact ⟨p, rfl, _, fun _ => rfl⟩
  | acqRearm g q => cases e; exact ⟨p, rfl, _, fun _ => rfl⟩
  | acqFetch g q => cases e; exact ⟨p, rfl, _, fun _ => rfl⟩
  | calRun g q => cases e; exact ⟨p, rfl, _, fun _ => rfl⟩
  | calAbort g q => cases e; exact ⟨p, rfl, _, fun _ => rfl⟩
  | calShunt g q => cases e; exact ⟨p, rfl, _, fun _ => rfl⟩
  | calRead g q => cases e; exact ⟨p, rfl, _, fun _ => rfl⟩
  | tbRead g q => cases e; exact ⟨p, rfl, _, fun _ => rfl⟩
  | tbDomain g q => cases e; exact ⟨p, rfl, _, fun _ => rfl⟩
  | tbAsymSet g q => cases e; exact ⟨p, rfl, _, fun _ => rfl⟩
  | tbAsymMeasure g q => cases e; exact ⟨p, rfl, _, fun _ => rfl⟩
  | tbAsymClear g q => cases e; exact ⟨p, rfl, _, fun _ => rfl⟩
  | tbJumpPermit g q => cases e; exact ⟨p, rfl, _, fun _ => rfl⟩
  | tbJumpSet g q => cases e; exact ⟨p, rfl, _, fun _ => rfl⟩
  | tpoArm g q => cases e; exact ⟨(forceDisarm p false), forceDisarm_length _ _, _, fun _ => rfl⟩
  | tpoDisarm g q => cases e; exact ⟨(forceDisarm p true), forceDisarm_length _ _, _, fun _ => rfl⟩
  | memPlotNew g q => cases e; exact ⟨p, rfl, _, fun _ => rfl⟩
  | memPlotFree g q => cases e; exact ⟨p, rfl, _, fun _ => rfl⟩
  | memPlotList g q => cases e; exact ⟨p, rfl, _, fun _ => rfl⟩
  | memRead g q => cases e; exact ⟨p, rfl, _, fun _ => rfl⟩
  | memTestStop g q => cases e; exact ⟨p, rfl, _, fun _ => rfl⟩
  | memTestContinuous g q => cases e; exact ⟨p, rfl, _, fun _ => rfl⟩
  | memTestOneLap g q => cases e; exact ⟨p, rfl, _, fun _ => rfl⟩
  | redStatus g q => cases e; exact ⟨p, rfl, _, fun _ => rfl⟩
  | redSwitchMove g q => cases e; exact ⟨p, rfl, _, fun _ => rfl⟩
  | redSwitchRelease g q => cases e; exact ⟨p, rfl, _, fun _ => rfl⟩
  | redSelftest g q => cases e; exact ⟨p, rfl, _, fun _ => rfl⟩
  | lnkStatus g q => cases e; exact ⟨p, rfl, _, fun _ => rfl⟩
  | lnkEyescanHealth g q => cases e; exact ⟨p, rfl, _, fun _ => rfl⟩
  | lnkEyescanMap g q => cases e; exact ⟨p, rfl, _, fun _ => rfl⟩
  | lnkFallow g q => cases e; exact ⟨p, rfl, _, fun _ => rfl⟩
  | lnkWake g q => cases e; exact ⟨p, rfl, _, fun _ => rfl⟩
  | lnkRetrain g q => cases e; exact ⟨p, rfl, _, fun _ => rfl⟩
  | mgtOpenChallenge g q => cases e; exact ⟨p, rfl, _, fun _ => rfl⟩
  | mgtOpenResponse g q => cases e; exact ⟨p, rfl, _, fun _ => rfl⟩
  | mgtClose g q => cases e; exact ⟨p, rfl, _, fun _ => rfl⟩
  | mgtLog g q => cases e; exact ⟨p, rfl, _, fun _ => rfl⟩
  | mgtCntRead g q => cases e; exact ⟨p, rfl, _, fun _ => rfl⟩
  | mgtCntSelect g q => cases e; exact ⟨p, rfl, _, fun _ => rfl⟩
  | mgtCntClear g q => cases e; exact ⟨p, rfl, _, fun _ => rfl⟩
  | mgtFwWrite g q => cases e; exact ⟨p, rfl, _, fun _ => rfl⟩
  | mgtFwCommitCommit g q => cases e; exact ⟨p, rfl, _, fun _ => rfl⟩
  | mgtFwCommitConfirm g q => cases e; exact ⟨p, rfl, _, fun _ => rfl⟩
  | mgtFwCommitKeys g q => cases e; exact ⟨p, rfl, _, fun _ => rfl⟩
  | attestMeasure g q => cases e; exact ⟨p, rfl, _, fun _ => rfl⟩
  | attestCert g q => cases e; exact ⟨p, rfl, _, fun _ => rfl⟩
  | tstLoop g q => cases e; exact ⟨p, rfl, _, fun _ => rfl⟩
  | tstInject g q => cases e; exact ⟨p, rfl, _, fun _ => rfl⟩
  | tstCheckbit g q => cases e; exact ⟨p, rfl, _, fun _ => rfl⟩
  | _ => cases e

end Sys2Proof.Machine
end

