-- ==== Sys2Proof/Laws/Sparse.lean ====
section
/-! SUPPORT. Laws of sparse tables: what a read answers after a write, and that every operation keeps the canonical form. -/

namespace Sys2Proof.Machine.Sparse

variable {α : Type}

@[simp] theorem find?_nil (k : Nat) : find? ([] : List (Nat × α)) k = none := rfl
@[simp] theorem get_nil (d : α) (k : Nat) : get d [] k = d := rfl

theorem find?_put_same (m : List (Nat × α)) (k : Nat) (v : α) : find? (put m k v) k = some v := by
  induction m with
  | nil => simp [put, find?]
  | cons e m ih =>
    obtain ⟨a, w⟩ := e
    simp only [put]
    split
    · simp [find?]
    · split
      · simp [find?]
      · rename_i h₁ h₂
        simp only [find?]
        rw [if_neg (by omega)]
        exact ih

theorem find?_put_other (m : List (Nat × α)) (k j : Nat) (v : α) (h : j ≠ k) : find? (put m k v) j = find? m j := by
  induction m with
  | nil => simp only [put, find?]; rw [if_neg (by omega)]
  | cons e m ih =>
    obtain ⟨a, w⟩ := e
    simp only [put]
    split
    · simp only [find?]; rw [if_neg (by omega)]
    · split
      · rename_i h₁ h₂
        simp only [find?]
        rw [if_neg (by omega), if_neg (by omega)]
      · simp only [find?]
        split
        · rfl
        · exact ih

theorem find?_erase_same (m : List (Nat × α)) (k : Nat) : find? (erase m k) k = none := by
  induction m with
  | nil => rfl
  | cons e m ih =>
    obtain ⟨a, w⟩ := e
    unfold erase at *
    by_cases h : a = k
    · simp [h, ih]
    · simp [h, find?, ih]

theorem find?_erase_other (m : List (Nat × α)) (k j : Nat) (h : j ≠ k) : find? (erase m k) j = find? m j := by
  induction m with
  | nil => rfl
  | cons e m ih =>
    obtain ⟨a, w⟩ := e
    unfold erase at *
    by_cases hk : a = k
    · have : a ≠ j := by omega
      simp [hk, find?, ih]
      omega
    · simp [hk, find?, ih]

/-- A read of a key answers what was written there last. -/
@[simp] theorem get_set_same [DecidableEq α] (d : α) (m : List (Nat × α)) (k : Nat) (v : α) : get d (set d m k v) k = v := by
  unfold set get
  split
  · rename_i h; simp [find?_erase_same, h]
  · simp [find?_put_same]

/-- A write changes no other key. -/
theorem get_set_other [DecidableEq α] (d e : α) (m : List (Nat × α)) (k j : Nat) (v : α) (h : j ≠ k) : get e (set d m k v) j = get e m j := by
  unfold set get
  split
  · rw [find?_erase_other m k j h]
  · rw [find?_put_other m k j v h]

/-! ### The canonical form -/

theorem sorted_cons {a : Nat} {v : α} {m : List (Nat × α)} :
    sorted ((a, v) :: m) = true ↔ (∀ e ∈ m, a < e.1) ∧ sorted m = true := by
  induction m generalizing a v with
  | nil => simp [sorted]
  | cons e m ih =>
    obtain ⟨b, w⟩ := e
    simp only [sorted, Bool.and_eq_true, decide_eq_true_eq, List.mem_cons, forall_eq_or_imp]
    constructor
    · rintro ⟨h, g⟩
      refine ⟨⟨h, fun e he => ?_⟩, g⟩
      have := (ih.mp g).1 e he
      omega
    · rintro ⟨⟨h, _⟩, g⟩
      exact ⟨h, g⟩

theorem sorted_filter (f : Nat × α → Bool) (m : List (Nat × α)) (h : sorted m = true) : sorted (m.filter f) = true := by
  induction m with
  | nil => rfl
  | cons e m ih =>
    obtain ⟨a, v⟩ := e
    have hs := sorted_cons.mp h
    by_cases hf : f (a, v) = true
    · simp only [List.filter_cons, hf, if_true]
      exact sorted_cons.mpr ⟨fun e he => hs.1 e (List.mem_filter.mp he).1, ih hs.2⟩
    · simp only [List.filter_cons, hf]
      exact ih hs.2

theorem mem_put {m : List (Nat × α)} {k : Nat} {v : α} {e : Nat × α} (h : e ∈ put m k v) : e = (k, v) ∨ (e ∈ m ∧ (sorted m = true → e.1 ≠ k)) := by
  induction m with
  | nil => simpa [put] using h
  | cons x m ih =>
    obtain ⟨a, w⟩ := x
    simp only [put] at h
    split at h
    · rename_i hk
      rcases List.mem_cons.mp h with h | h
      · exact .inl h
      · refine .inr ⟨h, fun hs => ?_⟩
        rcases List.mem_cons.mp h with h | h
        · rw [h]; simp; omega
        · have := (sorted_cons.mp hs).1 e h; omega
    · split at h
      · rename_i hk
        rcases List.mem_cons.mp h with h | h
        · exact .inl h
        · refine .inr ⟨List.mem_cons_of_mem _ h, fun hs => ?_⟩
          have := (sorted_cons.mp hs).1 e h; omega
      · rename_i hk hne
        rcases List.mem_cons.mp h with h | h
        · refine .inr ⟨by simp [h], fun _ => ?_⟩
          rw [h]; simp; omega
        · rcases ih h with h | ⟨h, g⟩
          · exact .inl h
          · exact .inr ⟨List.mem_cons_of_mem _ h, fun hs => g (sorted_cons.mp hs).2⟩

theorem sorted_put (m : List (Nat × α)) (k : Nat) (v : α) (h : sorted m = true) : sorted (put m k v) = true := by
  induction m with
  | nil => rfl
  | cons x m ih =>
    obtain ⟨a, w⟩ := x
    have hs := sorted_cons.mp h
    simp only [put]
    split
    · rename_i hk
      refine sorted_cons.mpr ⟨fun e he => ?_, h⟩
      rcases List.mem_cons.mp he with he | he
      · rw [he]; exact hk
      · have := hs.1 e he; omega
    · split
      · rename_i hk
        exact sorted_cons.mpr ⟨fun e he => by have := hs.1 e he; omega, hs.2⟩
      · rename_i hk hne
        refine sorted_cons.mpr ⟨fun e he => ?_, ih hs.2⟩
        rcases mem_put he with he | he
        · rw [he]; simp; omega
        · exact hs.1 e he.1

variable [DecidableEq α]

theorem wf_iff {d : Nat → α} {m : List (Nat × α)} : wf d m = true ↔ sorted m = true ∧ ∀ e ∈ m, e.2 ≠ d e.1 := by
  unfold wf; simp

/-- Writing keeps the canonical form. -/
theorem wf_set {d : Nat → α} {m : List (Nat × α)} (h : wf d m = true) (k : Nat) (v : α) : wf d (set (d k) m k v) = true := by
  rw [wf_iff] at *
  unfold set
  split
  · exact ⟨sorted_filter _ _ h.1, fun e he => h.2 e (List.mem_filter.mp he).1⟩
  · rename_i hv
    refine ⟨sorted_put m k v h.1, fun e he => ?_⟩
    rcases mem_put he with he | he
    · rw [he]; exact hv
    · exact h.2 e he.1

/-- Dropping entries keeps the canonical form. -/
theorem wf_filter {d : Nat → α} {m : List (Nat × α)} (h : wf d m = true) (f : Nat × α → Bool) : wf d (m.filter f) = true := by
  rw [wf_iff] at *
  exact ⟨sorted_filter f m h.1, fun e he => h.2 e (List.mem_filter.mp he).1⟩

@[simp] theorem wf_nil (d : Nat → α) : wf d [] = true := rfl

end Sys2Proof.Machine.Sparse
end

