-- ==== Sys2Proof/Laws/Memory.lean ====
section
/-! SUPPORT. Laws of the memories: what a read answers after a write, and that every memory operation keeps the canonical form. -/

namespace Sys2Proof.Machine

/-- Writing bytes keeps the canonical form. -/
theorem writeBytes_wf (bs : List Byte) : ∀ (m : List (Nat × Byte)) (a : Nat), Memory.wf m → Memory.wf (writeBytes m a bs) := by
  induction bs with
  | nil => exact fun m a h => h
  | cons b bs ih => exact fun m a h => ih _ _ (Sparse.wf_set (d := fun _ => 0) h a b)

theorem store20_wf (m : List (Nat × Byte)) (seg i w : Nat) (h : Memory.wf m) : Memory.wf (store20 m seg i w) := writeBytes_wf _ _ _ h

/-- A byte outside the bytes written reads as before. -/
theorem get_writeBytes_outside (bs : List Byte) : ∀ (m : List (Nat × Byte)) (a j : Nat), (j < a ∨ a + bs.length ≤ j) →
    Sparse.get 0 (writeBytes m a bs) j = Sparse.get 0 m j := by
  induction bs with
  | nil => exact fun m a j _ => rfl
  | cons b bs ih =>
    intro m a j h
    simp only [List.length_cons] at h
    simp only [writeBytes]
    rw [ih _ _ _ (by omega), Sparse.get_set_other _ _ _ _ _ _ (by omega)]

/-- A byte among those written reads as written. -/
theorem get_writeBytes_inside (bs : List Byte) : ∀ (m : List (Nat × Byte)) (a i : Nat) (h : i < bs.length),
    Sparse.get 0 (writeBytes m a bs) (a + i) = bs[i] := by
  induction bs with
  | nil => intro m a i h; simp at h
  | cons b bs ih =>
    intro m a i h
    simp only [writeBytes]
    cases i with
    | zero => rw [get_writeBytes_outside _ _ _ _ (by omega)]; simp
    | succ i =>
      have := ih (Sparse.set 0 m a b) (a + 1) i (by simpa using h)
      rw [show a + 1 + i = a + (i + 1) by omega] at this
      simpa using this

/-- Reading back what was written. -/
theorem readBytes_writeBytes (bs : List Byte) (m : List (Nat × Byte)) (a : Nat) : readBytes (writeBytes m a bs) a bs.length = bs := by
  have key : ∀ (n : Nat) (i : Nat), i + n = bs.length → readBytes (writeBytes m a bs) (a + i) n = bs.drop i := by
    intro n
    induction n with
    | zero => intro i h; simp [readBytes, show bs.length ≤ i by omega]
    | succ n ih =>
      intro i h
      have hi : i < bs.length := by omega
      rw [readBytes, get_writeBytes_inside bs m a i hi, Nat.add_assoc, ih (i + 1) (by omega), List.drop_eq_getElem_cons hi]
  simpa using key bs.length 0 (by omega)

end Sys2Proof.Machine
end

