-- ==== Sys2Proof/Laws/Keeps.lean ====
section
/-! SUPPORT. What every operation keeps: the queue of commands, and the canonical forms of the parameter file and of the memories. -/

namespace Sys2Proof.Machine

/-- From `s` to `t` the queue stays as it is and the canonical forms are kept. -/
structure Keeps (s t : State) : Prop where
  queue : t.pending = s.pending
  par : Sparse.wf Params.reset s.par = true → Sparse.wf Params.reset t.par = true
  gran : Memory.wf s.mem.gran → Memory.wf t.mem.gran
  sram : Memory.wf s.mem.sram → Memory.wf t.mem.sram

namespace Keeps

theorem refl (s : State) : Keeps s s := ⟨rfl, id, id, id⟩
theorem trans {s t u : State} (h : Keeps s t) (g : Keeps t u) : Keeps s u := ⟨g.queue.trans h.queue, g.par ∘ h.par, g.gran ∘ h.gran, g.sram ∘ h.sram⟩

/-- A change to anything but the queue, the parameter file and the memories' bytes. -/
theorem upd {s₀ s t : State} (h : Keeps s₀ s) (h₁ : t.pending = s.pending) (h₂ : t.par = s.par) (h₃ : t.mem.gran = s.mem.gran)
    (h₄ : t.mem.sram = s.mem.sram) : Keeps s₀ t :=
  ⟨h₁.trans h.queue, fun x => h₂ ▸ h.par x, fun x => h₃ ▸ h.gran x, fun x => h₄ ▸ h.sram x⟩

/-- A change to the memories' bytes, or to the parameter file, that keeps the canonical form. -/
theorem updMem {s₀ s t : State} (h : Keeps s₀ s) (h₁ : t.pending = s.pending) (h₂ : t.par = s.par)
    (h₃ : Memory.wf s.mem.gran → Memory.wf t.mem.gran) (h₄ : Memory.wf s.mem.sram → Memory.wf t.mem.sram) : Keeps s₀ t :=
  h.trans ⟨h₁, fun x => h₂ ▸ x, h₃, h₄⟩
theorem updPar {s₀ s t : State} (h : Keeps s₀ s) (h₁ : t.pending = s.pending)
    (h₂ : Sparse.wf Params.reset s.par = true → Sparse.wf Params.reset t.par = true) (h₃ : t.mem.gran = s.mem.gran) (h₄ : t.mem.sram = s.mem.sram) :
    Keeps s₀ t :=
  h.trans ⟨h₁, h₂, fun x => h₃ ▸ x, fun x => h₄ ▸ x⟩

theorem ite {s₀ a b : State} {c : Prop} [Decidable c] (h : Keeps s₀ a) (g : Keeps s₀ b) : Keeps s₀ (if c then a else b) := by
  split
  · exact h
  · exact g
theorem ite₁ {α : Type} {s₀ : State} {a b : State × α} {c : Prop} [Decidable c] (h : Keeps s₀ a.1) (g : Keeps s₀ b.1) :
    Keeps s₀ (if c then a else b).1 := by
  split
  · exact h
  · exact g
theorem ite₂ {α : Type} {s₀ : State} {a b : α × State} {c : Prop} [Decidable c] (h : Keeps s₀ a.2) (g : Keeps s₀ b.2) :
    Keeps s₀ (if c then a else b).2 := by
  split
  · exact h
  · exact g

theorem fst_mk {α : Type} {s₀ s : State} {a : α} (h : Keeps s₀ s) : Keeps s₀ (s, a).1 := h
theorem snd_mk {α : Type} {s₀ s : State} {a : α} (h : Keeps s₀ s) : Keeps s₀ (a, s).2 := h
theorem of_fst {α : Type} {s₀ s : State} {a : α} {p : State × α} (e : p = (s, a)) (h : Keeps s₀ p.1) : Keeps s₀ s := by
  rw [e] at h; exact h
theorem of_snd {α : Type} {s₀ s : State} {a : α} {p : α × State} (e : p = (a, s)) (h : Keeps s₀ p.2) : Keeps s₀ s := by
  rw [e] at h; exact h
theorem of_third {α β : Type} {s₀ s : State} {a : α} {b : β} {p : α × β × State} (e : p = (a, b, s)) (h : Keeps s₀ p.2.2) : Keeps s₀ s := by
  rw [e] at h; exact h

theorem foldl {α : Type} {s₀ : State} {f : State → α → State} (hf : ∀ s x, Keeps s₀ s → Keeps s₀ (f s x)) :
    ∀ {xs : List α} {s : State}, Keeps s₀ s → Keeps s₀ (xs.foldl f s)
  | [], _, h => h
  | x :: xs, s, h => foldl (xs := xs) (s := f s x) hf (hf s x h)
theorem foldl₁ {α β : Type} {s₀ : State} {f : State × β → α → State × β} (hf : ∀ r x, Keeps s₀ r.1 → Keeps s₀ (f r x).1) :
    ∀ {xs : List α} {r : State × β}, Keeps s₀ r.1 → Keeps s₀ (xs.foldl f r).1
  | [], _, h => h
  | x :: xs, r, h => foldl₁ (xs := xs) (r := f r x) hf (hf r x h)

end Keeps

/-- A parameter is written. -/
theorem State.wr_keeps {s₀ s : State} {k : Nat} {v : Word} (h : Keeps s₀ s) : Keeps s₀ (s.wr k v) :=
  h.trans ⟨rfl, fun x => Sparse.wf_set (d := Params.reset) x k v, id, id⟩

end Sys2Proof.Machine
end

