-- ==== Sys2Proof/Laws/KeepsBase.lean ====
section
/-! SUPPORT. What the operations and the commands of a group keep (see Keeps): what a command and an item do to the state. -/

set_option linter.all false

namespace Sys2Proof.Machine

/-! ### Ops -/

theorem State.wrN_keeps {s₀ s : State} {k n : Nat} (h0 : Keeps s₀ s) : Keeps s₀ (State.wrN s k n) := by
  unfold State.wrN
  exact State.wr_keeps h0
theorem State.wrI_keeps {s₀ s : State} {k : Nat} {i : Int} (h0 : Keeps s₀ s) : Keeps s₀ (State.wrI s k i) := by
  unfold State.wrI
  exact State.wr_keeps h0
theorem State.wr64_keeps {s₀ s : State} {k n : Nat} (h0 : Keeps s₀ s) : Keeps s₀ (State.wr64 s k n) := by
  unfold State.wr64
  exact State.wr_keeps (State.wr_keeps h0)
theorem State.addSat_keeps {s₀ s : State} {k n : Nat} (h0 : Keeps s₀ s) : Keeps s₀ (State.addSat s k n) := by
  unfold State.addSat
  exact State.wr_keeps h0
theorem State.addWrap_keeps {s₀ s : State} {k n : Nat} (h0 : Keeps s₀ s) : Keeps s₀ (State.addWrap s k n) := by
  unfold State.addWrap
  exact State.wrN_keeps h0
theorem State.at__keeps {s₀ s : State} {t : Nat} (h0 : Keeps s₀ s) : Keeps s₀ (State.at_ s t) := by
  unfold State.at_
  exact Keeps.upd (s := s) h0 rfl rfl rfl rfl
theorem State.takeFree_keeps {s₀ s : State} (h0 : Keeps s₀ s) : Keeps s₀ (State.takeFree s).2 := by
  unfold State.takeFree
  exact Keeps.snd_mk (Keeps.upd (s := s) h0 rfl rfl rfl rfl)
theorem State.logEvent_keeps {s₀ s : State} {code unit severity data0 data1 : Nat} (h0 : Keeps s₀ s) :
    Keeps s₀ (State.logEvent s code unit severity data0 data1) := by
  unfold State.logEvent
  exact Keeps.upd (s := s) h0 rfl rfl rfl rfl
theorem State.countIn_keeps {s₀ s : State} {die cls inst n : Nat} (h0 : Keeps s₀ s) : Keeps s₀ (State.countIn s die cls inst n) := by
  unfold State.countIn
  extract_lets +onlyGivenNames x0
  exact Keeps.upd (s := s) h0 rfl rfl rfl rfl
theorem State.count_keeps {s₀ s : State} {cls inst : Nat} (h0 : Keeps s₀ s) : Keeps s₀ (State.count s cls inst) := by
  unfold State.count
  exact State.countIn_keeps (State.countIn_keeps h0)
theorem State.setDie_keeps {s₀ s : State} {d : Nat} {x : DieState} (h0 : Keeps s₀ s) : Keeps s₀ (State.setDie s d x) := by
  unfold State.setDie
  exact Keeps.upd (s := s) h0 rfl rfl rfl rfl

/-! ### Flags -/

theorem State.setBit_keeps {s₀ s : State} {k i : Nat} (h0 : Keeps s₀ s) : Keeps s₀ (State.setBit s k i) := by
  unfold State.setBit
  extract_lets +onlyGivenNames x0
  exact State.wrN_keeps (Keeps.upd (s := s) h0 rfl rfl rfl rfl)
theorem State.clrBits_keeps {s₀ s : State} {k mask : Nat} (h0 : Keeps s₀ s) : Keeps s₀ (State.clrBits s k mask) := by
  unfold State.clrBits
  exact State.wrN_keeps h0
theorem State.putBit_keeps {s₀ s : State} {k i : Nat} {b : Bool} (h0 : Keeps s₀ s) : Keeps s₀ (State.putBit s k i b) := by
  unfold State.putBit
  exact Keeps.ite (State.setBit_keeps h0) (State.clrBits_keeps h0)
theorem State.writeW1c_keeps {s₀ s : State} {k mask : Nat} {v : Word} (h0 : Keeps s₀ s) : Keeps s₀ (State.writeW1c s k mask v) := by
  unfold State.writeW1c
  exact State.clrBits_keeps h0

/-! ### Memory -/

theorem State.setMemDie_keeps {s₀ s : State} {d : Nat} {x : DieMemory} (h0 : Keeps s₀ s) : Keeps s₀ (State.setMemDie s d x) := by
  unfold State.setMemDie
  exact Keeps.upd (s := s) h0 rfl rfl rfl rfl
theorem State.setLineError_keeps {s₀ s : State} {d line : Nat} {e : LineError} (h0 : Keeps s₀ s) : Keeps s₀ (State.setLineError s d line e) := by
  unfold State.setLineError
  exact State.setMemDie_keeps h0
theorem State.setWordError_keeps {s₀ s : State} {d w : Nat} {e : WordError} (h0 : Keeps s₀ s) : Keeps s₀ (State.setWordError s d w e) := by
  unfold State.setWordError
  exact State.setMemDie_keeps h0
theorem State.flipLine_keeps {s₀ s : State} {d line : Nat} {xs : List (Nat × Byte)} (h0 : Keeps s₀ s) : Keeps s₀ (State.flipLine s d line xs) := by
  unfold State.flipLine
  extract_lets +onlyGivenNames x0
  extract_lets +onlyGivenNames x1
  exact State.setMemDie_keeps h0
theorem State.flipWord_keeps {s₀ s : State} {d w : Nat} {v : W64} (h0 : Keeps s₀ s) : Keeps s₀ (State.flipWord s d w v) := by
  unfold State.flipWord
  extract_lets +onlyGivenNames x0
  exact State.setMemDie_keeps h0
theorem State.poisonLine_keeps {s₀ s : State} {d line : Nat} (h0 : Keeps s₀ s) : Keeps s₀ (State.poisonLine s d line) := by
  unfold State.poisonLine
  exact Keeps.ite (State.setLineError_keeps (State.flipLine_keeps h0)) h0
theorem State.poisonWord_keeps {s₀ s : State} {d w : Nat} (h0 : Keeps s₀ s) : Keeps s₀ (State.poisonWord s d w) := by
  unfold State.poisonWord
  exact Keeps.ite (State.setWordError_keeps (State.flipWord_keeps h0)) h0
theorem State.noteLine_keeps {s₀ s : State} {d line : Nat} (h0 : Keeps s₀ s) : Keeps s₀ (State.noteLine s d line) := by
  unfold State.noteLine
  extract_lets +onlyGivenNames x0
  have h1 : Keeps s₀ x0 := by
    unfold x0
    exact State.countIn_keeps h0
  clear_value x0
  extract_lets +onlyGivenNames x2
  refine Keeps.ite ?_ ?_
  · extract_lets +onlyGivenNames x3
    have h4 : Keeps s₀ x3 := by
      unfold x3
      exact State.addSat_keeps h1
    clear_value x3
    extract_lets +onlyGivenNames x5
    extract_lets +onlyGivenNames x6
    have h7 : Keeps s₀ x6 := by
      unfold x6
      exact State.setDie_keeps h4
    clear_value x6
    refine Keeps.foldl ?_ ?_
    · intro a8 y9 h10
      exact State.countIn_keeps h10
    · exact h7
  · exact Keeps.ite h1 (State.addSat_keeps h1)
theorem State.noteWord_keeps {s₀ s : State} {d w : Nat} (h0 : Keeps s₀ s) : Keeps s₀ (State.noteWord s d w) := by
  unfold State.noteWord
  extract_lets +onlyGivenNames x0
  refine Keeps.ite ?_ ?_
  · extract_lets +onlyGivenNames x1
    have h2 : Keeps s₀ x1 := by
      unfold x1
      exact State.addSat_keeps h0
    clear_value x1
    extract_lets +onlyGivenNames x3
    extract_lets +onlyGivenNames x4
    have h5 : Keeps s₀ x4 := by
      unfold x4
      exact State.setDie_keeps h2
    clear_value x4
    exact State.countIn_keeps h5
  · exact Keeps.ite h0 (State.addSat_keeps h0)
theorem State.badLine_keeps {s₀ s : State} {d line req : Nat} (h0 : Keeps s₀ s) : Keeps s₀ (State.badLine s d line req) := by
  unfold State.badLine
  extract_lets +onlyGivenNames x0
  refine Keeps.ite ?_ ?_
  · exact h0
  · extract_lets +onlyGivenNames x1
    have h2 : Keeps s₀ x1 := by
      unfold x1
      exact State.poisonLine_keeps h0
    clear_value x1
    extract_lets +onlyGivenNames x3
    have h4 : Keeps s₀ x3 := by
      unfold x3
      exact State.logEvent_keeps h2
    clear_value x3
    exact State.setDie_keeps h4
theorem State.badWord_keeps {s₀ s : State} {d w req : Nat} (h0 : Keeps s₀ s) : Keeps s₀ (State.badWord s d w req) := by
  unfold State.badWord
  extract_lets +onlyGivenNames x0
  refine Keeps.ite ?_ ?_
  · exact h0
  · extract_lets +onlyGivenNames x1
    have h2 : Keeps s₀ x1 := by
      unfold x1
      exact State.poisonWord_keeps h0
    clear_value x1
    extract_lets +onlyGivenNames x3
    have h4 : Keeps s₀ x3 := by
      unfold x3
      exact State.logEvent_keeps h2
    clear_value x3
    exact State.setDie_keeps h4
theorem State.readLine_keeps {s₀ s : State} {d line req : Nat} (h0 : Keeps s₀ s) : Keeps s₀ (State.readLine s d line req) := by
  unfold State.readLine
  exact State.badLine_keeps (State.noteLine_keeps h0)
theorem State.readWord_keeps {s₀ s : State} {d w req : Nat} (h0 : Keeps s₀ s) : Keeps s₀ (State.readWord s d w req) := by
  unfold State.readWord
  exact State.badWord_keeps (State.noteWord_keeps h0)
theorem State.readLineBoth_keeps {s₀ s : State} {line req : Nat} (h0 : Keeps s₀ s) : Keeps s₀ (State.readLineBoth s line req) := by
  unfold State.readLineBoth
  exact State.readLine_keeps (State.readLine_keeps h0)
theorem State.readWordBoth_keeps {s₀ s : State} {w req : Nat} (h0 : Keeps s₀ s) : Keeps s₀ (State.readWordBoth s w req) := by
  unfold State.readWordBoth
  exact State.readWord_keeps (State.readWord_keeps h0)
theorem State.alikeLines_keeps {s₀ s : State} {a n : Nat} (h0 : Keeps s₀ s) : Keeps s₀ (State.alikeLines s a n) := by
  unfold State.alikeLines
  extract_lets +onlyGivenNames x0
  exact Keeps.upd (s := s) h0 rfl rfl rfl rfl
theorem State.alikeWords_keeps {s₀ s : State} {w n : Nat} (h0 : Keeps s₀ s) : Keeps s₀ (State.alikeWords s w n) := by
  unfold State.alikeWords
  extract_lets +onlyGivenNames x0
  exact Keeps.upd (s := s) h0 rfl rfl rfl rfl
theorem State.writeLines_keeps {s₀ s : State} {line n : Nat} {bs : List Byte} (h : Keeps s₀ s) : Keeps s₀ (s.writeLines line n bs) := by
  unfold State.writeLines
  refine Keeps.foldl (fun s x h => State.setLineError_keeps (State.setLineError_keeps h)) ?_
  exact State.countIn_keeps (State.countIn_keeps (State.alikeLines_keeps (Keeps.updMem h rfl rfl (writeBytes_wf _ _ _) id)))
theorem State.writeWords_keeps {s₀ s : State} {w n : Nat} {bs : List Byte} (h : Keeps s₀ s) : Keeps s₀ (s.writeWords w n bs) := by
  unfold State.writeWords
  refine Keeps.foldl (fun s x h => State.setWordError_keeps (State.setWordError_keeps h)) ?_
  exact State.alikeWords_keeps (Keeps.updMem h rfl rfl id (writeBytes_wf _ _ _))
theorem State.writeBackLine_keeps {s₀ s : State} {d line : Nat} (h0 : Keeps s₀ s) : Keeps s₀ (State.writeBackLine s d line) := by
  unfold State.writeBackLine
  extract_lets +onlyGivenNames x0
  exact State.setLineError_keeps (State.flipLine_keeps h0)
theorem State.writeBackWord_keeps {s₀ s : State} {d w : Nat} (h0 : Keeps s₀ s) : Keeps s₀ (State.writeBackWord s d w) := by
  unfold State.writeBackWord
  exact State.setWordError_keeps (State.flipWord_keeps h0)
theorem State.partialLine_keeps {s₀ s : State} {d line req : Nat} (h0 : Keeps s₀ s) : Keeps s₀ (State.partialLine s d line req) := by
  unfold State.partialLine
  extract_lets +onlyGivenNames x0
  have h1 : Keeps s₀ x0 := by
    unfold x0
    exact State.noteLine_keeps h0
  clear_value x0
  exact Keeps.ite (State.writeBackLine_keeps h1) (State.addSat_keeps (State.badLine_keeps h1))
theorem State.partialWord_keeps {s₀ s : State} {d w req : Nat} (h0 : Keeps s₀ s) : Keeps s₀ (State.partialWord s d w req) := by
  unfold State.partialWord
  extract_lets +onlyGivenNames x0
  have h1 : Keeps s₀ x0 := by
    unfold x0
    exact State.noteWord_keeps h0
  clear_value x0
  exact Keeps.ite (State.writeBackWord_keeps h1) (State.addSat_keeps (State.badWord_keeps h1))
theorem State.keepBytes_keeps {s₀ s old : State} {a : Nat} {bs : List Byte} {d : Nat} (h0 : Keeps s₀ s) : Keeps s₀ (State.keepBytes s old a bs d) := by
  unfold State.keepBytes
  extract_lets +onlyGivenNames x0
  extract_lets +onlyGivenNames x1
  exact State.setMemDie_keeps h0
theorem State.writePart_keeps {s₀ s : State} {a : Nat} {bs : List Byte} {req : Nat} (h : Keeps s₀ s) : Keeps s₀ (s.writePart a bs req) := by
  unfold State.writePart
  extract_lets t u m v
  have ht : Keeps s₀ t := State.partialLine_keeps (State.partialLine_keeps h)
  clear_value t
  have hu : Keeps s₀ u := State.countIn_keeps (State.countIn_keeps ht)
  clear_value u
  have hv : Keeps s₀ v := Keeps.updMem (s := u) hu rfl rfl (writeBytes_wf _ _ _) id
  clear_value v
  exact State.keepBytes_keeps (State.keepBytes_keeps hv)
theorem State.setTest_keeps {s₀ s : State} {x : SramTest} (h0 : Keeps s₀ s) : Keeps s₀ (State.setTest s x) := by
  unfold State.setTest
  exact Keeps.upd (s := s) h0 rfl rfl rfl rfl
theorem State.forceReturn_keeps {s₀ s : State} (h0 : Keeps s₀ s) : Keeps s₀ (State.forceReturn s) := by
  unfold State.forceReturn
  exact Keeps.ite (State.setTest_keeps h0) h0
theorem State.touch_keeps {s₀ s : State} {w : Nat} {write : Bool} (h0 : Keeps s₀ s) : Keeps s₀ (State.touch s w write) := by
  unfold State.touch
  extract_lets +onlyGivenNames x0
  exact Keeps.ite (State.setTest_keeps h0) (Keeps.ite (State.forceReturn_keeps h0) h0)
theorem State.await_keeps {s₀ s : State} {x : SramWait} (h0 : Keeps s₀ s) : Keeps s₀ (State.await s x) := by
  unfold State.await
  extract_lets +onlyGivenNames x0
  extract_lets +onlyGivenNames x1
  exact State.setTest_keeps h0
theorem State.touchSpan_keeps {s₀ s : State} {master w n : Nat} {write : Bool} (h0 : Keeps s₀ s) : Keeps s₀ (State.touchSpan s master w n write) := by
  unfold State.touchSpan
  refine Keeps.foldl ?_ ?_
  · intro a0 y1 h2
    extract_lets +onlyGivenNames x3
    have h4 : Keeps s₀ x3 := by
      unfold x3
      exact State.touch_keeps h2
    clear_value x3
    exact Keeps.ite (State.await_keeps h4) h4
  · exact h0
theorem State.setStore_keeps {s₀ s : State} {id : Nat} {x : Store} (h0 : Keeps s₀ s) : Keeps s₀ (State.setStore s id x) := by
  unfold State.setStore
  exact Keeps.upd (s := s) h0 rfl rfl rfl rfl
theorem State.markDamaged_keeps {s₀ s : State} {d id kind run seq : Nat} (h0 : Keeps s₀ s) : Keeps s₀ (State.markDamaged s d id kind run seq) := by
  unfold State.markDamaged
  extract_lets +onlyGivenNames x0
  extract_lets +onlyGivenNames x1
  refine Keeps.ite ?_ ?_
  · extract_lets +onlyGivenNames x2
    have h3 : Keeps s₀ x2 := by
      unfold x2
      exact State.setStore_keeps h0
    clear_value x2
    exact Keeps.ite (State.setBit_keeps (State.addSat_keeps h3)) h3
  · exact h0
theorem State.acknowledge_keeps {s₀ s : State} {id kind run seq : Nat} (h0 : Keeps s₀ s) : Keeps s₀ (State.acknowledge s id kind run seq) := by
  unfold State.acknowledge
  extract_lets +onlyGivenNames x0
  exact State.setStore_keeps h0
theorem State.readSpan_keeps {s₀ s : State} {id a n req : Nat} (h0 : Keeps s₀ s) : Keeps s₀ (State.readSpan s id a n req) := by
  unfold State.readSpan
  refine Keeps.ite ?_ ?_
  · refine Keeps.foldl ?_ ?_
    · intro a0 y1 h2
      exact State.readWordBoth_keeps h2
    · exact State.touchSpan_keeps h0
  · refine Keeps.foldl ?_ ?_
    · intro a3 y4 h5
      exact State.readLineBoth_keeps h5
    · exact h0

/-! ### Records -/

theorem State.addGap_keeps {s₀ s : State} {kind reason seq firstT lastT : Nat} (h0 : Keeps s₀ s) :
    Keeps s₀ (State.addGap s kind reason seq firstT lastT) := by
  unfold State.addGap
  extract_lets +onlyGivenNames x0
  have h1 : Keeps s₀ x0 := by
    unfold x0
    exact State.addSat_keeps h0
  clear_value x0
  extract_lets +onlyGivenNames x2
  split
  · rename_i v3 v4 v5
    exact Keeps.ite (Keeps.upd (s := x0) h1 rfl rfl rfl rfl) (Keeps.ite (Keeps.upd (s := x0) h1 rfl rfl rfl rfl) (State.setBit_keeps h1))
  · rename_i v6 v7
    exact Keeps.upd (s := x0) h1 rfl rfl rfl rfl
theorem State.pushInto_keeps {s₀ s : State} {d : Descriptor} (h0 : Keeps s₀ s) : Keeps s₀ (State.pushInto s d) := by
  unfold State.pushInto
  extract_lets +onlyGivenNames x0
  extract_lets +onlyGivenNames x1
  exact State.count_keeps (Keeps.upd (s := s) h0 rfl rfl rfl rfl)
theorem State.pushOne_keeps {s₀ s : State} {d : Descriptor} (h0 : Keeps s₀ s) : Keeps s₀ (State.pushOne s d) := by
  unfold State.pushOne
  extract_lets +onlyGivenNames x0
  have h1 : Keeps s₀ x0 := by
    unfold x0
    exact Keeps.upd (s := s) h0 rfl rfl rfl rfl
  clear_value x0
  refine Keeps.ite ?_ ?_
  · exact State.pushInto_keeps h1
  · extract_lets +onlyGivenNames x2
    exact State.setBit_keeps (Keeps.upd (s := x0) h1 rfl rfl rfl rfl)
theorem State.pushAll_keeps {s₀ s : State} {ds : List Descriptor} (h0 : Keeps s₀ s) : Keeps s₀ (State.pushAll s ds) := by
  unfold State.pushAll
  refine Keeps.foldl ?_ ?_
  · intro a0 y1 h2
    exact State.pushOne_keeps h2
  · exact h0
theorem State.consumeSeq_keeps {s₀ s : State} {kind : Nat} (h0 : Keeps s₀ s) : Keeps s₀ (State.consumeSeq s kind) := by
  unfold State.consumeSeq
  extract_lets +onlyGivenNames x0
  extract_lets +onlyGivenNames x1
  extract_lets +onlyGivenNames x2
  have h3 : Keeps s₀ x2 := by
    unfold x2
    exact State.wrN_keeps h0
  clear_value x2
  extract_lets +onlyGivenNames x4
  have h5 : Keeps s₀ x4 := by
    unfold x4
    exact Keeps.ite (State.setBit_keeps h3) h3
  clear_value x4
  extract_lets +onlyGivenNames x6
  have h7 : Keeps s₀ x6 := by
    unfold x6
    exact Keeps.ite (State.setBit_keeps h5) h5
  clear_value x6
  extract_lets +onlyGivenNames x8
  have h9 : Keeps s₀ x8 := by
    unfold x8
    exact State.setBit_keeps (State.addWrap_keeps h7)
  clear_value x8
  exact State.count_keeps h9
theorem State.dropGaps_keeps {s₀ s : State} {kind : Nat} (h0 : Keeps s₀ s) : Keeps s₀ (State.dropGaps s kind) := by
  unfold State.dropGaps
  exact Keeps.upd (s := s) h0 rfl rfl rfl rfl
theorem State.writeRecord_keeps {s₀ s : State} {id line lines : Nat} {bs : List Byte} (h0 : Keeps s₀ s) :
    Keeps s₀ (State.writeRecord s id line lines bs) := by
  unfold State.writeRecord
  exact Keeps.ite (State.writeWords_keeps (State.touchSpan_keeps h0)) (State.writeLines_keeps h0)
theorem State.storeRecord_keeps {s₀ s : State} {r : Record} {dir : Nat} {marks : Two Bool} (h0 : Keeps s₀ s) :
    Keeps s₀ (State.storeRecord s r dir marks) := by
  unfold State.storeRecord
  extract_lets +onlyGivenNames x0
  extract_lets +onlyGivenNames x1
  extract_lets +onlyGivenNames x2
  split
  · rename_i v3 v4 v5 v6
    extract_lets +onlyGivenNames x7
    extract_lets +onlyGivenNames x8
    have h9 : Keeps s₀ x8 := by
      unfold x8
      exact State.setStore_keeps (State.dropGaps_keeps h0)
    clear_value x8
    extract_lets +onlyGivenNames x10
    have h11 : Keeps s₀ x10 := by
      unfold x10
      exact State.writeRecord_keeps h9
    clear_value x10
    extract_lets +onlyGivenNames x12
    have h13 : Keeps s₀ x12 := by
      unfold x12
      exact Keeps.ite (State.markDamaged_keeps h11) h11
    clear_value x12
    extract_lets +onlyGivenNames x14
    have h15 : Keeps s₀ x14 := by
      unfold x14
      exact Keeps.ite (State.markDamaged_keeps h13) h13
    clear_value x14
    exact State.pushAll_keeps h15
  · rename_i v16 v17 v18
    extract_lets +onlyGivenNames x19
    have h20 : Keeps s₀ x19 := by
      unfold x19
      exact State.setStore_keeps h0
    clear_value x19
    extract_lets +onlyGivenNames x21
    have h22 : Keeps s₀ x21 := by
      unfold x21
      exact State.setBit_keeps (State.addSat_keeps h20)
    clear_value x21
    exact State.addGap_keeps h22
theorem State.clearWork_keeps {s₀ s : State} {kind : Nat} (h0 : Keeps s₀ s) : Keeps s₀ (State.clearWork s kind) := by
  unfold State.clearWork
  exact Keeps.upd (s := s) h0 rfl rfl rfl rfl
theorem State.build_keeps {s₀ s : State} {d : Draft} (h0 : Keeps s₀ s) : Keeps s₀ (State.build s d) := by
  unfold State.build
  extract_lets +onlyGivenNames x0
  exact State.storeRecord_keeps (State.clearWork_keeps (State.consumeSeq_keeps h0))
theorem State.closeStp_keeps {s₀ s : State} (h0 : Keeps s₀ s) : Keeps s₀ (State.closeStp s) := by
  unfold State.closeStp
  split
  · rename_i v0 v1
    exact h0
  · rename_i v2 v3 v4
    exact State.build_keeps (Keeps.upd (s := s) h0 rfl rfl rfl rfl)
theorem State.closeItv_keeps {s₀ s : State} (h0 : Keeps s₀ s) : Keeps s₀ (State.closeItv s) := by
  unfold State.closeItv
  split
  · rename_i v0 v1
    exact h0
  · rename_i v2 v3 v4
    exact State.build_keeps (Keeps.upd (s := s) h0 rfl rfl rfl rfl)
theorem State.closeAlm_keeps {s₀ s : State} (h0 : Keeps s₀ s) : Keeps s₀ (State.closeAlm s) := by
  unfold State.closeAlm
  split
  · rename_i v0 v1
    exact h0
  · rename_i v2 v3 v4
    exact State.build_keeps (Keeps.upd (s := s) h0 rfl rfl rfl rfl)
theorem State.addStp_keeps {s₀ s : State} {w : W64} {t : Nat} (h0 : Keeps s₀ s) : Keeps s₀ (State.addStp s w t) := by
  unfold State.addStp
  extract_lets +onlyGivenNames x0
  extract_lets +onlyGivenNames x1
  extract_lets +onlyGivenNames x2
  have h3 : Keeps s₀ x2 := by
    unfold x2
    exact Keeps.upd (s := s) h0 rfl rfl rfl rfl
  clear_value x2
  exact Keeps.ite (State.closeStp_keeps h3) h3
theorem State.addItv_keeps {s₀ s : State} {ws : List W64} {t : Nat} (h0 : Keeps s₀ s) : Keeps s₀ (State.addItv s ws t) := by
  unfold State.addItv
  extract_lets +onlyGivenNames x0
  extract_lets +onlyGivenNames x1
  extract_lets +onlyGivenNames x2
  have h3 : Keeps s₀ x2 := by
    unfold x2
    exact Keeps.upd (s := s) h0 rfl rfl rfl rfl
  clear_value x2
  exact Keeps.ite (State.closeItv_keeps h3) h3
theorem State.addAlm_keeps {s₀ s : State} {slot : Nat} {ws : List W64} {t : Nat} (h0 : Keeps s₀ s) : Keeps s₀ (State.addAlm s slot ws t) := by
  unfold State.addAlm
  extract_lets +onlyGivenNames x0
  have h1 : Keeps s₀ x0 := by
    unfold x0
    split
    · rename_i v2 v3 v4
      exact Keeps.ite h0 (State.closeAlm_keeps h0)
    · rename_i v5 v6
      exact h0
  clear_value x0
  exact Keeps.upd (s := x0) h1 rfl rfl rfl rfl

/-! ### Commands -/

theorem State.sendReply_keeps {s₀ s : State} {r : Reply} (h0 : Keeps s₀ s) : Keeps s₀ (State.sendReply s r) := by
  unfold State.sendReply
  extract_lets +onlyGivenNames x0
  extract_lets +onlyGivenNames x1
  have h2 : Keeps s₀ x1 := by
    unfold x1
    exact Keeps.upd (s := s) h0 rfl rfl rfl rfl
  clear_value x1
  extract_lets +onlyGivenNames x3
  have h4 : Keeps s₀ x3 := by
    unfold x3
    exact Keeps.ite (State.addSat_keeps h2) h2
  clear_value x3
  exact State.build_keeps h4
theorem State.finish_keeps {s₀ s : State} {code : Nat} {h : Hdr} {status : Nat} {data : List Word} (h0 : Keeps s₀ s) :
    Keeps s₀ (State.finish s code h status data) := by
  unfold State.finish
  extract_lets +onlyGivenNames x0
  extract_lets +onlyGivenNames x1
  extract_lets +onlyGivenNames x2
  extract_lets +onlyGivenNames x3
  exact State.sendReply_keeps (Keeps.upd (s := s) h0 rfl rfl rfl rfl)
theorem State.hold_keeps {s₀ s : State} {code : Nat} {h : Hdr} {p : List Word} {due : Option Nat} {last : Option Reply} (h0 : Keeps s₀ s) :
    Keeps s₀ (State.hold s code h p due last) := by
  unfold State.hold
  exact Keeps.upd (s := s) h0 rfl rfl rfl rfl
theorem State.accept_keeps {s₀ s : State} {code : Nat} {h : Hdr} {p : List Word} {due : Option Nat} (h0 : Keeps s₀ s) :
    Keeps s₀ (State.accept s code h p due) := by
  unfold State.accept
  extract_lets +onlyGivenNames x0
  exact State.sendReply_keeps (State.hold_keeps h0)
theorem State.noteRefusal_keeps {s₀ s : State} {code : Nat} {h : Hdr} {st : Nat} (h0 : Keeps s₀ s) : Keeps s₀ (State.noteRefusal s code h st) := by
  unfold State.noteRefusal
  exact Keeps.ite (State.setBit_keeps h0) (Keeps.ite (State.setBit_keeps h0) (Keeps.ite (State.logEvent_keeps h0) h0))
theorem State.noteLast_keeps {s₀ s : State} {h : Hdr} {r : Reply} (h0 : Keeps s₀ s) : Keeps s₀ (State.noteLast s h r) := by
  unfold State.noteLast
  exact Keeps.upd (s := s) h0 rfl rfl rfl rfl
theorem State.refuseOther_keeps {s₀ s : State} {code : Nat} {h : Hdr} (h0 : Keeps s₀ s) : Keeps s₀ (State.refuseOther s code h) := by
  unfold State.refuseOther
  extract_lets +onlyGivenNames x0
  extract_lets +onlyGivenNames x1
  exact State.sendReply_keeps (Keeps.upd (s := s) h0 rfl rfl rfl rfl)
theorem State.duplicate_keeps {s₀ s t : State} {code : Nat} {h : Hdr} (h₁ : Keeps s₀ s) (h₂ : s.duplicate code h = some t) : Keeps s₀ t := by
  unfold State.duplicate at h₂
  extract_lets again at h₂
  clear_value again
  have e : ∀ {u v : State}, some u = some v → Keeps s₀ u → Keeps s₀ v := fun p q => Option.some.inj p ▸ q
  split at h₂
  · split at h₂
    · exact e h₂ (State.sendReply_keeps (State.noteLast_keeps h₁))
    · split at h₂
      · exact e h₂ (State.sendReply_keeps h₁)
      · exact e h₂ (State.refuseOther_keeps h₁)
  · exact e h₂ (State.sendReply_keeps h₁)
  · split at h₂
    · cases h₂
    · exact e h₂ (State.refuseOther_keeps h₁)
theorem State.answer_keeps {s₀ s : State} {code : Nat} {h : Hdr} {p : List Word} {u4 : Answer} (h0 : Keeps s₀ s) :
    Keeps s₀ (State.answer s code h p u4) := by
  unfold State.answer
  split
  · rename_i v0 v1 v2
    exact State.finish_keeps h0
  · rename_i v3 v4
    exact State.accept_keeps h0
  · rename_i v5 v6
    exact State.hold_keeps h0
  · rename_i v7
    exact h0
theorem State.receive_keeps {s₀ s : State} {code : Nat} {h : Hdr} {p : List Word} {body : State → State × Answer} (h₁ : Keeps s₀ s)
    (h₂ : ∀ t, Keeps s₀ t → Keeps s₀ (body t).1) : Keeps s₀ (s.receive code h p body) := by
  unfold State.receive
  extract_lets x
  have hx : Keeps s₀ x := State.at__keeps h₁
  clear_value x
  refine Keeps.ite hx ?_
  split
  · exact State.duplicate_keeps hx ‹_›
  · split
    · exact State.finish_keeps (State.noteRefusal_keeps hx)
    · exact State.answer_keeps (h₂ x hx)
theorem refuse_keeps {s₀ s : State} {status : Nat} {data : optParam (List Word) []} (h0 : Keeps s₀ s) : Keeps s₀ (refuse s status data).1 := by
  unfold refuse
  exact h0
theorem okay_keeps {s₀ s : State} {data : optParam (List Word) []} (h0 : Keeps s₀ s) : Keeps s₀ (okay s data).1 := by
  unfold okay
  exact h0

/-! ### Blocks -/

theorem State.setLane_keeps {s₀ s : State} {l : Nat} {x : Lane} (h0 : Keeps s₀ s) : Keeps s₀ (State.setLane s l x) := by
  unfold State.setLane
  exact Keeps.upd (s := s) h0 rfl rfl rfl rfl
theorem State.setLanePort_keeps {s₀ s : State} {p : Nat} {x : LanePort} (h0 : Keeps s₀ s) : Keeps s₀ (State.setLanePort s p x) := by
  unfold State.setLanePort
  exact Keeps.upd (s := s) h0 rfl rfl rfl rfl
theorem State.queueBlocks_keeps {s₀ s : State} {p : Nat} {ahead : Bool} {bs : List LineBlock} (h0 : Keeps s₀ s) :
    Keeps s₀ (State.queueBlocks s p ahead bs) := by
  unfold State.queueBlocks
  extract_lets +onlyGivenNames x0
  exact Keeps.ite h0 (State.setLanePort_keeps h0)

/-! ### Output -/

theorem State.setPort_keeps {s₀ s : State} {p : Nat} {x : ClpPort} (h0 : Keeps s₀ s) : Keeps s₀ (State.setPort s p x) := by
  unfold State.setPort
  exact Keeps.upd (s := s) h0 rfl rfl rfl rfl
theorem State.enqueue_keeps {s₀ s : State} {p : Nat} {own : Bool} {f : Frame} (h0 : Keeps s₀ s) : Keeps s₀ (State.enqueue s p own f) := by
  unfold State.enqueue
  extract_lets +onlyGivenNames x0
  exact Keeps.ite (State.setPort_keeps h0) (State.setPort_keeps h0)
theorem State.setBar_keeps {s₀ s : State} {off d v : Nat} (h0 : Keeps s₀ s) : Keeps s₀ (State.setBar s off d v) := by
  unfold State.setBar
  exact Keeps.upd (s := s) h0 rfl rfl rfl rfl
theorem State.setRing_keeps {s₀ s : State} {r : Nat} {x : RingRuntime} (h0 : Keeps s₀ s) : Keeps s₀ (State.setRing s r x) := by
  unfold State.setRing
  exact Keeps.upd (s := s) h0 rfl rfl rfl rfl
theorem State.signal_keeps {s₀ s : State} {v : Nat} (h0 : Keeps s₀ s) : Keeps s₀ (State.signal s v) := by
  unfold State.signal
  exact Keeps.ite (Keeps.upd (s := s) h0 rfl rfl rfl rfl) h0
theorem State.prtStatus_keeps {s₀ s : State} {i : Nat} (h0 : Keeps s₀ s) : Keeps s₀ (State.prtStatus s i) := by
  unfold State.prtStatus
  exact State.signal_keeps (State.setBit_keeps h0)
theorem State.undelivered_keeps {s₀ s : State} (h0 : Keeps s₀ s) : Keeps s₀ (State.undelivered s) := by
  unfold State.undelivered
  exact State.prtStatus_keeps (State.addSat_keeps h0)
theorem State.offer_keeps {s₀ s : State} {d : Delivery} (h0 : Keeps s₀ s) : Keeps s₀ (State.offer s d) := by
  unfold State.offer
  refine Keeps.ite ?_ ?_
  · extract_lets +onlyGivenNames x0
    exact State.setRing_keeps h0
  · exact State.undelivered_keeps h0
theorem State.dieSends_keeps {s₀ s : State} {d : Nat} {x : HeldItem} (h0 : Keeps s₀ s) : Keeps s₀ (State.dieSends s d x) := by
  unfold State.dieSends
  extract_lets +onlyGivenNames x0
  extract_lets +onlyGivenNames x1
  refine Keeps.ite ?_ ?_
  · exact h0
  · extract_lets +onlyGivenNames x2
    split
    · rename_i v3 v4 v5
      extract_lets +onlyGivenNames x6
      extract_lets +onlyGivenNames x7
      have h8 : Keeps s₀ x7 := by
        unfold x7
        exact Keeps.upd (s := s) h0 rfl rfl rfl rfl
      clear_value x7
      extract_lets +onlyGivenNames x9
      extract_lets +onlyGivenNames x10
      have h11 : Keeps s₀ x10 := by
        unfold x10
        exact State.setDie_keeps h8
      clear_value x10
      exact State.setDie_keeps h11
    · rename_i v12 v13
      exact State.setDie_keeps h0
theorem State.emit_keeps {s₀ s : State} {item : OutItem} {flaws : optParam (Two Nat) { a := 0, b := 0 }} {unchecked : optParam Bool false} (h0 : Keeps s₀ s) :
    Keeps s₀ (State.emit s item flaws unchecked) := by
  unfold State.emit
  extract_lets +onlyGivenNames x0
  extract_lets +onlyGivenNames x1
  extract_lets +onlyGivenNames x2
  have h3 : Keeps s₀ x2 := by
    unfold x2
    exact Keeps.upd (s := s) h0 rfl rfl rfl rfl
  clear_value x2
  exact State.dieSends_keeps (State.dieSends_keeps h3)
theorem State.decide__keeps {s₀ s : State} {d : Delivery} {flaws : optParam (Two Nat) { a := 0, b := 0 }} (h0 : Keeps s₀ s) :
    Keeps s₀ (State.decide_ s d flaws) := by
  unfold State.decide_
  exact State.emit_keeps h0
theorem State.returned_keeps {s₀ s : State} {origin dest : Nat} {payload : List Byte} (h0 : Keeps s₀ s) :
    Keeps s₀ (State.returned s origin dest payload) := by
  unfold State.returned
  extract_lets +onlyGivenNames x0
  have h1 : Keeps s₀ x0 := by
    unfold x0
    exact State.prtStatus_keeps (State.addSat_keeps h0)
  clear_value x0
  exact Keeps.ite (State.decide__keeps h1) (State.undelivered_keeps h1)
theorem State.sendOn_keeps {s₀ s : State} {p : Nat} {own : Bool} {f : Frame} (h0 : Keeps s₀ s) : Keeps s₀ (State.sendOn s p own f) := by
  unfold State.sendOn
  refine Keeps.ite ?_ ?_
  · exact State.enqueue_keeps h0
  · refine Keeps.ite ?_ ?_
    · exact h0
    · refine Keeps.ite ?_ ?_
      · exact State.setBit_keeps (State.addSat_keeps h0)
      · exact Keeps.ite (State.returned_keeps h0) (Keeps.ite (State.enqueue_keeps h0) (State.addSat_keeps (State.enqueue_keeps h0)))
theorem State.release_keeps {s₀ s : State} {u1 : OutItem} (h0 : Keeps s₀ s) : Keeps s₀ (State.release s u1) := by
  unfold State.release
  split
  · rename_i v0 v1 v2
    exact State.sendOn_keeps h0
  · rename_i v3 v4
    exact State.offer_keeps h0
  · rename_i v5 v6 v7 v8 v9 v10
    exact h0
theorem State.emitFrame_keeps {s₀ s : State} {p : Nat} {f : Frame} (h0 : Keeps s₀ s) : Keeps s₀ (State.emitFrame s p f) := by
  unfold State.emitFrame
  exact Keeps.ite (State.emit_keeps h0) h0

/-! ### Sram -/

theorem State.trap_keeps {s₀ s : State} {d : Nat} {k : Trap} {a : Nat} (h0 : Keeps s₀ s) : Keeps s₀ (State.trap s d k a) := by
  unfold State.trap
  exact State.setMemDie_keeps (State.countIn_keeps h0)
theorem State.reloadPage_keeps {s₀ s : State} {d w : Nat} (h0 : Keeps s₀ s) : Keeps s₀ (State.reloadPage s d w) := by
  unfold State.reloadPage
  refine Keeps.ite ?_ ?_
  · extract_lets +onlyGivenNames x0
    exact State.setMemDie_keeps h0
  · exact h0
theorem State.readFailed_keeps {s₀ s : State} {d : Nat} {a : SramAccess} {w : Nat} (h0 : Keeps s₀ s) : Keeps s₀ (State.readFailed s d a w) := by
  unfold State.readFailed
  extract_lets +onlyGivenNames x0
  refine Keeps.ite ?_ ?_
  · exact State.reloadPage_keeps (State.trap_keeps h0)
  · exact Keeps.ite (State.trap_keeps h0) (Keeps.ite (State.addSat_keeps (State.setMemDie_keeps h0)) (Keeps.ite (State.setMemDie_keeps h0) h0))
theorem State.readFor_keeps {s₀ s : State} {d : Nat} {a : SramAccess} {w : Nat} (h0 : Keeps s₀ s) : Keeps s₀ (State.readFor s d a w) := by
  unfold State.readFor
  extract_lets +onlyGivenNames x0
  extract_lets +onlyGivenNames x1
  have h2 : Keeps s₀ x1 := by
    unfold x1
    exact State.readWord_keeps h0
  clear_value x1
  exact Keeps.ite (State.readFailed_keeps h2) h2
theorem State.setReturned_keeps {s₀ s : State} {m : Nat} {x : Two (Option W64)} (h0 : Keeps s₀ s) : Keeps s₀ (State.setReturned s m x) := by
  unfold State.setReturned
  exact Keeps.upd (s := s) h0 rfl rfl rfl rfl
theorem State.accessRead_keeps {s₀ s : State} {a : SramAccess} {w : Nat} (h0 : Keeps s₀ s) : Keeps s₀ (State.accessRead s a w) := by
  unfold State.accessRead
  extract_lets +onlyGivenNames x0
  refine State.setReturned_keeps ?_
  refine Keeps.foldl ?_ ?_
  · intro a1 y2 h3
    exact State.readFor_keeps (State.readFor_keeps h3)
  · exact h0
theorem State.accessWrite_keeps {s₀ s : State} {a : SramAccess} {w : Nat} (h0 : Keeps s₀ s) : Keeps s₀ (State.accessWrite s a w) := by
  unfold State.accessWrite
  refine Keeps.foldl₁ ?_ ?_
  · intro a0 y1 h2
    exact Keeps.fst_mk (State.writeWords_keeps h2)
  · exact h0
theorem State.storeWord_keeps {s₀ s : State} {w : Nat} {va vb : W64} (h : Keeps s₀ s) : Keeps s₀ (s.storeWord w va vb) := by
  unfold State.storeWord
  exact State.setMemDie_keeps (State.alikeWords_keeps (Keeps.updMem h rfl rfl id (writeBytes_wf _ _ _)))
theorem State.accessModify_keeps {s₀ s : State} {a : SramAccess} {w : Nat} (h0 : Keeps s₀ s) : Keeps s₀ (State.accessModify s a w) := by
  unfold State.accessModify
  extract_lets +onlyGivenNames x0
  extract_lets +onlyGivenNames x1
  extract_lets +onlyGivenNames x2
  have h3 : Keeps s₀ x2 := by
    unfold x2
    exact State.partialWord_keeps (State.partialWord_keeps h0)
  clear_value x2
  extract_lets +onlyGivenNames x4
  have h5 : Keeps s₀ x4 := by
    unfold x4
    exact State.storeWord_keeps h3
  clear_value x4
  exact Keeps.ite (State.setReturned_keeps h5) h5
theorem State.access_keeps {s₀ s : State} {a : SramAccess} {w : Nat} (h0 : Keeps s₀ s) : Keeps s₀ (State.access s a w) := by
  unfold State.access
  exact Keeps.ite (State.accessRead_keeps h0) (Keeps.ite (State.accessModify_keeps h0) (State.accessWrite_keeps h0))
theorem State.accessGran_keeps {s₀ s : State} {a : SramAccess} {g : Nat} (h0 : Keeps s₀ s) : Keeps s₀ (State.accessGran s a g) := by
  unfold State.accessGran
  extract_lets +onlyGivenNames x0
  extract_lets +onlyGivenNames x1
  refine Keeps.ite ?_ ?_
  · exact State.writePart_keeps h0
  · extract_lets +onlyGivenNames x2
    extract_lets +onlyGivenNames x3
    have h4 : Keeps s₀ x3 := by
      unfold x3
      exact State.setReturned_keeps (State.readLineBoth_keeps h0)
    clear_value x3
    extract_lets +onlyGivenNames x5
    have h6 : Keeps s₀ x5 := by
      unfold x5
      exact Keeps.ite (State.trap_keeps h4) h4
    clear_value x5
    exact Keeps.ite (State.trap_keeps h6) h6
theorem State.countWait_keeps {s₀ s : State} {x : SramWait} (h0 : Keeps s₀ s) : Keeps s₀ (State.countWait s x) := by
  unfold State.countWait
  exact State.addWrap_keeps (State.addWrap_keeps h0)
theorem State.serveOne_keeps {s₀ s : State} {run : State → SramWait → State} {c : Nat} {x : SramWait}
    (h₁ : ∀ t x, Keeps s₀ t → Keeps s₀ (run t x)) (h₂ : Keeps s₀ s) : Keeps s₀ (s.serveOne run c x) := by
  unfold State.serveOne
  exact h₁ _ _ (State.countWait_keeps (Keeps.upd (s := s) h₂ rfl rfl rfl rfl))
theorem State.heldByTest_keeps {s₀ s : State} {region c : Nat} (h0 : Keeps s₀ s) : Keeps s₀ (State.heldByTest s region c) := by
  unfold State.heldByTest
  extract_lets +onlyGivenNames x0
  extract_lets +onlyGivenNames x1
  exact Keeps.upd (s := s) h0 rfl rfl rfl rfl
theorem serveUntil_keeps {s₀ : State} {run : State → SramWait → State} {limit : Nat} (h₁ : ∀ t x, Keeps s₀ t → Keeps s₀ (run t x)) :
    ∀ {k : Nat} {s : State}, Keeps s₀ s → Keeps s₀ (serveUntil run limit k s)
  | 0, _, h => h
  | k + 1, s, h => by
    unfold serveUntil
    extract_lets x
    split
    · exact h
    · refine Keeps.ite h ?_
      split
      · exact h
      · exact serveUntil_keeps h₁ (Keeps.foldl (fun _ _ g => State.serveOne_keeps h₁ g) h)

/-! ### Portal -/

theorem State.setWindow_keeps {s₀ s : State} {w : DupWindow} (h0 : Keeps s₀ s) : Keeps s₀ (State.setWindow s w) := by
  unfold State.setWindow
  exact Keeps.upd (s := s) h0 rfl rfl rfl rfl
theorem State.judgeDuplicate_keeps {s₀ s : State} {node kind run seq : Nat} {refetch : Bool} (h0 : Keeps s₀ s) :
    Keeps s₀ (State.judgeDuplicate s node kind run seq refetch).2 := by
  unfold State.judgeDuplicate
  split
  · rename_i v0 v1
    exact Keeps.snd_mk (State.setWindow_keeps h0)
  · rename_i v2 v3 v4
    refine Keeps.ite₂ ?_ ?_
    · exact Keeps.ite₂ h0 (Keeps.snd_mk (State.setWindow_keeps h0))
    · extract_lets +onlyGivenNames x5
      exact Keeps.ite₂ (Keeps.snd_mk (State.setWindow_keeps h0)) h0
theorem State.storeTag_keeps {s₀ s : State} {t : MergeTag} (h : Keeps s₀ s) : Keeps s₀ (s.storeTag t) := by
  unfold State.storeTag
  exact Keeps.ite (State.access_keeps (State.access_keeps h)) (State.access_keeps (State.access_keeps h))
theorem State.setTag_keeps {s₀ s : State} {t : MergeTag} {lost : optParam Bool false} (h0 : Keeps s₀ s) : Keeps s₀ (State.setTag s t lost) := by
  unfold State.setTag
  extract_lets +onlyGivenNames x0
  extract_lets +onlyGivenNames x1
  have h2 : Keeps s₀ x1 := by
    unfold x1
    exact Keeps.upd (s := s) h0 rfl rfl rfl rfl
  clear_value x1
  exact Keeps.ite h2 (State.storeTag_keeps h2)
theorem State.readTag_keeps {s₀ s : State} {t : MergeTag} (h0 : Keeps s₀ s) : Keeps s₀ (State.readTag s t) := by
  unfold State.readTag
  refine Keeps.foldl ?_ ?_
  · intro a0 y1 h2
    exact State.readWordBoth_keeps h2
  · exact h0
theorem State.closeTag_keeps {s₀ s : State} {t : MergeTag} {reason : Nat} (h0 : Keeps s₀ s) : Keeps s₀ (State.closeTag s t reason) := by
  unfold State.closeTag
  extract_lets +onlyGivenNames x0
  have h1 : Keeps s₀ x0 := by
    unfold x0
    exact State.setTag_keeps h0
  clear_value x0
  extract_lets +onlyGivenNames x2
  have h3 : Keeps s₀ x2 := by
    unfold x2
    exact State.addWrap_keeps h1
  clear_value x2
  extract_lets +onlyGivenNames x4
  have h5 : Keeps s₀ x4 := by
    unfold x4
    exact Keeps.ite (State.prtStatus_keeps h3) h3
  clear_value x4
  exact Keeps.ite (State.decide__keeps h5) (State.undelivered_keeps h5)
theorem State.mergeFragment_keeps {s₀ s : State} {d : Delivery} {distance radius hopsW hopsE : Nat} {flaws : Two Nat} (h0 : Keeps s₀ s) :
    Keeps s₀ (State.mergeFragment s d distance radius hopsW hopsE flaws) := by
  unfold State.mergeFragment
  split
  · rename_i v0 v1 v2
    extract_lets +onlyGivenNames x3
    extract_lets +onlyGivenNames x4
    have h5 : Keeps s₀ x4 := by
      unfold x4
      exact State.readTag_keeps h0
    clear_value x4
    refine Keeps.ite ?_ ?_
    · extract_lets +onlyGivenNames x6
      have h7 : Keeps s₀ x6 := by
        unfold x6
        exact State.closeTag_keeps h5
      clear_value x6
      exact State.decide__keeps (State.prtStatus_keeps (State.addSat_keeps h7))
    · refine Keeps.ite ?_ ?_
      · exact State.decide__keeps (State.prtStatus_keeps (State.addSat_keeps h5))
      · extract_lets +onlyGivenNames x8
        extract_lets +onlyGivenNames x9
        have h10 : Keeps s₀ x9 := by
          unfold x9
          exact State.decide__keeps (State.setTag_keeps h5)
        clear_value x9
        exact Keeps.ite (State.closeTag_keeps h10) h10
  · rename_i v11 v12
    split
    · rename_i v13 v14
      exact State.decide__keeps (State.prtStatus_keeps (State.addSat_keeps h0))
    · rename_i v15 v16 v17
      extract_lets +onlyGivenNames x18
      extract_lets +onlyGivenNames x19
      extract_lets +onlyGivenNames x20
      extract_lets +onlyGivenNames x21
      have h22 : Keeps s₀ x21 := by
        unfold x21
        exact State.storeTag_keeps (Keeps.upd (s := s) h0 rfl rfl rfl rfl)
      clear_value x21
      extract_lets +onlyGivenNames x23
      have h24 : Keeps s₀ x23 := by
        unfold x23
        exact State.decide__keeps h22
      clear_value x23
      exact Keeps.ite (State.closeTag_keeps h24) h24
theorem State.portalRecord_keeps {s₀ s : State} {d : Delivery} {hopsW hopsE : Nat} {flaws : optParam (Two Nat) { a := 0, b := 0 }} (h0 : Keeps s₀ s) :
    Keeps s₀ (State.portalRecord s d hopsW hopsE flaws) := by
  unfold State.portalRecord
  refine Keeps.ite ?_ ?_
  · exact State.undelivered_keeps h0
  · refine Keeps.ite ?_ ?_
    · exact State.decide__keeps (State.prtStatus_keeps (State.addSat_keeps h0))
    · split
      · rename_i v0 v1 v2 v3
        have h4 : Keeps s₀ v2 := Keeps.of_snd v3 (Keeps.ite₂ h0 (State.judgeDuplicate_keeps h0))
        refine Keeps.ite ?_ ?_
        · exact State.setBit_keeps (State.addSat_keeps h4)
        · refine Keeps.ite ?_ ?_
          · extract_lets +onlyGivenNames x5
            extract_lets +onlyGivenNames x6
            extract_lets +onlyGivenNames x7
            extract_lets +onlyGivenNames x8
            extract_lets +onlyGivenNames x9
            exact Keeps.ite (State.mergeFragment_keeps h4) (State.decide__keeps h4)
          · exact State.decide__keeps h4
theorem State.lossEntry_keeps {s₀ s : State} {node kind run seq : Nat} (h0 : Keeps s₀ s) : Keeps s₀ (State.lossEntry s node kind run seq) := by
  unfold State.lossEntry
  exact Keeps.ite (State.decide__keeps h0) (State.undelivered_keeps h0)
theorem State.updateAssembly_keeps {s₀ s : State} (h0 : Keeps s₀ s) : Keeps s₀ (State.updateAssembly s) := by
  unfold State.updateAssembly
  extract_lets +onlyGivenNames x0
  extract_lets +onlyGivenNames x1
  exact Keeps.upd (s := s) h0 rfl rfl rfl rfl
theorem State.assemble_keeps {s₀ s : State} {origin : Nat} {turned : Bool} {prio : Nat} {payload : List Byte} (h : Keeps s₀ s) :
    Keeps s₀ (s.assemble origin turned prio payload) := by
  unfold State.assemble
  extract_lets x₁ x₂ x₃ x₄ x₅ x₆ x₇ x₈ x₉ x₁₀ x₁₁ x₁₂ x₁₃ x₁₄ c
  clear_value c
  cases c
  · exact h
  · exact Keeps.ite (State.portalRecord_keeps (State.updateAssembly_keeps (Keeps.upd (s := s) h rfl rfl rfl rfl)))
      (State.updateAssembly_keeps (Keeps.upd (s := s) h rfl rfl rfl rfl))

end Sys2Proof.Machine
end

