-- ==== Sys2Proof/Laws/KeepsTimers.lean ====
section
/-! SUPPORT. What the operations and the commands of a group keep (see Keeps): the backplane, alarm states, timers, grids and inputs. -/

set_option linter.all false

namespace Sys2Proof.Machine

/-! ### Clp -/

theorem State.sendAck_keeps {s₀ s : State} {p : Nat} {nak : Bool} (h0 : Keeps s₀ s) : Keeps s₀ (State.sendAck s p nak) := by
  unfold State.sendAck
  extract_lets +onlyGivenNames x0
  extract_lets +onlyGivenNames x1
  extract_lets +onlyGivenNames x2
  exact State.queueBlocks_keeps (State.setPort_keeps h0)
theorem State.updateXoff_keeps {s₀ s : State} {p : Nat} (h0 : Keeps s₀ s) : Keeps s₀ (State.updateXoff s p) := by
  unfold State.updateXoff
  extract_lets +onlyGivenNames x0
  extract_lets +onlyGivenNames x1
  have h2 : Keeps s₀ x1 := by
    unfold x1
    exact State.setPort_keeps h0
  clear_value x1
  exact Keeps.ite h2 (State.sendAck_keeps h2)
theorem State.portalXoffMoves_keeps {s₀ s : State} (h0 : Keeps s₀ s) : Keeps s₀ (State.portalXoffMoves s) := by
  unfold State.portalXoffMoves
  exact Keeps.ite (State.updateXoff_keeps h0) h0
theorem xoffAckRepeat_keeps {s₀ : State} {p : Nat} {s : State} (h1 : Keeps s₀ s) : Keeps s₀ (xoffAckRepeat p s) := by
  unfold xoffAckRepeat
  exact Keeps.ite (State.sendAck_keeps h1) h1
theorem frameSend_keeps {s₀ : State} {p : Nat} {s : State} (h1 : Keeps s₀ s) : Keeps s₀ (frameSend p s) := by
  unfold frameSend
  extract_lets +onlyGivenNames x0
  refine Keeps.ite ?_ ?_
  · exact h1
  · split
    · rename_i v1 v2
      exact h1
    · rename_i v3 v4 v5 v6
      split
      · rename_i v7 v8
        exact h1
      · rename_i v9 v10 v11
        refine Keeps.ite ?_ ?_
        · exact h1
        · extract_lets +onlyGivenNames x12
          extract_lets +onlyGivenNames x13
          extract_lets +onlyGivenNames x14
          have h15 : Keeps s₀ x14 := by
            unfold x14
            exact State.queueBlocks_keeps (State.addWrap_keeps (State.setPort_keeps h1))
          clear_value x14
          exact State.updateXoff_keeps (State.count_keeps h15)
theorem State.resend_keeps {s₀ s : State} {p : Nat} (h0 : Keeps s₀ s) : Keeps s₀ (State.resend s p) := by
  unfold State.resend
  extract_lets +onlyGivenNames x0
  refine Keeps.ite ?_ ?_
  · exact h0
  · extract_lets +onlyGivenNames x1
    have h2 : Keeps s₀ x1 := by
      unfold x1
      exact State.setPort_keeps h0
    clear_value x1
    extract_lets +onlyGivenNames x3
    have h4 : Keeps s₀ x3 := by
      unfold x3
      exact State.queueBlocks_keeps h2
    clear_value x3
    exact State.setBit_keeps (State.addSat_keeps h4)
theorem retransmitTimeout_keeps {s₀ : State} {p : Nat} {s : State} (h1 : Keeps s₀ s) : Keeps s₀ (retransmitTimeout p s) := by
  unfold retransmitTimeout
  split
  · rename_i v0 v1
    exact h1
  · rename_i v2 v3 v4 v5
    exact Keeps.ite (State.resend_keeps h1) h1
theorem State.ackFrame_keeps {s₀ s : State} {f : SentFrame} (h0 : Keeps s₀ s) : Keeps s₀ (State.ackFrame s f) := by
  unfold State.ackFrame
  split
  · rename_i v0 v1 v2 v3 v4 v5
    exact State.acknowledge_keeps h0
  · rename_i v6 v7
    exact h0
theorem State.takeXoff_keeps {s₀ s : State} {p xoff : Nat} (h0 : Keeps s₀ s) : Keeps s₀ (State.takeXoff s p xoff) := by
  unfold State.takeXoff
  extract_lets +onlyGivenNames x0
  extract_lets +onlyGivenNames x1
  have h2 : Keeps s₀ x1 := by
    unfold x1
    exact Keeps.ite (State.setBit_keeps h0) h0
  clear_value x1
  exact State.setPort_keeps h2
theorem ackReceive_keeps {s₀ : State} {p : Nat} {ack : AckBlock} {s : State} (h2 : Keeps s₀ s) : Keeps s₀ (ackReceive p ack s) := by
  unfold ackReceive
  extract_lets +onlyGivenNames x0
  refine Keeps.ite ?_ ?_
  · exact h2
  · extract_lets +onlyGivenNames x1
    extract_lets +onlyGivenNames x2
    extract_lets +onlyGivenNames x3
    have h4 : Keeps s₀ x3 := by
      unfold x3
      exact State.setPort_keeps h2
    clear_value x3
    extract_lets +onlyGivenNames x5
    have h6 : Keeps s₀ x5 := by
      unfold x5
      refine Keeps.foldl ?_ ?_
      · intro a7 y8 h9
        exact State.ackFrame_keeps h9
      · exact h4
    clear_value x5
    extract_lets +onlyGivenNames x10
    have h11 : Keeps s₀ x10 := by
      unfold x10
      exact Keeps.ite (State.resend_keeps h6) h6
    clear_value x10
    exact State.updateXoff_keeps (State.takeXoff_keeps h11)
theorem State.endHere_keeps {s₀ s : State} {p : Nat} (h0 : Keeps s₀ s) : Keeps s₀ (State.endHere s p) := by
  unfold State.endHere
  exact State.wrN_keeps (State.wrN_keeps (State.setPort_keeps h0))
theorem State.endUnknown_keeps {s₀ s : State} {p : Nat} (h0 : Keeps s₀ s) : Keeps s₀ (State.endUnknown s p) := by
  unfold State.endUnknown
  exact State.wrN_keeps (State.wrN_keeps (State.setPort_keeps h0))
theorem State.turnWaiting_keeps {s₀ s : State} {p : Nat} (h0 : Keeps s₀ s) : Keeps s₀ (State.turnWaiting s p) := by
  unfold State.turnWaiting
  extract_lets +onlyGivenNames x0
  extract_lets +onlyGivenNames x1
  have h2 : Keeps s₀ x1 := by
    unfold x1
    exact State.setPort_keeps h0
  clear_value x1
  extract_lets +onlyGivenNames x3
  have h4 : Keeps s₀ x3 := by
    unfold x3
    refine Keeps.foldl ?_ ?_
    · intro a5 y6 h7
      exact State.sendOn_keeps h7
    · exact h2
  clear_value x3
  refine Keeps.foldl ?_ ?_
  · intro a8 y9 h10
    exact State.sendOn_keeps h10
  · exact h4
theorem portBroken_keeps {s₀ : State} {p : Nat} {s : State} (h1 : Keeps s₀ s) : Keeps s₀ (portBroken p s) := by
  unfold portBroken
  extract_lets +onlyGivenNames x0
  refine Keeps.ite ?_ ?_
  · exact h1
  · extract_lets +onlyGivenNames x1
    have h2 : Keeps s₀ x1 := by
      unfold x1
      exact State.setPort_keeps h1
    clear_value x1
    extract_lets +onlyGivenNames x3
    have h4 : Keeps s₀ x3 := by
      unfold x3
      exact State.setBit_keeps (State.setBit_keeps h2)
    clear_value x3
    extract_lets +onlyGivenNames x5
    have h6 : Keeps s₀ x5 := by
      unfold x5
      refine Keeps.foldl ?_ ?_
      · intro a7 y8 h9
        exact State.sendOn_keeps h9
      · exact h4
    clear_value x5
    exact State.endHere_keeps (State.turnWaiting_keeps h6)
theorem State.endTurn_keeps {s₀ s : State} {p : Nat} (h0 : Keeps s₀ s) : Keeps s₀ (State.endTurn s p) := by
  unfold State.endTurn
  extract_lets +onlyGivenNames x0
  extract_lets +onlyGivenNames x1
  have h2 : Keeps s₀ x1 := by
    unfold x1
    exact State.setPort_keeps h0
  clear_value x1
  extract_lets +onlyGivenNames x3
  have h4 : Keeps s₀ x3 := by
    unfold x3
    exact State.endUnknown_keeps (State.putBit_keeps h2)
  clear_value x3
  exact Keeps.ite (State.turnWaiting_keeps h4) h4
theorem posSend_keeps {s₀ s : State} {p : Nat} (h : Keeps s₀ s) : Keeps s₀ (posSend p s) := by
  unfold posSend
  extract_lets x due id c
  clear_value c due
  refine Keeps.ite h ?_
  cases c
  · exact h
  · exact State.queueBlocks_keeps (State.setPort_keeps h)
theorem posReceive_keeps {s₀ : State} {p endId hops : Nat} {brk : Bool} {s : State} (h4 : Keeps s₀ s) : Keeps s₀ (posReceive p endId hops brk s) := by
  unfold posReceive
  extract_lets +onlyGivenNames x0
  extract_lets +onlyGivenNames x1
  have h2 : Keeps s₀ x1 := by
    unfold x1
    exact State.setPort_keeps h4
  clear_value x1
  extract_lets +onlyGivenNames x3
  have h4 : Keeps s₀ x3 := by
    unfold x3
    exact State.wrN_keeps (State.wrN_keeps h2)
  clear_value x3
  exact Keeps.ite (State.setBit_keeps h4) h4
theorem posTimeout_keeps {s₀ : State} {p : Nat} {s : State} (h1 : Keeps s₀ s) : Keeps s₀ (posTimeout p s) := by
  unfold posTimeout
  extract_lets +onlyGivenNames x0
  exact Keeps.ite (State.endHere_keeps h1) (Keeps.ite (State.endUnknown_keeps h1) h1)
theorem State.endFetch_keeps {s₀ s : State} (h0 : Keeps s₀ s) : Keeps s₀ (State.endFetch s) := by
  unfold State.endFetch
  split
  · rename_i v0 v1 v2 v3
    exact Keeps.ite h0 (State.finish_keeps (Keeps.upd (s := s) h0 rfl rfl rfl rfl))
  · rename_i v4 v5
    exact h0
theorem dispatchPush_keeps {s₀ s : State} (h0 : Keeps s₀ s) : Keeps s₀ (dispatchPush s) := by
  unfold dispatchPush
  split
  · rename_i v0 v1
    exact h0
  · rename_i v2 v3 v4 v5
    extract_lets +onlyGivenNames x6
    have h7 : Keeps s₀ x6 := by
      unfold x6
      exact Keeps.upd (s := s) h0 rfl rfl rfl rfl
    clear_value x6
    refine Keeps.ite ?_ ?_
    · exact h7
    · extract_lets +onlyGivenNames x8
      extract_lets +onlyGivenNames x9
      have h10 : Keeps s₀ x9 := by
        unfold x9
        exact State.addWrap_keeps h7
      clear_value x9
      extract_lets +onlyGivenNames x11
      have h12 : Keeps s₀ x11 := by
        unfold x11
        exact State.countIn_keeps (State.countIn_keeps h10)
      clear_value x11
      exact State.endFetch_keeps (State.pushInto_keeps (Keeps.upd (s := x11) h12 rfl rfl rfl rfl))
theorem State.popItem_keeps {s₀ s : State} {d : Descriptor} (h0 : Keeps s₀ s) : Keeps s₀ (State.popItem s d) := by
  unfold State.popItem
  extract_lets +onlyGivenNames x0
  extract_lets +onlyGivenNames x1
  extract_lets +onlyGivenNames x2
  have h3 : Keeps s₀ x2 := by
    unfold x2
    exact State.readSpan_keeps h0
  clear_value x2
  extract_lets +onlyGivenNames x4
  have h5 : Keeps s₀ x4 := by
    unfold x4
    exact Keeps.ite (State.markDamaged_keeps h3) h3
  clear_value x4
  extract_lets +onlyGivenNames x6
  have h7 : Keeps s₀ x6 := by
    unfold x6
    exact Keeps.ite (State.markDamaged_keeps h5) h5
  clear_value x6
  extract_lets +onlyGivenNames x8
  extract_lets +onlyGivenNames x9
  extract_lets +onlyGivenNames x10
  extract_lets +onlyGivenNames x11
  extract_lets +onlyGivenNames x12
  extract_lets +onlyGivenNames x13
  extract_lets +onlyGivenNames x14
  extract_lets +onlyGivenNames x15
  extract_lets +onlyGivenNames x16
  extract_lets +onlyGivenNames x17
  extract_lets +onlyGivenNames x18
  refine Keeps.ite ?_ ?_
  · refine Keeps.ite ?_ ?_
    · extract_lets +onlyGivenNames x19
      extract_lets +onlyGivenNames x20
      extract_lets +onlyGivenNames x21
      exact State.portalRecord_keeps h7
    · exact h7
  · extract_lets +onlyGivenNames x22
    extract_lets +onlyGivenNames x23
    exact State.emit_keeps h7
theorem dispatchPop_keeps {s₀ s : State} (h0 : Keeps s₀ s) : Keeps s₀ (dispatchPop s) := by
  unfold dispatchPop
  extract_lets +onlyGivenNames x0
  extract_lets +onlyGivenNames x1
  refine Keeps.ite ?_ ?_
  · exact h0
  · split
    · rename_i v2 v3
      exact Keeps.upd (s := s) h0 rfl rfl rfl rfl
    · rename_i v4 v5 v6
      extract_lets +onlyGivenNames x7
      exact State.popItem_keeps (Keeps.upd (s := s) h0 rfl rfl rfl rfl)
theorem dispatchDrop_keeps {s₀ s : State} (h0 : Keeps s₀ s) : Keeps s₀ (dispatchDrop s) := by
  unfold dispatchDrop
  split
  · rename_i v0 v1
    exact h0
  · rename_i v2 v3 v4 v5
    extract_lets +onlyGivenNames x6
    have h7 : Keeps s₀ x6 := by
      unfold x6
      exact Keeps.upd (s := s) h0 rfl rfl rfl rfl
    clear_value x6
    refine Keeps.ite ?_ ?_
    · extract_lets +onlyGivenNames x8
      extract_lets +onlyGivenNames x9
      extract_lets +onlyGivenNames x10
      extract_lets +onlyGivenNames x11
      have h12 : Keeps s₀ x11 := by
        unfold x11
        exact State.countIn_keeps (State.countIn_keeps (State.addWrap_keeps h7))
      clear_value x11
      extract_lets +onlyGivenNames x13
      extract_lets +onlyGivenNames x14
      have h15 : Keeps s₀ x14 := by
        unfold x14
        exact Keeps.upd (s := x11) h12 rfl rfl rfl rfl
      clear_value x14
      extract_lets +onlyGivenNames x16
      have h17 : Keeps s₀ x16 := by
        unfold x16
        exact State.setBit_keeps (State.addSat_keeps h15)
      clear_value x16
      extract_lets +onlyGivenNames x18
      exact State.endFetch_keeps (State.addGap_keeps h17)
    · exact h7
theorem execXoffAckRepeat_keeps {s₀ s : State} {t : Nat} {port : Fin 2} (h₀ : Keeps s₀ s) :
    ∃ u, execXoffAckRepeat t port s = .next u ∧ Keeps s₀ u :=
  ⟨_, rfl, xoffAckRepeat_keeps (State.at__keeps h₀)⟩
theorem execFrameSend_keeps {s₀ s : State} {t : Nat} {port : Fin 2} (h₀ : Keeps s₀ s) :
    ∃ u, execFrameSend t port s = .next u ∧ Keeps s₀ u :=
  ⟨_, rfl, frameSend_keeps (State.at__keeps h₀)⟩
theorem execRetransmitTimeout_keeps {s₀ s : State} {t : Nat} {port : Fin 2} (h₀ : Keeps s₀ s) :
    ∃ u, execRetransmitTimeout t port s = .next u ∧ Keeps s₀ u :=
  ⟨_, rfl, retransmitTimeout_keeps (State.at__keeps h₀)⟩
theorem execAckReceive_keeps {s₀ s : State} {t : Nat} {port : Fin 2} {ack : AckBlock} (h₀ : Keeps s₀ s) :
    ∃ u, execAckReceive t port ack s = .next u ∧ Keeps s₀ u :=
  ⟨_, rfl, ackReceive_keeps (State.at__keeps h₀)⟩
theorem execPortBroken_keeps {s₀ s : State} {t : Nat} {port : Fin 2} (h₀ : Keeps s₀ s) :
    ∃ u, execPortBroken t port s = .next u ∧ Keeps s₀ u :=
  ⟨_, rfl, portBroken_keeps (State.at__keeps h₀)⟩
theorem execPosSend_keeps {s₀ s : State} {t : Nat} {port : Fin 2} (h₀ : Keeps s₀ s) :
    ∃ u, execPosSend t port s = .next u ∧ Keeps s₀ u :=
  ⟨_, rfl, posSend_keeps (State.at__keeps h₀)⟩
theorem execPosReceive_keeps {s₀ s : State} {t : Nat} {port : Fin 2} {endId hops : BitVec 12} {brk : Bool} (h₀ : Keeps s₀ s) :
    ∃ u, execPosReceive t port endId hops brk s = .next u ∧ Keeps s₀ u :=
  ⟨_, rfl, posReceive_keeps (State.at__keeps h₀)⟩
theorem execPosTimeout_keeps {s₀ s : State} {t : Nat} {port : Fin 2} (h₀ : Keeps s₀ s) :
    ∃ u, execPosTimeout t port s = .next u ∧ Keeps s₀ u :=
  ⟨_, rfl, posTimeout_keeps (State.at__keeps h₀)⟩
theorem execDispatchPush_keeps {s₀ s : State} {t : Nat} (h₀ : Keeps s₀ s) :
    ∃ u, execDispatchPush t s = .next u ∧ Keeps s₀ u :=
  ⟨_, rfl, dispatchPush_keeps (State.at__keeps h₀)⟩
theorem execDispatchPop_keeps {s₀ s : State} {t : Nat} (h₀ : Keeps s₀ s) :
    ∃ u, execDispatchPop t s = .next u ∧ Keeps s₀ u :=
  ⟨_, rfl, dispatchPop_keeps (State.at__keeps h₀)⟩
theorem execDispatchDrop_keeps {s₀ s : State} {t : Nat} (h₀ : Keeps s₀ s) :
    ∃ u, execDispatchDrop t s = .next u ∧ Keeps s₀ u :=
  ⟨_, rfl, dispatchDrop_keeps (State.at__keeps h₀)⟩

/-! ### AlmCore -/

theorem State.send_keeps {s₀ s : State} {src : Nat} {x : StreamItem} (h0 : Keeps s₀ s) : Keeps s₀ (State.send s src x) := by
  unfold State.send
  extract_lets +onlyGivenNames x0
  exact Keeps.upd (s := s) h0 rfl rfl rfl rfl
theorem State.sendAlarm_keeps {s₀ s : State} {src : Nat} {e : AlarmEvent} (h0 : Keeps s₀ s) : Keeps s₀ (State.sendAlarm s src e) := by
  unfold State.sendAlarm
  extract_lets +onlyGivenNames x0
  exact State.send_keeps (Keeps.upd (s := s) h0 rfl rfl rfl rfl)
theorem State.queueOwn_keeps {s₀ s : State} {w : AlarmWord} {p : Nat} (h0 : Keeps s₀ s) : Keeps s₀ (State.queueOwn s w p) := by
  unfold State.queueOwn
  exact Keeps.ite h0 (Keeps.ite (State.setBit_keeps h0) (Keeps.upd (s := s) h0 rfl rfl rfl rfl))
theorem State.sendWord_keeps {s₀ s : State} {l : Nat} {raise : Bool} (h0 : Keeps s₀ s) : Keeps s₀ (State.sendWord s l raise) := by
  unfold State.sendWord
  extract_lets +onlyGivenNames x0
  refine Keeps.ite ?_ ?_
  · exact h0
  · extract_lets +onlyGivenNames x1
    extract_lets +onlyGivenNames x2
    extract_lets +onlyGivenNames x3
    have h4 : Keeps s₀ x3 := by
      unfold x3
      exact Keeps.ite (Keeps.upd (s := s) h0 rfl rfl rfl rfl) h0
    clear_value x3
    exact State.queueOwn_keeps (State.queueOwn_keeps h4)
theorem State.forwardWord_keeps {s₀ s : State} {p : Nat} {w : AlarmWord} (h0 : Keeps s₀ s) : Keeps s₀ (State.forwardWord s p w) := by
  unfold State.forwardWord
  extract_lets +onlyGivenNames x0
  exact Keeps.ite h0 (Keeps.ite (State.setBit_keeps h0) (Keeps.upd (s := s) h0 rfl rfl rfl rfl))
theorem State.takeWord_keeps {s₀ s : State} {p : Nat} {w : AlarmWord} (h0 : Keeps s₀ s) : Keeps s₀ (State.takeWord s p w) := by
  unfold State.takeWord
  extract_lets +onlyGivenNames x0
  have h1 : Keeps s₀ x0 := by
    unfold x0
    exact State.count_keeps (State.addWrap_keeps h0)
  clear_value x0
  exact Keeps.ite h1 (State.sendAlarm_keeps (State.forwardWord_keeps h1))
theorem State.noteAlarm_keeps {s₀ s : State} {c : AlarmChange} (h0 : Keeps s₀ s) : Keeps s₀ (State.noteAlarm s c) := by
  unfold State.noteAlarm
  exact Keeps.ite (State.setBit_keeps (State.addSat_keeps h0)) (Keeps.ite (State.setBit_keeps h0) (State.setBit_keeps h0))
theorem State.noteEvent_keeps {s₀ s : State} {e : AlarmEvent} (h0 : Keeps s₀ s) : Keeps s₀ (State.noteEvent s e) := by
  unfold State.noteEvent
  split
  · rename_i v0 v1 v2
    extract_lets +onlyGivenNames x3
    exact Keeps.ite (State.setBit_keeps h0) h0
  · rename_i v4 v5 v6 v7
    exact State.setBit_keeps h0
  · rename_i v8 v9 v10
    exact h0
theorem State.matrixTake_keeps {s₀ s : State} {es : List AlarmEvent} (h0 : Keeps s₀ s) : Keeps s₀ (State.matrixTake s es) := by
  unfold State.matrixTake
  extract_lets +onlyGivenNames x0
  extract_lets +onlyGivenNames x1
  have h2 : Keeps s₀ x1 := by
    unfold x1
    refine Keeps.foldl ?_ ?_
    · intro a3 y4 h5
      exact State.noteEvent_keeps h5
    · exact h0
  clear_value x1
  split
  · rename_i v6 v7 v8 v9
    extract_lets +onlyGivenNames x10
    extract_lets +onlyGivenNames x11
    have h12 : Keeps s₀ x11 := by
      unfold x11
      exact Keeps.upd (s := x1) h2 rfl rfl rfl rfl
    clear_value x11
    extract_lets +onlyGivenNames x13
    have h14 : Keeps s₀ x13 := by
      unfold x13
      refine Keeps.foldl ?_ ?_
      · intro a15 y16 h17
        exact State.wrN_keeps h17
      · exact h12
    clear_value x13
    extract_lets +onlyGivenNames x18
    have h19 : Keeps s₀ x18 := by
      unfold x18
      exact State.wrN_keeps (State.wrN_keeps h14)
    clear_value x18
    extract_lets +onlyGivenNames x20
    have h21 : Keeps s₀ x20 := by
      unfold x20
      refine Keeps.foldl ?_ ?_
      · intro a22 y23 h24
        exact State.noteAlarm_keeps h24
      · exact h19
    clear_value x20
    refine Keeps.foldl ?_ ?_
    · intro a25 y26 h27
      exact Keeps.ite (State.sendWord_keeps h27) (Keeps.ite (State.sendWord_keeps h27) h27)
    · exact h21
theorem State.matrixStep_keeps {s₀ s : State} {e : AlarmEvent} (h0 : Keeps s₀ s) : Keeps s₀ (State.matrixStep s e) := by
  unfold State.matrixStep
  exact State.matrixTake_keeps h0
theorem State.orderedStep_keeps {s₀ view s : State} {es : List AlarmEvent} (h1 : Keeps s₀ s) : Keeps s₀ (State.orderedStep view s es) := by
  unfold State.orderedStep
  split
  · rename_i v0 v1 v2 v3
    refine Keeps.foldl ?_ ?_
    · intro a4 y5 h6
      exact State.addAlm_keeps h6
    · exact Keeps.upd (s := s) h1 rfl rfl rfl rfl

/-! ### TmrCore -/

theorem State.setInput_keeps {s₀ s : State} {n : Nat} {x : InputState} (h0 : Keeps s₀ s) : Keeps s₀ (State.setInput s n x) := by
  unfold State.setInput
  exact Keeps.upd (s := s) h0 rfl rfl rfl rfl
theorem State.setTiming_keeps {s₀ s : State} {n : Nat} {x : TimingState} (h0 : Keeps s₀ s) : Keeps s₀ (State.setTiming s n x) := by
  unfold State.setTiming
  exact Keeps.upd (s := s) h0 rfl rfl rfl rfl
theorem State.setSource_keeps {s₀ s : State} {k : Nat} {x : SourceState} (h0 : Keeps s₀ s) : Keeps s₀ (State.setSource s k x) := by
  unfold State.setSource
  exact Keeps.upd (s := s) h0 rfl rfl rfl rfl
theorem State.steer_keeps {s₀ s : State} {k : Nat} (h0 : Keeps s₀ s) : Keeps s₀ (State.steer s k) := by
  unfold State.steer
  extract_lets +onlyGivenNames x0
  exact State.setSource_keeps h0
theorem State.updateAlarm_keeps {s₀ s : State} {n instant : Nat} (h0 : Keeps s₀ s) : Keeps s₀ (State.updateAlarm s n instant) := by
  unfold State.updateAlarm
  extract_lets +onlyGivenNames x0
  extract_lets +onlyGivenNames x1
  exact Keeps.ite h0 (State.sendAlarm_keeps (State.setTiming_keeps h0))
theorem State.hit_keeps {s₀ s : State} {n p instant done : Nat} (h0 : Keeps s₀ s) : Keeps s₀ (State.hit s n p instant done) := by
  unfold State.hit
  extract_lets +onlyGivenNames x0
  refine Keeps.ite ?_ ?_
  · exact h0
  · extract_lets +onlyGivenNames x1
    exact State.setTiming_keeps h0
theorem State.setPrim_keeps {s₀ s : State} {n p : Nat} {q : Prim} (h0 : Keeps s₀ s) : Keeps s₀ (State.setPrim s n p q) := by
  unfold State.setPrim
  exact State.setInput_keeps h0
theorem State.condition_keeps {s₀ s : State} {n p : Nat} {q : Prim} {c : Bool} {instant done : Nat} (h0 : Keeps s₀ s) :
    Keeps s₀ (State.condition s n p q c instant done) := by
  unfold State.condition
  extract_lets +onlyGivenNames x0
  have h1 : Keeps s₀ x0 := by
    unfold x0
    exact State.setPrim_keeps h0
  clear_value x0
  exact Keeps.ite (State.hit_keeps h1) h1
theorem State.edgePrim_keeps {s₀ s : State} {n : Nat} {rising : Bool} {crossing done p : Nat} (h0 : Keeps s₀ s) :
    Keeps s₀ (State.edgePrim s n rising crossing done p) := by
  unfold State.edgePrim
  extract_lets +onlyGivenNames x0
  extract_lets +onlyGivenNames x1
  extract_lets +onlyGivenNames x2
  extract_lets +onlyGivenNames x3
  extract_lets +onlyGivenNames x4
  have h5 : Keeps s₀ x4 := by
    unfold x4
    exact State.setPrim_keeps h0
  clear_value x4
  refine Keeps.ite ?_ ?_
  · exact Keeps.ite (State.hit_keeps h5) h5
  · refine Keeps.ite ?_ ?_
    · exact Keeps.ite h5 (State.hit_keeps h5)
    · refine Keeps.ite ?_ ?_
      · extract_lets +onlyGivenNames x6
        extract_lets +onlyGivenNames x7
        extract_lets +onlyGivenNames x8
        exact State.condition_keeps h5
      · exact h5
theorem State.samplePrim_keeps {s₀ s : State} {n : Nat} {code : Int} {instant done p : Nat} (h0 : Keeps s₀ s) :
    Keeps s₀ (State.samplePrim s n code instant done p) := by
  unfold State.samplePrim
  extract_lets +onlyGivenNames x0
  extract_lets +onlyGivenNames x1
  extract_lets +onlyGivenNames x2
  extract_lets +onlyGivenNames x3
  refine Keeps.ite ?_ ?_
  · exact State.condition_keeps h0
  · refine Keeps.ite ?_ ?_
    · exact State.condition_keeps h0
    · refine Keeps.ite ?_ ?_
      · exact State.condition_keeps h0
      · refine Keeps.ite ?_ ?_
        · extract_lets +onlyGivenNames x4
          split
          · rename_i v5 v6
            exact State.setPrim_keeps h0
          · rename_i v7 v8 v9
            exact State.condition_keeps h0
        · exact h0
theorem State.clearPrim_keeps {s₀ s : State} {n p : Nat} (h0 : Keeps s₀ s) : Keeps s₀ (State.clearPrim s n p) := by
  unfold State.clearPrim
  exact State.setPrim_keeps h0
theorem State.openSet_keeps {s₀ s : State} {n at_ : Nat} (h0 : Keeps s₀ s) : Keeps s₀ (State.openSet s n at_) := by
  unfold State.openSet
  extract_lets +onlyGivenNames x0
  extract_lets +onlyGivenNames x1
  exact Keeps.ite h0 (State.setTiming_keeps h0)
theorem State.closeSet_keeps {s₀ s : State} {n reason at_ : Nat} (h0 : Keeps s₀ s) : Keeps s₀ (State.closeSet s n reason at_) := by
  unfold State.closeSet
  extract_lets +onlyGivenNames x0
  split
  · rename_i v1 v2
    exact h0
  · rename_i v3 v4 v5
    exact Keeps.ite (State.setTiming_keeps h0) (State.setTiming_keeps h0)
theorem State.discardItv_keeps {s₀ s : State} {n crossing : Nat} (h0 : Keeps s₀ s) : Keeps s₀ (State.discardItv s n crossing) := by
  unfold State.discardItv
  extract_lets +onlyGivenNames x0
  have h1 : Keeps s₀ x0 := by
    unfold x0
    exact State.addSat_keeps h0
  clear_value x0
  extract_lets +onlyGivenNames x2
  split
  · rename_i v3 v4 v5
    exact State.setTiming_keeps h1
  · rename_i v6 v7
    exact State.setTiming_keeps h1
theorem State.enterItv_keeps {s₀ s : State} {n : Nat} {start end_ : Int} {crossing : Nat} {gap : Bool} (h0 : Keeps s₀ s) :
    Keeps s₀ (State.enterItv s n start end_ crossing gap) := by
  unfold State.enterItv
  extract_lets +onlyGivenNames x0
  extract_lets +onlyGivenNames x1
  refine Keeps.ite ?_ ?_
  · exact State.discardItv_keeps h0
  · split
    · rename_i v2 v3 v4
      refine Keeps.ite ?_ ?_
      · exact State.discardItv_keeps h0
      · extract_lets +onlyGivenNames x5
        exact Keeps.ite (State.setTiming_keeps h0) (State.setTiming_keeps h0)
    · rename_i v6 v7
      split
      · rename_i v8 v9
        exact State.discardItv_keeps h0
      · rename_i v10 v11 v12
        refine Keeps.ite ?_ ?_
        · exact State.discardItv_keeps h0
        · extract_lets +onlyGivenNames x13
          extract_lets +onlyGivenNames x14
          have h15 : Keeps s₀ x14 := by
            unfold x14
            exact State.setTiming_keeps h0
          clear_value x14
          refine Keeps.ite ?_ ?_
          · extract_lets +onlyGivenNames x16
            have h17 : Keeps s₀ x16 := by
              unfold x16
              exact State.openSet_keeps (State.closeSet_keeps h15)
            clear_value x16
            exact State.setTiming_keeps h17
          · exact h15
theorem State.enterTaken_keeps {s₀ s : State} {n : Nat} {start end_ : Int} {crossing : Nat} {gap old : Bool} (h0 : Keeps s₀ s) :
    Keeps s₀ (State.enterTaken s n start end_ crossing gap old) := by
  unfold State.enterTaken
  extract_lets +onlyGivenNames x0
  extract_lets +onlyGivenNames x1
  have h2 : Keeps s₀ x1 := by
    unfold x1
    exact State.setTiming_keeps h0
  clear_value x1
  extract_lets +onlyGivenNames x3
  have h4 : Keeps s₀ x3 := by
    unfold x3
    exact State.enterItv_keeps h2
  clear_value x3
  exact State.setTiming_keeps h4
theorem State.missItv_keeps {s₀ s : State} {n : Nat} (h0 : Keeps s₀ s) : Keeps s₀ (State.missItv s n) := by
  unfold State.missItv
  exact State.setBit_keeps (State.addSat_keeps h0)
theorem State.beginItv_keeps {s₀ s : State} {n : Nat} {start : Int} {crossing : Nat} (h0 : Keeps s₀ s) :
    Keeps s₀ (State.beginItv s n start crossing) := by
  unfold State.beginItv
  extract_lets +onlyGivenNames x0
  extract_lets +onlyGivenNames x1
  have h2 : Keeps s₀ x1 := by
    unfold x1
    exact Keeps.ite (State.missItv_keeps h0) h0
  clear_value x1
  exact State.setTiming_keeps h2
theorem State.takeStarts_keeps {s₀ s : State} {n : Nat} (h0 : Keeps s₀ s) : Keeps s₀ (State.takeStarts s n) := by
  unfold State.takeStarts
  extract_lets +onlyGivenNames x0
  extract_lets +onlyGivenNames x1
  refine Keeps.ite ?_ ?_
  · exact h0
  · extract_lets +onlyGivenNames x2
    have h3 : Keeps s₀ x2 := by
      unfold x2
      exact State.setTiming_keeps h0
    clear_value x2
    refine Keeps.foldl ?_ ?_
    · intro a4 y5 h6
      exact Keeps.ite (State.beginItv_keeps h6) h6
    · exact h3
theorem State.noteStepped_keeps {s₀ s : State} {n : Nat} (h0 : Keeps s₀ s) : Keeps s₀ (State.noteStepped s n) := by
  unfold State.noteStepped
  exact Keeps.ite (State.setBit_keeps h0) h0
theorem State.itvStamp_keeps {s₀ s : State} {n : Nat} {rising : Bool} {stamp : Int} {crossing : Nat} {gap : Bool} (h0 : Keeps s₀ s) :
    Keeps s₀ (State.itvStamp s n rising stamp crossing gap) := by
  unfold State.itvStamp
  extract_lets +onlyGivenNames x0
  extract_lets +onlyGivenNames x1
  extract_lets +onlyGivenNames x2
  extract_lets +onlyGivenNames x3
  extract_lets +onlyGivenNames x4
  have h_x4 : ∀ {b5 : State}, Keeps s₀ b5 → Keeps s₀ (x4 b5) := by
    intro b5 h7
    unfold x4
    exact State.setTiming_keeps h7
  refine Keeps.ite ?_ ?_
  · extract_lets +onlyGivenNames x8
    have h9 : Keeps s₀ x8 := by
      unfold x8
      split
      · rename_i v10 v11 v12
        exact State.enterItv_keeps (State.noteStepped_keeps h0)
      · rename_i v13 v14
        exact h0
    clear_value x8
    exact h_x4 h9
  · refine Keeps.ite ?_ ?_
    · refine Keeps.ite ?_ ?_
      · exact h_x4 h0
      · split
        · rename_i v15 v16 v17
          exact State.enterTaken_keeps (State.noteStepped_keeps h0)
        · rename_i v18 v19
          exact h0
    · refine Keeps.ite ?_ ?_
      · split
        · rename_i v20 v21 v22
          exact Keeps.ite (State.enterTaken_keeps (State.noteStepped_keeps h0)) h0
        · rename_i v23 v24
          exact h0
      · exact h0
theorem State.startFrom_keeps {s₀ s : State} {src : Nat} {at_ : Int} {crossing : Nat} {inputs : List Nat} (h0 : Keeps s₀ s) :
    Keeps s₀ (State.startFrom s src at_ crossing inputs) := by
  unfold State.startFrom
  refine Keeps.foldl ?_ ?_
  · intro a0 y1 h2
    extract_lets +onlyGivenNames x3
    exact State.takeStarts_keeps (State.setTiming_keeps h2)
  · exact h0
theorem State.takeLevel_keeps {s₀ s : State} {n : Nat} (h0 : Keeps s₀ s) : Keeps s₀ (State.takeLevel s n) := by
  unfold State.takeLevel
  extract_lets +onlyGivenNames x0
  exact State.wrN_keeps (State.setTiming_keeps h0)
theorem State.refreshCmp_keeps {s₀ s : State} {n reason : Nat} (h0 : Keeps s₀ s) : Keeps s₀ (State.refreshCmp s n reason) := by
  unfold State.refreshCmp
  extract_lets +onlyGivenNames x0
  extract_lets +onlyGivenNames x1
  extract_lets +onlyGivenNames x2
  extract_lets +onlyGivenNames x3
  have h4 : Keeps s₀ x3 := by
    unfold x3
    exact State.setTiming_keeps (State.takeLevel_keeps h0)
  clear_value x3
  extract_lets +onlyGivenNames x5
  extract_lets +onlyGivenNames x6
  have h7 : Keeps s₀ x6 := by
    unfold x6
    exact State.setTiming_keeps h0
  clear_value x6
  extract_lets +onlyGivenNames x8
  have h9 : Keeps s₀ x8 := by
    unfold x8
    exact Keeps.ite (State.openSet_keeps h4) (Keeps.ite (State.wrN_keeps (State.closeSet_keeps h7)) h0)
  clear_value x8
  exact State.updateAlarm_keeps h9
theorem State.stampEdge_keeps {s₀ s : State} {n : Nat} {rising : Bool} {crossing : Nat} (h0 : Keeps s₀ s) :
    Keeps s₀ (State.stampEdge s n rising crossing) := by
  unfold State.stampEdge
  extract_lets +onlyGivenNames x0
  refine Keeps.ite ?_ ?_
  · exact State.setBit_keeps (State.addSat_keeps (State.setTiming_keeps h0))
  · extract_lets +onlyGivenNames x1
    extract_lets +onlyGivenNames x2
    extract_lets +onlyGivenNames x3
    exact State.setTiming_keeps h0
theorem State.acceptEdge_keeps {s₀ s : State} {n : Nat} {rising : Bool} {crossing : Nat} (h0 : Keeps s₀ s) :
    Keeps s₀ (State.acceptEdge s n rising crossing) := by
  unfold State.acceptEdge
  extract_lets +onlyGivenNames x0
  extract_lets +onlyGivenNames x1
  extract_lets +onlyGivenNames x2
  have h3 : Keeps s₀ x2 := by
    unfold x2
    exact State.setTiming_keeps h0
  clear_value x2
  extract_lets +onlyGivenNames x4
  have h5 : Keeps s₀ x4 := by
    unfold x4
    exact State.wrN_keeps h3
  clear_value x4
  extract_lets +onlyGivenNames x6
  extract_lets +onlyGivenNames x7
  have h8 : Keeps s₀ x7 := by
    unfold x7
    exact State.edgePrim_keeps (State.edgePrim_keeps h5)
  clear_value x7
  extract_lets +onlyGivenNames x9
  have h10 : Keeps s₀ x9 := by
    unfold x9
    exact State.updateAlarm_keeps h8
  clear_value x9
  refine Keeps.ite ?_ ?_
  · extract_lets +onlyGivenNames x11
    extract_lets +onlyGivenNames x12
    extract_lets +onlyGivenNames x13
    extract_lets +onlyGivenNames x14
    have h15 : Keeps s₀ x14 := by
      unfold x14
      exact State.setTiming_keeps h10
    clear_value x14
    exact Keeps.ite (State.stampEdge_keeps h15) h15
  · exact h10
theorem State.glitch_keeps {s₀ s : State} {n : Nat} (h0 : Keeps s₀ s) : Keeps s₀ (State.glitch s n) := by
  unfold State.glitch
  extract_lets +onlyGivenNames x0
  extract_lets +onlyGivenNames x1
  have h2 : Keeps s₀ x1 := by
    unfold x1
    exact State.setTiming_keeps h0
  clear_value x1
  exact State.takeStarts_keeps (State.setBit_keeps (State.addSat_keeps h2))
theorem State.acceptDue_keeps {s₀ s : State} {n : Nat} (h0 : Keeps s₀ s) : Keeps s₀ (State.acceptDue s n) := by
  unfold State.acceptDue
  split
  · rename_i v0 v1
    exact h0
  · rename_i v2 v3 v4 v5
    exact Keeps.ite (State.acceptEdge_keeps h0) h0
theorem State.beginCross_keeps {s₀ s : State} {n : Nat} {rising : Bool} (h0 : Keeps s₀ s) : Keeps s₀ (State.beginCross s n rising) := by
  unfold State.beginCross
  extract_lets +onlyGivenNames x0
  extract_lets +onlyGivenNames x1
  exact State.setTiming_keeps h0
theorem State.holdoffDue_keeps {s₀ s : State} {n : Nat} (h0 : Keeps s₀ s) : Keeps s₀ (State.holdoffDue s n) := by
  unfold State.holdoffDue
  extract_lets +onlyGivenNames x0
  split
  · rename_i v1 v2
    exact h0
  · rename_i v3 v4 v5
    refine Keeps.ite ?_ ?_
    · exact h0
    · extract_lets +onlyGivenNames x6
      extract_lets +onlyGivenNames x7
      have h8 : Keeps s₀ x7 := by
        unfold x7
        exact State.setTiming_keeps h0
      clear_value x7
      extract_lets +onlyGivenNames x9
      have h10 : Keeps s₀ x9 := by
        unfold x9
        exact Keeps.ite (State.wrN_keeps h8) (Keeps.ite (State.wrN_keeps h8) h8)
      clear_value x9
      exact State.updateAlarm_keeps h10
theorem State.crossLevel_keeps {s₀ s : State} {n kind : Nat} (h0 : Keeps s₀ s) : Keeps s₀ (State.crossLevel s n kind) := by
  unfold State.crossLevel
  extract_lets +onlyGivenNames x0
  have h1 : Keeps s₀ x0 := by
    unfold x0
    exact State.holdoffDue_keeps (State.acceptDue_keeps h0)
  clear_value x0
  extract_lets +onlyGivenNames x2
  extract_lets +onlyGivenNames x3
  extract_lets +onlyGivenNames x4
  have h5 : Keeps s₀ x4 := by
    unfold x4
    exact State.setTiming_keeps h1
  clear_value x4
  extract_lets +onlyGivenNames x6
  refine Keeps.ite ?_ ?_
  · exact h5
  · refine Keeps.ite ?_ ?_
    · exact State.updateAlarm_keeps (State.takeLevel_keeps h5)
    · split
      · rename_i v7 v8 v9
        exact Keeps.ite h5 (State.glitch_keeps h5)
      · rename_i v10 v11 v12
        exact Keeps.ite h5 (State.glitch_keeps h5)
      · rename_i v13 v14
        exact Keeps.ite (State.beginCross_keeps h5) (Keeps.ite (State.beginCross_keeps h5) h5)

/-! ### CalCore -/

theorem State.setCal_keeps {s₀ s : State} {x : CalState} (h0 : Keeps s₀ s) : Keeps s₀ (State.setCal s x) := by
  unfold State.setCal
  exact Keeps.upd (s := s) h0 rfl rfl rfl rfl
theorem State.setCalRun_keeps {s₀ s : State} {r : CalRun} (h0 : Keeps s₀ s) : Keeps s₀ (State.setCalRun s r) := by
  unfold State.setCalRun
  exact Keeps.upd (s := s) h0 rfl rfl rfl rfl
theorem State.calSample_keeps {s₀ s : State} {n start instant raw : Nat} (h0 : Keeps s₀ s) : Keeps s₀ (State.calSample s n start instant raw) := by
  unfold State.calSample
  split
  · rename_i v0 v1
    exact h0
  · rename_i v2 v3 v4
    split
    · rename_i v5 v6 v7 v8 v9 v10 v11
      refine Keeps.ite ?_ ?_
      · exact h0
      · extract_lets +onlyGivenNames x12
        exact State.setCalRun_keeps h0
    · rename_i v13 v14 v15
      exact h0
theorem State.calSkipGroup_keeps {s₀ s : State} {g : Nat} (h0 : Keeps s₀ s) : Keeps s₀ (State.calSkipGroup s g) := by
  unfold State.calSkipGroup
  split
  · rename_i v0 v1
    exact h0
  · rename_i v2 v3 v4
    exact Keeps.ite (State.setCalRun_keeps h0) h0

/-! ### Grid -/

theorem State.setGroup_keeps {s₀ s : State} {g : Nat} {x : GroupState} (h0 : Keeps s₀ s) : Keeps s₀ (State.setGroup s g x) := by
  unfold State.setGroup
  exact Keeps.upd (s := s) h0 rfl rfl rfl rfl
theorem State.nextCycle_keeps {s₀ s : State} {g s0 : Nat} (h0 : Keeps s₀ s) : Keeps s₀ (State.nextCycle s g s0) := by
  unfold State.nextCycle
  exact State.setGroup_keeps h0
theorem State.noteSkip_keeps {s₀ s : State} {g t : Nat} (h0 : Keeps s₀ s) : Keeps s₀ (State.noteSkip s g t) := by
  unfold State.noteSkip
  refine Keeps.ite ?_ ?_
  · exact h0
  · split
    · rename_i v0 v1 v2 v3
      exact State.wrN_keeps (State.setGroup_keeps h0)
    · rename_i v4 v5
      exact h0
theorem State.advance_keeps {s₀ s : State} {g n start : Nat} (h0 : Keeps s₀ s) : Keeps s₀ (State.advance s g n start) := by
  unfold State.advance
  split
  · rename_i v0 v1 v2
    exact State.setGroup_keeps h0
  · rename_i v3 v4
    exact State.nextCycle_keeps h0
theorem State.setRingOf_keeps {s₀ s : State} {g : Nat} {x : Ring} (h0 : Keeps s₀ s) : Keeps s₀ (State.setRingOf s g x) := by
  unfold State.setRingOf
  exact Keeps.upd (s := s) h0 rfl rfl rfl rfl
theorem State.cutWord_keeps {s₀ s : State} {n t word spacing : Nat} (h0 : Keeps s₀ s) : Keeps s₀ (State.cutWord s n t word spacing) := by
  unfold State.cutWord
  extract_lets +onlyGivenNames x0
  exact Keeps.upd (s := s) h0 rfl rfl rfl rfl
theorem State.ringWrite_keeps {s₀ s : State} {n instant word spacing : Nat} (h : Keeps s₀ s) : Keeps s₀ (s.ringWrite n instant word spacing) := by
  unfold State.ringWrite
  extract_lets g cap old at_ c r seg m t u
  have hc : Keeps s₀ c := Keeps.ite (State.cutWord_keeps h) h
  clear_value c
  refine Keeps.ite hc ?_
  have ht : Keeps s₀ t := State.alikeLines_keeps (Keeps.updMem (s := c) hc rfl rfl (store20_wf _ _ _ _) id)
  clear_value t
  have hu : Keeps s₀ u :=
    Keeps.ite (Keeps.foldl (fun s x h => State.setLineError_keeps (State.setLineError_keeps h)) (State.countIn_keeps (State.countIn_keeps ht))) ht
  clear_value u
  exact State.setRingOf_keeps hu
theorem State.restartRing_keeps {s₀ s : State} {g at_ : Nat} (h0 : Keeps s₀ s) : Keeps s₀ (State.restartRing s g at_) := by
  unfold State.restartRing
  extract_lets +onlyGivenNames x0
  exact State.setBit_keeps (State.setRingOf_keeps h0)
theorem State.windrowAdd_keeps {s₀ s : State} {n t word : Nat} {v : Fl} {j : Nat} (h0 : Keeps s₀ s) : Keeps s₀ (State.windrowAdd s n t word v j) := by
  unfold State.windrowAdd
  extract_lets +onlyGivenNames x0
  extract_lets +onlyGivenNames x1
  extract_lets +onlyGivenNames x2
  refine Keeps.ite ?_ ?_
  · exact h0
  · extract_lets +onlyGivenNames x3
    extract_lets +onlyGivenNames x4
    extract_lets +onlyGivenNames x5
    extract_lets +onlyGivenNames x6
    exact Keeps.upd (s := s) h0 rfl rfl rfl rfl
theorem State.windrowWord_keeps {s₀ s : State} {n t word : Nat} {v : Fl} (h0 : Keeps s₀ s) : Keeps s₀ (State.windrowWord s n t word v) := by
  unfold State.windrowWord
  extract_lets +onlyGivenNames x0
  extract_lets +onlyGivenNames x1
  have h2 : Keeps s₀ x1 := by
    unfold x1
    refine Keeps.foldl ?_ ?_
    · intro a3 y4 h5
      exact State.windrowAdd_keeps h5
    · exact h0
  clear_value x1
  exact Keeps.ite (State.addSat_keeps h2) h2

/-! ### FeCore -/

theorem State.setInState_keeps {s₀ s : State} {n st : Nat} (h0 : Keeps s₀ s) : Keeps s₀ (State.setInState s n st) := by
  unfold State.setInState
  extract_lets +onlyGivenNames x0
  extract_lets +onlyGivenNames x1
  have h2 : Keeps s₀ x1 := by
    unfold x1
    exact State.wrN_keeps h0
  clear_value x1
  extract_lets +onlyGivenNames x3
  extract_lets +onlyGivenNames x4
  have h5 : Keeps s₀ x4 := by
    unfold x4
    exact State.setInput_keeps h2
  clear_value x4
  extract_lets +onlyGivenNames x6
  have h7 : Keeps s₀ x6 := by
    unfold x6
    exact Keeps.ite (State.clearPrim_keeps (State.clearPrim_keeps h5)) h5
  clear_value x6
  extract_lets +onlyGivenNames x8
  extract_lets +onlyGivenNames x9
  have h10 : Keeps s₀ x9 := by
    unfold x9
    exact Keeps.ite (State.setInput_keeps h7) h7
  clear_value x9
  exact Keeps.ite h10 (State.refreshCmp_keeps h10)
theorem State.openWindow_keeps {s₀ s : State} {n t : Nat} (h0 : Keeps s₀ s) : Keeps s₀ (State.openWindow s n t) := by
  unfold State.openWindow
  extract_lets +onlyGivenNames x0
  exact State.setInput_keeps h0
theorem State.setEvent_keeps {s₀ s : State} {n t : Nat} (h0 : Keeps s₀ s) : Keeps s₀ (State.setEvent s n t) := by
  unfold State.setEvent
  extract_lets +onlyGivenNames x0
  exact Keeps.ite h0 (State.setInState_keeps (State.openWindow_keeps h0))
theorem State.enableInput_keeps {s₀ s : State} {n t : Nat} (h0 : Keeps s₀ s) : Keeps s₀ (State.enableInput s n t) := by
  unfold State.enableInput
  exact Keeps.ite (State.setInState_keeps (State.openWindow_keeps h0)) h0
theorem State.holdInput_keeps {s₀ s : State} {n reason : Nat} (h0 : Keeps s₀ s) : Keeps s₀ (State.holdInput s n reason) := by
  unfold State.holdInput
  extract_lets +onlyGivenNames x0
  extract_lets +onlyGivenNames x1
  refine Keeps.ite ?_ ?_
  · exact h0
  · extract_lets +onlyGivenNames x2
    have h3 : Keeps s₀ x2 := by
      unfold x2
      exact State.setInput_keeps h0
    clear_value x2
    exact Keeps.ite h3 (State.setInState_keeps h3)
theorem State.releaseInput_keeps {s₀ s : State} {n reason t : Nat} (h0 : Keeps s₀ s) : Keeps s₀ (State.releaseInput s n reason t) := by
  unfold State.releaseInput
  extract_lets +onlyGivenNames x0
  refine Keeps.ite ?_ ?_
  · exact h0
  · extract_lets +onlyGivenNames x1
    extract_lets +onlyGivenNames x2
    have h3 : Keeps s₀ x2 := by
      unfold x2
      exact State.setInput_keeps h0
    clear_value x2
    refine Keeps.ite ?_ ?_
    · exact h3
    · extract_lets +onlyGivenNames x4
      extract_lets +onlyGivenNames x5
      have h6 : Keeps s₀ x5 := by
        unfold x5
        exact State.setInput_keeps h3
      clear_value x5
      exact Keeps.ite (State.setInState_keeps h6) (State.setInState_keeps (State.openWindow_keeps h6))
theorem State.align_keeps {s₀ s : State} {g from_ e : Nat} (h0 : Keeps s₀ s) : Keeps s₀ (State.align s g from_ e) := by
  unfold State.align
  extract_lets +onlyGivenNames x0
  extract_lets +onlyGivenNames x1
  have h2 : Keeps s₀ x1 := by
    unfold x1
    exact State.setGroup_keeps h0
  clear_value x1
  exact State.setBit_keeps (State.wrN_keeps h2)
theorem State.stopGroup_keeps {s₀ s : State} {g reason : Nat} (h0 : Keeps s₀ s) : Keeps s₀ (State.stopGroup s g reason) := by
  unfold State.stopGroup
  extract_lets +onlyGivenNames x0
  have h1 : Keeps s₀ x0 := by
    unfold x0
    exact State.noteSkip_keeps h0
  clear_value x0
  extract_lets +onlyGivenNames x2
  extract_lets +onlyGivenNames x3
  extract_lets +onlyGivenNames x4
  have h5 : Keeps s₀ x4 := by
    unfold x4
    exact State.setGroup_keeps h1
  clear_value x4
  extract_lets +onlyGivenNames x6
  extract_lets +onlyGivenNames x7
  have h8 : Keeps s₀ x7 := by
    unfold x7
    exact Keeps.ite (State.setBit_keeps (State.wrN_keeps (State.setGroup_keeps (State.calSkipGroup_keeps h5)))) h5
  clear_value x7
  refine Keeps.foldl ?_ ?_
  · intro a9 y10 h11
    exact State.holdInput_keeps h11
  · exact h8
theorem State.unstopGroup_keeps {s₀ s : State} {g reason t : Nat} (h0 : Keeps s₀ s) : Keeps s₀ (State.unstopGroup s g reason t) := by
  unfold State.unstopGroup
  extract_lets +onlyGivenNames x0
  extract_lets +onlyGivenNames x1
  extract_lets +onlyGivenNames x2
  have h3 : Keeps s₀ x2 := by
    unfold x2
    exact State.setGroup_keeps h0
  clear_value x2
  extract_lets +onlyGivenNames x4
  have h5 : Keeps s₀ x4 := by
    unfold x4
    exact Keeps.ite (Keeps.ite (State.wrN_keeps h3) (State.align_keeps h3)) h3
  clear_value x4
  refine Keeps.foldl ?_ ?_
  · intro a6 y7 h8
    exact State.releaseInput_keeps h8
  · exact h5
theorem State.faultGroup_keeps {s₀ s : State} {g : Nat} (h0 : Keeps s₀ s) : Keeps s₀ (State.faultGroup s g) := by
  unfold State.faultGroup
  extract_lets +onlyGivenNames x0
  have h1 : Keeps s₀ x0 := by
    unfold x0
    exact State.noteSkip_keeps h0
  clear_value x0
  exact State.setBit_keeps (State.wrN_keeps (State.setGroup_keeps (State.calSkipGroup_keeps h1)))
theorem State.alignUnderStops_keeps {s₀ s : State} {g from_ e : Nat} (h0 : Keeps s₀ s) : Keeps s₀ (State.alignUnderStops s g from_ e) := by
  unfold State.alignUnderStops
  extract_lets +onlyGivenNames x0
  have h1 : Keeps s₀ x0 := by
    unfold x0
    exact State.align_keeps h0
  clear_value x0
  exact Keeps.ite h1 (State.setBit_keeps (State.wrN_keeps h1))
theorem State.regrid_keeps {s₀ s old : State} {g t : Nat} (h0 : Keeps s₀ s) : Keeps s₀ (State.regrid s old g t) := by
  unfold State.regrid
  extract_lets +onlyGivenNames x0
  extract_lets +onlyGivenNames x1
  extract_lets +onlyGivenNames x2
  have h3 : Keeps s₀ x2 := by
    unfold x2
    exact State.wrN_keeps h0
  clear_value x2
  extract_lets +onlyGivenNames x4
  extract_lets +onlyGivenNames x5
  extract_lets +onlyGivenNames x6
  have h7 : Keeps s₀ x6 := by
    unfold x6
    exact State.setGroup_keeps h3
  clear_value x6
  exact Keeps.ite h7 (Keeps.ite (Keeps.ite h7 (State.wrN_keeps h7)) (State.alignUnderStops_keeps h7))
theorem State.releaseCal_keeps {s₀ s : State} {inputs : List Nat} {t : Nat} (h0 : Keeps s₀ s) : Keeps s₀ (State.releaseCal s inputs t) := by
  unfold State.releaseCal
  extract_lets +onlyGivenNames x0
  extract_lets +onlyGivenNames x1
  have h2 : Keeps s₀ x1 := by
    unfold x1
    refine Keeps.foldl ?_ ?_
    · intro a3 y4 h5
      exact State.noteSkip_keeps h5
    · exact h0
  clear_value x1
  extract_lets +onlyGivenNames x6
  have h7 : Keeps s₀ x6 := h2
  clear_value x6
  extract_lets +onlyGivenNames x8
  have h9 : Keeps s₀ x8 := by
    unfold x8
    refine Keeps.foldl ?_ ?_
    · intro a10 y11 h12
      exact State.releaseInput_keeps h12
    · exact h2
  clear_value x8
  extract_lets +onlyGivenNames x13
  have h14 : Keeps s₀ x13 := by
    unfold x13
    refine Keeps.foldl ?_ ?_
    · intro a15 y16 h17
      exact State.setInState_keeps h17
    · exact h9
  clear_value x13
  refine Keeps.foldl ?_ ?_
  · intro a18 y19 h20
    exact State.regrid_keeps h20
  · exact h14
theorem State.issueWord_keeps {s₀ s : State} {n instant word : Nat} {lin : Word} {spacing hitAt done : Nat} (h0 : Keeps s₀ s) :
    Keeps s₀ (State.issueWord s n instant word lin spacing hitAt done) := by
  unfold State.issueWord
  extract_lets +onlyGivenNames x0
  extract_lets +onlyGivenNames x1
  have h2 : Keeps s₀ x1 := by
    unfold x1
    exact State.setInput_keeps h0
  clear_value x1
  extract_lets +onlyGivenNames x3
  have h4 : Keeps s₀ x3 := by
    unfold x3
    exact Keeps.ite (State.setBit_keeps h2) h2
  clear_value x3
  extract_lets +onlyGivenNames x5
  have h6 : Keeps s₀ x5 := by
    unfold x5
    exact State.ringWrite_keeps h4
  clear_value x5
  extract_lets +onlyGivenNames x7
  extract_lets +onlyGivenNames x8
  have h9 : Keeps s₀ x8 := by
    unfold x8
    exact State.windrowWord_keeps h6
  clear_value x8
  exact Keeps.ite h9 (State.samplePrim_keeps (State.samplePrim_keeps h9))
theorem State.countSet_keeps {s₀ s : State} {n : Nat} (h0 : Keeps s₀ s) : Keeps s₀ (State.countSet s n) := by
  unfold State.countSet
  extract_lets +onlyGivenNames x0
  refine Keeps.ite ?_ ?_
  · exact h0
  · extract_lets +onlyGivenNames x1
    have h2 : Keeps s₀ x1 := by
      unfold x1
      exact State.setInput_keeps h0
    clear_value x1
    exact Keeps.ite (State.setInState_keeps h2) h2
theorem State.outputValue_keeps {s₀ s : State} {n instant start : Nat} {f : FiltVal} {spacing hitAt done : Nat} {paired : Bool} (h0 : Keeps s₀ s) :
    Keeps s₀ (State.outputValue s n instant start f spacing hitAt done paired) := by
  unfold State.outputValue
  extract_lets +onlyGivenNames x0
  extract_lets +onlyGivenNames x2
  extract_lets +onlyGivenNames x3
  extract_lets +onlyGivenNames x4
  have h5 : Keeps s₀ x4 := by
    unfold x4
    exact State.setInput_keeps h0
  clear_value x4
  extract_lets +onlyGivenNames x6
  refine Keeps.ite ?_ ?_
  · extract_lets +onlyGivenNames x7
    extract_lets +onlyGivenNames x8
    extract_lets +onlyGivenNames x9
    have h10 : Keeps s₀ x9 := by
      unfold x9
      exact State.setInput_keeps h5
    clear_value x9
    exact State.issueWord_keeps h10
  · extract_lets +onlyGivenNames x11
    split
    · rename_i v12 v13 v14 v15
      extract_lets +onlyGivenNames x16
      extract_lets +onlyGivenNames x17
      split
      · rename_i v18 v19 v20 v21
        extract_lets +onlyGivenNames x22
        have h23 : Keeps s₀ x22 := by
          unfold x22
          split
          · rename_i v24 v25
            exact State.setBit_keeps h5
          · rename_i v26
            exact h5
        clear_value x22
        extract_lets +onlyGivenNames x27
        extract_lets +onlyGivenNames x28
        have h29 : Keeps s₀ x28 := by
          unfold x28
          exact State.setInput_keeps h23
        clear_value x28
        extract_lets +onlyGivenNames x30
        have h31 : Keeps s₀ x30 := by
          unfold x30
          exact Keeps.ite (State.setBit_keeps h29) h29
        clear_value x30
        extract_lets +onlyGivenNames x32
        have h33 : Keeps s₀ x32 := by
          unfold x32
          exact State.issueWord_keeps h31
        clear_value x32
        exact Keeps.ite (State.countSet_keeps h33) h33
theorem State.issueStl_keeps {s₀ s : State} {n instant : Nat} (h0 : Keeps s₀ s) : Keeps s₀ (State.issueStl s n instant) := by
  unfold State.issueStl
  extract_lets +onlyGivenNames x0
  extract_lets +onlyGivenNames x1
  extract_lets +onlyGivenNames x2
  have h3 : Keeps s₀ x2 := by
    unfold x2
    exact State.setInput_keeps h0
  clear_value x2
  exact State.issueWord_keeps h3
theorem State.screen_keeps {s₀ s : State} {n t : Nat} {hit : Bool} (h0 : Keeps s₀ s) : Keeps s₀ (State.screen s n t hit) := by
  unfold State.screen
  extract_lets +onlyGivenNames x0
  extract_lets +onlyGivenNames x1
  refine Keeps.ite ?_ ?_
  · exact h0
  · refine Keeps.ite ?_ ?_
    · exact h0
    · refine Keeps.ite ?_ ?_
      · refine Keeps.ite ?_ ?_
        · exact State.setInput_keeps h0
        · refine Keeps.ite ?_ ?_
          · extract_lets +onlyGivenNames x2
            have h3 : Keeps s₀ x2 := by
              unfold x2
              exact State.setBit_keeps (State.setInput_keeps h0)
            clear_value x2
            exact State.setInState_keeps (State.openWindow_keeps h3)
          · exact State.setInput_keeps h0
      · refine Keeps.ite ?_ ?_
        · refine Keeps.ite ?_ ?_
          · extract_lets +onlyGivenNames x4
            have h5 : Keeps s₀ x4 := by
              unfold x4
              exact State.setBit_keeps (State.addSat_keeps (State.setInput_keeps h0))
            clear_value x4
            exact State.setInState_keeps h5
          · exact Keeps.ite (State.setInState_keeps (State.setInput_keeps h0)) h0
        · exact Keeps.ite (State.setInState_keeps h0) h0
theorem State.endConfirmation_keeps {s₀ s : State} {n t : Nat} {beyond : Bool} (h0 : Keeps s₀ s) : Keeps s₀ (State.endConfirmation s n t beyond) := by
  unfold State.endConfirmation
  refine Keeps.ite ?_ ?_
  · exact h0
  · exact Keeps.ite (State.setInState_keeps (State.setBit_keeps (State.setInput_keeps h0))) (State.setInState_keeps (State.openWindow_keeps h0))

end Sys2Proof.Machine
end

