-- ==== Sys2Proof/Laws/KeepsBlocks.lean ====
section
/-! SUPPORT. What the operations and the commands of a group keep (see Keeps): alarms, saves, memory and timer commands. -/

set_option linter.all false

namespace Sys2Proof.Machine

/-! ### Alm -/

theorem State.passAlarms_keeps {s₀ s : State} {d : Nat} {es : List AlarmEvent} (h0 : Keeps s₀ s) : Keeps s₀ (State.passAlarms s d es) := by
  unfold State.passAlarms
  exact Keeps.ite h0 (Keeps.upd (s := s) h0 rfl rfl rfl rfl)
theorem alarmFlitReceive_keeps {s₀ : State} {d src : Nat} {good : Bool} {s : State} (h3 : Keeps s₀ s) : Keeps s₀ (alarmFlitReceive d src good s) := by
  unfold alarmFlitReceive
  split
  · rename_i v0 v1 v2
    exact h3
  · rename_i v3 v4 v5 v6 v7
    refine Keeps.ite ?_ ?_
    · exact h3
    · refine Keeps.ite ?_ ?_
      · exact State.countIn_keeps h3
      · extract_lets +onlyGivenNames x8
        extract_lets +onlyGivenNames x9
        have h10 : Keeps s₀ x9 := by
          unfold x9
          exact State.passAlarms_keeps (State.countIn_keeps (Keeps.upd (s := s) h3 rfl rfl rfl rfl))
        clear_value x9
        exact Keeps.ite (State.matrixTake_keeps h10) h10
theorem alarmRefresh_keeps {s₀ : State} {l : Nat} {s : State} (h1 : Keeps s₀ s) : Keeps s₀ (alarmRefresh l s) := by
  unfold alarmRefresh
  exact Keeps.ite (State.sendWord_keeps h1) h1
theorem remoteEntryExpiry_keeps {s₀ s : State} (h0 : Keeps s₀ s) : Keeps s₀ (remoteEntryExpiry s) := by
  unfold remoteEntryExpiry
  split
  · rename_i v0 v1
    exact h0
  · rename_i v2 v3 v4
    extract_lets +onlyGivenNames x5
    exact State.send_keeps (State.matrixStep_keeps h0)
theorem almAckBody_keeps {s₀ : State} {p : List Word} {s : State} (h1 : Keeps s₀ s) : Keeps s₀ (almAckBody p s).1 := by
  unfold almAckBody
  exact Keeps.ite₁ (refuse_keeps h1) (Keeps.ite₁ (refuse_keeps h1) h1)
theorem State.drainFlits_keeps {s₀ s : State} {b : Nat} (h0 : Keeps s₀ s) : Keeps s₀ (State.drainFlits s b) := by
  unfold State.drainFlits
  extract_lets +onlyGivenNames x0
  extract_lets +onlyGivenNames x1
  extract_lets +onlyGivenNames x2
  extract_lets +onlyGivenNames x3
  have h4 : Keeps s₀ x3 := by
    unfold x3
    exact Keeps.upd (s := s) h0 rfl rfl rfl rfl
  clear_value x3
  extract_lets +onlyGivenNames x5
  refine Keeps.foldl ?_ ?_
  · intro a6 y7 h8
    exact State.matrixTake_keeps h8
  · exact State.passAlarms_keeps h4
theorem almAckAct_keeps {s₀ s : State} (h0 : Keeps s₀ s) : Keeps s₀ (almAckAct s) := by
  unfold almAckAct
  split
  · rename_i v0 v1
    exact h0
  · rename_i v2 v3 v4
    refine Keeps.ite ?_ ?_
    · exact h0
    · extract_lets +onlyGivenNames x5
      extract_lets +onlyGivenNames x6
      have h7 : Keeps s₀ x6 := by
        unfold x6
        exact State.drainFlits_keeps h0
      clear_value x6
      extract_lets +onlyGivenNames x8
      extract_lets +onlyGivenNames x9
      extract_lets +onlyGivenNames x10
      have h11 : Keeps s₀ x10 := by
        unfold x10
        exact State.send_keeps (State.matrixStep_keeps h7)
      clear_value x10
      exact State.finish_keeps h11
theorem padReadbackFault_keeps {s₀ : State} {k : Nat} {level : Bool} {s : State} (h2 : Keeps s₀ s) : Keeps s₀ (padReadbackFault k level s) := by
  unfold padReadbackFault
  split
  · rename_i v0 v1
    exact h2
  · rename_i v2 v3 v4
    exact Keeps.ite h2 (State.logEvent_keeps (State.setBit_keeps h2))
theorem State.setLoop_keeps {s₀ s : State} {k : Nat} {x : Loop} (h0 : Keeps s₀ s) : Keeps s₀ (State.setLoop s k x) := by
  unfold State.setLoop
  exact Keeps.upd (s := s) h0 rfl rfl rfl rfl
theorem State.driveLoop_keeps {s₀ s : State} {k : Nat} (h0 : Keeps s₀ s) : Keeps s₀ (State.driveLoop s k) := by
  unfold State.driveLoop
  extract_lets +onlyGivenNames x0
  extract_lets +onlyGivenNames x1
  extract_lets +onlyGivenNames x2
  extract_lets +onlyGivenNames x3
  extract_lets +onlyGivenNames x4
  have h5 : Keeps s₀ x4 := by
    unfold x4
    exact State.wrN_keeps (State.setLoop_keeps h0)
  clear_value x4
  exact State.putBit_keeps (State.putBit_keeps h5)
theorem loopUpdate_keeps {s₀ : State} {k : Nat} {s : State} (h1 : Keeps s₀ s) : Keeps s₀ (loopUpdate k s) := by
  unfold loopUpdate
  exact Keeps.ite h1 (State.driveLoop_keeps h1)
theorem State.loopFault_keeps {s₀ s : State} {k bit microA : Nat} (h0 : Keeps s₀ s) : Keeps s₀ (State.loopFault s k bit microA) := by
  unfold State.loopFault
  exact State.logEvent_keeps (State.addSat_keeps (State.setBit_keeps h0))
theorem loopReadbackCheck_keeps {s₀ : State} {k microA : Nat} {s : State} (h2 : Keeps s₀ s) : Keeps s₀ (loopReadbackCheck k microA s) := by
  unfold loopReadbackCheck
  extract_lets +onlyGivenNames x0
  extract_lets +onlyGivenNames x1
  have h2 : Keeps s₀ x1 := by
    unfold x1
    exact State.wrN_keeps h2
  clear_value x1
  extract_lets +onlyGivenNames x3
  extract_lets +onlyGivenNames x4
  extract_lets +onlyGivenNames x5
  extract_lets +onlyGivenNames x6
  extract_lets +onlyGivenNames x7
  extract_lets +onlyGivenNames x8
  extract_lets +onlyGivenNames x9
  have h10 : Keeps s₀ x9 := by
    unfold x9
    exact State.setLoop_keeps h2
  clear_value x9
  extract_lets +onlyGivenNames x11
  have h12 : Keeps s₀ x11 := by
    unfold x11
    exact Keeps.ite (State.loopFault_keeps h10) h10
  clear_value x11
  exact Keeps.ite (State.loopFault_keeps h12) h12
theorem loopRetry_keeps {s₀ : State} {k : Nat} {s : State} (h1 : Keeps s₀ s) : Keeps s₀ (loopRetry k s) := by
  unfold loopRetry
  extract_lets +onlyGivenNames x0
  split
  · rename_i v1 v2
    exact h1
  · rename_i v3 v4 v5
    exact Keeps.ite h1 (State.setLoop_keeps h1)
theorem execAlarmFlitReceive_keeps {s₀ s : State} {t : Nat} {die : Fin 2} {source : Fin 5} {crcGood : Bool} (h₀ : Keeps s₀ s) :
    ∃ u, execAlarmFlitReceive t die source crcGood s = .next u ∧ Keeps s₀ u :=
  ⟨_, rfl, alarmFlitReceive_keeps (State.at__keeps h₀)⟩
theorem execAlarmRefresh_keeps {s₀ s : State} {t : Nat} {line : Fin 8} (h₀ : Keeps s₀ s) :
    ∃ u, execAlarmRefresh t line s = .next u ∧ Keeps s₀ u :=
  ⟨_, rfl, alarmRefresh_keeps (State.at__keeps h₀)⟩
theorem execRemoteEntryExpiry_keeps {s₀ s : State} {t : Nat} (h₀ : Keeps s₀ s) :
    ∃ u, execRemoteEntryExpiry t s = .next u ∧ Keeps s₀ u :=
  ⟨_, rfl, remoteEntryExpiry_keeps (State.at__keeps h₀)⟩
theorem execAlmAck_keeps {s₀ s : State} {h : Hdr} {p : List Word} (h₀ : Keeps s₀ s) :
    ∃ u, execAlmAck h p s = .next u ∧ Keeps s₀ u :=
  ⟨_, rfl, State.receive_keeps h₀ fun _ h₁ => almAckBody_keeps h₁⟩
theorem execAlmAckAct_keeps {s₀ s : State} {t : Nat} (h₀ : Keeps s₀ s) :
    ∃ u, execAlmAckAct t s = .next u ∧ Keeps s₀ u :=
  ⟨_, rfl, almAckAct_keeps (State.at__keeps h₀)⟩
theorem execPadReadbackFault_keeps {s₀ s : State} {t : Nat} {pin : Fin 8} {level : Bool} (h₀ : Keeps s₀ s) :
    ∃ u, execPadReadbackFault t pin level s = .next u ∧ Keeps s₀ u :=
  ⟨_, rfl, padReadbackFault_keeps (State.at__keeps h₀)⟩
theorem execLoopUpdate_keeps {s₀ s : State} {t : Nat} {loop : Fin 8} (h₀ : Keeps s₀ s) :
    ∃ u, execLoopUpdate t loop s = .next u ∧ Keeps s₀ u :=
  ⟨_, rfl, loopUpdate_keeps (State.at__keeps h₀)⟩
theorem execLoopReadbackCheck_keeps {s₀ s : State} {t : Nat} {loop : Fin 8} {microA : Nat} (h₀ : Keeps s₀ s) :
    ∃ u, execLoopReadbackCheck t loop microA s = .next u ∧ Keeps s₀ u :=
  ⟨_, rfl, loopReadbackCheck_keeps (State.at__keeps h₀)⟩
theorem execLoopRetry_keeps {s₀ s : State} {t : Nat} {loop : Fin 8} (h₀ : Keeps s₀ s) :
    ∃ u, execLoopRetry t loop s = .next u ∧ Keeps s₀ u :=
  ⟨_, rfl, loopRetry_keeps (State.at__keeps h₀)⟩

/-! ### Flash -/

theorem State.setMgt_keeps {s₀ s : State} {m : MgtState} (h0 : Keeps s₀ s) : Keeps s₀ (State.setMgt s m) := by
  unfold State.setMgt
  exact Keeps.upd (s := s) h0 rfl rfl rfl rfl
theorem State.setFlash_keeps {s₀ s : State} {d : Nat} {x : Flash} (h0 : Keeps s₀ s) : Keeps s₀ (State.setFlash s d x) := by
  unfold State.setFlash
  exact State.setMgt_keeps h0
theorem State.startFlash_keeps {s₀ s : State} (h0 : Keeps s₀ s) : Keeps s₀ (State.startFlash s) := by
  unfold State.startFlash
  split
  · rename_i v0 v1
    exact State.wrN_keeps h0
  · rename_i v2 v3 v4
    exact State.wrN_keeps (Keeps.upd (s := s) h0 rfl rfl rfl rfl)
  · rename_i v5 v6 v7 v8
    exact State.wrN_keeps h0
  · rename_i v9 v10 v11 v12 v13 v14
    exact State.wrN_keeps h0
  · rename_i v15 v16 v17 v18 v19
    extract_lets +onlyGivenNames x20
    extract_lets +onlyGivenNames x21
    have h22 : Keeps s₀ x21 := by
      unfold x21
      exact State.wrN_keeps h0
    clear_value x21
    exact Keeps.ite h22 (State.setFlash_keeps h22)
theorem State.queueFlash_keeps {s₀ s : State} {op : FlashOp} (h0 : Keeps s₀ s) : Keeps s₀ (State.queueFlash s op) := by
  unfold State.queueFlash
  extract_lets +onlyGivenNames x0
  extract_lets +onlyGivenNames x1
  extract_lets +onlyGivenNames x2
  have h3 : Keeps s₀ x2 := by
    unfold x2
    exact State.setMgt_keeps h0
  clear_value x2
  exact Keeps.ite (State.startFlash_keeps h3) h3
theorem State.endFlash_keeps {s₀ s : State} (h0 : Keeps s₀ s) : Keeps s₀ (State.endFlash s) := by
  unfold State.endFlash
  exact State.startFlash_keeps (State.setMgt_keeps h0)
theorem State.requestSave_keeps {s₀ s : State} (h0 : Keeps s₀ s) : Keeps s₀ (State.requestSave s) := by
  unfold State.requestSave
  extract_lets +onlyGivenNames x0
  extract_lets +onlyGivenNames x1
  have h2 : Keeps s₀ x1 := by
    unfold x1
    exact State.setMgt_keeps h0
  clear_value x1
  exact Keeps.ite (State.setMgt_keeps h2) (State.queueFlash_keeps h2)
theorem configSave_keeps {s₀ s : State} (h0 : Keeps s₀ s) : Keeps s₀ (configSave s) := by
  unfold configSave
  split
  · rename_i v0 v1 v2
    extract_lets +onlyGivenNames x3
    extract_lets +onlyGivenNames x4
    have h5 : Keeps s₀ x4 := by
      unfold x4
      exact State.setBit_keeps (State.wrN_keeps (State.setMgt_keeps h0))
    clear_value x4
    extract_lets +onlyGivenNames x6
    have h7 : Keeps s₀ x6 := by
      unfold x6
      exact State.endFlash_keeps h5
    clear_value x6
    exact Keeps.ite (State.requestSave_keeps (State.setMgt_keeps h7)) h7
  · rename_i v8 v9
    exact h0
theorem configSaveHourly_keeps {s₀ s : State} (h0 : Keeps s₀ s) : Keeps s₀ (configSaveHourly s) := by
  unfold configSaveHourly
  exact Keeps.ite (State.requestSave_keeps h0) h0
theorem execConfigSave_keeps {s₀ s : State} {t : Nat} (h₀ : Keeps s₀ s) :
    ∃ u, execConfigSave t s = .next u ∧ Keeps s₀ u :=
  ⟨_, rfl, configSave_keeps (State.at__keeps h₀)⟩
theorem execConfigSaveHourly_keeps {s₀ s : State} {t : Nat} (h₀ : Keeps s₀ s) :
    ∃ u, execConfigSaveHourly t s = .next u ∧ Keeps s₀ u :=
  ⟨_, rfl, configSaveHourly_keeps (State.at__keeps h₀)⟩

/-! ### Mem -/

theorem plotNewAct_keeps {s₀ s : State} {p : List Word} (h0 : Keeps s₀ s) : Keeps s₀ (plotNewAct s p).1 := by
  unfold plotNewAct
  split
  · rename_i v0 v1 v2 v3
    exact h0
  · rename_i v4 v5
    extract_lets +onlyGivenNames x6
    extract_lets +onlyGivenNames x7
    extract_lets +onlyGivenNames x8
    extract_lets +onlyGivenNames x9
    extract_lets +onlyGivenNames x10
    extract_lets +onlyGivenNames x11
    extract_lets +onlyGivenNames x12
    have h13 : Keeps s₀ x12 := by
      unfold x12
      exact Keeps.upd (s := s) h0 rfl rfl rfl rfl
    clear_value x12
    exact Keeps.fst_mk (State.setBit_keeps h13)
theorem plotFreeAct_keeps {s₀ s : State} {p : List Word} (h0 : Keeps s₀ s) : Keeps s₀ (plotFreeAct s p).1 := by
  unfold plotFreeAct
  split
  · rename_i v0 v1 v2 v3
    exact h0
  · rename_i v4 v5
    extract_lets +onlyGivenNames x6
    extract_lets +onlyGivenNames x7
    extract_lets +onlyGivenNames x8
    extract_lets +onlyGivenNames x9
    extract_lets +onlyGivenNames x10
    have h11 : Keeps s₀ x10 := by
      unfold x10
      exact Keeps.upd (s := s) h0 rfl rfl rfl rfl
    clear_value x10
    exact Keeps.fst_mk (State.setBit_keeps h11)
theorem State.plotsAhead_keeps {s₀ s : State} (h0 : Keeps s₀ s) : Keeps s₀ (State.plotsAhead s) := by
  unfold State.plotsAhead
  refine Keeps.foldl ?_ ?_
  · intro a0 y1 h2
    exact Keeps.ite (plotNewAct_keeps h2) (Keeps.ite (plotFreeAct_keeps h2) h2)
  · exact h0
theorem plotNewBody_keeps {s₀ : State} {p : List Word} {s : State} (h1 : Keeps s₀ s) : Keeps s₀ (plotNewBody p s).1 := by
  unfold plotNewBody
  split
  · rename_i v0 v1 v2 v3
    exact refuse_keeps h1
  · rename_i v4 v5
    exact h1
theorem plotFreeBody_keeps {s₀ : State} {p : List Word} {s : State} (h1 : Keeps s₀ s) : Keeps s₀ (plotFreeBody p s).1 := by
  unfold plotFreeBody
  split
  · rename_i v0 v1 v2 v3
    exact refuse_keeps h1
  · rename_i v4 v5
    exact h1
theorem plotListBody_keeps {s₀ : State} {p : List Word} {s : State} (h1 : Keeps s₀ s) : Keeps s₀ (plotListBody p s).1 := by
  unfold plotListBody
  exact Keeps.ite₁ (refuse_keeps h1) (okay_keeps h1)
theorem State.diagNote_keeps {s₀ s : State} {granary : Bool} {d w : Nat} (h0 : Keeps s₀ s) : Keeps s₀ (State.diagNote s granary d w) := by
  unfold State.diagNote
  extract_lets +onlyGivenNames x0
  extract_lets +onlyGivenNames x1
  have h2 : Keeps s₀ x1 := by
    unfold x1
    exact Keeps.ite (State.noteLine_keeps h0) (State.noteWord_keeps h0)
  clear_value x1
  exact Keeps.ite h2 (State.logEvent_keeps h2)
theorem memReadWords_keeps {s₀ : State} {p : List Word} {s : State} (h1 : Keeps s₀ s) : Keeps s₀ (memReadWords p s).1 := by
  unfold memReadWords
  extract_lets +onlyGivenNames x0
  refine Keeps.ite₁ ?_ ?_
  · exact refuse_keeps h1
  · refine Keeps.ite₁ ?_ ?_
    · exact refuse_keeps h1
    · split
      · rename_i v1 v2
        exact refuse_keeps h1
      · rename_i v3 v4 v5 v6
        extract_lets +onlyGivenNames x7
        extract_lets +onlyGivenNames x8
        extract_lets +onlyGivenNames x9
        refine okay_keeps ?_
        refine Keeps.foldl ?_ ?_
        · intro a10 y11 h12
          exact State.diagNote_keeps (State.diagNote_keeps h12)
        · exact h1
theorem State.injectLine_keeps {s₀ s : State} {d line : Nat} {e : LineError} (h0 : Keeps s₀ s) : Keeps s₀ (State.injectLine s d line e) := by
  unfold State.injectLine
  exact State.setLineError_keeps (State.writeBackLine_keeps (State.noteLine_keeps h0))
theorem State.injectWord_keeps {s₀ s : State} {d w : Nat} {e : WordError} (h0 : Keeps s₀ s) : Keeps s₀ (State.injectWord s d w e) := by
  unfold State.injectWord
  exact State.setWordError_keeps (State.writeBackWord_keeps (State.noteWord_keeps h0))
theorem checkbitRun_keeps {s₀ : State} {p : List Word} {s : State} (h1 : Keeps s₀ s) : Keeps s₀ (checkbitRun p s).1 := by
  unfold checkbitRun
  extract_lets +onlyGivenNames x0
  extract_lets +onlyGivenNames x1
  extract_lets +onlyGivenNames x2
  refine Keeps.ite₁ ?_ ?_
  · exact refuse_keeps h1
  · refine Keeps.ite₁ ?_ ?_
    · exact refuse_keeps h1
    · refine Keeps.ite₁ ?_ ?_
      · exact refuse_keeps h1
      · refine Keeps.ite₁ ?_ ?_
        · split
          · rename_i v3 v4
            exact refuse_keeps h1
          · rename_i v5 v6 v7
            extract_lets +onlyGivenNames x8
            refine Keeps.ite₁ ?_ ?_
            · exact refuse_keeps h1
            · extract_lets +onlyGivenNames x9
              exact okay_keeps (State.injectLine_keeps (State.injectLine_keeps h1))
        · refine Keeps.ite₁ ?_ ?_
          · exact refuse_keeps h1
          · extract_lets +onlyGivenNames x10
            exact okay_keeps (State.injectWord_keeps (State.injectWord_keeps (State.touch_keeps h1)))
theorem State.runWait_keeps {s₀ s : State} {x : SramWait} (h : Keeps s₀ s) : Keeps s₀ (s.runWait x) := by
  unfold State.runWait
  split
  · exact State.access_keeps h
  · exact h
  · exact Keeps.ite (State.answer_keeps (memReadWords_keeps h)) h
  · exact Keeps.ite (State.answer_keeps (checkbitRun_keeps h)) h
theorem State.settle_keeps {s₀ s : State} (h0 : Keeps s₀ s) : Keeps s₀ (State.settle s) := by
  unfold State.settle
  extract_lets +onlyGivenNames x0
  have h1 : Keeps s₀ x0 := by
    unfold x0
    refine serveUntil_keeps ?_ ?_
    · intro z2 z3 z4
      exact State.runWait_keeps z4
    · exact h0
  clear_value x0
  exact Keeps.upd (s := x0) h1 rfl rfl rfl rfl
theorem State.firmware_keeps {s₀ s : State} {span : Option (Nat × Nat)} {write : Bool} {work : SramWork} {body : State → State × Answer}
    (h : Keeps s₀ s) (h₁ : ∀ t, Keeps s₀ t → Keeps s₀ (body t).1) : Keeps s₀ (s.firmware span write work body).1 := by
  unfold State.firmware
  split
  · exact h₁ s h
  · extract_lets t
    have ht : Keeps s₀ t := Keeps.foldl (fun _ _ g => State.touch_keeps g) (State.settle_keeps h)
    clear_value t
    split
    · exact h₁ t ht
    · exact State.await_keeps ht
theorem memReadBody_keeps {s₀ : State} {h : Hdr} {p : List Word} {s : State} (h2 : Keeps s₀ s) : Keeps s₀ (memReadBody h p s).1 := by
  unfold memReadBody
  refine State.firmware_keeps ?_ ?_
  · exact h2
  · intro z0 z1
    exact memReadWords_keeps z1
theorem checkbitBody_keeps {s₀ : State} {h : Hdr} {p : List Word} {s : State} (h2 : Keeps s₀ s) : Keeps s₀ (checkbitBody h p s).1 := by
  unfold checkbitBody
  refine State.firmware_keeps ?_ ?_
  · exact h2
  · intro z0 z1
    exact checkbitRun_keeps z1
theorem memTest_keeps {s₀ : State} {mode : Nat} {s : State} (h1 : Keeps s₀ s) : Keeps s₀ (memTest mode s) := by
  unfold memTest
  refine Keeps.ite ?_ ?_
  · extract_lets +onlyGivenNames x0
    have h1 : Keeps s₀ x0 := by
      unfold x0
      exact State.forceReturn_keeps h1
    clear_value x0
    extract_lets +onlyGivenNames x2
    extract_lets +onlyGivenNames x3
    have h4 : Keeps s₀ x3 := by
      unfold x3
      exact Keeps.ite (State.setTest_keeps h1) h1
    clear_value x3
    exact State.wrN_keeps h4
  · extract_lets +onlyGivenNames x5
    extract_lets +onlyGivenNames x6
    have h7 : Keeps s₀ x6 := by
      unfold x6
      exact Keeps.ite (State.setTest_keeps h1) h1
    clear_value x6
    exact State.wrN_keeps h7
theorem memTestBody_keeps {s₀ : State} {p : List Word} {s : State} (h1 : Keeps s₀ s) : Keeps s₀ (memTestBody p s).1 := by
  unfold memTestBody
  exact Keeps.ite₁ (refuse_keeps h1) (Keeps.ite₁ (refuse_keeps h1) (okay_keeps (memTest_keeps h1)))
theorem srmTestPace_keeps {s₀ s : State} (h0 : Keeps s₀ s) : Keeps s₀ (srmTestPace s) := by
  unfold srmTestPace
  refine Keeps.ite ?_ ?_
  · split
    · rename_i v0 v1 v2
      exact State.setTest_keeps h0
    · rename_i v3 v4
      exact Keeps.ite (State.wrN_keeps h0) h0
  · exact h0
theorem srmTestSaveDone_keeps {s₀ s : State} (h0 : Keeps s₀ s) : Keeps s₀ (srmTestSaveDone s) := by
  unfold srmTestSaveDone
  exact Keeps.ite (Keeps.ite (State.setTest_keeps h0) (State.setTest_keeps h0)) h0
theorem State.marchFault_keeps {s₀ s : State} {d r : Nat} (h0 : Keeps s₀ s) : Keeps s₀ (State.marchFault s d r) := by
  unfold State.marchFault
  extract_lets +onlyGivenNames x0
  have h1 : Keeps s₀ x0 := by
    unfold x0
    exact State.logEvent_keeps h0
  clear_value x0
  extract_lets +onlyGivenNames x2
  have h3 : Keeps s₀ x2 := by
    unfold x2
    exact State.setBit_keeps h1
  clear_value x2
  exact State.setDie_keeps h3
theorem srmTestMarchDone_keeps {s₀ : State} {faultA faultB : Bool} {s : State} (h2 : Keeps s₀ s) : Keeps s₀ (srmTestMarchDone faultA faultB s) := by
  unfold srmTestMarchDone
  refine Keeps.ite ?_ ?_
  · extract_lets +onlyGivenNames x0
    extract_lets +onlyGivenNames x1
    have h2 : Keeps s₀ x1 := by
      unfold x1
      exact Keeps.ite (State.marchFault_keeps h2) h2
    clear_value x1
    extract_lets +onlyGivenNames x3
    have h4 : Keeps s₀ x3 := by
      unfold x3
      exact Keeps.ite (State.marchFault_keeps h2) h2
    clear_value x3
    exact State.setTest_keeps h4
  · exact h2
theorem srmTestRestoreDone_keeps {s₀ s : State} (h0 : Keeps s₀ s) : Keeps s₀ (srmTestRestoreDone s) := by
  unfold srmTestRestoreDone
  refine Keeps.ite ?_ ?_
  · extract_lets +onlyGivenNames x0
    extract_lets +onlyGivenNames x1
    have h2 : Keeps s₀ x1 := by
      unfold x1
      exact State.heldByTest_keeps h0
    clear_value x1
    extract_lets +onlyGivenNames x3
    extract_lets +onlyGivenNames x4
    have h5 : Keeps s₀ x4 := by
      unfold x4
      exact State.setTest_keeps h2
    clear_value x4
    exact Keeps.ite (State.wrN_keeps h5) h5
  · exact h0
theorem borrowedRegionAccess_keeps {s₀ : State} {a : SramAccess} {s : State} (h1 : Keeps s₀ s) : Keeps s₀ (borrowedRegionAccess a s) := by
  unfold borrowedRegionAccess
  refine Keeps.ite ?_ ?_
  · exact State.trap_keeps (State.trap_keeps h1)
  · split
    · rename_i v0 v1 v2 v3
      exact State.accessGran_keeps h1
    · rename_i v4 v5 v6 v7 v8
      exact State.await_keeps (State.touch_keeps h1)
    · rename_i v9 v10 v11 v12
      exact h1
theorem State.damageCovering_keeps {s₀ s : State} {d : Nat} {granary : Bool} {a n : Nat} (h0 : Keeps s₀ s) :
    Keeps s₀ (State.damageCovering s d granary a n) := by
  unfold State.damageCovering
  refine Keeps.foldl ?_ ?_
  · intro a0 y1 h2
    split
    · rename_i v3 v4 v5
      refine Keeps.ite ?_ ?_
      · exact h2
      · refine Keeps.foldl ?_ ?_
        · intro a6 y7 h8
          extract_lets +onlyGivenNames x9
          exact Keeps.ite (State.markDamaged_keeps h8) h8
        · exact h2
  · exact h0
theorem State.setGleaner_keeps {s₀ s : State} {d : Nat} {granary : Bool} {x : Gleaner} (h0 : Keeps s₀ s) : Keeps s₀ (State.setGleaner s d granary x) := by
  unfold State.setGleaner
  exact Keeps.ite (State.setMemDie_keeps h0) (State.setMemDie_keeps h0)
theorem State.markSlice_keeps {s₀ s : State} {d : Nat} {e : LineError} (h0 : Keeps s₀ s) : Keeps s₀ (State.markSlice s d e) := by
  unfold State.markSlice
  extract_lets +onlyGivenNames x0
  extract_lets +onlyGivenNames x1
  extract_lets +onlyGivenNames x2
  have h3 : Keeps s₀ x2 := by
    unfold x2
    exact State.setGleaner_keeps h0
  clear_value x2
  split
  · rename_i v4 v5 v6
    exact Keeps.ite (State.wrN_keeps h3) h3
  · rename_i v7 v8
    exact h3
theorem State.endLap_keeps {s₀ s : State} {d : Nat} {granary : Bool} (h0 : Keeps s₀ s) : Keeps s₀ (State.endLap s d granary) := by
  unfold State.endLap
  extract_lets +onlyGivenNames x0
  extract_lets +onlyGivenNames x1
  extract_lets +onlyGivenNames x2
  extract_lets +onlyGivenNames x3
  extract_lets +onlyGivenNames x4
  have h5 : Keeps s₀ x4 := by
    unfold x4
    exact State.wr_keeps h0
  clear_value x4
  extract_lets +onlyGivenNames x6
  have h7 : Keeps s₀ x6 := by
    unfold x6
    exact Keeps.ite (State.addSat_keeps (State.logEvent_keeps h5)) h5
  clear_value x6
  exact State.setGleaner_keeps h7
theorem State.gleanLine_keeps {s₀ s : State} {d line : Nat} (h0 : Keeps s₀ s) : Keeps s₀ (State.gleanLine s d line) := by
  unfold State.gleanLine
  extract_lets +onlyGivenNames x0
  extract_lets +onlyGivenNames x1
  extract_lets +onlyGivenNames x2
  have h3 : Keeps s₀ x2 := by
    unfold x2
    exact State.noteLine_keeps h0
  clear_value x2
  refine Keeps.ite ?_ ?_
  · extract_lets +onlyGivenNames x4
    have h5 : Keeps s₀ x4 := by
      unfold x4
      exact State.writeBackLine_keeps h3
    clear_value x4
    exact Keeps.ite h5 (State.markSlice_keeps h5)
  · refine Keeps.ite ?_ ?_
    · exact h3
    · extract_lets +onlyGivenNames x6
      have h7 : Keeps s₀ x6 := by
        unfold x6
        exact State.poisonLine_keeps h3
      clear_value x6
      extract_lets +onlyGivenNames x8
      have h9 : Keeps s₀ x8 := by
        unfold x8
        exact State.logEvent_keeps h7
      clear_value x8
      exact State.damageCovering_keeps h9
theorem State.gleanWord_keeps {s₀ s : State} {d w : Nat} (h0 : Keeps s₀ s) : Keeps s₀ (State.gleanWord s d w) := by
  unfold State.gleanWord
  extract_lets +onlyGivenNames x0
  extract_lets +onlyGivenNames x1
  have h2 : Keeps s₀ x1 := by
    unfold x1
    exact State.noteWord_keeps h0
  clear_value x1
  refine Keeps.ite ?_ ?_
  · exact State.writeBackWord_keeps h2
  · refine Keeps.ite ?_ ?_
    · exact h2
    · extract_lets +onlyGivenNames x3
      have h4 : Keeps s₀ x3 := by
        unfold x3
        exact State.poisonWord_keeps h2
      clear_value x3
      extract_lets +onlyGivenNames x5
      have h6 : Keeps s₀ x5 := by
        unfold x5
        exact State.logEvent_keeps h4
      clear_value x5
      exact State.reloadPage_keeps (State.damageCovering_keeps h6)
theorem refreshDue_keeps {s₀ : State} {d : Nat} {s : State} (h1 : Keeps s₀ s) : Keeps s₀ (refreshDue d s) := by
  unfold refreshDue
  exact Keeps.ite (State.setMemDie_keeps h1) h1
theorem State.countRead_keeps {s₀ s : State} {d : Nat} {granary : Bool} (h0 : Keeps s₀ s) : Keeps s₀ (State.countRead s d granary) := by
  unfold State.countRead
  extract_lets +onlyGivenNames x0
  extract_lets +onlyGivenNames x1
  exact State.setGleaner_keeps h0
theorem State.gleanNext_keeps {s₀ s : State} {d : Nat} {granary : Bool} (h0 : Keeps s₀ s) : Keeps s₀ (State.gleanNext s d granary) := by
  unfold State.gleanNext
  extract_lets +onlyGivenNames x0
  extract_lets +onlyGivenNames x1
  have h2 : Keeps s₀ x1 := by
    unfold x1
    exact State.countRead_keeps h0
  clear_value x1
  extract_lets +onlyGivenNames x3
  have h4 : Keeps s₀ x3 := by
    unfold x3
    exact Keeps.ite (State.gleanLine_keeps h2) (State.gleanWord_keeps h2)
  clear_value x3
  exact Keeps.ite (State.endLap_keeps h4) (State.setGleaner_keeps h4)
theorem gleanerRead_keeps {s₀ s : State} {d : Nat} {granary : Bool} (h : Keeps s₀ s) : Keeps s₀ (gleanerRead d granary s) := by
  unfold gleanerRead
  extract_lets a t u
  exact Keeps.ite h (Keeps.ite (Keeps.ite (State.gleanNext_keeps h) (refreshDue_keeps h))
    (Keeps.ite (State.touch_keeps h) (State.gleanNext_keeps (State.touch_keeps h))))
theorem stackTempRead_keeps {s₀ : State} {d : Nat} {milliC : Int} {s : State} (h2 : Keeps s₀ s) : Keeps s₀ (stackTempRead d milliC s) := by
  unfold stackTempRead
  extract_lets +onlyGivenNames x0
  extract_lets +onlyGivenNames x1
  have h2 : Keeps s₀ x1 := by
    unfold x1
    exact State.setMemDie_keeps h2
  clear_value x1
  exact State.wrN_keeps h2
theorem execMemPlotNew_keeps {s₀ s : State} {h : Hdr} {p : List Word} (h₀ : Keeps s₀ s) :
    ∃ u, execMemPlotNew h p s = .next u ∧ Keeps s₀ u :=
  ⟨_, rfl, State.receive_keeps h₀ fun _ h₁ => plotNewBody_keeps h₁⟩
theorem execMemPlotFree_keeps {s₀ s : State} {h : Hdr} {p : List Word} (h₀ : Keeps s₀ s) :
    ∃ u, execMemPlotFree h p s = .next u ∧ Keeps s₀ u :=
  ⟨_, rfl, State.receive_keeps h₀ fun _ h₁ => plotFreeBody_keeps h₁⟩
theorem execMemPlotList_keeps {s₀ s : State} {h : Hdr} {p : List Word} (h₀ : Keeps s₀ s) :
    ∃ u, execMemPlotList h p s = .next u ∧ Keeps s₀ u :=
  ⟨_, rfl, State.receive_keeps h₀ fun _ h₁ => plotListBody_keeps h₁⟩
theorem execMemRead_keeps {s₀ s : State} {h : Hdr} {p : List Word} (h₀ : Keeps s₀ s) :
    ∃ u, execMemRead h p s = .next u ∧ Keeps s₀ u :=
  ⟨_, rfl, State.receive_keeps h₀ fun _ h₁ => memReadBody_keeps h₁⟩
theorem execTstCheckbit_keeps {s₀ s : State} {h : Hdr} {p : List Word} (h₀ : Keeps s₀ s) :
    ∃ u, execTstCheckbit h p s = .next u ∧ Keeps s₀ u :=
  ⟨_, rfl, State.receive_keeps h₀ fun _ h₁ => checkbitBody_keeps h₁⟩
theorem execMemTestStop_keeps {s₀ s : State} {h : Hdr} {p : List Word} (h₀ : Keeps s₀ s) :
    ∃ u, execMemTestStop h p s = .next u ∧ Keeps s₀ u :=
  ⟨_, rfl, State.receive_keeps h₀ fun _ h₁ => memTestBody_keeps h₁⟩
theorem execMemTestContinuous_keeps {s₀ s : State} {h : Hdr} {p : List Word} (h₀ : Keeps s₀ s) :
    ∃ u, execMemTestContinuous h p s = .next u ∧ Keeps s₀ u :=
  ⟨_, rfl, State.receive_keeps h₀ fun _ h₁ => memTestBody_keeps h₁⟩
theorem execMemTestOneLap_keeps {s₀ s : State} {h : Hdr} {p : List Word} (h₀ : Keeps s₀ s) :
    ∃ u, execMemTestOneLap h p s = .next u ∧ Keeps s₀ u :=
  ⟨_, rfl, State.receive_keeps h₀ fun _ h₁ => memTestBody_keeps h₁⟩
theorem execSrmTestPace_keeps {s₀ s : State} {t : Nat} (h₀ : Keeps s₀ s) :
    ∃ u, execSrmTestPace t s = .next u ∧ Keeps s₀ u :=
  ⟨_, rfl, srmTestPace_keeps (State.settle_keeps (State.at__keeps h₀))⟩
theorem execSrmTestSaveDone_keeps {s₀ s : State} {t : Nat} (h₀ : Keeps s₀ s) :
    ∃ u, execSrmTestSaveDone t s = .next u ∧ Keeps s₀ u :=
  ⟨_, rfl, srmTestSaveDone_keeps (State.settle_keeps (State.at__keeps h₀))⟩
theorem execSrmTestMarchDone_keeps {s₀ s : State} {t : Nat} {faultA faultB : Bool} (h₀ : Keeps s₀ s) :
    ∃ u, execSrmTestMarchDone t faultA faultB s = .next u ∧ Keeps s₀ u :=
  ⟨_, rfl, srmTestMarchDone_keeps (State.settle_keeps (State.at__keeps h₀))⟩
theorem execSrmTestRestoreDone_keeps {s₀ s : State} {t : Nat} (h₀ : Keeps s₀ s) :
    ∃ u, execSrmTestRestoreDone t s = .next u ∧ Keeps s₀ u :=
  ⟨_, rfl, srmTestRestoreDone_keeps (State.settle_keeps (State.at__keeps h₀))⟩
theorem execBorrowedRegionAccess_keeps {s₀ s : State} {t : Nat} {master : Fin 10} {channel : Fin 8} {request : SramRequest} (h₀ : Keeps s₀ s) :
    ∃ u, execBorrowedRegionAccess t master channel request s = .next u ∧ Keeps s₀ u :=
  ⟨_, rfl, borrowedRegionAccess_keeps (State.settle_keeps (State.at__keeps h₀))⟩
theorem execGleanerRead_keeps {s₀ s : State} {t : Nat} {die : Fin 2} {granary : Bool} (h₀ : Keeps s₀ s) :
    ∃ u, execGleanerRead t die granary s = .next u ∧ Keeps s₀ u :=
  ⟨_, rfl, gleanerRead_keeps (State.settle_keeps (State.at__keeps h₀))⟩
theorem execStackTempRead_keeps {s₀ s : State} {t : Nat} {die : Fin 2} {milliC : Int} (h₀ : Keeps s₀ s) :
    ∃ u, execStackTempRead t die milliC s = .next u ∧ Keeps s₀ u :=
  ⟨_, rfl, stackTempRead_keeps (State.at__keeps h₀)⟩
theorem execRefreshDue_keeps {s₀ s : State} {t : Nat} {die : Fin 2} (h₀ : Keeps s₀ s) :
    ∃ u, execRefreshDue t die s = .next u ∧ Keeps s₀ u :=
  ⟨_, rfl, refreshDue_keeps (State.at__keeps h₀)⟩

/-! ### Tmr -/

theorem State.bufferStamp_keeps {s₀ s : State} {n : Nat} {m : StampMade} (h0 : Keeps s₀ s) : Keeps s₀ (State.bufferStamp s n m) := by
  unfold State.bufferStamp
  extract_lets +onlyGivenNames x0
  refine Keeps.ite ?_ ?_
  · exact State.setBit_keeps (State.addSat_keeps (State.setTiming_keeps h0))
  · extract_lets +onlyGivenNames x1
    extract_lets +onlyGivenNames x2
    have h3 : Keeps s₀ x2 := by
      unfold x2
      exact State.setTiming_keeps h0
    clear_value x2
    exact State.setBit_keeps (State.addWrap_keeps h3)
theorem stampWordComplete_keeps {s₀ : State} {n : Nat} {s : State} (h1 : Keeps s₀ s) : Keeps s₀ (stampWordComplete n s) := by
  unfold stampWordComplete
  split
  · rename_i v0 v1
    exact h1
  · rename_i v2 v3 v4 v5
    refine Keeps.ite ?_ ?_
    · exact h1
    · extract_lets +onlyGivenNames x6
      extract_lets +onlyGivenNames x7
      have h8 : Keeps s₀ x7 := by
        unfold x7
        exact State.setTiming_keeps h1
      clear_value x7
      extract_lets +onlyGivenNames x9
      extract_lets +onlyGivenNames x10
      have h11 : Keeps s₀ x10 := by
        unfold x10
        exact State.itvStamp_keeps h8
      clear_value x10
      extract_lets +onlyGivenNames x12
      have h13 : Keeps s₀ x12 := by
        unfold x12
        exact Keeps.ite (State.startFrom_keeps h11) h11
      clear_value x12
      exact State.bufferStamp_keeps (State.takeStarts_keeps h13)
theorem stampArbiterStep_keeps {s₀ : State} {fe : Nat} {s : State} (h1 : Keeps s₀ s) : Keeps s₀ (stampArbiterStep fe s) := by
  unfold stampArbiterStep
  split
  · rename_i v0 v1 v2 v3
    refine Keeps.ite ?_ ?_
    · exact h1
    · extract_lets +onlyGivenNames x4
      extract_lets +onlyGivenNames x5
      have h_x5 : ∀ {b6 : State} {b8 : Nat}, Keeps s₀ b6 → Keeps s₀ (x5 b6 b8) := by
        intro b6 b8 h9
        unfold x5
        exact Keeps.upd (s := b6) h9 rfl rfl rfl rfl
      split
      · rename_i v10 v11
        exact h_x5 h1
      · rename_i v12 v13 v14
        split
        · rename_i v15 v16
          exact h1
        · rename_i v17 v18 v19 v20
          extract_lets +onlyGivenNames x21
          extract_lets +onlyGivenNames x22
          have h23 : Keeps s₀ x22 := by
            unfold x22
            exact State.setTiming_keeps h1
          clear_value x22
          exact State.send_keeps (h_x5 h23)
theorem itvSetTimeout_keeps {s₀ : State} {n : Nat} {s : State} (h1 : Keeps s₀ s) : Keeps s₀ (itvSetTimeout n s) := by
  unfold itvSetTimeout
  split
  · rename_i v0 v1
    exact h1
  · rename_i v2 v3 v4
    extract_lets +onlyGivenNames x5
    exact Keeps.ite h1 (State.openSet_keeps (State.closeSet_keeps h1))
theorem itvDelayWindowClose_keeps {s₀ : State} {n : Nat} {s : State} (h1 : Keeps s₀ s) : Keeps s₀ (itvDelayWindowClose n s) := by
  unfold itvDelayWindowClose
  extract_lets +onlyGivenNames x0
  have h1 : Keeps s₀ x0 := by
    unfold x0
    exact State.takeStarts_keeps h1
  clear_value x0
  extract_lets +onlyGivenNames x2
  split
  · rename_i v3 v4
    exact h1
  · rename_i v5 v6 v7
    extract_lets +onlyGivenNames x8
    exact Keeps.ite h1 (State.missItv_keeps (State.setTiming_keeps h1))
theorem itvResultReady_keeps {s₀ s : State} {n : Nat} (h : Keeps s₀ s) : Keeps s₀ (itvResultReady n s) := by
  unfold itvResultReady
  split
  · exact h
  · refine Keeps.ite h ?_
    extract_lets +onlyGivenNames it a e em mean sd b c d
    have hd : Keeps s₀ d := State.wr64_keeps (State.wr64_keeps (State.wrN_keeps (Keeps.ite (State.setBit_keeps (State.setTiming_keeps h)) (State.setTiming_keeps h))))
    clear_value d
    split
    extract_lets +onlyGivenNames f
    have hf : Keeps s₀ f := by
      unfold f
      split
      · exact State.setBit_keeps hd
      · exact hd
    clear_value f
    split
    rename_i u heq
    have hu : Keeps s₀ u := by
      refine Keeps.of_third heq ?_
      split
      · exact State.takeFree_keeps (State.takeFree_keeps hf)
      · exact hf
    exact Keeps.ite (State.send_keeps hu) hu
theorem State.loseHit_keeps {s₀ s : State} {n : Nat} (h0 : Keeps s₀ s) : Keeps s₀ (State.loseHit s n) := by
  unfold State.loseHit
  exact State.setBit_keeps (State.addSat_keeps h0)
theorem hitComplete_keeps {s₀ : State} {n : Nat} {s : State} (h1 : Keeps s₀ s) : Keeps s₀ (hitComplete n s) := by
  unfold hitComplete
  extract_lets +onlyGivenNames x0
  extract_lets +onlyGivenNames x1
  split
  · rename_i v2 v3
    exact h1
  · rename_i v4 v5 v6
    extract_lets +onlyGivenNames x7
    have h8 : Keeps s₀ x7 := by
      unfold x7
      exact State.setTiming_keeps h1
    clear_value x7
    exact Keeps.ite (State.loseHit_keeps h8) (State.setTiming_keeps h8)
theorem hitArbiterStep_keeps {s₀ : State} {fe : Nat} {s : State} (h1 : Keeps s₀ s) : Keeps s₀ (hitArbiterStep fe s) := by
  unfold hitArbiterStep
  split
  · rename_i v0 v1 v2 v3
    refine Keeps.ite ?_ ?_
    · exact h1
    · extract_lets +onlyGivenNames x4
      extract_lets +onlyGivenNames x5
      have h_x5 : ∀ {b6 : State} {b8 : Nat}, Keeps s₀ b6 → Keeps s₀ (x5 b6 b8) := by
        intro b6 b8 h9
        unfold x5
        exact Keeps.upd (s := b6) h9 rfl rfl rfl rfl
      split
      · rename_i v10 v11
        exact h_x5 h1
      · rename_i v12 v13 v14
        split
        · rename_i v15 v16
          exact h1
        · rename_i v17 v18 v19 v20
          exact State.send_keeps (h_x5 (State.setTiming_keeps h1))
theorem State.setTpo_keeps {s₀ s : State} {i : Nat} {x : TpoState} (h0 : Keeps s₀ s) : Keeps s₀ (State.setTpo s i x) := by
  unfold State.setTpo
  exact Keeps.upd (s := s) h0 rfl rfl rfl rfl
theorem State.armTpo_keeps {s₀ s : State} {first i : Nat} (h0 : Keeps s₀ s) : Keeps s₀ (State.armTpo s first i) := by
  unfold State.armTpo
  extract_lets +onlyGivenNames x0
  extract_lets +onlyGivenNames x1
  extract_lets +onlyGivenNames x2
  have h3 : Keeps s₀ x2 := by
    unfold x2
    exact State.setTpo_keeps h0
  clear_value x2
  exact State.setBit_keeps (State.wrN_keeps h3)
theorem State.disarmTpo_keeps {s₀ s : State} {i : Nat} (h0 : Keeps s₀ s) : Keeps s₀ (State.disarmTpo s i) := by
  unfold State.disarmTpo
  extract_lets +onlyGivenNames x0
  extract_lets +onlyGivenNames x1
  exact Keeps.ite (State.setTpo_keeps h0) (State.wrN_keeps (State.setTpo_keeps h0))
theorem State.tpoAct_keeps {s₀ s : State} {p : List Word} (h0 : Keeps s₀ s) : Keeps s₀ (State.tpoAct s p) := by
  unfold State.tpoAct
  refine Keeps.foldl ?_ ?_
  · intro a0 y1 h2
    exact Keeps.ite (State.disarmTpo_keeps h2) (State.armTpo_keeps h2)
  · exact h0
theorem State.tpoScheduled_keeps {s₀ s : State} {h : Hdr} {p : List Word} (h0 : Keeps s₀ s) : Keeps s₀ (State.tpoScheduled s h p) := by
  unfold State.tpoScheduled
  exact Keeps.ite (State.finish_keeps h0) (State.finish_keeps (State.tpoAct_keeps h0))
theorem tpoArmBody_keeps {s₀ : State} {h : Hdr} {p : List Word} {s : State} (h2 : Keeps s₀ s) : Keeps s₀ (tpoArmBody h p s).1 := by
  unfold tpoArmBody
  extract_lets +onlyGivenNames x0
  extract_lets +onlyGivenNames x1
  exact Keeps.ite₁ (refuse_keeps h2) (Keeps.ite₁ (refuse_keeps h2) (Keeps.ite₁ h2 (okay_keeps (State.tpoAct_keeps h2))))
theorem State.exhaustTpo_keeps {s₀ s : State} {i : Nat} (h0 : Keeps s₀ s) : Keeps s₀ (State.exhaustTpo s i) := by
  unfold State.exhaustTpo
  extract_lets +onlyGivenNames x0
  refine Keeps.ite ?_ ?_
  · exact State.setTpo_keeps h0
  · extract_lets +onlyGivenNames x1
    extract_lets +onlyGivenNames x2
    have h3 : Keeps s₀ x2 := by
      unfold x2
      exact State.wrN_keeps (State.setTpo_keeps h0)
    clear_value x2
    exact Keeps.ite (State.setBit_keeps h3) h3
theorem tpoActiveEdge_keeps {s₀ : State} {i : Nat} {s : State} (h1 : Keeps s₀ s) : Keeps s₀ (tpoActiveEdge i s) := by
  unfold tpoActiveEdge
  extract_lets +onlyGivenNames x0
  split
  · rename_i v1 v2
    exact h1
  · rename_i v3 v4 v5
    extract_lets +onlyGivenNames x6
    refine Keeps.ite ?_ ?_
    · exact h1
    · extract_lets +onlyGivenNames x7
      extract_lets +onlyGivenNames x8
      extract_lets +onlyGivenNames x9
      have h10 : Keeps s₀ x9 := by
        unfold x9
        exact State.setTpo_keeps h1
      clear_value x9
      extract_lets +onlyGivenNames x11
      have h_x11 : ∀ {b12 : Nat}, Keeps s₀ (x11 b12) := by
        intro b12
        unfold x11
        extract_lets +onlyGivenNames x13
        have h14 : Keeps s₀ x13 := by
          unfold x13
          exact State.setBit_keeps h10
        clear_value x13
        exact Keeps.ite (State.exhaustTpo_keeps h14) h14
      refine Keeps.ite ?_ ?_
      · exact h_x11
      · refine Keeps.ite ?_ ?_
        · exact h_x11
        · extract_lets +onlyGivenNames x15
          have h16 : Keeps s₀ x15 := by
            unfold x15
            exact State.setTpo_keeps h1
          clear_value x15
          extract_lets +onlyGivenNames x17
          have h18 : Keeps s₀ x17 := by
            unfold x17
            exact State.wrN_keeps h16
          clear_value x17
          exact State.startFrom_keeps h18
theorem tpoInactiveEdge_keeps {s₀ : State} {i : Nat} {s : State} (h1 : Keeps s₀ s) : Keeps s₀ (tpoInactiveEdge i s) := by
  unfold tpoInactiveEdge
  extract_lets +onlyGivenNames x0
  have h1 : Keeps s₀ x0 := by
    unfold x0
    refine Keeps.foldl ?_ ?_
    · intro a2 y3 h4
      exact State.takeStarts_keeps h4
    · exact h1
  clear_value x0
  extract_lets +onlyGivenNames x5
  split
  · rename_i v6 v7
    exact h1
  · rename_i v8 v9 v10
    refine Keeps.ite ?_ ?_
    · exact h1
    · refine Keeps.ite ?_ ?_
      · exact State.setBit_keeps (State.wrN_keeps (State.setTpo_keeps h1))
      · exact Keeps.ite (State.wrN_keeps (State.setTpo_keeps h1)) (State.setTpo_keeps h1)
theorem execComparatorCrossing_keeps {s₀ s : State} {t : Nat} {input : Fin 512} {kind : Fin 4} (h₀ : Keeps s₀ s) :
    ∃ u, execComparatorCrossing t input kind s = .next u ∧ Keeps s₀ u :=
  ⟨_, rfl, State.crossLevel_keeps (State.at__keeps h₀)⟩
theorem execEdgeAccept_keeps {s₀ s : State} {t : Nat} {input : Fin 512} (h₀ : Keeps s₀ s) :
    ∃ u, execEdgeAccept t input s = .next u ∧ Keeps s₀ u :=
  ⟨_, rfl, State.acceptDue_keeps (State.at__keeps h₀)⟩
theorem execHoldoffEnd_keeps {s₀ s : State} {t : Nat} {input : Fin 512} (h₀ : Keeps s₀ s) :
    ∃ u, execHoldoffEnd t input s = .next u ∧ Keeps s₀ u :=
  ⟨_, rfl, State.holdoffDue_keeps (State.at__keeps h₀)⟩
theorem execStampWordComplete_keeps {s₀ s : State} {t : Nat} {input : Fin 512} (h₀ : Keeps s₀ s) :
    ∃ u, execStampWordComplete t input s = .next u ∧ Keeps s₀ u :=
  ⟨_, rfl, stampWordComplete_keeps (State.at__keeps h₀)⟩
theorem execStampArbiterStep_keeps {s₀ s : State} {t : Nat} {fe : Fin 4} (h₀ : Keeps s₀ s) :
    ∃ u, execStampArbiterStep t fe s = .next u ∧ Keeps s₀ u :=
  ⟨_, rfl, stampArbiterStep_keeps (State.at__keeps h₀)⟩
theorem execItvSetTimeout_keeps {s₀ s : State} {t : Nat} {input : Fin 512} (h₀ : Keeps s₀ s) :
    ∃ u, execItvSetTimeout t input s = .next u ∧ Keeps s₀ u :=
  ⟨_, rfl, itvSetTimeout_keeps (State.at__keeps h₀)⟩
theorem execItvDelayWindowClose_keeps {s₀ s : State} {t : Nat} {input : Fin 512} (h₀ : Keeps s₀ s) :
    ∃ u, execItvDelayWindowClose t input s = .next u ∧ Keeps s₀ u :=
  ⟨_, rfl, itvDelayWindowClose_keeps (State.at__keeps h₀)⟩
theorem execItvResultReady_keeps {s₀ s : State} {t : Nat} {input : Fin 512} (h₀ : Keeps s₀ s) :
    ∃ u, execItvResultReady t input s = .next u ∧ Keeps s₀ u :=
  ⟨_, rfl, itvResultReady_keeps (State.at__keeps h₀)⟩
theorem execHitComplete_keeps {s₀ s : State} {t : Nat} {input : Fin 512} (h₀ : Keeps s₀ s) :
    ∃ u, execHitComplete t input s = .next u ∧ Keeps s₀ u :=
  ⟨_, rfl, hitComplete_keeps (State.at__keeps h₀)⟩
theorem execHitArbiterStep_keeps {s₀ s : State} {t : Nat} {fe : Fin 4} (h₀ : Keeps s₀ s) :
    ∃ u, execHitArbiterStep t fe s = .next u ∧ Keeps s₀ u :=
  ⟨_, rfl, hitArbiterStep_keeps (State.at__keeps h₀)⟩
theorem execTpoArm_keeps {s₀ s : State} {h : Hdr} {p : List Word} (h₀ : Keeps s₀ s) :
    ∃ u, execTpoArm h p s = .next u ∧ Keeps s₀ u :=
  ⟨_, rfl, State.receive_keeps h₀ fun _ h₁ => tpoArmBody_keeps h₁⟩
theorem execTpoDisarm_keeps {s₀ s : State} {h : Hdr} {p : List Word} (h₀ : Keeps s₀ s) :
    ∃ u, execTpoDisarm h p s = .next u ∧ Keeps s₀ u :=
  ⟨_, rfl, State.receive_keeps h₀ fun _ h₁ => tpoArmBody_keeps h₁⟩
theorem execTpoActiveEdge_keeps {s₀ s : State} {t : Nat} {tpo : Fin 32} (h₀ : Keeps s₀ s) :
    ∃ u, execTpoActiveEdge t tpo s = .next u ∧ Keeps s₀ u :=
  ⟨_, rfl, tpoActiveEdge_keeps (State.at__keeps h₀)⟩
theorem execTpoInactiveEdge_keeps {s₀ s : State} {t : Nat} {tpo : Fin 32} (h₀ : Keeps s₀ s) :
    ∃ u, execTpoInactiveEdge t tpo s = .next u ∧ Keeps s₀ u :=
  ⟨_, rfl, tpoInactiveEdge_keeps (State.at__keeps h₀)⟩

end Sys2Proof.Machine
end

