-- ==== Sys2Proof/Laws/KeepsTrigger.lean ====
section
/-! SUPPORT. What the operations and the commands of a group keep (see Keeps): recipes, triggers and gates. -/

set_option linter.all false

namespace Sys2Proof.Machine

/-! ### Seq -/

theorem State.setSeq_keeps {s₀ s : State} {q : Nat} {x : Sequencer} (h0 : Keeps s₀ s) : Keeps s₀ (State.setSeq s q x) := by
  unfold State.setSeq
  exact Keeps.upd (s := s) h0 rfl rfl rfl rfl
theorem State.doCop_keeps {s₀ s : State} {q cop : Nat} (h0 : Keeps s₀ s) : Keeps s₀ (State.doCop s q cop) := by
  unfold State.doCop
  extract_lets +onlyGivenNames x0
  have h_x0 : ∀ {b1 : State} {b3 : Nat}, Keeps s₀ b1 → Keeps s₀ (x0 b1 b3) := by
    intro b1 b3 h4
    unfold x0
    exact State.wrN_keeps h4
  split
  · rename_i v5
    exact h_x0 h0
  · rename_i v6
    exact h_x0 h0
  · rename_i v7
    exact State.wrN_keeps (State.wrN_keeps h0)
  · rename_i v8 v9 v10 v11
    exact h0
theorem State.startTimer_keeps {s₀ s view : State} {lim tau q : Nat} (h0 : Keeps s₀ s) : Keeps s₀ (State.startTimer s view lim tau q) := by
  unfold State.startTimer
  extract_lets +onlyGivenNames x0
  exact State.setSeq_keeps h0
theorem State.noteFire_keeps {s₀ s view : State} {lim tau q : Nat} (h0 : Keeps s₀ s) : Keeps s₀ (State.noteFire s view lim tau q) := by
  unfold State.noteFire
  extract_lets +onlyGivenNames x0
  extract_lets +onlyGivenNames x1
  extract_lets +onlyGivenNames x2
  have h3 : Keeps s₀ x2 := by
    unfold x2
    exact State.setSeq_keeps h0
  clear_value x2
  exact State.addWrap_keeps h3
theorem State.haltLoop_keeps {s₀ s : State} {q : Nat} (h0 : Keeps s₀ s) : Keeps s₀ (State.haltLoop s q) := by
  unfold State.haltLoop
  exact State.setBit_keeps (State.wrN_keeps h0)
theorem seqTake_keeps {s₀ view : State} {lim tau q : Nat} : ∀ {k a : Nat} {s : State}, Keeps s₀ s → Keeps s₀ (seqTake view lim tau q k a s).1
  | 0, _, _, h => State.haltLoop_keeps h
  | k + 1, a, s, h => by
    unfold seqTake
    extract_lets +onlyGivenNames x n b c d fires e
    refine Keeps.ite₁ (State.haltLoop_keeps h) ?_
    have hb : Keeps s₀ b := State.doCop_keeps (State.setSeq_keeps h)
    clear_value b
    have hc : Keeps s₀ c := Keeps.ite (State.startTimer_keeps hb) hb
    clear_value c
    have hd : Keeps s₀ d := Keeps.ite (State.noteFire_keeps hc) hc
    clear_value d
    have he : Keeps s₀ e := State.wrN_keeps hd
    clear_value e
    split
    · exact he
    · exact seqTake_keeps he
theorem State.deliver_keeps {s₀ s view : State} {lim tau : Nat} {ev : SeqEvent} {q : Nat} (h0 : Keeps s₀ s) :
    Keeps s₀ (State.deliver s view lim tau ev q).1 := by
  unfold State.deliver
  refine Keeps.ite₁ ?_ ?_
  · exact h0
  · split
    · rename_i v0 v1
      exact h0
    · rename_i v2 v3 v4
      exact seqTake_keeps h0
theorem State.deliverAll_keeps {s₀ s view : State} {lim tau : Nat} {ev : SeqEvent} (h0 : Keeps s₀ s) :
    Keeps s₀ (State.deliverAll s view lim tau ev).1 := by
  unfold State.deliverAll
  refine Keeps.foldl₁ ?_ ?_
  · intro a0 y1 h2
    extract_lets +onlyGivenNames x3
    have h4 : Keeps s₀ x3.1 := by
      unfold x3
      exact State.deliver_keeps h2
    clear_value x3
    exact h4
  · exact h0
theorem seqRounds_keeps {s₀ view : State} {lim tau : Nat} :
    ∀ {k : Nat} {fired : List Nat} {s : State}, Keeps s₀ s → Keeps s₀ (seqRounds view lim tau k fired s).1
  | 0, _, _, h => by unfold seqRounds; exact h
  | _ + 1, [], _, h => by unfold seqRounds; exact h
  | k + 1, _ :: _, s, h => by
    unfold seqRounds
    extract_lets x
    have hx : Keeps s₀ x.1 := by
      unfold x
      generalize (_ :: _ : List Nat) = fired
      have h : Keeps s₀ (s, ([] : List Nat)).1 := h
      revert h
      generalize (s, ([] : List Nat)) = r
      intro h
      refine Keeps.foldl₁ ?_ h
      intro r q hr
      dsimp only
      exact State.deliverAll_keeps hr
    clear_value x
    exact seqRounds_keeps hx
theorem State.withRounds_keeps {s₀ view : State} {lim tau : Nat} {r : State × List Nat} (h3 : Keeps s₀ r.1) :
    Keeps s₀ (State.withRounds view lim tau r).1 := by
  unfold State.withRounds
  extract_lets +onlyGivenNames x0
  have h1 : Keeps s₀ x0.1 := by
    unfold x0
    exact seqRounds_keeps h3
  clear_value x0
  exact h1
theorem State.restartSeq_keeps {s₀ s view : State} {lim tau q : Nat} (h0 : Keeps s₀ s) : Keeps s₀ (State.restartSeq s view lim tau q).1 := by
  unfold State.restartSeq
  extract_lets +onlyGivenNames x0
  extract_lets +onlyGivenNames x1
  extract_lets +onlyGivenNames x2
  extract_lets +onlyGivenNames x3
  have h4 : Keeps s₀ x3 := by
    unfold x3
    exact State.doCop_keeps (State.setSeq_keeps h0)
  clear_value x3
  extract_lets +onlyGivenNames x5
  have h6 : Keeps s₀ x5 := by
    unfold x5
    exact State.wrN_keeps h4
  clear_value x5
  split
  · rename_i v7 v8
    exact h6
  · rename_i v9 v10 v11
    exact seqTake_keeps h6
theorem State.lineHit_keeps {s₀ s view : State} {lim : Nat} {h : Hit} (h0 : Keeps s₀ s) : Keeps s₀ (State.lineHit s view lim h).1 := by
  unfold State.lineHit
  extract_lets +onlyGivenNames x0
  extract_lets +onlyGivenNames x1
  extract_lets +onlyGivenNames x2
  extract_lets +onlyGivenNames x3
  extract_lets +onlyGivenNames x4
  extract_lets +onlyGivenNames x5
  extract_lets +onlyGivenNames x6
  extract_lets +onlyGivenNames x7
  refine Keeps.ite₁ ?_ ?_
  · extract_lets +onlyGivenNames x8
    extract_lets +onlyGivenNames x9
    have h10 : Keeps s₀ x9 := by
      unfold x9
      exact Keeps.upd (s := s) h0 rfl rfl rfl rfl
    clear_value x9
    exact State.withRounds_keeps (State.deliverAll_keeps (State.count_keeps h10))
  · exact Keeps.fst_mk (Keeps.upd (s := s) h0 rfl rfl rfl rfl)

/-! ### Windrow -/

theorem State.windrowRecord_keeps {s₀ s view : State} {j : Nat} {x : Windrow} {fe : Nat} (h0 : Keeps s₀ s) :
    Keeps s₀ (State.windrowRecord s view j x fe) := by
  unfold State.windrowRecord
  extract_lets +onlyGivenNames x0
  refine Keeps.ite ?_ ?_
  · exact h0
  · extract_lets +onlyGivenNames x1
    extract_lets +onlyGivenNames x2
    extract_lets +onlyGivenNames x3
    extract_lets +onlyGivenNames x4
    exact State.build_keeps h0
theorem State.windrowTaken_keeps {s₀ s : State} {j : Nat} {x : Windrow} (h0 : Keeps s₀ s) : Keeps s₀ (State.windrowTaken s j x) := by
  unfold State.windrowTaken
  extract_lets +onlyGivenNames x0
  exact Keeps.upd (s := s) h0 rfl rfl rfl rfl
theorem State.closeWindrow_keeps {s₀ s : State} {j t : Nat} (h0 : Keeps s₀ s) : Keeps s₀ (State.closeWindrow s j t) := by
  unfold State.closeWindrow
  split
  · rename_i v0 v1
    exact h0
  · rename_i v2 v3 v4
    extract_lets +onlyGivenNames x5
    have h6 : Keeps s₀ x5 := by
      unfold x5
      exact State.windrowTaken_keeps h0
    clear_value x5
    extract_lets +onlyGivenNames x7
    extract_lets +onlyGivenNames x9
    refine Keeps.ite ?_ ?_
    · exact h6
    · refine Keeps.ite ?_ ?_
      · exact Keeps.ite (State.addGap_keeps h6) h6
      · refine Keeps.foldl ?_ ?_
        · intro a10 y11 h12
          exact State.windrowRecord_keeps h12
        · exact h6
theorem windrowIntervalEnd_keeps {s₀ : State} {j : Nat} {s : State} (h1 : Keeps s₀ s) : Keeps s₀ (windrowIntervalEnd j s) := by
  unfold windrowIntervalEnd
  split
  · rename_i v0 v1
    exact h1
  · rename_i v2 v3 v4
    exact Keeps.upd (s := s) h1 rfl rfl rfl rfl
theorem execWindrowIntervalEnd_keeps {s₀ s : State} {t : Nat} {j : Fin 3} (h₀ : Keeps s₀ s) :
    ∃ u, execWindrowIntervalEnd t j s = .next u ∧ Keeps s₀ u :=
  ⟨_, rfl, windrowIntervalEnd_keeps (State.at__keeps h₀)⟩

/-! ### TrgCore -/

theorem State.setRun_keeps {s₀ s : State} {g : Nat} {x : GroupRun} (h0 : Keeps s₀ s) : Keeps s₀ (State.setRun s g x) := by
  unfold State.setRun
  exact Keeps.upd (s := s) h0 rfl rfl rfl rfl
theorem State.missTrigger_keeps {s₀ s : State} {id instant group reason : Nat} (h0 : Keeps s₀ s) :
    Keeps s₀ (State.missTrigger s id instant group reason) := by
  unfold State.missTrigger
  extract_lets +onlyGivenNames x0
  have h1 : Keeps s₀ x0 := by
    unfold x0
    exact State.setBit_keeps (State.addSat_keeps h0)
  clear_value x0
  exact Keeps.ite (Keeps.upd (s := x0) h1 rfl rfl rfl rfl) (State.setBit_keeps (Keeps.upd (s := x0) h1 rfl rfl rfl rfl))
theorem State.takeSlot_keeps {s₀ s view : State} {g i t post : Nat} (h0 : Keeps s₀ s) : Keeps s₀ (State.takeSlot s view g i t post) := by
  unfold State.takeSlot
  extract_lets +onlyGivenNames x0
  extract_lets +onlyGivenNames x1
  have h2 : Keeps s₀ x1 := by
    unfold x1
    exact State.setRun_keeps h0
  clear_value x1
  extract_lets +onlyGivenNames x3
  have h4 : Keeps s₀ x3 := by
    unfold x3
    exact State.addWrap_keeps h2
  clear_value x3
  exact Keeps.ite (State.wrN_keeps h4) h4
theorem State.groupTrigger_keeps {s₀ s view : State} {id t pre post g : Nat} (h0 : Keeps s₀ s) :
    Keeps s₀ (State.groupTrigger s view id t pre post g).1 := by
  unfold State.groupTrigger
  extract_lets +onlyGivenNames x0
  extract_lets +onlyGivenNames x1
  refine Keeps.ite₁ ?_ ?_
  · exact h0
  · refine Keeps.ite₁ ?_ ?_
    · exact Keeps.fst_mk (State.addSat_keeps h0)
    · split
      · rename_i v2 v3
        exact Keeps.fst_mk (State.setBit_keeps (State.addSat_keeps (State.missTrigger_keeps h0)))
      · rename_i v4 v5 v6 v7 v8
        extract_lets +onlyGivenNames x9
        extract_lets +onlyGivenNames x10
        split
        · rename_i v11 v12
          extract_lets +onlyGivenNames x13
          exact Keeps.fst_mk (State.missTrigger_keeps h0)
        · rename_i v14 v15 v16
          exact Keeps.fst_mk (State.takeSlot_keeps h0)
theorem State.rateMiss_keeps {s₀ s view : State} {t g : Nat} (h0 : Keeps s₀ s) : Keeps s₀ (State.rateMiss s view t g).1 := by
  unfold State.rateMiss
  exact Keeps.ite₁ h0 (Keeps.ite₁ (Keeps.fst_mk (State.addSat_keeps h0)) (Keeps.fst_mk (State.missTrigger_keeps h0)))
theorem State.gather_keeps {s₀ s : State} {f : State → Nat → State × Taken} {groups : List Nat} (h : Keeps s₀ s)
    (hf : ∀ t g, Keeps s₀ t → Keeps s₀ (f t g).1) : Keeps s₀ (s.gather f groups).1 := by
  unfold State.gather
  exact Keeps.foldl₁ (f := fun (r : State × Gathered) g => ((f r.1 g).1, r.2.add (f r.1 g).2)) (r := (s, ({} : Gathered))) (fun r x h => hf r.1 x h) h
theorem State.openCapture_keeps {s₀ s : State} {c : Capture} {x : Gathered} {always : Bool} (h0 : Keeps s₀ s) :
    Keeps s₀ (State.openCapture s c x always) := by
  unfold State.openCapture
  extract_lets +onlyGivenNames x0
  exact Keeps.ite h0 (Keeps.upd (s := s) h0 rfl rfl rfl rfl)
theorem State.announce_keeps {s₀ s : State} {id t pre post radius cause dir : Nat} (h0 : Keeps s₀ s) :
    Keeps s₀ (State.announce s id t pre post radius cause dir) := by
  unfold State.announce
  extract_lets +onlyGivenNames x0
  extract_lets +onlyGivenNames x1
  exact State.emitFrame_keeps (State.emitFrame_keeps h0)
theorem State.noteId_keeps {s₀ s : State} {id : Nat} (h0 : Keeps s₀ s) : Keeps s₀ (State.noteId s id) := by
  unfold State.noteId
  exact Keeps.upd (s := s) h0 rfl rfl rfl rfl
theorem State.nextId_keeps {s₀ s : State} (h0 : Keeps s₀ s) : Keeps s₀ (State.nextId s).2 := by
  unfold State.nextId
  extract_lets +onlyGivenNames x0
  exact Keeps.snd_mk (State.wr64_keeps h0)
theorem State.replyForces_keeps {s₀ s : State} {forces : List (Hdr × List Word)} {id captured missed : Nat} (h0 : Keeps s₀ s) :
    Keeps s₀ (State.replyForces s forces id captured missed) := by
  unfold State.replyForces
  refine Keeps.foldl ?_ ?_
  · intro a0 y1 h2
    exact State.finish_keeps h2
  · exact h0
theorem State.formTrigger_keeps {s₀ s view : State} {t : Nat} {f : Fires} (h0 : Keeps s₀ s) : Keeps s₀ (State.formTrigger s view t f) := by
  unfold State.formTrigger
  extract_lets +onlyGivenNames x0
  refine Keeps.ite ?_ ?_
  · exact h0
  · extract_lets +onlyGivenNames x1
    extract_lets +onlyGivenNames x2
    extract_lets +onlyGivenNames x3
    extract_lets +onlyGivenNames x4
    refine Keeps.ite ?_ ?_
    · extract_lets +onlyGivenNames x5
      have h6 : Keeps s₀ x5.1 := by
        unfold x5
        refine State.gather_keeps ?_ ?_
        · exact h0
        · intro z7 z8 z9
          exact State.rateMiss_keeps z9
      clear_value x5
      exact State.replyForces_keeps (State.setBit_keeps h6)
    · extract_lets +onlyGivenNames x10
      extract_lets +onlyGivenNames x11
      have h12 : Keeps s₀ x11 := by
        unfold x11
        exact Keeps.upd (s := s) h0 rfl rfl rfl rfl
      clear_value x11
      split
      · rename_i v13 v14 v15 v16
        have h17 : Keeps s₀ v15 := by
          refine Keeps.of_snd v16 ?_
          split
          · rename_i v18 v19 v20
            exact h12
          · rename_i v21 v22
            exact State.nextId_keeps h12
        extract_lets +onlyGivenNames x23
        have h24 : Keeps s₀ x23 := by
          unfold x23
          exact State.setBit_keeps (State.noteId_keeps h17)
        clear_value x23
        extract_lets +onlyGivenNames x25
        extract_lets +onlyGivenNames x26
        have h27 : Keeps s₀ x26.1 := by
          unfold x26
          refine State.gather_keeps ?_ ?_
          · exact h24
          · intro z28 z29 z30
            exact State.groupTrigger_keeps z30
        clear_value x26
        extract_lets +onlyGivenNames x31
        extract_lets +onlyGivenNames x32
        have h33 : Keeps s₀ x32 := by
          unfold x32
          exact State.openCapture_keeps h27
        clear_value x32
        extract_lets +onlyGivenNames x34
        have h35 : Keeps s₀ x34 := by
          unfold x34
          exact Keeps.ite h33 (State.announce_keeps h33)
        clear_value x34
        exact State.replyForces_keeps h35
theorem State.acceptAnnounce_keeps {s₀ s view : State} {a : Announcement} {dir : Nat} (h0 : Keeps s₀ s) :
    Keeps s₀ (State.acceptAnnounce s view a dir) := by
  unfold State.acceptAnnounce
  extract_lets +onlyGivenNames x0
  extract_lets +onlyGivenNames x1
  have h2 : Keeps s₀ x1 := by
    unfold x1
    exact State.setBit_keeps h0
  clear_value x1
  extract_lets +onlyGivenNames x3
  have h4 : Keeps s₀ x3.1 := by
    unfold x3
    refine State.gather_keeps ?_ ?_
    · exact h2
    · intro z5 z6 z7
      exact State.groupTrigger_keeps z7
  clear_value x3
  extract_lets +onlyGivenNames x8
  exact State.openCapture_keeps h4
theorem State.abortCaptures_keeps {s₀ s : State} {named : Nat → Bool} {at_ : Nat} (h0 : Keeps s₀ s) : Keeps s₀ (State.abortCaptures s named at_) := by
  unfold State.abortCaptures
  extract_lets +onlyGivenNames x1
  extract_lets +onlyGivenNames x2
  extract_lets +onlyGivenNames x3
  have h4 : Keeps s₀ x3 := by
    unfold x3
    exact Keeps.upd (s := s) h0 rfl rfl rfl rfl
  clear_value x3
  refine Keeps.foldl ?_ ?_
  · intro a5 y6 h7
    extract_lets +onlyGivenNames x8
    exact State.setRun_keeps h7
  · exact h4
theorem State.armGroup_keeps {s₀ s : State} {g at_ : Nat} (h0 : Keeps s₀ s) : Keeps s₀ (State.armGroup s g at_) := by
  unfold State.armGroup
  extract_lets +onlyGivenNames x0
  exact State.restartRing_keeps (State.wrN_keeps (State.setRun_keeps h0))
theorem State.stopCapture_keeps {s₀ s : State} {g at_ : Nat} (h0 : Keeps s₀ s) : Keeps s₀ (State.stopCapture s g at_) := by
  unfold State.stopCapture
  exact State.wrN_keeps (State.setRun_keeps h0)
theorem State.rearmGroup_keeps {s₀ s : State} {g : Nat} (h0 : Keeps s₀ s) : Keeps s₀ (State.rearmGroup s g) := by
  unfold State.rearmGroup
  exact State.wrN_keeps (State.setRun_keeps h0)
theorem State.acqActs_keeps {s₀ s view : State} {lim op : Nat} {p : List Word} {at_ : Nat} (h0 : Keeps s₀ s) :
    Keeps s₀ (State.acqActs s view lim op p at_).1 := by
  unfold State.acqActs
  extract_lets +onlyGivenNames x0
  extract_lets +onlyGivenNames x1
  refine Keeps.ite₁ ?_ ?_
  · extract_lets +onlyGivenNames x2
    extract_lets +onlyGivenNames x3
    extract_lets +onlyGivenNames x4
    have h5 : Keeps s₀ x4 := by
      unfold x4
      refine Keeps.foldl ?_ ?_
      · intro a6 y7 h8
        exact State.armGroup_keeps h8
      · exact h0
    clear_value x4
    extract_lets +onlyGivenNames x9
    have h10 : Keeps s₀ x9.1 := by
      unfold x9
      refine Keeps.foldl₁ ?_ ?_
      · intro a11 y12 h13
        extract_lets +onlyGivenNames x14
        have h15 : Keeps s₀ x14.1 := by
          unfold x14
          exact State.restartSeq_keeps h13
        clear_value x14
        exact h15
      · exact h5
    clear_value x9
    exact h10
  · refine Keeps.ite₁ ?_ ?_
    · extract_lets +onlyGivenNames x16
      extract_lets +onlyGivenNames x17
      extract_lets +onlyGivenNames x18
      have h19 : Keeps s₀ x18 := by
        unfold x18
        exact Keeps.ite (State.abortCaptures_keeps h0) h0
      clear_value x18
      extract_lets +onlyGivenNames x20
      have h21 : Keeps s₀ x20 := by
        unfold x20
        refine Keeps.foldl ?_ ?_
        · intro a22 y23 h24
          exact State.stopCapture_keeps h24
        · exact h19
      clear_value x20
      extract_lets +onlyGivenNames x25
      have h26 : Keeps s₀ x25 := by
        unfold x25
        refine Keeps.foldl ?_ ?_
        · intro a27 y28 h29
          exact State.wrN_keeps (State.setSeq_keeps h29)
        · exact h21
      clear_value x25
      exact h26
    · extract_lets +onlyGivenNames x30
      extract_lets +onlyGivenNames x31
      extract_lets +onlyGivenNames x32
      have h33 : Keeps s₀ x32 := by
        unfold x32
        refine Keeps.foldl ?_ ?_
        · intro a34 y35 h36
          exact State.rearmGroup_keeps h36
        · exact h0
      clear_value x32
      extract_lets +onlyGivenNames x37
      have h38 : Keeps s₀ x37.1 := by
        unfold x37
        refine Keeps.foldl₁ ?_ ?_
        · intro a39 y40 h41
          extract_lets +onlyGivenNames x42
          have h43 : Keeps s₀ x42.1 := by
            unfold x42
            exact State.restartSeq_keeps h41
          clear_value x42
          exact h43
        · exact h33
      clear_value x37
      exact h38
theorem State.closeCaptures_keeps {s₀ s : State} {t : Nat} (h0 : Keeps s₀ s) : Keeps s₀ (State.closeCaptures s t) := by
  unfold State.closeCaptures
  extract_lets +onlyGivenNames x0
  have h_x0 : ∀ {b1 : State × List Capture} {b3 : Capture}, Keeps s₀ b1.1 → Keeps s₀ (x0 b1 b3).1 := by
    intro b1 b3 h4
    unfold x0
    refine Keeps.ite₁ ?_ ?_
    · exact h4
    · extract_lets +onlyGivenNames x5
      refine Keeps.fst_mk ?_
      extract_lets +onlyGivenNames x6
      have h7 : Keeps s₀ x6 := h4
      clear_value x6
      exact Keeps.upd (s := x6) h7 rfl rfl rfl rfl
  extract_lets +onlyGivenNames x8
  have h9 : Keeps s₀ x8.1 := by
    unfold x8
    refine Keeps.foldl₁ ?_ ?_
    · intro a10 y11 h12
      exact h_x0 h12
    · exact h0
  clear_value x8
  extract_lets +onlyGivenNames x13
  have h14 : Keeps s₀ x13 := h9
  clear_value x13
  exact Keeps.upd (s := x13) h14 rfl rfl rfl rfl
theorem State.noteResume_keeps {s₀ s : State} {g : Nat} (h0 : Keeps s₀ s) : Keeps s₀ (State.noteResume s g) := by
  unfold State.noteResume
  exact State.setRun_keeps h0
theorem State.earlyEvent_keeps {s₀ view : State} {lim t : Nat} {r : State × List Nat} {e : LocalEvent} (h3 : Keeps s₀ r.1) :
    Keeps s₀ (State.earlyEvent view lim t r e).1 := by
  unfold State.earlyEvent
  split
  · rename_i v0 v1 v2 v3
    extract_lets +onlyGivenNames x4
    extract_lets +onlyGivenNames x5
    have h6 : Keeps s₀ x5 := by
      unfold x5
      refine Keeps.foldl ?_ ?_
      · intro a7 y8 h9
        exact Keeps.ite (State.rearmGroup_keeps h9) h9
      · exact h3
    clear_value x5
    refine Keeps.foldl₁ ?_ ?_
    · intro a10 y11 h12
      extract_lets +onlyGivenNames x13
      have h14 : Keeps s₀ x13.1 := by
        unfold x13
        exact State.restartSeq_keeps h12
      clear_value x13
      exact h14
    · exact h6
  · rename_i v15 v16 v17 v18 v19
    extract_lets +onlyGivenNames x20
    have h21 : Keeps s₀ x20.1 := by
      unfold x20
      exact State.acqActs_keeps h3
    clear_value x20
    exact Keeps.fst_mk (State.finish_keeps h21)
  · rename_i v22 v23
    extract_lets +onlyGivenNames x24
    have h25 : Keeps s₀ x24.1 := by
      unfold x24
      refine State.acqActs_keeps ?_
      refine Keeps.foldl ?_ ?_
      · intro a26 y27 h28
        exact State.noteResume_keeps h28
      · exact h3
    clear_value x24
    exact h25
  · rename_i v29 v30 v31 v32
    exact h3
theorem State.timerEvent_keeps {s₀ view : State} {lim t : Nat} {r : State × List Nat} {q : Nat} (h3 : Keeps s₀ r.1) :
    Keeps s₀ (State.timerEvent view lim t r q).1 := by
  unfold State.timerEvent
  refine Keeps.ite₁ ?_ ?_
  · exact h3
  · extract_lets +onlyGivenNames x0
    extract_lets +onlyGivenNames x1
    have h2 : Keeps s₀ x1 := by
      unfold x1
      exact State.setSeq_keeps h3
    clear_value x1
    extract_lets +onlyGivenNames x3
    have h4 : Keeps s₀ x3.1 := by
      unfold x3
      exact State.withRounds_keeps (State.deliver_keeps h2)
    clear_value x3
    exact h4
theorem State.stepInstant_keeps {s₀ s : State} {lim t : Nat} (h0 : Keeps s₀ s) : Keeps s₀ (State.stepInstant s lim t) := by
  unfold State.stepInstant
  extract_lets +onlyGivenNames x0
  extract_lets +onlyGivenNames x2
  extract_lets +onlyGivenNames x3
  extract_lets +onlyGivenNames x4
  have h5 : Keeps s₀ x4 := by
    unfold x4
    exact Keeps.upd (s := s) h0 rfl rfl rfl rfl
  clear_value x4
  extract_lets +onlyGivenNames x6
  extract_lets +onlyGivenNames x7
  extract_lets +onlyGivenNames x8
  have h9 : Keeps s₀ x8.1 := by
    unfold x8
    refine Keeps.foldl₁ ?_ ?_
    · intro a10 y11 h12
      exact State.earlyEvent_keeps h12
    · exact h5
  clear_value x8
  extract_lets +onlyGivenNames x13
  have h14 : Keeps s₀ x13.1 := by
    unfold x13
    exact State.withRounds_keeps h9
  clear_value x13
  extract_lets +onlyGivenNames x15
  extract_lets +onlyGivenNames x16
  extract_lets +onlyGivenNames x17
  have h18 : Keeps s₀ x17 := by
    unfold x17
    refine Keeps.foldl ?_ ?_
    · intro a19 y20 h21
      exact State.replyForces_keeps h21
    · exact h14
  clear_value x17
  extract_lets +onlyGivenNames x22
  extract_lets +onlyGivenNames x23
  have h24 : Keeps s₀ x23.1 := by
    unfold x23
    refine Keeps.foldl₁ ?_ ?_
    · intro a25 y26 h27
      extract_lets +onlyGivenNames x28
      have h29 : Keeps s₀ x28.1 := by
        unfold x28
        exact State.lineHit_keeps h27
      clear_value x28
      exact h29
    · exact h18
  clear_value x23
  extract_lets +onlyGivenNames x30
  have h31 : Keeps s₀ x30.1 := by
    unfold x30
    refine Keeps.foldl₁ ?_ ?_
    · intro a32 y33 h34
      exact State.timerEvent_keeps h34
    · exact h24
  clear_value x30
  extract_lets +onlyGivenNames x35
  extract_lets +onlyGivenNames x36
  have h37 : Keeps s₀ x36 := by
    unfold x36
    refine Keeps.foldl ?_ ?_
    · intro a38 y39 h40
      exact State.noteFire_keeps h40
    · exact h31
  clear_value x36
  extract_lets +onlyGivenNames x41
  have h42 : Keeps s₀ x41.1 := by
    unfold x41
    exact seqRounds_keeps h37
  clear_value x41
  extract_lets +onlyGivenNames x43
  have h44 : Keeps s₀ x43 := by
    unfold x43
    exact State.formTrigger_keeps h42
  clear_value x43
  extract_lets +onlyGivenNames x45
  have h46 : Keeps s₀ x45 := by
    unfold x45
    refine Keeps.foldl ?_ ?_
    · intro a47 y48 h49
      exact State.closeWindrow_keeps h49
    · exact State.closeCaptures_keeps h44
  clear_value x45
  refine Keeps.foldl ?_ ?_
  · intro a50 y51 h52
    exact State.orderedStep_keeps h52
  · exact h46
theorem stepLocal_keeps {s₀ : State} {to_ lim : Nat} : ∀ {k : Nat} {s : State}, Keeps s₀ s → Keeps s₀ (stepLocal to_ lim k s)
  | 0, _, h => h
  | k + 1, s, h => by
    unfold stepLocal
    split
    · exact h
    · exact stepLocal_keeps (State.stepInstant_keeps h)
theorem State.triggerStep_keeps {s₀ s : State} {k : Nat} (h0 : Keeps s₀ s) : Keeps s₀ (State.triggerStep s k) := by
  unfold State.triggerStep
  extract_lets +onlyGivenNames x0
  extract_lets +onlyGivenNames x1
  extract_lets +onlyGivenNames x2
  have h3 : Keeps s₀ x2 := by
    unfold x2
    exact Keeps.upd (s := s) h0 rfl rfl rfl rfl
  clear_value x2
  extract_lets +onlyGivenNames x4
  have h5 : Keeps s₀ x4 := by
    unfold x4
    exact stepLocal_keeps h3
  clear_value x4
  extract_lets +onlyGivenNames x6
  extract_lets +onlyGivenNames x7
  extract_lets +onlyGivenNames x8
  have h9 : Keeps s₀ x8 := by
    unfold x8
    exact Keeps.upd (s := x4) h5 rfl rfl rfl rfl
  clear_value x8
  refine Keeps.foldl ?_ ?_
  · intro a10 y11 h12
    extract_lets +onlyGivenNames x13
    have h14 : Keeps s₀ x13 := by
      unfold x13
      exact State.acceptAnnounce_keeps h12
    clear_value x13
    exact stepLocal_keeps h14
  · exact h9
theorem State.takeHit_keeps {s₀ s : State} {h : Hit} (h0 : Keeps s₀ s) : Keeps s₀ (State.takeHit s h) := by
  unfold State.takeHit
  exact Keeps.ite (State.loseHit_keeps h0) (Keeps.upd (s := s) h0 rfl rfl rfl rfl)

/-! ### Trg -/

theorem State.acqEnqueue_keeps {s₀ s : State} {h : Hdr} {op : Nat} {p : List Word} {a : Nat} (h0 : Keeps s₀ s) :
    Keeps s₀ (State.acqEnqueue s h op p a) := by
  unfold State.acqEnqueue
  exact Keeps.upd (s := s) h0 rfl rfl rfl rfl
theorem acqBody_keeps {s₀ : State} {op : Nat} {h : Hdr} {p : List Word} {s : State} (h3 : Keeps s₀ s) : Keeps s₀ (acqBody op h p s).1 := by
  unfold acqBody
  refine Keeps.ite₁ ?_ ?_
  · exact refuse_keeps h3
  · exact Keeps.ite₁ (refuse_keeps h3) (Keeps.ite₁ (refuse_keeps h3) (Keeps.ite₁ h3 (Keeps.fst_mk (State.acqEnqueue_keeps h3))))
theorem State.forceEnqueue_keeps {s₀ s : State} {h : Hdr} {p : List Word} {t : Nat} (h0 : Keeps s₀ s) : Keeps s₀ (State.forceEnqueue s h p t) := by
  unfold State.forceEnqueue
  exact Keeps.upd (s := s) h0 rfl rfl rfl rfl
theorem acqForceBody_keeps {s₀ : State} {h : Hdr} {p : List Word} {s : State} (h2 : Keeps s₀ s) : Keeps s₀ (acqForceBody h p s).1 := by
  unfold acqForceBody
  refine Keeps.ite₁ ?_ ?_
  · exact refuse_keeps h2
  · exact Keeps.ite₁ (refuse_keeps h2) (Keeps.ite₁ (refuse_keeps h2) (Keeps.ite₁ h2 (Keeps.fst_mk (State.forceEnqueue_keeps h2))))
theorem fetchFrom_keeps {s₀ : State} {kind dir : Nat} :
    ∀ {k seq : Nat} {r : State × Nat × Option Nat × Nat}, Keeps s₀ r.1 → Keeps s₀ (fetchFrom kind dir k seq r).1
  | 0, _, _, h => h
  | k + 1, seq, (s, a, b, c), h => by
    unfold fetchFrom
    split
    · exact fetchFrom_keeps (State.pushAll_keeps h)
    · exact fetchFrom_keeps h
theorem acqFetchBody_keeps {s₀ : State} {h : Hdr} {p : List Word} {s : State} (h2 : Keeps s₀ s) : Keeps s₀ (acqFetchBody h p s).1 := by
  unfold acqFetchBody
  extract_lets +onlyGivenNames x0
  refine Keeps.ite₁ ?_ ?_
  · exact refuse_keeps h2
  · refine Keeps.ite₁ ?_ ?_
    · exact refuse_keeps h2
    · refine Keeps.ite₁ ?_ ?_
      · exact refuse_keeps h2
      · extract_lets +onlyGivenNames x1
        have h2 : Keeps s₀ x1 := by
          unfold x1
          exact State.accept_keeps h2
        clear_value x1
        split
        · rename_i v3 v4 v5 v6 v7 v8
          have h9 : Keeps s₀ v4 := Keeps.of_fst v8 (fetchFrom_keeps h2)
          extract_lets +onlyGivenNames x10
          exact Keeps.fst_mk (State.endFetch_keeps (Keeps.upd (s := v4) h9 rfl rfl rfl rfl))
theorem seqTimerExpiry_keeps {s₀ : State} {q : Nat} {s : State} (h1 : Keeps s₀ s) : Keeps s₀ (seqTimerExpiry q s) := by
  unfold seqTimerExpiry
  extract_lets +onlyGivenNames x0
  split
  · rename_i v1 v2 v3
    exact Keeps.ite (State.setSeq_keeps h1) h1
  · rename_i v4 v5
    exact h1
theorem seqAutoFire_keeps {s₀ : State} {q : Nat} {s : State} (h1 : Keeps s₀ s) : Keeps s₀ (seqAutoFire q s) := by
  unfold seqAutoFire
  extract_lets +onlyGivenNames x0
  extract_lets +onlyGivenNames x1
  exact Keeps.ite (State.setSeq_keeps h1) h1
theorem announceReceive_keeps {s₀ : State} {p : Nat} {s : State} (h1 : Keeps s₀ s) : Keeps s₀ (announceReceive p s) := by
  unfold announceReceive
  split
  · rename_i v0 v1
    exact h1
  · rename_i v2 v3 v4 v5
    extract_lets +onlyGivenNames x6
    extract_lets +onlyGivenNames x7
    have h8 : Keeps s₀ x7 := by
      unfold x7
      exact Keeps.upd (s := s) h1 rfl rfl rfl rfl
    clear_value x7
    extract_lets +onlyGivenNames x9
    refine Keeps.ite ?_ ?_
    · exact h8
    · extract_lets +onlyGivenNames x10
      have h11 : Keeps s₀ x10 := by
        unfold x10
        exact State.noteId_keeps h8
      clear_value x10
      extract_lets +onlyGivenNames x12
      extract_lets +onlyGivenNames x13
      have h14 : Keeps s₀ x13 := by
        unfold x13
        exact Keeps.ite (State.sendOn_keeps h11) h11
      clear_value x13
      exact Keeps.ite h14 (State.send_keeps h14)
theorem stpRecordAgeClose_keeps {s₀ s : State} (h0 : Keeps s₀ s) : Keeps s₀ (stpRecordAgeClose s) := by
  unfold stpRecordAgeClose
  split
  · rename_i v0 v1 v2
    exact Keeps.ite (State.closeStp_keeps h0) h0
  · rename_i v3 v4
    exact h0
theorem itvRecordAgeClose_keeps {s₀ s : State} (h0 : Keeps s₀ s) : Keeps s₀ (itvRecordAgeClose s) := by
  unfold itvRecordAgeClose
  split
  · rename_i v0 v1 v2
    exact Keeps.ite (State.closeItv_keeps h0) h0
  · rename_i v3 v4
    exact h0
theorem execAcqStart_keeps {s₀ s : State} {h : Hdr} {p : List Word} (h₀ : Keeps s₀ s) :
    ∃ u, execAcqStart h p s = .next u ∧ Keeps s₀ u :=
  ⟨_, rfl, State.receive_keeps h₀ fun _ h₁ => acqBody_keeps h₁⟩
theorem execAcqStop_keeps {s₀ s : State} {h : Hdr} {p : List Word} (h₀ : Keeps s₀ s) :
    ∃ u, execAcqStop h p s = .next u ∧ Keeps s₀ u :=
  ⟨_, rfl, State.receive_keeps h₀ fun _ h₁ => acqBody_keeps h₁⟩
theorem execAcqRearm_keeps {s₀ s : State} {h : Hdr} {p : List Word} (h₀ : Keeps s₀ s) :
    ∃ u, execAcqRearm h p s = .next u ∧ Keeps s₀ u :=
  ⟨_, rfl, State.receive_keeps h₀ fun _ h₁ => acqBody_keeps h₁⟩
theorem execAcqForce_keeps {s₀ s : State} {h : Hdr} {p : List Word} (h₀ : Keeps s₀ s) :
    ∃ u, execAcqForce h p s = .next u ∧ Keeps s₀ u :=
  ⟨_, rfl, State.receive_keeps h₀ fun _ h₁ => acqForceBody_keeps h₁⟩
theorem execAcqFetch_keeps {s₀ s : State} {h : Hdr} {p : List Word} (h₀ : Keeps s₀ s) :
    ∃ u, execAcqFetch h p s = .next u ∧ Keeps s₀ u :=
  ⟨_, rfl, State.receive_keeps h₀ fun _ h₁ => acqFetchBody_keeps h₁⟩
theorem execSeqTimerExpiry_keeps {s₀ s : State} {t : Nat} {q : Fin 32} (h₀ : Keeps s₀ s) :
    ∃ u, execSeqTimerExpiry t q s = .next u ∧ Keeps s₀ u :=
  ⟨_, rfl, seqTimerExpiry_keeps (State.at__keeps h₀)⟩
theorem execSeqAutoFire_keeps {s₀ s : State} {t : Nat} {q : Fin 32} (h₀ : Keeps s₀ s) :
    ∃ u, execSeqAutoFire t q s = .next u ∧ Keeps s₀ u :=
  ⟨_, rfl, seqAutoFire_keeps (State.at__keeps h₀)⟩
theorem execAnnounceReceive_keeps {s₀ s : State} {t : Nat} {port : Fin 2} (h₀ : Keeps s₀ s) :
    ∃ u, execAnnounceReceive t port s = .next u ∧ Keeps s₀ u :=
  ⟨_, rfl, announceReceive_keeps (State.at__keeps h₀)⟩
theorem execStpRecordAgeClose_keeps {s₀ s : State} {t : Nat} (h₀ : Keeps s₀ s) :
    ∃ u, execStpRecordAgeClose t s = .next u ∧ Keeps s₀ u :=
  ⟨_, rfl, stpRecordAgeClose_keeps (State.at__keeps h₀)⟩
theorem execItvRecordAgeClose_keeps {s₀ s : State} {t : Nat} (h₀ : Keeps s₀ s) :
    ∃ u, execItvRecordAgeClose t s = .next u ∧ Keeps s₀ u :=
  ⟨_, rfl, itvRecordAgeClose_keeps (State.at__keeps h₀)⟩

end Sys2Proof.Machine
end

