-- ==== Sys2Proof/Laws/KeepsCapture.lean ====
section
/-! SUPPORT. What the operations and the commands of a group keep (see Keeps): calibration, coding, captures and inputs. -/

set_option linter.all false

namespace Sys2Proof.Machine

/-! ### Cal -/

theorem calRunBody_keeps {s₀ : State} {h : Hdr} {p : List Word} {s : State} (h2 : Keeps s₀ s) : Keeps s₀ (calRunBody h p s).1 := by
  unfold calRunBody
  refine Keeps.ite₁ ?_ ?_
  · exact refuse_keeps h2
  · refine Keeps.ite₁ ?_ ?_
    · exact refuse_keeps h2
    · split
      · rename_i v0 v1 v2
        exact refuse_keeps h2
      · rename_i v3 v4
        exact h2
theorem calShuntBody_keeps {s₀ : State} {h : Hdr} {p : List Word} {s : State} (h2 : Keeps s₀ s) : Keeps s₀ (calShuntBody h p s).1 := by
  unfold calShuntBody
  refine Keeps.ite₁ ?_ ?_
  · exact refuse_keeps h2
  · refine Keeps.ite₁ ?_ ?_
    · exact refuse_keeps h2
    · split
      · rename_i v0 v1 v2
        exact refuse_keeps h2
      · rename_i v3 v4
        exact h2
theorem State.holdFor_keeps {s₀ s : State} {r : CalRun} (h0 : Keeps s₀ s) : Keeps s₀ (State.holdFor s r) := by
  unfold State.holdFor
  extract_lets +onlyGivenNames x0
  have h1 : Keeps s₀ x0 := by
    unfold x0
    refine Keeps.foldl ?_ ?_
    · intro a2 y3 h4
      exact State.holdInput_keeps h4
    · exact h0
  clear_value x0
  exact State.setBit_keeps (State.wrN_keeps (State.setCalRun_keeps h1))
theorem State.startCal_keeps {s₀ s : State} {h : Hdr} {p : List Word} (h0 : Keeps s₀ s) : Keeps s₀ (State.startCal s h p) := by
  unfold State.startCal
  extract_lets +onlyGivenNames x0
  extract_lets +onlyGivenNames x1
  extract_lets +onlyGivenNames x2
  extract_lets +onlyGivenNames x3
  extract_lets +onlyGivenNames x4
  extract_lets +onlyGivenNames x5
  extract_lets +onlyGivenNames x6
  extract_lets +onlyGivenNames x7
  extract_lets +onlyGivenNames x8
  extract_lets +onlyGivenNames x9
  extract_lets +onlyGivenNames x10
  extract_lets +onlyGivenNames x11
  exact State.holdFor_keeps h0
theorem State.startShunt_keeps {s₀ s : State} {h : Hdr} {p : List Word} (h0 : Keeps s₀ s) : Keeps s₀ (State.startShunt s h p) := by
  unfold State.startShunt
  extract_lets +onlyGivenNames x0
  refine Keeps.ite ?_ ?_
  · split
    · rename_i v1 v2 v3 v4
      have h5 : Keeps s₀ v3 := Keeps.of_snd v4 (State.takeFree_keeps h0)
      split
      · rename_i v6 v7 v8 v9
        have h10 : Keeps s₀ v8 := Keeps.of_snd v9 (State.takeFree_keeps h5)
        exact State.finish_keeps (State.wrN_keeps h10)
  · exact State.holdFor_keeps h0
theorem State.undue_keeps {s₀ s : State} {h : Hdr} (h0 : Keeps s₀ s) : Keeps s₀ (State.undue s h) := by
  unfold State.undue
  exact Keeps.upd (s := s) h0 rfl rfl rfl rfl
theorem calStart_keeps {s₀ s : State} (h0 : Keeps s₀ s) : Keeps s₀ (calStart s) := by
  unfold calStart
  split
  · rename_i v0 v1
    exact h0
  · rename_i v2 v3 v4
    refine Keeps.ite ?_ ?_
    · exact h0
    · extract_lets +onlyGivenNames x5
      have h6 : Keeps s₀ x5 := by
        unfold x5
        exact State.undue_keeps h0
      clear_value x5
      exact Keeps.ite (State.finish_keeps h6) (Keeps.ite (State.startCal_keeps h6) (State.startShunt_keeps h6))
theorem State.checkCal_keeps {s₀ s : State} {r : CalRun} (h0 : Keeps s₀ s) : Keeps s₀ (State.checkCal s r) := by
  unfold State.checkCal
  extract_lets +onlyGivenNames x0
  extract_lets +onlyGivenNames x1
  exact State.wrN_keeps (State.setCalRun_keeps h0)
theorem State.beginPoint_keeps {s₀ s : State} {r : CalRun} (h0 : Keeps s₀ s) : Keeps s₀ (State.beginPoint s r) := by
  unfold State.beginPoint
  extract_lets +onlyGivenNames x0
  exact Keeps.ite (State.checkCal_keeps h0) (State.wrN_keeps (State.setCalRun_keeps h0))
theorem calHoldDone_keeps {s₀ s : State} (h0 : Keeps s₀ s) : Keeps s₀ (calHoldDone s) := by
  unfold calHoldDone
  split
  · rename_i v0 v1
    exact h0
  · rename_i v2 v3 v4
    exact Keeps.ite (State.beginPoint_keeps h0) h0
theorem calPointDone_keeps {s₀ : State} {found : List CalFinding} {s : State} (h1 : Keeps s₀ s) : Keeps s₀ (calPointDone found s) := by
  unfold calPointDone
  split
  · rename_i v0 v1
    exact h1
  · rename_i v2 v3 v4
    split
    · rename_i v5 v6
      exact h1
    · rename_i v7 v8 v9 v10
      refine Keeps.ite ?_ ?_
      · exact h1
      · extract_lets +onlyGivenNames x11
        exact State.beginPoint_keeps h1
theorem State.calDone_keeps {s₀ s : State} (h0 : Keeps s₀ s) : Keeps s₀ (State.calDone s) := by
  unfold State.calDone
  exact State.clrBits_keeps (State.wrN_keeps (State.setCal_keeps h0))
theorem State.calReply_keeps {s₀ s : State} {r : CalRun} {outcome seq : Nat} (h0 : Keeps s₀ s) : Keeps s₀ (State.calReply s r outcome seq) := by
  unfold State.calReply
  extract_lets +onlyGivenNames x0
  extract_lets +onlyGivenNames x1
  exact State.finish_keeps (State.calDone_keeps h0)
theorem State.showResult_keeps {s₀ s : State} {unit result : Nat} (h0 : Keeps s₀ s) : Keeps s₀ (State.showResult s unit result) := by
  unfold State.showResult
  extract_lets +onlyGivenNames x0
  have h1 : Keeps s₀ x0 := by
    unfold x0
    exact State.wrN_keeps h0
  clear_value x0
  exact Keeps.ite h1 (State.setBit_keeps h1)
theorem State.applyInput_keeps {s₀ s : State} {x : CalInput} (h0 : Keeps s₀ s) : Keeps s₀ (State.applyInput s x) := by
  unfold State.applyInput
  refine Keeps.ite ?_ ?_
  · exact h0
  · refine Keeps.ite ?_ ?_
    · exact State.showResult_keeps h0
    · refine Keeps.ite ?_ ?_
      · exact State.showResult_keeps h0
      · extract_lets +onlyGivenNames x0
        have h1 : Keeps s₀ x0 := by
          unfold x0
          refine Keeps.foldl ?_ ?_
          · intro a2 y3 h4
            exact State.wr_keeps h4
          · exact h0
        clear_value x0
        extract_lets +onlyGivenNames x5
        have h6 : Keeps s₀ x5 := by
          unfold x5
          exact Keeps.ite (State.wr64_keeps h1) h1
        clear_value x5
        exact State.showResult_keeps h6
theorem State.applySource_keeps {s₀ s : State} {x : CalSource} (h0 : Keeps s₀ s) : Keeps s₀ (State.applySource s x) := by
  unfold State.applySource
  exact Keeps.ite (State.showResult_keeps h0) (State.showResult_keeps (Keeps.ite (State.wrN_keeps h0) h0))
theorem calRelease_keeps {s₀ s : State} (h0 : Keeps s₀ s) : Keeps s₀ (calRelease s) := by
  unfold calRelease
  split
  · rename_i v0 v1
    exact h0
  · rename_i v2 v3 v4
    extract_lets +onlyGivenNames x5
    refine Keeps.ite ?_ ?_
    · exact h0
    · extract_lets +onlyGivenNames x6
      extract_lets +onlyGivenNames x7
      have h8 : Keeps s₀ x7 := by
        unfold x7
        refine Keeps.ite ?_ ?_
        · exact h0
        · refine Keeps.foldl ?_ ?_
          · intro a9 y10 h11
            exact State.applySource_keeps h11
          · refine Keeps.foldl ?_ ?_
            · intro a12 y13 h14
              exact State.applyInput_keeps h14
            · exact h0
      clear_value x7
      extract_lets +onlyGivenNames x15
      have h16 : Keeps s₀ x15 := by
        unfold x15
        refine Keeps.foldl ?_ ?_
        · intro a17 y18 h19
          exact State.showResult_keeps h19
        · exact h8
      clear_value x15
      extract_lets +onlyGivenNames x20
      have h21 : Keeps s₀ x20 := by
        unfold x20
        exact State.releaseCal_keeps h16
      clear_value x20
      extract_lets +onlyGivenNames x22
      extract_lets +onlyGivenNames x23
      extract_lets +onlyGivenNames x24
      extract_lets +onlyGivenNames x25
      exact Keeps.ite (State.queueFlash_keeps (State.wrN_keeps (State.setCalRun_keeps h21))) (State.calReply_keeps h21)
theorem State.abortCal_keeps {s₀ s : State} (h0 : Keeps s₀ s) : Keeps s₀ (State.abortCal s) := by
  unfold State.abortCal
  split
  · rename_i v0 v1
    exact h0
  · rename_i v2 v3 v4
    extract_lets +onlyGivenNames x5
    extract_lets +onlyGivenNames x6
    have h7 : Keeps s₀ x6 := by
      unfold x6
      refine Keeps.foldl ?_ ?_
      · intro a8 y9 h10
        exact State.showResult_keeps h10
      · exact h0
    clear_value x6
    extract_lets +onlyGivenNames x11
    have h12 : Keeps s₀ x11 := by
      unfold x11
      refine Keeps.foldl ?_ ?_
      · intro a13 y14 h15
        exact State.showResult_keeps h15
      · exact h7
    clear_value x11
    extract_lets +onlyGivenNames x16
    have h17 : Keeps s₀ x16 := by
      unfold x16
      refine Keeps.foldl ?_ ?_
      · intro a18 y19 h20
        exact State.showResult_keeps h20
      · exact h12
    clear_value x16
    extract_lets +onlyGivenNames x21
    have h22 : Keeps s₀ x21 := by
      unfold x21
      exact State.releaseCal_keeps h17
    clear_value x21
    split
    · rename_i v23 v24 v25 v26
      have h27 : Keeps s₀ v25 := Keeps.of_snd v26 (State.takeFree_keeps h22)
      split
      · rename_i v28 v29 v30 v31
        have h32 : Keeps s₀ v30 := Keeps.of_snd v31 (State.takeFree_keeps h27)
        extract_lets +onlyGivenNames x33
        exact State.calReply_keeps h32
theorem calAbortBody_keeps {s₀ : State} {p : List Word} {s : State} (h1 : Keeps s₀ s) : Keeps s₀ (calAbortBody p s).1 := by
  unfold calAbortBody
  refine Keeps.ite₁ ?_ ?_
  · exact refuse_keeps h1
  · split
    · rename_i v0 v1
      exact okay_keeps h1
    · rename_i v2 v3 v4
      exact Keeps.ite₁ (refuse_keeps h1) (Keeps.fst_mk (State.setCalRun_keeps h1))
theorem State.answerAborts_keeps {s₀ : State} : ∀ {k : Nat} {s : State}, Keeps s₀ s → Keeps s₀ (s.answerAborts k)
  | 0, _, h => h
  | k + 1, s, h => by
    unfold State.answerAborts
    split
    · exact State.answerAborts_keeps (State.finish_keeps h)
    · exact h
theorem calAbortAct_keeps {s₀ s : State} (h0 : Keeps s₀ s) : Keeps s₀ (calAbortAct s) := by
  unfold calAbortAct
  split
  · rename_i v0 v1
    exact h0
  · refine Keeps.ite h0 ?_
    extract_lets +onlyGivenNames x5
    have h6 : Keeps s₀ x5 := by
      unfold x5
      exact Keeps.ite h0 (State.abortCal_keeps h0)
    clear_value x5
    exact State.answerAborts_keeps h6
theorem calStoreComplete_keeps {s₀ : State} {good : Bool} {s : State} (h1 : Keeps s₀ s) : Keeps s₀ (calStoreComplete good s) := by
  unfold calStoreComplete
  split
  · rename_i v0 v1 v2 v3 v4
    extract_lets +onlyGivenNames x5
    extract_lets +onlyGivenNames x6
    refine Keeps.ite ?_ ?_
    · extract_lets +onlyGivenNames x7
      extract_lets +onlyGivenNames x8
      extract_lets +onlyGivenNames x9
      have h10 : Keeps s₀ x9 := by
        unfold x9
        exact State.setCal_keeps h1
      clear_value x9
      exact State.calReply_keeps (State.endFlash_keeps (State.wrN_keeps (State.wrN_keeps h10)))
    · refine Keeps.ite ?_ ?_
      · exact State.setCal_keeps h1
      · extract_lets +onlyGivenNames x11
        extract_lets +onlyGivenNames x12
        have h13 : Keeps s₀ x12 := by
          unfold x12
          exact State.setBit_keeps (State.setCal_keeps h1)
        clear_value x12
        exact State.calReply_keeps (State.endFlash_keeps (State.logEvent_keeps h13))
  · rename_i v14 v15 v16
    exact h1
theorem calReadBody_keeps {s₀ : State} {p : List Word} {s : State} (h1 : Keeps s₀ s) : Keeps s₀ (calReadBody p s).1 := by
  unfold calReadBody
  extract_lets +onlyGivenNames x0
  refine Keeps.ite₁ ?_ ?_
  · exact refuse_keeps h1
  · refine Keeps.ite₁ ?_ ?_
    · exact refuse_keeps h1
    · extract_lets +onlyGivenNames x1
      extract_lets +onlyGivenNames x2
      refine Keeps.ite₁ ?_ ?_
      · exact okay_keeps h1
      · refine Keeps.ite₁ ?_ ?_
        · extract_lets +onlyGivenNames x3
          exact okay_keeps h1
        · split
          · rename_i v4 v5 v6 v7
            have h8 : Keeps s₀ v6 := Keeps.of_snd v7 (State.takeFree_keeps h1)
            split
            · rename_i v9 v10 v11 v12
              have h13 : Keeps s₀ v11 := Keeps.of_snd v12 (State.takeFree_keeps h8)
              split
              · rename_i v14 v15 v16 v17
                have h18 : Keeps s₀ v16 := Keeps.of_snd v17 (State.takeFree_keeps h13)
                split
                · rename_i v19 v20 v21 v22
                  have h23 : Keeps s₀ v21 := Keeps.of_snd v22 (State.takeFree_keeps h18)
                  split
                  · rename_i v24 v25 v26 v27
                    have h28 : Keeps s₀ v26 := Keeps.of_snd v27 (State.takeFree_keeps h23)
                    split
                    · rename_i v29 v30 v31 v32
                      have h33 : Keeps s₀ v31 := Keeps.of_snd v32 (State.takeFree_keeps h28)
                      exact okay_keeps h33
theorem State.loadCal_keeps {s₀ s : State} (h : Keeps s₀ s) : Keeps s₀ s.loadCal := by
  unfold State.loadCal
  extract_lets x put
  have hx : Keeps s₀ x := Keeps.updPar h rfl (fun w => Sparse.wf_filter w _) rfl rfl
  clear_value x
  have hp : ∀ {t : State} {c : CalSlot}, Keeps s₀ t → Keeps s₀ (put t c) := fun h => Keeps.foldl (fun s x h => State.wr_keeps h) h
  clear_value put
  split
  · exact State.wrN_keeps (State.wrN_keeps (hp hx))
  · exact Keeps.ite (State.wrN_keeps (State.wrN_keeps (hp hx))) (State.setBit_keeps (State.wrN_keeps (State.wrN_keeps (hp hx))))
theorem State.failCheck_keeps {s₀ s : State} {n data1 : Nat} (h0 : Keeps s₀ s) : Keeps s₀ (State.failCheck s n data1) := by
  unfold State.failCheck
  extract_lets +onlyGivenNames x0
  have h1 : Keeps s₀ x0 := by
    unfold x0
    exact State.setBit_keeps (State.setBit_keeps h0)
  clear_value x0
  exact State.logEvent_keeps h1
theorem State.checkStamper_keeps {s₀ s : State} {f : CheckFinding} (h0 : Keeps s₀ s) : Keeps s₀ (State.checkStamper s f) := by
  unfold State.checkStamper
  extract_lets +onlyGivenNames x0
  refine Keeps.ite ?_ ?_
  · exact h0
  · extract_lets +onlyGivenNames x1
    extract_lets +onlyGivenNames x2
    have h3 : Keeps s₀ x2 := by
      unfold x2
      exact State.setTiming_keeps h0
    clear_value x2
    split
    · rename_i v4 v5 v6
      exact State.failCheck_keeps h3
    · rename_i v7 v8
      exact h3
theorem pchkPeriod_keeps {s₀ : State} {found : List CheckFinding} {s : State} (h1 : Keeps s₀ s) : Keeps s₀ (pchkPeriod found s) := by
  unfold pchkPeriod
  extract_lets +onlyGivenNames x0
  refine Keeps.ite ?_ ?_
  · exact h1
  · extract_lets +onlyGivenNames x1
    have h2 : Keeps s₀ x1 := by
      unfold x1
      refine Keeps.foldl ?_ ?_
      · intro a3 y4 h5
        exact State.checkStamper_keeps h5
      · exact h1
    clear_value x1
    extract_lets +onlyGivenNames x6
    extract_lets +onlyGivenNames x7
    have h8 : Keeps s₀ x7 := by
      unfold x7
      exact Keeps.ite (State.setBit_keeps h2) h2
    clear_value x7
    extract_lets +onlyGivenNames x9
    exact State.setCal_keeps h8
theorem pchkPulseTest_keeps {s₀ : State} {n : Nat} {hit : Bool} {s : State} (h2 : Keeps s₀ s) : Keeps s₀ (pchkPulseTest n hit s) := by
  unfold pchkPulseTest
  split
  · rename_i v0 v1
    exact h2
  · rename_i v2 v3 v4
    exact Keeps.ite h2 (State.setCal_keeps (State.holdInput_keeps h2))
  · rename_i v5 v6 v7 v8
    refine Keeps.ite ?_ ?_
    · exact h2
    · extract_lets +onlyGivenNames x9
      extract_lets +onlyGivenNames x10
      have h11 : Keeps s₀ x10 := by
        unfold x10
        exact State.setCal_keeps h2
      clear_value x10
      split
      · rename_i v12 v13 v14 v15
        have h16 : Keeps s₀ v14 := Keeps.of_snd v15 (State.takeFree_keeps h11)
        extract_lets +onlyGivenNames x17
        have h18 : Keeps s₀ x17 := by
          unfold x17
          exact Keeps.ite (State.failCheck_keeps h16) h11
        clear_value x17
        exact State.releaseInput_keeps h18
theorem execCalRun_keeps {s₀ s : State} {h : Hdr} {p : List Word} (h₀ : Keeps s₀ s) :
    ∃ u, execCalRun h p s = .next u ∧ Keeps s₀ u :=
  ⟨_, rfl, State.receive_keeps h₀ fun _ h₁ => calRunBody_keeps h₁⟩
theorem execCalShunt_keeps {s₀ s : State} {h : Hdr} {p : List Word} (h₀ : Keeps s₀ s) :
    ∃ u, execCalShunt h p s = .next u ∧ Keeps s₀ u :=
  ⟨_, rfl, State.receive_keeps h₀ fun _ h₁ => calShuntBody_keeps h₁⟩
theorem execCalStart_keeps {s₀ s : State} {t : Nat} (h₀ : Keeps s₀ s) :
    ∃ u, execCalStart t s = .next u ∧ Keeps s₀ u :=
  ⟨_, rfl, calStart_keeps (State.at__keeps h₀)⟩
theorem execCalHoldDone_keeps {s₀ s : State} {t : Nat} (h₀ : Keeps s₀ s) :
    ∃ u, execCalHoldDone t s = .next u ∧ Keeps s₀ u :=
  ⟨_, rfl, calHoldDone_keeps (State.at__keeps h₀)⟩
theorem execCalPointDone_keeps {s₀ s : State} {t : Nat} {found : List CalFinding} (h₀ : Keeps s₀ s) :
    ∃ u, execCalPointDone t found s = .next u ∧ Keeps s₀ u :=
  ⟨_, rfl, calPointDone_keeps (State.at__keeps h₀)⟩
theorem execCalRelease_keeps {s₀ s : State} {t : Nat} (h₀ : Keeps s₀ s) :
    ∃ u, execCalRelease t s = .next u ∧ Keeps s₀ u :=
  ⟨_, rfl, calRelease_keeps (State.at__keeps h₀)⟩
theorem execCalAbort_keeps {s₀ s : State} {h : Hdr} {p : List Word} (h₀ : Keeps s₀ s) :
    ∃ u, execCalAbort h p s = .next u ∧ Keeps s₀ u :=
  ⟨_, rfl, State.receive_keeps h₀ fun _ h₁ => calAbortBody_keeps h₁⟩
theorem execCalAbortAct_keeps {s₀ s : State} {t : Nat} (h₀ : Keeps s₀ s) :
    ∃ u, execCalAbortAct t s = .next u ∧ Keeps s₀ u :=
  ⟨_, rfl, calAbortAct_keeps (State.at__keeps h₀)⟩
theorem execCalStoreComplete_keeps {s₀ s : State} {t : Nat} {readBackGood : Bool} (h₀ : Keeps s₀ s) :
    ∃ u, execCalStoreComplete t readBackGood s = .next u ∧ Keeps s₀ u :=
  ⟨_, rfl, calStoreComplete_keeps (State.at__keeps h₀)⟩
theorem execCalRead_keeps {s₀ s : State} {h : Hdr} {p : List Word} (h₀ : Keeps s₀ s) :
    ∃ u, execCalRead h p s = .next u ∧ Keeps s₀ u :=
  ⟨_, rfl, State.receive_keeps h₀ fun _ h₁ => calReadBody_keeps h₁⟩
theorem execPchkPeriod_keeps {s₀ s : State} {t : Nat} {found : List CheckFinding} (h₀ : Keeps s₀ s) :
    ∃ u, execPchkPeriod t found s = .next u ∧ Keeps s₀ u :=
  ⟨_, rfl, pchkPeriod_keeps (State.at__keeps h₀)⟩
theorem execPchkPulseTest_keeps {s₀ s : State} {t : Nat} {input : Fin 512} {hit : Bool} (h₀ : Keeps s₀ s) :
    ∃ u, execPchkPulseTest t input hit s = .next u ∧ Keeps s₀ u :=
  ⟨_, rfl, pchkPulseTest_keeps (State.at__keeps h₀)⟩

/-! ### Coder -/

theorem State.copyWords_keeps {s₀ s : State} {g : Nat} {ws : List RingWord} (h0 : Keeps s₀ s) : Keeps s₀ (State.copyWords s g ws).1 := by
  unfold State.copyWords
  extract_lets +onlyGivenNames x0
  extract_lets +onlyGivenNames x1
  extract_lets +onlyGivenNames x2
  refine Keeps.fst_mk ?_
  refine Keeps.foldl ?_ ?_
  · intro a3 y4 h5
    exact State.readLineBoth_keeps h5
  · exact h0
theorem State.codeSamples_keeps {s₀ s : State} {n cls : Nat} {xs : List Sample} (h0 : Keeps s₀ s) : Keeps s₀ (State.codeSamples s n cls xs).1 := by
  unfold State.codeSamples
  extract_lets +onlyGivenNames x0
  extract_lets +onlyGivenNames x1
  extract_lets +onlyGivenNames x2
  have h3 : Keeps s₀ x2 := by
    unfold x2
    exact State.addWrap_keeps h0
  clear_value x2
  extract_lets +onlyGivenNames x4
  have h5 : Keeps s₀ x4 := by
    unfold x4
    exact Keeps.ite (State.setBit_keeps (State.addSat_keeps h3)) h3
  clear_value x4
  extract_lets +onlyGivenNames x6
  have h7 : Keeps s₀ x6 := by
    unfold x6
    exact Keeps.ite (State.setBit_keeps h5) h5
  clear_value x6
  exact h7
theorem State.copyBlock_keeps {s₀ s : State} {c : Capture} {g : GroupCapture} {x : CapturedInput} (h0 : Keeps s₀ s) :
    Keeps s₀ (State.copyBlock s c g x).1 := by
  unfold State.copyBlock
  extract_lets +onlyGivenNames x0
  split
  · rename_i v1 v2 v3 v4 v5
    have h6 : Keeps s₀ v2 := Keeps.of_fst v5 (State.copyWords_keeps h0)
    split
    · rename_i v7 v8 v9 v10 v11
      have h12 : Keeps s₀ v8 := Keeps.of_fst v11 (State.codeSamples_keeps h6)
      exact h12
theorem State.codeBlockOf_keeps {s₀ s : State} {c : Capture} {x : CapturedInput} (h0 : Keeps s₀ s) : Keeps s₀ (State.codeBlockOf s c x).1 := by
  unfold State.codeBlockOf
  extract_lets +onlyGivenNames x0
  extract_lets +onlyGivenNames x1
  have h2 : Keeps s₀ x1.1 := by
    unfold x1
    exact State.codeSamples_keeps h0
  clear_value x1
  exact h2
theorem blockCode_keeps {s₀ : State} {n block : Nat} {s : State} (h2 : Keeps s₀ s) : Keeps s₀ (blockCode n block s) := by
  unfold blockCode
  extract_lets +onlyGivenNames x0
  split
  · rename_i v1 v2
    exact h2
  · rename_i v3 v4 v5
    split
    · rename_i v6 v7
      exact h2
    · rename_i v8 v9 v10 v11
      extract_lets +onlyGivenNames x12
      have h13 : Keeps s₀ x12.1 := by
        unfold x12
        exact Keeps.ite₁ (State.codeBlockOf_keeps h2) (State.copyBlock_keeps h2)
      clear_value x12
      extract_lets +onlyGivenNames x14
      have h15 : Keeps s₀ x14 := h13
      clear_value x14
      exact Keeps.upd (s := x14) h15 rfl rfl rfl rfl
theorem execBlockCode_keeps {s₀ s : State} {t : Nat} {input : Fin 512} {block : Nat} (h₀ : Keeps s₀ s) :
    ∃ u, execBlockCode t input block s = .next u ∧ Keeps s₀ u :=
  ⟨_, rfl, blockCode_keeps (State.at__keeps h₀)⟩

/-! ### Evt -/

theorem copyRest_keeps {s₀ : State} {g : GroupCapture} {x : CapturedInput} :
    ∀ {k : Nat} {s : State} {c : Capture}, Keeps s₀ s → Keeps s₀ (copyRest s c g x k).1
  | 0, _, _, h => h
  | k + 1, s, c, h => by
    unfold copyRest
    exact Keeps.ite₁ h (copyRest_keeps (State.copyBlock_keeps h))
theorem codeRest_keeps {s₀ : State} {x : CapturedInput} : ∀ {k : Nat} {s : State} {c : Capture}, Keeps s₀ s → Keeps s₀ (codeRest s c x k).1
  | 0, _, _, h => h
  | k + 1, s, c, h => by
    unfold codeRest
    exact Keeps.ite₁ h (codeRest_keeps (State.codeBlockOf_keeps h))
theorem State.copyAll_keeps {s₀ s : State} {c : Capture} (h0 : Keeps s₀ s) : Keeps s₀ (State.copyAll s c).1 := by
  unfold State.copyAll
  refine Keeps.ite₁ ?_ ?_
  · refine Keeps.foldl₁ ?_ ?_
    · intro a0 y1 h2
      exact codeRest_keeps h2
    · exact h0
  · refine Keeps.foldl₁ ?_ ?_
    · intro a3 y4 h5
      exact copyRest_keeps h5
    · exact h0
theorem captureEnd_keeps {s₀ s : State} (h0 : Keeps s₀ s) : Keeps s₀ (captureEnd s) := by
  unfold captureEnd
  split
  · rename_i v0 v1
    exact h0
  · rename_i v2 v3 v4
    extract_lets +onlyGivenNames x5
    extract_lets +onlyGivenNames x6
    have h7 : Keeps s₀ x6 := by
      unfold x6
      exact Keeps.upd (s := s) h0 rfl rfl rfl rfl
    clear_value x6
    extract_lets +onlyGivenNames x8
    have h9 : Keeps s₀ x8.1 := by
      unfold x8
      exact State.copyAll_keeps h7
    clear_value x8
    exact State.build_keeps h9
theorem execCaptureEnd_keeps {s₀ s : State} {t : Nat} (h₀ : Keeps s₀ s) :
    ∃ u, execCaptureEnd t s = .next u ∧ Keeps s₀ u :=
  ⟨_, rfl, captureEnd_keeps (State.at__keeps h₀)⟩

/-! ### Fe -/

theorem State.openRecovery_keeps {s₀ s : State} {g n end_ : Nat} (h0 : Keeps s₀ s) : Keeps s₀ (State.openRecovery s g n end_) := by
  unfold State.openRecovery
  extract_lets +onlyGivenNames x0
  extract_lets +onlyGivenNames x1
  split
  · rename_i v2 v3
    exact h0
  · rename_i v4 v5 v6
    extract_lets +onlyGivenNames x7
    extract_lets +onlyGivenNames x8
    exact State.setInput_keeps h0
theorem State.wireCheck_keeps {s₀ s view : State} {g n start instant : Nat} {pulse : Bool} {v : Int} (h0 : Keeps s₀ s) :
    Keeps s₀ (State.wireCheck s view g n start instant pulse v) := by
  unfold State.wireCheck
  extract_lets +onlyGivenNames x0
  refine Keeps.ite ?_ ?_
  · extract_lets +onlyGivenNames x1
    exact Keeps.ite (State.setInput_keeps h0) (State.screen_keeps h0)
  · exact Keeps.ite h0 (State.screen_keeps h0)
theorem State.pairUp_keeps {s₀ s view : State} {n k instant end_ : Nat} {f : FiltVal} (h0 : Keeps s₀ s) :
    Keeps s₀ (State.pairUp s view n k instant end_ f) := by
  unfold State.pairUp
  extract_lets +onlyGivenNames x0
  extract_lets +onlyGivenNames x1
  extract_lets +onlyGivenNames x2
  exact Keeps.ite h0 (Keeps.ite (State.setInput_keeps h0) (State.setInput_keeps h0))
theorem State.autoReset_keeps {s₀ s : State} {n : Nat} (h0 : Keeps s₀ s) : Keeps s₀ (State.autoReset s n) := by
  unfold State.autoReset
  extract_lets +onlyGivenNames x0
  exact Keeps.ite (State.setInput_keeps h0) h0
theorem State.checkConverter_keeps {s₀ s : State} {g : Nat} {fails : Bool} (h0 : Keeps s₀ s) : Keeps s₀ (State.checkConverter s g fails) := by
  unfold State.checkConverter
  extract_lets +onlyGivenNames x0
  extract_lets +onlyGivenNames x1
  have h2 : Keeps s₀ x1 := by
    unfold x1
    exact State.setGroup_keeps h0
  clear_value x1
  extract_lets +onlyGivenNames x3
  have h4 : Keeps s₀ x3 := by
    unfold x3
    exact State.putBit_keeps h2
  clear_value x3
  exact Keeps.ite (State.faultGroup_keeps h4) h4
theorem State.clampedValue_keeps {s₀ s : State} {n t : Nat} (h0 : Keeps s₀ s) : Keeps s₀ (State.clampedValue s n t).2 := by
  unfold State.clampedValue
  extract_lets +onlyGivenNames x0
  extract_lets +onlyGivenNames x1
  split
  · rename_i v2 v3 v4 v5 v6
    exact h0
  · rename_i v7 v8 v9 v10 v11
    exact h0
  · rename_i v12 v13 v14 v15 v16 v17
    refine Keeps.ite₂ ?_ ?_
    · exact h0
    · split
      · rename_i v18 v19 v20 v21
        have h22 : Keeps s₀ v20 := Keeps.of_snd v21 (State.takeFree_keeps h0)
        exact h22
  · rename_i v23 v24 v25 v26
    exact h0
theorem State.convertWord_keeps {s₀ s view : State} {g n start end_ raw : Nat} {pulse : Bool} (h0 : Keeps s₀ s) :
    Keeps s₀ (State.convertWord s view g n start end_ raw pulse) := by
  unfold State.convertWord
  extract_lets +onlyGivenNames x0
  extract_lets +onlyGivenNames x1
  extract_lets +onlyGivenNames x3
  split
  · rename_i v4 v5 v6 v7
    extract_lets +onlyGivenNames x8
    split
    · rename_i v9 v10 v11 v12
      have h13 : Keeps s₀ v11 := Keeps.of_snd v12 (State.clampedValue_keeps h0)
      extract_lets +onlyGivenNames x14
      extract_lets +onlyGivenNames x15
      extract_lets +onlyGivenNames x16
      have h17 : Keeps s₀ x16 := by
        unfold x16
        exact Keeps.ite h13 (State.wireCheck_keeps h13)
      clear_value x16
      split
      · rename_i v18 v19 v20 v21
        extract_lets +onlyGivenNames x22
        have h23 : Keeps s₀ x22 := by
          unfold x22
          exact State.addWrap_keeps h17
        clear_value x22
        extract_lets +onlyGivenNames x24
        have h25 : Keeps s₀ x24 := by
          unfold x24
          exact Keeps.ite (State.openRecovery_keeps (State.addSat_keeps h23)) h23
        clear_value x24
        extract_lets +onlyGivenNames x26
        refine Keeps.ite ?_ ?_
        · exact State.calSample_keeps h25
        · refine Keeps.ite ?_ ?_
          · exact h25
          · extract_lets +onlyGivenNames x27
            have h28 : Keeps s₀ x27 := by
              unfold x27
              exact Keeps.ite (State.setBit_keeps h25) h25
            clear_value x27
            extract_lets +onlyGivenNames x29
            exact Keeps.ite (State.pairUp_keeps h28) (State.autoReset_keeps (State.outputValue_keeps h28))
theorem State.convert_keeps {s₀ s view : State} {g n start end_ raw : Nat} {pulse : Bool} (h0 : Keeps s₀ s) :
    Keeps s₀ (State.convert s view g n start end_ raw pulse) := by
  unfold State.convert
  extract_lets +onlyGivenNames x0
  extract_lets +onlyGivenNames x1
  extract_lets +onlyGivenNames x3
  have h4 : Keeps s₀ x3 := by
    unfold x3
    exact State.convertWord_keeps h0
  clear_value x3
  exact Keeps.ite (State.wireCheck_keeps h4) h4
theorem State.lastConversion_keeps {s₀ s : State} {n st : Nat} {x : InputState} {convert : State → State} (h : Keeps s₀ s)
    (h₁ : ∀ t, Keeps s₀ t → Keeps s₀ (convert t)) : Keeps s₀ (s.lastConversion n st x convert) := by
  unfold State.lastConversion
  exact State.wrN_keeps (State.setInput_keeps (h₁ _ (State.wrN_keeps (State.setInput_keeps h))))
theorem State.finishGroup_keeps {s₀ s : State} {g : Nat} (h0 : Keeps s₀ s) : Keeps s₀ (State.finishGroup s g) := by
  unfold State.finishGroup
  extract_lets +onlyGivenNames x0
  extract_lets +onlyGivenNames x1
  have h2 : Keeps s₀ x1 := by
    unfold x1
    exact State.setGroup_keeps h0
  clear_value x1
  exact Keeps.ite (State.wrN_keeps h2) h2
theorem conversionEnd_keeps {s₀ : State} {g raw : Nat} {fails pulse : Bool} {s : State} (h4 : Keeps s₀ s) :
    Keeps s₀ (conversionEnd g raw fails pulse s) := by
  unfold conversionEnd
  split
  · rename_i v0 v1
    exact h4
  · rename_i v2 v3 v4 v5 v6
    extract_lets +onlyGivenNames x7
    refine Keeps.ite ?_ ?_
    · exact h4
    · extract_lets +onlyGivenNames x8
      have h_x8 : ∀ {b9 : State}, Keeps s₀ b9 → Keeps s₀ (x8 b9) := by
        intro b9 h11
        unfold x8
        exact State.convert_keeps h11
      extract_lets +onlyGivenNames x12
      have h13 : Keeps s₀ x12 := by
        unfold x12
        refine Keeps.ite ?_ ?_
        · refine State.finishGroup_keeps ?_
          split
          · rename_i v14 v15 v16 v17 v18
            refine Keeps.ite ?_ ?_
            · refine State.lastConversion_keeps ?_ ?_
              · exact h4
              · intro z19 z20
                exact h_x8 z20
            · exact h_x8 h4
          · rename_i v21 v22
            exact h_x8 h4
        · exact State.advance_keeps (h_x8 (State.noteSkip_keeps h4))
      clear_value x12
      exact State.checkConverter_keeps h13
theorem refMonitorFault_keeps {s₀ : State} {g : Nat} {s : State} (h1 : Keeps s₀ s) : Keeps s₀ (refMonitorFault g s) := by
  unfold refMonitorFault
  exact Keeps.ite (State.faultGroup_keeps (State.setBit_keeps h1)) h1
theorem wbConfirmationEnd_keeps {s₀ : State} {n : Nat} {beyond : Bool} {s : State} (h2 : Keeps s₀ s) : Keeps s₀ (wbConfirmationEnd n beyond s) := by
  unfold wbConfirmationEnd
  split
  · rename_i v0 v1
    exact h2
  · rename_i v2 v3 v4
    exact Keeps.ite h2 (State.endConfirmation_keeps h2)
theorem groupS0Reached_keeps {s₀ : State} {g : Nat} {s : State} (h1 : Keeps s₀ s) : Keeps s₀ (groupS0Reached g s) := by
  unfold groupS0Reached
  extract_lets +onlyGivenNames x0
  exact Keeps.ite (State.nextCycle_keeps (State.wrN_keeps h1)) h1
theorem stlWordIssue_keeps {s₀ : State} {n : Nat} {s : State} (h1 : Keeps s₀ s) : Keeps s₀ (stlWordIssue n s) := by
  unfold stlWordIssue
  extract_lets +onlyGivenNames x0
  extract_lets +onlyGivenNames x1
  extract_lets +onlyGivenNames x2
  exact Keeps.ite h1 (State.issueStl_keeps h1)
theorem State.endPair_keeps {s₀ s : State} {h now n : Nat} (h0 : Keeps s₀ s) : Keeps s₀ (State.endPair s h now n) := by
  unfold State.endPair
  extract_lets +onlyGivenNames x0
  extract_lets +onlyGivenNames x1
  extract_lets +onlyGivenNames x2
  have h3 : Keeps s₀ x2 := by
    unfold x2
    exact State.setInput_keeps h0
  clear_value x2
  split
  · rename_i v4 v5 v6 v7 v8 v9
    refine Keeps.ite ?_ ?_
    · exact h3
    · extract_lets +onlyGivenNames x10
      exact State.autoReset_keeps (State.outputValue_keeps h3)
  · rename_i v11 v12 v13
    exact h3
theorem reversalInstant_keeps {s₀ : State} {k : Nat} {s : State} (h1 : Keeps s₀ s) : Keeps s₀ (reversalInstant k s) := by
  unfold reversalInstant
  extract_lets +onlyGivenNames x0
  refine Keeps.ite ?_ ?_
  · exact h1
  · extract_lets +onlyGivenNames x1
    extract_lets +onlyGivenNames x2
    extract_lets +onlyGivenNames x3
    have h4 : Keeps s₀ x3 := by
      unfold x3
      exact State.setSource_keeps h1
    clear_value x3
    refine Keeps.ite ?_ ?_
    · exact h4
    · refine Keeps.foldl ?_ ?_
      · intro a5 y6 h7
        exact State.endPair_keeps h7
      · exact h4
theorem excComplianceChange_keeps {s₀ : State} {k : Nat} {reached : Bool} {s : State} (h2 : Keeps s₀ s) : Keeps s₀ (excComplianceChange k reached s) := by
  unfold excComplianceChange
  extract_lets +onlyGivenNames x0
  refine Keeps.ite ?_ ?_
  · refine Keeps.ite ?_ ?_
    · exact h2
    · extract_lets +onlyGivenNames x1
      have h2 : Keeps s₀ x1 := by
        unfold x1
        exact State.setSource_keeps h2
      clear_value x1
      extract_lets +onlyGivenNames x3
      have h4 : Keeps s₀ x3 := by
        unfold x3
        exact State.setBit_keeps (State.setBit_keeps h2)
      clear_value x3
      refine Keeps.foldl ?_ ?_
      · intro a5 y6 h7
        exact State.setBit_keeps h7
      · exact h4
  · exact State.clrBits_keeps (State.setSource_keeps h2)
theorem vwSweepStart_keeps {s₀ : State} {k : Nat} {s : State} (h1 : Keeps s₀ s) : Keeps s₀ (vwSweepStart k s) := by
  unfold vwSweepStart
  extract_lets +onlyGivenNames x0
  extract_lets +onlyGivenNames x1
  extract_lets +onlyGivenNames x2
  refine Keeps.ite ?_ ?_
  · exact h1
  · refine Keeps.ite ?_ ?_
    · exact State.setSource_keeps h1
    · extract_lets +onlyGivenNames x3
      have h4 : Keeps s₀ x3 := by
        unfold x3
        exact State.setSource_keeps h1
      clear_value x3
      extract_lets +onlyGivenNames x5
      have h6 : Keeps s₀ x5 := by
        unfold x5
        exact State.setBit_keeps (State.steer_keeps h4)
      clear_value x5
      refine Keeps.foldl ?_ ?_
      · intro a7 y8 h9
        exact Keeps.ite h9 (State.setInput_keeps h9)
      · exact h6
theorem vwSweepEnd_keeps {s₀ : State} {k : Nat} {s : State} (h1 : Keeps s₀ s) : Keeps s₀ (vwSweepEnd k s) := by
  unfold vwSweepEnd
  extract_lets +onlyGivenNames x0
  split
  · rename_i v1 v2
    exact h1
  · rename_i v3 v4 v5
    extract_lets +onlyGivenNames x6
    refine Keeps.ite ?_ ?_
    · exact h1
    · extract_lets +onlyGivenNames x7
      have h8 : Keeps s₀ x7 := by
        unfold x7
        exact State.setSource_keeps h1
      clear_value x7
      extract_lets +onlyGivenNames x9
      have h10 : Keeps s₀ x9 := by
        unfold x9
        exact State.clrBits_keeps h8
      clear_value x9
      refine Keeps.foldl ?_ ?_
      · intro a11 y12 h13
        extract_lets +onlyGivenNames x14
        have h15 : Keeps s₀ x14 := by
          unfold x14
          exact State.setEvent_keeps h13
        clear_value x14
        exact State.setInput_keeps h15
      · exact h10
theorem vwListenStart_keeps {s₀ : State} {k : Nat} {s : State} (h1 : Keeps s₀ s) : Keeps s₀ (vwListenStart k s) := by
  unfold vwListenStart
  extract_lets +onlyGivenNames x0
  split
  · rename_i v1 v2
    exact h1
  · rename_i v3 v4 v5
    extract_lets +onlyGivenNames x6
    refine Keeps.ite ?_ ?_
    · exact h1
    · extract_lets +onlyGivenNames x7
      have h8 : Keeps s₀ x7 := by
        unfold x7
        exact State.setSource_keeps h1
      clear_value x7
      refine Keeps.foldl ?_ ?_
      · intro a9 y10 h11
        exact State.refreshCmp_keeps h11
      · exact h8
theorem vwListenEnd_keeps {s₀ : State} {k : Nat} {s : State} (h1 : Keeps s₀ s) : Keeps s₀ (vwListenEnd k s) := by
  unfold vwListenEnd
  extract_lets +onlyGivenNames x0
  split
  · rename_i v1 v2
    exact h1
  · rename_i v3 v4 v5
    refine Keeps.ite ?_ ?_
    · exact h1
    · extract_lets +onlyGivenNames x6
      have h7 : Keeps s₀ x6 := by
        unfold x6
        exact State.setSource_keeps h1
      clear_value x6
      refine Keeps.foldl ?_ ?_
      · intro a8 y9 h10
        exact State.refreshCmp_keeps h10
      · exact h7
theorem qresetClose_keeps {s₀ s : State} {n : Nat} (h : Keeps s₀ s) : Keeps s₀ (qresetClose n s) := by
  unfold qresetClose
  extract_lets x mode due
  clear_value due
  cases due
  · exact h
  · exact State.setBit_keeps (State.setInput_keeps h)
theorem qresetOpen_keeps {s₀ : State} {n : Nat} {s : State} (h1 : Keeps s₀ s) : Keeps s₀ (qresetOpen n s) := by
  unfold qresetOpen
  extract_lets +onlyGivenNames x0
  split
  · rename_i v1 v2
    exact h1
  · rename_i v3 v4 v5
    exact Keeps.ite h1 (State.setInput_keeps h1)
theorem clampActivate_keeps {s₀ : State} {n pin : Nat} {positive : Bool} {s : State} (h3 : Keeps s₀ s) : Keeps s₀ (clampActivate n pin positive s) := by
  unfold clampActivate
  extract_lets +onlyGivenNames x0
  extract_lets +onlyGivenNames x1
  exact Keeps.ite h3 (State.addSat_keeps (State.setBit_keeps (State.setInput_keeps h3)))
theorem clampRelease_keeps {s₀ : State} {n pin : Nat} {s : State} (h2 : Keeps s₀ s) : Keeps s₀ (clampRelease n pin s) := by
  unfold clampRelease
  extract_lets +onlyGivenNames x0
  extract_lets +onlyGivenNames x1
  exact Keeps.ite h2 (State.setInput_keeps h2)
theorem vanLowOnset_keeps {s₀ : State} {fe : Nat} {s : State} (h1 : Keeps s₀ s) : Keeps s₀ (vanLowOnset fe s) := by
  unfold vanLowOnset
  extract_lets +onlyGivenNames x0
  extract_lets +onlyGivenNames x1
  refine Keeps.ite ?_ ?_
  · exact h1
  · extract_lets +onlyGivenNames x2
    extract_lets +onlyGivenNames x3
    have h4 : Keeps s₀ x3 := by
      unfold x3
      exact Keeps.upd (s := s) h1 rfl rfl rfl rfl
    clear_value x3
    refine Keeps.foldl ?_ ?_
    · intro a5 y6 h7
      exact State.setBit_keeps h7
    · exact h4
theorem vanLowEnd_keeps {s₀ : State} {fe : Nat} {s : State} (h1 : Keeps s₀ s) : Keeps s₀ (vanLowEnd fe s) := by
  unfold vanLowEnd
  extract_lets +onlyGivenNames x0
  exact Keeps.upd (s := s) h1 rfl rfl rfl rfl
theorem execConversionEnd_keeps {s₀ s : State} {t : Nat} {group : Fin 128} {raw : BitVec 12} {checkFails pulse : Bool} (h₀ : Keeps s₀ s) :
    ∃ u, execConversionEnd t group raw checkFails pulse s = .next u ∧ Keeps s₀ u :=
  ⟨_, rfl, conversionEnd_keeps (State.at__keeps h₀)⟩
theorem execRefMonitorFault_keeps {s₀ s : State} {t : Nat} {group : Fin 128} (h₀ : Keeps s₀ s) :
    ∃ u, execRefMonitorFault t group s = .next u ∧ Keeps s₀ u :=
  ⟨_, rfl, refMonitorFault_keeps (State.at__keeps h₀)⟩
theorem execWbConfirmationEnd_keeps {s₀ s : State} {t : Nat} {input : Fin 512} {beyond : Bool} (h₀ : Keeps s₀ s) :
    ∃ u, execWbConfirmationEnd t input beyond s = .next u ∧ Keeps s₀ u :=
  ⟨_, rfl, wbConfirmationEnd_keeps (State.at__keeps h₀)⟩
theorem execGroupS0Reached_keeps {s₀ s : State} {t : Nat} {group : Fin 128} (h₀ : Keeps s₀ s) :
    ∃ u, execGroupS0Reached t group s = .next u ∧ Keeps s₀ u :=
  ⟨_, rfl, groupS0Reached_keeps (State.at__keeps h₀)⟩
theorem execStlWordIssue_keeps {s₀ s : State} {t : Nat} {input : Fin 512} (h₀ : Keeps s₀ s) :
    ∃ u, execStlWordIssue t input s = .next u ∧ Keeps s₀ u :=
  ⟨_, rfl, stlWordIssue_keeps (State.at__keeps h₀)⟩
theorem execReversalInstant_keeps {s₀ s : State} {t : Nat} {source : Fin 64} (h₀ : Keeps s₀ s) :
    ∃ u, execReversalInstant t source s = .next u ∧ Keeps s₀ u :=
  ⟨_, rfl, reversalInstant_keeps (State.at__keeps h₀)⟩
theorem execExcComplianceChange_keeps {s₀ s : State} {t : Nat} {source : Fin 64} {reached : Bool} (h₀ : Keeps s₀ s) :
    ∃ u, execExcComplianceChange t source reached s = .next u ∧ Keeps s₀ u :=
  ⟨_, rfl, excComplianceChange_keeps (State.at__keeps h₀)⟩
theorem execVwSweepStart_keeps {s₀ s : State} {t : Nat} {source : Fin 64} (h₀ : Keeps s₀ s) :
    ∃ u, execVwSweepStart t source s = .next u ∧ Keeps s₀ u :=
  ⟨_, rfl, vwSweepStart_keeps (State.at__keeps h₀)⟩
theorem execVwSweepEnd_keeps {s₀ s : State} {t : Nat} {source : Fin 64} (h₀ : Keeps s₀ s) :
    ∃ u, execVwSweepEnd t source s = .next u ∧ Keeps s₀ u :=
  ⟨_, rfl, vwSweepEnd_keeps (State.at__keeps h₀)⟩
theorem execVwListenStart_keeps {s₀ s : State} {t : Nat} {source : Fin 64} (h₀ : Keeps s₀ s) :
    ∃ u, execVwListenStart t source s = .next u ∧ Keeps s₀ u :=
  ⟨_, rfl, vwListenStart_keeps (State.at__keeps h₀)⟩
theorem execVwListenEnd_keeps {s₀ s : State} {t : Nat} {source : Fin 64} (h₀ : Keeps s₀ s) :
    ∃ u, execVwListenEnd t source s = .next u ∧ Keeps s₀ u :=
  ⟨_, rfl, vwListenEnd_keeps (State.at__keeps h₀)⟩
theorem execQresetClose_keeps {s₀ s : State} {t : Nat} {input : Fin 512} (h₀ : Keeps s₀ s) :
    ∃ u, execQresetClose t input s = .next u ∧ Keeps s₀ u :=
  ⟨_, rfl, qresetClose_keeps (State.at__keeps h₀)⟩
theorem execQresetOpen_keeps {s₀ s : State} {t : Nat} {input : Fin 512} (h₀ : Keeps s₀ s) :
    ∃ u, execQresetOpen t input s = .next u ∧ Keeps s₀ u :=
  ⟨_, rfl, qresetOpen_keeps (State.at__keeps h₀)⟩
theorem execClampActivate_keeps {s₀ s : State} {t : Nat} {detector : Detector} {positive : Bool} (h₀ : Keeps s₀ s) :
    ∃ u, execClampActivate t detector positive s = .next u ∧ Keeps s₀ u :=
  ⟨_, rfl, clampActivate_keeps (State.at__keeps h₀)⟩
theorem execClampRelease_keeps {s₀ s : State} {t : Nat} {detector : Detector} (h₀ : Keeps s₀ s) :
    ∃ u, execClampRelease t detector s = .next u ∧ Keeps s₀ u :=
  ⟨_, rfl, clampRelease_keeps (State.at__keeps h₀)⟩
theorem execVanLowOnset_keeps {s₀ s : State} {t : Nat} {fe : Fin 4} (h₀ : Keeps s₀ s) :
    ∃ u, execVanLowOnset t fe s = .next u ∧ Keeps s₀ u :=
  ⟨_, rfl, vanLowOnset_keeps (State.at__keeps h₀)⟩
theorem execVanLowEnd_keeps {s₀ s : State} {t : Nat} {fe : Fin 4} (h₀ : Keeps s₀ s) :
    ∃ u, execVanLowEnd t fe s = .next u ∧ Keeps s₀ u :=
  ⟨_, rfl, vanLowEnd_keeps (State.at__keeps h₀)⟩

end Sys2Proof.Machine
end

