-- ==== Sys2Proof/Laws/KeepsLinks.lean ====
section
/-! SUPPORT. What the operations and the commands of a group keep (see Keeps): the time base and the links. -/

set_option linter.all false

namespace Sys2Proof.Machine

/-! ### TbCore -/

theorem State.setTb_keeps {s₀ s : State} {x : TbState} (h0 : Keeps s₀ s) : Keeps s₀ (State.setTb s x) := by
  unfold State.setTb
  exact Keeps.upd (s := s) h0 rfl rfl rfl rfl
theorem State.setDomain_keeps {s₀ s : State} {d : Nat} {x : Domain} (h0 : Keeps s₀ s) : Keeps s₀ (State.setDomain s d x) := by
  unfold State.setDomain
  exact State.setTb_keeps h0
theorem State.setTimePort_keeps {s₀ s : State} {p : Nat} {x : TimePort} (h0 : Keeps s₀ s) : Keeps s₀ (State.setTimePort s p x) := by
  unfold State.setTimePort
  exact State.setTb_keeps h0
theorem State.writeFreq_keeps {s₀ s : State} (h0 : Keeps s₀ s) : Keeps s₀ (State.writeFreq s) := by
  unfold State.writeFreq
  extract_lets +onlyGivenNames x0
  exact State.wrI_keeps h0
theorem State.slewBy_keeps {s₀ s : State} {c : Int} (h0 : Keeps s₀ s) : Keeps s₀ (State.slewBy s c) := by
  unfold State.slewBy
  extract_lets +onlyGivenNames x0
  extract_lets +onlyGivenNames x1
  have h2 : Keeps s₀ x1 := by
    unfold x1
    exact State.setTb_keeps h0
  clear_value x1
  exact State.writeFreq_keeps (State.putBit_keeps h2)
theorem State.setSteer_keeps {s₀ s : State} {f : Int} (h0 : Keeps s₀ s) : Keeps s₀ (State.setSteer s f) := by
  unfold State.setSteer
  exact State.writeFreq_keeps (State.setTb_keeps h0)
theorem State.newSteer_keeps {s₀ s : State} (h0 : Keeps s₀ s) : Keeps s₀ (State.newSteer s) := by
  unfold State.newSteer
  split
  · rename_i v0 v1 v2 v3
    have h4 : Keeps s₀ v2 := Keeps.of_snd v3 (State.takeFree_keeps h0)
    exact State.setSteer_keeps h4
theorem State.modelSteer_keeps {s₀ s : State} (h0 : Keeps s₀ s) : Keeps s₀ (State.modelSteer s) := by
  unfold State.modelSteer
  exact Keeps.ite (State.newSteer_keeps h0) (State.setSteer_keeps h0)
theorem State.setPhase_keeps {s₀ s : State} {c : Int} (h0 : Keeps s₀ s) : Keeps s₀ (State.setPhase s c) := by
  unfold State.setPhase
  extract_lets +onlyGivenNames x0
  extract_lets +onlyGivenNames x1
  extract_lets +onlyGivenNames x2
  extract_lets +onlyGivenNames x3
  exact State.setTb_keeps h0
theorem State.lockReturned_keeps {s₀ s : State} (h0 : Keeps s₀ s) : Keeps s₀ (State.lockReturned s) := by
  unfold State.lockReturned
  split
  · rename_i v0 v1 v2
    exact Keeps.ite (Keeps.upd (s := s) h0 rfl rfl rfl rfl) h0
  · rename_i v3 v4
    exact h0
theorem State.noteLock_keeps {s₀ s : State} (h0 : Keeps s₀ s) : Keeps s₀ (State.noteLock s) := by
  unfold State.noteLock
  extract_lets +onlyGivenNames x0
  extract_lets +onlyGivenNames x1
  refine Keeps.ite ?_ ?_
  · exact h0
  · extract_lets +onlyGivenNames x2
    have h3 : Keeps s₀ x2 := by
      unfold x2
      exact State.putBit_keeps h0
    clear_value x2
    extract_lets +onlyGivenNames x4
    extract_lets +onlyGivenNames x5
    have h6 : Keeps s₀ x5 := by
      unfold x5
      exact Keeps.upd (s := x2) h3 rfl rfl rfl rfl
    clear_value x5
    exact Keeps.ite (State.lockReturned_keeps h6) (State.setBit_keeps h6)
theorem State.noteDomain_keeps {s₀ s : State} {d : Nat} (h0 : Keeps s₀ s) : Keeps s₀ (State.noteDomain s d) := by
  unfold State.noteDomain
  extract_lets +onlyGivenNames x0
  extract_lets +onlyGivenNames x1
  have h2 : Keeps s₀ x1 := by
    unfold x1
    exact Keeps.ite (State.setBit_keeps h0) h0
  clear_value x1
  exact Keeps.ite (State.wrN_keeps (State.wr_keeps h2)) (State.wrN_keeps (State.wrN_keeps h2))
theorem State.tbNote_keeps {s₀ s : State} (h0 : Keeps s₀ s) : Keeps s₀ (State.tbNote s) := by
  unfold State.tbNote
  extract_lets +onlyGivenNames x0
  have h1 : Keeps s₀ x0 := by
    unfold x0
    exact State.noteDomain_keeps (State.noteDomain_keeps h0)
  clear_value x0
  exact State.noteLock_keeps (State.wrN_keeps h1)
theorem State.startEstimate_keeps {s₀ s : State} {more : Int} (h0 : Keeps s₀ s) : Keeps s₀ (State.startEstimate s more) := by
  unfold State.startEstimate
  extract_lets +onlyGivenNames x0
  exact State.setTb_keeps h0
theorem State.enterTb_keeps {s₀ s : State} {st : Nat} (h0 : Keeps s₀ s) : Keeps s₀ (State.enterTb s st) := by
  unfold State.enterTb
  exact State.wrN_keeps (State.setTb_keeps h0)
theorem State.enterHoldover_keeps {s₀ s : State} (h0 : Keeps s₀ s) : Keeps s₀ (State.enterHoldover s) := by
  unfold State.enterHoldover
  extract_lets +onlyGivenNames x0
  have h1 : Keeps s₀ x0 := by
    unfold x0
    exact State.slewBy_keeps (State.startEstimate_keeps h0)
  clear_value x0
  extract_lets +onlyGivenNames x2
  have h3 : Keeps s₀ x2 := by
    unfold x2
    exact State.clrBits_keeps h1
  clear_value x2
  exact State.modelSteer_keeps (State.wrN_keeps (State.setBit_keeps (State.enterTb_keeps h3)))
theorem State.enterRecovery_keeps {s₀ s : State} {phase : Int} (h0 : Keeps s₀ s) : Keeps s₀ (State.enterRecovery s phase) := by
  unfold State.enterRecovery
  extract_lets +onlyGivenNames x0
  have h1 : Keeps s₀ x0 := by
    unfold x0
    exact Keeps.ite (State.startEstimate_keeps h0) h0
  clear_value x0
  exact State.modelSteer_keeps (State.enterTb_keeps (State.setTb_keeps h1))
theorem State.loseSource_keeps {s₀ s : State} (h0 : Keeps s₀ s) : Keeps s₀ (State.loseSource s) := by
  unfold State.loseSource
  extract_lets +onlyGivenNames x0
  exact Keeps.ite (State.enterHoldover_keeps h0) (Keeps.ite (State.wrN_keeps (State.clrBits_keeps (State.setTb_keeps h0))) (State.wrN_keeps h0))
theorem State.haveSource_keeps {s₀ s : State} {followed : Nat} (h0 : Keeps s₀ s) : Keeps s₀ (State.haveSource s followed) := by
  unfold State.haveSource
  extract_lets +onlyGivenNames x0
  have h1 : Keeps s₀ x0 := by
    unfold x0
    exact State.wrN_keeps h0
  clear_value x0
  exact Keeps.ite (State.enterRecovery_keeps h1) (Keeps.ite (State.setTb_keeps h1) (Keeps.ite (State.setTb_keeps h1) h1))
theorem State.switchDomain_keeps {s₀ s : State} {old : Option Nat} {d : Nat} (h0 : Keeps s₀ s) : Keeps s₀ (State.switchDomain s old d) := by
  unfold State.switchDomain
  extract_lets +onlyGivenNames x0
  extract_lets +onlyGivenNames x1
  refine Keeps.ite ?_ ?_
  · exact State.setBit_keeps (State.setPhase_keeps (State.slewBy_keeps (State.wrN_keeps h0)))
  · exact Keeps.ite h0 (State.setPhase_keeps (State.enterRecovery_keeps (State.wrN_keeps (State.enterHoldover_keeps h0))))
theorem State.followDomain_keeps {s₀ s : State} (h0 : Keeps s₀ s) : Keeps s₀ (State.followDomain s) := by
  unfold State.followDomain
  extract_lets +onlyGivenNames x0
  split
  · rename_i v1 v2 v3
    extract_lets +onlyGivenNames x4
    extract_lets +onlyGivenNames x5
    have h6 : Keeps s₀ x5 := by
      unfold x5
      exact State.setTb_keeps h0
    clear_value x5
    refine Keeps.ite ?_ ?_
    · exact Keeps.ite (State.haveSource_keeps h6) h6
    · exact Keeps.ite (State.switchDomain_keeps h6) (State.setPhase_keeps (State.haveSource_keeps h6))
  · rename_i v7 v8
    extract_lets +onlyGivenNames x9
    refine Keeps.ite ?_ ?_
    · exact Keeps.ite h0 (State.loseSource_keeps (State.setTb_keeps h0))
    · exact Keeps.ite (State.haveSource_keeps (State.setTb_keeps h0)) (Keeps.ite h0 (State.loseSource_keeps h0))
theorem State.localPhase_keeps {s₀ s : State} (h0 : Keeps s₀ s) : Keeps s₀ (State.localPhase s) := by
  unfold State.localPhase
  exact Keeps.ite (State.setPhase_keeps h0) h0
theorem State.followOwn_keeps {s₀ s : State} (h0 : Keeps s₀ s) : Keeps s₀ (State.followOwn s) := by
  unfold State.followOwn
  extract_lets +onlyGivenNames x0
  extract_lets +onlyGivenNames x1
  have h2 : Keeps s₀ x1 := by
    unfold x1
    exact State.setTb_keeps h0
  clear_value x1
  extract_lets +onlyGivenNames x3
  refine Keeps.ite ?_ ?_
  · exact State.wrN_keeps h2
  · refine Keeps.ite ?_ ?_
    · exact State.localPhase_keeps (State.haveSource_keeps h2)
    · refine Keeps.ite ?_ ?_
      · exact State.haveSource_keeps h2
      · refine Keeps.ite ?_ ?_
        · exact State.wrN_keeps h2
        · extract_lets +onlyGivenNames x4
          have h5 : Keeps s₀ x4 := by
            unfold x4
            exact Keeps.ite h2 (State.setBit_keeps h2)
          clear_value x4
          exact State.wrN_keeps (State.loseSource_keeps h5)
theorem State.tbUpdate_keeps {s₀ s : State} (h0 : Keeps s₀ s) : Keeps s₀ (State.tbUpdate s) := by
  unfold State.tbUpdate
  exact State.tbNote_keeps (Keeps.ite (State.followOwn_keeps h0) (State.followDomain_keeps h0))
theorem State.beginTest_keeps {s₀ s : State} (h0 : Keeps s₀ s) : Keeps s₀ (State.beginTest s) := by
  unfold State.beginTest
  extract_lets +onlyGivenNames x0
  extract_lets +onlyGivenNames x1
  extract_lets +onlyGivenNames x2
  have h3 : Keeps s₀ x2 := by
    unfold x2
    exact State.setTb_keeps h0
  clear_value x2
  refine Keeps.ite ?_ ?_
  · extract_lets +onlyGivenNames x4
    have h5 : Keeps s₀ x4 := by
      unfold x4
      exact Keeps.ite (State.startEstimate_keeps h3) h3
    clear_value x4
    exact State.tbNote_keeps (State.modelSteer_keeps (State.enterTb_keeps (State.slewBy_keeps h5)))
  · exact h3
theorem State.endTest_keeps {s₀ s : State} (h0 : Keeps s₀ s) : Keeps s₀ (State.endTest s) := by
  unfold State.endTest
  extract_lets +onlyGivenNames x0
  extract_lets +onlyGivenNames x1
  have h2 : Keeps s₀ x1 := by
    unfold x1
    exact State.setTb_keeps h0
  clear_value x1
  refine Keeps.ite ?_ ?_
  · exact h2
  · extract_lets +onlyGivenNames x3
    extract_lets +onlyGivenNames x4
    extract_lets +onlyGivenNames x5
    extract_lets +onlyGivenNames x6
    have h7 : Keeps s₀ x6 := by
      unfold x6
      exact State.setTb_keeps h2
    clear_value x6
    exact State.tbUpdate_keeps (Keeps.ite (State.enterRecovery_keeps h2) (State.setBit_keeps (State.enterTb_keeps h7)))
theorem State.sourceChanged_keeps {s₀ s : State} (h0 : Keeps s₀ s) : Keeps s₀ (State.sourceChanged s) := by
  unfold State.sourceChanged
  extract_lets +onlyGivenNames x0
  extract_lets +onlyGivenNames x1
  have h2 : Keeps s₀ x1 := by
    unfold x1
    exact State.setTb_keeps h0
  clear_value x1
  extract_lets +onlyGivenNames x3
  have h4 : Keeps s₀ x3 := by
    unfold x3
    exact Keeps.ite (State.enterRecovery_keeps h2) h2
  clear_value x3
  extract_lets +onlyGivenNames x5
  have h6 : Keeps s₀ x5 := by
    unfold x5
    exact Keeps.ite (State.wrN_keeps h4) (Keeps.ite (State.wrN_keeps h4) h4)
  clear_value x5
  exact State.tbUpdate_keeps h6
theorem State.noteCrystal_keeps {s₀ s : State} {milliC : Int} (h0 : Keeps s₀ s) : Keeps s₀ (State.noteCrystal s milliC) := by
  unfold State.noteCrystal
  extract_lets +onlyGivenNames x0
  extract_lets +onlyGivenNames x1
  extract_lets +onlyGivenNames x2
  have h3 : Keeps s₀ x2 := by
    unfold x2
    exact State.setTb_keeps h0
  clear_value x2
  exact Keeps.ite (State.setSteer_keeps h3) h3

/-! ### Lnk -/

theorem State.replyWaits_keeps {s₀ s : State} {p : Nat} {f : LaneWait → Bool} {status : Nat} (h0 : Keeps s₀ s) :
    Keeps s₀ (State.replyWaits s p f status) := by
  unfold State.replyWaits
  extract_lets +onlyGivenNames x1
  extract_lets +onlyGivenNames x2
  have h3 : Keeps s₀ x2 := by
    unfold x2
    exact State.setLanePort_keeps h0
  clear_value x2
  refine Keeps.foldl ?_ ?_
  · intro a4 y5 h6
    exact State.finish_keeps h6
  · exact h3
theorem State.checkWaits_keeps {s₀ s : State} {p : Nat} (h0 : Keeps s₀ s) : Keeps s₀ (State.checkWaits s p) := by
  unfold State.checkWaits
  exact State.replyWaits_keeps h0
theorem State.endScan_keeps {s₀ s : State} {l : Nat} (h0 : Keeps s₀ s) : Keeps s₀ (State.endScan s l) := by
  unfold State.endScan
  split
  · rename_i v0 v1 v2
    exact State.finish_keeps (State.setLane_keeps h0)
  · rename_i v3 v4
    exact State.setLane_keeps h0
theorem State.setLaneState_keeps {s₀ s : State} {l st : Nat} (h0 : Keeps s₀ s) : Keeps s₀ (State.setLaneState s l st) := by
  unfold State.setLaneState
  extract_lets +onlyGivenNames x0
  have h1 : Keeps s₀ x0 := by
    unfold x0
    exact State.wrN_keeps h0
  clear_value x0
  extract_lets +onlyGivenNames x2
  extract_lets +onlyGivenNames x3
  have h4 : Keeps s₀ x3 := by
    unfold x3
    exact State.setLane_keeps h1
  clear_value x3
  exact Keeps.ite (State.endScan_keeps h4) h4
theorem State.setPortState_keeps {s₀ s : State} {p st : Nat} (h0 : Keeps s₀ s) : Keeps s₀ (State.setPortState s p st) := by
  unfold State.setPortState
  extract_lets +onlyGivenNames x0
  extract_lets +onlyGivenNames x1
  have h2 : Keeps s₀ x1 := by
    unfold x1
    exact State.wrN_keeps h0
  clear_value x1
  exact Keeps.ite (State.signal_keeps h2) h2
theorem State.notePort_keeps {s₀ s : State} {p : Nat} (h0 : Keeps s₀ s) : Keeps s₀ (State.notePort s p) := by
  unfold State.notePort
  extract_lets +onlyGivenNames x0
  extract_lets +onlyGivenNames x1
  extract_lets +onlyGivenNames x2
  extract_lets +onlyGivenNames x3
  have h4 : Keeps s₀ x3 := by
    unfold x3
    exact State.wrN_keeps h0
  clear_value x3
  refine Keeps.ite ?_ ?_
  · exact h4
  · refine Keeps.ite ?_ ?_
    · exact State.setPortState_keeps h4
    · exact Keeps.ite (State.setPortState_keeps h4) (Keeps.ite (State.setPortState_keeps h4) (Keeps.ite (State.setPortState_keeps h4) h4))
theorem State.putMask_keeps {s₀ s : State} {p mask : Nat} (h0 : Keeps s₀ s) : Keeps s₀ (State.putMask s p mask) := by
  unfold State.putMask
  extract_lets +onlyGivenNames x0
  extract_lets +onlyGivenNames x1
  extract_lets +onlyGivenNames x2
  extract_lets +onlyGivenNames x3
  have h4 : Keeps s₀ x3 := by
    unfold x3
    exact State.notePort_keeps (State.setLanePort_keeps h0)
  clear_value x3
  extract_lets +onlyGivenNames x5
  extract_lets +onlyGivenNames x6
  have h7 : Keeps s₀ x6 := by
    unfold x6
    exact Keeps.ite (State.setTimePort_keeps h4) h4
  clear_value x6
  exact Keeps.ite (State.endTurn_keeps h7) h7
theorem State.propose_keeps {s₀ s : State} {p mask ahead : Nat} {agreed : Bool} {joins : List Nat} {leaves : optParam (List Nat) []} (h0 : Keeps s₀ s) :
    Keeps s₀ (State.propose s p mask ahead agreed joins leaves) := by
  unfold State.propose
  extract_lets +onlyGivenNames x0
  exact State.setLanePort_keeps h0
theorem State.reconsider_keeps {s₀ s : State} {p : Nat} (h0 : Keeps s₀ s) : Keeps s₀ (State.reconsider s p) := by
  unfold State.reconsider
  extract_lets +onlyGivenNames x0
  extract_lets +onlyGivenNames x1
  exact Keeps.ite h0 (State.propose_keeps h0)
theorem State.firstJoin_keeps {s₀ s : State} {p : Nat} (h0 : Keeps s₀ s) : Keeps s₀ (State.firstJoin s p) := by
  unfold State.firstJoin
  extract_lets +onlyGivenNames x0
  extract_lets +onlyGivenNames x1
  extract_lets +onlyGivenNames x2
  exact Keeps.ite (State.propose_keeps h0) h0
theorem State.dropLane_keeps {s₀ s : State} {l : Nat} (h0 : Keeps s₀ s) : Keeps s₀ (State.dropLane s l) := by
  unfold State.dropLane
  extract_lets +onlyGivenNames x0
  extract_lets +onlyGivenNames x1
  extract_lets +onlyGivenNames x2
  extract_lets +onlyGivenNames x3
  extract_lets +onlyGivenNames x4
  extract_lets +onlyGivenNames x5
  refine Keeps.ite ?_ ?_
  · exact State.setLanePort_keeps h0
  · extract_lets +onlyGivenNames x6
    have h7 : Keeps s₀ x6 := by
      unfold x6
      exact State.putMask_keeps h0
    clear_value x6
    exact Keeps.ite (State.setLanePort_keeps h7) (State.propose_keeps h7)
theorem State.faultLane_keeps {s₀ s : State} {l bit : Nat} (h0 : Keeps s₀ s) : Keeps s₀ (State.faultLane s l bit) := by
  unfold State.faultLane
  extract_lets +onlyGivenNames x0
  extract_lets +onlyGivenNames x1
  have h2 : Keeps s₀ x1 := by
    unfold x1
    exact Keeps.ite h0 (State.setBit_keeps h0)
  clear_value x1
  refine Keeps.ite ?_ ?_
  · exact h2
  · extract_lets +onlyGivenNames x3
    have h4 : Keeps s₀ x3 := by
      unfold x3
      exact Keeps.ite (State.addSat_keeps h2) h2
    clear_value x3
    extract_lets +onlyGivenNames x5
    have h6 : Keeps s₀ x5 := by
      unfold x5
      exact State.dropLane_keeps (State.setLaneState_keeps h4)
    clear_value x5
    exact State.firstJoin_keeps (State.notePort_keeps h6)
theorem State.fallowLane_keeps {s₀ s : State} {l : Nat} (h0 : Keeps s₀ s) : Keeps s₀ (State.fallowLane s l) := by
  unfold State.fallowLane
  extract_lets +onlyGivenNames x0
  have h1 : Keeps s₀ x0 := by
    unfold x0
    exact State.dropLane_keeps (State.setLaneState_keeps h0)
  clear_value x0
  extract_lets +onlyGivenNames x2
  extract_lets +onlyGivenNames x3
  have h4 : Keeps s₀ x3 := by
    unfold x3
    exact State.setLane_keeps h1
  clear_value x3
  exact State.notePort_keeps (State.clrBits_keeps h4)
theorem State.wakeLane_keeps {s₀ s : State} {l : Nat} (h0 : Keeps s₀ s) : Keeps s₀ (State.wakeLane s l) := by
  unfold State.wakeLane
  exact Keeps.ite (State.notePort_keeps (State.setLaneState_keeps (State.setLanePort_keeps h0))) h0
theorem State.wakePort_keeps {s₀ s : State} {p : Nat} (h0 : Keeps s₀ s) : Keeps s₀ (State.wakePort s p) := by
  unfold State.wakePort
  extract_lets +onlyGivenNames x0
  extract_lets +onlyGivenNames x1
  have h2 : Keeps s₀ x1 := by
    unfold x1
    exact State.setLanePort_keeps h0
  clear_value x1
  refine Keeps.foldl ?_ ?_
  · intro a3 y4 h5
    exact State.wakeLane_keeps h5
  · exact h2
theorem State.holdAbsent_keeps {s₀ s : State} {l : Nat} (h0 : Keeps s₀ s) : Keeps s₀ (State.holdAbsent s l) := by
  unfold State.holdAbsent
  exact Keeps.ite h0 (State.faultLane_keeps h0)
theorem State.searchLane_keeps {s₀ s : State} {l : Nat} (h0 : Keeps s₀ s) : Keeps s₀ (State.searchLane s l) := by
  unfold State.searchLane
  extract_lets +onlyGivenNames x0
  exact Keeps.ite h0 (State.holdAbsent_keeps (State.notePort_keeps (State.dropLane_keeps (State.setLaneState_keeps h0))))
theorem State.commitLane_keeps {s₀ old s : State} {l : Nat} (h1 : Keeps s₀ s) : Keeps s₀ (State.commitLane old s l) := by
  unfold State.commitLane
  extract_lets +onlyGivenNames x0
  extract_lets +onlyGivenNames x1
  refine Keeps.ite ?_ ?_
  · refine Keeps.ite ?_ ?_
    · extract_lets +onlyGivenNames x2
      split
      · rename_i v3 v4 v5 v6 v7
        exact State.propose_keeps h1
    · exact State.fallowLane_keeps h1
  · exact Keeps.ite (State.wakeLane_keeps h1) h1
theorem State.commitLanes_keeps {s₀ s old : State} (h0 : Keeps s₀ s) : Keeps s₀ (State.commitLanes s old) := by
  unfold State.commitLanes
  refine Keeps.foldl (fun _ _ h => State.firstJoin_keeps h) (Keeps.foldl ?_ ?_)
  · intro a0 y1 h2
    exact State.reconsider_keeps h2
  · refine Keeps.foldl ?_ ?_
    · intro a3 y4 h5
      exact State.commitLane_keeps h5
    · exact h0
theorem lnkStatusBody_keeps {s₀ : State} {p : List Word} {s : State} (h1 : Keeps s₀ s) : Keeps s₀ (lnkStatusBody p s).1 := by
  unfold lnkStatusBody
  exact Keeps.ite₁ (refuse_keeps h1) (Keeps.ite₁ (refuse_keeps h1) (okay_keeps h1))
theorem lnkFallowBody_keeps {s₀ : State} {p : List Word} {s : State} (h1 : Keeps s₀ s) : Keeps s₀ (lnkFallowBody p s).1 := by
  unfold lnkFallowBody
  extract_lets +onlyGivenNames x0
  refine Keeps.ite₁ ?_ ?_
  · exact refuse_keeps h1
  · refine Keeps.ite₁ ?_ ?_
    · exact refuse_keeps h1
    · refine Keeps.ite₁ ?_ ?_
      · exact refuse_keeps h1
      · extract_lets +onlyGivenNames x1
        have h2 : Keeps s₀ x1 := by
          unfold x1
          refine Keeps.foldl ?_ ?_
          · intro a3 y4 h5
            exact State.fallowLane_keeps h5
          · exact h1
        clear_value x1
        extract_lets +onlyGivenNames x6
        extract_lets +onlyGivenNames x7
        have h8 : Keeps s₀ x7 := by
          unfold x7
          exact State.setLanePort_keeps h2
        clear_value x7
        exact okay_keeps (State.notePort_keeps (State.replyWaits_keeps h8))
theorem lnkWakeBody_keeps {s₀ : State} {h : Hdr} {p : List Word} {s : State} (h2 : Keeps s₀ s) : Keeps s₀ (lnkWakeBody h p s).1 := by
  unfold lnkWakeBody
  extract_lets +onlyGivenNames x0
  refine Keeps.ite₁ ?_ ?_
  · exact refuse_keeps h2
  · refine Keeps.ite₁ ?_ ?_
    · exact refuse_keeps h2
    · refine Keeps.ite₁ ?_ ?_
      · exact refuse_keeps h2
      · refine Keeps.ite₁ ?_ ?_
        · exact okay_keeps h2
        · extract_lets +onlyGivenNames x1
          have h2 : Keeps s₀ x1 := by
            unfold x1
            exact State.wakePort_keeps h2
          clear_value x1
          exact Keeps.fst_mk (State.setLanePort_keeps h2)
theorem lnkRetrainBody_keeps {s₀ : State} {h : Hdr} {p : List Word} {s : State} (h2 : Keeps s₀ s) : Keeps s₀ (lnkRetrainBody h p s).1 := by
  unfold lnkRetrainBody
  extract_lets +onlyGivenNames x0
  extract_lets +onlyGivenNames x1
  refine Keeps.ite₁ ?_ ?_
  · exact refuse_keeps h2
  · refine Keeps.ite₁ ?_ ?_
    · exact refuse_keeps h2
    · extract_lets +onlyGivenNames x2
      extract_lets +onlyGivenNames x3
      have h4 : Keeps s₀ x3 := by
        unfold x3
        refine Keeps.foldl ?_ ?_
        · intro a5 y6 h7
          exact State.searchLane_keeps h7
        · exact h2
      clear_value x3
      exact Keeps.fst_mk (State.setLanePort_keeps h4)
theorem lnkEyescanBody_keeps {s₀ : State} {h : Hdr} {p : List Word} {s : State} (h2 : Keeps s₀ s) : Keeps s₀ (lnkEyescanBody h p s).1 := by
  unfold lnkEyescanBody
  extract_lets +onlyGivenNames x0
  extract_lets +onlyGivenNames x1
  extract_lets +onlyGivenNames x2
  refine Keeps.ite₁ ?_ ?_
  · exact refuse_keeps h2
  · exact Keeps.ite₁ (refuse_keeps h2) (Keeps.ite₁ (refuse_keeps h2) (Keeps.ite₁ (refuse_keeps h2) (Keeps.fst_mk (State.setLane_keeps h2))))
theorem eyescanDone_keeps {s₀ : State} {l horizontal vertical : Nat} {points : List Byte} {s : State} (h4 : Keeps s₀ s) :
    Keeps s₀ (eyescanDone l horizontal vertical points s) := by
  unfold eyescanDone
  split
  · rename_i v0 v1
    exact h4
  · rename_i v2 v3 v4
    extract_lets +onlyGivenNames x5
    extract_lets +onlyGivenNames x6
    have h7 : Keeps s₀ x6 := by
      unfold x6
      exact State.wrN_keeps (State.setLane_keeps h4)
    clear_value x6
    exact State.finish_keeps h7
theorem State.periodAlarm_keeps {s₀ s : State} {p cwc : Nat} (h0 : Keeps s₀ s) : Keeps s₀ (State.periodAlarm s p cwc) := by
  unfold State.periodAlarm
  extract_lets +onlyGivenNames x0
  refine Keeps.ite ?_ ?_
  · exact h0
  · extract_lets +onlyGivenNames x1
    split
    · rename_i v2 v3 v4 v5 v6
      exact State.setLanePort_keeps (Keeps.upd (s := s) h0 rfl rfl rfl rfl)
    · rename_i v7 v8 v9 v10 v11 v12
      exact State.setLanePort_keeps (Keeps.upd (s := s) h0 rfl rfl rfl rfl)
    · rename_i v13 v14 v15 v16
      exact State.setLanePort_keeps h0
theorem State.dealPeriod_keeps {s₀ s : State} {p cwc : Nat} (h0 : Keeps s₀ s) : Keeps s₀ (State.dealPeriod s p cwc) := by
  unfold State.dealPeriod
  extract_lets +onlyGivenNames x0
  extract_lets +onlyGivenNames x1
  extract_lets +onlyGivenNames x2
  extract_lets +onlyGivenNames x3
  have h4 : Keeps s₀ x3 := by
    unfold x3
    exact State.setLanePort_keeps h0
  clear_value x3
  refine Keeps.foldl ?_ ?_
  · intro a5 y6 h7
    exact State.setLane_keeps h7
  · exact h4
theorem State.trainRequest_keeps {s₀ s : State} {l : Nat} (h0 : Keeps s₀ s) : Keeps s₀ (State.trainRequest s l).2 := by
  unfold State.trainRequest
  refine Keeps.ite₂ ?_ ?_
  · split
    · rename_i v0 v1 v2 v3
      have h4 : Keeps s₀ v2 := Keeps.of_snd v3 (State.takeFree_keeps h0)
      exact h4
  · exact h0
theorem lmaskSwitch_keeps {s₀ : State} {p : Nat} {s : State} (h1 : Keeps s₀ s) : Keeps s₀ (lmaskSwitch p s) := by
  unfold lmaskSwitch
  split
  · rename_i v0 v1
    exact h1
  · rename_i v2 v3 v4
    extract_lets +onlyGivenNames x5
    refine Keeps.ite ?_ ?_
    · exact h1
    · refine Keeps.ite ?_ ?_
      · exact State.setLanePort_keeps h1
      · extract_lets +onlyGivenNames x6
        have h7 : Keeps s₀ x6 := by
          unfold x6
          exact State.setLanePort_keeps h1
        clear_value x6
        extract_lets +onlyGivenNames x8
        have h9 : Keeps s₀ x8 := by
          unfold x8
          refine Keeps.foldl ?_ ?_
          · intro a10 y11 h12
            exact Keeps.ite (State.setLaneState_keeps h12) h12
          · exact h7
        clear_value x8
        extract_lets +onlyGivenNames x13
        extract_lets +onlyGivenNames x14
        have h15 : Keeps s₀ x14 := by
          unfold x14
          refine Keeps.foldl ?_ ?_
          · intro a16 y17 h18
            exact State.fallowLane_keeps h18
          · exact State.putMask_keeps h9
        clear_value x14
        exact State.reconsider_keeps (State.checkWaits_keeps (State.notePort_keeps h15))
theorem State.beginPeriod_keeps {s₀ s : State} {l : Nat} (h0 : Keeps s₀ s) : Keeps s₀ (State.beginPeriod s l) := by
  unfold State.beginPeriod
  extract_lets +onlyGivenNames x0
  extract_lets +onlyGivenNames x1
  refine Keeps.ite ?_ ?_
  · extract_lets +onlyGivenNames x2
    exact State.periodAlarm_keeps (State.dealPeriod_keeps (lmaskSwitch_keeps h0))
  · exact State.periodAlarm_keeps h0
theorem codewordTransmit_keeps {s₀ : State} {l : Nat} {s : State} (h1 : Keeps s₀ s) : Keeps s₀ (codewordTransmit l s) := by
  unfold codewordTransmit
  extract_lets +onlyGivenNames x0
  refine Keeps.ite ?_ ?_
  · exact h1
  · extract_lets +onlyGivenNames x1
    extract_lets +onlyGivenNames x2
    have h3 : Keeps s₀ x2 := by
      unfold x2
      exact State.beginPeriod_keeps h1
    clear_value x2
    extract_lets +onlyGivenNames x4
    extract_lets +onlyGivenNames x5
    split
    · rename_i v6 v7 v8 v9
      split
      · rename_i v10 v11 v12 v13
        have h14 : Keeps s₀ v12 := Keeps.of_snd v13 (State.trainRequest_keeps h3)
        extract_lets +onlyGivenNames x15
        extract_lets +onlyGivenNames x16
        extract_lets +onlyGivenNames x17
        extract_lets +onlyGivenNames x18
        split
        · rename_i v19 v20 v21 v22
          extract_lets +onlyGivenNames x23
          extract_lets +onlyGivenNames x24
          exact State.setLane_keeps h14
theorem State.trainEnds_keeps {s₀ s : State} {l : Nat} (h0 : Keeps s₀ s) : Keeps s₀ (State.trainEnds s l) := by
  unfold State.trainEnds
  exact Keeps.ite (State.firstJoin_keeps (State.setLaneState_keeps h0)) h0
theorem State.takeMask_keeps {s₀ s : State} {p mask switch : Nat} (h0 : Keeps s₀ s) : Keeps s₀ (State.takeMask s p mask switch) := by
  unfold State.takeMask
  extract_lets +onlyGivenNames x0
  extract_lets +onlyGivenNames x1
  extract_lets +onlyGivenNames x2
  extract_lets +onlyGivenNames x3
  extract_lets +onlyGivenNames x4
  split
  · rename_i v5 v6 v7
    exact Keeps.ite (State.setLanePort_keeps h0) (Keeps.ite (State.setLanePort_keeps h0) h0)
  · rename_i v8 v9
    exact Keeps.ite (State.setLanePort_keeps h0) h0
theorem State.takeControl_keeps {s₀ s : State} {l control : Nat} (h0 : Keeps s₀ s) : Keeps s₀ (State.takeControl s l control) := by
  unfold State.takeControl
  extract_lets +onlyGivenNames x0
  extract_lets +onlyGivenNames x1
  extract_lets +onlyGivenNames x2
  extract_lets +onlyGivenNames x3
  extract_lets +onlyGivenNames x4
  have h5 : Keeps s₀ x4 := by
    unfold x4
    exact State.setLane_keeps h0
  clear_value x4
  extract_lets +onlyGivenNames x6
  extract_lets +onlyGivenNames x7
  extract_lets +onlyGivenNames x8
  have h9 : Keeps s₀ x8 := by
    unfold x8
    exact State.setLane_keeps h5
  clear_value x8
  extract_lets +onlyGivenNames x10
  have h11 : Keeps s₀ x10 := by
    unfold x10
    exact Keeps.ite (State.setLaneState_keeps h5) (Keeps.ite (Keeps.ite (State.setLaneState_keeps h9) h9) (State.trainEnds_keeps h5))
  clear_value x10
  extract_lets +onlyGivenNames x12
  extract_lets +onlyGivenNames x13
  have h14 : Keeps s₀ x13 := by
    unfold x13
    exact State.setLane_keeps h11
  clear_value x13
  exact State.takeMask_keeps h14
theorem State.elastic_keeps {s₀ s : State} {p drawn : Nat} {bs : List RxBlock} (h0 : Keeps s₀ s) : Keeps s₀ (State.elastic s p drawn bs) := by
  unfold State.elastic
  extract_lets +onlyGivenNames x0
  split
  · rename_i v1 v2
    exact h0
  · rename_i v3 v4 v5
    extract_lets +onlyGivenNames x6
    extract_lets +onlyGivenNames x7
    have h8 : Keeps s₀ x7 := by
      unfold x7
      exact State.setLanePort_keeps h0
    clear_value x7
    extract_lets +onlyGivenNames x9
    have h10 : Keeps s₀ x9 := by
      unfold x9
      exact State.addWrap_keeps (State.addWrap_keeps h8)
    clear_value x9
    refine Keeps.ite ?_ ?_
    · refine Keeps.foldl ?_ ?_
      · intro a11 y12 h13
        exact State.faultLane_keeps h13
      · exact h10
    · exact h10
theorem State.deskew_keeps {s₀ s : State} {l cwc drawn : Nat} {bs : List RxBlock} (h0 : Keeps s₀ s) : Keeps s₀ (State.deskew s l cwc drawn bs) := by
  unfold State.deskew
  extract_lets +onlyGivenNames x0
  extract_lets +onlyGivenNames x1
  extract_lets +onlyGivenNames x2
  extract_lets +onlyGivenNames x3
  extract_lets +onlyGivenNames x4
  exact Keeps.ite (State.elastic_keeps (State.setLanePort_keeps h0)) (State.setLanePort_keeps h0)
theorem State.noteFarMask_keeps {s₀ s : State} {p control : Nat} (h0 : Keeps s₀ s) : Keeps s₀ (State.noteFarMask s p control) := by
  unfold State.noteFarMask
  extract_lets +onlyGivenNames x0
  exact Keeps.ite (State.setLanePort_keeps h0) h0
theorem codewordReceive_keeps {s₀ s : State} {l : Nat} {cw : RxCodeword} (h : Keeps s₀ s) : Keeps s₀ (codewordReceive l cw s) := by
  unfold codewordReceive
  extract_lets +onlyGivenNames st d a t
  refine Keeps.ite h ?_
  have ht : Keeps s₀ t := State.setLane_keeps h
  clear_value t
  split
  · extract_lets +onlyGivenNames cwc b u
    have hu : Keeps s₀ u := State.addSat_keeps (State.setLane_keeps ht)
    clear_value u cwc
    refine Keeps.ite (State.faultLane_keeps hu) ?_
    cases cwc
    · exact hu
    · exact Keeps.ite (State.deskew_keeps hu) hu
  · extract_lets +onlyGivenNames u b v
    have hu : Keeps s₀ u := Keeps.ite ht (State.count_keeps (State.addWrap_keeps (State.addWrap_keeps ht)))
    clear_value u
    have hv : Keeps s₀ v := State.setLane_keeps hu
    clear_value v
    refine Keeps.ite (Keeps.ite ?_ hv) ?_
    · have hw := State.wrN_keeps (k := P.LNK_SKEW l) (n := min cw.skewPs 24000) (State.setLaneState_keeps (l := l) (st := laneAligned) hv)
      exact Keeps.ite (State.faultLane_keeps hw) hw
    · have hx := fun (c : Nat) => State.noteFarMask_keeps (p := l / 4) (control := c) (State.takeControl_keeps (l := l) (control := c) hv)
      exact Keeps.ite (State.deskew_keeps (hx _)) (hx _)
theorem State.takeSlot__keeps {s₀ s : State} {l kind w cwc : Nat} (h0 : Keeps s₀ s) : Keeps s₀ (State.takeSlot_ s l kind w cwc) := by
  unfold State.takeSlot_
  extract_lets +onlyGivenNames x0
  refine Keeps.ite ?_ ?_
  · extract_lets +onlyGivenNames x1
    extract_lets +onlyGivenNames x2
    have h3 : Keeps s₀ x2 := by
      unfold x2
      exact State.setLane_keeps h0
    clear_value x2
    exact Keeps.ite (State.faultLane_keeps h3) h3
  · exact Keeps.ite (State.takeWord_keeps (State.setLanePort_keeps h0)) h0
theorem slotReceive_keeps {s₀ : State} {l : Nat} {slot : RxSlot} {s : State} (h2 : Keeps s₀ s) : Keeps s₀ (slotReceive l slot s) := by
  unfold slotReceive
  extract_lets +onlyGivenNames x0
  refine Keeps.ite ?_ ?_
  · exact h2
  · refine Keeps.ite ?_ ?_
    · extract_lets +onlyGivenNames x1
      extract_lets +onlyGivenNames x2
      have h3 : Keeps s₀ x2 := by
        unfold x2
        exact State.setLane_keeps h2
      clear_value x2
      exact Keeps.ite (State.faultLane_keeps h3) h3
    · extract_lets +onlyGivenNames x4
      extract_lets +onlyGivenNames x5
      have h6 : Keeps s₀ x5 := by
        unfold x5
        exact State.setLane_keeps h2
      clear_value x5
      split
      · rename_i v7 v8 v9 v10 v11 v12
        exact State.takeSlot__keeps h6
      · rename_i v13 v14 v15
        exact State.addSat_keeps h6
theorem lanePllLocked_keeps {s₀ : State} {l : Nat} {s : State} (h1 : Keeps s₀ s) : Keeps s₀ (lanePllLocked l s) := by
  unfold lanePllLocked
  exact Keeps.ite (State.holdAbsent_keeps (State.setLaneState_keeps h1)) h1
theorem State.trainWindow_keeps {s₀ s : State} {l n : Nat} (h0 : Keeps s₀ s) : Keeps s₀ (State.trainWindow s l n) := by
  unfold State.trainWindow
  extract_lets +onlyGivenNames x0
  extract_lets +onlyGivenNames x1
  extract_lets +onlyGivenNames x2
  extract_lets +onlyGivenNames x3
  extract_lets +onlyGivenNames x4
  exact State.trainEnds_keeps (State.setLane_keeps h0)
theorem serWindowEnd_keeps {s₀ : State} {l : Nat} {centiPpm : Int} {s : State} (h2 : Keeps s₀ s) : Keeps s₀ (serWindowEnd l centiPpm s) := by
  unfold serWindowEnd
  extract_lets +onlyGivenNames x0
  extract_lets +onlyGivenNames x1
  refine Keeps.ite ?_ ?_
  · exact h2
  · extract_lets +onlyGivenNames x2
    extract_lets +onlyGivenNames x3
    have h4 : Keeps s₀ x3 := by
      unfold x3
      exact State.wrI_keeps h2
    clear_value x3
    extract_lets +onlyGivenNames x5
    have h6 : Keeps s₀ x5 := by
      unfold x5
      exact State.setLane_keeps h4
    clear_value x5
    refine Keeps.ite (State.faultLane_keeps h6) ?_
    extract_lets +onlyGivenNames x7
    have h8 : Keeps s₀ x7 := Keeps.ite (State.setBit_keeps h6) h6
    clear_value x7
    exact Keeps.ite (State.trainWindow_keeps h8) h8
theorem trainTimeout_keeps {s₀ : State} {l : Nat} {s : State} (h1 : Keeps s₀ s) : Keeps s₀ (trainTimeout l s) := by
  unfold trainTimeout
  exact Keeps.ite (State.faultLane_keeps h1) h1
theorem rejoinHoldExpiry_keeps {s₀ : State} {l : Nat} {s : State} (h1 : Keeps s₀ s) : Keeps s₀ (rejoinHoldExpiry l s) := by
  unfold rejoinHoldExpiry
  extract_lets +onlyGivenNames x0
  exact Keeps.ite h1 (State.propose_keeps h1)
theorem laneFaultRetry_keeps {s₀ : State} {l : Nat} {s : State} (h1 : Keeps s₀ s) : Keeps s₀ (laneFaultRetry l s) := by
  unfold laneFaultRetry
  exact Keeps.ite (State.notePort_keeps (State.setLaneState_keeps h1)) h1
theorem laneFaultEvent_keeps {s₀ : State} {l cause : Nat} {s : State} (h2 : Keeps s₀ s) : Keeps s₀ (laneFaultEvent l cause s) := by
  unfold laneFaultEvent
  exact Keeps.ite (State.faultLane_keeps h2) h2
theorem densityWindowEnd_keeps {s₀ : State} {l changes : Nat} {s : State} (h2 : Keeps s₀ s) : Keeps s₀ (densityWindowEnd l changes s) := by
  unfold densityWindowEnd
  extract_lets +onlyGivenNames x0
  refine Keeps.ite ?_ ?_
  · exact h2
  · exact Keeps.ite (State.setBit_keeps (State.setBit_keeps (State.setLane_keeps h2))) (Keeps.ite (State.clrBits_keeps (State.setLane_keeps h2)) h2)
theorem eyeHealthCheck_keeps {s₀ : State} {l : Nat} {s : State} (h1 : Keeps s₀ s) : Keeps s₀ (eyeHealthCheck l s) := by
  unfold eyeHealthCheck
  extract_lets +onlyGivenNames x0
  split
  · rename_i v1 v2
    exact h1
  · rename_i v3 v4 v5
    extract_lets +onlyGivenNames x6
    exact Keeps.ite (State.setLane_keeps h1) h1
theorem eyeHealthCheckDone_keeps {s₀ : State} {l horizontal vertical : Nat} {s : State} (h3 : Keeps s₀ s) :
    Keeps s₀ (eyeHealthCheckDone l horizontal vertical s) := by
  unfold eyeHealthCheckDone
  refine Keeps.ite ?_ ?_
  · exact h3
  · extract_lets +onlyGivenNames x0
    extract_lets +onlyGivenNames x1
    have h2 : Keeps s₀ x1 := by
      unfold x1
      exact State.wrN_keeps (State.setLane_keeps h3)
    clear_value x1
    exact Keeps.ite (State.faultLane_keeps h2) h2
theorem modulePresenceChange_keeps {s₀ : State} {p : Nat} {present cmis : Bool} {s : State} (h3 : Keeps s₀ s) :
    Keeps s₀ (modulePresenceChange p present cmis s) := by
  unfold modulePresenceChange
  extract_lets +onlyGivenNames x0
  extract_lets +onlyGivenNames x1
  have h2 : Keeps s₀ x1 := by
    unfold x1
    exact State.setLanePort_keeps h3
  clear_value x1
  extract_lets +onlyGivenNames x3
  have h4 : Keeps s₀ x3 := by
    unfold x3
    refine Keeps.foldl ?_ ?_
    · intro a5 y6 h7
      exact State.putBit_keeps (State.putBit_keeps h7)
    · exact h2
  clear_value x3
  refine Keeps.ite ?_ ?_
  · exact h4
  · refine Keeps.foldl ?_ ?_
    · intro a8 y9 h10
      exact State.faultLane_keeps (State.setLane_keeps h10)
    · exact h4
theorem State.moduleFlags_keeps {s₀ s : State} {p los : Nat} (h0 : Keeps s₀ s) : Keeps s₀ (State.moduleFlags s p los) := by
  unfold State.moduleFlags
  extract_lets +onlyGivenNames x0
  refine Keeps.ite ?_ ?_
  · exact h0
  · refine Keeps.foldl ?_ ?_
    · intro a1 y2 h3
      extract_lets +onlyGivenNames x4
      extract_lets +onlyGivenNames x5
      extract_lets +onlyGivenNames x6
      have h7 : Keeps s₀ x6 := by
        unfold x6
        exact State.setLane_keeps h3
      clear_value x6
      exact Keeps.ite (State.faultLane_keeps h7) h7
    · exact State.setLanePort_keeps h0
theorem moduleFlagPoll_keeps {s₀ : State} {p los : Nat} {s : State} (h2 : Keeps s₀ s) : Keeps s₀ (moduleFlagPoll p los s) := by
  unfold moduleFlagPoll
  exact Keeps.ite h2 (State.moduleFlags_keeps h2)
theorem crystalFault_keeps {s₀ s : State} (h0 : Keeps s₀ s) : Keeps s₀ (crystalFault s) := by
  unfold crystalFault
  refine Keeps.foldl ?_ ?_
  · intro a0 y1 h2
    extract_lets +onlyGivenNames x3
    have h4 : Keeps s₀ x3 := by
      unfold x3
      refine Keeps.foldl ?_ ?_
      · intro a5 y6 h7
        exact State.fallowLane_keeps h7
      · exact h2
    clear_value x3
    extract_lets +onlyGivenNames x8
    extract_lets +onlyGivenNames x9
    have h10 : Keeps s₀ x9 := by
      unfold x9
      exact State.setLanePort_keeps h4
    clear_value x9
    exact State.setPortState_keeps (State.replyWaits_keeps h10)
  · exact h0
theorem State.loopPort_keeps {s₀ s : State} {p mode : Nat} (h0 : Keeps s₀ s) : Keeps s₀ (State.loopPort s p mode) := by
  unfold State.loopPort
  extract_lets +onlyGivenNames x0
  refine Keeps.ite ?_ ?_
  · refine Keeps.ite ?_ ?_
    · exact h0
    · extract_lets +onlyGivenNames x1
      extract_lets +onlyGivenNames x2
      have h3 : Keeps s₀ x2 := by
        unfold x2
        exact State.setPortState_keeps (State.setLanePort_keeps h0)
      clear_value x2
      extract_lets +onlyGivenNames x4
      have h5 : Keeps s₀ x4 := by
        unfold x4
        refine State.notePort_keeps ?_
        refine Keeps.foldl ?_ ?_
        · intro a6 y7 h8
          exact State.searchLane_keeps h8
        · exact h3
      clear_value x4
      extract_lets +onlyGivenNames x9
      extract_lets +onlyGivenNames x10
      have h11 : Keeps s₀ x10 := by
        unfold x10
        exact Keeps.upd (s := x4) h5 rfl rfl rfl rfl
      clear_value x10
      exact Keeps.ite (State.endTest_keeps h11) h11
  · extract_lets +onlyGivenNames x12
    extract_lets +onlyGivenNames x13
    have h14 : Keeps s₀ x13 := by
      unfold x13
      exact State.setLanePort_keeps h0
    clear_value x13
    extract_lets +onlyGivenNames x15
    have h16 : Keeps s₀ x15 := by
      unfold x15
      exact State.wrN_keeps (State.setPortState_keeps h14)
    clear_value x15
    exact Keeps.ite (State.beginTest_keeps (Keeps.upd (s := x15) h16 rfl rfl rfl rfl)) h16
theorem tstLoopBody_keeps {s₀ : State} {h : Hdr} {p : List Word} {s : State} (h2 : Keeps s₀ s) : Keeps s₀ (tstLoopBody h p s).1 := by
  unfold tstLoopBody
  extract_lets +onlyGivenNames x0
  extract_lets +onlyGivenNames x1
  refine Keeps.ite₁ ?_ ?_
  · exact refuse_keeps h2
  · refine Keeps.ite₁ ?_ ?_
    · exact refuse_keeps h2
    · refine Keeps.ite₁ ?_ ?_
      · exact Keeps.ite₁ (refuse_keeps h2) (okay_keeps (State.loopPort_keeps h2))
      · refine Keeps.ite₁ ?_ ?_
        · exact refuse_keeps h2
        · refine Keeps.ite₁ ?_ ?_
          · exact okay_keeps h2
          · split
            · rename_i v2 v3 v4 v5
              exact Keeps.fst_mk (Keeps.upd (s := s) h2 rfl rfl rfl rfl)
theorem State.testFlit_keeps {s₀ s : State} {die source : Nat} {good : Bool} (h0 : Keeps s₀ s) : Keeps s₀ (State.testFlit s die source good) := by
  unfold State.testFlit
  split
  · rename_i v0 v1
    exact h0
  · rename_i v2 v3 v4
    extract_lets +onlyGivenNames x5
    extract_lets +onlyGivenNames x6
    refine Keeps.ite ?_ ?_
    · split
      · rename_i v7 v8 v9 v10
        have h11 : Keeps s₀ v9 := Keeps.of_snd v10 (State.takeFree_keeps (Keeps.upd (s := s) h0 rfl rfl rfl rfl))
        exact State.finish_keeps h11
    · exact Keeps.upd (s := s) h0 rfl rfl rfl rfl
theorem execLnkStatus_keeps {s₀ s : State} {h : Hdr} {p : List Word} (h₀ : Keeps s₀ s) :
    ∃ u, execLnkStatus h p s = .next u ∧ Keeps s₀ u :=
  ⟨_, rfl, State.receive_keeps h₀ fun _ h₁ => lnkStatusBody_keeps h₁⟩
theorem execLnkFallow_keeps {s₀ s : State} {h : Hdr} {p : List Word} (h₀ : Keeps s₀ s) :
    ∃ u, execLnkFallow h p s = .next u ∧ Keeps s₀ u :=
  ⟨_, rfl, State.receive_keeps h₀ fun _ h₁ => lnkFallowBody_keeps h₁⟩
theorem execLnkWake_keeps {s₀ s : State} {h : Hdr} {p : List Word} (h₀ : Keeps s₀ s) :
    ∃ u, execLnkWake h p s = .next u ∧ Keeps s₀ u :=
  ⟨_, rfl, State.receive_keeps h₀ fun _ h₁ => lnkWakeBody_keeps h₁⟩
theorem execLnkRetrain_keeps {s₀ s : State} {h : Hdr} {p : List Word} (h₀ : Keeps s₀ s) :
    ∃ u, execLnkRetrain h p s = .next u ∧ Keeps s₀ u :=
  ⟨_, rfl, State.receive_keeps h₀ fun _ h₁ => lnkRetrainBody_keeps h₁⟩
theorem execLnkWakeTimeout_keeps {s₀ s : State} {t : Nat} {port : Fin 3} (h₀ : Keeps s₀ s) :
    ∃ u, execLnkWakeTimeout t port s = .next u ∧ Keeps s₀ u :=
  ⟨_, rfl, State.replyWaits_keeps (State.at__keeps h₀)⟩
theorem execLnkEyescanHealth_keeps {s₀ s : State} {h : Hdr} {p : List Word} (h₀ : Keeps s₀ s) :
    ∃ u, execLnkEyescanHealth h p s = .next u ∧ Keeps s₀ u :=
  ⟨_, rfl, State.receive_keeps h₀ fun _ h₁ => lnkEyescanBody_keeps h₁⟩
theorem execLnkEyescanMap_keeps {s₀ s : State} {h : Hdr} {p : List Word} (h₀ : Keeps s₀ s) :
    ∃ u, execLnkEyescanMap h p s = .next u ∧ Keeps s₀ u :=
  ⟨_, rfl, State.receive_keeps h₀ fun _ h₁ => lnkEyescanBody_keeps h₁⟩
theorem execEyescanDone_keeps {s₀ s : State} {t : Nat} {lane : Fin 12} {horizontal vertical : Byte} {points : List Byte} (h₀ : Keeps s₀ s) :
    ∃ u, execEyescanDone t lane horizontal vertical points s = .next u ∧ Keeps s₀ u :=
  ⟨_, rfl, eyescanDone_keeps (State.at__keeps h₀)⟩
theorem execLmaskSwitch_keeps {s₀ s : State} {t : Nat} {port : Fin 3} (h₀ : Keeps s₀ s) :
    ∃ u, execLmaskSwitch t port s = .next u ∧ Keeps s₀ u :=
  ⟨_, rfl, lmaskSwitch_keeps (State.at__keeps h₀)⟩
theorem execCodewordTransmit_keeps {s₀ s : State} {t : Nat} {port : Fin 3} {lane : Fin 4} (h₀ : Keeps s₀ s) :
    ∃ u, execCodewordTransmit t port lane s = .next u ∧ Keeps s₀ u :=
  ⟨_, rfl, codewordTransmit_keeps (State.at__keeps h₀)⟩
theorem execCodewordReceive_keeps {s₀ s : State} {t : Nat} {lane : Fin 12} {cw : RxCodeword} (h₀ : Keeps s₀ s) :
    ∃ u, execCodewordReceive t lane cw s = .next u ∧ Keeps s₀ u :=
  ⟨_, rfl, codewordReceive_keeps (State.at__keeps h₀)⟩
theorem execSlotReceive_keeps {s₀ s : State} {t : Nat} {lane : Fin 12} {slot : RxSlot} (h₀ : Keeps s₀ s) :
    ∃ u, execSlotReceive t lane slot s = .next u ∧ Keeps s₀ u :=
  ⟨_, rfl, slotReceive_keeps (State.at__keeps h₀)⟩
theorem execLanePllLocked_keeps {s₀ s : State} {t : Nat} {lane : Fin 12} (h₀ : Keeps s₀ s) :
    ∃ u, execLanePllLocked t lane s = .next u ∧ Keeps s₀ u :=
  ⟨_, rfl, lanePllLocked_keeps (State.at__keeps h₀)⟩
theorem execSerWindowEnd_keeps {s₀ s : State} {t : Nat} {lane : Fin 12} {centiPpm : Int} (h₀ : Keeps s₀ s) :
    ∃ u, execSerWindowEnd t lane centiPpm s = .next u ∧ Keeps s₀ u :=
  ⟨_, rfl, serWindowEnd_keeps (State.at__keeps h₀)⟩
theorem execTrainTimeout_keeps {s₀ s : State} {t : Nat} {lane : Fin 12} (h₀ : Keeps s₀ s) :
    ∃ u, execTrainTimeout t lane s = .next u ∧ Keeps s₀ u :=
  ⟨_, rfl, trainTimeout_keeps (State.at__keeps h₀)⟩
theorem execRejoinHoldExpiry_keeps {s₀ s : State} {t : Nat} {lane : Fin 12} (h₀ : Keeps s₀ s) :
    ∃ u, execRejoinHoldExpiry t lane s = .next u ∧ Keeps s₀ u :=
  ⟨_, rfl, rejoinHoldExpiry_keeps (State.at__keeps h₀)⟩
theorem execLaneFaultRetry_keeps {s₀ s : State} {t : Nat} {lane : Fin 12} (h₀ : Keeps s₀ s) :
    ∃ u, execLaneFaultRetry t lane s = .next u ∧ Keeps s₀ u :=
  ⟨_, rfl, laneFaultRetry_keeps (State.at__keeps h₀)⟩
theorem execLaneFault_keeps {s₀ s : State} {t : Nat} {lane : Fin 12} {cause : Fin 12} (h₀ : Keeps s₀ s) :
    ∃ u, execLaneFault t lane cause s = .next u ∧ Keeps s₀ u :=
  ⟨_, rfl, laneFaultEvent_keeps (State.at__keeps h₀)⟩
theorem execDensityWindowEnd_keeps {s₀ s : State} {t : Nat} {lane : Fin 12} {changes : Nat} (h₀ : Keeps s₀ s) :
    ∃ u, execDensityWindowEnd t lane changes s = .next u ∧ Keeps s₀ u :=
  ⟨_, rfl, densityWindowEnd_keeps (State.at__keeps h₀)⟩
theorem execEyeHealthCheck_keeps {s₀ s : State} {t : Nat} {lane : Fin 12} (h₀ : Keeps s₀ s) :
    ∃ u, execEyeHealthCheck t lane s = .next u ∧ Keeps s₀ u :=
  ⟨_, rfl, eyeHealthCheck_keeps (State.at__keeps h₀)⟩
theorem execEyeHealthCheckDone_keeps {s₀ s : State} {t : Nat} {lane : Fin 12} {horizontal vertical : Byte} (h₀ : Keeps s₀ s) :
    ∃ u, execEyeHealthCheckDone t lane horizontal vertical s = .next u ∧ Keeps s₀ u :=
  ⟨_, rfl, eyeHealthCheckDone_keeps (State.at__keeps h₀)⟩
theorem execRateOffsetFault_keeps {s₀ s : State} {t : Nat} {lane : Fin 12} (h₀ : Keeps s₀ s) :
    ∃ u, execRateOffsetFault t lane s = .next u ∧ Keeps s₀ u :=
  ⟨_, rfl, laneFaultEvent_keeps (State.at__keeps h₀)⟩
theorem execModulePresenceChange_keeps {s₀ s : State} {t : Nat} {port : Fin 3} {present cmis : Bool} (h₀ : Keeps s₀ s) :
    ∃ u, execModulePresenceChange t port present cmis s = .next u ∧ Keeps s₀ u :=
  ⟨_, rfl, modulePresenceChange_keeps (State.at__keeps h₀)⟩
theorem execModintAssert_keeps {s₀ s : State} {t : Nat} {port : Fin 3} {los : BitVec 4} (h₀ : Keeps s₀ s) :
    ∃ u, execModintAssert t port los s = .next u ∧ Keeps s₀ u :=
  ⟨_, rfl, State.moduleFlags_keeps (State.at__keeps h₀)⟩
theorem execModuleFlagPoll_keeps {s₀ s : State} {t : Nat} {port : Fin 3} {los : BitVec 4} (h₀ : Keeps s₀ s) :
    ∃ u, execModuleFlagPoll t port los s = .next u ∧ Keeps s₀ u :=
  ⟨_, rfl, moduleFlagPoll_keeps (State.at__keeps h₀)⟩
theorem execCrystalFault_keeps {s₀ s : State} {t : Nat} (h₀ : Keeps s₀ s) :
    ∃ u, execCrystalFault t s = .next u ∧ Keeps s₀ u :=
  ⟨_, rfl, crystalFault_keeps (State.at__keeps h₀)⟩
theorem execTstLoop_keeps {s₀ s : State} {h : Hdr} {p : List Word} (h₀ : Keeps s₀ s) :
    ∃ u, execTstLoop h p s = .next u ∧ Keeps s₀ u :=
  ⟨_, rfl, State.receive_keeps h₀ fun _ h₁ => tstLoopBody_keeps h₁⟩

/-! ### Epoch -/

theorem State.putOff_keeps {s₀ s old : State} {n t : Nat} (h0 : Keeps s₀ s) : Keeps s₀ (State.putOff s old n t) := by
  unfold State.putOff
  extract_lets +onlyGivenNames x0
  extract_lets +onlyGivenNames x1
  extract_lets +onlyGivenNames x2
  have h3 : Keeps s₀ x2 := by
    unfold x2
    split
    · rename_i v4 v5 v6 v7
      exact Keeps.ite (State.setGroup_keeps h0) h0
    · rename_i v8 v9
      exact h0
  clear_value x2
  exact State.setInState_keeps h3
theorem State.commitSweep_keeps {s₀ s old : State} {n t : Nat} (h0 : Keeps s₀ s) : Keeps s₀ (State.commitSweep s old n t) := by
  unfold State.commitSweep
  extract_lets +onlyGivenNames x0
  extract_lets +onlyGivenNames x1
  extract_lets +onlyGivenNames x2
  extract_lets +onlyGivenNames x3
  exact Keeps.ite h0 (State.setInput_keeps h0)
theorem State.commitCompliance_keeps {s₀ s old : State} {n : Nat} (h0 : Keeps s₀ s) : Keeps s₀ (State.commitCompliance s old n) := by
  unfold State.commitCompliance
  extract_lets +onlyGivenNames x0
  exact Keeps.ite (State.setBit_keeps h0) h0
theorem State.commitInput_keeps {s₀ old : State} {t : Nat} {s : State} {n : Nat} (h2 : Keeps s₀ s) : Keeps s₀ (State.commitInput old t s n) := by
  unfold State.commitInput
  extract_lets +onlyGivenNames x0
  have h1 : Keeps s₀ x0 := by
    unfold x0
    exact State.commitCompliance_keeps h2
  clear_value x0
  extract_lets +onlyGivenNames x2
  extract_lets +onlyGivenNames x3
  extract_lets +onlyGivenNames x4
  extract_lets +onlyGivenNames x5
  have h6 : Keeps s₀ x5 := by
    unfold x5
    exact Keeps.ite (State.setInput_keeps h1) h1
  clear_value x5
  extract_lets +onlyGivenNames x7
  extract_lets +onlyGivenNames x8
  have h9 : Keeps s₀ x8 := by
    unfold x8
    exact Keeps.ite (State.setInput_keeps h6) h6
  clear_value x8
  refine Keeps.ite ?_ ?_
  · exact Keeps.ite h9 (State.putOff_keeps h9)
  · refine Keeps.ite ?_ ?_
    · extract_lets +onlyGivenNames x10
      have h11 : Keeps s₀ x10 := by
        unfold x10
        exact State.commitSweep_keeps (State.enableInput_keeps h9)
      clear_value x10
      refine Keeps.foldl ?_ ?_
      · intro a12 y13 h14
        exact State.holdInput_keeps h14
      · exact h11
    · extract_lets +onlyGivenNames x15
      extract_lets +onlyGivenNames x16
      extract_lets +onlyGivenNames x17
      have h18 : Keeps s₀ x17 := by
        unfold x17
        exact Keeps.ite (State.setEvent_keeps h9) h9
      clear_value x17
      exact State.commitSweep_keeps h18
theorem State.commitSource_keeps {s₀ old : State} {t : Nat} {s : State} {k : Nat} (h2 : Keeps s₀ s) : Keeps s₀ (State.commitSource old t s k) := by
  unfold State.commitSource
  extract_lets +onlyGivenNames x0
  extract_lets +onlyGivenNames x1
  extract_lets +onlyGivenNames x2
  have h3 : Keeps s₀ x2 := by
    unfold x2
    exact Keeps.ite (State.setSource_keeps h2) h2
  clear_value x2
  exact Keeps.ite (State.clrBits_keeps (State.steer_keeps (State.setSource_keeps h3))) (Keeps.ite (State.steer_keeps h3) h3)
theorem State.commitSets_keeps {s₀ old : State} {t : Nat} {s : State} {n : Nat} (h2 : Keeps s₀ s) : Keeps s₀ (State.commitSets old t s n) := by
  unfold State.commitSets
  exact Keeps.ite (State.closeSet_keeps h2) h2
theorem State.commitTiming_keeps {s₀ old : State} {t : Nat} {s : State} {n : Nat} (h2 : Keeps s₀ s) : Keeps s₀ (State.commitTiming old t s n) := by
  unfold State.commitTiming
  extract_lets +onlyGivenNames x0
  have h1 : Keeps s₀ x0 := by
    unfold x0
    exact State.refreshCmp_keeps h2
  clear_value x0
  extract_lets +onlyGivenNames x2
  extract_lets +onlyGivenNames x3
  extract_lets +onlyGivenNames x4
  have h5 : Keeps s₀ x4 := by
    unfold x4
    exact Keeps.ite (State.takeLevel_keeps h1) h1
  clear_value x4
  extract_lets +onlyGivenNames x6
  extract_lets +onlyGivenNames x7
  have h8 : Keeps s₀ x7 := by
    unfold x7
    exact Keeps.ite (State.setTiming_keeps h5) h5
  clear_value x7
  extract_lets +onlyGivenNames x9
  have h10 : Keeps s₀ x9 := by
    unfold x9
    exact Keeps.ite (State.openSet_keeps h8) h8
  clear_value x9
  extract_lets +onlyGivenNames x11
  have h_x11 : ∀ {b12 : State} {b14 : Nat}, Keeps s₀ b12 → Keeps s₀ (x11 b12 b14) := by
    intro b12 b14 h15
    unfold x11
    extract_lets +onlyGivenNames x16
    exact Keeps.ite (State.clearPrim_keeps h15) h15
  exact State.updateAlarm_keeps (h_x11 (h_x11 h10))
theorem State.commitGroup_keeps {s₀ old : State} {t : Nat} {s : State} {g : Nat} (h2 : Keeps s₀ s) : Keeps s₀ (State.commitGroup old t s g) := by
  unfold State.commitGroup
  extract_lets +onlyGivenNames x0
  refine Keeps.ite ?_ ?_
  · exact h2
  · extract_lets +onlyGivenNames x1
    have h2 : Keeps s₀ x1 := by
      unfold x1
      exact State.regrid_keeps h2
    clear_value x1
    extract_lets +onlyGivenNames x3
    exact State.setRingOf_keeps h2
theorem State.cutWindrow_keeps {s₀ s old : State} {j a b : Nat} {step : Bool} (h0 : Keeps s₀ s) : Keeps s₀ (State.cutWindrow s old j a b step) := by
  unfold State.cutWindrow
  extract_lets +onlyGivenNames x0
  extract_lets +onlyGivenNames x1
  extract_lets +onlyGivenNames x2
  extract_lets +onlyGivenNames x3
  extract_lets +onlyGivenNames x4
  extract_lets +onlyGivenNames x5
  exact Keeps.upd (s := s) h0 rfl rfl rfl rfl
theorem State.commitWindrow_keeps {s₀ old : State} {t : Nat} {s : State} {j : Nat} (h2 : Keeps s₀ s) : Keeps s₀ (State.commitWindrow old t s j) := by
  unfold State.commitWindrow
  exact Keeps.ite (State.cutWindrow_keeps h2) h2
theorem State.commitTrigger_keeps {s₀ s old : State} {t : Nat} (h0 : Keeps s₀ s) : Keeps s₀ (State.commitTrigger s old t) := by
  unfold State.commitTrigger
  extract_lets +onlyGivenNames x0
  extract_lets +onlyGivenNames x1
  exact Keeps.ite h0 (Keeps.upd (s := s) h0 rfl rfl rfl rfl)
theorem State.commitAlarms_keeps {s₀ s old : State} {t : Nat} (h0 : Keeps s₀ s) : Keeps s₀ (State.commitAlarms s old t) := by
  unfold State.commitAlarms
  extract_lets +onlyGivenNames x0
  extract_lets +onlyGivenNames x1
  have h2 : Keeps s₀ x1 := by
    unfold x1
    exact State.send_keeps (State.matrixStep_keeps h0)
  clear_value x1
  refine Keeps.foldl ?_ ?_
  · intro a3 y4 h5
    exact Keeps.ite (State.sendWord_keeps h5) h5
  · exact h2
theorem State.installStaged_keeps {s₀ s : State} {c : Commit} {t uncert : Nat} (h0 : Keeps s₀ s) : Keeps s₀ (State.installStaged s c t uncert) := by
  unfold State.installStaged
  extract_lets +onlyGivenNames x0
  extract_lets +onlyGivenNames x1
  have h2 : Keeps s₀ x1 := by
    unfold x1
    exact Keeps.upd (s := s) h0 rfl rfl rfl rfl
  clear_value x1
  extract_lets +onlyGivenNames x3
  have h4 : Keeps s₀ x3 := by
    unfold x3
    refine Keeps.foldl ?_ ?_
    · intro a5 y6 h7
      exact State.wr_keeps h7
    · exact h2
  clear_value x3
  extract_lets +onlyGivenNames x8
  extract_lets +onlyGivenNames x9
  extract_lets +onlyGivenNames x10
  have h11 : Keeps s₀ x10 := by
    unfold x10
    exact Keeps.upd (s := x3) h4 rfl rfl rfl rfl
  clear_value x10
  exact State.wrN_keeps (State.wr_keeps (State.wr64_keeps (State.wr_keeps h11)))
theorem State.takeUp_keeps {s₀ s old : State} {t : Nat} (h0 : Keeps s₀ s) : Keeps s₀ (State.takeUp s old t) := by
  unfold State.takeUp
  extract_lets +onlyGivenNames x0
  have h1 : Keeps s₀ x0 := by
    unfold x0
    refine Keeps.foldl ?_ ?_
    · intro a2 y3 h4
      exact State.commitSets_keeps h4
    · exact h0
  clear_value x0
  extract_lets +onlyGivenNames x5
  have h6 : Keeps s₀ x5 := by
    unfold x5
    refine Keeps.foldl ?_ ?_
    · intro a7 y8 h9
      exact State.commitSource_keeps h9
    · exact h1
  clear_value x5
  extract_lets +onlyGivenNames x10
  have h11 : Keeps s₀ x10 := by
    unfold x10
    refine Keeps.foldl ?_ ?_
    · intro a12 y13 h14
      exact State.commitInput_keeps h14
    · exact h6
  clear_value x10
  extract_lets +onlyGivenNames x15
  have h16 : Keeps s₀ x15 := by
    unfold x15
    refine Keeps.foldl ?_ ?_
    · intro a17 y18 h19
      exact State.commitTiming_keeps h19
    · exact h11
  clear_value x15
  extract_lets +onlyGivenNames x20
  have h21 : Keeps s₀ x20 := by
    unfold x20
    refine Keeps.foldl ?_ ?_
    · intro a22 y23 h24
      exact State.commitGroup_keeps h24
    · exact h16
  clear_value x20
  extract_lets +onlyGivenNames x25
  have h26 : Keeps s₀ x25 := by
    unfold x25
    refine Keeps.foldl ?_ ?_
    · intro a27 y28 h29
      exact State.commitWindrow_keeps h29
    · exact h21
  clear_value x25
  extract_lets +onlyGivenNames x30
  have h31 : Keeps s₀ x30 := by
    unfold x30
    exact State.commitAlarms_keeps (State.commitTrigger_keeps h26)
  clear_value x30
  extract_lets +onlyGivenNames x32
  have h33 : Keeps s₀ x32 := by
    unfold x32
    exact State.commitLanes_keeps h31
  clear_value x32
  exact Keeps.ite (State.sourceChanged_keeps h33) h33
theorem State.applyCommit_keeps {s₀ s : State} {c : Commit} {t uncert : Nat} (h0 : Keeps s₀ s) : Keeps s₀ (State.applyCommit s c t uncert) := by
  unfold State.applyCommit
  extract_lets +onlyGivenNames x0
  have h1 : Keeps s₀ x0 := by
    unfold x0
    refine Keeps.foldl ?_ ?_
    · intro a2 y3 h4
      exact State.noteSkip_keeps h4
    · exact h0
  clear_value x0
  exact State.requestSave_keeps (State.takeUp_keeps (State.installStaged_keeps h1))
theorem State.finishCommit_keeps {s₀ s : State} {c : Commit} {status outcome uncert at_ : Nat} (h0 : Keeps s₀ s) :
    Keeps s₀ (State.finishCommit s c status outcome uncert at_) := by
  unfold State.finishCommit
  exact State.finish_keeps h0
theorem State.unseal_keeps {s₀ s : State} (h0 : Keeps s₀ s) : Keeps s₀ (State.unseal s) := by
  unfold State.unseal
  exact State.wrN_keeps (Keeps.upd (s := s) h0 rfl rfl rfl rfl)
theorem State.applyNow_keeps {s₀ s : State} {c : Commit} {u : Nat} (h0 : Keeps s₀ s) : Keeps s₀ (State.applyNow s c u) := by
  unfold State.applyNow
  extract_lets +onlyGivenNames x0
  extract_lets +onlyGivenNames x1
  have h2 : Keeps s₀ x1 := by
    unfold x1
    exact State.applyCommit_keeps h0
  clear_value x1
  extract_lets +onlyGivenNames x3
  have h4 : Keeps s₀ x3 := by
    unfold x3
    exact Keeps.ite h2 (State.setBit_keeps h2)
  clear_value x3
  exact State.finishCommit_keeps h4
theorem epochCommitInstant_keeps {s₀ s : State} (h0 : Keeps s₀ s) : Keeps s₀ (epochCommitInstant s) := by
  unfold epochCommitInstant
  split
  · rename_i v0 v1
    exact h0
  · rename_i v2 v3 v4
    refine Keeps.ite ?_ ?_
    · exact h0
    · extract_lets +onlyGivenNames x5
      have h6 : Keeps s₀ x5 := by
        unfold x5
        exact State.tbUpdate_keeps h0
      clear_value x5
      extract_lets +onlyGivenNames x7
      refine Keeps.ite ?_ ?_
      · exact State.applyNow_keeps h6
      · refine Keeps.ite ?_ ?_
        · exact State.wrN_keeps (Keeps.upd (s := x5) h6 rfl rfl rfl rfl)
        · exact State.finishCommit_keeps (State.setBit_keeps (State.unseal_keeps h6))
theorem deferredCommitApply_keeps {s₀ s : State} (h0 : Keeps s₀ s) : Keeps s₀ (deferredCommitApply s) := by
  unfold deferredCommitApply
  split
  · rename_i v0 v1
    exact h0
  · rename_i v2 v3 v4
    split
    · rename_i v5 v6
      exact h0
    · rename_i v7 v8 v9
      exact Keeps.ite h0 (State.finishCommit_keeps (State.applyCommit_keeps h0))
theorem epochCommitBody_keeps {s₀ : State} {h : Hdr} {p : List Word} {s : State} (h2 : Keeps s₀ s) : Keeps s₀ (epochCommitBody h p s).1 := by
  unfold epochCommitBody
  extract_lets +onlyGivenNames x0
  extract_lets +onlyGivenNames x1
  extract_lets +onlyGivenNames x2
  refine Keeps.ite₁ ?_ ?_
  · exact refuse_keeps h2
  · refine Keeps.ite₁ ?_ ?_
    · exact refuse_keeps h2
    · refine Keeps.ite₁ ?_ ?_
      · exact refuse_keeps h2
      · refine Keeps.ite₁ ?_ ?_
        · exact refuse_keeps h2
        · refine Keeps.ite₁ ?_ ?_
          · exact refuse_keeps h2
          · split
            · rename_i v3 v4 v5
              exact refuse_keeps h2
            · rename_i v6 v7
              extract_lets +onlyGivenNames x8
              extract_lets +onlyGivenNames x9
              exact Keeps.fst_mk (State.wrN_keeps (Keeps.upd (s := s) h2 rfl rfl rfl rfl))
theorem State.keepStaged_keeps {s₀ s : State} {keep : Bool} (h0 : Keeps s₀ s) : Keeps s₀ (State.keepStaged s keep) := by
  unfold State.keepStaged
  extract_lets +onlyGivenNames x0
  extract_lets +onlyGivenNames x1
  have h2 : Keeps s₀ x1 := by
    unfold x1
    exact Keeps.ite h0 (Keeps.upd (s := s) h0 rfl rfl rfl rfl)
  clear_value x1
  exact State.unseal_keeps h2
theorem epochAbortBody_keeps {s₀ : State} {p : List Word} {s : State} (h1 : Keeps s₀ s) : Keeps s₀ (epochAbortBody p s).1 := by
  unfold epochAbortBody
  extract_lets +onlyGivenNames x0
  refine Keeps.ite₁ ?_ ?_
  · exact refuse_keeps h1
  · split
    · rename_i v1 v2
      exact okay_keeps (State.keepStaged_keeps h1)
    · rename_i v3 v4 v5
      refine Keeps.ite₁ ?_ ?_
      · exact refuse_keeps h1
      · split
        · rename_i v6 v7 v8 v9
          have h10 : Keeps s₀ v8 := Keeps.of_snd v9 (State.takeFree_keeps h1)
          exact okay_keeps (State.finishCommit_keeps (State.keepStaged_keeps h10))
theorem epochStatusBody_keeps {s₀ : State} {p : List Word} {s : State} (h1 : Keeps s₀ s) : Keeps s₀ (epochStatusBody p s).1 := by
  unfold epochStatusBody
  split
  · rename_i v0 v1 v2 v3
    exact Keeps.ite₁ (refuse_keeps h1) (okay_keeps h1)
theorem execEpochCommitInstant_keeps {s₀ s : State} {t : Nat} (h₀ : Keeps s₀ s) :
    ∃ u, execEpochCommitInstant t s = .next u ∧ Keeps s₀ u :=
  ⟨_, rfl, epochCommitInstant_keeps (State.at__keeps h₀)⟩
theorem execDeferredCommitApply_keeps {s₀ s : State} {t : Nat} (h₀ : Keeps s₀ s) :
    ∃ u, execDeferredCommitApply t s = .next u ∧ Keeps s₀ u :=
  ⟨_, rfl, deferredCommitApply_keeps (State.at__keeps h₀)⟩
theorem execEpochCommit_keeps {s₀ s : State} {h : Hdr} {p : List Word} (h₀ : Keeps s₀ s) :
    ∃ u, execEpochCommit h p s = .next u ∧ Keeps s₀ u :=
  ⟨_, rfl, State.receive_keeps h₀ fun _ h₁ => epochCommitBody_keeps h₁⟩
theorem execEpochAbort_keeps {s₀ s : State} {h : Hdr} {p : List Word} (h₀ : Keeps s₀ s) :
    ∃ u, execEpochAbort h p s = .next u ∧ Keeps s₀ u :=
  ⟨_, rfl, State.receive_keeps h₀ fun _ h₁ => epochAbortBody_keeps h₁⟩
theorem execEpochStatus_keeps {s₀ s : State} {h : Hdr} {p : List Word} (h₀ : Keeps s₀ s) :
    ∃ u, execEpochStatus h p s = .next u ∧ Keeps s₀ u :=
  ⟨_, rfl, State.receive_keeps h₀ fun _ h₁ => epochStatusBody_keeps h₁⟩

end Sys2Proof.Machine
end

