-- ==== Sys2Proof/Laws/KeepsHost.lean ====
section
/-! SUPPORT. What the operations and the commands of a group keep (see Keeps): the portal, management and redundancy. -/

set_option linter.all false

namespace Sys2Proof.Machine

/-! ### Prt -/

theorem State.discard_keeps {s₀ s : State} {p : Nat} (h0 : Keeps s₀ s) : Keeps s₀ (State.discard s p) := by
  unfold State.discard
  exact State.setBit_keeps (State.addSat_keeps h0)
theorem State.inboxAdd_keeps {s₀ s : State} {a : Arrival} {issuer : Nat} {auth : Bool} {bytes : List Byte} (h0 : Keeps s₀ s) :
    Keeps s₀ (State.inboxAdd s a issuer auth bytes) := by
  unfold State.inboxAdd
  exact Keeps.upd (s := s) h0 rfl rfl rfl rfl
theorem State.route_keeps {s₀ s : State} {p : Nat} {f : Frame} (h0 : Keeps s₀ s) : Keeps s₀ (State.route s p f) := by
  unfold State.route
  extract_lets +onlyGivenNames x0
  refine Keeps.ite ?_ ?_
  · refine Keeps.ite ?_ ?_
    · exact Keeps.ite (State.returned_keeps h0) (State.sendOn_keeps h0)
    · refine Keeps.ite ?_ ?_
      · extract_lets +onlyGivenNames x1
        have h2 : Keeps s₀ x1 := by
          unfold x1
          exact State.inboxAdd_keeps h0
        clear_value x1
        exact Keeps.ite h2 (State.sendOn_keeps h2)
      · exact Keeps.ite (State.inboxAdd_keeps h0) (Keeps.ite (State.returned_keeps h0) (State.sendOn_keeps h0))
  · exact Keeps.ite (Keeps.ite (State.assemble_keeps h0) (State.sendOn_keeps h0)) (Keeps.upd (s := s) h0 rfl rfl rfl rfl)
theorem State.abortCopy_keeps {s₀ s : State} {p : Nat} {f : Frame} (h0 : Keeps s₀ s) : Keeps s₀ (State.abortCopy s p f) := by
  unfold State.abortCopy
  extract_lets +onlyGivenNames x0
  extract_lets +onlyGivenNames x1
  extract_lets +onlyGivenNames x2
  exact Keeps.ite (State.queueBlocks_keeps (State.setPort_keeps h0)) h0
theorem frameReceive_keeps {s₀ : State} {p : Nat} {f : RxFrame} {s : State} (h2 : Keeps s₀ s) : Keeps s₀ (frameReceive p f s) := by
  unfold frameReceive
  extract_lets +onlyGivenNames x0
  refine Keeps.ite ?_ ?_
  · exact h2
  · refine Keeps.ite ?_ ?_
    · extract_lets +onlyGivenNames x1
      have h2 : Keeps s₀ x1 := by
        unfold x1
        exact Keeps.ite (State.abortCopy_keeps h2) h2
      clear_value x1
      exact State.discard_keeps h2
    · refine Keeps.ite ?_ ?_
      · extract_lets +onlyGivenNames x3
        have h4 : Keeps s₀ x3 := by
          unfold x3
          exact Keeps.ite (State.abortCopy_keeps h2) h2
        clear_value x3
        exact State.sendAck_keeps (State.discard_keeps h4)
      · refine Keeps.ite ?_ ?_
        · extract_lets +onlyGivenNames x5
          have h6 : Keeps s₀ x5 := by
            unfold x5
            exact State.setPort_keeps h2
          clear_value x5
          extract_lets +onlyGivenNames x7
          have h8 : Keeps s₀ x7 := by
            unfold x7
            exact State.addWrap_keeps h6
          clear_value x7
          extract_lets +onlyGivenNames x9
          have h10 : Keeps s₀ x9 := by
            unfold x9
            exact State.route_keeps h8
          clear_value x9
          exact State.updateXoff_keeps (State.sendAck_keeps h10)
        · refine Keeps.ite ?_ ?_
          · extract_lets +onlyGivenNames x11
            have h12 : Keeps s₀ x11 := by
              unfold x11
              exact State.discard_keeps h2
            clear_value x11
            exact Keeps.ite h12 (State.sendAck_keeps (State.setPort_keeps h12))
          · exact State.sendAck_keeps (State.discard_keeps h2)
theorem segmentTimeout_keeps {s₀ s : State} (h0 : Keeps s₀ s) : Keeps s₀ (segmentTimeout s) := by
  unfold segmentTimeout
  split
  · rename_i v0 v1
    exact h0
  · rename_i v2 v3 v4
    extract_lets +onlyGivenNames x5
    extract_lets +onlyGivenNames x6
    have h7 : Keeps s₀ x6 := by
      unfold x6
      exact State.updateAssembly_keeps (Keeps.upd (s := s) h0 rfl rfl rfl rfl)
    clear_value x6
    exact State.portalXoffMoves_keeps (State.lossEntry_keeps h7)
theorem sheafWaitExpiry_keeps {s₀ s : State} (h0 : Keeps s₀ s) : Keeps s₀ (sheafWaitExpiry s) := by
  unfold sheafWaitExpiry
  split
  · rename_i v0 v1
    exact h0
  · rename_i v2 v3 v4
    exact State.closeTag_keeps h0
theorem tagFree_keeps {s₀ s : State} (h0 : Keeps s₀ s) : Keeps s₀ (tagFree s) := by
  unfold tagFree
  split
  · rename_i v0 v1
    exact h0
  · rename_i v2 v3 v4
    exact Keeps.upd (s := s) h0 rfl rfl rfl rfl
theorem State.moderate_keeps {s₀ s : State} {r : Nat} (h0 : Keeps s₀ s) : Keeps s₀ (State.moderate s r) := by
  unfold State.moderate
  extract_lets +onlyGivenNames x0
  extract_lets +onlyGivenNames x1
  extract_lets +onlyGivenNames x2
  exact Keeps.ite (State.signal_keeps (State.setRing_keeps h0)) (State.setRing_keeps h0)
theorem State.writeBack_keeps {s₀ s : State} {off v : Nat} (h0 : Keeps s₀ s) : Keeps s₀ (State.writeBack s off v) := by
  unfold State.writeBack
  exact Keeps.upd (s := s) h0 rfl rfl rfl rfl
theorem State.writeEntry_keeps {s₀ s : State} {r : Nat} {d : Delivery} {offset length : Nat} {bytes : List Byte} (h0 : Keeps s₀ s) :
    Keeps s₀ (State.writeEntry s r d offset length bytes) := by
  unfold State.writeEntry
  extract_lets +onlyGivenNames x0
  extract_lets +onlyGivenNames x1
  extract_lets +onlyGivenNames x2
  extract_lets +onlyGivenNames x3
  extract_lets +onlyGivenNames x4
  extract_lets +onlyGivenNames x5
  have h6 : Keeps s₀ x5 := by
    unfold x5
    exact Keeps.upd (s := s) h0 rfl rfl rfl rfl
  clear_value x5
  extract_lets +onlyGivenNames x7
  have h8 : Keeps s₀ x7 := by
    unfold x7
    exact State.writeBack_keeps (State.setBar_keeps h6)
  clear_value x7
  extract_lets +onlyGivenNames x9
  extract_lets +onlyGivenNames x10
  have h11 : Keeps s₀ x10 := by
    unfold x10
    exact Keeps.ite h8 (State.setRing_keeps h8)
  clear_value x10
  extract_lets +onlyGivenNames x12
  have h13 : Keeps s₀ x12 := by
    unfold x12
    exact State.prtStatus_keeps (State.addWrap_keeps h11)
  clear_value x12
  extract_lets +onlyGivenNames x14
  have h15 : Keeps s₀ x14 := by
    unfold x14
    refine Keeps.ite ?_ ?_
    · split
      · rename_i v16 v17 v18
        exact State.setTag_keeps h13
      · rename_i v19 v20
        exact h13
    · exact h13
  clear_value x14
  exact State.moderate_keeps h15
theorem State.closeOld_keeps {s₀ s : State} {r : Nat} (h0 : Keeps s₀ s) : Keeps s₀ (State.closeOld s r) := by
  unfold State.closeOld
  refine Keeps.ite ?_ ?_
  · split
    · rename_i v0 v1 v2
      exact State.closeTag_keeps h0
    · rename_i v3 v4
      exact h0
  · exact h0
theorem State.ackOwn_keeps {s₀ s : State} {d : Delivery} (h0 : Keeps s₀ s) : Keeps s₀ (State.ackOwn s d) := by
  unfold State.ackOwn
  split
  · rename_i v0 v1 v2 v3 v4 v5
    exact State.acknowledge_keeps h0
  · rename_i v6 v7
    exact h0
theorem State.ringFull_keeps {s₀ s : State} {r : Nat} (h0 : Keeps s₀ s) : Keeps s₀ (State.ringFull s r) := by
  unfold State.ringFull
  exact Keeps.ite h0 (State.portalXoffMoves_keeps (State.prtStatus_keeps (State.setRing_keeps h0)))
theorem State.easeRing_keeps {s₀ s : State} {r : Nat} (h0 : Keeps s₀ s) : Keeps s₀ (State.easeRing s r) :=
  State.portalXoffMoves_keeps (State.setRing_keeps h0)
theorem deliveryWrite_keeps {s₀ : State} {r : Nat} {s : State} (h1 : Keeps s₀ s) : Keeps s₀ (deliveryWrite r s) := by
  unfold deliveryWrite
  extract_lets +onlyGivenNames x0
  split
  · rename_i v1 v2
    exact h1
  · rename_i v3 v4 v5 v6
    extract_lets +onlyGivenNames x7
    extract_lets +onlyGivenNames x8
    refine Keeps.ite ?_ ?_
    · exact State.undelivered_keeps (State.setRing_keeps h1)
    · refine Keeps.ite ?_ ?_
      · extract_lets +onlyGivenNames x9
        extract_lets +onlyGivenNames x10
        have h11 : Keeps s₀ x10 := by
          unfold x10
          exact State.undelivered_keeps h1
        clear_value x10
        exact Keeps.ite (State.setRing_keeps h11) (Keeps.ite (State.writeEntry_keeps (State.setRing_keeps h11)) (State.setRing_keeps h11))
      · refine Keeps.ite ?_ ?_
        · exact State.ringFull_keeps h1
        · refine Keeps.ite ?_ ?_
          · extract_lets +onlyGivenNames x12
            have h13 : Keeps s₀ x12 := by
              unfold x12
              exact State.writeEntry_keeps h1
            clear_value x12
            exact State.setRing_keeps h13
          · extract_lets +onlyGivenNames x14
            have h15 : Keeps s₀ x14 := by
              unfold x14
              exact State.setRing_keeps h1
            clear_value x14
            exact State.easeRing_keeps (State.closeOld_keeps (State.ackOwn_keeps (State.writeEntry_keeps h15)))
theorem msixModTimeout_keeps {s₀ : State} {r : Nat} {s : State} (h1 : Keeps s₀ s) : Keeps s₀ (msixModTimeout r s) := by
  unfold msixModTimeout
  extract_lets +onlyGivenNames x0
  exact Keeps.ite (State.signal_keeps (State.setRing_keeps h1)) h1
theorem consWrite_keeps {s₀ : State} {r v : Nat} {s : State} (h2 : Keeps s₀ s) : Keeps s₀ (consWrite r v s) := by
  unfold consWrite
  extract_lets +onlyGivenNames x0
  have h1 : Keeps s₀ x0 := by
    unfold x0
    exact State.setBar_keeps h2
  clear_value x0
  exact State.easeRing_keeps (State.setRing_keeps h1)
theorem ctrlWrite_keeps {s₀ : State} {r v : Nat} {s : State} (h2 : Keeps s₀ s) : Keeps s₀ (ctrlWrite r v s) := by
  unfold ctrlWrite
  extract_lets +onlyGivenNames x0
  extract_lets +onlyGivenNames x1
  have h2 : Keeps s₀ x1 := by
    unfold x1
    exact State.setBar_keeps h2
  clear_value x1
  refine Keeps.ite ?_ ?_
  · exact State.setRing_keeps (State.setBar_keeps h2)
  · refine Keeps.ite ?_ ?_
    · extract_lets +onlyGivenNames x3
      extract_lets +onlyGivenNames x4
      extract_lets +onlyGivenNames x5
      have h6 : Keeps s₀ x5 := by
        unfold x5
        exact State.setRing_keeps h2
      clear_value x5
      refine State.portalXoffMoves_keeps ?_
      refine Keeps.foldl ?_ ?_
      · intro a7 y8 h9
        exact State.undelivered_keeps h9
      · exact h6
    · exact h2
theorem cmdTailWrite_keeps {s₀ : State} {v : Nat} {s : State} (h1 : Keeps s₀ s) : Keeps s₀ (cmdTailWrite v s) := by
  unfold cmdTailWrite
  exact State.setBar_keeps h1
theorem cmdCtrlWrite_keeps {s₀ : State} {v : Nat} {s : State} (h1 : Keeps s₀ s) : Keeps s₀ (cmdCtrlWrite v s) := by
  unfold cmdCtrlWrite
  exact State.setBar_keeps h1
theorem barWrite_keeps {s₀ : State} {off v : Nat} {s : State} (h2 : Keeps s₀ s) : Keeps s₀ (barWrite off v s) := by
  unfold barWrite
  refine Keeps.ite ?_ ?_
  · exact h2
  · refine Keeps.ite ?_ ?_
    · exact cmdTailWrite_keeps h2
    · refine Keeps.ite ?_ ?_
      · exact cmdCtrlWrite_keeps h2
      · refine Keeps.ite ?_ ?_
        · exact Keeps.ite h2 (State.setBar_keeps h2)
        · refine Keeps.ite ?_ ?_
          · exact State.setBar_keeps h2
          · refine Keeps.ite ?_ ?_
            · extract_lets +onlyGivenNames x0
              exact Keeps.ite h2 (State.setBar_keeps h2)
            · refine Keeps.ite ?_ ?_
              · extract_lets +onlyGivenNames x1
                exact Keeps.ite (consWrite_keeps h2) (Keeps.ite (State.setBar_keeps h2) (Keeps.ite (ctrlWrite_keeps h2) h2))
              · exact Keeps.ite (State.setBar_keeps h2) h2
theorem State.issue_keeps {s₀ s : State} {packet : List Byte} (h0 : Keeps s₀ s) : Keeps s₀ (State.issue s packet) := by
  unfold State.issue
  extract_lets +onlyGivenNames x0
  extract_lets +onlyGivenNames x1
  extract_lets +onlyGivenNames x2
  extract_lets +onlyGivenNames x3
  refine Keeps.ite ?_ ?_
  · exact State.inboxAdd_keeps h0
  · refine Keeps.ite ?_ ?_
    · extract_lets +onlyGivenNames x4
      have h5 : Keeps s₀ x4 := by
        unfold x4
        exact State.inboxAdd_keeps h0
      clear_value x4
      exact Keeps.ite (State.emit_keeps h5) h5
    · exact Keeps.ite (State.inboxAdd_keeps h0) (State.emit_keeps h0)
theorem commandRingFetch_keeps {s₀ : State} {e1 : Nat} {packet : List Byte} {s : State} (h2 : Keeps s₀ s) : Keeps s₀ (commandRingFetch e1 packet s) := by
  unfold commandRingFetch
  extract_lets +onlyGivenNames x0
  extract_lets +onlyGivenNames x1
  refine Keeps.ite ?_ ?_
  · exact h2
  · extract_lets +onlyGivenNames x2
    have h3 : Keeps s₀ x2 := by
      unfold x2
      exact State.signal_keeps (State.writeBack_keeps (State.setBar_keeps h2))
    clear_value x2
    extract_lets +onlyGivenNames x4
    exact Keeps.ite (State.prtStatus_keeps h3) (State.issue_keeps h3)
theorem State.logSession_keeps {s₀ s : State} {x : Session} (h0 : Keeps s₀ s) : Keeps s₀ (State.logSession s x) := by
  unfold State.logSession
  split
  · rename_i v0 v1 v2 v3
    have h4 : Keeps s₀ v2 := Keeps.of_snd v3 (State.takeFree_keeps h0)
    exact State.logEvent_keeps h4
theorem State.closeSession_keeps {s₀ s : State} (h0 : Keeps s₀ s) : Keeps s₀ (State.closeSession s) := by
  unfold State.closeSession
  split
  · rename_i v0 v1
    exact h0
  · rename_i v2 v3 v4
    exact State.logSession_keeps (Keeps.upd (s := s) h0 rfl rfl rfl rfl)
theorem pcieLinkUp_keeps {s₀ : State} {rate width : Nat} {s : State} (h2 : Keeps s₀ s) : Keeps s₀ (pcieLinkUp rate width s) := by
  unfold pcieLinkUp
  refine Keeps.ite ?_ ?_
  · exact h2
  · extract_lets +onlyGivenNames x0
    extract_lets +onlyGivenNames x1
    have h2 : Keeps s₀ x1 := by
      unfold x1
      exact Keeps.upd (s := s) h2 rfl rfl rfl rfl
    clear_value x1
    exact State.putBit_keeps (State.wrN_keeps h2)
theorem State.dropRing_keeps {s₀ s : State} {r : Nat} (h0 : Keeps s₀ s) : Keeps s₀ (State.dropRing s r) := by
  unfold State.dropRing
  extract_lets +onlyGivenNames x0
  extract_lets +onlyGivenNames x1
  extract_lets +onlyGivenNames x2
  have h3 : Keeps s₀ x2 := by
    unfold x2
    exact State.setRing_keeps h0
  clear_value x2
  refine Keeps.foldl ?_ ?_
  · intro a4 y5 h6
    exact State.undelivered_keeps h6
  · exact h3
theorem State.dropRings_keeps {s₀ s : State} (h0 : Keeps s₀ s) : Keeps s₀ (State.dropRings s) := by
  unfold State.dropRings
  refine Keeps.foldl ?_ ?_
  · intro a0 y1 h2
    exact State.dropRing_keeps h2
  · exact h0
theorem pcieLinkDown_keeps {s₀ s : State} (h0 : Keeps s₀ s) : Keeps s₀ (pcieLinkDown s) := by
  unfold pcieLinkDown
  refine Keeps.ite ?_ ?_
  · exact h0
  · extract_lets +onlyGivenNames x0
    have h1 : Keeps s₀ x0 := by
      unfold x0
      exact State.prtStatus_keeps h0
    clear_value x0
    extract_lets +onlyGivenNames x2
    extract_lets +onlyGivenNames x3
    have h4 : Keeps s₀ x3 := by
      unfold x3
      exact Keeps.upd (s := x0) h1 rfl rfl rfl rfl
    clear_value x3
    extract_lets +onlyGivenNames x5
    have h6 : Keeps s₀ x5 := by
      unfold x5
      exact State.dropRings_keeps (State.putBit_keeps (State.wrN_keeps h4))
    clear_value x5
    exact State.portalXoffMoves_keeps (State.closeSession_keeps h6)
theorem functionLevelReset_keeps {s₀ s : State} (h0 : Keeps s₀ s) : Keeps s₀ (functionLevelReset s) := by
  unfold functionLevelReset
  refine Keeps.ite ?_ ?_
  · exact h0
  · extract_lets +onlyGivenNames x0
    have h1 : Keeps s₀ x0 := by
      unfold x0
      exact State.dropRings_keeps h0
    clear_value x0
    extract_lets +onlyGivenNames x2
    extract_lets +onlyGivenNames x3
    have h4 : Keeps s₀ x3 := by
      unfold x3
      exact Keeps.upd (s := x0) h1 rfl rfl rfl rfl
    clear_value x3
    exact State.portalXoffMoves_keeps (State.closeSession_keeps h4)
theorem execFrameReceive_keeps {s₀ s : State} {t : Nat} {port : Fin 2} {frame : RxFrame} (h₀ : Keeps s₀ s) :
    ∃ u, execFrameReceive t port frame s = .next u ∧ Keeps s₀ u :=
  ⟨_, rfl, frameReceive_keeps (State.at__keeps h₀)⟩
theorem execSegmentTimeout_keeps {s₀ s : State} {t : Nat} (h₀ : Keeps s₀ s) :
    ∃ u, execSegmentTimeout t s = .next u ∧ Keeps s₀ u :=
  ⟨_, rfl, segmentTimeout_keeps (State.at__keeps h₀)⟩
theorem execSheafWaitExpiry_keeps {s₀ s : State} {t : Nat} (h₀ : Keeps s₀ s) :
    ∃ u, execSheafWaitExpiry t s = .next u ∧ Keeps s₀ u :=
  ⟨_, rfl, sheafWaitExpiry_keeps (State.at__keeps h₀)⟩
theorem execTagFree_keeps {s₀ s : State} {t : Nat} (h₀ : Keeps s₀ s) :
    ∃ u, execTagFree t s = .next u ∧ Keeps s₀ u :=
  ⟨_, rfl, tagFree_keeps (State.at__keeps h₀)⟩
theorem execDeliveryWrite_keeps {s₀ s : State} {t : Nat} {ring : Fin 8} (h₀ : Keeps s₀ s) :
    ∃ u, execDeliveryWrite t ring s = .next u ∧ Keeps s₀ u :=
  ⟨_, rfl, deliveryWrite_keeps (State.at__keeps h₀)⟩
theorem execMsixModTimeout_keeps {s₀ s : State} {t : Nat} {ring : Fin 8} (h₀ : Keeps s₀ s) :
    ∃ u, execMsixModTimeout t ring s = .next u ∧ Keeps s₀ u :=
  ⟨_, rfl, msixModTimeout_keeps (State.at__keeps h₀)⟩
theorem execConsWrite_keeps {s₀ s : State} {t : Nat} {ring : Fin 8} {value : Word} (h₀ : Keeps s₀ s) :
    ∃ u, execConsWrite t ring value s = .next u ∧ Keeps s₀ u :=
  ⟨_, rfl, consWrite_keeps (State.at__keeps h₀)⟩
theorem execCtrlWrite_keeps {s₀ s : State} {t : Nat} {ring : Fin 8} {value : Word} (h₀ : Keeps s₀ s) :
    ∃ u, execCtrlWrite t ring value s = .next u ∧ Keeps s₀ u :=
  ⟨_, rfl, ctrlWrite_keeps (State.at__keeps h₀)⟩
theorem execCmdTailWrite_keeps {s₀ s : State} {t : Nat} {value : Word} (h₀ : Keeps s₀ s) :
    ∃ u, execCmdTailWrite t value s = .next u ∧ Keeps s₀ u :=
  ⟨_, rfl, cmdTailWrite_keeps (State.at__keeps h₀)⟩
theorem execCmdCtrlWrite_keeps {s₀ s : State} {t : Nat} {value : Word} (h₀ : Keeps s₀ s) :
    ∃ u, execCmdCtrlWrite t value s = .next u ∧ Keeps s₀ u :=
  ⟨_, rfl, cmdCtrlWrite_keeps (State.at__keeps h₀)⟩
theorem execBar0RegisterWrite_keeps {s₀ s : State} {t : Nat} {offset : BitVec 16} {value : Word} (h₀ : Keeps s₀ s) :
    ∃ u, execBar0RegisterWrite t offset value s = .next u ∧ Keeps s₀ u :=
  ⟨_, rfl, barWrite_keeps (State.at__keeps h₀)⟩
theorem execCommandRingFetch_keeps {s₀ s : State} {t : Nat} {_entry0 entry1 : BitVec 64} {packet : List Byte} (h₀ : Keeps s₀ s) :
    ∃ u, execCommandRingFetch t _entry0 entry1 packet s = .next u ∧ Keeps s₀ u :=
  ⟨_, rfl, commandRingFetch_keeps (State.at__keeps h₀)⟩
theorem execPcieLinkUp_keeps {s₀ s : State} {t : Nat} {rate : Fin 8} {width : Fin 16} (h₀ : Keeps s₀ s) :
    ∃ u, execPcieLinkUp t rate width s = .next u ∧ Keeps s₀ u :=
  ⟨_, rfl, pcieLinkUp_keeps (State.at__keeps h₀)⟩
theorem execPcieLinkDown_keeps {s₀ s : State} {t : Nat} (h₀ : Keeps s₀ s) :
    ∃ u, execPcieLinkDown t s = .next u ∧ Keeps s₀ u :=
  ⟨_, rfl, pcieLinkDown_keeps (State.at__keeps h₀)⟩
theorem execFunctionLevelReset_keeps {s₀ s : State} {t : Nat} (h₀ : Keeps s₀ s) :
    ∃ u, execFunctionLevelReset t s = .next u ∧ Keeps s₀ u :=
  ⟨_, rfl, functionLevelReset_keeps (State.at__keeps h₀)⟩

/-! ### Mgt -/

theorem State.setKeySlot_keeps {s₀ s : State} {k : Nat} {x : KeySlot} (h0 : Keeps s₀ s) : Keeps s₀ (State.setKeySlot s k x) := by
  unfold State.setKeySlot
  exact State.setMgt_keeps h0
theorem State.failOpen_keeps {s₀ s : State} {h : Hdr} (h0 : Keeps s₀ s) : Keeps s₀ (State.failOpen s h) := by
  unfold State.failOpen
  extract_lets +onlyGivenNames x0
  extract_lets +onlyGivenNames x1
  have h2 : Keeps s₀ x1 := by
    unfold x1
    exact State.logEvent_keeps (State.setBit_keeps h0)
  clear_value x1
  exact Keeps.ite (State.setMgt_keeps h2) (State.setMgt_keeps h2)
theorem State.openSession_keeps {s₀ s : State} {key lifetime : Nat} (h0 : Keeps s₀ s) : Keeps s₀ (State.openSession s key lifetime) := by
  unfold State.openSession
  extract_lets +onlyGivenNames x0
  exact State.logSession_keeps (State.setMgt_keeps h0)
theorem openChallenge_keeps {s₀ : State} {p : List Word} {s : State} (h1 : Keeps s₀ s) : Keeps s₀ (openChallenge p s).1 := by
  unfold openChallenge
  refine Keeps.ite₁ ?_ ?_
  · exact refuse_keeps h1
  · refine Keeps.ite₁ ?_ ?_
    · exact refuse_keeps h1
    · extract_lets +onlyGivenNames x0
      exact okay_keeps (State.setMgt_keeps h1)
theorem openResponse_keeps {s₀ : State} {h : Hdr} {p : List Word} {s : State} (h2 : Keeps s₀ s) : Keeps s₀ (openResponse h p s).1 := by
  unfold openResponse
  extract_lets +onlyGivenNames x0
  extract_lets +onlyGivenNames x1
  extract_lets +onlyGivenNames x2
  extract_lets +onlyGivenNames x3
  refine Keeps.ite₁ ?_ ?_
  · exact refuse_keeps h2
  · refine Keeps.ite₁ ?_ ?_
    · exact refuse_keeps h2
    · refine Keeps.ite₁ ?_ ?_
      · exact refuse_keeps h2
      · split
        · rename_i v4 v5
          exact refuse_keeps (State.failOpen_keeps h2)
        · rename_i v6 v7 v8
          exact Keeps.ite₁ (okay_keeps (State.openSession_keeps h2)) (refuse_keeps (State.failOpen_keeps h2))
theorem mgtOpenBody_keeps {s₀ : State} {h : Hdr} {p : List Word} {s : State} (h2 : Keeps s₀ s) : Keeps s₀ (mgtOpenBody h p s).1 := by
  unfold mgtOpenBody
  exact Keeps.ite₁ (refuse_keeps h2) (Keeps.ite₁ (openChallenge_keeps h2) (openResponse_keeps h2))
theorem mgtCloseBody_keeps {s₀ : State} {p : List Word} {s : State} (h1 : Keeps s₀ s) : Keeps s₀ (mgtCloseBody p s).1 := by
  unfold mgtCloseBody
  exact Keeps.ite₁ (refuse_keeps h1) (okay_keeps (State.closeSession_keeps h1))
theorem nonceExpiry_keeps {s₀ s : State} (h0 : Keeps s₀ s) : Keeps s₀ (nonceExpiry s) := by
  unfold nonceExpiry
  split
  · rename_i v0 v1 v2 v3
    exact Keeps.ite (State.setMgt_keeps h0) h0
  · rename_i v4 v5
    exact h0
theorem sessionExpiry_keeps {s₀ s : State} (h0 : Keeps s₀ s) : Keeps s₀ (sessionExpiry s) := by
  unfold sessionExpiry
  split
  · rename_i v0 v1 v2
    exact Keeps.ite (State.closeSession_keeps h0) h0
  · rename_i v3 v4
    exact h0
theorem openLockoutEnd_keeps {s₀ s : State} (h0 : Keeps s₀ s) : Keeps s₀ (openLockoutEnd s) := by
  unfold openLockoutEnd
  split
  · rename_i v0 v1 v2
    exact Keeps.ite (State.setMgt_keeps h0) h0
  · rename_i v3 v4
    exact h0
theorem State.appendLog_keeps {s₀ s : State} {e : LogEntry} (h0 : Keeps s₀ s) : Keeps s₀ (State.appendLog s e).1 := by
  unfold State.appendLog
  extract_lets +onlyGivenNames x0
  extract_lets +onlyGivenNames x1
  extract_lets +onlyGivenNames x2
  exact Keeps.fst_mk (State.wrN_keeps (State.setMgt_keeps h0))
theorem State.writeLog_keeps {s₀ s : State} {e : LogEntry} (h0 : Keeps s₀ s) : Keeps s₀ (State.writeLog s e) := by
  unfold State.writeLog
  split
  · rename_i v0 v1 v2 v3
    have h4 : Keeps s₀ v1 := Keeps.of_fst v3 (State.appendLog_keeps h0)
    refine Keeps.ite ?_ ?_
    · exact h4
    · extract_lets +onlyGivenNames x5
      extract_lets +onlyGivenNames x6
      refine Keeps.ite ?_ ?_
      · exact State.setMgt_keeps h4
      · extract_lets +onlyGivenNames x7
        extract_lets +onlyGivenNames x8
        have h9 : Keeps s₀ x8 := by
          unfold x8
          exact State.setBit_keeps (State.setMgt_keeps h4)
        clear_value x8
        exact Keeps.ite (State.appendLog_keeps h9) h9
theorem State.flushLog_keeps {s₀ s : State} {before : Nat} (h0 : Keeps s₀ s) : Keeps s₀ (State.flushLog s before) := by
  unfold State.flushLog
  extract_lets +onlyGivenNames x0
  extract_lets +onlyGivenNames x1
  extract_lets +onlyGivenNames x2
  have h3 : Keeps s₀ x2 := by
    unfold x2
    exact State.setMgt_keeps h0
  clear_value x2
  refine Keeps.foldl ?_ ?_
  · intro a4 y5 h6
    exact State.writeLog_keeps h6
  · exact h3
theorem logPersist_keeps {s₀ s : State} (h0 : Keeps s₀ s) : Keeps s₀ (logPersist s) := by
  unfold logPersist
  split
  · rename_i v0 v1
    exact h0
  · rename_i v2 v3 v4 v5
    refine Keeps.ite ?_ ?_
    · exact h0
    · extract_lets +onlyGivenNames x6
      exact State.setMgt_keeps h0
theorem mgtLogBody_keeps {s₀ s : State} {p : List Word} (h : Keeps s₀ s) : Keeps s₀ (mgtLogBody p s).1 := by
  unfold mgtLogBody
  extract_lets count log es
  refine Keeps.ite₁ (refuse_keeps h) (Keeps.ite₁ (refuse_keeps h) ?_)
  clear_value es log
  cases log
  · exact okay_keeps (State.takeFree_keeps h)
  · exact okay_keeps h
theorem State.queueSelect_keeps {s₀ s : State} {c : Nat} {source : Option Nat} (h0 : Keeps s₀ s) : Keeps s₀ (State.queueSelect s c source) := by
  unfold State.queueSelect
  exact State.setMgt_keeps h0
theorem State.applySelect_keeps {s₀ s : State} {x : Nat × Option Nat} (h0 : Keeps s₀ s) : Keeps s₀ (State.applySelect s x) := by
  unfold State.applySelect
  extract_lets +onlyGivenNames x0
  extract_lets +onlyGivenNames x1
  exact State.setMgt_keeps h0
theorem State.publishCounter_keeps {s₀ s : State} {c : Nat} (h0 : Keeps s₀ s) : Keeps s₀ (State.publishCounter s c) := by
  unfold State.publishCounter
  extract_lets +onlyGivenNames x0
  extract_lets +onlyGivenNames x1
  exact State.wr64_keeps (State.wr64_keeps h0)
theorem State.exchangeCounters_keeps {s₀ s : State} (h0 : Keeps s₀ s) : Keeps s₀ (State.exchangeCounters s) := by
  unfold State.exchangeCounters
  extract_lets +onlyGivenNames x0
  have h1 : Keeps s₀ x0 := by
    unfold x0
    refine Keeps.foldl ?_ ?_
    · intro a2 y3 h4
      exact State.publishCounter_keeps h4
    · exact h0
  clear_value x0
  extract_lets +onlyGivenNames x5
  extract_lets +onlyGivenNames x6
  have h7 : Keeps s₀ x6 := by
    unfold x6
    refine Keeps.foldl ?_ ?_
    · intro a8 y9 h10
      exact State.applySelect_keeps h10
    · exact State.setMgt_keeps h1
  clear_value x6
  refine Keeps.foldl ?_ ?_
  · intro a11 y12 h13
    exact State.publishCounter_keeps h13
  · exact h7
theorem mgtCntBody_keeps {s₀ : State} {p : List Word} {s : State} (h1 : Keeps s₀ s) : Keeps s₀ (mgtCntBody p s).1 := by
  unfold mgtCntBody
  extract_lets +onlyGivenNames x0
  extract_lets +onlyGivenNames x1
  refine Keeps.ite₁ ?_ ?_
  · exact refuse_keeps h1
  · refine Keeps.ite₁ ?_ ?_
    · exact refuse_keeps h1
    · refine Keeps.ite₁ ?_ ?_
      · exact okay_keeps h1
      · refine Keeps.ite₁ ?_ ?_
        · refine okay_keeps ?_
          refine Keeps.foldl ?_ ?_
          · intro a2 y3 h4
            exact State.queueSelect_keeps (State.wrN_keeps h4)
          · exact h1
        · refine okay_keeps ?_
          refine Keeps.foldl ?_ ?_
          · intro a5 y6 h7
            exact State.queueSelect_keeps h7
          · exact h1
theorem mgtFwWriteBody_keeps {s₀ : State} {h : Hdr} {p : List Word} {s : State} (h2 : Keeps s₀ s) : Keeps s₀ (mgtFwWriteBody h p s).1 := by
  unfold mgtFwWriteBody
  extract_lets +onlyGivenNames x0
  extract_lets +onlyGivenNames x1
  extract_lets +onlyGivenNames x2
  extract_lets +onlyGivenNames x3
  exact Keeps.ite₁ (refuse_keeps h2) (Keeps.ite₁ (refuse_keeps h2) (Keeps.ite₁ (refuse_keeps h2) (Keeps.fst_mk (State.queueFlash_keeps h2))))
theorem fwWriteComplete_keeps {s₀ : State} {good : Bool} {s : State} (h1 : Keeps s₀ s) : Keeps s₀ (fwWriteComplete good s) := by
  unfold fwWriteComplete
  split
  · rename_i v0 v1 v2 v3
    extract_lets +onlyGivenNames x4
    extract_lets +onlyGivenNames x5
    extract_lets +onlyGivenNames x6
    extract_lets +onlyGivenNames x7
    extract_lets +onlyGivenNames x8
    have h_x8 : ∀ {b9 : State} {b11 : Nat}, Keeps s₀ b9 → Keeps s₀ (x8 b9 b11).1 := by
      intro b9 b11 h12
      unfold x8
      extract_lets +onlyGivenNames x13
      exact Keeps.fst_mk (State.setFlash_keeps h12)
    split
    · rename_i v14 v15 v16 v17
      have h18 : Keeps s₀ v15 := by
        refine Keeps.of_fst v17 ?_
        refine Keeps.ite₁ ?_ ?_
        · extract_lets +onlyGivenNames x19
          have h20 : Keeps s₀ x19.1 := by
            unfold x19
            exact h_x8 h1
          clear_value x19
          extract_lets +onlyGivenNames x21
          have h22 : Keeps s₀ x21.1 := by
            unfold x21
            exact h_x8 h20
          clear_value x21
          exact h22
        · exact h_x8 h1
      exact State.finish_keeps (State.endFlash_keeps h18)
  · rename_i v23 v24
    exact h1
theorem mgtFwCommitBody_keeps {s₀ : State} {h : Hdr} {p : List Word} {s : State} (h2 : Keeps s₀ s) : Keeps s₀ (mgtFwCommitBody h p s).1 := by
  unfold mgtFwCommitBody
  extract_lets +onlyGivenNames x0
  extract_lets +onlyGivenNames x1
  exact Keeps.ite₁ (refuse_keeps h2) (Keeps.ite₁ (refuse_keeps h2) (Keeps.ite₁ (refuse_keeps h2) (Keeps.fst_mk (State.queueFlash_keeps h2))))
theorem State.applyKey_keeps {s₀ s : State} {e : KeyEntry} (h0 : Keeps s₀ s) : Keeps s₀ (State.applyKey s e) := by
  unfold State.applyKey
  extract_lets +onlyGivenNames x0
  extract_lets +onlyGivenNames x1
  have h2 : Keeps s₀ x1 := by
    unfold x1
    exact State.logEvent_keeps h0
  clear_value x1
  split
  · rename_i v3 v4 v5
    exact State.setKeySlot_keeps h2
  · rename_i v6 v7
    extract_lets +onlyGivenNames x8
    have h9 : Keeps s₀ x8 := by
      unfold x8
      exact State.setKeySlot_keeps h2
    clear_value x8
    split
    · rename_i v10 v11 v12
      exact Keeps.ite (State.closeSession_keeps h9) h9
    · rename_i v13 v14
      exact h9
theorem State.commitKeys_keeps {s₀ s : State} (h0 : Keeps s₀ s) : Keeps s₀ (State.commitKeys s).1 := by
  unfold State.commitKeys
  extract_lets +onlyGivenNames x0
  extract_lets +onlyGivenNames x1
  extract_lets +onlyGivenNames x2
  extract_lets +onlyGivenNames x3
  split
  · rename_i v4 v5 v6 v7
    extract_lets +onlyGivenNames x8
    refine Keeps.ite₁ ?_ ?_
    · exact h0
    · refine Keeps.ite₁ ?_ ?_
      · exact Keeps.fst_mk (State.setBit_keeps h0)
      · split
        · rename_i v9 v10
          exact h0
        · rename_i v11 v12 v13
          refine Keeps.ite₁ ?_ ?_
          · refine Keeps.fst_mk ?_
            refine Keeps.foldl ?_ ?_
            · intro a14 y15 h16
              exact State.applyKey_keeps h16
            · exact h0
          · exact h0
theorem fwCommitComplete_keeps {s₀ s : State} (h0 : Keeps s₀ s) : Keeps s₀ (fwCommitComplete s) := by
  unfold fwCommitComplete
  split
  · rename_i v0 v1 v2 v3
    refine Keeps.ite ?_ ?_
    · exact State.finish_keeps (State.endFlash_keeps h0)
    · extract_lets +onlyGivenNames x4
      extract_lets +onlyGivenNames x5
      extract_lets +onlyGivenNames x6
      extract_lets +onlyGivenNames x7
      have h8 : Keeps s₀ x7 := by
        unfold x7
        exact State.logEvent_keeps (State.setFlash_keeps h0)
      clear_value x7
      exact State.finish_keeps (State.endFlash_keeps h8)
  · rename_i v9 v10 v11 v12
    extract_lets +onlyGivenNames x13
    extract_lets +onlyGivenNames x14
    extract_lets +onlyGivenNames x15
    extract_lets +onlyGivenNames x16
    have h17 : Keeps s₀ x16 := by
      unfold x16
      exact State.setFlash_keeps h0
    clear_value x16
    extract_lets +onlyGivenNames x18
    extract_lets +onlyGivenNames x19
    extract_lets +onlyGivenNames x20
    have h21 : Keeps s₀ x20 := by
      unfold x20
      exact State.setMgt_keeps h17
    clear_value x20
    extract_lets +onlyGivenNames x22
    have h23 : Keeps s₀ x22 := by
      unfold x22
      exact State.logEvent_keeps (State.wrN_keeps (State.wrN_keeps h21))
    clear_value x22
    exact State.finish_keeps (State.endFlash_keeps h23)
  · rename_i v24 v25 v26 v27 v28 v29 v30
    split
    · rename_i v31 v32 v33 v34
      have h35 : Keeps s₀ v32 := Keeps.of_fst v34 (State.commitKeys_keeps h0)
      exact State.finish_keeps (State.endFlash_keeps h35)
  · rename_i v36 v37 v38 v39
    exact h0
theorem State.failTrial_keeps {s₀ s : State} {d : Nat} (h0 : Keeps s₀ s) : Keeps s₀ (State.failTrial s d) := by
  unfold State.failTrial
  extract_lets +onlyGivenNames x0
  exact Keeps.ite (State.logEvent_keeps (State.setBit_keeps (State.setFlash_keeps h0))) h0
theorem State.loadKeys_keeps {s₀ s : State} (h0 : Keeps s₀ s) : Keeps s₀ (State.loadKeys s) := by
  unfold State.loadKeys
  extract_lets +onlyGivenNames x0
  extract_lets +onlyGivenNames x1
  refine Keeps.foldl ?_ ?_
  · intro a2 y3 h4
    extract_lets +onlyGivenNames x5
    extract_lets +onlyGivenNames x6
    exact Keeps.ite (State.setKeySlot_keeps h4) h4
  · exact h0
theorem State.bootSelect_keeps {s₀ s : State} (h0 : Keeps s₀ s) : Keeps s₀ (State.bootSelect s) := by
  unfold State.bootSelect
  extract_lets +onlyGivenNames x0
  have h1 : Keeps s₀ x0 := by
    unfold x0
    exact State.failTrial_keeps (State.failTrial_keeps h0)
  clear_value x0
  split
  · rename_i v2 v3
    exact Keeps.upd (s := x0) h1 rfl rfl rfl rfl
  · rename_i v4 v5 v6
    extract_lets +onlyGivenNames x7
    extract_lets +onlyGivenNames x8
    extract_lets +onlyGivenNames x9
    extract_lets +onlyGivenNames x10
    have h11 : Keeps s₀ x10 := by
      unfold x10
      exact State.setFlash_keeps h1
    clear_value x10
    extract_lets +onlyGivenNames x12
    extract_lets +onlyGivenNames x13
    have h14 : Keeps s₀ x13 := by
      unfold x13
      exact Keeps.ite h11 (State.setMgt_keeps h11)
    clear_value x13
    extract_lets +onlyGivenNames x15
    have h16 : Keeps s₀ x15 := by
      unfold x15
      exact State.wrN_keeps (State.wrN_keeps (State.wrN_keeps h14))
    clear_value x15
    extract_lets +onlyGivenNames x17
    have h18 : Keeps s₀ x17 := by
      unfold x17
      exact State.wrN_keeps (State.wrN_keeps h16)
    clear_value x17
    extract_lets +onlyGivenNames x19
    have h20 : Keeps s₀ x19 := by
      unfold x19
      exact State.logEvent_keeps h18
    clear_value x19
    exact State.loadKeys_keeps (Keeps.upd (s := x19) h20 rfl rfl rfl rfl)
theorem attestMeasure_keeps {s₀ : State} {h : Hdr} {p : List Word} {s : State} (h2 : Keeps s₀ s) : Keeps s₀ (attestMeasure h p s).1 := by
  unfold attestMeasure
  exact Keeps.ite₁ (refuse_keeps h2) (Keeps.ite₁ (refuse_keeps h2) (Keeps.fst_mk (State.setMgt_keeps h2)))
theorem attestCert_keeps {s₀ : State} {p : List Word} {s : State} (h1 : Keeps s₀ s) : Keeps s₀ (attestCert p s).1 := by
  unfold attestCert
  refine Keeps.ite₁ ?_ ?_
  · exact refuse_keeps h1
  · extract_lets +onlyGivenNames x0
    extract_lets +onlyGivenNames x1
    exact okay_keeps h1
theorem attestBody_keeps {s₀ : State} {h : Hdr} {p : List Word} {s : State} (h2 : Keeps s₀ s) : Keeps s₀ (attestBody h p s).1 := by
  unfold attestBody
  exact Keeps.ite₁ (refuse_keeps h2) (Keeps.ite₁ (attestMeasure_keeps h2) (attestCert_keeps h2))
theorem attestSignatureDone_keeps {s₀ s : State} (h0 : Keeps s₀ s) : Keeps s₀ (attestSignatureDone s) := by
  unfold attestSignatureDone
  split
  · rename_i v0 v1
    exact h0
  · rename_i v2 v3 v4 v5 v6
    extract_lets +onlyGivenNames x7
    exact State.finish_keeps (State.setMgt_keeps h0)
theorem execMgtOpenChallenge_keeps {s₀ s : State} {h : Hdr} {p : List Word} (h₀ : Keeps s₀ s) :
    ∃ u, execMgtOpenChallenge h p s = .next u ∧ Keeps s₀ u :=
  ⟨_, rfl, State.receive_keeps h₀ fun _ h₁ => mgtOpenBody_keeps h₁⟩
theorem execMgtOpenResponse_keeps {s₀ s : State} {h : Hdr} {p : List Word} (h₀ : Keeps s₀ s) :
    ∃ u, execMgtOpenResponse h p s = .next u ∧ Keeps s₀ u :=
  ⟨_, rfl, State.receive_keeps h₀ fun _ h₁ => mgtOpenBody_keeps h₁⟩
theorem execMgtClose_keeps {s₀ s : State} {h : Hdr} {p : List Word} (h₀ : Keeps s₀ s) :
    ∃ u, execMgtClose h p s = .next u ∧ Keeps s₀ u :=
  ⟨_, rfl, State.receive_keeps h₀ fun _ h₁ => mgtCloseBody_keeps h₁⟩
theorem execNonceExpiry_keeps {s₀ s : State} {t : Nat} (h₀ : Keeps s₀ s) :
    ∃ u, execNonceExpiry t s = .next u ∧ Keeps s₀ u :=
  ⟨_, rfl, nonceExpiry_keeps (State.at__keeps h₀)⟩
theorem execSessionExpiry_keeps {s₀ s : State} {t : Nat} (h₀ : Keeps s₀ s) :
    ∃ u, execSessionExpiry t s = .next u ∧ Keeps s₀ u :=
  ⟨_, rfl, sessionExpiry_keeps (State.at__keeps h₀)⟩
theorem execOpenLockoutEnd_keeps {s₀ s : State} {t : Nat} (h₀ : Keeps s₀ s) :
    ∃ u, execOpenLockoutEnd t s = .next u ∧ Keeps s₀ u :=
  ⟨_, rfl, openLockoutEnd_keeps (State.at__keeps h₀)⟩
theorem execLogPersist_keeps {s₀ s : State} {t : Nat} (h₀ : Keeps s₀ s) :
    ∃ u, execLogPersist t s = .next u ∧ Keeps s₀ u :=
  ⟨_, rfl, logPersist_keeps (State.at__keeps h₀)⟩
theorem execMgtLog_keeps {s₀ s : State} {h : Hdr} {p : List Word} (h₀ : Keeps s₀ s) :
    ∃ u, execMgtLog h p s = .next u ∧ Keeps s₀ u :=
  ⟨_, rfl, State.receive_keeps h₀ fun _ h₁ => mgtLogBody_keeps h₁⟩
theorem execMgtCntRead_keeps {s₀ s : State} {h : Hdr} {p : List Word} (h₀ : Keeps s₀ s) :
    ∃ u, execMgtCntRead h p s = .next u ∧ Keeps s₀ u :=
  ⟨_, rfl, State.receive_keeps h₀ fun _ h₁ => mgtCntBody_keeps h₁⟩
theorem execMgtCntSelect_keeps {s₀ s : State} {h : Hdr} {p : List Word} (h₀ : Keeps s₀ s) :
    ∃ u, execMgtCntSelect h p s = .next u ∧ Keeps s₀ u :=
  ⟨_, rfl, State.receive_keeps h₀ fun _ h₁ => mgtCntBody_keeps h₁⟩
theorem execMgtCntClear_keeps {s₀ s : State} {h : Hdr} {p : List Word} (h₀ : Keeps s₀ s) :
    ∃ u, execMgtCntClear h p s = .next u ∧ Keeps s₀ u :=
  ⟨_, rfl, State.receive_keeps h₀ fun _ h₁ => mgtCntBody_keeps h₁⟩
theorem execMgtFwWrite_keeps {s₀ s : State} {h : Hdr} {p : List Word} (h₀ : Keeps s₀ s) :
    ∃ u, execMgtFwWrite h p s = .next u ∧ Keeps s₀ u :=
  ⟨_, rfl, State.receive_keeps h₀ fun _ h₁ => mgtFwWriteBody_keeps h₁⟩
theorem execFwWriteComplete_keeps {s₀ s : State} {t : Nat} {readBackGood : Bool} (h₀ : Keeps s₀ s) :
    ∃ u, execFwWriteComplete t readBackGood s = .next u ∧ Keeps s₀ u :=
  ⟨_, rfl, fwWriteComplete_keeps (State.at__keeps h₀)⟩
theorem execMgtFwCommitCommit_keeps {s₀ s : State} {h : Hdr} {p : List Word} (h₀ : Keeps s₀ s) :
    ∃ u, execMgtFwCommitCommit h p s = .next u ∧ Keeps s₀ u :=
  ⟨_, rfl, State.receive_keeps h₀ fun _ h₁ => mgtFwCommitBody_keeps h₁⟩
theorem execMgtFwCommitConfirm_keeps {s₀ s : State} {h : Hdr} {p : List Word} (h₀ : Keeps s₀ s) :
    ∃ u, execMgtFwCommitConfirm h p s = .next u ∧ Keeps s₀ u :=
  ⟨_, rfl, State.receive_keeps h₀ fun _ h₁ => mgtFwCommitBody_keeps h₁⟩
theorem execMgtFwCommitKeys_keeps {s₀ s : State} {h : Hdr} {p : List Word} (h₀ : Keeps s₀ s) :
    ∃ u, execMgtFwCommitKeys h p s = .next u ∧ Keeps s₀ u :=
  ⟨_, rfl, State.receive_keeps h₀ fun _ h₁ => mgtFwCommitBody_keeps h₁⟩
theorem execFwCommitComplete_keeps {s₀ s : State} {t : Nat} (h₀ : Keeps s₀ s) :
    ∃ u, execFwCommitComplete t s = .next u ∧ Keeps s₀ u :=
  ⟨_, rfl, fwCommitComplete_keeps (State.at__keeps h₀)⟩
theorem execAttestMeasure_keeps {s₀ s : State} {h : Hdr} {p : List Word} (h₀ : Keeps s₀ s) :
    ∃ u, execAttestMeasure h p s = .next u ∧ Keeps s₀ u :=
  ⟨_, rfl, State.receive_keeps h₀ fun _ h₁ => attestBody_keeps h₁⟩
theorem execAttestCert_keeps {s₀ s : State} {h : Hdr} {p : List Word} (h₀ : Keeps s₀ s) :
    ∃ u, execAttestCert h p s = .next u ∧ Keeps s₀ u :=
  ⟨_, rfl, State.receive_keeps h₀ fun _ h₁ => attestBody_keeps h₁⟩
theorem execAttestSignatureDone_keeps {s₀ s : State} {t : Nat} (h₀ : Keeps s₀ s) :
    ∃ u, execAttestSignatureDone t s = .next u ∧ Keeps s₀ u :=
  ⟨_, rfl, attestSignatureDone_keeps (State.at__keeps h₀)⟩

/-! ### Compare -/

theorem State.releaseAll_keeps {s₀ s : State} {xs : List HeldItem} (h0 : Keeps s₀ s) : Keeps s₀ (State.releaseAll s xs) := by
  unfold State.releaseAll
  refine Keeps.foldl ?_ ?_
  · intro a0 y1 h2
    exact State.release_keeps (Keeps.upd (s := a0) h2 rfl rfl rfl rfl)
  · exact h0
theorem State.releaseHeld_keeps {s₀ s : State} {d : Nat} (h0 : Keeps s₀ s) : Keeps s₀ (State.releaseHeld s d) := by
  unfold State.releaseHeld
  exact State.releaseAll_keeps (State.setDie_keeps h0)
theorem State.discardHeld_keeps {s₀ s : State} (h0 : Keeps s₀ s) : Keeps s₀ (State.discardHeld s) := by
  unfold State.discardHeld
  exact State.setDie_keeps (State.setDie_keeps h0)
theorem State.mismatch_keeps {s₀ s : State} {kind slot : Nat} {checks : optParam (Two (Option Nat)) { a := none, b := none }} (h0 : Keeps s₀ s) :
    Keeps s₀ (State.mismatch s kind slot checks) := by
  unfold State.mismatch
  refine Keeps.ite ?_ ?_
  · exact h0
  · extract_lets +onlyGivenNames x0
    extract_lets +onlyGivenNames x1
    have h2 : Keeps s₀ x1 := by
      unfold x1
      exact Keeps.upd (s := s) h0 rfl rfl rfl rfl
    clear_value x1
    exact State.send_keeps (State.wr64_keeps (State.addSat_keeps (State.setBit_keeps h2)))
theorem State.clearEvidence_keeps {s₀ s : State} (h0 : Keeps s₀ s) : Keeps s₀ (State.clearEvidence s) := by
  unfold State.clearEvidence
  exact State.setDie_keeps (State.setDie_keeps h0)
theorem State.reportSources_keeps {s₀ s : State} {slot : Nat} (h0 : Keeps s₀ s) : Keeps s₀ (State.reportSources s slot) := by
  unfold State.reportSources
  extract_lets +onlyGivenNames x0
  extract_lets +onlyGivenNames x1
  refine Keeps.foldl ?_ ?_
  · intro a2 y3 h4
    split
    · rename_i v5 v6 v7 v8
      have h9 : Keeps s₀ v7 := Keeps.of_snd v8 (State.takeFree_keeps h4)
      split
      · rename_i v10 v11 v12 v13
        have h14 : Keeps s₀ v12 := Keeps.of_snd v13 (State.takeFree_keeps h9)
        exact State.logEvent_keeps h14
  · exact Keeps.upd (s := s) h0 rfl rfl rfl rfl
theorem State.releasePair_keeps {s₀ s : State} {x : HeldItem} (h0 : Keeps s₀ s) : Keeps s₀ (State.releasePair s x) := by
  unfold State.releasePair
  extract_lets +onlyGivenNames x0
  have h1 : Keeps s₀ x0 := by
    unfold x0
    exact State.releaseAll_keeps h0
  clear_value x0
  split
  · rename_i v2 v3 v4 v5 v6 v7 v8
    exact State.reportSources_keeps (State.clearEvidence_keeps h1)
  · rename_i v9 v10
    exact h1
theorem State.compareItem_keeps {s₀ s : State} {d : Nat} {x : HeldItem} (h0 : Keeps s₀ s) : Keeps s₀ (State.compareItem s d x) := by
  unfold State.compareItem
  extract_lets +onlyGivenNames x0
  split
  · rename_i v1 v2
    exact State.setDie_keeps h0
  · rename_i v3 v4 v5
    split
    · rename_i v6 v7 v8 v9
      split
      · rename_i v10 v11
        extract_lets +onlyGivenNames x12
        extract_lets +onlyGivenNames x13
        have h14 : Keeps s₀ x13 := by
          unfold x13
          exact State.setDie_keeps h0
        clear_value x13
        exact State.releasePair_keeps h14
      · rename_i v15 v16 v17 v18
        extract_lets +onlyGivenNames x19
        extract_lets +onlyGivenNames x20
        have h21 : Keeps s₀ x20 := by
          unfold x20
          exact State.setDie_keeps h0
        clear_value x20
        exact State.mismatch_keeps h21
theorem State.takeItem_keeps {s₀ s : State} {d : Nat} {x : HeldItem} (h0 : Keeps s₀ s) : Keeps s₀ (State.takeItem s d x) := by
  unfold State.takeItem
  refine Keeps.ite ?_ ?_
  · exact h0
  · refine Keeps.ite ?_ ?_
    · exact Keeps.ite (State.releaseAll_keeps h0) h0
    · exact Keeps.ite h0 (Keeps.ite (State.releaseAll_keeps h0) (Keeps.ite (State.setDie_keeps h0) (State.compareItem_keeps h0)))
theorem State.setDieState_keeps {s₀ s : State} {d n : Nat} (h0 : Keeps s₀ s) : Keeps s₀ (State.setDieState s d n) := by
  unfold State.setDieState
  exact State.wrN_keeps h0
theorem State.leaveStep_keeps {s₀ s : State} {d : Nat} (h0 : Keeps s₀ s) : Keeps s₀ (State.leaveStep s d) := by
  unfold State.leaveStep
  extract_lets +onlyGivenNames x0
  extract_lets +onlyGivenNames x1
  have h2 : Keeps s₀ x1 := by
    unfold x1
    exact Keeps.upd (s := s) h0 rfl rfl rfl rfl
  clear_value x1
  exact State.setDie_keeps h2
theorem State.startSelftest_keeps {s₀ s : State} {d : Nat} (h0 : Keeps s₀ s) : Keeps s₀ (State.startSelftest s d) := by
  unfold State.startSelftest
  extract_lets +onlyGivenNames x0
  extract_lets +onlyGivenNames x1
  have h2 : Keeps s₀ x1 := by
    unfold x1
    exact State.setDie_keeps (State.leaveStep_keeps h0)
  clear_value x1
  exact State.setDieState_keeps h2
theorem State.enterOut_keeps {s₀ s : State} {d : Nat} (h0 : Keeps s₀ s) : Keeps s₀ (State.enterOut s d) := by
  unfold State.enterOut
  exact State.startSelftest_keeps (State.setDieState_keeps h0)
theorem State.joinStreams_keeps {s₀ s : State} {d : Nat} (h0 : Keeps s₀ s) : Keeps s₀ (State.joinStreams s d) := by
  unfold State.joinStreams
  extract_lets +onlyGivenNames x0
  extract_lets +onlyGivenNames x1
  have h2 : Keeps s₀ x1 := by
    unfold x1
    exact Keeps.upd (s := s) h0 rfl rfl rfl rfl
  clear_value x1
  extract_lets +onlyGivenNames x3
  extract_lets +onlyGivenNames x4
  have h5 : Keeps s₀ x4 := by
    unfold x4
    exact Keeps.upd (s := x1) h2 rfl rfl rfl rfl
  clear_value x4
  exact State.setDie_keeps h5
theorem State.enterStep_keeps {s₀ s : State} {d : Nat} {synced : Bool} (h0 : Keeps s₀ s) : Keeps s₀ (State.enterStep s d synced) := by
  unfold State.enterStep
  extract_lets +onlyGivenNames x0
  exact State.setDieState_keeps (State.setDie_keeps h0)
theorem State.resendStore_keeps {s₀ s : State} {id : Nat} (h0 : Keeps s₀ s) : Keeps s₀ (State.resendStore s id) := by
  unfold State.resendStore
  extract_lets +onlyGivenNames x0
  refine Keeps.foldl ?_ ?_
  · intro a1 y2 h3
    exact State.addSat_keeps (State.pushAll_keeps h3)
  · exact h0
theorem State.moveGate_keeps {s₀ s : State} {d : Nat} (h0 : Keeps s₀ s) : Keeps s₀ (State.moveGate s d) := by
  unfold State.moveGate
  extract_lets +onlyGivenNames x0
  extract_lets +onlyGivenNames x1
  extract_lets +onlyGivenNames x2
  extract_lets +onlyGivenNames x3
  extract_lets +onlyGivenNames x4
  have h5 : Keeps s₀ x4 := by
    unfold x4
    exact State.wrN_keeps (Keeps.upd (s := s) h0 rfl rfl rfl rfl)
  clear_value x4
  refine Keeps.foldl ?_ ?_
  · intro a6 y7 h8
    exact State.matrixTake_keeps h8
  · exact h5
theorem State.restoreW1c_keeps {s₀ s : State} {x : Snapshot} (h0 : Keeps s₀ s) : Keeps s₀ (State.restoreW1c s x) := by
  unfold State.restoreW1c
  refine Keeps.ite ?_ ?_
  · exact h0
  · refine Keeps.foldl ?_ ?_
    · intro a0 y1 h2
      split
      · rename_i v3 v4 v5
        split
        · rename_i v6 v7 v8
          exact Keeps.ite (State.wr_keeps h2) h2
        · rename_i v9 v10
          exact h2
      · rename_i v11 v12
        exact h2
    · exact h0
theorem State.repeatSnap_keeps {s₀ s : State} {failed : Nat} (h0 : Keeps s₀ s) : Keeps s₀ (State.repeatSnap s failed) := by
  unfold State.repeatSnap
  split
  · rename_i v0 v1
    exact h0
  · rename_i v2 v3 v4
    refine Keeps.ite ?_ ?_
    · exact h0
    · extract_lets +onlyGivenNames x5
      have h6 : Keeps s₀ x5 := by
        unfold x5
        exact State.restoreW1c_keeps h0
      clear_value x5
      extract_lets +onlyGivenNames x7
      extract_lets +onlyGivenNames x8
      extract_lets +onlyGivenNames x9
      extract_lets +onlyGivenNames x10
      extract_lets +onlyGivenNames x11
      extract_lets +onlyGivenNames x12
      extract_lets +onlyGivenNames x13
      extract_lets +onlyGivenNames x14
      extract_lets +onlyGivenNames x15
      extract_lets +onlyGivenNames x16
      extract_lets +onlyGivenNames x17
      have h18 : Keeps s₀ x17 := by
        unfold x17
        exact Keeps.upd (s := x5) h6 rfl rfl rfl rfl
      clear_value x17
      extract_lets +onlyGivenNames x19
      have h20 : Keeps s₀ x19 := by
        unfold x19
        exact State.wrN_keeps h18
      clear_value x19
      exact State.hold_keeps h20
theorem State.retryStore_keeps {s₀ s : State} (h0 : Keeps s₀ s) : Keeps s₀ (State.retryStore s) := by
  unfold State.retryStore
  exact Keeps.upd (s := s) h0 rfl rfl rfl rfl
theorem State.switchOver_keeps {s₀ s : State} {d : Nat} (h0 : Keeps s₀ s) : Keeps s₀ (State.switchOver s d) := by
  unfold State.switchOver
  extract_lets +onlyGivenNames x0
  extract_lets +onlyGivenNames x1
  have h2 : Keeps s₀ x1 := by
    unfold x1
    exact State.setBit_keeps (State.repeatSnap_keeps (State.moveGate_keeps (State.discardHeld_keeps h0)))
  clear_value x1
  extract_lets +onlyGivenNames x3
  have h4 : Keeps s₀ x3 := by
    unfold x3
    exact State.retryStore_keeps (State.addSat_keeps h2)
  clear_value x3
  extract_lets +onlyGivenNames x5
  have h6 : Keeps s₀ x5 := by
    unfold x5
    refine Keeps.foldl ?_ ?_
    · intro a7 y8 h9
      exact State.resendStore_keeps h9
    · exact h4
  clear_value x5
  refine Keeps.foldl ?_ ?_
  · intro a10 y11 h12
    exact State.emit_keeps h12
  · exact h6
theorem State.noteDecision_keeps {s₀ s : State} {kind slot die check : Nat} (h0 : Keeps s₀ s) : Keeps s₀ (State.noteDecision s kind slot die check) := by
  unfold State.noteDecision
  split
  · rename_i v0 v1 v2 v3
    have h4 : Keeps s₀ v2 := Keeps.of_snd v3 (State.takeFree_keeps h0)
    extract_lets +onlyGivenNames x5
    have h6 : Keeps s₀ x5 := by
      unfold x5
      exact State.logEvent_keeps h4
    clear_value x5
    exact State.wrN_keeps h6
theorem State.attribute_keeps {s₀ s : State} {d : Nat} (h0 : Keeps s₀ s) : Keeps s₀ (State.attribute s d) := by
  unfold State.attribute
  extract_lets +onlyGivenNames x0
  refine Keeps.ite ?_ ?_
  · extract_lets +onlyGivenNames x1
    extract_lets +onlyGivenNames x2
    have h3 : Keeps s₀ x2 := by
      unfold x2
      exact State.setDie_keeps h0
    clear_value x2
    extract_lets +onlyGivenNames x4
    have h5 : Keeps s₀ x4 := by
      unfold x4
      exact State.releaseHeld_keeps (State.setBit_keeps h3)
    clear_value x4
    exact State.setDie_keeps h5
  · exact Keeps.ite (State.enterOut_keeps (State.switchOver_keeps h0)) (State.enterOut_keeps (State.releaseHeld_keeps h0))
theorem State.noteUnresolved_keeps {s₀ s : State} {d : Nat} (h0 : Keeps s₀ s) : Keeps s₀ (State.noteUnresolved s d) := by
  unfold State.noteUnresolved
  extract_lets +onlyGivenNames x0
  exact State.setDie_keeps h0
theorem State.decideMismatch_keeps {s₀ s : State} (h0 : Keeps s₀ s) : Keeps s₀ (State.decideMismatch s) := by
  unfold State.decideMismatch
  split
  · rename_i v0 v1
    exact h0
  · rename_i v2 v3 v4
    extract_lets +onlyGivenNames x5
    extract_lets +onlyGivenNames x6
    extract_lets +onlyGivenNames x7
    extract_lets +onlyGivenNames x8
    extract_lets +onlyGivenNames x9
    extract_lets +onlyGivenNames x10
    extract_lets +onlyGivenNames x11
    extract_lets +onlyGivenNames x12
    have h13 : Keeps s₀ x12 := by
      unfold x12
      exact Keeps.upd (s := s) h0 rfl rfl rfl rfl
    clear_value x12
    extract_lets +onlyGivenNames x14
    extract_lets +onlyGivenNames x15
    extract_lets +onlyGivenNames x16
    have h17 : Keeps s₀ x16 := by
      unfold x16
      exact State.noteDecision_keeps h13
    clear_value x16
    extract_lets +onlyGivenNames x18
    have h19 : Keeps s₀ x18 := by
      unfold x18
      exact State.attribute_keeps h17
    clear_value x18
    extract_lets +onlyGivenNames x20
    extract_lets +onlyGivenNames x21
    have h22 : Keeps s₀ x21 := by
      unfold x21
      exact State.setDie_keeps h19
    clear_value x21
    extract_lets +onlyGivenNames x23
    extract_lets +onlyGivenNames x24
    have h25 : Keeps s₀ x24 := by
      unfold x24
      exact State.noteUnresolved_keeps (State.noteDecision_keeps h13)
    clear_value x24
    extract_lets +onlyGivenNames x26
    have h27 : Keeps s₀ x26 := by
      unfold x26
      exact State.addSat_keeps (State.setBit_keeps h25)
    clear_value x26
    extract_lets +onlyGivenNames x28
    have h29 : Keeps s₀ x28 := by
      unfold x28
      refine Keeps.ite ?_ ?_
      · exact State.setBit_keeps h22
      · refine Keeps.ite ?_ ?_
        · exact State.attribute_keeps (State.noteDecision_keeps h13)
        · exact Keeps.ite (State.enterOut_keeps (State.releaseHeld_keeps h27)) (State.enterOut_keeps (State.switchOver_keeps h27))
    clear_value x28
    exact State.clearEvidence_keeps h29
theorem State.compareAlarms_keeps {s₀ s : State} {before : Nat} (h : Keeps s₀ s) : Keeps s₀ (s.compareAlarms before) := by
  unfold State.compareAlarms
  extract_lets a b of differs later c t
  have ht : Keeps s₀ t := Keeps.upd (s := s) h rfl rfl rfl rfl
  clear_value t differs
  cases differs
  · exact ht
  · exact State.mismatch_keeps ht
theorem State.plannedWinner_keeps {s₀ s : State} (h0 : Keeps s₀ s) : Keeps s₀ (State.plannedWinner s) := by
  unfold State.plannedWinner
  extract_lets +onlyGivenNames x0
  refine Keeps.ite ?_ ?_
  · exact h0
  · extract_lets +onlyGivenNames x1
    extract_lets +onlyGivenNames x2
    have h3 : Keeps s₀ x2 := by
      unfold x2
      exact State.moveGate_keeps h0
    clear_value x2
    extract_lets +onlyGivenNames x4
    extract_lets +onlyGivenNames x5
    have h6 : Keeps s₀ x5 := by
      unfold x5
      exact Keeps.upd (s := x2) h3 rfl rfl rfl rfl
    clear_value x5
    exact Keeps.ite (State.setBit_keeps h6) h6

/-! ### Red -/

theorem redStatusBody_keeps {s₀ : State} {p : List Word} {s : State} (h1 : Keeps s₀ s) : Keeps s₀ (redStatusBody p s).1 := by
  unfold redStatusBody
  refine Keeps.ite₁ ?_ ?_
  · exact refuse_keeps h1
  · extract_lets +onlyGivenNames x0
    exact okay_keeps h1
theorem redSwitchBody_keeps {s₀ : State} {p : List Word} {s : State} (h1 : Keeps s₀ s) : Keeps s₀ (redSwitchBody p s).1 := by
  unfold redSwitchBody
  refine Keeps.ite₁ ?_ ?_
  · exact refuse_keeps h1
  · refine Keeps.ite₁ ?_ ?_
    · extract_lets +onlyGivenNames x0
      refine Keeps.ite₁ ?_ ?_
      · exact refuse_keeps h1
      · extract_lets +onlyGivenNames x1
        extract_lets +onlyGivenNames x2
        have h3 : Keeps s₀ x2 := by
          unfold x2
          exact Keeps.upd (s := s) h1 rfl rfl rfl rfl
        clear_value x2
        exact okay_keeps h3
    · extract_lets +onlyGivenNames x4
      extract_lets +onlyGivenNames x5
      have h6 : Keeps s₀ x5 := by
        unfold x5
        exact Keeps.upd (s := s) h1 rfl rfl rfl rfl
      clear_value x5
      exact okay_keeps h6
theorem redSelftestBody_keeps {s₀ : State} {h : Hdr} {p : List Word} {s : State} (h2 : Keeps s₀ s) : Keeps s₀ (redSelftestBody h p s).1 := by
  unfold redSelftestBody
  refine Keeps.ite₁ ?_ ?_
  · exact refuse_keeps h2
  · refine Keeps.ite₁ ?_ ?_
    · exact refuse_keeps h2
    · extract_lets +onlyGivenNames x0
      refine Keeps.ite₁ ?_ ?_
      · exact refuse_keeps h2
      · refine Keeps.ite₁ ?_ ?_
        · exact refuse_keeps h2
        · extract_lets +onlyGivenNames x1
          have h2 : Keeps s₀ x1 := by
            unfold x1
            exact Keeps.ite (State.startSelftest_keeps h2) h2
          clear_value x1
          exact Keeps.fst_mk (State.setDie_keeps h2)
theorem dieItemCompare_keeps {s₀ : State} {d : Nat} {s : State} (h1 : Keeps s₀ s) : Keeps s₀ (dieItemCompare d s) := by
  unfold dieItemCompare
  split
  · rename_i v0 v1
    exact h1
  · rename_i v2 v3 v4 v5
    exact State.takeItem_keeps (State.setDie_keeps h1)
theorem compareWindowTimeout_keeps {s₀ s : State} (h0 : Keeps s₀ s) : Keeps s₀ (compareWindowTimeout s) := by
  unfold compareWindowTimeout
  extract_lets +onlyGivenNames x0
  refine Keeps.ite ?_ ?_
  · exact h0
  · split
    · rename_i v1 v2 v3 v4
      exact State.mismatch_keeps h0
    · rename_i v5 v6 v7
      exact State.mismatch_keeps h0
    · rename_i v8 v9
      exact h0
theorem attributionCheck_keeps {s₀ : State} {d evidence : Nat} {s : State} (h2 : Keeps s₀ s) : Keeps s₀ (attributionCheck d evidence s) := by
  unfold attributionCheck
  split
  · rename_i v0 v1
    exact h2
  · rename_i v2 v3 v4
    extract_lets +onlyGivenNames x5
    extract_lets +onlyGivenNames x6
    exact Keeps.upd (s := s) h2 rfl rfl rfl rfl
theorem claimItemReceive_keeps {s₀ : State} {d : Nat} {s : State} (h1 : Keeps s₀ s) : Keeps s₀ (claimItemReceive d s) := by
  unfold claimItemReceive
  split
  · rename_i v0 v1
    exact h1
  · rename_i v2 v3 v4
    split
    · rename_i v5 v6
      exact h1
    · rename_i v7 v8 v9
      refine Keeps.ite ?_ ?_
      · exact h1
      · extract_lets +onlyGivenNames x10
        extract_lets +onlyGivenNames x11
        extract_lets +onlyGivenNames x12
        extract_lets +onlyGivenNames x13
        have h14 : Keeps s₀ x13 := by
          unfold x13
          exact Keeps.upd (s := s) h1 rfl rfl rfl rfl
        clear_value x13
        exact Keeps.ite (State.decideMismatch_keeps h14) h14
theorem arbitrationTimeout_keeps {s₀ s : State} (h0 : Keeps s₀ s) : Keeps s₀ (arbitrationTimeout s) := by
  unfold arbitrationTimeout
  split
  · rename_i v0 v1
    exact h0
  · rename_i v2 v3 v4
    exact Keeps.ite (State.decideMismatch_keeps h0) h0
theorem revertHoldExpiry_keeps {s₀ s : State} (h0 : Keeps s₀ s) : Keeps s₀ (revertHoldExpiry s) := by
  unfold revertHoldExpiry
  exact Keeps.ite (State.plannedWinner_keeps h0) h0
theorem State.replySelftest_keeps {s₀ s : State} {d status : Nat} (h0 : Keeps s₀ s) : Keeps s₀ (State.replySelftest s d status) := by
  unfold State.replySelftest
  split
  · rename_i v0 v1
    exact h0
  · rename_i v2 v3 v4
    exact State.finish_keeps (State.setDie_keeps h0)
theorem selftestComplete_keeps {s₀ : State} {d failed : Nat} {s : State} (h2 : Keeps s₀ s) : Keeps s₀ (selftestComplete d failed s) := by
  unfold selftestComplete
  refine Keeps.ite ?_ ?_
  · exact h2
  · extract_lets +onlyGivenNames x0
    have h1 : Keeps s₀ x0 := by
      unfold x0
      exact State.wrN_keeps h2
    clear_value x0
    refine Keeps.ite ?_ ?_
    · extract_lets +onlyGivenNames x2
      extract_lets +onlyGivenNames x3
      have h4 : Keeps s₀ x3 := by
        unfold x3
        exact State.setDie_keeps h1
      clear_value x3
      exact State.replySelftest_keeps (State.setDieState_keeps h4)
    · extract_lets +onlyGivenNames x5
      extract_lets +onlyGivenNames x6
      have h7 : Keeps s₀ x6 := by
        unfold x6
        exact State.setBit_keeps h1
      clear_value x6
      extract_lets +onlyGivenNames x8
      extract_lets +onlyGivenNames x9
      have h10 : Keeps s₀ x9 := by
        unfold x9
        exact Keeps.ite (State.setDieState_keeps (State.setDie_keeps h7)) (State.setDie_keeps h7)
      clear_value x9
      exact State.replySelftest_keeps h10
theorem selftestRetry_keeps {s₀ : State} {d : Nat} {s : State} (h1 : Keeps s₀ s) : Keeps s₀ (selftestRetry d s) := by
  unfold selftestRetry
  split
  · rename_i v0 v1
    exact h1
  · rename_i v2 v3 v4
    exact Keeps.ite (State.setDie_keeps h1) h1
theorem State.endSync_keeps {s₀ s : State} {d : Nat} (h0 : Keeps s₀ s) : Keeps s₀ (State.endSync s d) := by
  unfold State.endSync
  extract_lets +onlyGivenNames x0
  exact Keeps.ite (State.enterStep_keeps (State.setDie_keeps h0)) h0
theorem syncStateSent_keeps {s₀ s : State} (h0 : Keeps s₀ s) : Keeps s₀ (syncStateSent s) := by
  unfold syncStateSent
  split
  · rename_i v0 v1
    exact h0
  · rename_i v2 v3 v4
    refine Keeps.ite ?_ ?_
    · exact h0
    · extract_lets +onlyGivenNames x5
      extract_lets +onlyGivenNames x6
      extract_lets +onlyGivenNames x7
      extract_lets +onlyGivenNames x8
      have h9 : Keeps s₀ x8 := by
        unfold x8
        exact Keeps.upd (s := s) h0 rfl rfl rfl rfl
      clear_value x8
      extract_lets +onlyGivenNames x10
      exact State.setDie_keeps (State.joinStreams_keeps h9)
theorem syncStoreCopied_keeps {s₀ s : State} (h0 : Keeps s₀ s) : Keeps s₀ (syncStoreCopied s) := by
  unfold syncStoreCopied
  split
  · rename_i v0 v1
    exact h0
  · rename_i v2 v3 v4
    refine Keeps.ite ?_ ?_
    · exact h0
    · exact State.endSync_keeps (State.setDie_keeps (State.setMemDie_keeps h0))
theorem syncRingFilled_keeps {s₀ s : State} (h0 : Keeps s₀ s) : Keeps s₀ (syncRingFilled s) := by
  unfold syncRingFilled
  split
  · rename_i v0 v1
    exact h0
  · rename_i v2 v3 v4
    exact Keeps.ite h0 (State.endSync_keeps (State.setDie_keeps h0))
theorem execRedStatus_keeps {s₀ s : State} {h : Hdr} {p : List Word} (h₀ : Keeps s₀ s) :
    ∃ u, execRedStatus h p s = .next u ∧ Keeps s₀ u :=
  ⟨_, rfl, State.receive_keeps h₀ fun _ h₁ => redStatusBody_keeps h₁⟩
theorem execRedSwitchMove_keeps {s₀ s : State} {h : Hdr} {p : List Word} (h₀ : Keeps s₀ s) :
    ∃ u, execRedSwitchMove h p s = .next u ∧ Keeps s₀ u :=
  ⟨_, rfl, State.receive_keeps h₀ fun _ h₁ => redSwitchBody_keeps h₁⟩
theorem execRedSwitchRelease_keeps {s₀ s : State} {h : Hdr} {p : List Word} (h₀ : Keeps s₀ s) :
    ∃ u, execRedSwitchRelease h p s = .next u ∧ Keeps s₀ u :=
  ⟨_, rfl, State.receive_keeps h₀ fun _ h₁ => redSwitchBody_keeps h₁⟩
theorem execRedSelftest_keeps {s₀ s : State} {h : Hdr} {p : List Word} (h₀ : Keeps s₀ s) :
    ∃ u, execRedSelftest h p s = .next u ∧ Keeps s₀ u :=
  ⟨_, rfl, State.receive_keeps h₀ fun _ h₁ => redSelftestBody_keeps h₁⟩
theorem execDieItemCompare_keeps {s₀ s : State} {t : Nat} {die : Fin 2} (h₀ : Keeps s₀ s) :
    ∃ u, execDieItemCompare t die s = .next u ∧ Keeps s₀ u :=
  ⟨_, rfl, dieItemCompare_keeps (State.at__keeps h₀)⟩
theorem execCompareWindowTimeout_keeps {s₀ s : State} {t : Nat} (h₀ : Keeps s₀ s) :
    ∃ u, execCompareWindowTimeout t s = .next u ∧ Keeps s₀ u :=
  ⟨_, rfl, compareWindowTimeout_keeps (State.at__keeps h₀)⟩
theorem execAttributionCheck_keeps {s₀ s : State} {t : Nat} {die : Fin 2} {evidence : Fin 8} (h₀ : Keeps s₀ s) :
    ∃ u, execAttributionCheck t die evidence s = .next u ∧ Keeps s₀ u :=
  ⟨_, rfl, attributionCheck_keeps (State.at__keeps h₀)⟩
theorem execClaimItemReceive_keeps {s₀ s : State} {t : Nat} {die : Fin 2} (h₀ : Keeps s₀ s) :
    ∃ u, execClaimItemReceive t die s = .next u ∧ Keeps s₀ u :=
  ⟨_, rfl, claimItemReceive_keeps (State.at__keeps h₀)⟩
theorem execArbitrationTimeout_keeps {s₀ s : State} {t : Nat} (h₀ : Keeps s₀ s) :
    ∃ u, execArbitrationTimeout t s = .next u ∧ Keeps s₀ u :=
  ⟨_, rfl, arbitrationTimeout_keeps (State.at__keeps h₀)⟩
theorem execRevertHoldExpiry_keeps {s₀ s : State} {t : Nat} (h₀ : Keeps s₀ s) :
    ∃ u, execRevertHoldExpiry t s = .next u ∧ Keeps s₀ u :=
  ⟨_, rfl, revertHoldExpiry_keeps (State.at__keeps h₀)⟩
theorem execSelftestComplete_keeps {s₀ s : State} {t : Nat} {die : Fin 2} {failed : BitVec 4} (h₀ : Keeps s₀ s) :
    ∃ u, execSelftestComplete t die failed s = .next u ∧ Keeps s₀ u :=
  ⟨_, rfl, selftestComplete_keeps (State.at__keeps h₀)⟩
theorem execSelftestRetry_keeps {s₀ s : State} {t : Nat} {die : Fin 2} (h₀ : Keeps s₀ s) :
    ∃ u, execSelftestRetry t die s = .next u ∧ Keeps s₀ u :=
  ⟨_, rfl, selftestRetry_keeps (State.at__keeps h₀)⟩
theorem execSyncStateSent_keeps {s₀ s : State} {t : Nat} (h₀ : Keeps s₀ s) :
    ∃ u, execSyncStateSent t s = .next u ∧ Keeps s₀ u :=
  ⟨_, rfl, syncStateSent_keeps (State.at__keeps h₀)⟩
theorem execSyncStoreCopied_keeps {s₀ s : State} {t : Nat} (h₀ : Keeps s₀ s) :
    ∃ u, execSyncStoreCopied t s = .next u ∧ Keeps s₀ u :=
  ⟨_, rfl, syncStoreCopied_keeps (State.at__keeps h₀)⟩
theorem execSyncRingFilled_keeps {s₀ s : State} {t : Nat} (h₀ : Keeps s₀ s) :
    ∃ u, execSyncRingFilled t s = .next u ∧ Keeps s₀ u :=
  ⟨_, rfl, syncRingFilled_keeps (State.at__keeps h₀)⟩

end Sys2Proof.Machine
end

