-- ==== Sys2Proof/Laws/KeepsPower.lean ====
section
/-! SUPPORT. What the operations and the commands of a group keep (see Keeps): power, resets and the time base commands. -/

set_option linter.all false

namespace Sys2Proof.Machine

/-! ### Therm -/

theorem State.setPwr_keeps {s₀ s : State} {x : PwrState} (h0 : Keeps s₀ s) : Keeps s₀ (State.setPwr s x) := by
  unfold State.setPwr
  exact Keeps.upd (s := s) h0 rfl rfl rfl rfl
theorem State.setSensor_keeps {s₀ s : State} {i : Nat} {x : SensorRuntime} (h0 : Keeps s₀ s) : Keeps s₀ (State.setSensor s i x) := by
  unfold State.setSensor
  exact State.setPwr_keeps h0
theorem State.setFePower_keeps {s₀ s : State} {k : Nat} {x : FePower} (h0 : Keeps s₀ s) : Keeps s₀ (State.setFePower s k x) := by
  unfold State.setFePower
  exact State.setPwr_keeps h0
theorem State.noteLevels_keeps {s₀ s : State} (h0 : Keeps s₀ s) : Keeps s₀ (State.noteLevels s) := by
  unfold State.noteLevels
  extract_lets +onlyGivenNames x0
  have h1 : Keeps s₀ x0 := by
    unfold x0
    exact State.putBit_keeps (State.wrN_keeps h0)
  clear_value x0
  extract_lets +onlyGivenNames x2
  have h3 : Keeps s₀ x2 := by
    unfold x2
    refine Keeps.foldl ?_ ?_
    · intro a4 y5 h6
      exact State.wrN_keeps h6
    · exact h1
  clear_value x2
  exact State.setPwr_keeps h3
theorem State.followLevels_keeps {s₀ s : State} (h0 : Keeps s₀ s) : Keeps s₀ (State.followLevels s) := by
  unfold State.followLevels
  exact Keeps.ite (State.wrN_keeps h0) h0
theorem throttleApply_keeps {s₀ s : State} (h0 : Keeps s₀ s) : Keeps s₀ (throttleApply s) := by
  unfold throttleApply
  split
  · rename_i v0 v1
    exact h0
  · rename_i v2 v3 v4
    refine Keeps.ite ?_ ?_
    · exact h0
    · extract_lets +onlyGivenNames x5
      have h6 : Keeps s₀ x5 := by
        unfold x5
        refine Keeps.foldl ?_ ?_
        · intro a7 y8 h9
          exact State.noteSkip_keeps h9
        · exact h0
      clear_value x5
      extract_lets +onlyGivenNames x10
      have h11 : Keeps s₀ x10 := by
        unfold x10
        refine Keeps.foldl ?_ ?_
        · intro a12 y13 h14
          extract_lets +onlyGivenNames x15
          extract_lets +onlyGivenNames x16
          exact Keeps.ite h14 (State.wrN_keeps (Keeps.upd (s := a12) h14 rfl rfl rfl rfl))
        · exact h6
      clear_value x10
      extract_lets +onlyGivenNames x17
      extract_lets +onlyGivenNames x18
      extract_lets +onlyGivenNames x19
      have h20 : Keeps s₀ x19 := by
        unfold x19
        exact Keeps.ite h11 (Keeps.upd (s := x10) h11 rfl rfl rfl rfl)
      clear_value x19
      extract_lets +onlyGivenNames x21
      have h22 : Keeps s₀ x21 := by
        unfold x21
        exact State.wrN_keeps (State.wrN_keeps h20)
      clear_value x21
      exact State.followLevels_keeps (State.setPwr_keeps h22)
theorem State.noteCool_keeps {s₀ s : State} (h0 : Keeps s₀ s) : Keeps s₀ (State.noteCool s) := by
  unfold State.noteCool
  extract_lets +onlyGivenNames x0
  extract_lets +onlyGivenNames x1
  exact State.setPwr_keeps h0
theorem State.startStop_keeps {s₀ s : State} {lanes : Bool} (h0 : Keeps s₀ s) : Keeps s₀ (State.startStop s lanes) := by
  unfold State.startStop
  refine Keeps.ite ?_ ?_
  · exact h0
  · extract_lets +onlyGivenNames x0
    extract_lets +onlyGivenNames x1
    have h2 : Keeps s₀ x1 := by
      unfold x1
      exact State.setPwr_keeps h0
    clear_value x1
    extract_lets +onlyGivenNames x3
    have h4 : Keeps s₀ x3 := by
      unfold x3
      exact State.addSat_keeps (State.setBit_keeps (State.wrN_keeps h2))
    clear_value x3
    extract_lets +onlyGivenNames x5
    extract_lets +onlyGivenNames x6
    have h7 : Keeps s₀ x6 := by
      unfold x6
      exact Keeps.upd (s := x3) h4 rfl rfl rfl rfl
    clear_value x6
    exact Keeps.ite h7 (State.abortCal_keeps h7)
theorem State.fallowPorts_keeps {s₀ s : State} (h0 : Keeps s₀ s) : Keeps s₀ (State.fallowPorts s) := by
  unfold State.fallowPorts
  refine Keeps.foldl ?_ ?_
  · intro a0 y1 h2
    refine State.notePort_keeps ?_
    refine Keeps.foldl ?_ ?_
    · intro a3 y4 h5
      exact State.fallowLane_keeps h5
    · exact h2
  · exact h0
theorem State.stopOutputs_keeps {s₀ s : State} (h : Keeps s₀ s) : Keeps s₀ s.stopOutputs := by
  unfold State.stopOutputs
  extract_lets a b
  have ha : Keeps s₀ a := Keeps.foldl (fun _ _ h => State.stopGroup_keeps h) h
  clear_value a
  have hb : Keeps s₀ b := Keeps.foldl (fun _ _ h => State.setSource_keeps h) ha
  clear_value b
  exact Keeps.foldl (fun _ _ h => Keeps.ite h (State.disarmTpo_keeps h)) hb
theorem State.selfRefresh_keeps {s₀ t : State} (h : Keeps s₀ t) : Keeps s₀ { t with mem := { t.mem with selfRefresh := true } } :=
  Keeps.upd h rfl rfl rfl rfl
theorem State.completeStop_keeps {s₀ s : State} (h : Keeps s₀ s) : Keeps s₀ s.completeStop := by
  unfold State.completeStop
  extract_lets a b m c
  have ha : Keeps s₀ a := State.wrN_keeps (State.stopOutputs_keeps h)
  clear_value a
  have hb : Keeps s₀ b := Keeps.foldl (fun _ _ h => State.driveLoop_keeps h) ha
  clear_value b
  have hc : Keeps s₀ c := State.selfRefresh_keeps hb
  clear_value c
  exact Keeps.ite (State.fallowPorts_keeps hc) hc
theorem stopDrainEnd_keeps {s₀ s : State} (h0 : Keeps s₀ s) : Keeps s₀ (stopDrainEnd s) := by
  unfold stopDrainEnd
  split
  · rename_i v0 v1
    exact h0
  · rename_i v2 v3 v4
    extract_lets +onlyGivenNames x5
    exact Keeps.ite (State.completeStop_keeps h0) h0
theorem State.resumeGroup_keeps {s₀ s : State} {g : Nat} (h0 : Keeps s₀ s) : Keeps s₀ (State.resumeGroup s g) := by
  unfold State.resumeGroup
  split
  · rename_i v0 v1
    exact h0
  · rename_i v2 v3 v4
    exact State.restartRing_keeps (State.wrN_keeps (State.setRun_keeps h0))
theorem resume_keeps {s₀ s : State} (h0 : Keeps s₀ s) : Keeps s₀ (resume s) := by
  unfold resume
  split
  · rename_i v0 v1
    exact h0
  · rename_i v2 v3 v4
    refine Keeps.ite ?_ ?_
    · exact h0
    · extract_lets +onlyGivenNames x5
      extract_lets +onlyGivenNames x6
      have h7 : Keeps s₀ x6 := by
        unfold x6
        exact Keeps.upd (s := s) h0 rfl rfl rfl rfl
      clear_value x6
      extract_lets +onlyGivenNames x8
      have h9 : Keeps s₀ x8 := by
        unfold x8
        refine Keeps.foldl ?_ ?_
        · intro a10 y11 h12
          exact Keeps.ite (State.wakePort_keeps h12) h12
        · exact h7
      clear_value x8
      extract_lets +onlyGivenNames x13
      have h14 : Keeps s₀ x13 := by
        unfold x13
        refine Keeps.foldl ?_ ?_
        · intro a15 y16 h17
          exact State.unstopGroup_keeps h17
        · exact h9
      clear_value x13
      extract_lets +onlyGivenNames x18
      have h19 : Keeps s₀ x18 := by
        unfold x18
        refine Keeps.foldl ?_ ?_
        · intro a20 y21 h22
          exact State.resumeGroup_keeps h22
        · exact h14
      clear_value x18
      extract_lets +onlyGivenNames x23
      extract_lets +onlyGivenNames x24
      have h25 : Keeps s₀ x24 := by
        unfold x24
        exact State.setPwr_keeps h19
      clear_value x24
      extract_lets +onlyGivenNames x26
      have h27 : Keeps s₀ x26 := by
        unfold x26
        exact State.wrN_keeps (State.setBit_keeps h25)
      clear_value x26
      refine Keeps.foldl ?_ ?_
      · intro a28 y29 h30
        exact State.steer_keeps h30
      · exact h27
theorem riseEventEnd_keeps {s₀ s : State} (h0 : Keeps s₀ s) : Keeps s₀ (riseEventEnd s) := by
  unfold riseEventEnd
  split
  · rename_i v0 v1 v2 v3 v4 v5
    exact Keeps.ite (State.noteCool_keeps (State.noteLevels_keeps (State.setPwr_keeps h0))) h0
  · rename_i v6 v7 v8
    exact h0
theorem riseHoldExpiry_keeps {s₀ s : State} (h0 : Keeps s₀ s) : Keeps s₀ (riseHoldExpiry s) := by
  unfold riseHoldExpiry
  split
  · rename_i v0 v1 v2
    exact Keeps.ite (State.startStop_keeps h0) h0
  · rename_i v3 v4
    exact h0
theorem State.judgeCold_keeps {s₀ s : State} {k : Nat} {old t : Int} (h0 : Keeps s₀ s) : Keeps s₀ (State.judgeCold s k old t) := by
  unfold State.judgeCold
  extract_lets +onlyGivenNames x0
  extract_lets +onlyGivenNames x1
  have h2 : Keeps s₀ x1 := by
    unfold x1
    exact Keeps.ite (State.setBit_keeps h0) h0
  clear_value x1
  extract_lets +onlyGivenNames x3
  have h4 : Keeps s₀ x3 := by
    unfold x3
    exact State.setFePower_keeps h2
  clear_value x3
  refine Keeps.ite ?_ ?_
  · refine State.setBit_keeps ?_
    refine Keeps.foldl ?_ ?_
    · intro a5 y6 h7
      exact State.stopGroup_keeps h7
    · exact h4
  · exact h4
theorem lowTempRelease_keeps {s₀ : State} {k : Nat} {s : State} (h1 : Keeps s₀ s) : Keeps s₀ (lowTempRelease k s) := by
  unfold lowTempRelease
  extract_lets +onlyGivenNames x0
  split
  · rename_i v1 v2
    exact h1
  · rename_i v3 v4 v5
    refine Keeps.ite ?_ ?_
    · exact h1
    · extract_lets +onlyGivenNames x6
      have h7 : Keeps s₀ x6 := by
        unfold x6
        exact State.setFePower_keeps h1
      clear_value x6
      extract_lets +onlyGivenNames x8
      have h9 : Keeps s₀ x8 := by
        unfold x8
        refine Keeps.foldl ?_ ?_
        · intro a10 y11 h12
          exact State.unstopGroup_keeps h12
        · exact h7
      clear_value x8
      exact State.noteCool_keeps (State.putBit_keeps h9)
theorem State.readTemp_keeps {s₀ s : State} {i : Nat} {r : Reading} (h0 : Keeps s₀ s) : Keeps s₀ (State.readTemp s i r) := by
  unfold State.readTemp
  extract_lets +onlyGivenNames x0
  split
  · rename_i v1
    extract_lets +onlyGivenNames x2
    have h3 : Keeps s₀ x2 := by
      unfold x2
      exact State.wrN_keeps (State.setSensor_keeps h0)
    clear_value x2
    exact Keeps.ite h3 (State.logEvent_keeps h3)
  · rename_i v4 v5
    extract_lets +onlyGivenNames x6
    extract_lets +onlyGivenNames x7
    have h8 : Keeps s₀ x7 := by
      unfold x7
      exact State.wrI_keeps h0
    clear_value x7
    extract_lets +onlyGivenNames x9
    have h10 : Keeps s₀ x9 := by
      unfold x9
      exact Keeps.ite (State.wrI_keeps h8) h8
    clear_value x9
    split
    · rename_i v11 v12 v13 v14
      extract_lets +onlyGivenNames x15
      extract_lets +onlyGivenNames x16
      have h17 : Keeps s₀ x16 := by
        unfold x16
        exact Keeps.ite (State.wrI_keeps h10) h10
      clear_value x16
      extract_lets +onlyGivenNames x18
      have h19 : Keeps s₀ x18 := by
        unfold x18
        exact State.setSensor_keeps h17
      clear_value x18
      exact Keeps.ite (State.noteCrystal_keeps h19) (Keeps.ite (State.judgeCold_keeps h19) h19)
theorem State.readVolt_keeps {s₀ s : State} {i : Nat} {r : Reading} (h0 : Keeps s₀ s) : Keeps s₀ (State.readVolt s i r) := by
  unfold State.readVolt
  extract_lets +onlyGivenNames x0
  split
  · rename_i v1
    extract_lets +onlyGivenNames x2
    have h3 : Keeps s₀ x2 := by
      unfold x2
      exact State.wrN_keeps (State.setSensor_keeps h0)
    clear_value x2
    exact Keeps.ite h3 (State.logEvent_keeps h3)
  · rename_i v4 v5
    exact State.wrI_keeps (State.setSensor_keeps h0)
theorem State.judgeRise_keeps {s₀ s : State} (h0 : Keeps s₀ s) : Keeps s₀ (State.judgeRise s) := by
  unfold State.judgeRise
  extract_lets +onlyGivenNames x0
  extract_lets +onlyGivenNames x1
  extract_lets +onlyGivenNames x2
  extract_lets +onlyGivenNames x3
  extract_lets +onlyGivenNames x4
  have h5 : Keeps s₀ x4 := by
    unfold x4
    exact State.setPwr_keeps h0
  clear_value x4
  exact Keeps.ite (State.setBit_keeps (State.setPwr_keeps h5)) h5
theorem sensorConversion_keeps {s₀ : State} {temps volts : List Reading} {s : State} (h2 : Keeps s₀ s) : Keeps s₀ (sensorConversion temps volts s) := by
  unfold sensorConversion
  refine Keeps.ite ?_ ?_
  · exact h2
  · extract_lets +onlyGivenNames x0
    have h1 : Keeps s₀ x0 := by
      unfold x0
      refine Keeps.foldl ?_ ?_
      · intro a2 y3 h4
        split
        · rename_i v5 v6 v7
          exact State.readTemp_keeps h4
      · exact h2
    clear_value x0
    extract_lets +onlyGivenNames x8
    have h9 : Keeps s₀ x8 := by
      unfold x8
      refine Keeps.foldl ?_ ?_
      · intro a10 y11 h12
        split
        · rename_i v13 v14 v15
          exact State.readVolt_keeps h12
      · exact h1
    clear_value x8
    extract_lets +onlyGivenNames x16
    have h17 : Keeps s₀ x16 := by
      unfold x16
      exact State.putBit_keeps h9
    clear_value x16
    extract_lets +onlyGivenNames x18
    have h19 : Keeps s₀ x18 := by
      unfold x18
      exact State.noteCool_keeps (State.noteLevels_keeps (State.judgeRise_keeps h17))
    clear_value x18
    exact Keeps.ite (State.startStop_keeps h19) h19
theorem railOutOfWindow_keeps {s₀ : State} {rail : Nat} {high : Bool} {s : State} (h2 : Keeps s₀ s) : Keeps s₀ (railOutOfWindow rail high s) := by
  unfold railOutOfWindow
  refine Keeps.ite ?_ ?_
  · exact h2
  · extract_lets +onlyGivenNames x0
    have h1 : Keeps s₀ x0 := by
      unfold x0
      exact State.setBit_keeps (State.addSat_keeps (State.wrN_keeps h2))
    clear_value x0
    split
    · rename_i v2 v3 v4 v5
      have h6 : Keeps s₀ v4 := Keeps.of_snd v5 (State.takeFree_keeps h1)
      split
      · rename_i v7 v8 v9 v10
        have h11 : Keeps s₀ v9 := Keeps.of_snd v10 (State.takeFree_keeps h6)
        split
        · rename_i v12 v13 v14 v15
          have h16 : Keeps s₀ v14 := Keeps.of_snd v15 (State.takeFree_keeps h11)
          exact State.logEvent_keeps h16
theorem vanStop_keeps {s₀ : State} {k : Nat} {s : State} (h1 : Keeps s₀ s) : Keeps s₀ (vanStop k s) := by
  unfold vanStop
  refine Keeps.ite ?_ ?_
  · exact h1
  · extract_lets +onlyGivenNames x0
    extract_lets +onlyGivenNames x1
    have h2 : Keeps s₀ x1 := by
      unfold x1
      exact State.setBit_keeps (State.setFePower_keeps h1)
    clear_value x1
    refine Keeps.foldl ?_ ?_
    · intro a3 y4 h5
      exact State.stopGroup_keeps h5
    · exact h2
theorem vanStopRelease_keeps {s₀ : State} {k : Nat} {s : State} (h1 : Keeps s₀ s) : Keeps s₀ (vanStopRelease k s) := by
  unfold vanStopRelease
  refine Keeps.ite ?_ ?_
  · exact h1
  · refine Keeps.foldl ?_ ?_
    · intro a0 y1 h2
      exact State.unstopGroup_keeps h2
    · exact State.setFePower_keeps h1
theorem execThrottleApply_keeps {s₀ s : State} {t : Nat} (h₀ : Keeps s₀ s) :
    ∃ u, execThrottleApply t s = .next u ∧ Keeps s₀ u :=
  ⟨_, rfl, throttleApply_keeps (State.at__keeps h₀)⟩
theorem execStopDrainEnd_keeps {s₀ s : State} {t : Nat} (h₀ : Keeps s₀ s) :
    ∃ u, execStopDrainEnd t s = .next u ∧ Keeps s₀ u :=
  ⟨_, rfl, stopDrainEnd_keeps (State.at__keeps h₀)⟩
theorem execResume_keeps {s₀ s : State} {t : Nat} (h₀ : Keeps s₀ s) :
    ∃ u, execResume t s = .next u ∧ Keeps s₀ u :=
  ⟨_, rfl, resume_keeps (State.at__keeps h₀)⟩
theorem execRiseEventEnd_keeps {s₀ s : State} {t : Nat} (h₀ : Keeps s₀ s) :
    ∃ u, execRiseEventEnd t s = .next u ∧ Keeps s₀ u :=
  ⟨_, rfl, riseEventEnd_keeps (State.at__keeps h₀)⟩
theorem execRiseHoldExpiry_keeps {s₀ s : State} {t : Nat} (h₀ : Keeps s₀ s) :
    ∃ u, execRiseHoldExpiry t s = .next u ∧ Keeps s₀ u :=
  ⟨_, rfl, riseHoldExpiry_keeps (State.at__keeps h₀)⟩
theorem execLowTempRelease_keeps {s₀ s : State} {t : Nat} {fe : Fin 4} (h₀ : Keeps s₀ s) :
    ∃ u, execLowTempRelease t fe s = .next u ∧ Keeps s₀ u :=
  ⟨_, rfl, lowTempRelease_keeps (State.at__keeps h₀)⟩
theorem execSensorConversion_keeps {s₀ s : State} {t : Nat} {temps volts : List Reading} (h₀ : Keeps s₀ s) :
    ∃ u, execSensorConversion t temps volts s = .next u ∧ Keeps s₀ u :=
  ⟨_, rfl, sensorConversion_keeps (State.at__keeps h₀)⟩
theorem execRailOutOfWindow_keeps {s₀ s : State} {t : Nat} {rail : Fin 22} {high : Bool} (h₀ : Keeps s₀ s) :
    ∃ u, execRailOutOfWindow t rail high s = .next u ∧ Keeps s₀ u :=
  ⟨_, rfl, railOutOfWindow_keeps (State.at__keeps h₀)⟩
theorem execRailBackInWindow_keeps {s₀ s : State} {t : Nat} {rail : Fin 22} (h₀ : Keeps s₀ s) :
    ∃ u, execRailBackInWindow t rail s = .next u ∧ Keeps s₀ u :=
  ⟨_, rfl, State.wrN_keeps (State.at__keeps h₀)⟩
theorem execVanStop_keeps {s₀ s : State} {t : Nat} {fe : Fin 4} (h₀ : Keeps s₀ s) :
    ∃ u, execVanStop t fe s = .next u ∧ Keeps s₀ u :=
  ⟨_, rfl, vanStop_keeps (State.at__keeps h₀)⟩
theorem execVanStopRelease_keeps {s₀ s : State} {t : Nat} {fe : Fin 4} (h₀ : Keeps s₀ s) :
    ∃ u, execVanStopRelease t fe s = .next u ∧ Keeps s₀ u :=
  ⟨_, rfl, vanStopRelease_keeps (State.at__keeps h₀)⟩

/-! ### Rst -/

theorem State.lkPar_wf (s : State) : Sparse.wf Params.reset s.lkPar = true := by
  unfold State.lkPar
  have key : ∀ (xs m : List (Nat × Word)), Sparse.wf Params.reset m = true →
      Sparse.wf Params.reset (xs.foldl (fun m e =>
        if lkItems.contains (e.1 / 65536) then Sparse.set (Params.reset e.1) m e.1 e.2
        else if lkBits e.1 = 0 then m
        else Sparse.set (Params.reset e.1) m e.1 (BitVec.ofNat 32 (e.2.toNat &&& lkBits e.1))) m) = true := by
    intro xs
    induction xs with
    | nil => exact fun m h => h
    | cons e xs ih =>
      intro m h
      refine ih _ ?_
      dsimp only
      split
      · exact Sparse.wf_set (d := Params.reset) h _ _
      · split
        · exact h
        · exact Sparse.wf_set (d := Params.reset) h _ _
  exact key s.par [] rfl

theorem State.cleared_keeps {s₀ s : State} {lk : Bool} (h : Keeps s₀ s) : Keeps s₀ (s.cleared lk) := by
  refine h.trans ⟨rfl, fun _ => ?_, fun _ => rfl, fun _ => rfl⟩
  unfold State.cleared
  cases lk
  · rfl
  · exact s.lkPar_wf
theorem State.loadConfig_keeps {s₀ s : State} {fromReset : Bool} (h0 : Keeps s₀ s) : Keeps s₀ (State.loadConfig s fromReset) := by
  unfold State.loadConfig
  extract_lets +onlyGivenNames x0
  extract_lets +onlyGivenNames x1
  have h2 : Keeps s₀ x1 := by
    unfold x1
    exact State.wrN_keeps h0
  clear_value x1
  refine Keeps.ite ?_ ?_
  · exact h2
  · extract_lets +onlyGivenNames x3
    have h4 : Keeps s₀ x3 := by
      unfold x3
      refine Keeps.foldl ?_ ?_
      · intro a5 y6 h7
        exact State.wr_keeps h7
      · exact h2
    clear_value x3
    exact State.setPwr_keeps h4
theorem State.reloadReset_keeps {s₀ s : State} {kind cause : Nat} (h0 : Keeps s₀ s) : Keeps s₀ (State.reloadReset s kind cause) := by
  unfold State.reloadReset
  extract_lets +onlyGivenNames x0
  extract_lets +onlyGivenNames x1
  extract_lets +onlyGivenNames x2
  extract_lets +onlyGivenNames x3
  extract_lets +onlyGivenNames x4
  extract_lets +onlyGivenNames x5
  have h6 : Keeps s₀ x5 := by
    unfold x5
    exact State.loadConfig_keeps (State.cleared_keeps h0)
  clear_value x5
  extract_lets +onlyGivenNames x7
  have h8 : Keeps s₀ x7 := by
    unfold x7
    refine Keeps.ite ?_ ?_
    · exact h6
    · refine Keeps.foldl ?_ ?_
      · intro a9 y10 h11
        exact State.wrN_keeps h11
      · exact h6
  clear_value x7
  extract_lets +onlyGivenNames x12
  have h13 : Keeps s₀ x12 := by
    unfold x12
    exact State.wrN_keeps (State.wrN_keeps h8)
  clear_value x12
  extract_lets +onlyGivenNames x14
  have h15 : Keeps s₀ x14 := by
    unfold x14
    exact State.wrN_keeps (State.wrN_keeps h13)
  clear_value x14
  extract_lets +onlyGivenNames x16
  extract_lets +onlyGivenNames x17
  have h18 : Keeps s₀ x17 := by
    unfold x17
    exact Keeps.upd (s := x14) h15 rfl rfl rfl rfl
  clear_value x17
  extract_lets +onlyGivenNames x19
  have h20 : Keeps s₀ x19 := by
    unfold x19
    exact Keeps.ite (State.endHere_keeps (State.wrN_keeps h18)) h18
  clear_value x19
  extract_lets +onlyGivenNames x21
  have h22 : Keeps s₀ x21 := by
    unfold x21
    exact Keeps.ite (State.tbUpdate_keeps h20) h20
  clear_value x21
  extract_lets +onlyGivenNames x23
  have h24 : Keeps s₀ x23 := by
    unfold x23
    exact Keeps.ite (State.endTest_keeps h22) h22
  clear_value x23
  extract_lets +onlyGivenNames x25
  have h26 : Keeps s₀ x25 := by
    unfold x25
    exact State.bootSelect_keeps (State.loadCal_keeps h24)
  clear_value x25
  exact State.setPwr_keeps h26
theorem State.pushReset_keeps {s₀ s : State} {kind unit cause instant : Nat} (h0 : Keeps s₀ s) :
    Keeps s₀ (State.pushReset s kind unit cause instant) := by
  unfold State.pushReset
  exact State.setPwr_keeps h0
theorem State.queueReset_keeps {s₀ s : State} {p : List Word} (h0 : Keeps s₀ s) : Keeps s₀ (State.queueReset s p) := by
  unfold State.queueReset
  extract_lets +onlyGivenNames x0
  exact State.pushReset_keeps h0
theorem resetBody_keeps {s₀ : State} {h : Hdr} {p : List Word} {s : State} (h2 : Keeps s₀ s) : Keeps s₀ (resetBody h p s).1 := by
  unfold resetBody
  extract_lets +onlyGivenNames x0
  extract_lets +onlyGivenNames x1
  refine Keeps.ite₁ ?_ ?_
  · exact refuse_keeps h2
  · refine Keeps.ite₁ ?_ ?_
    · exact refuse_keeps h2
    · exact Keeps.ite₁ (refuse_keeps h2) (Keeps.ite₁ (refuse_keeps h2) (Keeps.ite₁ h2 (okay_keeps (State.queueReset_keeps h2))))
theorem wideReset_keeps {s₀ : State} {kind : Nat} {s : State} (h1 : Keeps s₀ s) : Keeps s₀ (wideReset kind s) := by
  unfold wideReset
  split
  · rename_i v0 v1 v2
    exact State.reloadReset_keeps h1
  · rename_i v3 v4
    exact h1
theorem State.takeReset_keeps {s₀ s : State} {r : ResetDue} (h0 : Keeps s₀ s) : Keeps s₀ (State.takeReset s r) := by
  unfold State.takeReset
  exact State.wrN_keeps (State.setPwr_keeps h0)
theorem State.resetDie_keeps {s₀ s : State} {d : Nat} (h : Keeps s₀ s) : Keeps s₀ (s.resetDie d) := by
  unfold State.resetDie
  extract_lets a b c e f
  have hc : Keeps s₀ c := State.setMemDie_keeps (State.setDie_keeps (State.leaveStep_keeps h))
  clear_value c
  have he : Keeps s₀ e := Keeps.updPar hc rfl (fun w => Sparse.wf_filter w _) rfl rfl
  clear_value e
  exact State.setDieState_keeps (State.setMgt_keeps he)
theorem dieReset_keeps {s₀ : State} {d : Nat} {s : State} (h1 : Keeps s₀ s) : Keeps s₀ (dieReset d s) := by
  unfold dieReset
  split
  · rename_i v0 v1
    exact h1
  · rename_i v2 v3 v4
    refine Keeps.ite ?_ ?_
    · exact h1
    · refine Keeps.ite ?_ ?_
      · extract_lets +onlyGivenNames x5
        have h6 : Keeps s₀ x5 := by
          unfold x5
          exact State.moveGate_keeps h1
        clear_value x5
        exact State.setPwr_keeps h6
      · extract_lets +onlyGivenNames x7
        have h8 : Keeps s₀ x7 := by
          unfold x7
          exact Keeps.ite (State.moveGate_keeps h1) h1
        clear_value x7
        exact State.resetDie_keeps (State.takeReset_keeps h8)
theorem watchdogExpiry_keeps {s₀ : State} {d : Nat} {s : State} (h1 : Keeps s₀ s) : Keeps s₀ (watchdogExpiry d s) := by
  unfold watchdogExpiry
  exact Keeps.ite h1 (Keeps.ite (State.pushReset_keeps (State.mismatch_keeps h1)) (State.pushReset_keeps h1))
theorem State.resetFe_keeps {s₀ s : State} {k : Nat} (h : Keeps s₀ s) : Keeps s₀ (s.resetFe k) := by
  unfold State.resetFe
  extract_lets +onlyGivenNames a mine groups m1 fe inputs others merged m2 tmr sent m3 b c
  have ha : Keeps s₀ a := Keeps.foldl (fun s x h => State.setInState_keeps h) h
  clear_value a
  have hb : Keeps s₀ b := Keeps.updPar ha rfl (fun w => Sparse.wf_filter w _) rfl rfl
  clear_value b
  have hc : Keeps s₀ c := Keeps.foldl (fun s x h => State.setLoop_keeps h) hb
  clear_value c
  split
  · exact hc
  · exact State.setCalRun_keeps hc
theorem State.settleFe_keeps {s₀ s : State} {k : Nat} (h0 : Keeps s₀ s) : Keeps s₀ (State.settleFe s k) := by
  unfold State.settleFe
  exact State.setFePower_keeps h0
theorem frontEndReset_keeps {s₀ : State} {k : Nat} {s : State} (h1 : Keeps s₀ s) : Keeps s₀ (frontEndReset k s) := by
  unfold frontEndReset
  split
  · rename_i v0 v1
    exact h1
  · rename_i v2 v3 v4
    exact State.settleFe_keeps (State.resetFe_keeps (State.takeReset_keeps h1))
theorem State.enterService_keeps {s₀ s : State} (h0 : Keeps s₀ s) : Keeps s₀ (State.enterService s) := by
  unfold State.enterService
  refine Keeps.ite ?_ ?_
  · exact h0
  · extract_lets +onlyGivenNames x0
    have h1 : Keeps s₀ x0 := by
      unfold x0
      exact State.wrN_keeps h0
    clear_value x0
    exact Keeps.ite h1 (State.wr_keeps (State.setPwr_keeps h1))
theorem State.reloadGroup_keeps {s₀ s : State} {g : Nat} (h0 : Keeps s₀ s) : Keeps s₀ (State.reloadGroup s g) := by
  unfold State.reloadGroup
  extract_lets +onlyGivenNames x0
  have h1 : Keeps s₀ x0 := by
    unfold x0
    exact State.wrN_keeps h0
  clear_value x0
  extract_lets +onlyGivenNames x2
  have h3 : Keeps s₀ x2 := by
    unfold x2
    refine Keeps.foldl ?_ ?_
    · intro a4 y5 h6
      exact State.enableInput_keeps h6
    · exact h1
  clear_value x2
  extract_lets +onlyGivenNames x7
  refine Keeps.ite ?_ ?_
  · exact h3
  · extract_lets +onlyGivenNames x8
    have h9 : Keeps s₀ x8 := by
      unfold x8
      exact State.alignUnderStops_keeps h3
    clear_value x8
    refine Keeps.foldl ?_ ?_
    · intro a10 y11 h12
      refine Keeps.foldl ?_ ?_
      · intro a13 y14 h15
        exact State.holdInput_keeps h15
      · exact h12
    · exact h9
theorem State.reloadSource_keeps {s₀ s : State} {k : Nat} (h0 : Keeps s₀ s) : Keeps s₀ (State.reloadSource s k) := by
  unfold State.reloadSource
  extract_lets +onlyGivenNames x0
  have h1 : Keeps s₀ x0 := by
    unfold x0
    exact State.steer_keeps h0
  clear_value x0
  exact State.setSource_keeps h1
theorem State.reloadLoop_keeps {s₀ s : State} {i : Nat} (h0 : Keeps s₀ s) : Keeps s₀ (State.reloadLoop s i) := by
  unfold State.reloadLoop
  exact Keeps.ite h0 (State.setLoop_keeps h0)
theorem frontEndReloaded_keeps {s₀ : State} {k : Nat} {s : State} (h1 : Keeps s₀ s) : Keeps s₀ (frontEndReloaded k s) := by
  unfold frontEndReloaded
  split
  · rename_i v0 v1
    exact h1
  · rename_i v2 v3 v4
    refine Keeps.ite ?_ ?_
    · exact h1
    · extract_lets +onlyGivenNames x5
      extract_lets +onlyGivenNames x6
      have h7 : Keeps s₀ x6 := by
        unfold x6
        exact State.setFePower_keeps h1
      clear_value x6
      extract_lets +onlyGivenNames x8
      have h9 : Keeps s₀ x8 := by
        unfold x8
        refine Keeps.foldl (fun _ _ h => State.reloadLoop_keeps h) (Keeps.foldl ?_ ?_)
        · intro a10 y11 h12
          exact State.reloadSource_keeps h12
        · exact h7
      clear_value x8
      refine State.enterService_keeps ?_
      refine Keeps.foldl ?_ ?_
      · intro a13 y14 h15
        exact State.reloadGroup_keeps h15
      · exact h9
theorem State.bringUp_keeps {s₀ s : State} (h0 : Keeps s₀ s) : Keeps s₀ (State.bringUp s) := by
  unfold State.bringUp
  extract_lets +onlyGivenNames x0
  extract_lets +onlyGivenNames x1
  have h2 : Keeps s₀ x1 := by
    unfold x1
    exact State.setPwr_keeps h0
  clear_value x1
  extract_lets +onlyGivenNames x3
  have h4 : Keeps s₀ x3 := by
    unfold x3
    refine Keeps.foldl ?_ ?_
    · intro a5 y6 h7
      exact Keeps.ite (State.wakePort_keeps h7) h7
    · exact h2
  clear_value x3
  refine Keeps.foldl ?_ ?_
  · intro a8 y9 h10
    exact State.settleFe_keeps h10
  · exact h4
theorem State.logBoot_keeps {s₀ s : State} (h0 : Keeps s₀ s) : Keeps s₀ (State.logBoot s) := by
  unfold State.logBoot
  refine Keeps.ite ?_ ?_
  · exact h0
  · split
    · rename_i v0 v1 v2 v3
      have h4 : Keeps s₀ v2 := Keeps.of_snd v3 (State.takeFree_keeps h0)
      split
      · rename_i v5 v6 v7 v8
        have h9 : Keeps s₀ v7 := Keeps.of_snd v8 (State.takeFree_keeps h4)
        split
        · rename_i v10 v11 v12 v13
          have h14 : Keeps s₀ v12 := Keeps.of_snd v13 (State.takeFree_keeps h9)
          exact State.logEvent_keeps (State.setPwr_keeps h14)
theorem State.startSlots_keeps {s₀ s : State} {d : Nat} (h0 : Keeps s₀ s) : Keeps s₀ (State.startSlots s d) := by
  unfold State.startSlots
  extract_lets +onlyGivenNames x0
  extract_lets +onlyGivenNames x1
  have h2 : Keeps s₀ x1 := by
    unfold x1
    exact State.setDie_keeps h0
  clear_value x1
  exact Keeps.upd (s := x1) h2 rfl rfl rfl rfl
theorem dieReady_keeps {s₀ : State} {d : Nat} {s : State} (h1 : Keeps s₀ s) : Keeps s₀ (dieReady d s) := by
  unfold dieReady
  refine Keeps.ite ?_ ?_
  · exact h1
  · extract_lets +onlyGivenNames x0
    extract_lets +onlyGivenNames x1
    have h2 : Keeps s₀ x1 := by
      unfold x1
      exact State.setDie_keeps h1
    clear_value x1
    extract_lets +onlyGivenNames x3
    have h4 : Keeps s₀ x3 := by
      unfold x3
      exact State.logBoot_keeps h2
    clear_value x3
    exact Keeps.ite (State.setDieState_keeps h4) (Keeps.ite h4 (State.bringUp_keeps h4))
theorem State.joinDies_keeps {s₀ s : State} (h0 : Keeps s₀ s) : Keeps s₀ (State.joinDies s) := by
  unfold State.joinDies
  exact Keeps.ite (State.enterStep_keeps (State.enterStep_keeps (State.startSlots_keeps (State.startSlots_keeps h0)))) h0
theorem joinWaitExpiry_keeps {s₀ : State} {d : Nat} {s : State} (h1 : Keeps s₀ s) : Keeps s₀ (joinWaitExpiry d s) := by
  unfold joinWaitExpiry
  extract_lets +onlyGivenNames x0
  refine Keeps.ite ?_ ?_
  · exact h1
  · extract_lets +onlyGivenNames x1
    have h2 : Keeps s₀ x1 := by
      unfold x1
      exact State.setBit_keeps (State.enterStep_keeps (State.startSlots_keeps h1))
    clear_value x1
    exact State.enterService_keeps (Keeps.ite h2 (State.moveGate_keeps h2))
theorem granaryReady_keeps {s₀ s : State} (h0 : Keeps s₀ s) : Keeps s₀ (granaryReady s) := by
  unfold granaryReady
  refine Keeps.ite ?_ ?_
  · exact h0
  · extract_lets +onlyGivenNames x0
    exact State.enterService_keeps (Keeps.upd (s := s) h0 rfl rfl rfl rfl)
theorem State.holdCold_keeps {s₀ s : State} {cause : Nat} {hold : PwrState → PwrState} (h0 : Keeps s₀ s) : Keeps s₀ (State.holdCold s cause hold) := by
  unfold State.holdCold
  exact Keeps.ite (State.setPwr_keeps h0) (State.reloadReset_keeps (State.setPwr_keeps h0))
theorem State.releaseCold_keeps {s₀ s : State} {cause : Nat} {release : PwrState → PwrState} (h0 : Keeps s₀ s) :
    Keeps s₀ (State.releaseCold s cause release) := by
  unfold State.releaseCold
  extract_lets +onlyGivenNames x1
  have h2 : Keeps s₀ x1 := by
    unfold x1
    exact State.setPwr_keeps h0
  clear_value x1
  refine Keeps.ite ?_ ?_
  · exact h2
  · extract_lets +onlyGivenNames x3
    have h4 : Keeps s₀ x3 := by
      unfold x3
      exact Keeps.upd (s := x1) h2 rfl rfl rfl rfl
    clear_value x3
    exact State.wrN_keeps (State.setPwr_keeps h4)
theorem porNChange_keeps {s₀ : State} {level : Bool} {s : State} (h1 : Keeps s₀ s) : Keeps s₀ (porNChange level s) := by
  unfold porNChange
  exact Keeps.ite (Keeps.ite (State.releaseCold_keeps h1) h1) (State.holdCold_keeps h1)
theorem rstNPulse_keeps {s₀ : State} {lengthNs : Nat} {s : State} (h1 : Keeps s₀ s) : Keeps s₀ (rstNPulse lengthNs s) := by
  unfold rstNPulse
  exact Keeps.ite h1 (State.reloadReset_keeps h1)
theorem brownOut_keeps {s₀ : State} {rail : Nat} {s : State} (h1 : Keeps s₀ s) : Keeps s₀ (brownOut rail s) := by
  unfold brownOut
  exact Keeps.ite h1 (State.holdCold_keeps h1)
theorem brownOutResetRelease_keeps {s₀ s : State} (h0 : Keeps s₀ s) : Keeps s₀ (brownOutResetRelease s) := by
  unfold brownOutResetRelease
  exact Keeps.ite (State.releaseCold_keeps h0) h0
theorem State.hardTrip_keeps {s₀ s : State} (h0 : Keeps s₀ s) : Keeps s₀ (State.hardTrip s) := by
  unfold State.hardTrip
  exact State.holdCold_keeps h0
theorem hardwareTrip_keeps {s₀ : State} {sensor : Nat} {s : State} (h1 : Keeps s₀ s) : Keeps s₀ (hardwareTrip sensor s) := by
  unfold hardwareTrip
  exact Keeps.ite (State.hardTrip_keeps h1) h1
theorem stopMaxExpiry_keeps {s₀ s : State} (h0 : Keeps s₀ s) : Keeps s₀ (stopMaxExpiry s) := by
  unfold stopMaxExpiry
  split
  · rename_i v0 v1
    exact h0
  · rename_i v2 v3 v4
    exact Keeps.ite (State.hardTrip_keeps h0) h0
theorem hardStopEnd_keeps {s₀ s : State} (h0 : Keeps s₀ s) : Keeps s₀ (hardStopEnd s) := by
  unfold hardStopEnd
  exact Keeps.ite (State.releaseCold_keeps h0) h0
theorem execReset_keeps {s₀ s : State} {h : Hdr} {p : List Word} (h₀ : Keeps s₀ s) :
    ∃ u, execReset h p s = .next u ∧ Keeps s₀ u :=
  ⟨_, rfl, State.receive_keeps h₀ fun _ h₁ => resetBody_keeps h₁⟩
theorem execColdReset_keeps {s₀ s : State} {t : Nat} (h₀ : Keeps s₀ s) :
    ∃ u, execColdReset t s = .next u ∧ Keeps s₀ u :=
  ⟨_, rfl, wideReset_keeps (State.at__keeps h₀)⟩
theorem execModuleReset_keeps {s₀ s : State} {t : Nat} (h₀ : Keeps s₀ s) :
    ∃ u, execModuleReset t s = .next u ∧ Keeps s₀ u :=
  ⟨_, rfl, wideReset_keeps (State.at__keeps h₀)⟩
theorem execConcentratorReset_keeps {s₀ s : State} {t : Nat} (h₀ : Keeps s₀ s) :
    ∃ u, execConcentratorReset t s = .next u ∧ Keeps s₀ u :=
  ⟨_, rfl, wideReset_keeps (State.at__keeps h₀)⟩
theorem execDieReset_keeps {s₀ s : State} {t : Nat} {die : Fin 2} (h₀ : Keeps s₀ s) :
    ∃ u, execDieReset t die s = .next u ∧ Keeps s₀ u :=
  ⟨_, rfl, dieReset_keeps (State.at__keeps h₀)⟩
theorem execWatchdogExpiry_keeps {s₀ s : State} {t : Nat} {die : Fin 2} (h₀ : Keeps s₀ s) :
    ∃ u, execWatchdogExpiry t die s = .next u ∧ Keeps s₀ u :=
  ⟨_, rfl, watchdogExpiry_keeps (State.at__keeps h₀)⟩
theorem execFrontEndReset_keeps {s₀ s : State} {t : Nat} {fe : Fin 4} (h₀ : Keeps s₀ s) :
    ∃ u, execFrontEndReset t fe s = .next u ∧ Keeps s₀ u :=
  ⟨_, rfl, frontEndReset_keeps (State.at__keeps h₀)⟩
theorem execFrontEndReloaded_keeps {s₀ s : State} {t : Nat} {fe : Fin 4} (h₀ : Keeps s₀ s) :
    ∃ u, execFrontEndReloaded t fe s = .next u ∧ Keeps s₀ u :=
  ⟨_, rfl, frontEndReloaded_keeps (State.at__keeps h₀)⟩
theorem execDieReady_keeps {s₀ s : State} {t : Nat} {die : Fin 2} (h₀ : Keeps s₀ s) :
    ∃ u, execDieReady t die s = .next u ∧ Keeps s₀ u :=
  ⟨_, rfl, dieReady_keeps (State.at__keeps h₀)⟩
theorem execJoinWaitExpiry_keeps {s₀ s : State} {t : Nat} {die : Fin 2} (h₀ : Keeps s₀ s) :
    ∃ u, execJoinWaitExpiry t die s = .next u ∧ Keeps s₀ u :=
  ⟨_, rfl, joinWaitExpiry_keeps (State.at__keeps h₀)⟩
theorem execGranaryReady_keeps {s₀ s : State} {t : Nat} (h₀ : Keeps s₀ s) :
    ∃ u, execGranaryReady t s = .next u ∧ Keeps s₀ u :=
  ⟨_, rfl, granaryReady_keeps (State.at__keeps h₀)⟩
theorem execPorNChange_keeps {s₀ s : State} {t : Nat} {level : Bool} (h₀ : Keeps s₀ s) :
    ∃ u, execPorNChange t level s = .next u ∧ Keeps s₀ u :=
  ⟨_, rfl, porNChange_keeps (State.at__keeps h₀)⟩
theorem execRstNPulse_keeps {s₀ s : State} {t : Nat} {lengthNs : Nat} (h₀ : Keeps s₀ s) :
    ∃ u, execRstNPulse t lengthNs s = .next u ∧ Keeps s₀ u :=
  ⟨_, rfl, rstNPulse_keeps (State.at__keeps h₀)⟩
theorem execBrownOut_keeps {s₀ s : State} {t : Nat} {rail : Fin 22} (h₀ : Keeps s₀ s) :
    ∃ u, execBrownOut t rail s = .next u ∧ Keeps s₀ u :=
  ⟨_, rfl, brownOut_keeps (State.at__keeps h₀)⟩
theorem execBrownOutResetRelease_keeps {s₀ s : State} {t : Nat} (h₀ : Keeps s₀ s) :
    ∃ u, execBrownOutResetRelease t s = .next u ∧ Keeps s₀ u :=
  ⟨_, rfl, brownOutResetRelease_keeps (State.at__keeps h₀)⟩
theorem execHardwareTrip_keeps {s₀ s : State} {t : Nat} {sensor : Fin 17} (h₀ : Keeps s₀ s) :
    ∃ u, execHardwareTrip t sensor s = .next u ∧ Keeps s₀ u :=
  ⟨_, rfl, hardwareTrip_keeps (State.at__keeps h₀)⟩
theorem execStopMaxExpiry_keeps {s₀ s : State} {t : Nat} (h₀ : Keeps s₀ s) :
    ∃ u, execStopMaxExpiry t s = .next u ∧ Keeps s₀ u :=
  ⟨_, rfl, stopMaxExpiry_keeps (State.at__keeps h₀)⟩
theorem execHardStopEnd_keeps {s₀ s : State} {t : Nat} (h₀ : Keeps s₀ s) :
    ∃ u, execHardStopEnd t s = .next u ∧ Keeps s₀ u :=
  ⟨_, rfl, hardStopEnd_keeps (State.at__keeps h₀)⟩

/-! ### Tb -/

theorem tbReadBody_keeps {s₀ : State} {p : List Word} {s : State} (h1 : Keeps s₀ s) : Keeps s₀ (tbReadBody p s).1 := by
  unfold tbReadBody
  exact Keeps.ite₁ (refuse_keeps h1) (okay_keeps h1)
theorem State.domainAct_keeps {s₀ s : State} {p : List Word} (h0 : Keeps s₀ s) : Keeps s₀ (State.domainAct s p).1 := by
  unfold State.domainAct
  extract_lets +onlyGivenNames x0
  have h1 : Keeps s₀ x0 := by
    unfold x0
    exact State.tbUpdate_keeps (State.wrN_keeps h0)
  clear_value x0
  exact h1
theorem tbDomainBody_keeps {s₀ : State} {h : Hdr} {p : List Word} {s : State} (h2 : Keeps s₀ s) : Keeps s₀ (tbDomainBody h p s).1 := by
  unfold tbDomainBody
  refine Keeps.ite₁ ?_ ?_
  · exact refuse_keeps h2
  · refine Keeps.ite₁ ?_ ?_
    · exact refuse_keeps h2
    · refine Keeps.ite₁ ?_ ?_
      · exact h2
      · extract_lets +onlyGivenNames x0
        have h1 : Keeps s₀ x0.1 := by
          unfold x0
          exact State.domainAct_keeps h2
        clear_value x0
        exact okay_keeps h1
theorem State.setAsym_keeps {s₀ s : State} {port : Nat} {v : Int} (h0 : Keeps s₀ s) : Keeps s₀ (State.setAsym s port v) := by
  unfold State.setAsym
  extract_lets +onlyGivenNames x0
  extract_lets +onlyGivenNames x1
  have h2 : Keeps s₀ x1 := by
    unfold x1
    exact State.wrI_keeps h0
  clear_value x1
  extract_lets +onlyGivenNames x3
  extract_lets +onlyGivenNames x4
  extract_lets +onlyGivenNames x5
  have h6 : Keeps s₀ x5 := by
    unfold x5
    exact State.setDomain_keeps h2
  clear_value x5
  extract_lets +onlyGivenNames x7
  extract_lets +onlyGivenNames x8
  have h9 : Keeps s₀ x8 := by
    unfold x8
    exact Keeps.ite (State.slewBy_keeps (State.setTb_keeps h6)) h6
  clear_value x8
  exact State.tbNote_keeps h9
theorem asymSet_keeps {s₀ : State} {p : List Word} {s : State} (h1 : Keeps s₀ s) : Keeps s₀ (asymSet p s).1 := by
  unfold asymSet
  extract_lets +onlyGivenNames x0
  extract_lets +onlyGivenNames x1
  exact Keeps.ite₁ (refuse_keeps h1) (okay_keeps (State.setAsym_keeps h1))
theorem tbAsymBody_keeps {s₀ : State} {h : Hdr} {p : List Word} {s : State} (h2 : Keeps s₀ s) : Keeps s₀ (tbAsymBody h p s).1 := by
  unfold tbAsymBody
  extract_lets +onlyGivenNames x0
  extract_lets +onlyGivenNames x1
  refine Keeps.ite₁ ?_ ?_
  · exact refuse_keeps h2
  · exact Keeps.ite₁ (refuse_keeps h2) (Keeps.ite₁ (Keeps.ite₁ (refuse_keeps h2) (Keeps.fst_mk (State.setTb_keeps h2))) (asymSet_keeps h2))
theorem State.finishMeasure_keeps {s₀ s : State} {m : AsymMeasure} (h0 : Keeps s₀ s) : Keeps s₀ (State.finishMeasure s m) := by
  unfold State.finishMeasure
  extract_lets +onlyGivenNames x0
  extract_lets +onlyGivenNames x1
  extract_lets +onlyGivenNames x2
  extract_lets +onlyGivenNames x3
  extract_lets +onlyGivenNames x4
  extract_lets +onlyGivenNames x5
  exact Keeps.ite (State.finish_keeps h0) (State.finish_keeps (State.setAsym_keeps h0))
theorem State.measureEdge_keeps {s₀ s : State} {c : Int} (h0 : Keeps s₀ s) : Keeps s₀ (State.measureEdge s c) := by
  unfold State.measureEdge
  extract_lets +onlyGivenNames x0
  extract_lets +onlyGivenNames x1
  refine Keeps.foldl ?_ ?_
  · intro a2 y3 h4
    exact State.finishMeasure_keeps h4
  · exact State.setTb_keeps h0
theorem tbJumpPermit_keeps {s₀ : State} {h : Hdr} {s : State} (h1 : Keeps s₀ s) : Keeps s₀ (tbJumpPermit h s).1 := by
  unfold tbJumpPermit
  exact Keeps.ite₁ (refuse_keeps h1) (Keeps.fst_mk (State.setTb_keeps h1))
theorem State.withdrawSet_keeps {s₀ s : State} (h0 : Keeps s₀ s) : Keeps s₀ (State.withdrawSet s) := by
  unfold State.withdrawSet
  split
  · rename_i v0 v1 v2
    exact State.finish_keeps (State.setTb_keeps h0)
  · rename_i v3 v4
    exact h0
theorem tbJumpSet_keeps {s₀ : State} {h : Hdr} {p : List Word} {s : State} (h2 : Keeps s₀ s) : Keeps s₀ (tbJumpSet h p s).1 := by
  unfold tbJumpSet
  extract_lets +onlyGivenNames x0
  extract_lets +onlyGivenNames x1
  refine Keeps.ite₁ ?_ ?_
  · exact refuse_keeps h2
  · refine Keeps.ite₁ ?_ ?_
    · exact refuse_keeps h2
    · extract_lets +onlyGivenNames x2
      have h3 : Keeps s₀ x2 := by
        unfold x2
        exact State.withdrawSet_keeps h2
      clear_value x2
      extract_lets +onlyGivenNames x4
      exact Keeps.fst_mk (State.setTb_keeps h3)
theorem tbJumpBody_keeps {s₀ : State} {h : Hdr} {p : List Word} {s : State} (h2 : Keeps s₀ s) : Keeps s₀ (tbJumpBody h p s).1 := by
  unfold tbJumpBody
  exact Keeps.ite₁ (refuse_keeps h2) (Keeps.ite₁ (tbJumpPermit_keeps h2) (tbJumpSet_keeps h2))
theorem tbJumpSetTimeout_keeps {s₀ s : State} (h0 : Keeps s₀ s) : Keeps s₀ (tbJumpSetTimeout s) := by
  unfold tbJumpSetTimeout
  split
  · rename_i v0 v1 v2
    exact Keeps.ite (State.finish_keeps (State.setTb_keeps h0)) h0
  · rename_i v3 v4
    exact h0
theorem timeBlockSend_keeps {s₀ : State} {p : Nat} {s : State} (h1 : Keeps s₀ s) : Keeps s₀ (timeBlockSend p s) := by
  unfold timeBlockSend
  refine Keeps.ite ?_ ?_
  · exact h1
  · extract_lets +onlyGivenNames x0
    split
    · rename_i v1 v2 v3 v4 v5 v6 v7 v8
      extract_lets +onlyGivenNames x9
      split
      · rename_i v10 v11 v12 v13
        extract_lets +onlyGivenNames x14
        extract_lets +onlyGivenNames x15
        extract_lets +onlyGivenNames x16
        have h17 : Keeps s₀ x16 := by
          unfold x16
          exact State.setLanePort_keeps h1
        clear_value x16
        exact State.setTimePort_keeps h17
theorem State.noteExchange_keeps {s₀ s : State} {p : Nat} {b : TimeBlock} (h0 : Keeps s₀ s) : Keeps s₀ (State.noteExchange s p b) := by
  unfold State.noteExchange
  split
  · rename_i v0 v1
    exact h0
  · rename_i v2 v3 v4 v5 v6 v7
    extract_lets +onlyGivenNames x8
    extract_lets +onlyGivenNames x9
    extract_lets +onlyGivenNames x10
    have h11 : Keeps s₀ x10 := by
      unfold x10
      exact State.setTimePort_keeps h0
    clear_value x10
    extract_lets +onlyGivenNames x12
    extract_lets +onlyGivenNames x13
    have h14 : Keeps s₀ x13 := by
      unfold x13
      exact State.wrI_keeps h11
    clear_value x13
    extract_lets +onlyGivenNames x15
    extract_lets +onlyGivenNames x16
    extract_lets +onlyGivenNames x17
    have h18 : Keeps s₀ x17 := by
      unfold x17
      exact State.setDomain_keeps h14
    clear_value x17
    refine Keeps.ite ?_ ?_
    · extract_lets +onlyGivenNames x19
      have h20 : Keeps s₀ x19 := by
        unfold x19
        exact State.setPhase_keeps h18
      clear_value x19
      exact Keeps.ite (State.newSteer_keeps h20) h20
    · exact h18
theorem timeBlockReceive_keeps {s₀ : State} {p : Nat} {b : TimeBlock} {s : State} (h2 : Keeps s₀ s) : Keeps s₀ (timeBlockReceive p b s) := by
  unfold timeBlockReceive
  refine Keeps.ite ?_ ?_
  · exact h2
  · extract_lets +onlyGivenNames x0
    extract_lets +onlyGivenNames x1
    extract_lets +onlyGivenNames x2
    have h3 : Keeps s₀ x2 := by
      unfold x2
      exact Keeps.ite h2 (State.tbUpdate_keeps (State.setDomain_keeps h2))
    clear_value x2
    extract_lets +onlyGivenNames x4
    have h5 : Keeps s₀ x4 := by
      unfold x4
      exact State.setDomain_keeps h3
    clear_value x4
    extract_lets +onlyGivenNames x6
    have h7 : Keeps s₀ x6 := by
      unfold x6
      exact State.noteExchange_keeps h5
    clear_value x6
    exact State.tbUpdate_keeps (State.setTimePort_keeps h7)
theorem domainLossTimeout_keeps {s₀ s : State} (h0 : Keeps s₀ s) : Keeps s₀ (domainLossTimeout s) := by
  unfold domainLossTimeout
  exact State.tbUpdate_keeps h0
theorem tbLockAchieved_keeps {s₀ s : State} (h0 : Keeps s₀ s) : Keeps s₀ (tbLockAchieved s) := by
  unfold tbLockAchieved
  split
  · rename_i v0 v1 v2
    exact Keeps.ite (State.tbUpdate_keeps (State.newSteer_keeps (State.enterTb_keeps h0))) h0
  · rename_i v3 v4
    exact h0
theorem tbPhaseErrorExceed_keeps {s₀ s : State} (h0 : Keeps s₀ s) : Keeps s₀ (tbPhaseErrorExceed s) := by
  unfold tbPhaseErrorExceed
  split
  · rename_i v0 v1 v2
    exact Keeps.ite (State.tbUpdate_keeps (State.enterRecovery_keeps h0)) h0
  · rename_i v3 v4
    exact h0
theorem State.refuseCorrection_keeps {s₀ s : State} {c : Int} (h0 : Keeps s₀ s) : Keeps s₀ (State.refuseCorrection s c) := by
  unfold State.refuseCorrection
  refine Keeps.ite ?_ ?_
  · exact h0
  · extract_lets +onlyGivenNames x0
    have h1 : Keeps s₀ x0 := by
      unfold x0
      exact State.slewBy_keeps (State.startEstimate_keeps h0)
    clear_value x0
    exact State.modelSteer_keeps (State.addSat_keeps (State.setBit_keeps (State.setBit_keeps h1)))
theorem correctionRemeasure_keeps {s₀ s : State} (h0 : Keeps s₀ s) : Keeps s₀ (correctionRemeasure s) := by
  unfold correctionRemeasure
  extract_lets +onlyGivenNames x0
  refine Keeps.ite ?_ ?_
  · exact h0
  · extract_lets +onlyGivenNames x1
    extract_lets +onlyGivenNames x2
    extract_lets +onlyGivenNames x3
    extract_lets +onlyGivenNames x4
    have h5 : Keeps s₀ x4 := by
      unfold x4
      exact State.setTb_keeps h0
    clear_value x4
    refine Keeps.ite ?_ ?_
    · exact h5
    · refine Keeps.ite ?_ ?_
      · exact State.tbUpdate_keeps (State.refuseCorrection_keeps h5)
      · extract_lets +onlyGivenNames x6
        have h7 : Keeps s₀ x6 := by
          unfold x6
          exact State.clrBits_keeps h5
        clear_value x6
        exact State.tbUpdate_keeps (Keeps.ite h7 (State.slewBy_keeps h7))
theorem slewComplete_keeps {s₀ s : State} (h0 : Keeps s₀ s) : Keeps s₀ (slewComplete s) := by
  unfold slewComplete
  refine Keeps.ite ?_ ?_
  · exact h0
  · extract_lets +onlyGivenNames x0
    extract_lets +onlyGivenNames x1
    have h2 : Keeps s₀ x1 := by
      unfold x1
      exact State.slewBy_keeps h0
    clear_value x1
    exact State.tbNote_keeps (Keeps.ite (State.setPhase_keeps h2) h2)
theorem State.validEdge_keeps {s₀ s : State} {c : Int} (h0 : Keeps s₀ s) : Keeps s₀ (State.validEdge s c) := by
  unfold State.validEdge
  extract_lets +onlyGivenNames x0
  extract_lets +onlyGivenNames x1
  have h2 : Keeps s₀ x1 := by
    unfold x1
    exact State.tbUpdate_keeps (State.setTb_keeps h0)
  clear_value x1
  extract_lets +onlyGivenNames x3
  extract_lets +onlyGivenNames x4
  have h5 : Keeps s₀ x4 := by
    unfold x4
    exact State.setPhase_keeps h2
  clear_value x4
  extract_lets +onlyGivenNames x6
  have h7 : Keeps s₀ x6 := by
    unfold x6
    exact State.setPhase_keeps h2
  clear_value x6
  extract_lets +onlyGivenNames x8
  extract_lets +onlyGivenNames x9
  have h10 : Keeps s₀ x9 := by
    unfold x9
    refine Keeps.ite ?_ ?_
    · exact Keeps.ite (State.newSteer_keeps h5) h5
    · exact Keeps.ite (Keeps.ite (Keeps.ite (State.newSteer_keeps h7) h7) (Keeps.ite (State.setTb_keeps h2) h2)) h2
  clear_value x9
  exact State.tbUpdate_keeps (State.measureEdge_keeps h10)
theorem State.judgeEdge_keeps {s₀ s : State} {c : Int} (h0 : Keeps s₀ s) : Keeps s₀ (State.judgeEdge s c) := by
  unfold State.judgeEdge
  exact Keeps.ite (State.setBit_keeps (State.setTb_keeps h0)) (State.validEdge_keeps h0)
theorem ppsinEdge_keeps {s₀ s : State} (h0 : Keeps s₀ s) : Keeps s₀ (ppsinEdge s) := by
  unfold ppsinEdge
  extract_lets +onlyGivenNames x0
  split
  · rename_i v1 v2 v3
    refine Keeps.ite ?_ ?_
    · extract_lets +onlyGivenNames x4
      exact State.setTb_keeps h0
    · exact State.judgeEdge_keeps h0
  · rename_i v5 v6
    exact State.judgeEdge_keeps h0
theorem ppsMissing_keeps {s₀ s : State} (h0 : Keeps s₀ s) : Keeps s₀ (ppsMissing s) := by
  unfold ppsMissing
  extract_lets +onlyGivenNames x0
  extract_lets +onlyGivenNames x1
  extract_lets +onlyGivenNames x2
  extract_lets +onlyGivenNames x3
  have h4 : Keeps s₀ x3 := by
    unfold x3
    refine Keeps.foldl ?_ ?_
    · intro a5 y6 h7
      exact State.finish_keeps h7
    · exact State.setTb_keeps h0
  clear_value x3
  extract_lets +onlyGivenNames x8
  extract_lets +onlyGivenNames x9
  exact Keeps.ite (State.tbUpdate_keeps (State.setBit_keeps h4)) (Keeps.ite h4 (State.setBit_keeps h4))
theorem State.noteModel_keeps {s₀ s : State} (h0 : Keeps s₀ s) : Keeps s₀ (State.noteModel s) := by
  unfold State.noteModel
  extract_lets +onlyGivenNames x0
  extract_lets +onlyGivenNames x1
  have h2 : Keeps s₀ x1 := by
    unfold x1
    exact State.wrN_keeps h0
  clear_value x1
  exact State.wrN_keeps h2
theorem modelRecord_keeps {s₀ : State} {milliC : Int} {s : State} (h1 : Keeps s₀ s) : Keeps s₀ (modelRecord milliC s) := by
  unfold modelRecord
  extract_lets +onlyGivenNames x0
  refine Keeps.ite ?_ ?_
  · exact h1
  · extract_lets +onlyGivenNames x1
    exact State.noteModel_keeps (State.setTb_keeps h1)
theorem modelRefit_keeps {s₀ s : State} (h0 : Keeps s₀ s) : Keeps s₀ (modelRefit s) := by
  unfold modelRefit
  refine Keeps.ite ?_ ?_
  · exact h0
  · extract_lets +onlyGivenNames x0
    extract_lets +onlyGivenNames x1
    extract_lets +onlyGivenNames x2
    exact State.noteModel_keeps (State.setTb_keeps (Keeps.upd (s := s) h0 rfl rfl rfl rfl))
theorem execTbRead_keeps {s₀ s : State} {h : Hdr} {p : List Word} (h₀ : Keeps s₀ s) :
    ∃ u, execTbRead h p s = .next u ∧ Keeps s₀ u :=
  ⟨_, rfl, State.receive_keeps h₀ fun _ h₁ => tbReadBody_keeps h₁⟩
theorem execTbDomain_keeps {s₀ s : State} {h : Hdr} {p : List Word} (h₀ : Keeps s₀ s) :
    ∃ u, execTbDomain h p s = .next u ∧ Keeps s₀ u :=
  ⟨_, rfl, State.receive_keeps h₀ fun _ h₁ => tbDomainBody_keeps h₁⟩
theorem execTbAsymSet_keeps {s₀ s : State} {h : Hdr} {p : List Word} (h₀ : Keeps s₀ s) :
    ∃ u, execTbAsymSet h p s = .next u ∧ Keeps s₀ u :=
  ⟨_, rfl, State.receive_keeps h₀ fun _ h₁ => tbAsymBody_keeps h₁⟩
theorem execTbAsymMeasure_keeps {s₀ s : State} {h : Hdr} {p : List Word} (h₀ : Keeps s₀ s) :
    ∃ u, execTbAsymMeasure h p s = .next u ∧ Keeps s₀ u :=
  ⟨_, rfl, State.receive_keeps h₀ fun _ h₁ => tbAsymBody_keeps h₁⟩
theorem execTbAsymClear_keeps {s₀ s : State} {h : Hdr} {p : List Word} (h₀ : Keeps s₀ s) :
    ∃ u, execTbAsymClear h p s = .next u ∧ Keeps s₀ u :=
  ⟨_, rfl, State.receive_keeps h₀ fun _ h₁ => tbAsymBody_keeps h₁⟩
theorem execTbJumpPermit_keeps {s₀ s : State} {h : Hdr} {p : List Word} (h₀ : Keeps s₀ s) :
    ∃ u, execTbJumpPermit h p s = .next u ∧ Keeps s₀ u :=
  ⟨_, rfl, State.receive_keeps h₀ fun _ h₁ => tbJumpBody_keeps h₁⟩
theorem execTbJumpSet_keeps {s₀ s : State} {h : Hdr} {p : List Word} (h₀ : Keeps s₀ s) :
    ∃ u, execTbJumpSet h p s = .next u ∧ Keeps s₀ u :=
  ⟨_, rfl, State.receive_keeps h₀ fun _ h₁ => tbJumpBody_keeps h₁⟩
theorem execTbJumpSetTimeout_keeps {s₀ s : State} {t : Nat} (h₀ : Keeps s₀ s) :
    ∃ u, execTbJumpSetTimeout t s = .next u ∧ Keeps s₀ u :=
  ⟨_, rfl, tbJumpSetTimeout_keeps (State.at__keeps h₀)⟩
theorem execTimeBlockSend_keeps {s₀ s : State} {t : Nat} {port : Fin 2} (h₀ : Keeps s₀ s) :
    ∃ u, execTimeBlockSend t port s = .next u ∧ Keeps s₀ u :=
  ⟨_, rfl, timeBlockSend_keeps (State.at__keeps h₀)⟩
theorem execTimeBlockReceive_keeps {s₀ s : State} {t : Nat} {port : Fin 2} {block : TimeBlock} (h₀ : Keeps s₀ s) :
    ∃ u, execTimeBlockReceive t port block s = .next u ∧ Keeps s₀ u :=
  ⟨_, rfl, timeBlockReceive_keeps (State.at__keeps h₀)⟩
theorem execDomainLossTimeout_keeps {s₀ s : State} {t : Nat} (h₀ : Keeps s₀ s) :
    ∃ u, execDomainLossTimeout t s = .next u ∧ Keeps s₀ u :=
  ⟨_, rfl, domainLossTimeout_keeps (State.at__keeps h₀)⟩
theorem execTbLockAchieved_keeps {s₀ s : State} {t : Nat} (h₀ : Keeps s₀ s) :
    ∃ u, execTbLockAchieved t s = .next u ∧ Keeps s₀ u :=
  ⟨_, rfl, tbLockAchieved_keeps (State.at__keeps h₀)⟩
theorem execTbPhaseErrorExceed_keeps {s₀ s : State} {t : Nat} (h₀ : Keeps s₀ s) :
    ∃ u, execTbPhaseErrorExceed t s = .next u ∧ Keeps s₀ u :=
  ⟨_, rfl, tbPhaseErrorExceed_keeps (State.at__keeps h₀)⟩
theorem execCorrectionRemeasure_keeps {s₀ s : State} {t : Nat} (h₀ : Keeps s₀ s) :
    ∃ u, execCorrectionRemeasure t s = .next u ∧ Keeps s₀ u :=
  ⟨_, rfl, correctionRemeasure_keeps (State.at__keeps h₀)⟩
theorem execSlewComplete_keeps {s₀ s : State} {t : Nat} (h₀ : Keeps s₀ s) :
    ∃ u, execSlewComplete t s = .next u ∧ Keeps s₀ u :=
  ⟨_, rfl, slewComplete_keeps (State.at__keeps h₀)⟩
theorem execPpsinEdge_keeps {s₀ s : State} {t : Nat} (h₀ : Keeps s₀ s) :
    ∃ u, execPpsinEdge t s = .next u ∧ Keeps s₀ u :=
  ⟨_, rfl, ppsinEdge_keeps (State.at__keeps h₀)⟩
theorem execPpsMissing_keeps {s₀ s : State} {t : Nat} (h₀ : Keeps s₀ s) :
    ∃ u, execPpsMissing t s = .next u ∧ Keeps s₀ u :=
  ⟨_, rfl, ppsMissing_keeps (State.at__keeps h₀)⟩
theorem execModelRecord_keeps {s₀ s : State} {t : Nat} {milliC : Int} (h₀ : Keeps s₀ s) :
    ∃ u, execModelRecord t milliC s = .next u ∧ Keeps s₀ u :=
  ⟨_, rfl, modelRecord_keeps (State.at__keeps h₀)⟩
theorem execModelRefit_keeps {s₀ s : State} {t : Nat} (h₀ : Keeps s₀ s) :
    ∃ u, execModelRefit t s = .next u ∧ Keeps s₀ u :=
  ⟨_, rfl, modelRefit_keeps (State.at__keeps h₀)⟩

end Sys2Proof.Machine
end

