-- ==== Sys2Proof/Laws/KeepsRest.lean ====
section
/-! SUPPORT. What the operations and the commands of a group keep (see Keeps): commands, slots and steps of the time base. -/

set_option linter.all false

namespace Sys2Proof.Machine

/-! ### Cmd -/

theorem nopBody_keeps {s₀ : State} {p : List Word} {s : State} (h1 : Keeps s₀ s) : Keeps s₀ (nopBody p s).1 := by
  unfold nopBody
  exact Keeps.ite₁ (refuse_keeps h1) (okay_keeps h1)
theorem identBody_keeps {s₀ : State} {p : List Word} {s : State} (h1 : Keeps s₀ s) : Keeps s₀ (identBody p s).1 := by
  unfold identBody
  exact Keeps.ite₁ (refuse_keeps h1) (okay_keeps h1)
theorem State.takeId_keeps {s₀ s : State} {id : Nat} (h0 : Keeps s₀ s) : Keeps s₀ (State.takeId s id).1 := by
  unfold State.takeId
  exact Keeps.ite₁ (refuse_keeps h0) (okay_keeps (Keeps.upd (s := s) h0 rfl rfl rfl rfl))
theorem setidBody_keeps {s₀ : State} {h : Hdr} {p : List Word} {s : State} (h2 : Keeps s₀ s) : Keeps s₀ (setidBody h p s).1 := by
  unfold setidBody
  extract_lets +onlyGivenNames x0
  extract_lets +onlyGivenNames x1
  extract_lets +onlyGivenNames x2
  refine Keeps.ite₁ ?_ ?_
  · exact refuse_keeps h2
  · refine Keeps.ite₁ ?_ ?_
    · exact refuse_keeps h2
    · refine Keeps.ite₁ ?_ ?_
      · exact refuse_keeps h2
      · refine Keeps.ite₁ ?_ ?_
        · exact h2
        · exact Keeps.ite₁ (State.takeId_keeps h2) (Keeps.ite₁ (okay_keeps h2) (Keeps.ite₁ (State.takeId_keeps h2) (State.takeId_keeps h2)))
theorem readBody_keeps {s₀ : State} {code : Nat} {h : Hdr} {p : List Word} {values : State → List Nat → List Word} {s : State} (h4 : Keeps s₀ s) :
    Keeps s₀ (readBody code h p values s).1 := by
  unfold readBody
  refine Keeps.ite₁ ?_ ?_
  · exact refuse_keeps h4
  · split
    · rename_i v2 v3 v4
      exact refuse_keeps h4
    · rename_i v5 v6
      exact okay_keeps h4
theorem parReadBody_keeps {s₀ : State} {h : Hdr} {p : List Word} {u2 : State} (h2 : Keeps s₀ u2) : Keeps s₀ (parReadBody h p u2).1 := by
  unfold parReadBody
  exact readBody_keeps h2
theorem parStagedBody_keeps {s₀ : State} {h : Hdr} {p : List Word} {u2 : State} (h2 : Keeps s₀ u2) : Keeps s₀ (parStagedBody h p u2).1 := by
  unfold parStagedBody
  exact readBody_keeps h2
theorem State.clearStatus_keeps {s₀ s : State} {k mask : Nat} {v : Word} (h0 : Keeps s₀ s) : Keeps s₀ (State.clearStatus s k mask v) := by
  unfold State.clearStatus
  extract_lets +onlyGivenNames x0
  extract_lets +onlyGivenNames x1
  have h2 : Keeps s₀ x1 := by
    unfold x1
    exact Keeps.ite (State.noteSkip_keeps h0) h0
  clear_value x1
  extract_lets +onlyGivenNames x3
  have h4 : Keeps s₀ x3 := by
    unfold x3
    exact State.writeW1c_keeps h2
  clear_value x3
  extract_lets +onlyGivenNames x5
  have h6 : Keeps s₀ x5 := by
    unfold x5
    exact Keeps.ite (State.noteSkip_keeps h4) h4
  clear_value x5
  extract_lets +onlyGivenNames x7
  exact Keeps.ite (State.setBit_keeps h6) h6
theorem State.writeParam_keeps {s₀ s : State} {k : Nat} {v : Word} (h0 : Keeps s₀ s) : Keeps s₀ (State.writeParam s k v) := by
  unfold State.writeParam
  split
  · rename_i v0 v1
    exact h0
  · rename_i v2 v3 v4
    split
    · rename_i v5 v6
      exact h0
    · rename_i v7 v8
      exact State.wrN_keeps (Keeps.upd (s := s) h0 rfl rfl rfl rfl)
    · rename_i v9 v10
      extract_lets +onlyGivenNames x11
      have h12 : Keeps s₀ x11 := by
        unfold x11
        exact State.wr_keeps h0
      clear_value x11
      extract_lets +onlyGivenNames x13
      have h14 : Keeps s₀ x13 := by
        unfold x13
        exact Keeps.ite (State.queueSelect_keeps h12) h12
      clear_value x13
      exact Keeps.ite (State.setMgt_keeps h14) h14
    · rename_i v15 v16 v17
      exact State.clearStatus_keeps h0
theorem State.writeAll_keeps {s₀ s : State} {es : List (Nat × Word)} (h0 : Keeps s₀ s) : Keeps s₀ (State.writeAll s es) := by
  unfold State.writeAll
  refine Keeps.foldl ?_ ?_
  · intro a0 y1 h2
    exact State.writeParam_keeps h2
  · exact h0
theorem State.parWrite_keeps {s₀ s : State} {p : List Word} (h0 : Keeps s₀ s) : Keeps s₀ (State.parWrite s p).1 := by
  unfold State.parWrite
  extract_lets +onlyGivenNames x0
  split
  · rename_i v1 v2
    exact Keeps.fst_mk (State.writeAll_keeps h0)
  · rename_i v3 v4 v5
    exact h0
theorem parWriteBody_keeps {s₀ s : State} {h : Hdr} {p : List Word} (h₁ : Keeps s₀ s) : Keeps s₀ (parWriteBody h p s).1 := by
  unfold parWriteBody
  exact Keeps.ite₁ (refuse_keeps h₁) (Keeps.ite₁ (refuse_keeps h₁) (Keeps.ite₁ h₁ (State.parWrite_keeps h₁)))
theorem snapTakeBody_keeps {s₀ : State} {h : Hdr} {p : List Word} {s : State} (h2 : Keeps s₀ s) : Keeps s₀ (snapTakeBody h p s).1 := by
  unfold snapTakeBody
  extract_lets +onlyGivenNames x0
  refine Keeps.ite₁ ?_ ?_
  · exact refuse_keeps h2
  · refine Keeps.ite₁ ?_ ?_
    · exact refuse_keeps h2
    · extract_lets +onlyGivenNames x1
      extract_lets +onlyGivenNames x2
      have h3 : Keeps s₀ x2 := by
        unfold x2
        exact Keeps.upd (s := s) h2 rfl rfl rfl rfl
      clear_value x2
      exact h3
theorem State.clearW1c_keeps {s₀ s : State} {mask : Nat} (h0 : Keeps s₀ s) : Keeps s₀ (State.clearW1c s mask) := by
  unfold State.clearW1c
  refine Keeps.foldl ?_ ?_
  · intro a0 y1 h2
    split
    · rename_i v3 v4 v5
      split
      · rename_i v6 v7 v8
        exact Keeps.ite (State.clrBits_keeps h2) h2
      · rename_i v9 v10
        exact h2
    · rename_i v11 v12
      exact h2
  · exact h0
theorem snapLatch_keeps {s₀ s : State} (h0 : Keeps s₀ s) : Keeps s₀ (snapLatch s) := by
  unfold snapLatch
  split
  · rename_i v0 v1
    exact h0
  · rename_i v2 v3 v4
    refine Keeps.ite ?_ ?_
    · exact h0
    · extract_lets +onlyGivenNames x5
      extract_lets +onlyGivenNames x6
      have h7 : Keeps s₀ x6 := by
        unfold x6
        exact State.wr64_keeps (State.wrN_keeps h0)
      clear_value x6
      extract_lets +onlyGivenNames x8
      extract_lets +onlyGivenNames x9
      extract_lets +onlyGivenNames x10
      have h11 : Keeps s₀ x10 := by
        unfold x10
        exact Keeps.upd (s := x6) h7 rfl rfl rfl rfl
      clear_value x10
      extract_lets +onlyGivenNames x12
      have h13 : Keeps s₀ x12 := by
        unfold x12
        exact Keeps.ite (State.clearW1c_keeps h11) h11
      clear_value x12
      exact State.finish_keeps h13
theorem snapReadBody_keeps {s₀ : State} {p : List Word} {s : State} (h1 : Keeps s₀ s) : Keeps s₀ (snapReadBody p s).1 := by
  unfold snapReadBody
  refine Keeps.ite₁ ?_ ?_
  · exact refuse_keeps h1
  · split
    · rename_i v0 v1 v2
      exact refuse_keeps h1
    · rename_i v3 v4
      split
      · rename_i v5 v6
        exact refuse_keeps h1
      · rename_i v7 v8 v9
        exact Keeps.ite₁ (okay_keeps h1) (refuse_keeps h1)
theorem State.withdraw_keeps {s₀ s : State} {o : Outstanding} (h0 : Keeps s₀ s) : Keeps s₀ (State.withdraw s o) := by
  unfold State.withdraw
  extract_lets +onlyGivenNames x0
  exact State.finish_keeps (Keeps.upd (s := s) h0 rfl rfl rfl rfl)
theorem cancelBody_keeps {s₀ : State} {h : Hdr} {p : List Word} {s : State} (h2 : Keeps s₀ s) : Keeps s₀ (cancelBody h p s).1 := by
  unfold cancelBody
  refine Keeps.ite₁ ?_ ?_
  · exact refuse_keeps h2
  · split
    · rename_i v0 v1
      exact refuse_keeps h2
    · rename_i v2 v3 v4
      exact Keeps.ite₁ (refuse_keeps h2) (okay_keeps (State.withdraw_keeps h2))
theorem State.withdrawKind_keeps {s₀ s : State} {kind : Nat} (h0 : Keeps s₀ s) : Keeps s₀ (State.withdrawKind s kind) := by
  unfold State.withdrawKind
  extract_lets +onlyGivenNames x0
  extract_lets +onlyGivenNames x1
  have h2 : Keeps s₀ x1 := by
    unfold x1
    exact Keeps.upd (s := s) h0 rfl rfl rfl rfl
  clear_value x1
  exact Keeps.ite (State.endTest_keeps h2) h2
theorem injectBody_keeps {s₀ : State} {p : List Word} {s : State} (h1 : Keeps s₀ s) : Keeps s₀ (injectBody p s).1 := by
  unfold injectBody
  extract_lets +onlyGivenNames x0
  extract_lets +onlyGivenNames x1
  extract_lets +onlyGivenNames x2
  extract_lets +onlyGivenNames x3
  refine Keeps.ite₁ ?_ ?_
  · exact refuse_keeps h1
  · refine Keeps.ite₁ ?_ ?_
    · exact refuse_keeps h1
    · refine Keeps.ite₁ ?_ ?_
      · exact refuse_keeps h1
      · refine Keeps.ite₁ ?_ ?_
        · exact okay_keeps (State.withdrawKind_keeps h1)
        · extract_lets +onlyGivenNames x4
          extract_lets +onlyGivenNames x5
          extract_lets +onlyGivenNames x6
          have h7 : Keeps s₀ x6 := by
            unfold x6
            exact Keeps.upd (s := s) h1 rfl rfl rfl rfl
          clear_value x6
          exact okay_keeps (Keeps.ite (State.beginTest_keeps h7) h7)
theorem opcodeBody_keeps {s₀ s : State} {code : Nat} {h : Hdr} {p : List Word} (h₁ : Keeps s₀ s) : Keeps s₀ (opcodeBody code h p s).1 := by
  unfold opcodeBody
  split
  · exact nopBody_keeps h₁
  · exact identBody_keeps h₁
  · exact resetBody_keeps h₁
  · exact snapTakeBody_keeps h₁
  · exact snapReadBody_keeps h₁
  · exact cancelBody_keeps h₁
  · exact setidBody_keeps h₁
  · exact almAckBody_keeps h₁
  · exact parReadBody_keeps h₁
  · exact parWriteBody_keeps h₁
  · exact parStagedBody_keeps h₁
  · exact epochCommitBody_keeps h₁
  · exact epochAbortBody_keeps h₁
  · exact epochStatusBody_keeps h₁
  · exact acqBody_keeps h₁
  · exact acqBody_keeps h₁
  · exact acqForceBody_keeps h₁
  · exact acqBody_keeps h₁
  · exact acqFetchBody_keeps h₁
  · exact calRunBody_keeps h₁
  · exact calAbortBody_keeps h₁
  · exact calShuntBody_keeps h₁
  · exact calReadBody_keeps h₁
  · exact tbReadBody_keeps h₁
  · exact tbDomainBody_keeps h₁
  · exact tbAsymBody_keeps h₁
  · exact tbJumpBody_keeps h₁
  · exact tpoArmBody_keeps h₁
  · exact plotNewBody_keeps h₁
  · exact plotFreeBody_keeps h₁
  · exact plotListBody_keeps h₁
  · exact memReadBody_keeps h₁
  · exact memTestBody_keeps h₁
  · exact redStatusBody_keeps h₁
  · exact redSwitchBody_keeps h₁
  · exact redSelftestBody_keeps h₁
  · exact lnkStatusBody_keeps h₁
  · exact lnkEyescanBody_keeps h₁
  · exact lnkFallowBody_keeps h₁
  · exact lnkWakeBody_keeps h₁
  · exact lnkRetrainBody_keeps h₁
  · exact mgtOpenBody_keeps h₁
  · exact mgtCloseBody_keeps h₁
  · exact mgtLogBody_keeps h₁
  · exact mgtCntBody_keeps h₁
  · exact mgtFwWriteBody_keeps h₁
  · exact mgtFwCommitBody_keeps h₁
  · exact attestBody_keeps h₁
  · exact tstLoopBody_keeps h₁
  · exact injectBody_keeps h₁
  · exact checkbitBody_keeps h₁
  · exact refuse_keeps h₁
theorem commandReceipt_keeps {s₀ s : State} (h0 : Keeps s₀ s) : Keeps s₀ (commandReceipt s) := by
  unfold commandReceipt
  split
  · rename_i v0 v1
    exact h0
  · rename_i v2 v3 v4 v5
    extract_lets +onlyGivenNames x6
    extract_lets +onlyGivenNames x7
    have h8 : Keeps s₀ x7 := by
      unfold x7
      exact Keeps.upd (s := s) h0 rfl rfl rfl rfl
    clear_value x7
    refine Keeps.ite ?_ ?_
    · exact h8
    · refine Keeps.ite ?_ ?_
      · exact State.setBit_keeps (State.addSat_keeps h8)
      · extract_lets +onlyGivenNames x9
        extract_lets +onlyGivenNames x10
        extract_lets +onlyGivenNames x11
        refine State.receive_keeps ?_ ?_
        · exact h8
        · intro z12 z13
          exact opcodeBody_keeps z13
theorem replyRetentionExpiry_keeps {s₀ s : State} (h0 : Keeps s₀ s) : Keeps s₀ (replyRetentionExpiry s) := by
  unfold replyRetentionExpiry
  exact Keeps.upd (s := s) h0 rfl rfl rfl rfl
theorem State.plotReply_keeps {s₀ : State} {o : Outstanding} {r : State × Nat × List Word} (h1 : Keeps s₀ r.1) : Keeps s₀ (State.plotReply o r) := by
  unfold State.plotReply
  extract_lets +onlyGivenNames x0
  have h1 : Keeps s₀ x0 := by
    unfold x0
    exact State.finish_keeps h1
  clear_value x0
  exact Keeps.ite (State.requestSave_keeps h1) h1
theorem State.actCommand_keeps {s₀ s : State} {o : Outstanding} (h0 : Keeps s₀ s) : Keeps s₀ (State.actCommand s o) := by
  unfold State.actCommand
  extract_lets +onlyGivenNames x0
  split
  · rename_i v1 v2
    exact State.queueReset_keeps (State.finish_keeps h0)
  · rename_i v3 v4
    extract_lets +onlyGivenNames x5
    have h6 : Keeps s₀ x5.1 := by
      unfold x5
      exact State.parWrite_keeps h0
    clear_value x5
    exact State.finish_keeps h6
  · rename_i v7 v8
    exact State.forceEnqueue_keeps (State.undue_keeps h0)
  · rename_i v9 v10
    extract_lets +onlyGivenNames x11
    have h12 : Keeps s₀ x11.1 := by
      unfold x11
      exact State.domainAct_keeps h0
    clear_value x11
    exact State.finish_keeps h12
  · rename_i v13 v14
    exact State.tpoScheduled_keeps h0
  · rename_i v15 v16
    exact State.plotReply_keeps (plotNewAct_keeps h0)
  · rename_i v17 v18
    exact State.plotReply_keeps (plotFreeAct_keeps h0)
  · rename_i v19 v20 v21 v22 v23 v24 v25 v26
    exact State.acqEnqueue_keeps (State.undue_keeps h0)
theorem State.nameNode_keeps {s₀ s : State} {id : Nat} (h0 : Keeps s₀ s) : Keeps s₀ (State.nameNode s id) := by
  unfold State.nameNode
  refine Keeps.foldl ?_ ?_
  · intro a0 y1 h2
    exact Keeps.ite (State.wrN_keeps h2) h2
  · exact State.wrN_keeps h0
theorem scheduledCommandAct_keeps {s₀ s : State} (h0 : Keeps s₀ s) : Keeps s₀ (scheduledCommandAct s) := by
  unfold scheduledCommandAct
  extract_lets +onlyGivenNames x0
  have h1 : Keeps s₀ x0 := by
    unfold x0
    split
    · rename_i v2 v3 v4
      exact Keeps.ite h0 (State.actCommand_keeps h0)
    · rename_i v5 v6
      exact h0
  clear_value x0
  split
  · rename_i v7 v8 v9 v10
    exact Keeps.ite (State.nameNode_keeps (Keeps.upd (s := s) h0 rfl rfl rfl rfl)) h1
  · rename_i v11 v12
    exact h1
theorem execNop_keeps {s₀ s : State} {h : Hdr} {p : List Word} (h₀ : Keeps s₀ s) :
    ∃ u, execNop h p s = .next u ∧ Keeps s₀ u :=
  ⟨_, rfl, State.receive_keeps h₀ fun _ h₁ => nopBody_keeps h₁⟩
theorem execIdent_keeps {s₀ s : State} {h : Hdr} {p : List Word} (h₀ : Keeps s₀ s) :
    ∃ u, execIdent h p s = .next u ∧ Keeps s₀ u :=
  ⟨_, rfl, State.receive_keeps h₀ fun _ h₁ => identBody_keeps h₁⟩
theorem execNodeSetidById_keeps {s₀ s : State} {h : Hdr} {p : List Word} (h₀ : Keeps s₀ s) :
    ∃ u, execNodeSetidById h p s = .next u ∧ Keeps s₀ u :=
  ⟨_, rfl, State.receive_keeps h₀ fun _ h₁ => setidBody_keeps h₁⟩
theorem execNodeSetidSequence_keeps {s₀ s : State} {h : Hdr} {p : List Word} (h₀ : Keeps s₀ s) :
    ∃ u, execNodeSetidSequence h p s = .next u ∧ Keeps s₀ u :=
  ⟨_, rfl, State.receive_keeps h₀ fun _ h₁ => setidBody_keeps h₁⟩
theorem execNodeSetidByPosition_keeps {s₀ s : State} {h : Hdr} {p : List Word} (h₀ : Keeps s₀ s) :
    ∃ u, execNodeSetidByPosition h p s = .next u ∧ Keeps s₀ u :=
  ⟨_, rfl, State.receive_keeps h₀ fun _ h₁ => setidBody_keeps h₁⟩
theorem execParRead_keeps {s₀ s : State} {h : Hdr} {p : List Word} (h₀ : Keeps s₀ s) :
    ∃ u, execParRead h p s = .next u ∧ Keeps s₀ u :=
  ⟨_, rfl, State.receive_keeps h₀ fun _ h₁ => parReadBody_keeps h₁⟩
theorem execParStaged_keeps {s₀ s : State} {h : Hdr} {p : List Word} (h₀ : Keeps s₀ s) :
    ∃ u, execParStaged h p s = .next u ∧ Keeps s₀ u :=
  ⟨_, rfl, State.receive_keeps h₀ fun _ h₁ => parStagedBody_keeps h₁⟩
theorem execParWrite_keeps {s₀ s : State} {h : Hdr} {p : List Word} (h₀ : Keeps s₀ s) :
    ∃ u, execParWrite h p s = .next u ∧ Keeps s₀ u :=
  ⟨_, rfl, State.receive_keeps h₀ fun _ h₁ => parWriteBody_keeps h₁⟩
theorem execSnapTake_keeps {s₀ s : State} {h : Hdr} {p : List Word} (h₀ : Keeps s₀ s) :
    ∃ u, execSnapTake h p s = .next u ∧ Keeps s₀ u :=
  ⟨_, rfl, State.receive_keeps h₀ fun _ h₁ => snapTakeBody_keeps h₁⟩
theorem execSnapLatch_keeps {s₀ s : State} {t : Nat} (h₀ : Keeps s₀ s) :
    ∃ u, execSnapLatch t s = .next u ∧ Keeps s₀ u :=
  ⟨_, rfl, snapLatch_keeps (State.at__keeps h₀)⟩
theorem execSnapRead_keeps {s₀ s : State} {h : Hdr} {p : List Word} (h₀ : Keeps s₀ s) :
    ∃ u, execSnapRead h p s = .next u ∧ Keeps s₀ u :=
  ⟨_, rfl, State.receive_keeps h₀ fun _ h₁ => snapReadBody_keeps h₁⟩
theorem execCancel_keeps {s₀ s : State} {h : Hdr} {p : List Word} (h₀ : Keeps s₀ s) :
    ∃ u, execCancel h p s = .next u ∧ Keeps s₀ u :=
  ⟨_, rfl, State.receive_keeps h₀ fun _ h₁ => cancelBody_keeps h₁⟩
theorem execTstInject_keeps {s₀ s : State} {h : Hdr} {p : List Word} (h₀ : Keeps s₀ s) :
    ∃ u, execTstInject h p s = .next u ∧ Keeps s₀ u :=
  ⟨_, rfl, State.receive_keeps h₀ fun _ h₁ => injectBody_keeps h₁⟩
theorem execCommandReceipt_keeps {s₀ s : State} {t : Nat} (h₀ : Keeps s₀ s) :
    ∃ u, execCommandReceipt t s = .next u ∧ Keeps s₀ u :=
  ⟨_, rfl, commandReceipt_keeps (State.at__keeps h₀)⟩
theorem execReplyRetentionExpiry_keeps {s₀ s : State} {t : Nat} (h₀ : Keeps s₀ s) :
    ∃ u, execReplyRetentionExpiry t s = .next u ∧ Keeps s₀ u :=
  ⟨_, rfl, replyRetentionExpiry_keeps (State.at__keeps h₀)⟩
theorem execScheduledCommandAct_keeps {s₀ s : State} {t : Nat} (h₀ : Keeps s₀ s) :
    ∃ u, execScheduledCommandAct t s = .next u ∧ Keeps s₀ u :=
  ⟨_, rfl, scheduledCommandAct_keeps (State.at__keeps h₀)⟩

/-! ### Control -/

theorem State.feActs_keeps {s₀ s : State} {fe : Nat} {item : FeItem} (h0 : Keeps s₀ s) : Keeps s₀ (State.feActs s fe item) := by
  unfold State.feActs
  extract_lets +onlyGivenNames x0
  extract_lets +onlyGivenNames x1
  have h2 : Keeps s₀ x1 := by
    unfold x1
    exact Keeps.upd (s := s) h0 rfl rfl rfl rfl
  clear_value x1
  exact Keeps.ite (State.takeUp_keeps (State.wr_keeps (Keeps.upd (s := x1) h2 rfl rfl rfl rfl))) h2
theorem State.reportControl_keeps {s₀ s : State} (h0 : Keeps s₀ s) : Keeps s₀ (State.reportControl s) := by
  unfold State.reportControl
  exact State.mismatch_keeps (State.setBit_keeps h0)
theorem State.resolveControls_keeps {s₀ s : State} (h0 : Keeps s₀ s) : Keeps s₀ (State.resolveControls s) := by
  unfold State.resolveControls
  extract_lets +onlyGivenNames x0
  extract_lets +onlyGivenNames x1
  extract_lets +onlyGivenNames x2
  extract_lets +onlyGivenNames x3
  have h4 : Keeps s₀ x3 := by
    unfold x3
    exact Keeps.upd (s := s) h0 rfl rfl rfl rfl
  clear_value x3
  extract_lets +onlyGivenNames x5
  have h6 : Keeps s₀ x5 := by
    unfold x5
    exact Keeps.ite (State.reportControl_keeps h4) h4
  clear_value x5
  refine Keeps.foldl ?_ ?_
  · intro a7 y8 h9
    exact State.feActs_keeps h9
  · exact h6
theorem State.sentControl_keeps {s₀ s : State} {fe d : Nat} {item : FeItem} (h0 : Keeps s₀ s) : Keeps s₀ (State.sentControl s fe d item).2 := by
  unfold State.sentControl
  extract_lets +onlyGivenNames x0
  split
  · rename_i v1 v2
    exact h0
  · rename_i v3 v4 v5
    extract_lets +onlyGivenNames x6
    extract_lets +onlyGivenNames x7
    have h8 : Keeps s₀ x7 := by
      unfold x7
      exact Keeps.upd (s := s) h0 rfl rfl rfl rfl
    clear_value x7
    extract_lets +onlyGivenNames x9
    extract_lets +onlyGivenNames x10
    have h11 : Keeps s₀ x10 := by
      unfold x10
      exact Keeps.ite (State.setDie_keeps h8) h8
    clear_value x10
    exact h11
theorem feControlItem_keeps {s₀ : State} {fe d : Nat} {item : FeItem} {s : State} (h3 : Keeps s₀ s) : Keeps s₀ (feControlItem fe d item s) := by
  unfold feControlItem
  refine Keeps.ite ?_ ?_
  · exact h3
  · extract_lets +onlyGivenNames x0
    have h1 : Keeps s₀ x0.2 := by
      unfold x0
      exact State.sentControl_keeps h3
    clear_value x0
    extract_lets +onlyGivenNames x2
    extract_lets +onlyGivenNames x3
    have h4 : Keeps s₀ x3 := h1
    clear_value x3
    refine Keeps.ite ?_ ?_
    · exact State.feActs_keeps h4
    · split
      · rename_i v5 v6
        exact Keeps.upd (s := x3) h4 rfl rfl rfl rfl
      · rename_i v7 v8 v9
        extract_lets +onlyGivenNames x10
        refine Keeps.ite ?_ ?_
        · exact State.feActs_keeps (Keeps.upd (s := x3) h4 rfl rfl rfl rfl)
        · extract_lets +onlyGivenNames x11
          exact State.reportControl_keeps (Keeps.upd (s := x3) h4 rfl rfl rfl rfl)
theorem feControlHoldTimeout_keeps {s₀ : State} {fe : Nat} {s : State} (h1 : Keeps s₀ s) : Keeps s₀ (feControlHoldTimeout fe s) := by
  unfold feControlHoldTimeout
  exact Keeps.upd (s := s) h1 rfl rfl rfl rfl
theorem execFeControlItem_keeps {s₀ s : State} {t : Nat} {fe : Fin 4} {die : Fin 2} {item : FeItem} (h₀ : Keeps s₀ s) :
    ∃ u, execFeControlItem t fe die item s = .next u ∧ Keeps s₀ u :=
  ⟨_, rfl, feControlItem_keeps (State.at__keeps h₀)⟩
theorem execFeControlHoldTimeout_keeps {s₀ s : State} {t : Nat} {fe : Fin 4} (h₀ : Keeps s₀ s) :
    ∃ u, execFeControlHoldTimeout t fe s = .next u ∧ Keeps s₀ u :=
  ⟨_, rfl, feControlHoldTimeout_keeps (State.at__keeps h₀)⟩

/-! ### Slot -/

theorem State.setGot_keeps {s₀ s : State} {d src : Nat} {xs : List StreamItem} (h0 : Keeps s₀ s) : Keeps s₀ (State.setGot s d src xs) := by
  unfold State.setGot
  exact Keeps.upd (s := s) h0 rfl rfl rfl rfl
theorem State.setSent_keeps {s₀ s : State} {d src : Nat} {xs : List StreamItem} (h0 : Keeps s₀ s) : Keeps s₀ (State.setSent s d src xs) := by
  unfold State.setSent
  exact Keeps.upd (s := s) h0 rfl rfl rfl rfl
theorem flitReceive_keeps {s₀ : State} {d src n : Nat} {good : Bool} {s : State} (h4 : Keeps s₀ s) : Keeps s₀ (flitReceive d src n good s) := by
  unfold flitReceive
  extract_lets +onlyGivenNames x0
  have h1 : Keeps s₀ x0 := by
    unfold x0
    exact State.testFlit_keeps h4
  clear_value x0
  refine Keeps.ite ?_ ?_
  · exact State.countIn_keeps h1
  · extract_lets +onlyGivenNames x2
    have h3 : Keeps s₀ x2 := by
      unfold x2
      exact State.countIn_keeps h1
    clear_value x2
    extract_lets +onlyGivenNames x4
    extract_lets +onlyGivenNames x5
    have h6 : Keeps s₀ x5 := by
      unfold x5
      exact State.setSent_keeps h3
    clear_value x5
    refine Keeps.ite ?_ ?_
    · extract_lets +onlyGivenNames x7
      extract_lets +onlyGivenNames x8
      extract_lets +onlyGivenNames x9
      have h10 : Keeps s₀ x9 := by
        unfold x9
        exact State.setDie_keeps h6
      clear_value x9
      exact State.setGot_keeps h10
    · exact h6
theorem State.idleLinks_keeps {s₀ s : State} {d : Nat} (h0 : Keeps s₀ s) : Keeps s₀ (State.idleLinks s d) := by
  unfold State.idleLinks
  refine Keeps.ite ?_ ?_
  · exact h0
  · refine Keeps.foldl ?_ ?_
    · intro a0 y1 h2
      exact State.setGot_keeps (State.setSent_keeps h2)
    · exact h0
theorem slotBoundary_keeps {s₀ s : State} (h0 : Keeps s₀ s) : Keeps s₀ (slotBoundary s) := by
  unfold slotBoundary
  extract_lets +onlyGivenNames x0
  refine Keeps.ite ?_ ?_
  · exact h0
  · extract_lets +onlyGivenNames x1
    have h2 : Keeps s₀ x1 := by
      unfold x1
      exact State.settle_keeps h0
    clear_value x1
    extract_lets +onlyGivenNames x3
    extract_lets +onlyGivenNames x4
    have h5 : Keeps s₀ x4 := by
      unfold x4
      exact State.compareAlarms_keeps (Keeps.upd (s := x1) h2 rfl rfl rfl rfl)
    clear_value x4
    extract_lets +onlyGivenNames x6
    have h7 : Keeps s₀ x6 := by
      unfold x6
      refine Keeps.foldl ?_ ?_
      · intro a8 y9 h10
        exact State.send_keeps h10
      · exact h5
    clear_value x6
    extract_lets +onlyGivenNames x11
    have h12 : Keeps s₀ x11 := by
      unfold x11
      exact State.idleLinks_keeps (State.idleLinks_keeps h7)
    clear_value x11
    exact State.enterService_keeps (State.joinDies_keeps (State.exchangeCounters_keeps (State.resolveControls_keeps (State.plannedWinner_keeps h12))))
theorem State.takeStamp_keeps {s₀ s : State} {w : W64} {t : Nat} (h0 : Keeps s₀ s) : Keeps s₀ (State.takeStamp s w t) := by
  unfold State.takeStamp
  extract_lets +onlyGivenNames x0
  extract_lets +onlyGivenNames x1
  extract_lets +onlyGivenNames x2
  extract_lets +onlyGivenNames x3
  extract_lets +onlyGivenNames x4
  have h5 : Keeps s₀ x4 := by
    unfold x4
    exact Keeps.upd (s := s) h0 rfl rfl rfl rfl
  exact Keeps.ite (State.addStp_keeps h5) h5
theorem State.takeStream_keeps {s₀ : State} {k : Nat} {s : State} {u2 : StreamItem} (h1 : Keeps s₀ s) : Keeps s₀ (State.takeStream k s u2) := by
  unfold State.takeStream
  split
  · rename_i v0 v1
    exact h1
  · rename_i v2 v3 v4
    exact State.takeStamp_keeps h1
  · rename_i v5 v6
    exact State.takeHit_keeps h1
  · rename_i v7 v8 v9
    exact State.addItv_keeps h1
  · rename_i v10 v11
    exact Keeps.upd (s := s) h1 rfl rfl rfl rfl
  · rename_i v12 v13 v14
    exact h1
  · rename_i v15 v16
    exact Keeps.upd (s := s) h1 rfl rfl rfl rfl
theorem State.emitDigest_keeps {s₀ s : State} {k : Nat} (h0 : Keeps s₀ s) : Keeps s₀ (State.emitDigest s k) := by
  unfold State.emitDigest
  split
  · rename_i v0 v1 v2 v3
    have h4 : Keeps s₀ v2 := Keeps.of_snd v3 (State.takeFree_keeps h0)
    split
    · rename_i v5 v6 v7 v8
      have h9 : Keeps s₀ v7 := Keeps.of_snd v8 (State.takeFree_keeps h4)
      extract_lets +onlyGivenNames x10
      have h11 : Keeps s₀ x10 := by
        unfold x10
        exact State.emit_keeps h9
      clear_value x10
      exact Keeps.upd (s := x10) h11 rfl rfl rfl rfl
theorem State.slotEffects_keeps {s₀ s : State} {k : Nat} {items : List StreamItem} (h0 : Keeps s₀ s) : Keeps s₀ (State.slotEffects s k items) := by
  unfold State.slotEffects
  extract_lets +onlyGivenNames x0
  extract_lets +onlyGivenNames x1
  extract_lets +onlyGivenNames x2
  have h3 : Keeps s₀ x2 := by
    unfold x2
    exact Keeps.upd (s := s) h0 rfl rfl rfl rfl
  clear_value x2
  extract_lets +onlyGivenNames x4
  have h5 : Keeps s₀ x4 := by
    unfold x4
    refine Keeps.foldl ?_ ?_
    · intro a6 y7 h8
      exact State.takeStream_keeps h8
    · exact h3
  clear_value x4
  extract_lets +onlyGivenNames x9
  have h10 : Keeps s₀ x9 := by
    unfold x9
    exact State.triggerStep_keeps (State.flushLog_keeps h5)
  clear_value x9
  extract_lets +onlyGivenNames x11
  have h12 : Keeps s₀ x11 := by
    unfold x11
    exact State.emitDigest_keeps (State.closeAlm_keeps h10)
  clear_value x11
  exact Keeps.upd (s := x11) h12 rfl rfl rfl rfl
theorem State.passSlot_keeps {s₀ s : State} {d k : Nat} (h0 : Keeps s₀ s) : Keeps s₀ (State.passSlot s d k) := by
  unfold State.passSlot
  extract_lets +onlyGivenNames x0
  extract_lets +onlyGivenNames x1
  extract_lets +onlyGivenNames x2
  have h3 : Keeps s₀ x2 := by
    unfold x2
    refine Keeps.foldl ?_ ?_
    · intro a4 y5 h6
      split
      · rename_i v7 v8 v9
        exact Keeps.ite (State.setGot_keeps h6) h6
      · rename_i v10 v11
        exact State.setGot_keeps h6
    · exact h0
  clear_value x2
  extract_lets +onlyGivenNames x12
  extract_lets +onlyGivenNames x13
  extract_lets +onlyGivenNames x14
  have h15 : Keeps s₀ x14 := by
    unfold x14
    exact Keeps.upd (s := x2) h3 rfl rfl rfl rfl
  clear_value x14
  extract_lets +onlyGivenNames x16
  extract_lets +onlyGivenNames x17
  exact State.setDie_keeps h15
theorem State.processSlot_keeps {s₀ s : State} {d k : Nat} (h0 : Keeps s₀ s) : Keeps s₀ (State.processSlot s d k) := by
  unfold State.processSlot
  extract_lets +onlyGivenNames x0
  extract_lets +onlyGivenNames x1
  extract_lets +onlyGivenNames x2
  exact Keeps.ite (State.passSlot_keeps h0) (Keeps.ite (State.passSlot_keeps h0) (State.slotEffects_keeps (State.passSlot_keeps h0)))
theorem slotProcess_keeps {s₀ : State} {d : Nat} {s : State} (h1 : Keeps s₀ s) : Keeps s₀ (slotProcess d s) := by
  unfold slotProcess
  extract_lets +onlyGivenNames x0
  exact Keeps.ite h1 (State.processSlot_keeps h1)
theorem slotMarkerTimeout_keeps {s₀ : State} {d : Nat} {s : State} (h1 : Keeps s₀ s) : Keeps s₀ (slotMarkerTimeout d s) := by
  unfold slotMarkerTimeout
  extract_lets +onlyGivenNames x0
  exact Keeps.ite h1 (State.processSlot_keeps h1)
theorem State.beacon_keeps {s₀ s : State} {stepped : Bool} (h0 : Keeps s₀ s) : Keeps s₀ (State.beacon s stepped) := by
  unfold State.beacon
  extract_lets +onlyGivenNames x0
  extract_lets +onlyGivenNames x1
  extract_lets +onlyGivenNames x2
  extract_lets +onlyGivenNames x3
  exact State.build_keeps h0
theorem bcnWrap_keeps {s₀ s : State} (h0 : Keeps s₀ s) : Keeps s₀ (bcnWrap s) := by
  unfold bcnWrap
  exact Keeps.ite (State.beacon_keeps h0) h0
theorem hskLatch_keeps {s₀ s : State} (h0 : Keeps s₀ s) : Keeps s₀ (hskLatch s) := by
  unfold hskLatch
  extract_lets +onlyGivenNames x0
  refine Keeps.ite ?_ ?_
  · exact h0
  · extract_lets +onlyGivenNames x1
    exact State.build_keeps h0
theorem execFlitReceive_keeps {s₀ s : State} {t : Nat} {die : Fin 2} {source : Fin 5} {items : Nat} {crcGood : Bool} (h₀ : Keeps s₀ s) :
    ∃ u, execFlitReceive t die source items crcGood s = .next u ∧ Keeps s₀ u :=
  ⟨_, rfl, flitReceive_keeps (State.at__keeps h₀)⟩
theorem execSlotBoundary_keeps {s₀ s : State} {t : Nat} (h₀ : Keeps s₀ s) :
    ∃ u, execSlotBoundary t s = .next u ∧ Keeps s₀ u :=
  ⟨_, rfl, slotBoundary_keeps (State.at__keeps h₀)⟩
theorem execSlotProcess_keeps {s₀ s : State} {t : Nat} {die : Fin 2} (h₀ : Keeps s₀ s) :
    ∃ u, execSlotProcess t die s = .next u ∧ Keeps s₀ u :=
  ⟨_, rfl, slotProcess_keeps (State.at__keeps h₀)⟩
theorem execSlotMarkerTimeout_keeps {s₀ s : State} {t : Nat} {die : Fin 2} (h₀ : Keeps s₀ s) :
    ∃ u, execSlotMarkerTimeout t die s = .next u ∧ Keeps s₀ u :=
  ⟨_, rfl, slotMarkerTimeout_keeps (State.at__keeps h₀)⟩
theorem execBcnWrap_keeps {s₀ s : State} {t : Nat} (h₀ : Keeps s₀ s) :
    ∃ u, execBcnWrap t s = .next u ∧ Keeps s₀ u :=
  ⟨_, rfl, bcnWrap_keeps (State.at__keeps h₀)⟩
theorem execHskLatch_keeps {s₀ s : State} {t : Nat} (h₀ : Keeps s₀ s) :
    ∃ u, execHskLatch t s = .next u ∧ Keeps s₀ u :=
  ⟨_, rfl, hskLatch_keeps (State.at__keeps h₀)⟩

/-! ### TbStep -/

theorem State.moveTime_keeps {s₀ s : State} {d : Int} {b : Nat} (h0 : Keeps s₀ s) : Keeps s₀ (State.moveTime s d b) := by
  unfold State.moveTime
  exact Keeps.upd (s := s) h0 rfl rfl rfl rfl
theorem State.completeStamps_keeps {s₀ s : State} {n : Nat} (h0 : Keeps s₀ s) : Keeps s₀ (State.completeStamps s n) := by
  unfold State.completeStamps
  extract_lets +onlyGivenNames x0
  extract_lets +onlyGivenNames x1
  have h2 : Keeps s₀ x1 := by
    unfold x1
    exact State.setTiming_keeps h0
  clear_value x1
  extract_lets +onlyGivenNames x3
  have h4 : Keeps s₀ x3 := by
    unfold x3
    refine Keeps.foldl ?_ ?_
    · intro a5 y6 h7
      exact stampWordComplete_keeps h7
    · exact h2
  clear_value x3
  extract_lets +onlyGivenNames x8
  have h9 : Keeps s₀ x8 := by
    unfold x8
    exact State.takeStarts_keeps h4
  clear_value x8
  exact State.setTiming_keeps h9
theorem State.drainTiming_keeps {s₀ s : State} {n : Nat} (h0 : Keeps s₀ s) : Keeps s₀ (State.drainTiming s n) := by
  unfold State.drainTiming
  extract_lets +onlyGivenNames x0
  extract_lets +onlyGivenNames x1
  have h2 : Keeps s₀ x1 := by
    unfold x1
    exact State.setTiming_keeps h0
  clear_value x1
  extract_lets +onlyGivenNames x3
  have h4 : Keeps s₀ x3 := by
    unfold x3
    refine Keeps.foldl ?_ ?_
    · intro a5 y6 h7
      exact itvResultReady_keeps h7
    · exact h2
  clear_value x3
  extract_lets +onlyGivenNames x8
  have h9 : Keeps s₀ x8 := by
    unfold x8
    refine Keeps.foldl ?_ ?_
    · intro a10 y11 h12
      exact State.takeStamp_keeps h12
    · exact h4
  clear_value x8
  extract_lets +onlyGivenNames x13
  have h14 : Keeps s₀ x13 := by
    unfold x13
    refine Keeps.foldl ?_ ?_
    · intro a15 y16 h17
      exact State.takeHit_keeps h17
    · exact h9
  clear_value x13
  exact State.setTiming_keeps h14
theorem State.drainLinks_keeps {s₀ s : State} (h0 : Keeps s₀ s) : Keeps s₀ (State.drainLinks s) := by
  unfold State.drainLinks
  extract_lets +onlyGivenNames x0
  extract_lets +onlyGivenNames x1
  extract_lets +onlyGivenNames x2
  have h3 : Keeps s₀ x2 := by
    unfold x2
    exact Keeps.upd (s := s) h0 rfl rfl rfl rfl
  clear_value x2
  refine Keeps.foldl ?_ ?_
  · intro a4 y5 h6
    exact State.takeStream_keeps h6
  · exact h3
theorem State.cutCaptures_keeps {s₀ s : State} {b : Nat} (h0 : Keeps s₀ s) : Keeps s₀ (State.cutCaptures s b) := by
  unfold State.cutCaptures
  extract_lets +onlyGivenNames x0
  extract_lets +onlyGivenNames x1
  extract_lets +onlyGivenNames x2
  have h3 : Keeps s₀ x2 := by
    unfold x2
    exact Keeps.upd (s := s) h0 rfl rfl rfl rfl
  clear_value x2
  refine Keeps.foldl ?_ ?_
  · intro a4 y5 h6
    extract_lets +onlyGivenNames x7
    exact State.setRun_keeps h6
  · exact h3
theorem State.keepFurrow_keeps {s₀ s : State} {c : Capture} {k : List (Nat × CutFurrow)} {g : GroupCapture} {x : CapturedInput} (h0 : Keeps s₀ s) :
    Keeps s₀ (State.keepFurrow s c k g x).1 := by
  unfold State.keepFurrow
  extract_lets +onlyGivenNames x0
  extract_lets +onlyGivenNames x1
  extract_lets +onlyGivenNames x2
  split
  · rename_i v3 v4 v5 v6 v7
    have h8 : Keeps s₀ v4 := Keeps.of_fst v7 (State.copyWords_keeps h0)
    exact h8
theorem State.keepCapture_keeps {s₀ s : State} {b : Nat} {c : Capture} (h0 : Keeps s₀ s) : Keeps s₀ (State.keepCapture s b c).1 := by
  unfold State.keepCapture
  refine Keeps.ite₁ ?_ ?_
  · exact h0
  · extract_lets +onlyGivenNames x0
    extract_lets +onlyGivenNames x1
    have h2 : Keeps s₀ x1.1 := by
      unfold x1
      refine Keeps.foldl₁ ?_ ?_
      · intro a3 y4 h5
        exact State.keepFurrow_keeps h5
      · exact h0
    clear_value x1
    exact h2
theorem State.keepCaptures_keeps {s₀ s : State} {b : Nat} (h0 : Keeps s₀ s) : Keeps s₀ (State.keepCaptures s b) := by
  unfold State.keepCaptures
  extract_lets +onlyGivenNames x0
  have h1 : Keeps s₀ x0.1 := by
    unfold x0
    refine Keeps.foldl₁ ?_ ?_
    · intro a2 y3 h4
      extract_lets +onlyGivenNames x5
      have h6 : Keeps s₀ x5.1 := by
        unfold x5
        exact State.keepCapture_keeps h4
      clear_value x5
      exact h6
    · exact h0
  clear_value x0
  extract_lets +onlyGivenNames x7
  have h8 : Keeps s₀ x7 := h1
  clear_value x7
  exact Keeps.upd (s := x7) h8 rfl rfl rfl rfl
theorem State.closeStepped_keeps {s₀ s : State} (h0 : Keeps s₀ s) : Keeps s₀ (State.closeStepped s) := by
  unfold State.closeStepped
  extract_lets +onlyGivenNames x0
  have h_x0 : ∀ {b1 : State} {b3 : Option OpenRecord} {b4 : Nat}, Keeps s₀ b1 → Keeps s₀ (x0 b1 b3 b4) := by
    intro b1 b3 b4 h5
    unfold x0
    split
    · rename_i v6 v7
      exact State.build_keeps h5
    · rename_i v8
      exact h5
  extract_lets +onlyGivenNames x9
  extract_lets +onlyGivenNames x10
  have h11 : Keeps s₀ x10 := by
    unfold x10
    exact Keeps.upd (s := s) h0 rfl rfl rfl rfl
  clear_value x10
  exact h_x0 (h_x0 (h_x0 h11))
theorem stepSlots_keeps {s₀ : State} {lim : Nat} : ∀ {k : Nat} {s : State}, Keeps s₀ s → Keeps s₀ (stepSlots lim k s)
  | 0, _, h => h
  | k + 1, s, h => by
    unfold stepSlots
    split
    · exact h
    · exact stepSlots_keeps (stepLocal_keeps (Keeps.upd (s := s) h rfl rfl rfl rfl))
theorem State.finishOldTime_keeps {s₀ s : State} {b : Nat} (h0 : Keeps s₀ s) : Keeps s₀ (State.finishOldTime s b) := by
  unfold State.finishOldTime
  extract_lets +onlyGivenNames x0
  have h1 : Keeps s₀ x0 := by
    unfold x0
    refine Keeps.foldl ?_ ?_
    · intro a2 y3 h4
      exact State.completeStamps_keeps h4
    · exact h0
  clear_value x0
  extract_lets +onlyGivenNames x5
  have h6 : Keeps s₀ x5 := by
    unfold x5
    refine Keeps.foldl ?_ ?_
    · intro a7 y8 h9
      exact State.drainTiming_keeps h9
    · exact h1
  clear_value x5
  extract_lets +onlyGivenNames x10
  have h11 : Keeps s₀ x10 := by
    unfold x10
    exact State.drainLinks_keeps h6
  clear_value x10
  extract_lets +onlyGivenNames x12
  have h13 : Keeps s₀ x12 := by
    unfold x12
    exact State.cutCaptures_keeps (stepSlots_keeps h11)
  clear_value x12
  extract_lets +onlyGivenNames x14
  have h15 : Keeps s₀ x14 := by
    unfold x14
    exact State.keepCaptures_keeps (State.closeCaptures_keeps h13)
  clear_value x14
  exact State.closeStepped_keeps h15
theorem State.stepWindrows_keeps {s₀ s : State} {b b' : Nat} (h0 : Keeps s₀ s) : Keeps s₀ (State.stepWindrows s b b') := by
  unfold State.stepWindrows
  refine Keeps.foldl ?_ ?_
  · intro a0 y1 h2
    extract_lets +onlyGivenNames x3
    extract_lets +onlyGivenNames x4
    have h5 : Keeps s₀ x4 := by
      unfold x4
      split
      · rename_i v6 v7 v8 v9 v10
        exact Keeps.upd (s := a0) h2 rfl rfl rfl rfl
      · rename_i v11 v12 v13
        exact h2
    clear_value x4
    extract_lets +onlyGivenNames x14
    have h15 : Keeps s₀ x14 := by
      unfold x14
      exact State.cutWindrow_keeps h5
    clear_value x14
    exact Keeps.upd (s := x14) h15 rfl rfl rfl rfl
  · exact h0
theorem State.stepGroup_keeps {s₀ : State} {d : Int} {b b' : Nat} {s : State} {g : Nat} (h3 : Keeps s₀ s) : Keeps s₀ (State.stepGroup d b b' s g) := by
  unfold State.stepGroup
  extract_lets +onlyGivenNames x0
  refine Keeps.ite ?_ ?_
  · exact h3
  · extract_lets +onlyGivenNames x1
    extract_lets +onlyGivenNames x2
    extract_lets +onlyGivenNames x4
    extract_lets +onlyGivenNames x5
    extract_lets +onlyGivenNames x6
    extract_lets +onlyGivenNames x7
    extract_lets +onlyGivenNames x8
    have h9 : Keeps s₀ x8 := by
      unfold x8
      exact State.setGroup_keeps h3
    clear_value x8
    exact Keeps.ite h9 (State.align_keeps h9)
theorem State.stepRing_keeps {s₀ : State} {b' : Nat} {s : State} {g : Nat} (h1 : Keeps s₀ s) : Keeps s₀ (State.stepRing b' s g) := by
  unfold State.stepRing
  extract_lets +onlyGivenNames x0
  exact Keeps.ite h1 (State.setRingOf_keeps h1)
theorem State.stepStart_keeps {s₀ : State} {b' : Nat} {s : State} {n : Nat} (h1 : Keeps s₀ s) : Keeps s₀ (State.stepStart b' s n) := by
  unfold State.stepStart
  extract_lets +onlyGivenNames x0
  exact Keeps.ite (State.setBit_keeps (State.discardItv_keeps (State.missItv_keeps (State.setTiming_keeps h1)))) h1
theorem State.stepSet_keeps {s₀ : State} {b' : Nat} {s : State} {n : Nat} (h1 : Keeps s₀ s) : Keeps s₀ (State.stepSet b' s n) := by
  unfold State.stepSet
  extract_lets +onlyGivenNames x0
  have h1 : Keeps s₀ x0 := by
    unfold x0
    exact State.stepStart_keeps h1
  clear_value x0
  exact Keeps.ite (State.openSet_keeps (State.closeSet_keeps h1)) h1
theorem State.stepSeq_keeps {s₀ : State} {b b' : Nat} {s : State} {q : Nat} (h2 : Keeps s₀ s) : Keeps s₀ (State.stepSeq b b' s q) := by
  unfold State.stepSeq
  extract_lets +onlyGivenNames x0
  extract_lets +onlyGivenNames x1
  extract_lets +onlyGivenNames x2
  extract_lets +onlyGivenNames x3
  extract_lets +onlyGivenNames x4
  exact State.setSeq_keeps h2
theorem State.stepHistories_keeps {s₀ s : State} {b' : Nat} (h0 : Keeps s₀ s) : Keeps s₀ (State.stepHistories s b') := by
  unfold State.stepHistories
  exact Keeps.upd (s := s) h0 rfl rfl rfl rfl
theorem State.stepTrigger_keeps {s₀ s : State} {d : Int} {b' : Nat} (h0 : Keeps s₀ s) : Keeps s₀ (State.stepTrigger s d b') := by
  unfold State.stepTrigger
  extract_lets +onlyGivenNames x0
  exact Keeps.upd (s := s) h0 rfl rfl rfl rfl
theorem State.beginNewTime_keeps {s₀ s : State} {d : Int} {b b' : Nat} (h0 : Keeps s₀ s) : Keeps s₀ (State.beginNewTime s d b b') := by
  unfold State.beginNewTime
  extract_lets +onlyGivenNames x0
  have h1 : Keeps s₀ x0 := by
    unfold x0
    refine Keeps.foldl ?_ ?_
    · intro a2 y3 h4
      exact State.noteSkip_keeps h4
    · exact h0
  clear_value x0
  extract_lets +onlyGivenNames x5
  have h6 : Keeps s₀ x5 := by
    unfold x5
    exact State.stepWindrows_keeps h1
  clear_value x5
  extract_lets +onlyGivenNames x7
  extract_lets +onlyGivenNames x8
  have h9 : Keeps s₀ x8 := by
    unfold x8
    exact Keeps.upd (s := x5) h6 rfl rfl rfl rfl
  clear_value x8
  extract_lets +onlyGivenNames x10
  have h11 : Keeps s₀ x10 := by
    unfold x10
    exact State.moveTime_keeps h9
  clear_value x10
  extract_lets +onlyGivenNames x12
  have h13 : Keeps s₀ x12 := by
    unfold x12
    refine Keeps.foldl ?_ ?_
    · intro a14 y15 h16
      exact State.setSource_keeps h16
    · exact h11
  clear_value x12
  extract_lets +onlyGivenNames x17
  have h18 : Keeps s₀ x17 := by
    unfold x17
    exact State.stepTrigger_keeps (State.stepHistories_keeps h13)
  clear_value x17
  extract_lets +onlyGivenNames x19
  have h20 : Keeps s₀ x19 := by
    unfold x19
    refine Keeps.foldl ?_ ?_
    · intro a21 y22 h23
      exact State.stepGroup_keeps h23
    · exact h18
  clear_value x19
  extract_lets +onlyGivenNames x24
  have h25 : Keeps s₀ x24 := by
    unfold x24
    refine Keeps.foldl ?_ ?_
    · intro a26 y27 h28
      exact State.stepRing_keeps h28
    · exact h20
  clear_value x24
  extract_lets +onlyGivenNames x29
  have h30 : Keeps s₀ x29 := by
    unfold x29
    refine Keeps.foldl ?_ ?_
    · intro a31 y32 h33
      exact State.stepSet_keeps h33
    · exact h25
  clear_value x29
  refine Keeps.foldl ?_ ?_
  · intro a34 y35 h36
    exact State.stepSeq_keeps h36
  · exact h30
theorem State.stepTime_keeps {s₀ s : State} {d rest : Int} {b : Nat} (h0 : Keeps s₀ s) : Keeps s₀ (State.stepTime s d rest b) := by
  unfold State.stepTime
  extract_lets +onlyGivenNames x0
  extract_lets +onlyGivenNames x1
  have h2 : Keeps s₀ x1 := by
    unfold x1
    exact State.beginNewTime_keeps (State.finishOldTime_keeps h0)
  clear_value x1
  extract_lets +onlyGivenNames x3
  extract_lets +onlyGivenNames x4
  have h5 : Keeps s₀ x4 := by
    unfold x4
    exact State.setTb_keeps h2
  clear_value x4
  extract_lets +onlyGivenNames x6
  have h7 : Keeps s₀ x6 := by
    unfold x6
    exact State.addSat_keeps (State.clrBits_keeps (State.setBit_keeps h5))
  clear_value x6
  extract_lets +onlyGivenNames x8
  have h9 : Keeps s₀ x8 := by
    unfold x8
    exact State.wr_keeps h7
  clear_value x8
  extract_lets +onlyGivenNames x10
  have h11 : Keeps s₀ x10 := by
    unfold x10
    exact Keeps.ite (State.newSteer_keeps (State.enterTb_keeps h9)) h9
  clear_value x10
  extract_lets +onlyGivenNames x12
  have h13 : Keeps s₀ x12 := by
    unfold x12
    exact State.slewBy_keeps h11
  clear_value x12
  extract_lets +onlyGivenNames x14
  extract_lets +onlyGivenNames x15
  have h16 : Keeps s₀ x15 := by
    unfold x15
    exact State.tbUpdate_keeps (State.setTb_keeps h13)
  clear_value x15
  extract_lets +onlyGivenNames x17
  have h18 : Keeps s₀ x17 := by
    unfold x17
    exact Keeps.ite (State.setPhase_keeps h16) h16
  clear_value x17
  exact State.tbNote_keeps (Keeps.ite (State.beacon_keeps h18) h18)
theorem State.initialSet_keeps {s₀ s : State} {instant : Nat} (h0 : Keeps s₀ s) : Keeps s₀ (State.initialSet s instant) := by
  unfold State.initialSet
  extract_lets +onlyGivenNames x0
  extract_lets +onlyGivenNames x1
  have h2 : Keeps s₀ x1 := by
    unfold x1
    exact State.setTb_keeps h0
  clear_value x1
  extract_lets +onlyGivenNames x3
  exact Keeps.ite (State.stepTime_keeps h2) h2
theorem State.permitStep_keeps {s₀ s : State} {x : StepDue} (h0 : Keeps s₀ s) : Keeps s₀ (State.permitStep s x) := by
  unfold State.permitStep
  split
  · rename_i v0 v1
    exact h0
  · rename_i v2 v3 v4
    extract_lets +onlyGivenNames x5
    extract_lets +onlyGivenNames x6
    have h7 : Keeps s₀ x6 := by
      unfold x6
      exact State.setTb_keeps h0
    clear_value x6
    extract_lets +onlyGivenNames x8
    exact Keeps.ite (State.finish_keeps h7) (State.finish_keeps (State.stepTime_keeps h7))
theorem tbStep_keeps {s₀ s : State} (h0 : Keeps s₀ s) : Keeps s₀ (tbStep s) := by
  unfold tbStep
  extract_lets +onlyGivenNames x0
  split
  · rename_i v1 v2 v3 v4
    exact State.initialSet_keeps h0
  · rename_i v5 v6 v7 v8 v9
    exact State.permitStep_keeps h0
  · rename_i v10 v11 v12 v13
    exact h0
theorem tbJumpSetApply_keeps {s₀ s : State} (h0 : Keeps s₀ s) : Keeps s₀ (tbJumpSetApply s) := by
  unfold tbJumpSetApply
  split
  · rename_i v0 v1
    exact h0
  · rename_i v2 v3 v4
    split
    · rename_i v5 v6
      exact h0
    · rename_i v7 v8 v9
      refine Keeps.ite ?_ ?_
      · exact h0
      · extract_lets +onlyGivenNames x10
        extract_lets +onlyGivenNames x11
        extract_lets +onlyGivenNames x12
        extract_lets +onlyGivenNames x13
        have h14 : Keeps s₀ x13 := by
          unfold x13
          exact State.stepTime_keeps (State.setTb_keeps h0)
        clear_value x13
        exact State.finish_keeps h14
theorem execTbStep_keeps {s₀ s : State} {t : Nat} (h₀ : Keeps s₀ s) :
    ∃ u, execTbStep t s = .next u ∧ Keeps s₀ u :=
  ⟨_, rfl, tbStep_keeps (State.at__keeps h₀)⟩
theorem execTbJumpSetApply_keeps {s₀ s : State} {t : Nat} (h₀ : Keeps s₀ s) :
    ∃ u, execTbJumpSetApply t s = .next u ∧ Keeps s₀ u :=
  ⟨_, rfl, tbJumpSetApply_keeps (State.at__keeps h₀)⟩

end Sys2Proof.Machine
end

