-- ==== Sys2Proof/Laws/Ops.lean ====
section
/-! SUPPORT. Laws of the named operations over parameters: what a read answers after a write, a count, a bit set or cleared. -/

namespace Sys2Proof.Machine

@[simp] theorem State.rd_wr_same (s : State) (k : Nat) (v : Word) : (s.wr k v).rd k = v := Sparse.get_set_same _ _ _ _
@[simp] theorem State.rd_wr_other (s : State) {k j : Nat} (v : Word) (h : j ≠ k) : (s.wr k v).rd j = s.rd j := Sparse.get_set_other _ _ _ _ _ _ h
theorem State.rd_wr (s : State) (k j : Nat) (v : Word) : (s.wr k v).rd j = if j = k then v else s.rd j := by
  split
  · subst j; exact s.rd_wr_same k v
  · rename_i h; exact s.rd_wr_other v h

@[simp] theorem State.rdN_wr_same (s : State) (k : Nat) (v : Word) : (s.wr k v).rdN k = v.toNat := by simp [State.rdN]
@[simp] theorem State.rdN_wr_other (s : State) {k j : Nat} (v : Word) (h : j ≠ k) : (s.wr k v).rdN j = s.rdN j := by simp [State.rdN, h]
@[simp] theorem State.rdN_wrN_same (s : State) (k n : Nat) : (s.wrN k n).rdN k = n % 4294967296 := by simp [State.wrN]
@[simp] theorem State.rdN_wrN_other (s : State) {k j : Nat} (n : Nat) (h : j ≠ k) : (s.wrN k n).rdN j = s.rdN j := by simp [State.wrN, h]
@[simp] theorem State.rd_wrN_other (s : State) {k j : Nat} (n : Nat) (h : j ≠ k) : (s.wrN k n).rd j = s.rd j := by simp [State.wrN, h]
theorem State.rdN_lt (s : State) (k : Nat) : s.rdN k < 4294967296 := (s.rd k).isLt

/-- Two states with one parameter file read alike. -/
theorem State.rd_congr {s t : State} (h : t.par = s.par) (k : Nat) : t.rd k = s.rd k := by simp [State.rd, h]

/-! ### Counts -/

@[simp] theorem State.rdN_addSat_same (s : State) (k n : Nat) : (s.addSat k n).rdN k = min (s.rdN k + n) 0xFFFFFFFF := by
  simp only [State.addSat, State.rdN_wr_same, satWord, BitVec.toNat_ofNat]; omega
@[simp] theorem State.rd_addSat_other (s : State) {k j : Nat} (n : Nat) (h : j ≠ k) : (s.addSat k n).rd j = s.rd j := by simp [State.addSat, h]
@[simp] theorem State.rdN_addSat_other (s : State) {k j : Nat} (n : Nat) (h : j ≠ k) : (s.addSat k n).rdN j = s.rdN j := by simp [State.rdN, h]
@[simp] theorem State.rdN_addWrap_same (s : State) (k n : Nat) : (s.addWrap k n).rdN k = (s.rdN k + n) % 4294967296 := by simp [State.addWrap]
@[simp] theorem State.rd_addWrap_other (s : State) {k j : Nat} (n : Nat) (h : j ≠ k) : (s.addWrap k n).rd j = s.rd j := by simp [State.addWrap, h]
@[simp] theorem State.rdN_addWrap_other (s : State) {k j : Nat} (n : Nat) (h : j ≠ k) : (s.addWrap k n).rdN j = s.rdN j := by simp [State.rdN, h]

/-! ### Bits -/

theorem bitOf_eq_testBit (n i : Nat) : bitOf n i = n.testBit i := by
  simp only [bitOf, Nat.testBit_eq_decide_div_mod_eq]; rfl

@[simp] theorem State.rd_setBit_other (s : State) {k j : Nat} (i : Nat) (h : j ≠ k) : (s.setBit k i).rd j = s.rd j := State.rd_wrN_other s _ h
@[simp] theorem State.rdN_setBit_other (s : State) {k j : Nat} (i : Nat) (h : j ≠ k) : (s.setBit k i).rdN j = s.rdN j := by simp [State.rdN, h]
/-- Setting a bit of a status word sets it and leaves the other 31 bits. -/
theorem State.bit_setBit (s : State) (k i j : Nat) (hi : i < 32) : (s.setBit k i).bit k j = (decide (j = i) || s.bit k j) := by
  have h : s.rdN k ||| 2 ^ i < 4294967296 := Nat.or_lt_two_pow (n := 32) (s.rdN_lt k) (Nat.pow_lt_pow_right (by omega) hi)
  have g : (s.setBit k i).rdN k = (s.rdN k ||| 2 ^ i) % 4294967296 := State.rdN_wrN_same s k _
  simp only [State.bit, g, bitOf_eq_testBit]
  rw [Nat.mod_eq_of_lt h, Nat.testBit_or, Nat.testBit_two_pow, Bool.or_comm]
  simp [eq_comm]
@[simp] theorem State.rd_clrBits_other (s : State) {k j : Nat} (m : Nat) (h : j ≠ k) : (s.clrBits k m).rd j = s.rd j := by simp [State.clrBits, h]
@[simp] theorem State.rdN_clrBits_other (s : State) {k j : Nat} (m : Nat) (h : j ≠ k) : (s.clrBits k m).rdN j = s.rdN j := by simp [State.rdN, h]
/-- Clearing a mask of bits clears those and leaves the others. -/
theorem State.bit_clrBits (s : State) (k m j : Nat) (hj : j < 32) : (s.clrBits k m).bit k j = (s.bit k j && !bitOf m j) := by
  have h : s.rdN k &&& (0xFFFFFFFF ^^^ (m % 4294967296)) < 4294967296 := Nat.lt_of_le_of_lt Nat.and_le_left (s.rdN_lt k)
  simp only [State.bit, State.clrBits, State.rdN_wrN_same, bitOf_eq_testBit]
  rw [Nat.mod_eq_of_lt h, Nat.testBit_and, Nat.testBit_xor, show Nat.testBit 4294967295 j = decide (j < 32) from Nat.testBit_two_pow_sub_one 32 j,
    show Nat.testBit (m % 4294967296) j = (decide (j < 32) && m.testBit j) from Nat.testBit_mod_two_pow m 32 j]
  simp [hj]

/-! ### Pairs -/

@[simp] theorem Two.get_set_same {α : Type} (x : Two α) (i : Nat) (v : α) : (x.set i v).get i = v := by unfold Two.set Two.get; split <;> rfl
theorem Two.get_set_other {α : Type} (x : Two α) {i j : Nat} (v : α) (hi : i < 2) (hj : j < 2) (h : j ≠ i) : (x.set i v).get j = x.get j := by
  unfold Two.set Two.get; split <;> split <;> first | rfl | omega

end Sys2Proof.Machine
end

