-- ==== Sys2Proof/Laws/Records.lean ====
section
/-! SUPPORT. What building, storing and pushing a record leaves as it is (R240, R284, R372): each operation touches the records, the store's memory, the
dispatch banks, the event counters and a few counts and status bits, and nothing else. -/

namespace Sys2Proof.Machine

/-- The command side but for the status bits noted as set in this cycle. -/
def CmdState.quiet (c : CmdState) : CmdState := { c with bitsAt := 0, bitsSet := [] }

/-- From `s` to `t` nothing changes but the parameters listed in `ks`, the records, the memories, the dispatch side, the management side, and the note
of the status bits set in this cycle (R11). -/
structure RecFrame (ks : List Nat) (s t : State) : Prop where
  queue : t.pending = s.pending
  time : t.time = s.time
  free : t.free = s.free
  cmd : t.cmd.quiet = s.cmd.quiet
  prt : t.prt = s.prt
  red : t.red = s.red
  alm : t.alm = s.alm
  pwr : t.pwr = s.pwr
  fe : t.fe = s.fe
  tmr : t.tmr = s.tmr
  trg : t.trg = s.trg
  tb : t.tb = s.tb
  lnk : t.lnk = s.lnk
  cal : t.cal = s.cal
  link : t.link = s.link
  par : ∀ k, k ∉ ks → t.rd k = s.rd k

namespace RecFrame

theorem refl (ks : List Nat) (s : State) : RecFrame ks s s := ⟨rfl, rfl, rfl, rfl, rfl, rfl, rfl, rfl, rfl, rfl, rfl, rfl, rfl, rfl, rfl, fun _ _ => rfl⟩
theorem trans {ks : List Nat} {s t u : State} (h : RecFrame ks s t) (g : RecFrame ks t u) : RecFrame ks s u := by
  constructor
  all_goals first
    | exact fun k m => (g.par k m).trans (h.par k m)
    | (rw [g.queue, h.queue]; done) | (rw [g.time, h.time]; done) | (rw [g.free, h.free]; done) | (rw [g.cmd, h.cmd]; done)
    | (rw [g.prt, h.prt]; done) | (rw [g.red, h.red]; done) | (rw [g.alm, h.alm]; done) | (rw [g.pwr, h.pwr]; done) | (rw [g.fe, h.fe]; done)
    | (rw [g.tmr, h.tmr]; done) | (rw [g.trg, h.trg]; done) | (rw [g.tb, h.tb]; done) | (rw [g.lnk, h.lnk]; done) | (rw [g.cal, h.cal]; done)
    | (rw [g.link, h.link]; done)
/-- A change to the records, the memories, the dispatch side or the management side. -/
theorem sides (ks : List Nat) (s : State) (r : RecState) (m : MemState) (c : ClpState) (g : MgtState) :
    RecFrame ks s { s with recs := r, mem := m, clp := c, mgt := g } :=
  ⟨rfl, rfl, rfl, rfl, rfl, rfl, rfl, rfl, rfl, rfl, rfl, rfl, rfl, rfl, rfl, fun _ _ => rfl⟩
/-- A write of a listed parameter. -/
theorem wr {ks : List Nat} (s : State) {k : Nat} (v : Word) (h : k ∈ ks) : RecFrame ks s (s.wr k v) :=
  ⟨rfl, rfl, rfl, rfl, rfl, rfl, rfl, rfl, rfl, rfl, rfl, rfl, rfl, rfl, rfl, fun _ m => s.rd_wr_other v (fun e => m (e ▸ h))⟩
theorem setBit {ks : List Nat} (s : State) {k : Nat} (i : Nat) (h : k ∈ ks) : RecFrame ks s (s.setBit k i) :=
  ⟨rfl, rfl, rfl, rfl, rfl, rfl, rfl, rfl, rfl, rfl, rfl, rfl, rfl, rfl, rfl, fun _ m => s.rd_setBit_other i (fun e => m (e ▸ h))⟩
theorem ite {ks : List Nat} {s t u : State} {p : Prop} [Decidable p] (h : RecFrame ks s t) (g : RecFrame ks s u) : RecFrame ks s (if p then t else u) := by
  split
  · exact h
  · exact g
theorem mem (ks : List Nat) (s : State) (m : MemState) : RecFrame ks s { s with mem := m } := sides ks s s.recs m s.clp s.mgt
theorem addSat {ks : List Nat} (s : State) {k : Nat} (n : Nat) (h : k ∈ ks) : RecFrame ks s (s.addSat k n) := wr s _ h
theorem addWrap {ks : List Nat} (s : State) {k : Nat} (n : Nat) (h : k ∈ ks) : RecFrame ks s (s.addWrap k n) := wr s _ h
theorem count (ks : List Nat) (s : State) (c i : Nat) : RecFrame ks s (s.count c i) := sides ks s s.recs s.mem s.clp _
theorem foldl {ks : List Nat} {α : Type} {f : State → α → State} (hf : ∀ s x, RecFrame ks s (f s x)) :
    ∀ (xs : List α) (s : State), RecFrame ks s (xs.foldl f s)
  | [], s => refl ks s
  | x :: xs, s => (hf s x).trans (foldl hf xs (f s x))

end RecFrame

theorem State.touchSpan_frame (ks : List Nat) (s : State) (m w n : Nat) (b : Bool) : RecFrame ks s (s.touchSpan m w n b) := by
  refine RecFrame.foldl (fun s v => ?_) _ s
  have h : RecFrame ks s (s.touch v b) := RecFrame.ite (RecFrame.mem ks s _) (RecFrame.ite (RecFrame.ite (RecFrame.mem ks s _) (RecFrame.refl ks s)) (RecFrame.refl ks s))
  exact RecFrame.ite (h.trans (RecFrame.mem ks _ _)) h

theorem State.writeRecord_frame (ks : List Nat) (s : State) (id line lines : Nat) (bs : List Byte) : RecFrame ks s (s.writeRecord id line lines bs) := by
  have two : ∀ (s : State) (m₁ : MemState) (m₂ : MemState → MemState), RecFrame ks s { { s with mem := m₁ } with mem := m₂ m₁ } :=
    fun s m₁ m₂ => RecFrame.mem ks s _
  unfold State.writeRecord
  split
  · unfold State.writeWords State.alikeWords
    exact ((State.touchSpan_frame ks s _ _ _ _).trans (RecFrame.mem ks _ _)).trans (RecFrame.foldl (fun s x => RecFrame.mem ks s _) _ _)
  · unfold State.writeLines State.alikeLines
    exact (RecFrame.sides ks s s.recs _ s.clp _).trans (RecFrame.foldl (fun s x => RecFrame.mem ks s _) _ _)

theorem State.markDamaged_frame {ks : List Nat} (s : State) (d id kind run seq : Nat) (h₁ : P.GRN_STORE_DAMAGED (min id sramStore) ∈ ks) (h₂ : P.GRN_STATUS ∈ ks) :
    RecFrame ks s (s.markDamaged d id kind run seq) := by
  unfold State.markDamaged
  dsimp only
  split
  · split
    · exact ((RecFrame.sides ks s s.recs _ s.clp s.mgt).trans (RecFrame.addSat _ _ h₁)).trans (RecFrame.setBit _ _ h₂)
    · exact RecFrame.sides ks s s.recs _ s.clp s.mgt
  · exact RecFrame.refl ks s

theorem State.pushAll_frame {ks : List Nat} (s : State) (ds : List Descriptor) (h : P.CLP_STATUS ∈ ks) : RecFrame ks s (s.pushAll ds) := by
  refine RecFrame.foldl (fun s d => ?_) ds s
  unfold State.pushOne State.pushInto
  dsimp only
  exact RecFrame.ite (RecFrame.sides ks s s.recs s.mem _ _) ((RecFrame.sides ks s s.recs s.mem _ s.mgt).trans (RecFrame.setBit _ _ h))

theorem State.addGap_frame {ks : List Nat} (s : State) (kind reason seq t₀ t₁ : Nat) (h₁ : P.TRG_GAP_COUNT kind ∈ ks) (h₂ : P.TRG_STATUS ∈ ks) :
    RecFrame ks s (s.addGap kind reason seq t₀ t₁) := by
  have h := RecFrame.addSat s 1 h₁
  unfold State.addGap
  dsimp only
  split
  · split
    · exact h.trans (RecFrame.sides ks _ _ _ _ _)
    · split
      · exact h.trans (RecFrame.sides ks _ _ _ _ _)
      · exact h.trans (RecFrame.setBit _ _ h₂)
  · exact h.trans (RecFrame.sides ks _ _ _ _ _)

/-- The parameters that building a record of a kind can write. -/
def recKeys (kind : Nat) : List Nat :=
  [P.REC_SEQ kind, P.REC_STATUS, P.REC_BUILT kind, P.GRN_STORE_REFUSED kind, P.GRN_STATUS, P.CLP_STATUS, P.TRG_GAP_COUNT kind, P.TRG_STATUS] ++
    (List.range 17).map P.GRN_STORE_DAMAGED

theorem damaged_mem_recKeys (kind id : Nat) : P.GRN_STORE_DAMAGED (min id sramStore) ∈ recKeys kind :=
  List.mem_append_right _ (List.mem_map_of_mem (List.mem_range.mpr (by unfold sramStore; omega)))

theorem State.consumeSeq_frame (s : State) (kind : Nat) : RecFrame (recKeys kind) s (s.consumeSeq kind) := by
  have a : P.REC_SEQ kind ∈ recKeys kind := by simp [recKeys]
  have b : P.REC_STATUS ∈ recKeys kind := by simp [recKeys]
  have c : P.REC_BUILT kind ∈ recKeys kind := by simp [recKeys]
  have it : ∀ {t u : State} {p : Prop} [Decidable p] (i : Nat), RecFrame (recKeys kind) t u →
      RecFrame (recKeys kind) t (if p then u.setBit P.REC_STATUS i else u) :=
    fun i h => RecFrame.ite (h.trans (RecFrame.setBit _ _ b)) h
  unfold State.consumeSeq
  exact (((it 1 (it 2 (RecFrame.wr s _ a))).trans (RecFrame.addWrap _ _ c)).trans (RecFrame.setBit _ _ b)).trans (RecFrame.count _ _ _ _)

/-- A record is stored, or its loss recorded. -/
theorem State.storeRecord_frame {ks : List Nat} (s : State) (r : Record) (dir : Nat) (marks : Two Bool) (h : ∀ k ∈ recKeys r.kind, k ∈ ks) :
    RecFrame ks s (s.storeRecord r dir marks) := by
  have mark : ∀ {t : State} {c : Bool} (d : Nat), RecFrame ks s t →
      RecFrame ks s (if c then t.markDamaged d (s.storeFor r.kind) r.kind r.run r.seq else t) :=
    fun d g => RecFrame.ite (g.trans (State.markDamaged_frame _ _ _ _ _ _ (h _ (damaged_mem_recKeys _ _)) (h _ (by simp [recKeys])))) g
  unfold State.storeRecord State.dropGaps
  dsimp only
  split
  · exact (mark 1 (mark 0 ((RecFrame.sides ks s _ _ s.clp s.mgt).trans (State.writeRecord_frame _ _ _ _ _ _)))).trans
      (State.pushAll_frame _ _ (h _ (by simp [recKeys])))
  · exact (((RecFrame.mem ks s _).trans (RecFrame.addSat _ _ (h _ (by simp [recKeys])))).trans (RecFrame.setBit _ _ (h _ (by simp [recKeys])))).trans
      (State.addGap_frame _ _ _ _ _ _ (h _ (by simp [recKeys])) (h _ (by simp [recKeys])))

/-- A record is built: nothing but the parameters of `recKeys`, the records, the memories, the dispatch side, the event counters and the note of the
status bits set changes. -/
theorem State.build_frame (s : State) (d : Draft) : RecFrame (recKeys d.kind) s (s.build d) := by
  exact ((s.consumeSeq_frame d.kind).trans (RecFrame.mem _ _ _)).trans (State.storeRecord_frame _ _ _ _ (fun k m => m))

/-- What sending a reply does to the command side: the reply is noted, newest first. -/
theorem State.sendReply_cmd (s : State) (q : Reply) :
    (s.sendReply q).cmd.quiet = ({ s.cmd with replies := q :: s.cmd.replies } : CmdState).quiet := by
  unfold State.sendReply
  dsimp only
  rw [(State.build_frame _ _).cmd]
  split <;> rfl

/-- What sending a reply leaves as it is. -/
theorem State.sendReply_frame (s : State) (q : Reply) :
    RecFrame (P.SYS_CMD_REFUSED_COUNT :: recKeys 7) { s with cmd := { s.cmd with replies := q :: s.cmd.replies } } (s.sendReply q) := by
  have b : ∀ t : State, RecFrame (P.SYS_CMD_REFUSED_COUNT :: recKeys 7) t (t.build q.draft) := fun t =>
    { t.build_frame q.draft with par := fun k m => (t.build_frame q.draft).par k (fun x => m (List.mem_cons_of_mem _ x)) }
  unfold State.sendReply
  dsimp only
  split
  · exact (RecFrame.addSat _ 1 (by simp)).trans (b _)
  · exact b _

end Sys2Proof.Machine
end

