-- ==== Sys2Proof/Laws/State.lean ====
section
/-! SUPPORT. What each named update of the state leaves as it is, one lemma per field per update. -/

namespace Sys2Proof.Machine

/-! `State.wr` -/

@[simp] theorem State.wr_pending (s : State) (k : Nat) (v : Word) : (s.wr k v).pending = s.pending := rfl
@[simp] theorem State.wr_time (s : State) (k : Nat) (v : Word) : (s.wr k v).time = s.time := rfl
@[simp] theorem State.wr_free (s : State) (k : Nat) (v : Word) : (s.wr k v).free = s.free := rfl
@[simp] theorem State.wr_cmd (s : State) (k : Nat) (v : Word) : (s.wr k v).cmd = s.cmd := rfl
@[simp] theorem State.wr_recs (s : State) (k : Nat) (v : Word) : (s.wr k v).recs = s.recs := rfl
@[simp] theorem State.wr_mem (s : State) (k : Nat) (v : Word) : (s.wr k v).mem = s.mem := rfl
@[simp] theorem State.wr_clp (s : State) (k : Nat) (v : Word) : (s.wr k v).clp = s.clp := rfl
@[simp] theorem State.wr_prt (s : State) (k : Nat) (v : Word) : (s.wr k v).prt = s.prt := rfl
@[simp] theorem State.wr_red (s : State) (k : Nat) (v : Word) : (s.wr k v).red = s.red := rfl
@[simp] theorem State.wr_alm (s : State) (k : Nat) (v : Word) : (s.wr k v).alm = s.alm := rfl
@[simp] theorem State.wr_mgt (s : State) (k : Nat) (v : Word) : (s.wr k v).mgt = s.mgt := rfl
@[simp] theorem State.wr_pwr (s : State) (k : Nat) (v : Word) : (s.wr k v).pwr = s.pwr := rfl
@[simp] theorem State.wr_fe (s : State) (k : Nat) (v : Word) : (s.wr k v).fe = s.fe := rfl
@[simp] theorem State.wr_tmr (s : State) (k : Nat) (v : Word) : (s.wr k v).tmr = s.tmr := rfl
@[simp] theorem State.wr_trg (s : State) (k : Nat) (v : Word) : (s.wr k v).trg = s.trg := rfl
@[simp] theorem State.wr_tb (s : State) (k : Nat) (v : Word) : (s.wr k v).tb = s.tb := rfl
@[simp] theorem State.wr_lnk (s : State) (k : Nat) (v : Word) : (s.wr k v).lnk = s.lnk := rfl
@[simp] theorem State.wr_cal (s : State) (k : Nat) (v : Word) : (s.wr k v).cal = s.cal := rfl
@[simp] theorem State.wr_link (s : State) (k : Nat) (v : Word) : (s.wr k v).link = s.link := rfl

/-! `State.wrN` -/

@[simp] theorem State.wrN_pending (s : State) (k n : Nat) : (s.wrN k n).pending = s.pending := rfl
@[simp] theorem State.wrN_time (s : State) (k n : Nat) : (s.wrN k n).time = s.time := rfl
@[simp] theorem State.wrN_free (s : State) (k n : Nat) : (s.wrN k n).free = s.free := rfl
@[simp] theorem State.wrN_cmd (s : State) (k n : Nat) : (s.wrN k n).cmd = s.cmd := rfl
@[simp] theorem State.wrN_recs (s : State) (k n : Nat) : (s.wrN k n).recs = s.recs := rfl
@[simp] theorem State.wrN_mem (s : State) (k n : Nat) : (s.wrN k n).mem = s.mem := rfl
@[simp] theorem State.wrN_clp (s : State) (k n : Nat) : (s.wrN k n).clp = s.clp := rfl
@[simp] theorem State.wrN_prt (s : State) (k n : Nat) : (s.wrN k n).prt = s.prt := rfl
@[simp] theorem State.wrN_red (s : State) (k n : Nat) : (s.wrN k n).red = s.red := rfl
@[simp] theorem State.wrN_alm (s : State) (k n : Nat) : (s.wrN k n).alm = s.alm := rfl
@[simp] theorem State.wrN_mgt (s : State) (k n : Nat) : (s.wrN k n).mgt = s.mgt := rfl
@[simp] theorem State.wrN_pwr (s : State) (k n : Nat) : (s.wrN k n).pwr = s.pwr := rfl
@[simp] theorem State.wrN_fe (s : State) (k n : Nat) : (s.wrN k n).fe = s.fe := rfl
@[simp] theorem State.wrN_tmr (s : State) (k n : Nat) : (s.wrN k n).tmr = s.tmr := rfl
@[simp] theorem State.wrN_trg (s : State) (k n : Nat) : (s.wrN k n).trg = s.trg := rfl
@[simp] theorem State.wrN_tb (s : State) (k n : Nat) : (s.wrN k n).tb = s.tb := rfl
@[simp] theorem State.wrN_lnk (s : State) (k n : Nat) : (s.wrN k n).lnk = s.lnk := rfl
@[simp] theorem State.wrN_cal (s : State) (k n : Nat) : (s.wrN k n).cal = s.cal := rfl
@[simp] theorem State.wrN_link (s : State) (k n : Nat) : (s.wrN k n).link = s.link := rfl

/-! `State.wrI` -/

@[simp] theorem State.wrI_pending (s : State) (k : Nat) (i : Int) : (s.wrI k i).pending = s.pending := rfl
@[simp] theorem State.wrI_time (s : State) (k : Nat) (i : Int) : (s.wrI k i).time = s.time := rfl
@[simp] theorem State.wrI_free (s : State) (k : Nat) (i : Int) : (s.wrI k i).free = s.free := rfl
@[simp] theorem State.wrI_cmd (s : State) (k : Nat) (i : Int) : (s.wrI k i).cmd = s.cmd := rfl
@[simp] theorem State.wrI_recs (s : State) (k : Nat) (i : Int) : (s.wrI k i).recs = s.recs := rfl
@[simp] theorem State.wrI_mem (s : State) (k : Nat) (i : Int) : (s.wrI k i).mem = s.mem := rfl
@[simp] theorem State.wrI_clp (s : State) (k : Nat) (i : Int) : (s.wrI k i).clp = s.clp := rfl
@[simp] theorem State.wrI_prt (s : State) (k : Nat) (i : Int) : (s.wrI k i).prt = s.prt := rfl
@[simp] theorem State.wrI_red (s : State) (k : Nat) (i : Int) : (s.wrI k i).red = s.red := rfl
@[simp] theorem State.wrI_alm (s : State) (k : Nat) (i : Int) : (s.wrI k i).alm = s.alm := rfl
@[simp] theorem State.wrI_mgt (s : State) (k : Nat) (i : Int) : (s.wrI k i).mgt = s.mgt := rfl
@[simp] theorem State.wrI_pwr (s : State) (k : Nat) (i : Int) : (s.wrI k i).pwr = s.pwr := rfl
@[simp] theorem State.wrI_fe (s : State) (k : Nat) (i : Int) : (s.wrI k i).fe = s.fe := rfl
@[simp] theorem State.wrI_tmr (s : State) (k : Nat) (i : Int) : (s.wrI k i).tmr = s.tmr := rfl
@[simp] theorem State.wrI_trg (s : State) (k : Nat) (i : Int) : (s.wrI k i).trg = s.trg := rfl
@[simp] theorem State.wrI_tb (s : State) (k : Nat) (i : Int) : (s.wrI k i).tb = s.tb := rfl
@[simp] theorem State.wrI_lnk (s : State) (k : Nat) (i : Int) : (s.wrI k i).lnk = s.lnk := rfl
@[simp] theorem State.wrI_cal (s : State) (k : Nat) (i : Int) : (s.wrI k i).cal = s.cal := rfl
@[simp] theorem State.wrI_link (s : State) (k : Nat) (i : Int) : (s.wrI k i).link = s.link := rfl

/-! `State.wr64` -/

@[simp] theorem State.wr64_pending (s : State) (k n : Nat) : (s.wr64 k n).pending = s.pending := rfl
@[simp] theorem State.wr64_time (s : State) (k n : Nat) : (s.wr64 k n).time = s.time := rfl
@[simp] theorem State.wr64_free (s : State) (k n : Nat) : (s.wr64 k n).free = s.free := rfl
@[simp] theorem State.wr64_cmd (s : State) (k n : Nat) : (s.wr64 k n).cmd = s.cmd := rfl
@[simp] theorem State.wr64_recs (s : State) (k n : Nat) : (s.wr64 k n).recs = s.recs := rfl
@[simp] theorem State.wr64_mem (s : State) (k n : Nat) : (s.wr64 k n).mem = s.mem := rfl
@[simp] theorem State.wr64_clp (s : State) (k n : Nat) : (s.wr64 k n).clp = s.clp := rfl
@[simp] theorem State.wr64_prt (s : State) (k n : Nat) : (s.wr64 k n).prt = s.prt := rfl
@[simp] theorem State.wr64_red (s : State) (k n : Nat) : (s.wr64 k n).red = s.red := rfl
@[simp] theorem State.wr64_alm (s : State) (k n : Nat) : (s.wr64 k n).alm = s.alm := rfl
@[simp] theorem State.wr64_mgt (s : State) (k n : Nat) : (s.wr64 k n).mgt = s.mgt := rfl
@[simp] theorem State.wr64_pwr (s : State) (k n : Nat) : (s.wr64 k n).pwr = s.pwr := rfl
@[simp] theorem State.wr64_fe (s : State) (k n : Nat) : (s.wr64 k n).fe = s.fe := rfl
@[simp] theorem State.wr64_tmr (s : State) (k n : Nat) : (s.wr64 k n).tmr = s.tmr := rfl
@[simp] theorem State.wr64_trg (s : State) (k n : Nat) : (s.wr64 k n).trg = s.trg := rfl
@[simp] theorem State.wr64_tb (s : State) (k n : Nat) : (s.wr64 k n).tb = s.tb := rfl
@[simp] theorem State.wr64_lnk (s : State) (k n : Nat) : (s.wr64 k n).lnk = s.lnk := rfl
@[simp] theorem State.wr64_cal (s : State) (k n : Nat) : (s.wr64 k n).cal = s.cal := rfl
@[simp] theorem State.wr64_link (s : State) (k n : Nat) : (s.wr64 k n).link = s.link := rfl

/-! `State.addSat` -/

@[simp] theorem State.addSat_pending (s : State) (k n : Nat) : (s.addSat k n).pending = s.pending := rfl
@[simp] theorem State.addSat_time (s : State) (k n : Nat) : (s.addSat k n).time = s.time := rfl
@[simp] theorem State.addSat_free (s : State) (k n : Nat) : (s.addSat k n).free = s.free := rfl
@[simp] theorem State.addSat_cmd (s : State) (k n : Nat) : (s.addSat k n).cmd = s.cmd := rfl
@[simp] theorem State.addSat_recs (s : State) (k n : Nat) : (s.addSat k n).recs = s.recs := rfl
@[simp] theorem State.addSat_mem (s : State) (k n : Nat) : (s.addSat k n).mem = s.mem := rfl
@[simp] theorem State.addSat_clp (s : State) (k n : Nat) : (s.addSat k n).clp = s.clp := rfl
@[simp] theorem State.addSat_prt (s : State) (k n : Nat) : (s.addSat k n).prt = s.prt := rfl
@[simp] theorem State.addSat_red (s : State) (k n : Nat) : (s.addSat k n).red = s.red := rfl
@[simp] theorem State.addSat_alm (s : State) (k n : Nat) : (s.addSat k n).alm = s.alm := rfl
@[simp] theorem State.addSat_mgt (s : State) (k n : Nat) : (s.addSat k n).mgt = s.mgt := rfl
@[simp] theorem State.addSat_pwr (s : State) (k n : Nat) : (s.addSat k n).pwr = s.pwr := rfl
@[simp] theorem State.addSat_fe (s : State) (k n : Nat) : (s.addSat k n).fe = s.fe := rfl
@[simp] theorem State.addSat_tmr (s : State) (k n : Nat) : (s.addSat k n).tmr = s.tmr := rfl
@[simp] theorem State.addSat_trg (s : State) (k n : Nat) : (s.addSat k n).trg = s.trg := rfl
@[simp] theorem State.addSat_tb (s : State) (k n : Nat) : (s.addSat k n).tb = s.tb := rfl
@[simp] theorem State.addSat_lnk (s : State) (k n : Nat) : (s.addSat k n).lnk = s.lnk := rfl
@[simp] theorem State.addSat_cal (s : State) (k n : Nat) : (s.addSat k n).cal = s.cal := rfl
@[simp] theorem State.addSat_link (s : State) (k n : Nat) : (s.addSat k n).link = s.link := rfl

/-! `State.addWrap` -/

@[simp] theorem State.addWrap_pending (s : State) (k n : Nat) : (s.addWrap k n).pending = s.pending := rfl
@[simp] theorem State.addWrap_time (s : State) (k n : Nat) : (s.addWrap k n).time = s.time := rfl
@[simp] theorem State.addWrap_free (s : State) (k n : Nat) : (s.addWrap k n).free = s.free := rfl
@[simp] theorem State.addWrap_cmd (s : State) (k n : Nat) : (s.addWrap k n).cmd = s.cmd := rfl
@[simp] theorem State.addWrap_recs (s : State) (k n : Nat) : (s.addWrap k n).recs = s.recs := rfl
@[simp] theorem State.addWrap_mem (s : State) (k n : Nat) : (s.addWrap k n).mem = s.mem := rfl
@[simp] theorem State.addWrap_clp (s : State) (k n : Nat) : (s.addWrap k n).clp = s.clp := rfl
@[simp] theorem State.addWrap_prt (s : State) (k n : Nat) : (s.addWrap k n).prt = s.prt := rfl
@[simp] theorem State.addWrap_red (s : State) (k n : Nat) : (s.addWrap k n).red = s.red := rfl
@[simp] theorem State.addWrap_alm (s : State) (k n : Nat) : (s.addWrap k n).alm = s.alm := rfl
@[simp] theorem State.addWrap_mgt (s : State) (k n : Nat) : (s.addWrap k n).mgt = s.mgt := rfl
@[simp] theorem State.addWrap_pwr (s : State) (k n : Nat) : (s.addWrap k n).pwr = s.pwr := rfl
@[simp] theorem State.addWrap_fe (s : State) (k n : Nat) : (s.addWrap k n).fe = s.fe := rfl
@[simp] theorem State.addWrap_tmr (s : State) (k n : Nat) : (s.addWrap k n).tmr = s.tmr := rfl
@[simp] theorem State.addWrap_trg (s : State) (k n : Nat) : (s.addWrap k n).trg = s.trg := rfl
@[simp] theorem State.addWrap_tb (s : State) (k n : Nat) : (s.addWrap k n).tb = s.tb := rfl
@[simp] theorem State.addWrap_lnk (s : State) (k n : Nat) : (s.addWrap k n).lnk = s.lnk := rfl
@[simp] theorem State.addWrap_cal (s : State) (k n : Nat) : (s.addWrap k n).cal = s.cal := rfl
@[simp] theorem State.addWrap_link (s : State) (k n : Nat) : (s.addWrap k n).link = s.link := rfl

/-! `State.at_` -/

@[simp] theorem State.at__pending (s : State) (t : Nat) : (s.at_ t).pending = s.pending := rfl
@[simp] theorem State.at__free (s : State) (t : Nat) : (s.at_ t).free = s.free := rfl
@[simp] theorem State.at__par (s : State) (t : Nat) : (s.at_ t).par = s.par := rfl
@[simp] theorem State.at__cmd (s : State) (t : Nat) : (s.at_ t).cmd = s.cmd := rfl
@[simp] theorem State.at__recs (s : State) (t : Nat) : (s.at_ t).recs = s.recs := rfl
@[simp] theorem State.at__mem (s : State) (t : Nat) : (s.at_ t).mem = s.mem := rfl
@[simp] theorem State.at__clp (s : State) (t : Nat) : (s.at_ t).clp = s.clp := rfl
@[simp] theorem State.at__prt (s : State) (t : Nat) : (s.at_ t).prt = s.prt := rfl
@[simp] theorem State.at__red (s : State) (t : Nat) : (s.at_ t).red = s.red := rfl
@[simp] theorem State.at__alm (s : State) (t : Nat) : (s.at_ t).alm = s.alm := rfl
@[simp] theorem State.at__mgt (s : State) (t : Nat) : (s.at_ t).mgt = s.mgt := rfl
@[simp] theorem State.at__pwr (s : State) (t : Nat) : (s.at_ t).pwr = s.pwr := rfl
@[simp] theorem State.at__fe (s : State) (t : Nat) : (s.at_ t).fe = s.fe := rfl
@[simp] theorem State.at__tmr (s : State) (t : Nat) : (s.at_ t).tmr = s.tmr := rfl
@[simp] theorem State.at__trg (s : State) (t : Nat) : (s.at_ t).trg = s.trg := rfl
@[simp] theorem State.at__tb (s : State) (t : Nat) : (s.at_ t).tb = s.tb := rfl
@[simp] theorem State.at__lnk (s : State) (t : Nat) : (s.at_ t).lnk = s.lnk := rfl
@[simp] theorem State.at__cal (s : State) (t : Nat) : (s.at_ t).cal = s.cal := rfl
@[simp] theorem State.at__link (s : State) (t : Nat) : (s.at_ t).link = s.link := rfl
@[simp] theorem State.at__rd (s : State) (t : Nat) (addr : Nat) : (s.at_ t).rd addr = s.rd addr := rfl
@[simp] theorem State.at__rdN (s : State) (t : Nat) (addr : Nat) : (s.at_ t).rdN addr = s.rdN addr := rfl

/-! `State.logEvent` -/

@[simp] theorem State.logEvent_pending (s : State) (code unit severity data0 data1 : Nat) : (s.logEvent code unit severity data0 data1).pending = s.pending := rfl
@[simp] theorem State.logEvent_time (s : State) (code unit severity data0 data1 : Nat) : (s.logEvent code unit severity data0 data1).time = s.time := rfl
@[simp] theorem State.logEvent_free (s : State) (code unit severity data0 data1 : Nat) : (s.logEvent code unit severity data0 data1).free = s.free := rfl
@[simp] theorem State.logEvent_par (s : State) (code unit severity data0 data1 : Nat) : (s.logEvent code unit severity data0 data1).par = s.par := rfl
@[simp] theorem State.logEvent_cmd (s : State) (code unit severity data0 data1 : Nat) : (s.logEvent code unit severity data0 data1).cmd = s.cmd := rfl
@[simp] theorem State.logEvent_recs (s : State) (code unit severity data0 data1 : Nat) : (s.logEvent code unit severity data0 data1).recs = s.recs := rfl
@[simp] theorem State.logEvent_mem (s : State) (code unit severity data0 data1 : Nat) : (s.logEvent code unit severity data0 data1).mem = s.mem := rfl
@[simp] theorem State.logEvent_clp (s : State) (code unit severity data0 data1 : Nat) : (s.logEvent code unit severity data0 data1).clp = s.clp := rfl
@[simp] theorem State.logEvent_prt (s : State) (code unit severity data0 data1 : Nat) : (s.logEvent code unit severity data0 data1).prt = s.prt := rfl
@[simp] theorem State.logEvent_red (s : State) (code unit severity data0 data1 : Nat) : (s.logEvent code unit severity data0 data1).red = s.red := rfl
@[simp] theorem State.logEvent_alm (s : State) (code unit severity data0 data1 : Nat) : (s.logEvent code unit severity data0 data1).alm = s.alm := rfl
@[simp] theorem State.logEvent_pwr (s : State) (code unit severity data0 data1 : Nat) : (s.logEvent code unit severity data0 data1).pwr = s.pwr := rfl
@[simp] theorem State.logEvent_fe (s : State) (code unit severity data0 data1 : Nat) : (s.logEvent code unit severity data0 data1).fe = s.fe := rfl
@[simp] theorem State.logEvent_tmr (s : State) (code unit severity data0 data1 : Nat) : (s.logEvent code unit severity data0 data1).tmr = s.tmr := rfl
@[simp] theorem State.logEvent_trg (s : State) (code unit severity data0 data1 : Nat) : (s.logEvent code unit severity data0 data1).trg = s.trg := rfl
@[simp] theorem State.logEvent_tb (s : State) (code unit severity data0 data1 : Nat) : (s.logEvent code unit severity data0 data1).tb = s.tb := rfl
@[simp] theorem State.logEvent_lnk (s : State) (code unit severity data0 data1 : Nat) : (s.logEvent code unit severity data0 data1).lnk = s.lnk := rfl
@[simp] theorem State.logEvent_cal (s : State) (code unit severity data0 data1 : Nat) : (s.logEvent code unit severity data0 data1).cal = s.cal := rfl
@[simp] theorem State.logEvent_link (s : State) (code unit severity data0 data1 : Nat) : (s.logEvent code unit severity data0 data1).link = s.link := rfl
@[simp] theorem State.logEvent_rd (s : State) (code unit severity data0 data1 : Nat) (addr : Nat) : (s.logEvent code unit severity data0 data1).rd addr = s.rd addr := rfl
@[simp] theorem State.logEvent_rdN (s : State) (code unit severity data0 data1 : Nat) (addr : Nat) : (s.logEvent code unit severity data0 data1).rdN addr = s.rdN addr := rfl

/-! `State.countIn` -/

@[simp] theorem State.countIn_pending (s : State) (die cls inst n : Nat) : (s.countIn die cls inst n).pending = s.pending := rfl
@[simp] theorem State.countIn_time (s : State) (die cls inst n : Nat) : (s.countIn die cls inst n).time = s.time := rfl
@[simp] theorem State.countIn_free (s : State) (die cls inst n : Nat) : (s.countIn die cls inst n).free = s.free := rfl
@[simp] theorem State.countIn_par (s : State) (die cls inst n : Nat) : (s.countIn die cls inst n).par = s.par := rfl
@[simp] theorem State.countIn_cmd (s : State) (die cls inst n : Nat) : (s.countIn die cls inst n).cmd = s.cmd := rfl
@[simp] theorem State.countIn_recs (s : State) (die cls inst n : Nat) : (s.countIn die cls inst n).recs = s.recs := rfl
@[simp] theorem State.countIn_mem (s : State) (die cls inst n : Nat) : (s.countIn die cls inst n).mem = s.mem := rfl
@[simp] theorem State.countIn_clp (s : State) (die cls inst n : Nat) : (s.countIn die cls inst n).clp = s.clp := rfl
@[simp] theorem State.countIn_prt (s : State) (die cls inst n : Nat) : (s.countIn die cls inst n).prt = s.prt := rfl
@[simp] theorem State.countIn_red (s : State) (die cls inst n : Nat) : (s.countIn die cls inst n).red = s.red := rfl
@[simp] theorem State.countIn_alm (s : State) (die cls inst n : Nat) : (s.countIn die cls inst n).alm = s.alm := rfl
@[simp] theorem State.countIn_pwr (s : State) (die cls inst n : Nat) : (s.countIn die cls inst n).pwr = s.pwr := rfl
@[simp] theorem State.countIn_fe (s : State) (die cls inst n : Nat) : (s.countIn die cls inst n).fe = s.fe := rfl
@[simp] theorem State.countIn_tmr (s : State) (die cls inst n : Nat) : (s.countIn die cls inst n).tmr = s.tmr := rfl
@[simp] theorem State.countIn_trg (s : State) (die cls inst n : Nat) : (s.countIn die cls inst n).trg = s.trg := rfl
@[simp] theorem State.countIn_tb (s : State) (die cls inst n : Nat) : (s.countIn die cls inst n).tb = s.tb := rfl
@[simp] theorem State.countIn_lnk (s : State) (die cls inst n : Nat) : (s.countIn die cls inst n).lnk = s.lnk := rfl
@[simp] theorem State.countIn_cal (s : State) (die cls inst n : Nat) : (s.countIn die cls inst n).cal = s.cal := rfl
@[simp] theorem State.countIn_link (s : State) (die cls inst n : Nat) : (s.countIn die cls inst n).link = s.link := rfl
@[simp] theorem State.countIn_rd (s : State) (die cls inst n : Nat) (addr : Nat) : (s.countIn die cls inst n).rd addr = s.rd addr := rfl
@[simp] theorem State.countIn_rdN (s : State) (die cls inst n : Nat) (addr : Nat) : (s.countIn die cls inst n).rdN addr = s.rdN addr := rfl

/-! `State.count` -/

@[simp] theorem State.count_pending (s : State) (cls inst : Nat) : (s.count cls inst).pending = s.pending := rfl
@[simp] theorem State.count_time (s : State) (cls inst : Nat) : (s.count cls inst).time = s.time := rfl
@[simp] theorem State.count_free (s : State) (cls inst : Nat) : (s.count cls inst).free = s.free := rfl
@[simp] theorem State.count_par (s : State) (cls inst : Nat) : (s.count cls inst).par = s.par := rfl
@[simp] theorem State.count_cmd (s : State) (cls inst : Nat) : (s.count cls inst).cmd = s.cmd := rfl
@[simp] theorem State.count_recs (s : State) (cls inst : Nat) : (s.count cls inst).recs = s.recs := rfl
@[simp] theorem State.count_mem (s : State) (cls inst : Nat) : (s.count cls inst).mem = s.mem := rfl
@[simp] theorem State.count_clp (s : State) (cls inst : Nat) : (s.count cls inst).clp = s.clp := rfl
@[simp] theorem State.count_prt (s : State) (cls inst : Nat) : (s.count cls inst).prt = s.prt := rfl
@[simp] theorem State.count_red (s : State) (cls inst : Nat) : (s.count cls inst).red = s.red := rfl
@[simp] theorem State.count_alm (s : State) (cls inst : Nat) : (s.count cls inst).alm = s.alm := rfl
@[simp] theorem State.count_pwr (s : State) (cls inst : Nat) : (s.count cls inst).pwr = s.pwr := rfl
@[simp] theorem State.count_fe (s : State) (cls inst : Nat) : (s.count cls inst).fe = s.fe := rfl
@[simp] theorem State.count_tmr (s : State) (cls inst : Nat) : (s.count cls inst).tmr = s.tmr := rfl
@[simp] theorem State.count_trg (s : State) (cls inst : Nat) : (s.count cls inst).trg = s.trg := rfl
@[simp] theorem State.count_tb (s : State) (cls inst : Nat) : (s.count cls inst).tb = s.tb := rfl
@[simp] theorem State.count_lnk (s : State) (cls inst : Nat) : (s.count cls inst).lnk = s.lnk := rfl
@[simp] theorem State.count_cal (s : State) (cls inst : Nat) : (s.count cls inst).cal = s.cal := rfl
@[simp] theorem State.count_link (s : State) (cls inst : Nat) : (s.count cls inst).link = s.link := rfl
@[simp] theorem State.count_rd (s : State) (cls inst : Nat) (addr : Nat) : (s.count cls inst).rd addr = s.rd addr := rfl
@[simp] theorem State.count_rdN (s : State) (cls inst : Nat) (addr : Nat) : (s.count cls inst).rdN addr = s.rdN addr := rfl

/-! `State.setDie` -/

@[simp] theorem State.setDie_pending (s : State) (d : Nat) (x : DieState) : (s.setDie d x).pending = s.pending := rfl
@[simp] theorem State.setDie_time (s : State) (d : Nat) (x : DieState) : (s.setDie d x).time = s.time := rfl
@[simp] theorem State.setDie_free (s : State) (d : Nat) (x : DieState) : (s.setDie d x).free = s.free := rfl
@[simp] theorem State.setDie_par (s : State) (d : Nat) (x : DieState) : (s.setDie d x).par = s.par := rfl
@[simp] theorem State.setDie_cmd (s : State) (d : Nat) (x : DieState) : (s.setDie d x).cmd = s.cmd := rfl
@[simp] theorem State.setDie_recs (s : State) (d : Nat) (x : DieState) : (s.setDie d x).recs = s.recs := rfl
@[simp] theorem State.setDie_mem (s : State) (d : Nat) (x : DieState) : (s.setDie d x).mem = s.mem := rfl
@[simp] theorem State.setDie_clp (s : State) (d : Nat) (x : DieState) : (s.setDie d x).clp = s.clp := rfl
@[simp] theorem State.setDie_prt (s : State) (d : Nat) (x : DieState) : (s.setDie d x).prt = s.prt := rfl
@[simp] theorem State.setDie_alm (s : State) (d : Nat) (x : DieState) : (s.setDie d x).alm = s.alm := rfl
@[simp] theorem State.setDie_mgt (s : State) (d : Nat) (x : DieState) : (s.setDie d x).mgt = s.mgt := rfl
@[simp] theorem State.setDie_pwr (s : State) (d : Nat) (x : DieState) : (s.setDie d x).pwr = s.pwr := rfl
@[simp] theorem State.setDie_fe (s : State) (d : Nat) (x : DieState) : (s.setDie d x).fe = s.fe := rfl
@[simp] theorem State.setDie_tmr (s : State) (d : Nat) (x : DieState) : (s.setDie d x).tmr = s.tmr := rfl
@[simp] theorem State.setDie_trg (s : State) (d : Nat) (x : DieState) : (s.setDie d x).trg = s.trg := rfl
@[simp] theorem State.setDie_tb (s : State) (d : Nat) (x : DieState) : (s.setDie d x).tb = s.tb := rfl
@[simp] theorem State.setDie_lnk (s : State) (d : Nat) (x : DieState) : (s.setDie d x).lnk = s.lnk := rfl
@[simp] theorem State.setDie_cal (s : State) (d : Nat) (x : DieState) : (s.setDie d x).cal = s.cal := rfl
@[simp] theorem State.setDie_link (s : State) (d : Nat) (x : DieState) : (s.setDie d x).link = s.link := rfl
@[simp] theorem State.setDie_rd (s : State) (d : Nat) (x : DieState) (addr : Nat) : (s.setDie d x).rd addr = s.rd addr := rfl
@[simp] theorem State.setDie_rdN (s : State) (d : Nat) (x : DieState) (addr : Nat) : (s.setDie d x).rdN addr = s.rdN addr := rfl

/-! `State.setBit` -/

@[simp] theorem State.setBit_pending (s : State) (k i : Nat) : (s.setBit k i).pending = s.pending := rfl
@[simp] theorem State.setBit_time (s : State) (k i : Nat) : (s.setBit k i).time = s.time := rfl
@[simp] theorem State.setBit_free (s : State) (k i : Nat) : (s.setBit k i).free = s.free := rfl
@[simp] theorem State.setBit_recs (s : State) (k i : Nat) : (s.setBit k i).recs = s.recs := rfl
@[simp] theorem State.setBit_mem (s : State) (k i : Nat) : (s.setBit k i).mem = s.mem := rfl
@[simp] theorem State.setBit_clp (s : State) (k i : Nat) : (s.setBit k i).clp = s.clp := rfl
@[simp] theorem State.setBit_prt (s : State) (k i : Nat) : (s.setBit k i).prt = s.prt := rfl
@[simp] theorem State.setBit_red (s : State) (k i : Nat) : (s.setBit k i).red = s.red := rfl
@[simp] theorem State.setBit_alm (s : State) (k i : Nat) : (s.setBit k i).alm = s.alm := rfl
@[simp] theorem State.setBit_mgt (s : State) (k i : Nat) : (s.setBit k i).mgt = s.mgt := rfl
@[simp] theorem State.setBit_pwr (s : State) (k i : Nat) : (s.setBit k i).pwr = s.pwr := rfl
@[simp] theorem State.setBit_fe (s : State) (k i : Nat) : (s.setBit k i).fe = s.fe := rfl
@[simp] theorem State.setBit_tmr (s : State) (k i : Nat) : (s.setBit k i).tmr = s.tmr := rfl
@[simp] theorem State.setBit_trg (s : State) (k i : Nat) : (s.setBit k i).trg = s.trg := rfl
@[simp] theorem State.setBit_tb (s : State) (k i : Nat) : (s.setBit k i).tb = s.tb := rfl
@[simp] theorem State.setBit_lnk (s : State) (k i : Nat) : (s.setBit k i).lnk = s.lnk := rfl
@[simp] theorem State.setBit_cal (s : State) (k i : Nat) : (s.setBit k i).cal = s.cal := rfl
@[simp] theorem State.setBit_link (s : State) (k i : Nat) : (s.setBit k i).link = s.link := rfl

/-! `State.clrBits` -/

@[simp] theorem State.clrBits_pending (s : State) (k mask : Nat) : (s.clrBits k mask).pending = s.pending := rfl
@[simp] theorem State.clrBits_time (s : State) (k mask : Nat) : (s.clrBits k mask).time = s.time := rfl
@[simp] theorem State.clrBits_free (s : State) (k mask : Nat) : (s.clrBits k mask).free = s.free := rfl
@[simp] theorem State.clrBits_cmd (s : State) (k mask : Nat) : (s.clrBits k mask).cmd = s.cmd := rfl
@[simp] theorem State.clrBits_recs (s : State) (k mask : Nat) : (s.clrBits k mask).recs = s.recs := rfl
@[simp] theorem State.clrBits_mem (s : State) (k mask : Nat) : (s.clrBits k mask).mem = s.mem := rfl
@[simp] theorem State.clrBits_clp (s : State) (k mask : Nat) : (s.clrBits k mask).clp = s.clp := rfl
@[simp] theorem State.clrBits_prt (s : State) (k mask : Nat) : (s.clrBits k mask).prt = s.prt := rfl
@[simp] theorem State.clrBits_red (s : State) (k mask : Nat) : (s.clrBits k mask).red = s.red := rfl
@[simp] theorem State.clrBits_alm (s : State) (k mask : Nat) : (s.clrBits k mask).alm = s.alm := rfl
@[simp] theorem State.clrBits_mgt (s : State) (k mask : Nat) : (s.clrBits k mask).mgt = s.mgt := rfl
@[simp] theorem State.clrBits_pwr (s : State) (k mask : Nat) : (s.clrBits k mask).pwr = s.pwr := rfl
@[simp] theorem State.clrBits_fe (s : State) (k mask : Nat) : (s.clrBits k mask).fe = s.fe := rfl
@[simp] theorem State.clrBits_tmr (s : State) (k mask : Nat) : (s.clrBits k mask).tmr = s.tmr := rfl
@[simp] theorem State.clrBits_trg (s : State) (k mask : Nat) : (s.clrBits k mask).trg = s.trg := rfl
@[simp] theorem State.clrBits_tb (s : State) (k mask : Nat) : (s.clrBits k mask).tb = s.tb := rfl
@[simp] theorem State.clrBits_lnk (s : State) (k mask : Nat) : (s.clrBits k mask).lnk = s.lnk := rfl
@[simp] theorem State.clrBits_cal (s : State) (k mask : Nat) : (s.clrBits k mask).cal = s.cal := rfl
@[simp] theorem State.clrBits_link (s : State) (k mask : Nat) : (s.clrBits k mask).link = s.link := rfl

/-! `State.setMemDie` -/

@[simp] theorem State.setMemDie_pending (s : State) (d : Nat) (x : DieMemory) : (s.setMemDie d x).pending = s.pending := rfl
@[simp] theorem State.setMemDie_time (s : State) (d : Nat) (x : DieMemory) : (s.setMemDie d x).time = s.time := rfl
@[simp] theorem State.setMemDie_free (s : State) (d : Nat) (x : DieMemory) : (s.setMemDie d x).free = s.free := rfl
@[simp] theorem State.setMemDie_par (s : State) (d : Nat) (x : DieMemory) : (s.setMemDie d x).par = s.par := rfl
@[simp] theorem State.setMemDie_cmd (s : State) (d : Nat) (x : DieMemory) : (s.setMemDie d x).cmd = s.cmd := rfl
@[simp] theorem State.setMemDie_recs (s : State) (d : Nat) (x : DieMemory) : (s.setMemDie d x).recs = s.recs := rfl
@[simp] theorem State.setMemDie_clp (s : State) (d : Nat) (x : DieMemory) : (s.setMemDie d x).clp = s.clp := rfl
@[simp] theorem State.setMemDie_prt (s : State) (d : Nat) (x : DieMemory) : (s.setMemDie d x).prt = s.prt := rfl
@[simp] theorem State.setMemDie_red (s : State) (d : Nat) (x : DieMemory) : (s.setMemDie d x).red = s.red := rfl
@[simp] theorem State.setMemDie_alm (s : State) (d : Nat) (x : DieMemory) : (s.setMemDie d x).alm = s.alm := rfl
@[simp] theorem State.setMemDie_mgt (s : State) (d : Nat) (x : DieMemory) : (s.setMemDie d x).mgt = s.mgt := rfl
@[simp] theorem State.setMemDie_pwr (s : State) (d : Nat) (x : DieMemory) : (s.setMemDie d x).pwr = s.pwr := rfl
@[simp] theorem State.setMemDie_fe (s : State) (d : Nat) (x : DieMemory) : (s.setMemDie d x).fe = s.fe := rfl
@[simp] theorem State.setMemDie_tmr (s : State) (d : Nat) (x : DieMemory) : (s.setMemDie d x).tmr = s.tmr := rfl
@[simp] theorem State.setMemDie_trg (s : State) (d : Nat) (x : DieMemory) : (s.setMemDie d x).trg = s.trg := rfl
@[simp] theorem State.setMemDie_tb (s : State) (d : Nat) (x : DieMemory) : (s.setMemDie d x).tb = s.tb := rfl
@[simp] theorem State.setMemDie_lnk (s : State) (d : Nat) (x : DieMemory) : (s.setMemDie d x).lnk = s.lnk := rfl
@[simp] theorem State.setMemDie_cal (s : State) (d : Nat) (x : DieMemory) : (s.setMemDie d x).cal = s.cal := rfl
@[simp] theorem State.setMemDie_link (s : State) (d : Nat) (x : DieMemory) : (s.setMemDie d x).link = s.link := rfl
@[simp] theorem State.setMemDie_rd (s : State) (d : Nat) (x : DieMemory) (addr : Nat) : (s.setMemDie d x).rd addr = s.rd addr := rfl
@[simp] theorem State.setMemDie_rdN (s : State) (d : Nat) (x : DieMemory) (addr : Nat) : (s.setMemDie d x).rdN addr = s.rdN addr := rfl

/-! `State.setLineError` -/

@[simp] theorem State.setLineError_pending (s : State) (d line : Nat) (e : LineError) : (s.setLineError d line e).pending = s.pending := rfl
@[simp] theorem State.setLineError_time (s : State) (d line : Nat) (e : LineError) : (s.setLineError d line e).time = s.time := rfl
@[simp] theorem State.setLineError_free (s : State) (d line : Nat) (e : LineError) : (s.setLineError d line e).free = s.free := rfl
@[simp] theorem State.setLineError_par (s : State) (d line : Nat) (e : LineError) : (s.setLineError d line e).par = s.par := rfl
@[simp] theorem State.setLineError_cmd (s : State) (d line : Nat) (e : LineError) : (s.setLineError d line e).cmd = s.cmd := rfl
@[simp] theorem State.setLineError_recs (s : State) (d line : Nat) (e : LineError) : (s.setLineError d line e).recs = s.recs := rfl
@[simp] theorem State.setLineError_clp (s : State) (d line : Nat) (e : LineError) : (s.setLineError d line e).clp = s.clp := rfl
@[simp] theorem State.setLineError_prt (s : State) (d line : Nat) (e : LineError) : (s.setLineError d line e).prt = s.prt := rfl
@[simp] theorem State.setLineError_red (s : State) (d line : Nat) (e : LineError) : (s.setLineError d line e).red = s.red := rfl
@[simp] theorem State.setLineError_alm (s : State) (d line : Nat) (e : LineError) : (s.setLineError d line e).alm = s.alm := rfl
@[simp] theorem State.setLineError_mgt (s : State) (d line : Nat) (e : LineError) : (s.setLineError d line e).mgt = s.mgt := rfl
@[simp] theorem State.setLineError_pwr (s : State) (d line : Nat) (e : LineError) : (s.setLineError d line e).pwr = s.pwr := rfl
@[simp] theorem State.setLineError_fe (s : State) (d line : Nat) (e : LineError) : (s.setLineError d line e).fe = s.fe := rfl
@[simp] theorem State.setLineError_tmr (s : State) (d line : Nat) (e : LineError) : (s.setLineError d line e).tmr = s.tmr := rfl
@[simp] theorem State.setLineError_trg (s : State) (d line : Nat) (e : LineError) : (s.setLineError d line e).trg = s.trg := rfl
@[simp] theorem State.setLineError_tb (s : State) (d line : Nat) (e : LineError) : (s.setLineError d line e).tb = s.tb := rfl
@[simp] theorem State.setLineError_lnk (s : State) (d line : Nat) (e : LineError) : (s.setLineError d line e).lnk = s.lnk := rfl
@[simp] theorem State.setLineError_cal (s : State) (d line : Nat) (e : LineError) : (s.setLineError d line e).cal = s.cal := rfl
@[simp] theorem State.setLineError_link (s : State) (d line : Nat) (e : LineError) : (s.setLineError d line e).link = s.link := rfl
@[simp] theorem State.setLineError_rd (s : State) (d line : Nat) (e : LineError) (addr : Nat) : (s.setLineError d line e).rd addr = s.rd addr := rfl
@[simp] theorem State.setLineError_rdN (s : State) (d line : Nat) (e : LineError) (addr : Nat) : (s.setLineError d line e).rdN addr = s.rdN addr := rfl

/-! `State.setWordError` -/

@[simp] theorem State.setWordError_pending (s : State) (d w : Nat) (e : WordError) : (s.setWordError d w e).pending = s.pending := rfl
@[simp] theorem State.setWordError_time (s : State) (d w : Nat) (e : WordError) : (s.setWordError d w e).time = s.time := rfl
@[simp] theorem State.setWordError_free (s : State) (d w : Nat) (e : WordError) : (s.setWordError d w e).free = s.free := rfl
@[simp] theorem State.setWordError_par (s : State) (d w : Nat) (e : WordError) : (s.setWordError d w e).par = s.par := rfl
@[simp] theorem State.setWordError_cmd (s : State) (d w : Nat) (e : WordError) : (s.setWordError d w e).cmd = s.cmd := rfl
@[simp] theorem State.setWordError_recs (s : State) (d w : Nat) (e : WordError) : (s.setWordError d w e).recs = s.recs := rfl
@[simp] theorem State.setWordError_clp (s : State) (d w : Nat) (e : WordError) : (s.setWordError d w e).clp = s.clp := rfl
@[simp] theorem State.setWordError_prt (s : State) (d w : Nat) (e : WordError) : (s.setWordError d w e).prt = s.prt := rfl
@[simp] theorem State.setWordError_red (s : State) (d w : Nat) (e : WordError) : (s.setWordError d w e).red = s.red := rfl
@[simp] theorem State.setWordError_alm (s : State) (d w : Nat) (e : WordError) : (s.setWordError d w e).alm = s.alm := rfl
@[simp] theorem State.setWordError_mgt (s : State) (d w : Nat) (e : WordError) : (s.setWordError d w e).mgt = s.mgt := rfl
@[simp] theorem State.setWordError_pwr (s : State) (d w : Nat) (e : WordError) : (s.setWordError d w e).pwr = s.pwr := rfl
@[simp] theorem State.setWordError_fe (s : State) (d w : Nat) (e : WordError) : (s.setWordError d w e).fe = s.fe := rfl
@[simp] theorem State.setWordError_tmr (s : State) (d w : Nat) (e : WordError) : (s.setWordError d w e).tmr = s.tmr := rfl
@[simp] theorem State.setWordError_trg (s : State) (d w : Nat) (e : WordError) : (s.setWordError d w e).trg = s.trg := rfl
@[simp] theorem State.setWordError_tb (s : State) (d w : Nat) (e : WordError) : (s.setWordError d w e).tb = s.tb := rfl
@[simp] theorem State.setWordError_lnk (s : State) (d w : Nat) (e : WordError) : (s.setWordError d w e).lnk = s.lnk := rfl
@[simp] theorem State.setWordError_cal (s : State) (d w : Nat) (e : WordError) : (s.setWordError d w e).cal = s.cal := rfl
@[simp] theorem State.setWordError_link (s : State) (d w : Nat) (e : WordError) : (s.setWordError d w e).link = s.link := rfl
@[simp] theorem State.setWordError_rd (s : State) (d w : Nat) (e : WordError) (addr : Nat) : (s.setWordError d w e).rd addr = s.rd addr := rfl
@[simp] theorem State.setWordError_rdN (s : State) (d w : Nat) (e : WordError) (addr : Nat) : (s.setWordError d w e).rdN addr = s.rdN addr := rfl

/-! `State.setTest` -/

@[simp] theorem State.setTest_pending (s : State) (x : SramTest) : (s.setTest x).pending = s.pending := rfl
@[simp] theorem State.setTest_time (s : State) (x : SramTest) : (s.setTest x).time = s.time := rfl
@[simp] theorem State.setTest_free (s : State) (x : SramTest) : (s.setTest x).free = s.free := rfl
@[simp] theorem State.setTest_par (s : State) (x : SramTest) : (s.setTest x).par = s.par := rfl
@[simp] theorem State.setTest_cmd (s : State) (x : SramTest) : (s.setTest x).cmd = s.cmd := rfl
@[simp] theorem State.setTest_recs (s : State) (x : SramTest) : (s.setTest x).recs = s.recs := rfl
@[simp] theorem State.setTest_clp (s : State) (x : SramTest) : (s.setTest x).clp = s.clp := rfl
@[simp] theorem State.setTest_prt (s : State) (x : SramTest) : (s.setTest x).prt = s.prt := rfl
@[simp] theorem State.setTest_red (s : State) (x : SramTest) : (s.setTest x).red = s.red := rfl
@[simp] theorem State.setTest_alm (s : State) (x : SramTest) : (s.setTest x).alm = s.alm := rfl
@[simp] theorem State.setTest_mgt (s : State) (x : SramTest) : (s.setTest x).mgt = s.mgt := rfl
@[simp] theorem State.setTest_pwr (s : State) (x : SramTest) : (s.setTest x).pwr = s.pwr := rfl
@[simp] theorem State.setTest_fe (s : State) (x : SramTest) : (s.setTest x).fe = s.fe := rfl
@[simp] theorem State.setTest_tmr (s : State) (x : SramTest) : (s.setTest x).tmr = s.tmr := rfl
@[simp] theorem State.setTest_trg (s : State) (x : SramTest) : (s.setTest x).trg = s.trg := rfl
@[simp] theorem State.setTest_tb (s : State) (x : SramTest) : (s.setTest x).tb = s.tb := rfl
@[simp] theorem State.setTest_lnk (s : State) (x : SramTest) : (s.setTest x).lnk = s.lnk := rfl
@[simp] theorem State.setTest_cal (s : State) (x : SramTest) : (s.setTest x).cal = s.cal := rfl
@[simp] theorem State.setTest_link (s : State) (x : SramTest) : (s.setTest x).link = s.link := rfl
@[simp] theorem State.setTest_rd (s : State) (x : SramTest) (addr : Nat) : (s.setTest x).rd addr = s.rd addr := rfl
@[simp] theorem State.setTest_rdN (s : State) (x : SramTest) (addr : Nat) : (s.setTest x).rdN addr = s.rdN addr := rfl

/-! `State.setStore` -/

@[simp] theorem State.setStore_pending (s : State) (id : Nat) (x : Store) : (s.setStore id x).pending = s.pending := rfl
@[simp] theorem State.setStore_time (s : State) (id : Nat) (x : Store) : (s.setStore id x).time = s.time := rfl
@[simp] theorem State.setStore_free (s : State) (id : Nat) (x : Store) : (s.setStore id x).free = s.free := rfl
@[simp] theorem State.setStore_par (s : State) (id : Nat) (x : Store) : (s.setStore id x).par = s.par := rfl
@[simp] theorem State.setStore_cmd (s : State) (id : Nat) (x : Store) : (s.setStore id x).cmd = s.cmd := rfl
@[simp] theorem State.setStore_recs (s : State) (id : Nat) (x : Store) : (s.setStore id x).recs = s.recs := rfl
@[simp] theorem State.setStore_clp (s : State) (id : Nat) (x : Store) : (s.setStore id x).clp = s.clp := rfl
@[simp] theorem State.setStore_prt (s : State) (id : Nat) (x : Store) : (s.setStore id x).prt = s.prt := rfl
@[simp] theorem State.setStore_red (s : State) (id : Nat) (x : Store) : (s.setStore id x).red = s.red := rfl
@[simp] theorem State.setStore_alm (s : State) (id : Nat) (x : Store) : (s.setStore id x).alm = s.alm := rfl
@[simp] theorem State.setStore_mgt (s : State) (id : Nat) (x : Store) : (s.setStore id x).mgt = s.mgt := rfl
@[simp] theorem State.setStore_pwr (s : State) (id : Nat) (x : Store) : (s.setStore id x).pwr = s.pwr := rfl
@[simp] theorem State.setStore_fe (s : State) (id : Nat) (x : Store) : (s.setStore id x).fe = s.fe := rfl
@[simp] theorem State.setStore_tmr (s : State) (id : Nat) (x : Store) : (s.setStore id x).tmr = s.tmr := rfl
@[simp] theorem State.setStore_trg (s : State) (id : Nat) (x : Store) : (s.setStore id x).trg = s.trg := rfl
@[simp] theorem State.setStore_tb (s : State) (id : Nat) (x : Store) : (s.setStore id x).tb = s.tb := rfl
@[simp] theorem State.setStore_lnk (s : State) (id : Nat) (x : Store) : (s.setStore id x).lnk = s.lnk := rfl
@[simp] theorem State.setStore_cal (s : State) (id : Nat) (x : Store) : (s.setStore id x).cal = s.cal := rfl
@[simp] theorem State.setStore_link (s : State) (id : Nat) (x : Store) : (s.setStore id x).link = s.link := rfl
@[simp] theorem State.setStore_rd (s : State) (id : Nat) (x : Store) (addr : Nat) : (s.setStore id x).rd addr = s.rd addr := rfl
@[simp] theorem State.setStore_rdN (s : State) (id : Nat) (x : Store) (addr : Nat) : (s.setStore id x).rdN addr = s.rdN addr := rfl

/-! `State.setLane` -/

@[simp] theorem State.setLane_pending (s : State) (l : Nat) (x : Lane) : (s.setLane l x).pending = s.pending := rfl
@[simp] theorem State.setLane_time (s : State) (l : Nat) (x : Lane) : (s.setLane l x).time = s.time := rfl
@[simp] theorem State.setLane_free (s : State) (l : Nat) (x : Lane) : (s.setLane l x).free = s.free := rfl
@[simp] theorem State.setLane_par (s : State) (l : Nat) (x : Lane) : (s.setLane l x).par = s.par := rfl
@[simp] theorem State.setLane_cmd (s : State) (l : Nat) (x : Lane) : (s.setLane l x).cmd = s.cmd := rfl
@[simp] theorem State.setLane_recs (s : State) (l : Nat) (x : Lane) : (s.setLane l x).recs = s.recs := rfl
@[simp] theorem State.setLane_mem (s : State) (l : Nat) (x : Lane) : (s.setLane l x).mem = s.mem := rfl
@[simp] theorem State.setLane_clp (s : State) (l : Nat) (x : Lane) : (s.setLane l x).clp = s.clp := rfl
@[simp] theorem State.setLane_prt (s : State) (l : Nat) (x : Lane) : (s.setLane l x).prt = s.prt := rfl
@[simp] theorem State.setLane_red (s : State) (l : Nat) (x : Lane) : (s.setLane l x).red = s.red := rfl
@[simp] theorem State.setLane_alm (s : State) (l : Nat) (x : Lane) : (s.setLane l x).alm = s.alm := rfl
@[simp] theorem State.setLane_mgt (s : State) (l : Nat) (x : Lane) : (s.setLane l x).mgt = s.mgt := rfl
@[simp] theorem State.setLane_pwr (s : State) (l : Nat) (x : Lane) : (s.setLane l x).pwr = s.pwr := rfl
@[simp] theorem State.setLane_fe (s : State) (l : Nat) (x : Lane) : (s.setLane l x).fe = s.fe := rfl
@[simp] theorem State.setLane_tmr (s : State) (l : Nat) (x : Lane) : (s.setLane l x).tmr = s.tmr := rfl
@[simp] theorem State.setLane_trg (s : State) (l : Nat) (x : Lane) : (s.setLane l x).trg = s.trg := rfl
@[simp] theorem State.setLane_tb (s : State) (l : Nat) (x : Lane) : (s.setLane l x).tb = s.tb := rfl
@[simp] theorem State.setLane_cal (s : State) (l : Nat) (x : Lane) : (s.setLane l x).cal = s.cal := rfl
@[simp] theorem State.setLane_link (s : State) (l : Nat) (x : Lane) : (s.setLane l x).link = s.link := rfl
@[simp] theorem State.setLane_rd (s : State) (l : Nat) (x : Lane) (addr : Nat) : (s.setLane l x).rd addr = s.rd addr := rfl
@[simp] theorem State.setLane_rdN (s : State) (l : Nat) (x : Lane) (addr : Nat) : (s.setLane l x).rdN addr = s.rdN addr := rfl

/-! `State.setLanePort` -/

@[simp] theorem State.setLanePort_pending (s : State) (p : Nat) (x : LanePort) : (s.setLanePort p x).pending = s.pending := rfl
@[simp] theorem State.setLanePort_time (s : State) (p : Nat) (x : LanePort) : (s.setLanePort p x).time = s.time := rfl
@[simp] theorem State.setLanePort_free (s : State) (p : Nat) (x : LanePort) : (s.setLanePort p x).free = s.free := rfl
@[simp] theorem State.setLanePort_par (s : State) (p : Nat) (x : LanePort) : (s.setLanePort p x).par = s.par := rfl
@[simp] theorem State.setLanePort_cmd (s : State) (p : Nat) (x : LanePort) : (s.setLanePort p x).cmd = s.cmd := rfl
@[simp] theorem State.setLanePort_recs (s : State) (p : Nat) (x : LanePort) : (s.setLanePort p x).recs = s.recs := rfl
@[simp] theorem State.setLanePort_mem (s : State) (p : Nat) (x : LanePort) : (s.setLanePort p x).mem = s.mem := rfl
@[simp] theorem State.setLanePort_clp (s : State) (p : Nat) (x : LanePort) : (s.setLanePort p x).clp = s.clp := rfl
@[simp] theorem State.setLanePort_prt (s : State) (p : Nat) (x : LanePort) : (s.setLanePort p x).prt = s.prt := rfl
@[simp] theorem State.setLanePort_red (s : State) (p : Nat) (x : LanePort) : (s.setLanePort p x).red = s.red := rfl
@[simp] theorem State.setLanePort_alm (s : State) (p : Nat) (x : LanePort) : (s.setLanePort p x).alm = s.alm := rfl
@[simp] theorem State.setLanePort_mgt (s : State) (p : Nat) (x : LanePort) : (s.setLanePort p x).mgt = s.mgt := rfl
@[simp] theorem State.setLanePort_pwr (s : State) (p : Nat) (x : LanePort) : (s.setLanePort p x).pwr = s.pwr := rfl
@[simp] theorem State.setLanePort_fe (s : State) (p : Nat) (x : LanePort) : (s.setLanePort p x).fe = s.fe := rfl
@[simp] theorem State.setLanePort_tmr (s : State) (p : Nat) (x : LanePort) : (s.setLanePort p x).tmr = s.tmr := rfl
@[simp] theorem State.setLanePort_trg (s : State) (p : Nat) (x : LanePort) : (s.setLanePort p x).trg = s.trg := rfl
@[simp] theorem State.setLanePort_tb (s : State) (p : Nat) (x : LanePort) : (s.setLanePort p x).tb = s.tb := rfl
@[simp] theorem State.setLanePort_cal (s : State) (p : Nat) (x : LanePort) : (s.setLanePort p x).cal = s.cal := rfl
@[simp] theorem State.setLanePort_link (s : State) (p : Nat) (x : LanePort) : (s.setLanePort p x).link = s.link := rfl
@[simp] theorem State.setLanePort_rd (s : State) (p : Nat) (x : LanePort) (addr : Nat) : (s.setLanePort p x).rd addr = s.rd addr := rfl
@[simp] theorem State.setLanePort_rdN (s : State) (p : Nat) (x : LanePort) (addr : Nat) : (s.setLanePort p x).rdN addr = s.rdN addr := rfl

/-! `State.setPort` -/

@[simp] theorem State.setPort_pending (s : State) (p : Nat) (x : ClpPort) : (s.setPort p x).pending = s.pending := rfl
@[simp] theorem State.setPort_time (s : State) (p : Nat) (x : ClpPort) : (s.setPort p x).time = s.time := rfl
@[simp] theorem State.setPort_free (s : State) (p : Nat) (x : ClpPort) : (s.setPort p x).free = s.free := rfl
@[simp] theorem State.setPort_par (s : State) (p : Nat) (x : ClpPort) : (s.setPort p x).par = s.par := rfl
@[simp] theorem State.setPort_cmd (s : State) (p : Nat) (x : ClpPort) : (s.setPort p x).cmd = s.cmd := rfl
@[simp] theorem State.setPort_recs (s : State) (p : Nat) (x : ClpPort) : (s.setPort p x).recs = s.recs := rfl
@[simp] theorem State.setPort_mem (s : State) (p : Nat) (x : ClpPort) : (s.setPort p x).mem = s.mem := rfl
@[simp] theorem State.setPort_prt (s : State) (p : Nat) (x : ClpPort) : (s.setPort p x).prt = s.prt := rfl
@[simp] theorem State.setPort_red (s : State) (p : Nat) (x : ClpPort) : (s.setPort p x).red = s.red := rfl
@[simp] theorem State.setPort_alm (s : State) (p : Nat) (x : ClpPort) : (s.setPort p x).alm = s.alm := rfl
@[simp] theorem State.setPort_mgt (s : State) (p : Nat) (x : ClpPort) : (s.setPort p x).mgt = s.mgt := rfl
@[simp] theorem State.setPort_pwr (s : State) (p : Nat) (x : ClpPort) : (s.setPort p x).pwr = s.pwr := rfl
@[simp] theorem State.setPort_fe (s : State) (p : Nat) (x : ClpPort) : (s.setPort p x).fe = s.fe := rfl
@[simp] theorem State.setPort_tmr (s : State) (p : Nat) (x : ClpPort) : (s.setPort p x).tmr = s.tmr := rfl
@[simp] theorem State.setPort_trg (s : State) (p : Nat) (x : ClpPort) : (s.setPort p x).trg = s.trg := rfl
@[simp] theorem State.setPort_tb (s : State) (p : Nat) (x : ClpPort) : (s.setPort p x).tb = s.tb := rfl
@[simp] theorem State.setPort_lnk (s : State) (p : Nat) (x : ClpPort) : (s.setPort p x).lnk = s.lnk := rfl
@[simp] theorem State.setPort_cal (s : State) (p : Nat) (x : ClpPort) : (s.setPort p x).cal = s.cal := rfl
@[simp] theorem State.setPort_link (s : State) (p : Nat) (x : ClpPort) : (s.setPort p x).link = s.link := rfl
@[simp] theorem State.setPort_rd (s : State) (p : Nat) (x : ClpPort) (addr : Nat) : (s.setPort p x).rd addr = s.rd addr := rfl
@[simp] theorem State.setPort_rdN (s : State) (p : Nat) (x : ClpPort) (addr : Nat) : (s.setPort p x).rdN addr = s.rdN addr := rfl

/-! `State.setBar` -/

@[simp] theorem State.setBar_pending (s : State) (off d v : Nat) : (s.setBar off d v).pending = s.pending := rfl
@[simp] theorem State.setBar_time (s : State) (off d v : Nat) : (s.setBar off d v).time = s.time := rfl
@[simp] theorem State.setBar_free (s : State) (off d v : Nat) : (s.setBar off d v).free = s.free := rfl
@[simp] theorem State.setBar_par (s : State) (off d v : Nat) : (s.setBar off d v).par = s.par := rfl
@[simp] theorem State.setBar_cmd (s : State) (off d v : Nat) : (s.setBar off d v).cmd = s.cmd := rfl
@[simp] theorem State.setBar_recs (s : State) (off d v : Nat) : (s.setBar off d v).recs = s.recs := rfl
@[simp] theorem State.setBar_mem (s : State) (off d v : Nat) : (s.setBar off d v).mem = s.mem := rfl
@[simp] theorem State.setBar_clp (s : State) (off d v : Nat) : (s.setBar off d v).clp = s.clp := rfl
@[simp] theorem State.setBar_red (s : State) (off d v : Nat) : (s.setBar off d v).red = s.red := rfl
@[simp] theorem State.setBar_alm (s : State) (off d v : Nat) : (s.setBar off d v).alm = s.alm := rfl
@[simp] theorem State.setBar_mgt (s : State) (off d v : Nat) : (s.setBar off d v).mgt = s.mgt := rfl
@[simp] theorem State.setBar_pwr (s : State) (off d v : Nat) : (s.setBar off d v).pwr = s.pwr := rfl
@[simp] theorem State.setBar_fe (s : State) (off d v : Nat) : (s.setBar off d v).fe = s.fe := rfl
@[simp] theorem State.setBar_tmr (s : State) (off d v : Nat) : (s.setBar off d v).tmr = s.tmr := rfl
@[simp] theorem State.setBar_trg (s : State) (off d v : Nat) : (s.setBar off d v).trg = s.trg := rfl
@[simp] theorem State.setBar_tb (s : State) (off d v : Nat) : (s.setBar off d v).tb = s.tb := rfl
@[simp] theorem State.setBar_lnk (s : State) (off d v : Nat) : (s.setBar off d v).lnk = s.lnk := rfl
@[simp] theorem State.setBar_cal (s : State) (off d v : Nat) : (s.setBar off d v).cal = s.cal := rfl
@[simp] theorem State.setBar_link (s : State) (off d v : Nat) : (s.setBar off d v).link = s.link := rfl
@[simp] theorem State.setBar_rd (s : State) (off d v : Nat) (addr : Nat) : (s.setBar off d v).rd addr = s.rd addr := rfl
@[simp] theorem State.setBar_rdN (s : State) (off d v : Nat) (addr : Nat) : (s.setBar off d v).rdN addr = s.rdN addr := rfl

/-! `State.setRing` -/

@[simp] theorem State.setRing_pending (s : State) (r : Nat) (x : RingRuntime) : (s.setRing r x).pending = s.pending := rfl
@[simp] theorem State.setRing_time (s : State) (r : Nat) (x : RingRuntime) : (s.setRing r x).time = s.time := rfl
@[simp] theorem State.setRing_free (s : State) (r : Nat) (x : RingRuntime) : (s.setRing r x).free = s.free := rfl
@[simp] theorem State.setRing_par (s : State) (r : Nat) (x : RingRuntime) : (s.setRing r x).par = s.par := rfl
@[simp] theorem State.setRing_cmd (s : State) (r : Nat) (x : RingRuntime) : (s.setRing r x).cmd = s.cmd := rfl
@[simp] theorem State.setRing_recs (s : State) (r : Nat) (x : RingRuntime) : (s.setRing r x).recs = s.recs := rfl
@[simp] theorem State.setRing_mem (s : State) (r : Nat) (x : RingRuntime) : (s.setRing r x).mem = s.mem := rfl
@[simp] theorem State.setRing_clp (s : State) (r : Nat) (x : RingRuntime) : (s.setRing r x).clp = s.clp := rfl
@[simp] theorem State.setRing_red (s : State) (r : Nat) (x : RingRuntime) : (s.setRing r x).red = s.red := rfl
@[simp] theorem State.setRing_alm (s : State) (r : Nat) (x : RingRuntime) : (s.setRing r x).alm = s.alm := rfl
@[simp] theorem State.setRing_mgt (s : State) (r : Nat) (x : RingRuntime) : (s.setRing r x).mgt = s.mgt := rfl
@[simp] theorem State.setRing_pwr (s : State) (r : Nat) (x : RingRuntime) : (s.setRing r x).pwr = s.pwr := rfl
@[simp] theorem State.setRing_fe (s : State) (r : Nat) (x : RingRuntime) : (s.setRing r x).fe = s.fe := rfl
@[simp] theorem State.setRing_tmr (s : State) (r : Nat) (x : RingRuntime) : (s.setRing r x).tmr = s.tmr := rfl
@[simp] theorem State.setRing_trg (s : State) (r : Nat) (x : RingRuntime) : (s.setRing r x).trg = s.trg := rfl
@[simp] theorem State.setRing_tb (s : State) (r : Nat) (x : RingRuntime) : (s.setRing r x).tb = s.tb := rfl
@[simp] theorem State.setRing_lnk (s : State) (r : Nat) (x : RingRuntime) : (s.setRing r x).lnk = s.lnk := rfl
@[simp] theorem State.setRing_cal (s : State) (r : Nat) (x : RingRuntime) : (s.setRing r x).cal = s.cal := rfl
@[simp] theorem State.setRing_link (s : State) (r : Nat) (x : RingRuntime) : (s.setRing r x).link = s.link := rfl
@[simp] theorem State.setRing_rd (s : State) (r : Nat) (x : RingRuntime) (addr : Nat) : (s.setRing r x).rd addr = s.rd addr := rfl
@[simp] theorem State.setRing_rdN (s : State) (r : Nat) (x : RingRuntime) (addr : Nat) : (s.setRing r x).rdN addr = s.rdN addr := rfl

/-! `State.setReturned` -/

@[simp] theorem State.setReturned_pending (s : State) (m : Nat) (x : Two (Option W64)) : (s.setReturned m x).pending = s.pending := rfl
@[simp] theorem State.setReturned_time (s : State) (m : Nat) (x : Two (Option W64)) : (s.setReturned m x).time = s.time := rfl
@[simp] theorem State.setReturned_free (s : State) (m : Nat) (x : Two (Option W64)) : (s.setReturned m x).free = s.free := rfl
@[simp] theorem State.setReturned_par (s : State) (m : Nat) (x : Two (Option W64)) : (s.setReturned m x).par = s.par := rfl
@[simp] theorem State.setReturned_cmd (s : State) (m : Nat) (x : Two (Option W64)) : (s.setReturned m x).cmd = s.cmd := rfl
@[simp] theorem State.setReturned_recs (s : State) (m : Nat) (x : Two (Option W64)) : (s.setReturned m x).recs = s.recs := rfl
@[simp] theorem State.setReturned_clp (s : State) (m : Nat) (x : Two (Option W64)) : (s.setReturned m x).clp = s.clp := rfl
@[simp] theorem State.setReturned_prt (s : State) (m : Nat) (x : Two (Option W64)) : (s.setReturned m x).prt = s.prt := rfl
@[simp] theorem State.setReturned_red (s : State) (m : Nat) (x : Two (Option W64)) : (s.setReturned m x).red = s.red := rfl
@[simp] theorem State.setReturned_alm (s : State) (m : Nat) (x : Two (Option W64)) : (s.setReturned m x).alm = s.alm := rfl
@[simp] theorem State.setReturned_mgt (s : State) (m : Nat) (x : Two (Option W64)) : (s.setReturned m x).mgt = s.mgt := rfl
@[simp] theorem State.setReturned_pwr (s : State) (m : Nat) (x : Two (Option W64)) : (s.setReturned m x).pwr = s.pwr := rfl
@[simp] theorem State.setReturned_fe (s : State) (m : Nat) (x : Two (Option W64)) : (s.setReturned m x).fe = s.fe := rfl
@[simp] theorem State.setReturned_tmr (s : State) (m : Nat) (x : Two (Option W64)) : (s.setReturned m x).tmr = s.tmr := rfl
@[simp] theorem State.setReturned_trg (s : State) (m : Nat) (x : Two (Option W64)) : (s.setReturned m x).trg = s.trg := rfl
@[simp] theorem State.setReturned_tb (s : State) (m : Nat) (x : Two (Option W64)) : (s.setReturned m x).tb = s.tb := rfl
@[simp] theorem State.setReturned_lnk (s : State) (m : Nat) (x : Two (Option W64)) : (s.setReturned m x).lnk = s.lnk := rfl
@[simp] theorem State.setReturned_cal (s : State) (m : Nat) (x : Two (Option W64)) : (s.setReturned m x).cal = s.cal := rfl
@[simp] theorem State.setReturned_link (s : State) (m : Nat) (x : Two (Option W64)) : (s.setReturned m x).link = s.link := rfl
@[simp] theorem State.setReturned_rd (s : State) (m : Nat) (x : Two (Option W64)) (addr : Nat) : (s.setReturned m x).rd addr = s.rd addr := rfl
@[simp] theorem State.setReturned_rdN (s : State) (m : Nat) (x : Two (Option W64)) (addr : Nat) : (s.setReturned m x).rdN addr = s.rdN addr := rfl

/-! `State.setWindow` -/

@[simp] theorem State.setWindow_pending (s : State) (w : DupWindow) : (s.setWindow w).pending = s.pending := rfl
@[simp] theorem State.setWindow_time (s : State) (w : DupWindow) : (s.setWindow w).time = s.time := rfl
@[simp] theorem State.setWindow_free (s : State) (w : DupWindow) : (s.setWindow w).free = s.free := rfl
@[simp] theorem State.setWindow_par (s : State) (w : DupWindow) : (s.setWindow w).par = s.par := rfl
@[simp] theorem State.setWindow_cmd (s : State) (w : DupWindow) : (s.setWindow w).cmd = s.cmd := rfl
@[simp] theorem State.setWindow_recs (s : State) (w : DupWindow) : (s.setWindow w).recs = s.recs := rfl
@[simp] theorem State.setWindow_mem (s : State) (w : DupWindow) : (s.setWindow w).mem = s.mem := rfl
@[simp] theorem State.setWindow_clp (s : State) (w : DupWindow) : (s.setWindow w).clp = s.clp := rfl
@[simp] theorem State.setWindow_red (s : State) (w : DupWindow) : (s.setWindow w).red = s.red := rfl
@[simp] theorem State.setWindow_alm (s : State) (w : DupWindow) : (s.setWindow w).alm = s.alm := rfl
@[simp] theorem State.setWindow_mgt (s : State) (w : DupWindow) : (s.setWindow w).mgt = s.mgt := rfl
@[simp] theorem State.setWindow_pwr (s : State) (w : DupWindow) : (s.setWindow w).pwr = s.pwr := rfl
@[simp] theorem State.setWindow_fe (s : State) (w : DupWindow) : (s.setWindow w).fe = s.fe := rfl
@[simp] theorem State.setWindow_tmr (s : State) (w : DupWindow) : (s.setWindow w).tmr = s.tmr := rfl
@[simp] theorem State.setWindow_trg (s : State) (w : DupWindow) : (s.setWindow w).trg = s.trg := rfl
@[simp] theorem State.setWindow_tb (s : State) (w : DupWindow) : (s.setWindow w).tb = s.tb := rfl
@[simp] theorem State.setWindow_lnk (s : State) (w : DupWindow) : (s.setWindow w).lnk = s.lnk := rfl
@[simp] theorem State.setWindow_cal (s : State) (w : DupWindow) : (s.setWindow w).cal = s.cal := rfl
@[simp] theorem State.setWindow_link (s : State) (w : DupWindow) : (s.setWindow w).link = s.link := rfl
@[simp] theorem State.setWindow_rd (s : State) (w : DupWindow) (addr : Nat) : (s.setWindow w).rd addr = s.rd addr := rfl
@[simp] theorem State.setWindow_rdN (s : State) (w : DupWindow) (addr : Nat) : (s.setWindow w).rdN addr = s.rdN addr := rfl

/-! `State.setInput` -/

@[simp] theorem State.setInput_pending (s : State) (n : Nat) (x : InputState) : (s.setInput n x).pending = s.pending := rfl
@[simp] theorem State.setInput_time (s : State) (n : Nat) (x : InputState) : (s.setInput n x).time = s.time := rfl
@[simp] theorem State.setInput_free (s : State) (n : Nat) (x : InputState) : (s.setInput n x).free = s.free := rfl
@[simp] theorem State.setInput_par (s : State) (n : Nat) (x : InputState) : (s.setInput n x).par = s.par := rfl
@[simp] theorem State.setInput_cmd (s : State) (n : Nat) (x : InputState) : (s.setInput n x).cmd = s.cmd := rfl
@[simp] theorem State.setInput_recs (s : State) (n : Nat) (x : InputState) : (s.setInput n x).recs = s.recs := rfl
@[simp] theorem State.setInput_mem (s : State) (n : Nat) (x : InputState) : (s.setInput n x).mem = s.mem := rfl
@[simp] theorem State.setInput_clp (s : State) (n : Nat) (x : InputState) : (s.setInput n x).clp = s.clp := rfl
@[simp] theorem State.setInput_prt (s : State) (n : Nat) (x : InputState) : (s.setInput n x).prt = s.prt := rfl
@[simp] theorem State.setInput_red (s : State) (n : Nat) (x : InputState) : (s.setInput n x).red = s.red := rfl
@[simp] theorem State.setInput_alm (s : State) (n : Nat) (x : InputState) : (s.setInput n x).alm = s.alm := rfl
@[simp] theorem State.setInput_mgt (s : State) (n : Nat) (x : InputState) : (s.setInput n x).mgt = s.mgt := rfl
@[simp] theorem State.setInput_pwr (s : State) (n : Nat) (x : InputState) : (s.setInput n x).pwr = s.pwr := rfl
@[simp] theorem State.setInput_tmr (s : State) (n : Nat) (x : InputState) : (s.setInput n x).tmr = s.tmr := rfl
@[simp] theorem State.setInput_trg (s : State) (n : Nat) (x : InputState) : (s.setInput n x).trg = s.trg := rfl
@[simp] theorem State.setInput_tb (s : State) (n : Nat) (x : InputState) : (s.setInput n x).tb = s.tb := rfl
@[simp] theorem State.setInput_lnk (s : State) (n : Nat) (x : InputState) : (s.setInput n x).lnk = s.lnk := rfl
@[simp] theorem State.setInput_cal (s : State) (n : Nat) (x : InputState) : (s.setInput n x).cal = s.cal := rfl
@[simp] theorem State.setInput_link (s : State) (n : Nat) (x : InputState) : (s.setInput n x).link = s.link := rfl
@[simp] theorem State.setInput_rd (s : State) (n : Nat) (x : InputState) (addr : Nat) : (s.setInput n x).rd addr = s.rd addr := rfl
@[simp] theorem State.setInput_rdN (s : State) (n : Nat) (x : InputState) (addr : Nat) : (s.setInput n x).rdN addr = s.rdN addr := rfl

/-! `State.setTiming` -/

@[simp] theorem State.setTiming_pending (s : State) (n : Nat) (x : TimingState) : (s.setTiming n x).pending = s.pending := rfl
@[simp] theorem State.setTiming_time (s : State) (n : Nat) (x : TimingState) : (s.setTiming n x).time = s.time := rfl
@[simp] theorem State.setTiming_free (s : State) (n : Nat) (x : TimingState) : (s.setTiming n x).free = s.free := rfl
@[simp] theorem State.setTiming_par (s : State) (n : Nat) (x : TimingState) : (s.setTiming n x).par = s.par := rfl
@[simp] theorem State.setTiming_cmd (s : State) (n : Nat) (x : TimingState) : (s.setTiming n x).cmd = s.cmd := rfl
@[simp] theorem State.setTiming_recs (s : State) (n : Nat) (x : TimingState) : (s.setTiming n x).recs = s.recs := rfl
@[simp] theorem State.setTiming_mem (s : State) (n : Nat) (x : TimingState) : (s.setTiming n x).mem = s.mem := rfl
@[simp] theorem State.setTiming_clp (s : State) (n : Nat) (x : TimingState) : (s.setTiming n x).clp = s.clp := rfl
@[simp] theorem State.setTiming_prt (s : State) (n : Nat) (x : TimingState) : (s.setTiming n x).prt = s.prt := rfl
@[simp] theorem State.setTiming_red (s : State) (n : Nat) (x : TimingState) : (s.setTiming n x).red = s.red := rfl
@[simp] theorem State.setTiming_alm (s : State) (n : Nat) (x : TimingState) : (s.setTiming n x).alm = s.alm := rfl
@[simp] theorem State.setTiming_mgt (s : State) (n : Nat) (x : TimingState) : (s.setTiming n x).mgt = s.mgt := rfl
@[simp] theorem State.setTiming_pwr (s : State) (n : Nat) (x : TimingState) : (s.setTiming n x).pwr = s.pwr := rfl
@[simp] theorem State.setTiming_fe (s : State) (n : Nat) (x : TimingState) : (s.setTiming n x).fe = s.fe := rfl
@[simp] theorem State.setTiming_trg (s : State) (n : Nat) (x : TimingState) : (s.setTiming n x).trg = s.trg := rfl
@[simp] theorem State.setTiming_tb (s : State) (n : Nat) (x : TimingState) : (s.setTiming n x).tb = s.tb := rfl
@[simp] theorem State.setTiming_lnk (s : State) (n : Nat) (x : TimingState) : (s.setTiming n x).lnk = s.lnk := rfl
@[simp] theorem State.setTiming_cal (s : State) (n : Nat) (x : TimingState) : (s.setTiming n x).cal = s.cal := rfl
@[simp] theorem State.setTiming_link (s : State) (n : Nat) (x : TimingState) : (s.setTiming n x).link = s.link := rfl
@[simp] theorem State.setTiming_rd (s : State) (n : Nat) (x : TimingState) (addr : Nat) : (s.setTiming n x).rd addr = s.rd addr := rfl
@[simp] theorem State.setTiming_rdN (s : State) (n : Nat) (x : TimingState) (addr : Nat) : (s.setTiming n x).rdN addr = s.rdN addr := rfl

/-! `State.setSource` -/

@[simp] theorem State.setSource_pending (s : State) (k : Nat) (x : SourceState) : (s.setSource k x).pending = s.pending := rfl
@[simp] theorem State.setSource_time (s : State) (k : Nat) (x : SourceState) : (s.setSource k x).time = s.time := rfl
@[simp] theorem State.setSource_free (s : State) (k : Nat) (x : SourceState) : (s.setSource k x).free = s.free := rfl
@[simp] theorem State.setSource_par (s : State) (k : Nat) (x : SourceState) : (s.setSource k x).par = s.par := rfl
@[simp] theorem State.setSource_cmd (s : State) (k : Nat) (x : SourceState) : (s.setSource k x).cmd = s.cmd := rfl
@[simp] theorem State.setSource_recs (s : State) (k : Nat) (x : SourceState) : (s.setSource k x).recs = s.recs := rfl
@[simp] theorem State.setSource_mem (s : State) (k : Nat) (x : SourceState) : (s.setSource k x).mem = s.mem := rfl
@[simp] theorem State.setSource_clp (s : State) (k : Nat) (x : SourceState) : (s.setSource k x).clp = s.clp := rfl
@[simp] theorem State.setSource_prt (s : State) (k : Nat) (x : SourceState) : (s.setSource k x).prt = s.prt := rfl
@[simp] theorem State.setSource_red (s : State) (k : Nat) (x : SourceState) : (s.setSource k x).red = s.red := rfl
@[simp] theorem State.setSource_alm (s : State) (k : Nat) (x : SourceState) : (s.setSource k x).alm = s.alm := rfl
@[simp] theorem State.setSource_mgt (s : State) (k : Nat) (x : SourceState) : (s.setSource k x).mgt = s.mgt := rfl
@[simp] theorem State.setSource_pwr (s : State) (k : Nat) (x : SourceState) : (s.setSource k x).pwr = s.pwr := rfl
@[simp] theorem State.setSource_tmr (s : State) (k : Nat) (x : SourceState) : (s.setSource k x).tmr = s.tmr := rfl
@[simp] theorem State.setSource_trg (s : State) (k : Nat) (x : SourceState) : (s.setSource k x).trg = s.trg := rfl
@[simp] theorem State.setSource_tb (s : State) (k : Nat) (x : SourceState) : (s.setSource k x).tb = s.tb := rfl
@[simp] theorem State.setSource_lnk (s : State) (k : Nat) (x : SourceState) : (s.setSource k x).lnk = s.lnk := rfl
@[simp] theorem State.setSource_cal (s : State) (k : Nat) (x : SourceState) : (s.setSource k x).cal = s.cal := rfl
@[simp] theorem State.setSource_link (s : State) (k : Nat) (x : SourceState) : (s.setSource k x).link = s.link := rfl
@[simp] theorem State.setSource_rd (s : State) (k : Nat) (x : SourceState) (addr : Nat) : (s.setSource k x).rd addr = s.rd addr := rfl
@[simp] theorem State.setSource_rdN (s : State) (k : Nat) (x : SourceState) (addr : Nat) : (s.setSource k x).rdN addr = s.rdN addr := rfl

/-! `State.setPrim` -/

@[simp] theorem State.setPrim_pending (s : State) (n p : Nat) (q : Prim) : (s.setPrim n p q).pending = s.pending := rfl
@[simp] theorem State.setPrim_time (s : State) (n p : Nat) (q : Prim) : (s.setPrim n p q).time = s.time := rfl
@[simp] theorem State.setPrim_free (s : State) (n p : Nat) (q : Prim) : (s.setPrim n p q).free = s.free := rfl
@[simp] theorem State.setPrim_par (s : State) (n p : Nat) (q : Prim) : (s.setPrim n p q).par = s.par := rfl
@[simp] theorem State.setPrim_cmd (s : State) (n p : Nat) (q : Prim) : (s.setPrim n p q).cmd = s.cmd := rfl
@[simp] theorem State.setPrim_recs (s : State) (n p : Nat) (q : Prim) : (s.setPrim n p q).recs = s.recs := rfl
@[simp] theorem State.setPrim_mem (s : State) (n p : Nat) (q : Prim) : (s.setPrim n p q).mem = s.mem := rfl
@[simp] theorem State.setPrim_clp (s : State) (n p : Nat) (q : Prim) : (s.setPrim n p q).clp = s.clp := rfl
@[simp] theorem State.setPrim_prt (s : State) (n p : Nat) (q : Prim) : (s.setPrim n p q).prt = s.prt := rfl
@[simp] theorem State.setPrim_red (s : State) (n p : Nat) (q : Prim) : (s.setPrim n p q).red = s.red := rfl
@[simp] theorem State.setPrim_alm (s : State) (n p : Nat) (q : Prim) : (s.setPrim n p q).alm = s.alm := rfl
@[simp] theorem State.setPrim_mgt (s : State) (n p : Nat) (q : Prim) : (s.setPrim n p q).mgt = s.mgt := rfl
@[simp] theorem State.setPrim_pwr (s : State) (n p : Nat) (q : Prim) : (s.setPrim n p q).pwr = s.pwr := rfl
@[simp] theorem State.setPrim_tmr (s : State) (n p : Nat) (q : Prim) : (s.setPrim n p q).tmr = s.tmr := rfl
@[simp] theorem State.setPrim_trg (s : State) (n p : Nat) (q : Prim) : (s.setPrim n p q).trg = s.trg := rfl
@[simp] theorem State.setPrim_tb (s : State) (n p : Nat) (q : Prim) : (s.setPrim n p q).tb = s.tb := rfl
@[simp] theorem State.setPrim_lnk (s : State) (n p : Nat) (q : Prim) : (s.setPrim n p q).lnk = s.lnk := rfl
@[simp] theorem State.setPrim_cal (s : State) (n p : Nat) (q : Prim) : (s.setPrim n p q).cal = s.cal := rfl
@[simp] theorem State.setPrim_link (s : State) (n p : Nat) (q : Prim) : (s.setPrim n p q).link = s.link := rfl
@[simp] theorem State.setPrim_rd (s : State) (n p : Nat) (q : Prim) (addr : Nat) : (s.setPrim n p q).rd addr = s.rd addr := rfl
@[simp] theorem State.setPrim_rdN (s : State) (n p : Nat) (q : Prim) (addr : Nat) : (s.setPrim n p q).rdN addr = s.rdN addr := rfl

/-! `State.setCal` -/

@[simp] theorem State.setCal_pending (s : State) (x : CalState) : (s.setCal x).pending = s.pending := rfl
@[simp] theorem State.setCal_time (s : State) (x : CalState) : (s.setCal x).time = s.time := rfl
@[simp] theorem State.setCal_free (s : State) (x : CalState) : (s.setCal x).free = s.free := rfl
@[simp] theorem State.setCal_par (s : State) (x : CalState) : (s.setCal x).par = s.par := rfl
@[simp] theorem State.setCal_cmd (s : State) (x : CalState) : (s.setCal x).cmd = s.cmd := rfl
@[simp] theorem State.setCal_recs (s : State) (x : CalState) : (s.setCal x).recs = s.recs := rfl
@[simp] theorem State.setCal_mem (s : State) (x : CalState) : (s.setCal x).mem = s.mem := rfl
@[simp] theorem State.setCal_clp (s : State) (x : CalState) : (s.setCal x).clp = s.clp := rfl
@[simp] theorem State.setCal_prt (s : State) (x : CalState) : (s.setCal x).prt = s.prt := rfl
@[simp] theorem State.setCal_red (s : State) (x : CalState) : (s.setCal x).red = s.red := rfl
@[simp] theorem State.setCal_alm (s : State) (x : CalState) : (s.setCal x).alm = s.alm := rfl
@[simp] theorem State.setCal_mgt (s : State) (x : CalState) : (s.setCal x).mgt = s.mgt := rfl
@[simp] theorem State.setCal_pwr (s : State) (x : CalState) : (s.setCal x).pwr = s.pwr := rfl
@[simp] theorem State.setCal_fe (s : State) (x : CalState) : (s.setCal x).fe = s.fe := rfl
@[simp] theorem State.setCal_tmr (s : State) (x : CalState) : (s.setCal x).tmr = s.tmr := rfl
@[simp] theorem State.setCal_trg (s : State) (x : CalState) : (s.setCal x).trg = s.trg := rfl
@[simp] theorem State.setCal_tb (s : State) (x : CalState) : (s.setCal x).tb = s.tb := rfl
@[simp] theorem State.setCal_lnk (s : State) (x : CalState) : (s.setCal x).lnk = s.lnk := rfl
@[simp] theorem State.setCal_link (s : State) (x : CalState) : (s.setCal x).link = s.link := rfl
@[simp] theorem State.setCal_rd (s : State) (x : CalState) (addr : Nat) : (s.setCal x).rd addr = s.rd addr := rfl
@[simp] theorem State.setCal_rdN (s : State) (x : CalState) (addr : Nat) : (s.setCal x).rdN addr = s.rdN addr := rfl

/-! `State.setCalRun` -/

@[simp] theorem State.setCalRun_pending (s : State) (r : CalRun) : (s.setCalRun r).pending = s.pending := rfl
@[simp] theorem State.setCalRun_time (s : State) (r : CalRun) : (s.setCalRun r).time = s.time := rfl
@[simp] theorem State.setCalRun_free (s : State) (r : CalRun) : (s.setCalRun r).free = s.free := rfl
@[simp] theorem State.setCalRun_par (s : State) (r : CalRun) : (s.setCalRun r).par = s.par := rfl
@[simp] theorem State.setCalRun_cmd (s : State) (r : CalRun) : (s.setCalRun r).cmd = s.cmd := rfl
@[simp] theorem State.setCalRun_recs (s : State) (r : CalRun) : (s.setCalRun r).recs = s.recs := rfl
@[simp] theorem State.setCalRun_mem (s : State) (r : CalRun) : (s.setCalRun r).mem = s.mem := rfl
@[simp] theorem State.setCalRun_clp (s : State) (r : CalRun) : (s.setCalRun r).clp = s.clp := rfl
@[simp] theorem State.setCalRun_prt (s : State) (r : CalRun) : (s.setCalRun r).prt = s.prt := rfl
@[simp] theorem State.setCalRun_red (s : State) (r : CalRun) : (s.setCalRun r).red = s.red := rfl
@[simp] theorem State.setCalRun_alm (s : State) (r : CalRun) : (s.setCalRun r).alm = s.alm := rfl
@[simp] theorem State.setCalRun_mgt (s : State) (r : CalRun) : (s.setCalRun r).mgt = s.mgt := rfl
@[simp] theorem State.setCalRun_pwr (s : State) (r : CalRun) : (s.setCalRun r).pwr = s.pwr := rfl
@[simp] theorem State.setCalRun_fe (s : State) (r : CalRun) : (s.setCalRun r).fe = s.fe := rfl
@[simp] theorem State.setCalRun_tmr (s : State) (r : CalRun) : (s.setCalRun r).tmr = s.tmr := rfl
@[simp] theorem State.setCalRun_trg (s : State) (r : CalRun) : (s.setCalRun r).trg = s.trg := rfl
@[simp] theorem State.setCalRun_tb (s : State) (r : CalRun) : (s.setCalRun r).tb = s.tb := rfl
@[simp] theorem State.setCalRun_lnk (s : State) (r : CalRun) : (s.setCalRun r).lnk = s.lnk := rfl
@[simp] theorem State.setCalRun_link (s : State) (r : CalRun) : (s.setCalRun r).link = s.link := rfl
@[simp] theorem State.setCalRun_rd (s : State) (r : CalRun) (addr : Nat) : (s.setCalRun r).rd addr = s.rd addr := rfl
@[simp] theorem State.setCalRun_rdN (s : State) (r : CalRun) (addr : Nat) : (s.setCalRun r).rdN addr = s.rdN addr := rfl

/-! `State.setGroup` -/

@[simp] theorem State.setGroup_pending (s : State) (g : Nat) (x : GroupState) : (s.setGroup g x).pending = s.pending := rfl
@[simp] theorem State.setGroup_time (s : State) (g : Nat) (x : GroupState) : (s.setGroup g x).time = s.time := rfl
@[simp] theorem State.setGroup_free (s : State) (g : Nat) (x : GroupState) : (s.setGroup g x).free = s.free := rfl
@[simp] theorem State.setGroup_par (s : State) (g : Nat) (x : GroupState) : (s.setGroup g x).par = s.par := rfl
@[simp] theorem State.setGroup_cmd (s : State) (g : Nat) (x : GroupState) : (s.setGroup g x).cmd = s.cmd := rfl
@[simp] theorem State.setGroup_recs (s : State) (g : Nat) (x : GroupState) : (s.setGroup g x).recs = s.recs := rfl
@[simp] theorem State.setGroup_mem (s : State) (g : Nat) (x : GroupState) : (s.setGroup g x).mem = s.mem := rfl
@[simp] theorem State.setGroup_clp (s : State) (g : Nat) (x : GroupState) : (s.setGroup g x).clp = s.clp := rfl
@[simp] theorem State.setGroup_prt (s : State) (g : Nat) (x : GroupState) : (s.setGroup g x).prt = s.prt := rfl
@[simp] theorem State.setGroup_red (s : State) (g : Nat) (x : GroupState) : (s.setGroup g x).red = s.red := rfl
@[simp] theorem State.setGroup_alm (s : State) (g : Nat) (x : GroupState) : (s.setGroup g x).alm = s.alm := rfl
@[simp] theorem State.setGroup_mgt (s : State) (g : Nat) (x : GroupState) : (s.setGroup g x).mgt = s.mgt := rfl
@[simp] theorem State.setGroup_pwr (s : State) (g : Nat) (x : GroupState) : (s.setGroup g x).pwr = s.pwr := rfl
@[simp] theorem State.setGroup_tmr (s : State) (g : Nat) (x : GroupState) : (s.setGroup g x).tmr = s.tmr := rfl
@[simp] theorem State.setGroup_trg (s : State) (g : Nat) (x : GroupState) : (s.setGroup g x).trg = s.trg := rfl
@[simp] theorem State.setGroup_tb (s : State) (g : Nat) (x : GroupState) : (s.setGroup g x).tb = s.tb := rfl
@[simp] theorem State.setGroup_lnk (s : State) (g : Nat) (x : GroupState) : (s.setGroup g x).lnk = s.lnk := rfl
@[simp] theorem State.setGroup_cal (s : State) (g : Nat) (x : GroupState) : (s.setGroup g x).cal = s.cal := rfl
@[simp] theorem State.setGroup_link (s : State) (g : Nat) (x : GroupState) : (s.setGroup g x).link = s.link := rfl
@[simp] theorem State.setGroup_rd (s : State) (g : Nat) (x : GroupState) (addr : Nat) : (s.setGroup g x).rd addr = s.rd addr := rfl
@[simp] theorem State.setGroup_rdN (s : State) (g : Nat) (x : GroupState) (addr : Nat) : (s.setGroup g x).rdN addr = s.rdN addr := rfl

/-! `State.setRingOf` -/

@[simp] theorem State.setRingOf_pending (s : State) (g : Nat) (x : Ring) : (s.setRingOf g x).pending = s.pending := rfl
@[simp] theorem State.setRingOf_time (s : State) (g : Nat) (x : Ring) : (s.setRingOf g x).time = s.time := rfl
@[simp] theorem State.setRingOf_free (s : State) (g : Nat) (x : Ring) : (s.setRingOf g x).free = s.free := rfl
@[simp] theorem State.setRingOf_par (s : State) (g : Nat) (x : Ring) : (s.setRingOf g x).par = s.par := rfl
@[simp] theorem State.setRingOf_cmd (s : State) (g : Nat) (x : Ring) : (s.setRingOf g x).cmd = s.cmd := rfl
@[simp] theorem State.setRingOf_recs (s : State) (g : Nat) (x : Ring) : (s.setRingOf g x).recs = s.recs := rfl
@[simp] theorem State.setRingOf_clp (s : State) (g : Nat) (x : Ring) : (s.setRingOf g x).clp = s.clp := rfl
@[simp] theorem State.setRingOf_prt (s : State) (g : Nat) (x : Ring) : (s.setRingOf g x).prt = s.prt := rfl
@[simp] theorem State.setRingOf_red (s : State) (g : Nat) (x : Ring) : (s.setRingOf g x).red = s.red := rfl
@[simp] theorem State.setRingOf_alm (s : State) (g : Nat) (x : Ring) : (s.setRingOf g x).alm = s.alm := rfl
@[simp] theorem State.setRingOf_mgt (s : State) (g : Nat) (x : Ring) : (s.setRingOf g x).mgt = s.mgt := rfl
@[simp] theorem State.setRingOf_pwr (s : State) (g : Nat) (x : Ring) : (s.setRingOf g x).pwr = s.pwr := rfl
@[simp] theorem State.setRingOf_fe (s : State) (g : Nat) (x : Ring) : (s.setRingOf g x).fe = s.fe := rfl
@[simp] theorem State.setRingOf_tmr (s : State) (g : Nat) (x : Ring) : (s.setRingOf g x).tmr = s.tmr := rfl
@[simp] theorem State.setRingOf_trg (s : State) (g : Nat) (x : Ring) : (s.setRingOf g x).trg = s.trg := rfl
@[simp] theorem State.setRingOf_tb (s : State) (g : Nat) (x : Ring) : (s.setRingOf g x).tb = s.tb := rfl
@[simp] theorem State.setRingOf_lnk (s : State) (g : Nat) (x : Ring) : (s.setRingOf g x).lnk = s.lnk := rfl
@[simp] theorem State.setRingOf_cal (s : State) (g : Nat) (x : Ring) : (s.setRingOf g x).cal = s.cal := rfl
@[simp] theorem State.setRingOf_link (s : State) (g : Nat) (x : Ring) : (s.setRingOf g x).link = s.link := rfl
@[simp] theorem State.setRingOf_rd (s : State) (g : Nat) (x : Ring) (addr : Nat) : (s.setRingOf g x).rd addr = s.rd addr := rfl
@[simp] theorem State.setRingOf_rdN (s : State) (g : Nat) (x : Ring) (addr : Nat) : (s.setRingOf g x).rdN addr = s.rdN addr := rfl

/-! `State.setLoop` -/

@[simp] theorem State.setLoop_pending (s : State) (k : Nat) (x : Loop) : (s.setLoop k x).pending = s.pending := rfl
@[simp] theorem State.setLoop_time (s : State) (k : Nat) (x : Loop) : (s.setLoop k x).time = s.time := rfl
@[simp] theorem State.setLoop_free (s : State) (k : Nat) (x : Loop) : (s.setLoop k x).free = s.free := rfl
@[simp] theorem State.setLoop_par (s : State) (k : Nat) (x : Loop) : (s.setLoop k x).par = s.par := rfl
@[simp] theorem State.setLoop_cmd (s : State) (k : Nat) (x : Loop) : (s.setLoop k x).cmd = s.cmd := rfl
@[simp] theorem State.setLoop_recs (s : State) (k : Nat) (x : Loop) : (s.setLoop k x).recs = s.recs := rfl
@[simp] theorem State.setLoop_mem (s : State) (k : Nat) (x : Loop) : (s.setLoop k x).mem = s.mem := rfl
@[simp] theorem State.setLoop_clp (s : State) (k : Nat) (x : Loop) : (s.setLoop k x).clp = s.clp := rfl
@[simp] theorem State.setLoop_prt (s : State) (k : Nat) (x : Loop) : (s.setLoop k x).prt = s.prt := rfl
@[simp] theorem State.setLoop_red (s : State) (k : Nat) (x : Loop) : (s.setLoop k x).red = s.red := rfl
@[simp] theorem State.setLoop_mgt (s : State) (k : Nat) (x : Loop) : (s.setLoop k x).mgt = s.mgt := rfl
@[simp] theorem State.setLoop_pwr (s : State) (k : Nat) (x : Loop) : (s.setLoop k x).pwr = s.pwr := rfl
@[simp] theorem State.setLoop_fe (s : State) (k : Nat) (x : Loop) : (s.setLoop k x).fe = s.fe := rfl
@[simp] theorem State.setLoop_tmr (s : State) (k : Nat) (x : Loop) : (s.setLoop k x).tmr = s.tmr := rfl
@[simp] theorem State.setLoop_trg (s : State) (k : Nat) (x : Loop) : (s.setLoop k x).trg = s.trg := rfl
@[simp] theorem State.setLoop_tb (s : State) (k : Nat) (x : Loop) : (s.setLoop k x).tb = s.tb := rfl
@[simp] theorem State.setLoop_lnk (s : State) (k : Nat) (x : Loop) : (s.setLoop k x).lnk = s.lnk := rfl
@[simp] theorem State.setLoop_cal (s : State) (k : Nat) (x : Loop) : (s.setLoop k x).cal = s.cal := rfl
@[simp] theorem State.setLoop_link (s : State) (k : Nat) (x : Loop) : (s.setLoop k x).link = s.link := rfl
@[simp] theorem State.setLoop_rd (s : State) (k : Nat) (x : Loop) (addr : Nat) : (s.setLoop k x).rd addr = s.rd addr := rfl
@[simp] theorem State.setLoop_rdN (s : State) (k : Nat) (x : Loop) (addr : Nat) : (s.setLoop k x).rdN addr = s.rdN addr := rfl

/-! `State.setMgt` -/

@[simp] theorem State.setMgt_pending (s : State) (m : MgtState) : (s.setMgt m).pending = s.pending := rfl
@[simp] theorem State.setMgt_time (s : State) (m : MgtState) : (s.setMgt m).time = s.time := rfl
@[simp] theorem State.setMgt_free (s : State) (m : MgtState) : (s.setMgt m).free = s.free := rfl
@[simp] theorem State.setMgt_par (s : State) (m : MgtState) : (s.setMgt m).par = s.par := rfl
@[simp] theorem State.setMgt_cmd (s : State) (m : MgtState) : (s.setMgt m).cmd = s.cmd := rfl
@[simp] theorem State.setMgt_recs (s : State) (m : MgtState) : (s.setMgt m).recs = s.recs := rfl
@[simp] theorem State.setMgt_mem (s : State) (m : MgtState) : (s.setMgt m).mem = s.mem := rfl
@[simp] theorem State.setMgt_clp (s : State) (m : MgtState) : (s.setMgt m).clp = s.clp := rfl
@[simp] theorem State.setMgt_prt (s : State) (m : MgtState) : (s.setMgt m).prt = s.prt := rfl
@[simp] theorem State.setMgt_red (s : State) (m : MgtState) : (s.setMgt m).red = s.red := rfl
@[simp] theorem State.setMgt_alm (s : State) (m : MgtState) : (s.setMgt m).alm = s.alm := rfl
@[simp] theorem State.setMgt_pwr (s : State) (m : MgtState) : (s.setMgt m).pwr = s.pwr := rfl
@[simp] theorem State.setMgt_fe (s : State) (m : MgtState) : (s.setMgt m).fe = s.fe := rfl
@[simp] theorem State.setMgt_tmr (s : State) (m : MgtState) : (s.setMgt m).tmr = s.tmr := rfl
@[simp] theorem State.setMgt_trg (s : State) (m : MgtState) : (s.setMgt m).trg = s.trg := rfl
@[simp] theorem State.setMgt_tb (s : State) (m : MgtState) : (s.setMgt m).tb = s.tb := rfl
@[simp] theorem State.setMgt_lnk (s : State) (m : MgtState) : (s.setMgt m).lnk = s.lnk := rfl
@[simp] theorem State.setMgt_cal (s : State) (m : MgtState) : (s.setMgt m).cal = s.cal := rfl
@[simp] theorem State.setMgt_link (s : State) (m : MgtState) : (s.setMgt m).link = s.link := rfl
@[simp] theorem State.setMgt_rd (s : State) (m : MgtState) (addr : Nat) : (s.setMgt m).rd addr = s.rd addr := rfl
@[simp] theorem State.setMgt_rdN (s : State) (m : MgtState) (addr : Nat) : (s.setMgt m).rdN addr = s.rdN addr := rfl

/-! `State.setFlash` -/

@[simp] theorem State.setFlash_pending (s : State) (d : Nat) (x : Flash) : (s.setFlash d x).pending = s.pending := rfl
@[simp] theorem State.setFlash_time (s : State) (d : Nat) (x : Flash) : (s.setFlash d x).time = s.time := rfl
@[simp] theorem State.setFlash_free (s : State) (d : Nat) (x : Flash) : (s.setFlash d x).free = s.free := rfl
@[simp] theorem State.setFlash_par (s : State) (d : Nat) (x : Flash) : (s.setFlash d x).par = s.par := rfl
@[simp] theorem State.setFlash_cmd (s : State) (d : Nat) (x : Flash) : (s.setFlash d x).cmd = s.cmd := rfl
@[simp] theorem State.setFlash_recs (s : State) (d : Nat) (x : Flash) : (s.setFlash d x).recs = s.recs := rfl
@[simp] theorem State.setFlash_mem (s : State) (d : Nat) (x : Flash) : (s.setFlash d x).mem = s.mem := rfl
@[simp] theorem State.setFlash_clp (s : State) (d : Nat) (x : Flash) : (s.setFlash d x).clp = s.clp := rfl
@[simp] theorem State.setFlash_prt (s : State) (d : Nat) (x : Flash) : (s.setFlash d x).prt = s.prt := rfl
@[simp] theorem State.setFlash_red (s : State) (d : Nat) (x : Flash) : (s.setFlash d x).red = s.red := rfl
@[simp] theorem State.setFlash_alm (s : State) (d : Nat) (x : Flash) : (s.setFlash d x).alm = s.alm := rfl
@[simp] theorem State.setFlash_pwr (s : State) (d : Nat) (x : Flash) : (s.setFlash d x).pwr = s.pwr := rfl
@[simp] theorem State.setFlash_fe (s : State) (d : Nat) (x : Flash) : (s.setFlash d x).fe = s.fe := rfl
@[simp] theorem State.setFlash_tmr (s : State) (d : Nat) (x : Flash) : (s.setFlash d x).tmr = s.tmr := rfl
@[simp] theorem State.setFlash_trg (s : State) (d : Nat) (x : Flash) : (s.setFlash d x).trg = s.trg := rfl
@[simp] theorem State.setFlash_tb (s : State) (d : Nat) (x : Flash) : (s.setFlash d x).tb = s.tb := rfl
@[simp] theorem State.setFlash_lnk (s : State) (d : Nat) (x : Flash) : (s.setFlash d x).lnk = s.lnk := rfl
@[simp] theorem State.setFlash_cal (s : State) (d : Nat) (x : Flash) : (s.setFlash d x).cal = s.cal := rfl
@[simp] theorem State.setFlash_link (s : State) (d : Nat) (x : Flash) : (s.setFlash d x).link = s.link := rfl
@[simp] theorem State.setFlash_rd (s : State) (d : Nat) (x : Flash) (addr : Nat) : (s.setFlash d x).rd addr = s.rd addr := rfl
@[simp] theorem State.setFlash_rdN (s : State) (d : Nat) (x : Flash) (addr : Nat) : (s.setFlash d x).rdN addr = s.rdN addr := rfl

/-! `State.setTpo` -/

@[simp] theorem State.setTpo_pending (s : State) (i : Nat) (x : TpoState) : (s.setTpo i x).pending = s.pending := rfl
@[simp] theorem State.setTpo_time (s : State) (i : Nat) (x : TpoState) : (s.setTpo i x).time = s.time := rfl
@[simp] theorem State.setTpo_free (s : State) (i : Nat) (x : TpoState) : (s.setTpo i x).free = s.free := rfl
@[simp] theorem State.setTpo_par (s : State) (i : Nat) (x : TpoState) : (s.setTpo i x).par = s.par := rfl
@[simp] theorem State.setTpo_cmd (s : State) (i : Nat) (x : TpoState) : (s.setTpo i x).cmd = s.cmd := rfl
@[simp] theorem State.setTpo_recs (s : State) (i : Nat) (x : TpoState) : (s.setTpo i x).recs = s.recs := rfl
@[simp] theorem State.setTpo_mem (s : State) (i : Nat) (x : TpoState) : (s.setTpo i x).mem = s.mem := rfl
@[simp] theorem State.setTpo_clp (s : State) (i : Nat) (x : TpoState) : (s.setTpo i x).clp = s.clp := rfl
@[simp] theorem State.setTpo_prt (s : State) (i : Nat) (x : TpoState) : (s.setTpo i x).prt = s.prt := rfl
@[simp] theorem State.setTpo_red (s : State) (i : Nat) (x : TpoState) : (s.setTpo i x).red = s.red := rfl
@[simp] theorem State.setTpo_alm (s : State) (i : Nat) (x : TpoState) : (s.setTpo i x).alm = s.alm := rfl
@[simp] theorem State.setTpo_mgt (s : State) (i : Nat) (x : TpoState) : (s.setTpo i x).mgt = s.mgt := rfl
@[simp] theorem State.setTpo_pwr (s : State) (i : Nat) (x : TpoState) : (s.setTpo i x).pwr = s.pwr := rfl
@[simp] theorem State.setTpo_fe (s : State) (i : Nat) (x : TpoState) : (s.setTpo i x).fe = s.fe := rfl
@[simp] theorem State.setTpo_trg (s : State) (i : Nat) (x : TpoState) : (s.setTpo i x).trg = s.trg := rfl
@[simp] theorem State.setTpo_tb (s : State) (i : Nat) (x : TpoState) : (s.setTpo i x).tb = s.tb := rfl
@[simp] theorem State.setTpo_lnk (s : State) (i : Nat) (x : TpoState) : (s.setTpo i x).lnk = s.lnk := rfl
@[simp] theorem State.setTpo_cal (s : State) (i : Nat) (x : TpoState) : (s.setTpo i x).cal = s.cal := rfl
@[simp] theorem State.setTpo_link (s : State) (i : Nat) (x : TpoState) : (s.setTpo i x).link = s.link := rfl
@[simp] theorem State.setTpo_rd (s : State) (i : Nat) (x : TpoState) (addr : Nat) : (s.setTpo i x).rd addr = s.rd addr := rfl
@[simp] theorem State.setTpo_rdN (s : State) (i : Nat) (x : TpoState) (addr : Nat) : (s.setTpo i x).rdN addr = s.rdN addr := rfl

/-! `State.setSeq` -/

@[simp] theorem State.setSeq_pending (s : State) (q : Nat) (x : Sequencer) : (s.setSeq q x).pending = s.pending := rfl
@[simp] theorem State.setSeq_time (s : State) (q : Nat) (x : Sequencer) : (s.setSeq q x).time = s.time := rfl
@[simp] theorem State.setSeq_free (s : State) (q : Nat) (x : Sequencer) : (s.setSeq q x).free = s.free := rfl
@[simp] theorem State.setSeq_par (s : State) (q : Nat) (x : Sequencer) : (s.setSeq q x).par = s.par := rfl
@[simp] theorem State.setSeq_cmd (s : State) (q : Nat) (x : Sequencer) : (s.setSeq q x).cmd = s.cmd := rfl
@[simp] theorem State.setSeq_recs (s : State) (q : Nat) (x : Sequencer) : (s.setSeq q x).recs = s.recs := rfl
@[simp] theorem State.setSeq_mem (s : State) (q : Nat) (x : Sequencer) : (s.setSeq q x).mem = s.mem := rfl
@[simp] theorem State.setSeq_clp (s : State) (q : Nat) (x : Sequencer) : (s.setSeq q x).clp = s.clp := rfl
@[simp] theorem State.setSeq_prt (s : State) (q : Nat) (x : Sequencer) : (s.setSeq q x).prt = s.prt := rfl
@[simp] theorem State.setSeq_red (s : State) (q : Nat) (x : Sequencer) : (s.setSeq q x).red = s.red := rfl
@[simp] theorem State.setSeq_alm (s : State) (q : Nat) (x : Sequencer) : (s.setSeq q x).alm = s.alm := rfl
@[simp] theorem State.setSeq_mgt (s : State) (q : Nat) (x : Sequencer) : (s.setSeq q x).mgt = s.mgt := rfl
@[simp] theorem State.setSeq_pwr (s : State) (q : Nat) (x : Sequencer) : (s.setSeq q x).pwr = s.pwr := rfl
@[simp] theorem State.setSeq_fe (s : State) (q : Nat) (x : Sequencer) : (s.setSeq q x).fe = s.fe := rfl
@[simp] theorem State.setSeq_tmr (s : State) (q : Nat) (x : Sequencer) : (s.setSeq q x).tmr = s.tmr := rfl
@[simp] theorem State.setSeq_tb (s : State) (q : Nat) (x : Sequencer) : (s.setSeq q x).tb = s.tb := rfl
@[simp] theorem State.setSeq_lnk (s : State) (q : Nat) (x : Sequencer) : (s.setSeq q x).lnk = s.lnk := rfl
@[simp] theorem State.setSeq_cal (s : State) (q : Nat) (x : Sequencer) : (s.setSeq q x).cal = s.cal := rfl
@[simp] theorem State.setSeq_link (s : State) (q : Nat) (x : Sequencer) : (s.setSeq q x).link = s.link := rfl
@[simp] theorem State.setSeq_rd (s : State) (q : Nat) (x : Sequencer) (addr : Nat) : (s.setSeq q x).rd addr = s.rd addr := rfl
@[simp] theorem State.setSeq_rdN (s : State) (q : Nat) (x : Sequencer) (addr : Nat) : (s.setSeq q x).rdN addr = s.rdN addr := rfl

/-! `State.setRun` -/

@[simp] theorem State.setRun_pending (s : State) (g : Nat) (x : GroupRun) : (s.setRun g x).pending = s.pending := rfl
@[simp] theorem State.setRun_time (s : State) (g : Nat) (x : GroupRun) : (s.setRun g x).time = s.time := rfl
@[simp] theorem State.setRun_free (s : State) (g : Nat) (x : GroupRun) : (s.setRun g x).free = s.free := rfl
@[simp] theorem State.setRun_par (s : State) (g : Nat) (x : GroupRun) : (s.setRun g x).par = s.par := rfl
@[simp] theorem State.setRun_cmd (s : State) (g : Nat) (x : GroupRun) : (s.setRun g x).cmd = s.cmd := rfl
@[simp] theorem State.setRun_recs (s : State) (g : Nat) (x : GroupRun) : (s.setRun g x).recs = s.recs := rfl
@[simp] theorem State.setRun_mem (s : State) (g : Nat) (x : GroupRun) : (s.setRun g x).mem = s.mem := rfl
@[simp] theorem State.setRun_clp (s : State) (g : Nat) (x : GroupRun) : (s.setRun g x).clp = s.clp := rfl
@[simp] theorem State.setRun_prt (s : State) (g : Nat) (x : GroupRun) : (s.setRun g x).prt = s.prt := rfl
@[simp] theorem State.setRun_red (s : State) (g : Nat) (x : GroupRun) : (s.setRun g x).red = s.red := rfl
@[simp] theorem State.setRun_alm (s : State) (g : Nat) (x : GroupRun) : (s.setRun g x).alm = s.alm := rfl
@[simp] theorem State.setRun_mgt (s : State) (g : Nat) (x : GroupRun) : (s.setRun g x).mgt = s.mgt := rfl
@[simp] theorem State.setRun_pwr (s : State) (g : Nat) (x : GroupRun) : (s.setRun g x).pwr = s.pwr := rfl
@[simp] theorem State.setRun_fe (s : State) (g : Nat) (x : GroupRun) : (s.setRun g x).fe = s.fe := rfl
@[simp] theorem State.setRun_tmr (s : State) (g : Nat) (x : GroupRun) : (s.setRun g x).tmr = s.tmr := rfl
@[simp] theorem State.setRun_tb (s : State) (g : Nat) (x : GroupRun) : (s.setRun g x).tb = s.tb := rfl
@[simp] theorem State.setRun_lnk (s : State) (g : Nat) (x : GroupRun) : (s.setRun g x).lnk = s.lnk := rfl
@[simp] theorem State.setRun_cal (s : State) (g : Nat) (x : GroupRun) : (s.setRun g x).cal = s.cal := rfl
@[simp] theorem State.setRun_link (s : State) (g : Nat) (x : GroupRun) : (s.setRun g x).link = s.link := rfl
@[simp] theorem State.setRun_rd (s : State) (g : Nat) (x : GroupRun) (addr : Nat) : (s.setRun g x).rd addr = s.rd addr := rfl
@[simp] theorem State.setRun_rdN (s : State) (g : Nat) (x : GroupRun) (addr : Nat) : (s.setRun g x).rdN addr = s.rdN addr := rfl

/-! `State.setTb` -/

@[simp] theorem State.setTb_pending (s : State) (x : TbState) : (s.setTb x).pending = s.pending := rfl
@[simp] theorem State.setTb_time (s : State) (x : TbState) : (s.setTb x).time = s.time := rfl
@[simp] theorem State.setTb_free (s : State) (x : TbState) : (s.setTb x).free = s.free := rfl
@[simp] theorem State.setTb_par (s : State) (x : TbState) : (s.setTb x).par = s.par := rfl
@[simp] theorem State.setTb_cmd (s : State) (x : TbState) : (s.setTb x).cmd = s.cmd := rfl
@[simp] theorem State.setTb_recs (s : State) (x : TbState) : (s.setTb x).recs = s.recs := rfl
@[simp] theorem State.setTb_mem (s : State) (x : TbState) : (s.setTb x).mem = s.mem := rfl
@[simp] theorem State.setTb_clp (s : State) (x : TbState) : (s.setTb x).clp = s.clp := rfl
@[simp] theorem State.setTb_prt (s : State) (x : TbState) : (s.setTb x).prt = s.prt := rfl
@[simp] theorem State.setTb_red (s : State) (x : TbState) : (s.setTb x).red = s.red := rfl
@[simp] theorem State.setTb_alm (s : State) (x : TbState) : (s.setTb x).alm = s.alm := rfl
@[simp] theorem State.setTb_mgt (s : State) (x : TbState) : (s.setTb x).mgt = s.mgt := rfl
@[simp] theorem State.setTb_pwr (s : State) (x : TbState) : (s.setTb x).pwr = s.pwr := rfl
@[simp] theorem State.setTb_fe (s : State) (x : TbState) : (s.setTb x).fe = s.fe := rfl
@[simp] theorem State.setTb_tmr (s : State) (x : TbState) : (s.setTb x).tmr = s.tmr := rfl
@[simp] theorem State.setTb_trg (s : State) (x : TbState) : (s.setTb x).trg = s.trg := rfl
@[simp] theorem State.setTb_lnk (s : State) (x : TbState) : (s.setTb x).lnk = s.lnk := rfl
@[simp] theorem State.setTb_cal (s : State) (x : TbState) : (s.setTb x).cal = s.cal := rfl
@[simp] theorem State.setTb_link (s : State) (x : TbState) : (s.setTb x).link = s.link := rfl
@[simp] theorem State.setTb_rd (s : State) (x : TbState) (addr : Nat) : (s.setTb x).rd addr = s.rd addr := rfl
@[simp] theorem State.setTb_rdN (s : State) (x : TbState) (addr : Nat) : (s.setTb x).rdN addr = s.rdN addr := rfl

/-! `State.setDomain` -/

@[simp] theorem State.setDomain_pending (s : State) (d : Nat) (x : Domain) : (s.setDomain d x).pending = s.pending := rfl
@[simp] theorem State.setDomain_time (s : State) (d : Nat) (x : Domain) : (s.setDomain d x).time = s.time := rfl
@[simp] theorem State.setDomain_free (s : State) (d : Nat) (x : Domain) : (s.setDomain d x).free = s.free := rfl
@[simp] theorem State.setDomain_par (s : State) (d : Nat) (x : Domain) : (s.setDomain d x).par = s.par := rfl
@[simp] theorem State.setDomain_cmd (s : State) (d : Nat) (x : Domain) : (s.setDomain d x).cmd = s.cmd := rfl
@[simp] theorem State.setDomain_recs (s : State) (d : Nat) (x : Domain) : (s.setDomain d x).recs = s.recs := rfl
@[simp] theorem State.setDomain_mem (s : State) (d : Nat) (x : Domain) : (s.setDomain d x).mem = s.mem := rfl
@[simp] theorem State.setDomain_clp (s : State) (d : Nat) (x : Domain) : (s.setDomain d x).clp = s.clp := rfl
@[simp] theorem State.setDomain_prt (s : State) (d : Nat) (x : Domain) : (s.setDomain d x).prt = s.prt := rfl
@[simp] theorem State.setDomain_red (s : State) (d : Nat) (x : Domain) : (s.setDomain d x).red = s.red := rfl
@[simp] theorem State.setDomain_alm (s : State) (d : Nat) (x : Domain) : (s.setDomain d x).alm = s.alm := rfl
@[simp] theorem State.setDomain_mgt (s : State) (d : Nat) (x : Domain) : (s.setDomain d x).mgt = s.mgt := rfl
@[simp] theorem State.setDomain_pwr (s : State) (d : Nat) (x : Domain) : (s.setDomain d x).pwr = s.pwr := rfl
@[simp] theorem State.setDomain_fe (s : State) (d : Nat) (x : Domain) : (s.setDomain d x).fe = s.fe := rfl
@[simp] theorem State.setDomain_tmr (s : State) (d : Nat) (x : Domain) : (s.setDomain d x).tmr = s.tmr := rfl
@[simp] theorem State.setDomain_trg (s : State) (d : Nat) (x : Domain) : (s.setDomain d x).trg = s.trg := rfl
@[simp] theorem State.setDomain_lnk (s : State) (d : Nat) (x : Domain) : (s.setDomain d x).lnk = s.lnk := rfl
@[simp] theorem State.setDomain_cal (s : State) (d : Nat) (x : Domain) : (s.setDomain d x).cal = s.cal := rfl
@[simp] theorem State.setDomain_link (s : State) (d : Nat) (x : Domain) : (s.setDomain d x).link = s.link := rfl
@[simp] theorem State.setDomain_rd (s : State) (d : Nat) (x : Domain) (addr : Nat) : (s.setDomain d x).rd addr = s.rd addr := rfl
@[simp] theorem State.setDomain_rdN (s : State) (d : Nat) (x : Domain) (addr : Nat) : (s.setDomain d x).rdN addr = s.rdN addr := rfl

/-! `State.setTimePort` -/

@[simp] theorem State.setTimePort_pending (s : State) (p : Nat) (x : TimePort) : (s.setTimePort p x).pending = s.pending := rfl
@[simp] theorem State.setTimePort_time (s : State) (p : Nat) (x : TimePort) : (s.setTimePort p x).time = s.time := rfl
@[simp] theorem State.setTimePort_free (s : State) (p : Nat) (x : TimePort) : (s.setTimePort p x).free = s.free := rfl
@[simp] theorem State.setTimePort_par (s : State) (p : Nat) (x : TimePort) : (s.setTimePort p x).par = s.par := rfl
@[simp] theorem State.setTimePort_cmd (s : State) (p : Nat) (x : TimePort) : (s.setTimePort p x).cmd = s.cmd := rfl
@[simp] theorem State.setTimePort_recs (s : State) (p : Nat) (x : TimePort) : (s.setTimePort p x).recs = s.recs := rfl
@[simp] theorem State.setTimePort_mem (s : State) (p : Nat) (x : TimePort) : (s.setTimePort p x).mem = s.mem := rfl
@[simp] theorem State.setTimePort_clp (s : State) (p : Nat) (x : TimePort) : (s.setTimePort p x).clp = s.clp := rfl
@[simp] theorem State.setTimePort_prt (s : State) (p : Nat) (x : TimePort) : (s.setTimePort p x).prt = s.prt := rfl
@[simp] theorem State.setTimePort_red (s : State) (p : Nat) (x : TimePort) : (s.setTimePort p x).red = s.red := rfl
@[simp] theorem State.setTimePort_alm (s : State) (p : Nat) (x : TimePort) : (s.setTimePort p x).alm = s.alm := rfl
@[simp] theorem State.setTimePort_mgt (s : State) (p : Nat) (x : TimePort) : (s.setTimePort p x).mgt = s.mgt := rfl
@[simp] theorem State.setTimePort_pwr (s : State) (p : Nat) (x : TimePort) : (s.setTimePort p x).pwr = s.pwr := rfl
@[simp] theorem State.setTimePort_fe (s : State) (p : Nat) (x : TimePort) : (s.setTimePort p x).fe = s.fe := rfl
@[simp] theorem State.setTimePort_tmr (s : State) (p : Nat) (x : TimePort) : (s.setTimePort p x).tmr = s.tmr := rfl
@[simp] theorem State.setTimePort_trg (s : State) (p : Nat) (x : TimePort) : (s.setTimePort p x).trg = s.trg := rfl
@[simp] theorem State.setTimePort_lnk (s : State) (p : Nat) (x : TimePort) : (s.setTimePort p x).lnk = s.lnk := rfl
@[simp] theorem State.setTimePort_cal (s : State) (p : Nat) (x : TimePort) : (s.setTimePort p x).cal = s.cal := rfl
@[simp] theorem State.setTimePort_link (s : State) (p : Nat) (x : TimePort) : (s.setTimePort p x).link = s.link := rfl
@[simp] theorem State.setTimePort_rd (s : State) (p : Nat) (x : TimePort) (addr : Nat) : (s.setTimePort p x).rd addr = s.rd addr := rfl
@[simp] theorem State.setTimePort_rdN (s : State) (p : Nat) (x : TimePort) (addr : Nat) : (s.setTimePort p x).rdN addr = s.rdN addr := rfl

/-! `State.setKeySlot` -/

@[simp] theorem State.setKeySlot_pending (s : State) (k : Nat) (x : KeySlot) : (s.setKeySlot k x).pending = s.pending := rfl
@[simp] theorem State.setKeySlot_time (s : State) (k : Nat) (x : KeySlot) : (s.setKeySlot k x).time = s.time := rfl
@[simp] theorem State.setKeySlot_free (s : State) (k : Nat) (x : KeySlot) : (s.setKeySlot k x).free = s.free := rfl
@[simp] theorem State.setKeySlot_par (s : State) (k : Nat) (x : KeySlot) : (s.setKeySlot k x).par = s.par := rfl
@[simp] theorem State.setKeySlot_cmd (s : State) (k : Nat) (x : KeySlot) : (s.setKeySlot k x).cmd = s.cmd := rfl
@[simp] theorem State.setKeySlot_recs (s : State) (k : Nat) (x : KeySlot) : (s.setKeySlot k x).recs = s.recs := rfl
@[simp] theorem State.setKeySlot_mem (s : State) (k : Nat) (x : KeySlot) : (s.setKeySlot k x).mem = s.mem := rfl
@[simp] theorem State.setKeySlot_clp (s : State) (k : Nat) (x : KeySlot) : (s.setKeySlot k x).clp = s.clp := rfl
@[simp] theorem State.setKeySlot_prt (s : State) (k : Nat) (x : KeySlot) : (s.setKeySlot k x).prt = s.prt := rfl
@[simp] theorem State.setKeySlot_red (s : State) (k : Nat) (x : KeySlot) : (s.setKeySlot k x).red = s.red := rfl
@[simp] theorem State.setKeySlot_alm (s : State) (k : Nat) (x : KeySlot) : (s.setKeySlot k x).alm = s.alm := rfl
@[simp] theorem State.setKeySlot_pwr (s : State) (k : Nat) (x : KeySlot) : (s.setKeySlot k x).pwr = s.pwr := rfl
@[simp] theorem State.setKeySlot_fe (s : State) (k : Nat) (x : KeySlot) : (s.setKeySlot k x).fe = s.fe := rfl
@[simp] theorem State.setKeySlot_tmr (s : State) (k : Nat) (x : KeySlot) : (s.setKeySlot k x).tmr = s.tmr := rfl
@[simp] theorem State.setKeySlot_trg (s : State) (k : Nat) (x : KeySlot) : (s.setKeySlot k x).trg = s.trg := rfl
@[simp] theorem State.setKeySlot_tb (s : State) (k : Nat) (x : KeySlot) : (s.setKeySlot k x).tb = s.tb := rfl
@[simp] theorem State.setKeySlot_lnk (s : State) (k : Nat) (x : KeySlot) : (s.setKeySlot k x).lnk = s.lnk := rfl
@[simp] theorem State.setKeySlot_cal (s : State) (k : Nat) (x : KeySlot) : (s.setKeySlot k x).cal = s.cal := rfl
@[simp] theorem State.setKeySlot_link (s : State) (k : Nat) (x : KeySlot) : (s.setKeySlot k x).link = s.link := rfl
@[simp] theorem State.setKeySlot_rd (s : State) (k : Nat) (x : KeySlot) (addr : Nat) : (s.setKeySlot k x).rd addr = s.rd addr := rfl
@[simp] theorem State.setKeySlot_rdN (s : State) (k : Nat) (x : KeySlot) (addr : Nat) : (s.setKeySlot k x).rdN addr = s.rdN addr := rfl

/-! `State.setDieState` -/

@[simp] theorem State.setDieState_pending (s : State) (d n : Nat) : (s.setDieState d n).pending = s.pending := rfl
@[simp] theorem State.setDieState_time (s : State) (d n : Nat) : (s.setDieState d n).time = s.time := rfl
@[simp] theorem State.setDieState_free (s : State) (d n : Nat) : (s.setDieState d n).free = s.free := rfl
@[simp] theorem State.setDieState_cmd (s : State) (d n : Nat) : (s.setDieState d n).cmd = s.cmd := rfl
@[simp] theorem State.setDieState_recs (s : State) (d n : Nat) : (s.setDieState d n).recs = s.recs := rfl
@[simp] theorem State.setDieState_mem (s : State) (d n : Nat) : (s.setDieState d n).mem = s.mem := rfl
@[simp] theorem State.setDieState_clp (s : State) (d n : Nat) : (s.setDieState d n).clp = s.clp := rfl
@[simp] theorem State.setDieState_prt (s : State) (d n : Nat) : (s.setDieState d n).prt = s.prt := rfl
@[simp] theorem State.setDieState_red (s : State) (d n : Nat) : (s.setDieState d n).red = s.red := rfl
@[simp] theorem State.setDieState_alm (s : State) (d n : Nat) : (s.setDieState d n).alm = s.alm := rfl
@[simp] theorem State.setDieState_mgt (s : State) (d n : Nat) : (s.setDieState d n).mgt = s.mgt := rfl
@[simp] theorem State.setDieState_pwr (s : State) (d n : Nat) : (s.setDieState d n).pwr = s.pwr := rfl
@[simp] theorem State.setDieState_fe (s : State) (d n : Nat) : (s.setDieState d n).fe = s.fe := rfl
@[simp] theorem State.setDieState_tmr (s : State) (d n : Nat) : (s.setDieState d n).tmr = s.tmr := rfl
@[simp] theorem State.setDieState_trg (s : State) (d n : Nat) : (s.setDieState d n).trg = s.trg := rfl
@[simp] theorem State.setDieState_tb (s : State) (d n : Nat) : (s.setDieState d n).tb = s.tb := rfl
@[simp] theorem State.setDieState_lnk (s : State) (d n : Nat) : (s.setDieState d n).lnk = s.lnk := rfl
@[simp] theorem State.setDieState_cal (s : State) (d n : Nat) : (s.setDieState d n).cal = s.cal := rfl
@[simp] theorem State.setDieState_link (s : State) (d n : Nat) : (s.setDieState d n).link = s.link := rfl

/-! `State.setPwr` -/

@[simp] theorem State.setPwr_pending (s : State) (x : PwrState) : (s.setPwr x).pending = s.pending := rfl
@[simp] theorem State.setPwr_time (s : State) (x : PwrState) : (s.setPwr x).time = s.time := rfl
@[simp] theorem State.setPwr_free (s : State) (x : PwrState) : (s.setPwr x).free = s.free := rfl
@[simp] theorem State.setPwr_par (s : State) (x : PwrState) : (s.setPwr x).par = s.par := rfl
@[simp] theorem State.setPwr_cmd (s : State) (x : PwrState) : (s.setPwr x).cmd = s.cmd := rfl
@[simp] theorem State.setPwr_recs (s : State) (x : PwrState) : (s.setPwr x).recs = s.recs := rfl
@[simp] theorem State.setPwr_mem (s : State) (x : PwrState) : (s.setPwr x).mem = s.mem := rfl
@[simp] theorem State.setPwr_clp (s : State) (x : PwrState) : (s.setPwr x).clp = s.clp := rfl
@[simp] theorem State.setPwr_prt (s : State) (x : PwrState) : (s.setPwr x).prt = s.prt := rfl
@[simp] theorem State.setPwr_red (s : State) (x : PwrState) : (s.setPwr x).red = s.red := rfl
@[simp] theorem State.setPwr_alm (s : State) (x : PwrState) : (s.setPwr x).alm = s.alm := rfl
@[simp] theorem State.setPwr_mgt (s : State) (x : PwrState) : (s.setPwr x).mgt = s.mgt := rfl
@[simp] theorem State.setPwr_fe (s : State) (x : PwrState) : (s.setPwr x).fe = s.fe := rfl
@[simp] theorem State.setPwr_tmr (s : State) (x : PwrState) : (s.setPwr x).tmr = s.tmr := rfl
@[simp] theorem State.setPwr_trg (s : State) (x : PwrState) : (s.setPwr x).trg = s.trg := rfl
@[simp] theorem State.setPwr_tb (s : State) (x : PwrState) : (s.setPwr x).tb = s.tb := rfl
@[simp] theorem State.setPwr_lnk (s : State) (x : PwrState) : (s.setPwr x).lnk = s.lnk := rfl
@[simp] theorem State.setPwr_cal (s : State) (x : PwrState) : (s.setPwr x).cal = s.cal := rfl
@[simp] theorem State.setPwr_link (s : State) (x : PwrState) : (s.setPwr x).link = s.link := rfl
@[simp] theorem State.setPwr_rd (s : State) (x : PwrState) (addr : Nat) : (s.setPwr x).rd addr = s.rd addr := rfl
@[simp] theorem State.setPwr_rdN (s : State) (x : PwrState) (addr : Nat) : (s.setPwr x).rdN addr = s.rdN addr := rfl

/-! `State.setSensor` -/

@[simp] theorem State.setSensor_pending (s : State) (i : Nat) (x : SensorRuntime) : (s.setSensor i x).pending = s.pending := rfl
@[simp] theorem State.setSensor_time (s : State) (i : Nat) (x : SensorRuntime) : (s.setSensor i x).time = s.time := rfl
@[simp] theorem State.setSensor_free (s : State) (i : Nat) (x : SensorRuntime) : (s.setSensor i x).free = s.free := rfl
@[simp] theorem State.setSensor_par (s : State) (i : Nat) (x : SensorRuntime) : (s.setSensor i x).par = s.par := rfl
@[simp] theorem State.setSensor_cmd (s : State) (i : Nat) (x : SensorRuntime) : (s.setSensor i x).cmd = s.cmd := rfl
@[simp] theorem State.setSensor_recs (s : State) (i : Nat) (x : SensorRuntime) : (s.setSensor i x).recs = s.recs := rfl
@[simp] theorem State.setSensor_mem (s : State) (i : Nat) (x : SensorRuntime) : (s.setSensor i x).mem = s.mem := rfl
@[simp] theorem State.setSensor_clp (s : State) (i : Nat) (x : SensorRuntime) : (s.setSensor i x).clp = s.clp := rfl
@[simp] theorem State.setSensor_prt (s : State) (i : Nat) (x : SensorRuntime) : (s.setSensor i x).prt = s.prt := rfl
@[simp] theorem State.setSensor_red (s : State) (i : Nat) (x : SensorRuntime) : (s.setSensor i x).red = s.red := rfl
@[simp] theorem State.setSensor_alm (s : State) (i : Nat) (x : SensorRuntime) : (s.setSensor i x).alm = s.alm := rfl
@[simp] theorem State.setSensor_mgt (s : State) (i : Nat) (x : SensorRuntime) : (s.setSensor i x).mgt = s.mgt := rfl
@[simp] theorem State.setSensor_fe (s : State) (i : Nat) (x : SensorRuntime) : (s.setSensor i x).fe = s.fe := rfl
@[simp] theorem State.setSensor_tmr (s : State) (i : Nat) (x : SensorRuntime) : (s.setSensor i x).tmr = s.tmr := rfl
@[simp] theorem State.setSensor_trg (s : State) (i : Nat) (x : SensorRuntime) : (s.setSensor i x).trg = s.trg := rfl
@[simp] theorem State.setSensor_tb (s : State) (i : Nat) (x : SensorRuntime) : (s.setSensor i x).tb = s.tb := rfl
@[simp] theorem State.setSensor_lnk (s : State) (i : Nat) (x : SensorRuntime) : (s.setSensor i x).lnk = s.lnk := rfl
@[simp] theorem State.setSensor_cal (s : State) (i : Nat) (x : SensorRuntime) : (s.setSensor i x).cal = s.cal := rfl
@[simp] theorem State.setSensor_link (s : State) (i : Nat) (x : SensorRuntime) : (s.setSensor i x).link = s.link := rfl
@[simp] theorem State.setSensor_rd (s : State) (i : Nat) (x : SensorRuntime) (addr : Nat) : (s.setSensor i x).rd addr = s.rd addr := rfl
@[simp] theorem State.setSensor_rdN (s : State) (i : Nat) (x : SensorRuntime) (addr : Nat) : (s.setSensor i x).rdN addr = s.rdN addr := rfl

/-! `State.setFePower` -/

@[simp] theorem State.setFePower_pending (s : State) (k : Nat) (x : FePower) : (s.setFePower k x).pending = s.pending := rfl
@[simp] theorem State.setFePower_time (s : State) (k : Nat) (x : FePower) : (s.setFePower k x).time = s.time := rfl
@[simp] theorem State.setFePower_free (s : State) (k : Nat) (x : FePower) : (s.setFePower k x).free = s.free := rfl
@[simp] theorem State.setFePower_par (s : State) (k : Nat) (x : FePower) : (s.setFePower k x).par = s.par := rfl
@[simp] theorem State.setFePower_cmd (s : State) (k : Nat) (x : FePower) : (s.setFePower k x).cmd = s.cmd := rfl
@[simp] theorem State.setFePower_recs (s : State) (k : Nat) (x : FePower) : (s.setFePower k x).recs = s.recs := rfl
@[simp] theorem State.setFePower_mem (s : State) (k : Nat) (x : FePower) : (s.setFePower k x).mem = s.mem := rfl
@[simp] theorem State.setFePower_clp (s : State) (k : Nat) (x : FePower) : (s.setFePower k x).clp = s.clp := rfl
@[simp] theorem State.setFePower_prt (s : State) (k : Nat) (x : FePower) : (s.setFePower k x).prt = s.prt := rfl
@[simp] theorem State.setFePower_red (s : State) (k : Nat) (x : FePower) : (s.setFePower k x).red = s.red := rfl
@[simp] theorem State.setFePower_alm (s : State) (k : Nat) (x : FePower) : (s.setFePower k x).alm = s.alm := rfl
@[simp] theorem State.setFePower_mgt (s : State) (k : Nat) (x : FePower) : (s.setFePower k x).mgt = s.mgt := rfl
@[simp] theorem State.setFePower_fe (s : State) (k : Nat) (x : FePower) : (s.setFePower k x).fe = s.fe := rfl
@[simp] theorem State.setFePower_tmr (s : State) (k : Nat) (x : FePower) : (s.setFePower k x).tmr = s.tmr := rfl
@[simp] theorem State.setFePower_trg (s : State) (k : Nat) (x : FePower) : (s.setFePower k x).trg = s.trg := rfl
@[simp] theorem State.setFePower_tb (s : State) (k : Nat) (x : FePower) : (s.setFePower k x).tb = s.tb := rfl
@[simp] theorem State.setFePower_lnk (s : State) (k : Nat) (x : FePower) : (s.setFePower k x).lnk = s.lnk := rfl
@[simp] theorem State.setFePower_cal (s : State) (k : Nat) (x : FePower) : (s.setFePower k x).cal = s.cal := rfl
@[simp] theorem State.setFePower_link (s : State) (k : Nat) (x : FePower) : (s.setFePower k x).link = s.link := rfl
@[simp] theorem State.setFePower_rd (s : State) (k : Nat) (x : FePower) (addr : Nat) : (s.setFePower k x).rd addr = s.rd addr := rfl
@[simp] theorem State.setFePower_rdN (s : State) (k : Nat) (x : FePower) (addr : Nat) : (s.setFePower k x).rdN addr = s.rdN addr := rfl

/-! `State.setGot` -/

@[simp] theorem State.setGot_pending (s : State) (d src : Nat) (xs : List StreamItem) : (s.setGot d src xs).pending = s.pending := rfl
@[simp] theorem State.setGot_time (s : State) (d src : Nat) (xs : List StreamItem) : (s.setGot d src xs).time = s.time := rfl
@[simp] theorem State.setGot_free (s : State) (d src : Nat) (xs : List StreamItem) : (s.setGot d src xs).free = s.free := rfl
@[simp] theorem State.setGot_par (s : State) (d src : Nat) (xs : List StreamItem) : (s.setGot d src xs).par = s.par := rfl
@[simp] theorem State.setGot_cmd (s : State) (d src : Nat) (xs : List StreamItem) : (s.setGot d src xs).cmd = s.cmd := rfl
@[simp] theorem State.setGot_recs (s : State) (d src : Nat) (xs : List StreamItem) : (s.setGot d src xs).recs = s.recs := rfl
@[simp] theorem State.setGot_mem (s : State) (d src : Nat) (xs : List StreamItem) : (s.setGot d src xs).mem = s.mem := rfl
@[simp] theorem State.setGot_clp (s : State) (d src : Nat) (xs : List StreamItem) : (s.setGot d src xs).clp = s.clp := rfl
@[simp] theorem State.setGot_prt (s : State) (d src : Nat) (xs : List StreamItem) : (s.setGot d src xs).prt = s.prt := rfl
@[simp] theorem State.setGot_red (s : State) (d src : Nat) (xs : List StreamItem) : (s.setGot d src xs).red = s.red := rfl
@[simp] theorem State.setGot_alm (s : State) (d src : Nat) (xs : List StreamItem) : (s.setGot d src xs).alm = s.alm := rfl
@[simp] theorem State.setGot_mgt (s : State) (d src : Nat) (xs : List StreamItem) : (s.setGot d src xs).mgt = s.mgt := rfl
@[simp] theorem State.setGot_pwr (s : State) (d src : Nat) (xs : List StreamItem) : (s.setGot d src xs).pwr = s.pwr := rfl
@[simp] theorem State.setGot_fe (s : State) (d src : Nat) (xs : List StreamItem) : (s.setGot d src xs).fe = s.fe := rfl
@[simp] theorem State.setGot_tmr (s : State) (d src : Nat) (xs : List StreamItem) : (s.setGot d src xs).tmr = s.tmr := rfl
@[simp] theorem State.setGot_trg (s : State) (d src : Nat) (xs : List StreamItem) : (s.setGot d src xs).trg = s.trg := rfl
@[simp] theorem State.setGot_tb (s : State) (d src : Nat) (xs : List StreamItem) : (s.setGot d src xs).tb = s.tb := rfl
@[simp] theorem State.setGot_lnk (s : State) (d src : Nat) (xs : List StreamItem) : (s.setGot d src xs).lnk = s.lnk := rfl
@[simp] theorem State.setGot_cal (s : State) (d src : Nat) (xs : List StreamItem) : (s.setGot d src xs).cal = s.cal := rfl
@[simp] theorem State.setGot_rd (s : State) (d src : Nat) (xs : List StreamItem) (addr : Nat) : (s.setGot d src xs).rd addr = s.rd addr := rfl
@[simp] theorem State.setGot_rdN (s : State) (d src : Nat) (xs : List StreamItem) (addr : Nat) : (s.setGot d src xs).rdN addr = s.rdN addr := rfl

/-! `State.setSent` -/

@[simp] theorem State.setSent_pending (s : State) (d src : Nat) (xs : List StreamItem) : (s.setSent d src xs).pending = s.pending := rfl
@[simp] theorem State.setSent_time (s : State) (d src : Nat) (xs : List StreamItem) : (s.setSent d src xs).time = s.time := rfl
@[simp] theorem State.setSent_free (s : State) (d src : Nat) (xs : List StreamItem) : (s.setSent d src xs).free = s.free := rfl
@[simp] theorem State.setSent_par (s : State) (d src : Nat) (xs : List StreamItem) : (s.setSent d src xs).par = s.par := rfl
@[simp] theorem State.setSent_cmd (s : State) (d src : Nat) (xs : List StreamItem) : (s.setSent d src xs).cmd = s.cmd := rfl
@[simp] theorem State.setSent_recs (s : State) (d src : Nat) (xs : List StreamItem) : (s.setSent d src xs).recs = s.recs := rfl
@[simp] theorem State.setSent_mem (s : State) (d src : Nat) (xs : List StreamItem) : (s.setSent d src xs).mem = s.mem := rfl
@[simp] theorem State.setSent_clp (s : State) (d src : Nat) (xs : List StreamItem) : (s.setSent d src xs).clp = s.clp := rfl
@[simp] theorem State.setSent_prt (s : State) (d src : Nat) (xs : List StreamItem) : (s.setSent d src xs).prt = s.prt := rfl
@[simp] theorem State.setSent_red (s : State) (d src : Nat) (xs : List StreamItem) : (s.setSent d src xs).red = s.red := rfl
@[simp] theorem State.setSent_alm (s : State) (d src : Nat) (xs : List StreamItem) : (s.setSent d src xs).alm = s.alm := rfl
@[simp] theorem State.setSent_mgt (s : State) (d src : Nat) (xs : List StreamItem) : (s.setSent d src xs).mgt = s.mgt := rfl
@[simp] theorem State.setSent_pwr (s : State) (d src : Nat) (xs : List StreamItem) : (s.setSent d src xs).pwr = s.pwr := rfl
@[simp] theorem State.setSent_fe (s : State) (d src : Nat) (xs : List StreamItem) : (s.setSent d src xs).fe = s.fe := rfl
@[simp] theorem State.setSent_tmr (s : State) (d src : Nat) (xs : List StreamItem) : (s.setSent d src xs).tmr = s.tmr := rfl
@[simp] theorem State.setSent_trg (s : State) (d src : Nat) (xs : List StreamItem) : (s.setSent d src xs).trg = s.trg := rfl
@[simp] theorem State.setSent_tb (s : State) (d src : Nat) (xs : List StreamItem) : (s.setSent d src xs).tb = s.tb := rfl
@[simp] theorem State.setSent_lnk (s : State) (d src : Nat) (xs : List StreamItem) : (s.setSent d src xs).lnk = s.lnk := rfl
@[simp] theorem State.setSent_cal (s : State) (d src : Nat) (xs : List StreamItem) : (s.setSent d src xs).cal = s.cal := rfl
@[simp] theorem State.setSent_rd (s : State) (d src : Nat) (xs : List StreamItem) (addr : Nat) : (s.setSent d src xs).rd addr = s.rd addr := rfl
@[simp] theorem State.setSent_rdN (s : State) (d src : Nat) (xs : List StreamItem) (addr : Nat) : (s.setSent d src xs).rdN addr = s.rdN addr := rfl

end Sys2Proof.Machine
end

