-- ==== Sys2Proof/Tests/Slice0.lean ====
section
/-! SUPPORT. The model's own tests: for each clause of a statement with hypotheses a state and operands that meet them together, an ill-formed command for
each check of well-formedness, and values the spec works out. -/

open Sys2Proof Sys2Proof.Machine

set_option Elab.async false

namespace Sys2Proof.Tests

/-- A node of which die 0 is IN_STEP, with other parameters set. -/
def node (ps : List (Nat × Word) := []) : State := { State.reset with par := ps.foldl (fun m e => Sparse.put m e.1 e.2) [(P.RED_DIE_STATE 0, 1)] }
/-- The same with both dies IN_STEP. -/
def pair (ps : List (Nat × Word) := []) : State := node ((P.RED_DIE_STATE 1, 1) :: ps)
/-- A packet from the portal's own host, of n parameter words. -/
def host (n : Nat) : Hdr :=
  { at_ := 0, issuer := 1, auth := true, arrival := .host, target := 0, tag := 1, bcast := false, priv := true, sched := false, reserved := 0
    length := BitVec.ofNat 16 (4 * n), timeTag := 0, crc := 0 }
/-- A broadcast from the portal's own host. -/
def toAll (n : Nat) : Hdr := { host n with target := 0xFFF, bcast := true }

namespace Words
/-! ### Well-formed commands: one that each check refuses -/

theorem test_ill_params : (Instr.parRead (host 0) (List.replicate 1021 0)).wellFormed = false := by decide +kernel
theorem test_ill_codeword : (Instr.codewordReceive 0 0 { before := 0, levels := [1], precoded := false, drawn := 0, skewPs := 0 }).wellFormed = false := by decide
theorem test_ill_access : (Instr.borrowedRegionAccess 0 1 0 { address := 0, kind := .write, burst := 1, data := [7] }).wellFormed = false
    ∧ (Instr.borrowedRegionAccess 0 1 0 { address := 0, kind := .add, data := [] }).wellFormed = false
    ∧ (Instr.borrowedRegionAccess 0 1 0 { address := 0, kind := .read, data := [7] }).wellFormed = false := by decide
theorem test_ill_points : (Instr.eyescanDone 0 0 1 1 [7]).wellFormed = false := by decide
theorem test_ill_sensors : (Instr.sensorConversion 0 [some 25000] []).wellFormed = false := by decide
theorem test_ill_packet : (Instr.commandRingFetch 0 0 0 (List.replicate 4101 0)).wellFormed = false := by decide +kernel
theorem test_ill_frame : wfFrame (RxFrame.mk 0 0 0 0 0 false false (List.replicate 4113 0) 0 false false) = false := by decide +kernel
theorem test_ill_finding : (Instr.calPointDone 0 [{ unit := 512, forward := 0, reverse := 0, hits := [], delays := [], trim := 0 }]).wellFormed = false := by decide
theorem test_ill_check : (Instr.pchkPeriod 0 [{ input := 0, start := 0, errors := [] }]).wellFormed = false := by decide
theorem test_ill_pulse : (Instr.rstNPulse 0 0).wellFormed = false := by decide
theorem test_well_params : (Instr.parRead (host 2) [0x01060000, 1]).wellFormed = true := by decide

/-! ### Values the spec works out -/

/-- R32: the check value of the nine ASCII digits 1 to 9. -/
theorem test_crc_check_value : crc32c [0x31, 0x32, 0x33, 0x34, 0x35, 0x36, 0x37, 0x38, 0x39] = 0xE3069283 := by decide +kernel

/-- Table 4-5: IN301 on range 3, offset 300 codes, gain 1.048. -/
def in301 : State := node [(P.FE_IN_MODE 301, 1), (P.FE_IN_RANGE 301, 3), (P.ADC_CAL_OFFSET 2411, 0x00012C00), (P.ADC_CAL_GAIN 2411, 0x43126E98)]
theorem test_correction_first : codeOf (in301.corrected 301 4000) = 32417 ∧ outOfRange (in301.corrected 301 4000) = false := by decide +kernel
theorem test_correction_second : codeOf (in301.corrected 301 4020) = 32752 ∧ outOfRange (in301.corrected 301 4020) = false := by decide +kernel
theorem test_correction_clips : outOfRange (in301.corrected 301 4021) = true
    ∧ sampleWord (in301.corrected 301 4021) true false false false = 16 * 32767 + 8 := by decide +kernel

/-- The block of Table 8-15. -/
def block64 : List Int := (List.range 64).map (fun i => (2000 + 3 * i + i * (i - 1) / 2 + (if i % 4 = 1 then 1 else 0) : Nat))
theorem test_block_effort0 : (codeBlock 0 0 block64).1 = true ∧ (codeBlock 0 0 block64).2.length = 130 := by decide +kernel
theorem test_block_effort1 : (codeBlock 0 1 block64).1 = false ∧ (codeBlock 0 1 block64).2.length = 32
    ∧ (codeBlock 0 1 block64).2.take 8 = [0x02, 0x08, 0xD0, 0x07, 0x2A, 0x8E, 0xE2, 0x28]
    ∧ (codeBlock 0 1 block64).2.drop 28 = [0, 0, 0, 0] := by decide +kernel
theorem test_block_decoded : decodeBlock 0 (codeBlock 0 1 block64).2 = block64 := by decide +kernel

/-- R501: FE2 at 99.4 °C; R456: 12.5 on a loop from -50 to 50. -/
theorem test_level_example : levelOf (95000, 105000) 99400 = 4 := by decide
theorem test_loop_example : loopCurrent (.fin true 50 0) (.fin false 50 0) (.fin false 25 (-1)) = .drive 14000 := by decide +kernel
/-- R307: three corrupted symbols of a line are corrected. -/
theorem test_three_symbols : lineOutcome 9 { symbols := [(0, 0x41), (1, 0x41), (4, 0x41)] } = outCorrected
    ∧ lineByte 9 { symbols := [(0, 0x41), (1, 0x41), (4, 0x41)] } 0x5A 1 = 0x5A := by decide
end Words

/-! ### What the hypotheses of the statements admit: General -/

namespace General
theorem test_nop : (node).passes 0x00 (host 0) [] := by decide
theorem test_ident : (node).passes 0x01 (host 0) [] := by decide
theorem test_reset : (pair).passes 0x02 (host 1) [0x13] ∧ bits 0x13 2 0 = 3 ∧ bits 0x13 5 4 < 2 ∧ (pair).inService (1 - bits 0x13 5 4) = true := by decide
theorem test_snapTake : (node).passes 0x03 (host 2) [0xFFFFE, 1] ∧ bitOf 0xFFFFE 0 = false ∧ (node).cmd.snapWait = none := by decide
def snapped : State := { node with cmd := { snap := some { id := 0, instant := 0, mask := 2, par := [], computed := [], take := { h := host 2, mask := 2, clear := true, instant := 0 }, die := 0, reply := 0 } } }
theorem test_snapRead : snapped.passes 0x04 (host 3) [0, 0x01060000, 1] ∧ spanRefusal 0x01060000 1 = none ∧ snapped.rdN P.SYS_SNAP_ID = 0
    ∧ bitOf 2 (Params.blockOf 0x01060000) = true := by decide
def waiting : Outstanding := { h := { host 0 with tag := 7, sched := true, timeTag := 1000000 }, op := 0x11, p := [], due := some 1000000, last := none }
def holding : State := { node with cmd := { outstanding := [waiting] } }
theorem test_cancel : holding.passes 0x05 (host 1) [7]
    ∧ holding.cmd.outstanding.find? (fun o => o.h.issuer == (host 1).issuer && o.h.tag.toNat == 7 && o.h.sched && o.due.isSome) = some waiting
    ∧ holding.time + usec 10 ≤ ns waiting.h.timeTag.toNat := by decide
theorem test_almAck : (node).passes 0x07 (host 1) [0xFF] := by decide
theorem test_setidById : (node).passes 0x06 (host 3) [0, 5, 0] ∧ (host 3).target ≠ 0xFFF := by decide
theorem test_setidSequence : (node).passes 0x06 (toAll 3) [13, 5, 0] := by decide
theorem test_setidSequenceNamed : (node [(P.SYS_NODE_ID, 9)]).passes 0x06 (toAll 3) [1, 5, 0] ∧ (node [(P.SYS_NODE_ID, 9)]).rdN P.SYS_NODE_ID ≠ 0 := by decide
theorem test_setidByPosition : (node).passes 0x06 (toAll 3) [2, 0xFFF, 0] := by decide
end General

/-! ### What the hypotheses of the statements admit: Parameters -/

namespace Parameters
theorem test_parRead : (node).passes 0x10 (host 2) [0x01060000, 1] ∧ spanRefusal 0x01060000 1 = none := by decide
theorem test_parReadSelf : (node).passes 0x10 (host 2) [0x01070000, 1] := by decide
def staging : State := { node with cmd := { staged := [(P.FE_IN_MODE 1, 3)] } }
theorem test_parStaged : staging.passes 0x12 (host 2) [0x02000000, 3] ∧ spanRefusal 0x02000000 3 = none := by decide
theorem test_parWrite : (node).passes 0x11 (host 3) [1, 0x01060000, 300000] := by decide
theorem test_parWriteBad : (node).passes 0x11 (host 5) [2, 0x01060000, 300000, 0x01060000, 3] := by decide
def quiet : State := { node with cmd := { staged := [(P.TRG_SEQ_TIMER 0, 10)] } }
theorem test_epochCommit : quiet.passes 0x13 (host 3) [1, 0x10001, 4000000] ∧ quiet.cmd.commit = none ∧ quiet.commitStopsTpo = false
    ∧ quiet.firstOffending = none := by decide +kernel
theorem test_epochAbort : staging.passes 0x14 (host 1) [0] ∧ staging.cmd.commit = none := by decide
def aCommit (sched : Bool) (policy : Nat) (deferred : Bool) : Commit := { h := { host 3 with sched, tag := 9 }, newEpoch := 1, policy, tolerance := 5, instant := 0, deferred, uncert := 6, applyAt := if deferred then some 0 else none }
def sealed (sched : Bool) (policy : Nat) (deferred : Bool) : State := { staging with cmd := { staging.cmd with commit := some (aCommit sched policy deferred) } }
theorem test_epochAbortDeferred : (sealed true 1 true).passes 0x14 (host 1) [1] := by decide
theorem test_epochStatus : staging.passes 0x15 (host 0) [] := by decide
theorem test_epochStatusSealed : (sealed true 1 true).passes 0x15 (host 0) [] := by decide
theorem test_commitApplies : (sealed false 1 false).earlierWaits 0 = false := by decide
theorem test_commitDefers : (sealed true 1 false).earlierWaits 0 = false ∧ 5 < (sealed true 1 false).tbUpdate.commitUncert := by decide
theorem test_commitMisses : 5 < (sealed true 2 false).tbUpdate.commitUncert := by decide
theorem test_commitDeferredApplies : (sealed true 1 true).rdN P.SYS_EPOCH_STATE = 0 := by decide
end Parameters

/-! ### What the hypotheses of the statements admit: AcquisitionMemory -/

namespace AcquisitionMemory
def groups (n : Nat) : List Word := 1 :: List.replicate n 0
theorem test_acqStart : (node).passes 0x20 (host 6) (groups 5) ∧ (groups 5).length = 6 ∧ (List.range 5).any (fun i => word (groups 5) i != 0) = true
    ∧ word (groups 5) 5 = 0 ∧ (node).moduleStopped = false := by decide
theorem test_acqStop : (node).passes 0x21 (host 6) (groups 5) := by decide
theorem test_acqRearm : (node).passes 0x23 (host 6) (groups 5) := by decide
theorem test_acqForce : (node).passes 0x22 (host 7) [1, 0, 0, 0, 50000000, 1000, 0xFF]
    ∧ (List.range 4).any (fun i => word [1, 0, 0, 0, 50000000, 1000, 0xFF] i != 0) = true := by decide
theorem test_acqFetch : (node).passes 0x24 (host 3) [0, 5, 2] ∧ (node).rdN P.REC_RUN = 0 := by decide
def plotCmd : List Word := [1, 16, 0, 1] ++ List.replicate 15 0
def plotted : State := { node with mem := { (node).mem with plots := [{ id := 3, kind := 1, base := 0, size := 16, kinds := 0, weights := [(0, 1)] }] } }
theorem test_plotNew : (node).passes 0x50 (host 19) plotCmd ∧ plotNewCheck node plotCmd = none := by decide
theorem test_plotFree : plotted.passes 0x51 (host 1) [3] ∧ plotFreeCheck plotted [3] = none := by decide
theorem test_plotList : plotted.passes 0x52 (host 0) [] := by decide
theorem test_memRead : (node).passes 0x53 (host 3) [0, 4194303, 1] := by decide
theorem test_testStop : (node).passes 0x54 (host 1) [0] := by decide
theorem test_testContinuous : (node).passes 0x54 (host 1) [1] := by decide
theorem test_testOneLap : (node).passes 0x54 (host 1) [2] := by decide
def borrowed : State := (node).setTest { (node).mem.test with phase := .march, region := 1 }
theorem test_memReadBorrowed : borrowed.passes 0x53 (host 3) [0, 8191, 2]
    ∧ (regionsOf 8191 2).find? ((regionsOf 8191 2).foldl (fun s v => s.touch v false) borrowed.settle).blocked = some 8191 := by decide
theorem test_memReadPlot : plotted.passes 0x53 (host 3) [49, 2097151, 1] ∧ (plotted.plot? 3).map (·.size) = some 16 := by decide
end AcquisitionMemory

/-! ### What the hypotheses of the statements admit: HostCommands -/

namespace HostCommands
def timed : State := node [(P.TB_STATE, 2), (P.TB_FOLLOWED, 1)]
theorem test_tbRead : (node).passes 0x40 (host 0) [] := by decide
theorem test_tbDomain : (node).passes 0x41 (host 1) [2] := by decide
theorem test_tbAsymSet : (node).passes 0x42 (host 2) [1, 0xFFFFFFFF]
    ∧ (((0xFFFFFFFF : Word).toInt - (node).rdI (P.TB_ASYM 1)).natAbs : Int) ≤ 2000 * (node).rdN P.TB_JUMP_LIMIT := by decide
def locked : State := timed
theorem test_tbAsymMeasure : locked.passes 0x42 (host 2) [3, 0] ∧ locked.tbState = tbLocked ∧ locked.followedDomain = some 0 := by decide
theorem test_tbAsymClear : (node [(P.TB_ASYM 1, 500)]).passes 0x42 (host 2) [5, 0] := by decide
theorem test_tpoDisarm : (node [(P.TB_STATE, 3), (P.TMR_TPO_EN 0, 1)]).passes 0x44 (host 4) [1, 0, 0, 256]
    ∧ (tposOf 1).all (fun i => (node [(P.TB_STATE, 3), (P.TMR_TPO_EN 0, 1)]).rdN (P.TMR_TPO_EN i) != 0) = true := by decide
def outputs : State := node [(P.TB_STATE, 3), (P.TMR_TPO_EN 0, 1)]
theorem test_tpoArm : outputs.passes 0x44 (host 4) [1, 100000, 0, 5] ∧ outputs.tpoRange [1, 100000, 0, 5] outputs.time = false := by decide
def calCmd : List Word := [0x81] ++ List.replicate 18 0
theorem test_calRun : (node).passes 0x30 (host 19) calCmd ∧ calRunRange calCmd = false ∧ (node).calRefusal = none := by decide +kernel
def curved : State := node [(P.FE_LIN_CURVE 1, 1)]
theorem test_calShunt : curved.passes 0x32 (host 3) [1, 0x20000, 0x40000000] ∧ curved.shuntRange [1, 0x20000, 0x40000000] = false
    ∧ curved.calRefusal = none := by decide
theorem test_calAbort : (node).passes 0x31 (host 0) [] ∧ (node).cal.run = none := by decide
theorem test_calRead : (node).passes 0x33 (host 1) [1] ∧ ((node).cal.slots.get 1).empty = true := by decide
theorem test_calReadFactory : (node).cal.factory.empty = false ∧ (node).cal.factory.good = true := by decide
theorem test_redStatus : (node).passes 0x60 (host 0) [] := by decide
theorem test_redSwitchMove : (pair).passes 0x61 (host 1) [0] ∧ (pair).dieState (1 - (pair).active) = dieInStep := by decide
theorem test_redSwitchRelease : (pair).passes 0x61 (host 1) [1] := by decide
theorem test_redSelftest : (pair).passes 0x62 (host 1) [2] ∧ ((pair).die 1).testCmd = none ∧ (pair).active = 0 := by decide
theorem test_lnkStatus : (node).passes 0x70 (host 1) [2] := by decide
theorem test_lnkFallow : (node).passes 0x72 (host 1) [5] := by decide
def fallowed : State := node [(P.LNK_PORT_EN 0, 1), (P.LNK_PORT_STATE 0, 0)]
theorem test_lnkWake : fallowed.passes 0x73 (host 1) [0] ∧ fallowed.portEnabled 0 = true ∧ fallowed.lnkPortState 0 = portFallow := by decide
def active : State := node [(P.LNK_PORT_EN 0, 1), (P.LNK_PORT_STATE 0, 2)]
theorem test_lnkWakeActive : active.passes 0x73 (host 1) [0] ∧ active.portEnabled 0 = true ∧ active.lnkPortState 0 ≠ portFallow := by decide
theorem test_lnkRetrain : (node).passes 0x74 (host 1) [0xF2] := by decide
def aligned : State := node [(P.LNK_LANE_STATE 7, laneAligned)]
theorem test_eyescanHealth : aligned.passes 0x71 (host 1) [7] ∧ laneAligned ≤ aligned.laneState 7 ∧ (aligned.lane 7).scan = none
    ∧ (aligned.lane 7).checking = false := by decide
theorem test_eyescanMap : aligned.passes 0x71 (host 1) [0x1F47] := by decide
theorem test_tstLoop : (node).passes 0xF0 (host 2) [0x21, 0] := by decide
theorem test_tstLoopOff : (node).passes 0xF0 (host 2) [0x00, 0] := by decide
theorem test_challenge : (node).passes 0x80 (host 1) [0] ∧ (node).lockedOut = false := by decide
def keyed : State := { node with mgt := { (node).mgt with nonce := some (4, secs 10), keys := [(2, { enrolled := true })] } }
def response : List Word := 0x21 :: 60 :: List.replicate 828 0
theorem test_response : keyed.passes 0x80 (host 830) response ∧ keyed.keyState 2 = 1 ∧ keyed.heldNonce = some 4 ∧ keyed.lockedOut = false := by decide +kernel
def session : State := { node with mgt := { (node).mgt with session := some { portal := 5, key := 2, until_ := 9 } } }
theorem test_close : session.passes 0x81 (host 0) [] := by decide
def anEntry : LogEntry := { code := 0x1105, unit := 0, severity := 1, time := 5, data0 := 1, data1 := 2, seq := 3 }
def logged : State := { node with mgt := { (node).mgt with log := [anEntry] } }
theorem test_log : logged.passes 0x82 (host 2) [3, 127] ∧ logged.mgt.log = [anEntry] := by decide
theorem test_cntRead : (node).passes 0x83 (host 2) [0x3F00, 0] := by decide
theorem test_cntSelect : (node).passes 0x83 (host 2) [0x3F01, 0x3001] ∧ Params.selectorGood 0x3001 = true := by decide
theorem test_cntClear : (node).passes 0x83 (host 2) [0x3F02, 0] := by decide
def image : List Word := 1 :: 16776960 :: 256 :: List.replicate 64 7
theorem test_fwWrite : (node).passes 0x84 (host 67) image ∧ (node).rdN P.MGT_BOOT_IMAGE = 0 ∧ (node).committing = false := by decide
theorem test_fwCommit : (node).passes 0x85 (host 1) [4] ∧ (node).rdN P.CAL_STATE ≠ 4 := by decide
theorem test_fwConfirm : (node [(P.MGT_BOOT_STATE, 1)]).passes 0x85 (host 1) [1] ∧ (node [(P.MGT_BOOT_STATE, 1)]).rdN P.MGT_BOOT_STATE = bootTrial := by decide
theorem test_fwKeys : (node).passes 0x85 (host 1) [2] := by decide
theorem test_measure : (node).passes 0x86 (host 9) (List.replicate 9 0) ∧ (node).mgt.attest = none := by decide
theorem test_cert : (node).passes 0x86 (host 1) [3] := by decide
theorem test_inject : (pair).passes 0xF1 (host 2) [0x52, 1000000] ∧ (pair).dieState 0 = dieInStep := by decide
theorem test_checkbit : (node).passes 0xF2 (host 5) [0, 4194303, 1, 0, 0] ∧ (node).wordOut (node).active 4194303 < 2
    ∧ (node).mem.test.region ≠ 4194303 / 8192 := by decide
def jumping : State := node [(P.TB_STATUS, 32)]
theorem test_jumpPermit : jumping.passes 0x43 (host 3) [0, 0, 0] ∧ jumping.jumpPending = true := by decide
def portal : State := { node with prt := { (node).prt with portal := true } }
theorem test_jumpSet : portal.passes 0x43 (host 3) [1, 704, 1] ∧ portal.ownSource = true ∧ portal.rdN P.TB_SRC = 0 ∧ portal.tb.jumpSet = none := by decide
def aRun : CalRun := { h := host 19, op := 0x30, scope := 0, nostore := true, started := 0, par := [], inputs := [], sources := [], skipped := [], shunt := none, todo := [], pointFrom := 0 }
def running : State := { (node [(P.CAL_STATE, 2)]) with cal := { (node).cal with run := some aRun } }
theorem test_calAbortRunning : running.passes 0x31 (host 0) [] ∧ running.cal.run = some aRun ∧ running.calStateOf ≠ calStoring := by decide
theorem test_flits : (node).passes 0xF0 (host 2) [0x1C, 1000000] := by decide
theorem test_flitsOff : (node).passes 0xF0 (host 2) [0x03, 9] := by decide
def keyedNoNonce : State := { node with mgt := { (node).mgt with keys := [(2, { enrolled := true })] } }
theorem test_responseNoNonce : keyedNoNonce.passes 0x80 (host 830) response ∧ keyedNoNonce.keyState 2 = 1 ∧ keyedNoNonce.heldNonce = none
    ∧ keyedNoNonce.lockedOut = false := by decide +kernel
def unkeyed : State := { node with mgt := { (node).mgt with nonce := some (4, secs 10) } }
theorem test_responseUnsigned : unkeyed.passes 0x80 (host 2) [0xF1, 86400] ∧ unkeyed.enrolledAny = false ∧ unkeyed.lockedOut = false
    ∧ unkeyed.heldNonce = some 4 := by decide
theorem test_logEmpty : (node).passes 0x82 (host 2) [3, 257] ∧ (node).mgt.persistLog = [] := by decide
def borrowed : State := (node).setTest { (node).mem.test with phase := .march, region := 1 }
theorem test_checkbitBorrowed : borrowed.passes 0xF2 (host 5) [0, 8192, 1, 0, 0]
    ∧ (regionsOf 8192 1).find? ((regionsOf 8192 1).foldl (fun s v => s.touch v true) borrowed.settle).blocked = some 8192 := by decide
def aPlot : Plot := { id := 3, base := 0, size := 1, kind := 2, kinds := 0xFF, weights := [] }
def plotted : State := { node with mem := { (node).mem with plots := [aPlot] } }
theorem test_checkbitLine : plotted.passes 0xF2 (host 5) [49, 16383, 1, 0, 0x0100] ∧ plotted.plot? 3 = some aPlot
    ∧ plotted.lineOut plotted.active 16383 < 2 := by decide
theorem test_injectWithdraw : (pair).passes 0xF1 (host 2) [0x30, 0] ∧ (pair).dieState 0 = dieInStep := by decide
end HostCommands

/-! ### What the hypotheses of the statements admit: Slots -/

namespace Slots
def packetBytes : List Byte := let b := bytesOf64 [BitVec.ofNat 64 (65536 * 3), 0]; b ++ leBytes 4 (crc32c b).toNat
def inbox (bs : List Byte) : State := { node with clp := { (node).clp with inbox := [{ arrival := .host, issuer := 1, auth := false, bytes := bs }] } }
theorem test_receipt : 20 ≤ packetBytes.length ∧ packetCrcGood packetBytes = true ∧ (inbox packetBytes).takesCommands = true := by decide +kernel
theorem test_receiptBad : packetCrcGood (packetBytes.drop 1 ++ [9]) = false := by decide +kernel
def newNamed : State := { node with cmd := { newId := some (5, 0) } }
theorem test_newId : (0 : Nat) ≤ newNamed.now := by decide
def dueWrite : Outstanding := { h := { host 3 with sched := true }, op := 0x11, p := [1, 0x01060000, 300000], due := some 0, last := none }
def acting : State := { node with cmd := { outstanding := [dueWrite] } }
theorem test_acts : acting.cmd.newId = none ∧ acting.dueCommand actingOps = some dueWrite ∧ acting.commitBefore 0 = false
    ∧ acting.earlierFirst dueWrite.h 0 = false := by decide
def snapping : State := { node with cmd := { snapWait := some { h := host 2, mask := 2, clear := true, instant := 0 } } }
theorem test_latch : snapping.commitBefore 0 = false ∧ snapping.earlierFirst (host 2) 0 = false := by decide
def linked (d : Nat) : State := node.setSent d 4 [.marker 0, .marker 1]
theorem test_flitBad : (linked 0).lnk.flits = [] := by decide
theorem test_flit : (linked 0).processes 0 = true := by decide
theorem test_flitIdle : (linked 1).processes 1 = false := by decide
theorem test_boundary : (node).red.slot < 5 := by decide
def marked (n : Nat) : State := (sources.take n).foldl (fun s src => s.setGot 0 src [.marker 0]) node
theorem test_process : (marked 5).dieState 0 = dieInStep ∧ (marked 5).awaitsOther 0 = false ∧ (marked 5).red.done ≤ (marked 5).nextSlot 0
    ∧ (marked 5).absent 0 0 = [] := by decide
theorem test_markerTimeout : (marked 4).absent 0 0 = [4] ∧ (marked 4).dieState 1 ≠ dieInStep := by decide
def aCapture : Capture := { id := 1, instant := 0, pre := 0, post := 0, cause := 0, seqs := 0, radius := 0, distance := 0, flags := 0, groups := [], dir := 0, closed := true, end_ := 0 }
def capturing : State := { node with trg := { (node).trg with captures := [aCapture] } }
theorem test_captureEnd : capturing.trg.captures.find? capturing.complete = some aCapture := by decide
def windrowing : State := node [(P.TRG_WR_PERIOD 1, 1000), (P.TRG_WR_EN 5, 2), (P.TRG_GRP_STATE 1, 1)]
theorem test_windrow : ((windrowing.at_ (msec 1)).windrowEnds 1 1000000).find? (fun e => !windrowing.trg.events.contains e) = some (.windrow 1 1000000) := by decide
theorem test_windrow_closes : windrowing.endingWindrow 1 1000000 = some { from_ := 0, to_ := 1000000 }
    ∧ 1000 * ((windrowing.windrowTaken 1 { from_ := 0, to_ := 1000000 }).windrowView { from_ := 0, to_ := 1000000 }).rdN (P.TRG_WR_PERIOD 1) = 1000000
    ∧ 0 / 1000000 % (windrowing.windrowTaken 1 { from_ := 0, to_ := 1000000 }).windrowDivisor 0 = 0 := by decide +kernel
def thinned : State := node [(P.TRG_WR_PERIOD 1, 1000), (P.TRG_WR_EN 5, 2), (P.TRG_GRP_STATE 1, 1), (P.TRG_WR_THR_DIV, 3)]
theorem test_windrow_skipped : thinned.endingWindrow 1 2000000 = some { from_ := 1000000, to_ := 2000000 }
    ∧ 1000000 / 1000000 % (thinned.windrowTaken 1 { from_ := 1000000, to_ := 2000000 }).windrowDivisor 1000000 ≠ 0 := by decide +kernel
def opened : OpenRecord := { entries := [[1]], opened := 0, first := 0, last := 0 }
def records : State := { node with recs := { (node).recs with stp := some opened, itv := some opened } }
theorem test_stpAge : opened.opened + 1000 * records.rdN P.REC_STP_AGE ≤ 1000000 * 1000 := by decide
theorem test_itvAge : opened.opened + 1000 * records.rdN P.REC_ITV_AGE ≤ 1000000 * 1000 := by decide
theorem test_beacon : (node).running = true := by decide
theorem test_hsk : (node [(P.REC_HSK_PERIOD, 1), (P.REC_HSK_COUNT, 1), (P.REC_HSK_ADDR 0, 0x01060000)]).commitDue = false := by decide
def behind (n : Nat) : State := { marked n with red := { (marked n).red with done := 5 } }
theorem test_passes : (behind 5).processes 0 = true ∧ (behind 5).awaitsOther 0 = false ∧ (behind 5).nextSlot 0 < (behind 5).red.done
    ∧ (behind 5).absent 0 0 = [] := by decide
theorem test_passesLate : (behind 4).processes 0 = true ∧ (behind 4).absent 0 0 ≠ [] ∧ (behind 4).nextSlot 0 = 0 := by decide
end Slots

/-! ### What the hypotheses of the statements admit: Inputs -/

namespace Inputs
def scanning : State := { node [(P.ADC_GRP_STATE 1, 2), (P.FE_IN_MODE 4, 1), (P.ADC_GRP_PERIOD 1, 1000)] with fe := { (node).fe with groups := [(1, { next := some (4, 0) })] } }
theorem test_conversion : scanning.grpState 1 = grpScanning ∧ (scanning.group 1).finishing = none ∧ scanning.nextRun 1 = some (4, 0)
    ∧ ns (0 + scanning.convTime 1) ≤ msec 1 := by decide
def finishing : State := { scanning with fe := { (node).fe with groups := [(1, { finishing := some (4, 0) })] } }
theorem test_conversionOld : (finishing.group 1).finishing = some (4, 0) ∧ (finishing.group 1).leaving = none
    ∧ ns (0 + ({ finishing with par := finishing.cmd.oldPar } : State).convTime 1) ≤ msec 1 := by decide
def leavingInput : State := { scanning with fe := { (node).fe with groups := [(1, { finishing := some (4, 0), leaving := some (4, 2, {}) })] } }
theorem test_conversionLeft : (leavingInput.group 1).finishing = some (4, 0) ∧ (leavingInput.group 1).leaving = some (4, 2, {})
    ∧ ns (0 + ({ leavingInput with par := leavingInput.cmd.oldPar } : State).convTime 1) ≤ msec 1 := by decide
theorem test_refMonitor : scanning.grpState 1 = grpScanning := by decide
def aligning : State := node [(P.ADC_GRP_STATE 1, 1)]
theorem test_s0 : aligning.grpState 1 = grpAligning ∧ (aligning.group 1).first ≤ aligning.now := by decide
def idleInput : State := node [(P.ADC_GRP_STATE 1, 3), (P.FE_IN_MODE 4, 1), (P.FE_IN_STATE 4, 2), (P.ADC_SCAN_MASK 1, 1)]
def sampling : Nat := ns (idleInput.memberOffset 1 4 + idleInput.acqTime 1)
theorem test_stl : idleInput.grpState 1 = grpStopped ∧ idleInput.inState 4 ≠ inOff ∧ (idleInput.at_ sampling).onGrid 4 (sampling / 4096) = true
    ∧ bitOf (idleInput.input 4).word 2 = false := by decide
def heldInput : State := { node [(P.ADC_GRP_STATE 1, 2), (P.FE_IN_MODE 4, 1), (P.FE_IN_STATE 4, BitVec.ofNat 32 inHeld), (P.ADC_SCAN_MASK 1, 1)] with fe := { (node).fe with inputs := [(4, { word := 4, wordAt := 1 })] } }
theorem test_stlHeld : heldInput.inState 4 = inHeld ∧ heldInput.inState 4 ≠ inOff ∧ (heldInput.at_ sampling).onGrid 4 (sampling / 4096) = true
    ∧ bitOf (heldInput.input 4).word 2 = true ∧ (heldInput.input 4).wordAt ≠ sampling / 4096 := by decide
def confirming : State := { node [(P.FE_IN_STATE 4, inConfirming)] with fe := { (node).fe with inputs := [(4, { confFrom := some 0 })] } }
theorem test_wb : confirming.inState 4 = inConfirming ∧ (confirming.input 4).confFrom = some 0 ∧ 0 + 10000 ≤ (confirming.at_ (ns 10000)).now := by decide
def confirming5 : State := { confirming with par := Sparse.put confirming.par (P.FE_IN_MODE 4) 5 }
theorem test_wbMode5 : confirming5.inState 4 = inConfirming ∧ (confirming5.input 4).confFrom = some 0 ∧ 0 + 10000 ≤ (confirming5.at_ (ns 10000)).now
    ∧ confirming5.rdN (P.FE_IN_MODE 4) = 5 := by decide
def charged : State := { node [(P.FE_IN_MODE 4, 2), (P.FE_QRST_MODE 4, 0)] with fe := { (node).fe with inputs := [(4, { resetDue := some 0 })] } }
theorem test_qclose : charged.rdN (P.FE_IN_MODE 4) = 2 ∧ charged.rdN (P.FE_QRST_MODE 4) = 0 ∧ (charged.input 4).closed = none
    ∧ (charged.input 4).resetDue = some 0 ∧ 0 ≤ charged.now := by decide
def timedSwitch : State := node [(P.FE_IN_MODE 4, 2), (P.FE_QRST_MODE 4, 1), (P.FE_QRST_PERIOD 4, 10)]
theorem test_qcloseTimed : timedSwitch.rdN (P.FE_IN_MODE 4) = 2 ∧ timedSwitch.rdN (P.FE_QRST_MODE 4) = 1 ∧ (timedSwitch.input 4).closed = none
    ∧ (timedSwitch.at_ (ns 20000)).now % (1000 * timedSwitch.rdN (P.FE_QRST_PERIOD 4)) = 0 := by decide
def closedSwitch : State := { node with fe := { (node).fe with inputs := [(4, { closed := some 0 })] } }
theorem test_qopen : (closedSwitch.input 4).closed = some 0 ∧ 0 + 100 ≤ (closedSwitch.at_ (ns 100)).now := by decide
theorem test_clamp : (((node).input 4).clamps.get 1).since = none := by decide
def clamped : State := { node with fe := { (node).fe with inputs := [(4, { clamps := (({} : InputState).clamps).set 1 (({} : Spell).begin 0 true) })] } }
theorem test_clampOn : ((clamped.input 4).clamps.get 1).since.isSome = true := by decide
theorem test_unclamp : ((clamped.input 4).clamps.get 1).since.isSome = true := by decide
def ranged : State := node [(P.FE_IN_MODE 4, 1), (P.FE_IN_RANGE 4, 4)]
theorem test_vanLow : (Sparse.get {} ranged.fe.vanLow 0 : Spell).since = none ∧ (inputsOf 0).any ranged.onRange4 = true := by decide
def reversing : State := node [(P.FE_EXC_REV_PERIOD 3, 2000), (P.FE_EXC_CURRENT 3, 5)]
theorem test_reversalOdd : 500 * reversing.rdN (P.FE_EXC_REV_PERIOD 3) ≠ 0
    ∧ (reversing.at_ (msec 1)).now % (500 * reversing.rdN (P.FE_EXC_REV_PERIOD 3)) = 0 ∧ (reversing.at_ (msec 1)).commitDue = false
    ∧ (reversing.at_ (msec 1)).now / 1000000 % 2 = 1 := by decide
theorem test_reversalEven : 500 * reversing.rdN (P.FE_EXC_REV_PERIOD 3) ≠ 0
    ∧ (reversing.at_ (msec 2)).now % (500 * reversing.rdN (P.FE_EXC_REV_PERIOD 3)) = 0 ∧ (reversing.at_ (msec 2)).commitDue = false
    ∧ (reversing.at_ (msec 2)).now / 1000000 % 2 = 0 := by decide
theorem test_compliance : reversing.rdN (P.FE_EXC_CURRENT 3) ≠ 0 ∧ (reversing.source 3).compliance.since = none := by decide
def sweeping : State := node [(P.FE_VW_INTERVAL 3, 1)]
theorem test_sweep : 1000000 * sweeping.rdN (P.FE_VW_INTERVAL 3) ≠ 0 ∧ 1000 * sweeping.rdN (P.FE_VW_PHASE 3) ≤ sweeping.now
    ∧ (sweeping.now - 1000 * sweeping.rdN (P.FE_VW_PHASE 3)) % (1000000 * sweeping.rdN (P.FE_VW_INTERVAL 3)) = 0 ∧ (sweeping.source 3).sweepAt ≠ some 0
    ∧ sweeping.commitDue = false
    ∧ (sweeping.calSteers 3 || (sweeping.namedBy 3).any (fun n => sweeping.inState n == inBroken || sweeping.inState n == inHeld)) = false := by decide
def brokenSweep : State := (node [(P.FE_VW_INTERVAL 3, 1), (P.FE_IN_MODE 4, 5), (P.FE_IN_EXC 4, 3), (P.FE_IN_STATE 4, BitVec.ofNat 32 inBroken)]).setSource 3 { released := false }
theorem test_sweepSkipped : 1000000 * brokenSweep.rdN (P.FE_VW_INTERVAL 3) ≠ 0 ∧ 1000 * brokenSweep.rdN (P.FE_VW_PHASE 3) ≤ brokenSweep.now
    ∧ (brokenSweep.now - 1000 * brokenSweep.rdN (P.FE_VW_PHASE 3)) % (1000000 * brokenSweep.rdN (P.FE_VW_INTERVAL 3)) = 0
    ∧ (brokenSweep.source 3).sweepAt ≠ some 0 ∧ brokenSweep.commitDue = false
    ∧ (brokenSweep.calSteers 3 || (brokenSweep.namedBy 3).any (fun n => brokenSweep.inState n == inBroken || brokenSweep.inState n == inHeld)) = true := by decide
def cycle (x : SourceState) : State := { sweeping with fe := { sweeping.fe with sources := [(3, x)] } }
theorem test_sweepEnd : ((cycle { sweepAt := some 0 }).source 3).sweepAt = some 0 ∧ 0 + 1000 * sweeping.rdN (P.FE_VW_SWEEP 3) ≤ secs 60 / 4096 := by decide
theorem test_listen : ((cycle { waitFrom := some 0 }).source 3).waitFrom = some 0 ∧ 0 + 1000 * sweeping.rdN (P.FE_VW_WAIT 3) ≤ secs 60 / 4096 := by decide
theorem test_listenEnd : ((cycle { listenFrom := some 0 }).source 3).listenFrom = some 0
    ∧ 0 + 1000 * sweeping.rdN (P.FE_VW_LISTEN 3) ≤ secs 60 / 4096 := by decide
end Inputs

/-! ### What the hypotheses of the statements admit: Timing -/

namespace Timing
def edge (st : Nat) (x : TimingState) : State := { node [(P.TMR_CMP_STATE 4, BitVec.ofNat 32 st)] with tmr := { (node).tmr with inputs := [(4, x)] } }
theorem test_crossUp : (edge 1 {}).rdN (P.TMR_CMP_STATE 4) = 1 ∧ ((edge 1 {}).timing 4).aboveU = false ∧ ((edge 1 {}).timing 4).cross = none
    ∧ ((edge 1 {}).timing 4).holdEnd = none ∧ ((edge 1 {}).timing 4).levelAt ≠ some (edge 1 {}).time := by decide
theorem test_crossDown : ((edge 2 { belowL := false }).timing 4).belowL = false ∧ ((edge 2 { belowL := false }).timing 4).cross = none
    ∧ ((edge 2 { belowL := false }).timing 4).holdEnd = none ∧ (edge 2 { belowL := false }).rdN (P.TMR_CMP_STATE 4) = 2
    ∧ ((edge 2 { belowL := false }).timing 4).levelAt ≠ some 0 := by decide
theorem test_crossOff : ((edge 0 {}).timing 4).holdEnd = none ∧ ((edge 0 {}).timing 4).cross = none ∧ (edge 0 {}).rdN (P.TMR_CMP_STATE 4) = 0 := by decide
def crossing : TimingState := { cross := some (0, true), aboveU := true }
theorem test_glitch : ((edge 1 crossing).timing 4).cross = some (0, true) ∧ ((edge 1 crossing).timing 4).holdEnd = none
    ∧ 1 < 0 + ns ((edge 1 crossing).rdN (P.TMR_QUAL 4)) ∧ (edge 1 crossing).rdN (P.TMR_CMP_STATE 4) ≠ 0
    ∧ ((edge 1 crossing).timing 4).levelAt ≠ some 1 := by decide
def relevelled : State := edge 1 { levelAt := some 0 }
theorem test_crossLevel : (relevelled.timing 4).cross = none ∧ (relevelled.timing 4).holdEnd = none ∧ relevelled.rdN (P.TMR_CMP_STATE 4) ≠ 0
    ∧ (relevelled.timing 4).levelAt = some relevelled.time := by decide
theorem test_accept : ((edge 1 crossing).timing 4).cross = some (0, true) ∧ 0 + ns ((edge 1 crossing).rdN (P.TMR_QUAL 4)) ≤ msec 1 := by decide
theorem test_holdoff3 : ((edge 3 { holdEnd := some 0 }).timing 4).holdEnd = some 0 ∧ (edge 3 { holdEnd := some 0 }).rdN (P.TMR_CMP_STATE 4) = 3
    ∧ 0 ≤ (edge 3 { holdEnd := some 0 }).time := by decide
theorem test_holdoff4 : ((edge 4 { holdEnd := some 0 }).timing 4).holdEnd = some 0 ∧ (edge 4 { holdEnd := some 0 }).rdN (P.TMR_CMP_STATE 4) = 4
    ∧ 0 ≤ (edge 4 { holdEnd := some 0 }).time := by decide
def made : StampMade := { done := 0, stamp := 8192, crossing := 0, word := 1024, gap := false }
def withMade : State := edge 2 { making := [made] }
theorem test_stampWord : (withMade.timing 4).making = [made] ∧ made.done ≤ withMade.time := by decide
def buffered : State := edge 2 { buffer := [(0, 2, 1024)] }
theorem test_arbiter : Sparse.get (127, 0) buffered.tmr.stampLast 0 = (127, 0) ∧ ((0 : Nat) = 0 ∨ 0 + 64000 ≤ (buffered.at_ 1).time)
    ∧ rotation 0 127 (fun n => match ((buffered.at_ 1).timing n).buffer with | [] => false | w :: _ => decide (w.1 < 1)) = some 4
    ∧ (buffered.timing 4).buffer = [(0, 2, 1024)] := by decide
def aSet : ItvSet := { opened := 0, n := 1, s1 := 4096, s2 := 16777216, least := 4096, most := 4096, first := 0, mode := 0, prescale := 0 }
def intervals (x : TimingState) : State := { edge 2 x with par := Sparse.put (edge 2 x).par (P.TMR_ITV_REC 4) 0 }
theorem test_setTimeout : ((intervals { set := some aSet }).timing 4).set = some aSet
    ∧ 0 + msec ((intervals { set := some aSet }).rdN (P.TMR_ITV_TIMEOUT 4)) ≤ secs 100 := by decide
def delaying : State := { node [(P.TMR_ITV_MODE 4, 3)] with tmr := { (node).tmr with inputs := [(4, { start := some 0 })] } }
theorem test_windowClose : (((delaying.at_ (secs 1)).takeStarts 4).timing 4).start = some 0
    ∧ ((delaying.at_ (secs 1)).takeStarts 4).rdN (P.TMR_ITV_MODE 4) = 3 ∧ ns (delaying.rdN (P.TMR_ITV_WINDOW 4)) ≤ secs 1
    ∧ ((delaying.at_ (secs 1)).takeStarts 4).settled 4 (ns (delaying.rdN (P.TMR_ITV_WINDOW 4))) = true := by decide
def closedSet : ItvClosed := { set := aSet, reason := 0, close := 4096 }
theorem test_result : closedSet.close ≤ secs 1 ∧ ((intervals { closed := [closedSet] }).at_ (secs 1)).settled 4 4096 = true ∧ 0 < closedSet.set.n
    ∧ ((intervals { closed := [closedSet] }).timing 4).closed = [closedSet] := by decide
def emptySet : ItvClosed := { set := { aSet with n := 0, s1 := 0, s2 := 0, least := 0, most := 0 }, reason := 0, close := 4096 }
theorem test_resultEmpty : emptySet.close ≤ secs 1 ∧ ((intervals { closed := [emptySet] }).at_ (secs 1)).settled 4 4096 = true ∧ emptySet.set.n = 0
    ∧ ((intervals { closed := [emptySet] }).timing 4).closed = [emptySet] := by decide
def recordedItv : State := { intervals { closed := [closedSet] } with par := Sparse.put (intervals { closed := [closedSet] }).par (P.TMR_ITV_REC 4) 1 }
theorem test_resultSent : closedSet.close ≤ secs 1 ∧ (recordedItv.at_ (secs 1)).settled 4 4096 = true ∧ 0 < closedSet.set.n
    ∧ (recordedItv.timing 4).closed = [closedSet] ∧ recordedItv.rdN (P.TMR_ITV_REC 4) = 1 := by decide
def aHit : Hit := { instant := 0, input := 4, prim := 0, line := 0, done := 0 }
theorem test_hit : ((edge 2 { hits := [aHit] }).timing 4).hits.find? (fun h => decide (h.done ≤ (edge 2 { hits := [aHit] }).time)) = some aHit
    ∧ (edge 2 { hits := [aHit] }).timing 4 = { hits := [aHit] } := by decide
def fullHits : TimingState := { hits := [aHit], hitBuffer := [aHit, aHit, aHit, aHit] }
theorem test_hitLost : ((edge 2 fullHits).timing 4).hits.find? (fun h => decide (h.done ≤ (edge 2 fullHits).time)) = some aHit
    ∧ 4 ≤ ((edge 2 fullHits).timing 4).hitBuffer.length := by decide
theorem test_hitArbiter : Sparse.get (127, 0) (edge 2 { hitBuffer := [aHit] }).tmr.hitLast 0 = (127, 0)
    ∧ ((0 : Nat) = 0 ∨ 0 + 32000 ≤ ((edge 2 { hitBuffer := [aHit] }).at_ 1).time)
    ∧ rotation 0 127 (fun n => match (((edge 2 { hitBuffer := [aHit] }).at_ 1).timing n).hitBuffer with | [] => false | h :: _ => decide (h.done < 1)) = some 4
    ∧ ((edge 2 { hitBuffer := [aHit] }).timing 4).hitBuffer = [aHit] := by decide
def pulses : Schedule := { first := 128, period := 1280, width := 64, count := 1, pol := 0 }
def outputRun (st : Nat) (x : TpoState) : State := { node [(P.TMR_TPO_STATE 5, BitVec.ofNat 32 st)] with tmr := { (node).tmr with tpos := Sparse.set {} [] 5 x } }
theorem test_active : ((outputRun 1 { schedule := some pulses }).tpo 5).schedule = some pulses ∧ 32 * (pulses.first + pulses.n * pulses.period) ≤ 4096
    ∧ pulses.notBefore ≤ 128 ∧ pulses.stepFrom ≤ 128 := by decide
def held : Schedule := { pulses with count := 0, notBefore := 129 }
theorem test_overlap : ((outputRun 2 { schedule := some held }).tpo 5).schedule = some held ∧ 32 * (held.first + held.n * held.period) ≤ 4096
    ∧ 128 < held.notBefore := by decide
def stepped : Schedule := { pulses with stepFrom := 129 }
theorem test_skipped : ((outputRun 2 { schedule := some stepped }).tpo 5).schedule = some stepped
    ∧ 32 * (stepped.first + stepped.n * stepped.period) ≤ 4096 ∧ stepped.notBefore ≤ 128 ∧ 128 < stepped.stepFrom := by decide
theorem test_lastEnds : (let r := ((outputRun 2 { schedule := some pulses, pulseEnd := some 1, ending := true }).at_ 32); let r := (r.startedBy (0x200 + 5) (inputsOf 0)).foldl State.takeStarts r; let x := r.tpo 5; x.pulseEnd = some 1
    ∧ 32 * 1 ≤ r.time ∧ x.ending = true) := by decide
theorem test_disarmedEnds : (let r := ((outputRun 2 { pulseEnd := some 1, disarmed := true }).at_ 32); let r := (r.startedBy (0x200 + 5) (inputsOf 0)).foldl State.takeStarts r; let x := r.tpo 5; x.pulseEnd = some 1
    ∧ 32 * 1 ≤ r.time ∧ x.ending = false ∧ x.disarmed = true) := by decide
theorem test_pulseEnds : (let r := ((outputRun 2 { schedule := some pulses, pulseEnd := some 1 }).at_ 32); let r := (r.startedBy (0x200 + 5) (inputsOf 0)).foldl State.takeStarts r; let x := r.tpo 5; x.pulseEnd = some 1
    ∧ 32 * 1 ≤ r.time ∧ x.ending = false ∧ x.disarmed = false) := by decide
end Timing

/-! ### What the hypotheses of the statements admit: MemoryAlarm -/

namespace MemoryAlarm
theorem test_refresh : (node).mem.selfRefresh = false
    ∧ ((node.at_ (secs 1)).memDie 0).lastRefresh + ns (refreshNs ((node).rdN (P.RED_GRN_BAND 0))) ≤ secs 1 := by decide
def awake : State := { node [(P.PWR_STATE, 1)] with mem := { (node).mem with granReady := true, selfRefresh := false } }
theorem test_processorTrap : isProcessor 6 = true ∧ mapped (({ master := 6, address := 0, kind := .write } : SramAccess).at_) .write = false := by decide
theorem test_processorGranary : isProcessor 6 = true ∧ mapped 0x100000040 .read = true
    ∧ ({ master := 6, address := 0x100000040, kind := .read } : SramAccess).gran? = some 64 := by decide
theorem test_processorRom : isProcessor 6 = true ∧ mapped 0x0 .read = true ∧ ({ master := 6, address := 0, kind := .read } : SramAccess).gran? = none
    ∧ ({ master := 6, address := 0, kind := .read } : SramAccess).word? = none := by decide
def lapEnd (granary : Bool) : State := awake.setGleaner 0 granary { next := if granary then granLines - 1 else sramWords - 1 }
theorem test_gleanLine : (let q := ((awake).at_ 1).settle; q.running = true ∧ q.gleanFits 0 true = true ∧ q.mem.selfRefresh = false
    ∧ q.mem.granReady = true ∧ q.time < (q.memDie 0).lastRefresh + ns (refreshNs (q.rdN (P.RED_GRN_BAND 0)))) := by decide
theorem test_gleanLap : (let q := ((lapEnd true).at_ 1).settle; q.running = true ∧ q.gleanFits 0 true = true ∧ q.mem.selfRefresh = false
    ∧ q.mem.granReady = true ∧ q.time < (q.memDie 0).lastRefresh + ns (refreshNs (q.rdN (P.RED_GRN_BAND 0)))) := by decide
theorem test_gleanWord : (let q := ((awake).at_ 1).settle; q.running = true ∧ q.gleanFits 0 false = true
    ∧ (((q.touch (q.gleaner 0 false).next false).blocked (q.gleaner 0 false).next || (q.touch (q.gleaner 0 false).next false).portBusy (q.gleaner 0 false).next) = false)) := by decide
theorem test_gleanWordLap : (let q := ((lapEnd false).at_ 1).settle; q.running = true ∧ q.gleanFits 0 false = true
    ∧ (((q.touch (q.gleaner 0 false).next false).blocked (q.gleaner 0 false).next || (q.touch (q.gleaner 0 false).next false).portBusy (q.gleaner 0 false).next) = false)) := by decide
theorem test_gleanRefresh : (let q := (awake.at_ (secs 1)).settle; q.running = true ∧ q.gleanFits 0 true = true ∧ q.mem.selfRefresh = false
    ∧ q.mem.granReady = true ∧ (q.memDie 0).lastRefresh + ns (refreshNs (q.rdN (P.RED_GRN_BAND 0))) ≤ q.time
    ∧ (q.memDie 0).lastRefresh < q.time) := by decide
def portTaken : State := { awake with mem := { awake.mem with portFree := [(0, 5, 1)] } }
theorem test_gleanBusy : (let q := (portTaken.at_ 1).settle; q.running = true ∧ q.gleanFits 0 false = true ∧ (q.touch 0 false).portBusy 0 = true) := by decide
def testing (mode : Nat) (x : SramTest) : State := ({ node [(P.PWR_STATE, 1)] with mem := { (node).mem with test := x } } : State).wrN P.SRM_TEST_MODE mode
theorem test_pace : (testing 1 {}).settle.running = true ∧ (testing 1 {}).settle.mem.test.phase = .idle ∧ (testing 1 {}).settle.rdN P.SRM_TEST_MODE ≠ 0
    ∧ (testing 1 {}).settle.now % (1000 * (testing 1 {}).settle.rdN P.SRM_TEST_PACE) = 0 ∧ (testing 1 {}).nextRegion 0 = some 32
    ∧ (testing 1 {}).rdN P.SRM_TEST_MODE ≠ 0 := by decide +kernel
theorem test_paceWrap : (testing 1 { region := 512 }).settle.running = true ∧ (testing 1 { region := 512 }).settle.mem.test.phase = .idle
    ∧ (testing 1 { region := 512 }).settle.rdN P.SRM_TEST_MODE ≠ 0
    ∧ (testing 1 { region := 512 }).settle.now % (1000 * (testing 1 { region := 512 }).settle.rdN P.SRM_TEST_PACE) = 0
    ∧ (testing 1 { region := 512 }).nextRegion 512 = none ∧ (testing 1 {}).nextRegion 0 = some 32 := by decide +kernel
theorem test_paceEnd : (testing 2 { region := 512 }).settle.running = true ∧ (testing 2 { region := 512 }).settle.mem.test.phase = .idle
    ∧ (testing 2 { region := 512 }).settle.rdN P.SRM_TEST_MODE ≠ 0
    ∧ (testing 2 { region := 512 }).settle.now % (1000 * (testing 2 { region := 512 }).settle.rdN P.SRM_TEST_PACE) = 0
    ∧ (testing 2 { region := 512 }).nextRegion 512 = none := by decide +kernel
theorem test_saveDone : (testing 1 { phase := .save }).mem.test.phase = .save := by decide
theorem test_saveAbandoned : (testing 1 { phase := .save, abandoned := true }).mem.test.phase = .save := by decide
theorem test_marchDone : (testing 1 { phase := .march }).mem.test.phase = .march := by decide
theorem test_restoreDone : (testing 1 { phase := .restore }).settle.mem.test.phase = .restore := by decide
def restoring : State := testing 1 { phase := .restore, region := 5, waiting := [{ master := 9, word := 40960, since := 0, work := .own }] }
theorem test_restoreWaits : (restoring.at_ (ns 100)).settle.mem.test.phase = .restore := by decide
theorem test_accessSave : isProcessor 1 = false ∧ ({ master := 1, address := 327680, kind := .write } : SramAccess).gran? = none
    ∧ ({ master := 1, address := 327680, kind := .write } : SramAccess).word? = some 40960 := by decide
theorem test_accessMarch : isProcessor 1 = false ∧ ({ master := 1, address := 327680, kind := .read } : SramAccess).gran? = none
    ∧ ({ master := 1, address := 327680, kind := .read } : SramAccess).word? = some 40960 := by decide
theorem test_accessRestore : isProcessor 1 = false ∧ ({ master := 1, address := 393216, kind := .read } : SramAccess).gran? = none
    ∧ ({ master := 1, address := 393216, kind := .read } : SramAccess).word? = some 49152 := by decide
def timed : State := (node).setSeq 3 { (node).seq 3 with timer := some 0 }
theorem test_seqTimer : (timed.seq 3).timer = some 0 := by decide
def automatic : State := (node).wrN (P.TRG_SEQ_AUTO 3) 1 |>.wrN (P.TRG_SEQ_STATE 3) 1
theorem test_seqAuto : automatic.rdN (P.TRG_SEQ_AUTO 3) ≠ 0 ∧ automatic.seqState 3 ≠ seqHalted
    ∧ ((automatic.at_ (secs 1)).seq 3).lastFire + 1000 ≤ (automatic.at_ (secs 1)).now := by decide
def flits (hops : Nat) : List Byte := [1, 0, 0, 0, 0, 0, 0, BitVec.ofNat 8 hops] ++ List.replicate 24 0
def announced (id hops : Nat) : State := { node [(P.SYS_NODE_ID, BitVec.ofNat 32 id)] with clp := { (node).clp with announces := [(0, flits hops)] } }
def quietNode (id : Nat) : State := node [(P.SYS_NODE_ID, BitVec.ofNat 32 id)]
theorem test_announceOn : (quietNode 5).knowsId 1 = false ∧ (quietNode 5).isRingPort 1 = true ∧ (announcementOf (flits 2)).id = 1
    ∧ 1 ≤ (announcementOf (flits 2)).hopsLeft := by decide
theorem test_announceEnd : (announcementOf (flits 0)).hopsLeft = 0 := by decide
theorem test_announceNoId : (quietNode 0).rdN P.SYS_NODE_ID = 0 := by decide
def seenId : State := (announced 5 0).noteId 1
theorem test_announceCopy : seenId.knowsId 1 = true := by decide
def flitWaiting : State := { node with alm := { (node).alm with flits := ⟨[(2, .ack 1 0)], []⟩ } }
theorem test_flitGood : takeFlit 2 (flitWaiting.alm.flits.get 0) = ([.ack 1 0], []) ∧ flitWaiting.inService 0 = true ∧ 0 = flitWaiting.active := by decide
def flitOther : State := { pair with alm := { (pair).alm with flits := ⟨[], [(2, .ack 1 0)]⟩ } }
theorem test_flitOther : takeFlit 2 (flitOther.alm.flits.get 1) = ([.ack 1 0], []) ∧ flitOther.inService 1 = true ∧ 1 ≠ flitOther.active := by decide
theorem test_flitBad : takeFlit 2 (flitWaiting.alm.flits.get 0) = ([.ack 1 0], []) ∧ flitWaiting.inService 0 = true := by decide
def localActive : State := { node with alm := { (node).alm with matrix := { (node).alm.matrix with localMask := 4 } } }
theorem test_refreshLine : bitOf localActive.alm.matrix.localMask 2 = true ∧ Sparse.get 0 localActive.alm.refreshed 2 + msec 1 ≤ secs 1 := by decide
def remoteHeld : State := { node with alm := { (node).alm with matrix := { (node).alm.matrix with remote := [{ origin := 9, line := 1, at_ := 0 }] } } }
theorem test_remoteGone : (remoteHeld.at_ (secs 1)).alm.matrix.remote.find? (fun e => decide (e.at_ + 3000000 ≤ (remoteHeld.at_ (secs 1)).now) && !(remoteHeld.at_ (secs 1)).refreshComes e) = some { origin := 9, line := 1, at_ := 0 } := by decide
def ackDue : Outstanding := { op := 0x07, h := host 1, p := [1], due := some 0 }
def ackWaiting : State := { node with cmd := { (node).cmd with outstanding := [ackDue] } }
theorem test_ackAct : ackWaiting.firstDue 0x07 = some ackDue ∧ ackWaiting.commitBefore 0 = false ∧ ackWaiting.earlierFirst (host 1) 0 = false := by decide
def pinOn : State := let a : State := node [(P.ALM_PIN_EN 0, 1)]; { a with pwr := { a.pwr with pinsOff := false, hardStop := false } }
theorem test_padFault : pinOn.alarmPin 0 = some false := by decide
def looped (ps : List (Nat × Word)) (x : Loop) : State := (node (ps ++ [(P.PWR_STATE, 1)])).setLoop 3 x
theorem test_loopDrive : (looped [] {}).loopSetpoint 3 = .drive 0 ∧ (looped [] {}).now % (1000 * (looped [] {}).rdN (P.ALM_LOOP_UPDATE 3)) = 0 := by decide
theorem test_loopFail0 : (looped [(P.ALM_LOOP_SRC 3, 1), (P.ALM_LOOP_INPUT 3, 4), (P.ALM_LOOP_FAIL 3, 0)] {}).now % (1000 * (looped [(P.ALM_LOOP_SRC 3, 1), (P.ALM_LOOP_INPUT 3, 4), (P.ALM_LOOP_FAIL 3, 0)] {}).rdN (P.ALM_LOOP_UPDATE 3)) = 0
    ∧ (looped [(P.ALM_LOOP_SRC 3, 1), (P.ALM_LOOP_INPUT 3, 4)] {}).loopSetpoint 3 = .fail
    ∧ (looped [(P.ALM_LOOP_SRC 3, 1), (P.ALM_LOOP_INPUT 3, 4), (P.ALM_LOOP_FAIL 3, 0)] {}).rdN (P.ALM_LOOP_FAIL 3) = 0 := by decide
theorem test_loopFail1 : (looped [(P.ALM_LOOP_SRC 3, 1), (P.ALM_LOOP_INPUT 3, 4), (P.ALM_LOOP_FAIL 3, 1)] {}).now % (1000 * (looped [(P.ALM_LOOP_SRC 3, 1), (P.ALM_LOOP_INPUT 3, 4), (P.ALM_LOOP_FAIL 3, 1)] {}).rdN (P.ALM_LOOP_UPDATE 3)) = 0
    ∧ (looped [(P.ALM_LOOP_SRC 3, 1), (P.ALM_LOOP_INPUT 3, 4), (P.ALM_LOOP_FAIL 3, 1)] {}).loopSetpoint 3 = .fail
    ∧ (looped [(P.ALM_LOOP_SRC 3, 1), (P.ALM_LOOP_INPUT 3, 4), (P.ALM_LOOP_FAIL 3, 1)] {}).rdN (P.ALM_LOOP_FAIL 3) = 1 := by decide
theorem test_loopFail2 : (looped [(P.ALM_LOOP_SRC 3, 1), (P.ALM_LOOP_INPUT 3, 4), (P.ALM_LOOP_FAIL 3, 2)] {}).now % (1000 * (looped [(P.ALM_LOOP_SRC 3, 1), (P.ALM_LOOP_INPUT 3, 4), (P.ALM_LOOP_FAIL 3, 2)] {}).rdN (P.ALM_LOOP_UPDATE 3)) = 0
    ∧ (looped [(P.ALM_LOOP_SRC 3, 1), (P.ALM_LOOP_INPUT 3, 4), (P.ALM_LOOP_FAIL 3, 2)] {}).loopSetpoint 3 = .fail
    ∧ (looped [(P.ALM_LOOP_SRC 3, 1), (P.ALM_LOOP_INPUT 3, 4), (P.ALM_LOOP_FAIL 3, 2)] {}).rdN (P.ALM_LOOP_FAIL 3) = 2 ∧ 2 ≤ 2 := by decide
def unready : State := State.reset.setLoop 3 { level := 5000 }
theorem test_loopHeld : (unready).now % (1000 * (unready).rdN (P.ALM_LOOP_UPDATE 3)) = 0 ∧ unready.loopSetpoint 3 = .held := by decide
theorem test_readback : ((looped [] { level := 4000 }).loop 3).lowSince = none ∧ ((looped [] { level := 4000 }).loop 3).highSince = none
    ∧ 4000 ≤ 4100 + 200 ∧ 4100 ≤ 4000 + 200 := by decide
theorem test_readbackLow : ((looped [] { level := 4000, on := true, lowSince := some 0 }).loop 3).lowSince = some 0 ∧ 0 + msec 10 ≤ secs 1
    ∧ ((looped [] { level := 4000, on := true, lowSince := some 0 }).loop 3).highSince = none
    ∧ ((looped [] { level := 4000, on := true, lowSince := some 0 }).loop 3).on = true ∧ 3000 + 200 < 4000 := by decide
theorem test_readbackHigh : ((looped [] { level := 4000, on := true, highSince := some 0 }).loop 3).highSince = some 0 ∧ 0 + msec 10 ≤ secs 1
    ∧ ((looped [] { level := 4000, on := true, highSince := some 0 }).loop 3).overSince = none ∧ 4000 + 200 < 5000 ∧ 5000 ≤ 24000 := by decide
theorem test_readbackOver : ((looped [] { level := 4000, on := true, highSince := some 0, overSince := some 0 }).loop 3).overSince = some 0
    ∧ 0 + msec 10 ≤ secs 1 ∧ ((looped [] { level := 4000, on := true, highSince := some 0, overSince := some 0 }).loop 3).highSince.isSome = true
    ∧ ((looped [] { level := 4000, on := true, highSince := some 0, overSince := some 0 }).loop 3).retryAt = none ∧ 24000 < 31000 := by decide
theorem test_retry : ((looped [] { retryAt := some 0 }).loop 3).retryAt = some 0 := by decide
end MemoryAlarm

/-! ### What the hypotheses of the statements admit: Redundancy -/

namespace Redundancy
def item (k : Nat) : HeldItem := { slot := k, order := k, item := .digest k 0 0 0 ⟨0, 0⟩ }
def sending : State := (pair).setDie 0 { (pair).die 0 with out := [item 3] }
theorem test_compareHeld : (sending.die 0).out = [item 3] := by decide
def waiting0 : State := (pair).setDie 0 { (pair).die 0 with held := [item 3] }
def waiting1 : State := (pair).setDie 1 { (pair).die 1 with held := [item 3] }
theorem test_missing1 : waiting0.red.mismatch = none
    ∧ ((waiting0.at_ (secs 1)).die 0).held.find? (fun x => decide (x.arrivedAt + usec 4 ≤ secs 1)) = some (item 3) := by decide
theorem test_missing0 : waiting1.red.mismatch = none ∧ ((waiting1.at_ (secs 1)).die 0).held.find? (fun x => decide (x.arrivedAt + usec 4 ≤ secs 1)) = none
    ∧ ((waiting1.at_ (secs 1)).die 1).held.find? (fun x => decide (x.arrivedAt + usec 4 ≤ secs 1)) = some (item 3) := by decide
def arbitrating (m : Mismatch) : State := { pair with red := { (pair).red with mismatch := some m } }
def open_ : Mismatch := { kind := 1, slot := 3, at_ := 0 }
theorem test_checkFree : (arbitrating open_).red.mismatch = some open_ ∧ open_.checks.get 1 = none := by decide
theorem test_checkNone : (arbitrating open_).red.mismatch = some open_ ∧ open_.checks.get 1 = none := by decide
theorem test_checkAgain : ({ open_ with checks := ⟨some 3, none⟩ } : Mismatch).checks.get 0 = some 3 ∧ 3 ≠ 0 := by decide
theorem test_checkZero : ({ open_ with checks := ⟨some 0, none⟩ } : Mismatch).checks.get 0 = some 0 := by decide
theorem test_claim0 : ({ open_ with checks := ⟨some 0, none⟩ } : Mismatch).checks.get 0 = some 0
    ∧ (arbitrating { open_ with checks := ⟨some 0, none⟩ }).silent 0 = false
    ∧ (arbitrating { open_ with checks := ⟨some 0, none⟩ }).time ≤ ({ open_ with checks := ⟨some 0, none⟩ } : Mismatch).at_ + usec 20 := by decide
theorem test_claimBoth : ({ open_ with checks := ⟨some 2, some 0⟩, claims := ⟨none, some 127⟩ } : Mismatch).checks.get 0 = some 2
    ∧ (arbitrating { open_ with checks := ⟨some 2, some 0⟩, claims := ⟨none, some 127⟩ }).silent 0 = false
    ∧ (arbitrating { open_ with checks := ⟨some 2, some 0⟩, claims := ⟨none, some 127⟩ }).time ≤ ({ open_ with checks := ⟨some 2, some 0⟩, claims := ⟨none, some 127⟩ } : Mismatch).at_ + usec 20 := by decide
theorem test_arbTimeout : open_.at_ + usec 20 ≤ secs 1 := by decide
def returning (pref : Nat) : State := let a : State := pair [(P.RED_ACTIVE, 1 - BitVec.ofNat 32 pref), (P.RED_PREF, BitVec.ofNat 32 pref)]; a.setDie pref { a.die pref with preferAt := 1 }
theorem test_revert : (let r := (returning 1).at_ (secs 1); r.now % 1000 = 0 ∧ r.red.mismatch = none ∧ r.dieState 0 = dieInStep ∧ r.dieState 1 = dieInStep
    ∧ r.winner = 1 ∧ r.active = 0) := by decide
def forcedOver : State := let a : State := pair; { a with red := { a.red with forced := some 1 } }
theorem test_forcedMove : (let r := (forcedOver).at_ 0; r.now % 1000 = 0 ∧ r.red.mismatch = none ∧ r.dieState 0 = dieInStep ∧ r.dieState 1 = dieInStep
    ∧ r.winner = 1 ∧ r.active = 0) := by decide
def die1 (st : Nat) (x : DieState) : State := (node [(P.RED_DIE_STATE 1, BitVec.ofNat 32 st)]).setDie 1 x
theorem test_selftestPass : (die1 dieSelftest { testCmd := some (host 1), failures := 2 }).dieState 1 = dieSelftest
    ∧ ((die1 dieSelftest { testCmd := some (host 1), failures := 2 }).die 1).retryAt = none
    ∧ (die1 dieSelftest { testCmd := some (host 1), failures := 2 }).dieState 1 = dieSelftest := by decide
theorem test_selftestFail : (die1 dieSelftest {}).dieState 1 = dieSelftest ∧ ((die1 dieSelftest {}).die 1).retryAt = none
    ∧ 0 + 1 < (die1 dieSelftest {}).rdN P.RED_RETRY_MAX := by decide
theorem test_selftestFailed : (die1 dieSelftest { failures := 99 }).dieState 1 = dieSelftest ∧ ((die1 dieSelftest { failures := 99 }).die 1).retryAt = none
    ∧ (die1 dieSelftest {}).rdN P.RED_RETRY_MAX ≤ 99 + 1 := by decide
theorem test_selftestAgain : ((die1 dieSelftest { retryAt := some 0, testStart := 9 }).die 1).retryAt = some 0
    ∧ (die1 dieSelftest { retryAt := some 0, testStart := 9 }).dieState 1 = dieSelftest := by decide
theorem test_syncState : (die1 dieSyncing {}).syncing = some 1 ∧ ((die1 dieSyncing {}).die 1).syncFrom = none
    ∧ ((die1 dieSyncing {}).die 1).syncStore = false := by decide
theorem test_syncStore : ((die1 dieSyncing { syncFrom := some 0 }).at_ (secs 99999)).syncing = some 1
    ∧ ((((die1 dieSyncing { syncFrom := some 0 }).at_ (secs 99999)).die 1).syncFrom = some 0
    ∧ 0 + ((die1 dieSyncing { syncFrom := some 0 }).at_ (secs 99999)).syncCopyNs 1 ≤ ((die1 dieSyncing { syncFrom := some 0 }).at_ (secs 99999)).now
    ∧ (((die1 dieSyncing { syncFrom := some 0 }).at_ (secs 99999)).die 1).syncRing = false) := by decide
theorem test_syncStoreLast : ((die1 dieSyncing { syncFrom := some 0, syncRing := true }).at_ (secs 99999)).syncing = some 1
    ∧ ((((die1 dieSyncing { syncFrom := some 0, syncRing := true }).at_ (secs 99999)).die 1).syncFrom = some 0
    ∧ 0 + ((die1 dieSyncing { syncFrom := some 0, syncRing := true }).at_ (secs 99999)).syncCopyNs 1 ≤ ((die1 dieSyncing { syncFrom := some 0, syncRing := true }).at_ (secs 99999)).now
    ∧ (((die1 dieSyncing { syncFrom := some 0, syncRing := true }).at_ (secs 99999)).die 1).syncRing = true) := by decide
theorem test_syncRing : ((die1 dieSyncing { syncFrom := some 0 }).at_ (secs 99999)).syncing = some 1
    ∧ ((((die1 dieSyncing { syncFrom := some 0 }).at_ (secs 99999)).die 1).syncFrom = some 0
    ∧ 0 + ((die1 dieSyncing { syncFrom := some 0 }).at_ (secs 99999)).syncRingNs ≤ ((die1 dieSyncing { syncFrom := some 0 }).at_ (secs 99999)).now
    ∧ (((die1 dieSyncing { syncFrom := some 0 }).at_ (secs 99999)).die 1).syncStore = false) := by decide +kernel
theorem test_syncEnd : ((die1 dieSyncing { syncFrom := some 0, syncStore := true }).at_ (secs 99999)).syncing = some 1
    ∧ ((((die1 dieSyncing { syncFrom := some 0, syncStore := true }).at_ (secs 99999)).die 1).syncFrom = some 0
    ∧ 0 + ((die1 dieSyncing { syncFrom := some 0, syncStore := true }).at_ (secs 99999)).syncRingNs ≤ ((die1 dieSyncing { syncFrom := some 0, syncStore := true }).at_ (secs 99999)).now
    ∧ (((die1 dieSyncing { syncFrom := some 0, syncStore := true }).at_ (secs 99999)).die 1).syncStore = true) := by decide +kernel
def ctl : FeItem := { target := 1, value := 2 }
def ctlHeld (xs : List HeldControl) : State := let a : State := pair; { a with red := { a.red with held := xs } }
theorem test_ctlAlone : (node).inService 0 = true ∧ (node).inService 1 = false ∧ (node).red.injections = [] := by decide
theorem test_ctlFirst : (pair).inService 0 = true ∧ (pair).inService 1 = true ∧ (pair).red.injections = [] ∧ (pair).red.held = [] := by decide
theorem test_ctlAlike : 0 < 0 + usec 4 ∧ (ctlHeld [{ fe := 2, die := 1, item := ctl, since := 0, differs := false }]).inService 0 = true
    ∧ (ctlHeld [{ fe := 2, die := 1, item := ctl, since := 0, differs := false }]).inService 1 = true
    ∧ (ctlHeld [{ fe := 2, die := 1, item := ctl, since := 0, differs := false }]).red.injections = []
    ∧ (ctlHeld [{ fe := 2, die := 1, item := ctl, since := 0, differs := false }]).red.held.find? (fun x => x.fe == 2 && x.die == 1 - 0 && !x.differs) = some { fe := 2, die := 1, item := ctl, since := 0, differs := false } := by decide
theorem test_ctlDiffer : ctl ≠ { target := 1, value := 3 }
    ∧ (ctlHeld [{ fe := 2, die := 1, item := ctl, since := 0, differs := false }]).inService 0 = true
    ∧ (ctlHeld [{ fe := 2, die := 1, item := ctl, since := 0, differs := false }]).inService 1 = true
    ∧ (ctlHeld [{ fe := 2, die := 1, item := ctl, since := 0, differs := false }]).red.injections = []
    ∧ (ctlHeld [{ fe := 2, die := 1, item := ctl, since := 0, differs := false }]).red.held.find? (fun x => x.fe == 2 && x.die == 1 - 0 && !x.differs) = some { fe := 2, die := 1, item := ctl, since := 0, differs := false } := by decide
theorem test_ctlLate : 0 + usec 4 ≤ usec 4 ∧ ((ctlHeld [{ fe := 2, die := 1, item := ctl, since := 0, differs := false }]).at_ (usec 4)).inService 0 = true
    ∧ ((ctlHeld [{ fe := 2, die := 1, item := ctl, since := 0, differs := false }]).at_ (usec 4)).inService 1 = true
    ∧ ((ctlHeld [{ fe := 2, die := 1, item := ctl, since := 0, differs := false }]).at_ (usec 4)).red.injections = []
    ∧ ((ctlHeld [{ fe := 2, die := 1, item := ctl, since := 0, differs := false }]).at_ (usec 4)).red.held.find? (fun x => x.fe == 2 && x.die == 1 - 0 && !x.differs) = some { fe := 2, die := 1, item := ctl, since := 0, differs := false } := by decide
end Redundancy

/-! ### What the hypotheses of the statements admit: TimeBase -/

namespace TimeBase
def clock (st : Nat) (ps : List (Nat × Word)) (x : TbState) : State := { node ([(P.TB_STATE, BitVec.ofNat 32 st)] ++ ps) with tb := x }
def asPortal (s : State) : State := { s with prt := { s.prt with portal := true } }
def timeOn : State := clock 0 [(P.LNK_PORT_STATE 0, 2)] {}
theorem test_sendTime : timeOn.rdN (P.LNK_PORT_STATE 0) = 2 ∧ timeOn.injected 0 = false := by decide
def timePortal : State := asPortal (clock 0 [(P.LNK_PORT_STATE 0, 2), (P.LNK_PORT_EN 0, 1)] {})
theorem test_sendInjected : timePortal.injected 0 = true := by decide
def block0 : TimeBlock := { seq := 5, rxSeq := 0, avail := true, srcKind := 2, quality := 0, hops := 3, uncert := 100, delta := 0, txPrev := 0, rxStamp := 0 }
theorem test_receiveTime : timeOn.rdN (P.LNK_PORT_STATE 0) = 2 := by decide
def goneBlock : TimeBlock := { block0 with avail := false }
theorem test_receiveGone : timeOn.rdN (P.LNK_PORT_STATE 0) = 2 := by decide
def lockable : State := clock tbAcquiring [] { inSince := some 0 }
theorem test_lock : ((lockable.at_ (secs 1)).windowSince = some 0 ∧ msec 10 ≤ secs 1 ∧ lockable.tbState = tbAcquiring
    ∧ lockable.jumpPending = false) := by decide
def losing : State := clock tbLocked [] { outSince := some 0 }
theorem test_unlock : losing.tbState = tbLocked ∧ losing.tb.outSince = some 0 ∧ 0 + msec 1 ≤ secs 1 := by decide
def measured (st c : Nat) : State := clock st [(P.TB_FOLLOWED, 1)] { phase := c }
theorem test_slewIt : ((measured tbAcquiring 50).at_ (secs 1)).measurable = true
    ∧ (((measured tbAcquiring 50).at_ (secs 1)).averaged).natAbs ≤ (measured tbAcquiring 50).rdN P.TB_JUMP_LIMIT * 8192000 ∧ 0 + msec 1 ≤ secs 1
    ∧ (measured tbAcquiring 50).tb.slew = 0 ∧ (measured tbAcquiring 50).tbState = tbAcquiring := by decide
def slewsOn : State := clock tbAcquiring [(P.TB_FOLLOWED, 1)] { phase := 50, slew := 50 }
theorem test_slewGoesOn : (slewsOn.at_ (secs 1)).measurable = true
    ∧ (slewsOn.at_ (secs 1)).tb.recent.any (fun m => decide ((slewsOn.at_ (secs 1)).time < m.1 + msec 1)) = false ∧ 0 + msec 1 ≤ secs 1
    ∧ slewsOn.tb.slew ≠ 0 ∧ slewsOn.tbState = tbAcquiring := by decide
theorem test_refuseIt : (measured tbAcquiring 0).rdN P.TB_JUMP_LIMIT * 8192000 < (((measured tbAcquiring 8192000000000).at_ (secs 1)).averaged).natAbs
    ∧ ((measured tbAcquiring 8192000000000).at_ (secs 1)).measurable = true ∧ 0 + msec 1 ≤ secs 1
    ∧ (measured tbAcquiring 8192000000000).tb.slew = 0 := by decide
theorem test_testShown : ((measured tbTest 50).at_ (secs 1)).measurable = true
    ∧ (((measured tbTest 50).at_ (secs 1)).averaged).natAbs ≤ (measured tbTest 50).rdN P.TB_JUMP_LIMIT * 8192000
    ∧ (measured tbTest 50).tb.slew = 0 := by decide
def slewing : State := clock tbLocked [] { slew := 50, slewRate := 50000 }
theorem test_slewed : (slewing.at_ (secs 1)).slewLeft = 0 ∧ slewing.tb.slew ≠ 0 ∧ slewing.ownSource = false ∧ slewing.tb.onPps = false := by decide
def initial : State := clock tbUnset [(P.TB_FOLLOWED, 1)] { step := some ⟨0, none⟩, phase := 12288000000000 }
theorem test_initialSet : initial.tb.step = some ⟨0, none⟩ ∧ initial.waitsBefore 0 = false ∧ initial.followedDomain.isSome = true
    ∧ initial.tbState = tbUnset ∧ 0 ≤ initial.now := by decide
def initialLate : State := clock tbAcquiring [] { step := some ⟨0, none⟩ }
theorem test_initialGone : initialLate.tb.step = some ⟨0, none⟩ ∧ initialLate.waitsBefore 0 = false
    ∧ (initialLate.tbState ≠ tbUnset ∨ initialLate.followedDomain = none) := by decide
def permitted (ps : List (Nat × Word)) : State := clock tbAcquiring ([(P.TB_FOLLOWED, 1)] ++ ps) { permits := [⟨0, some (host 3)⟩], phase := 12288000000000 }
theorem test_permit : (permitted [(P.TB_STATUS, 32)]).jumpPending = true ∧ (permitted [(P.TB_STATUS, 32)]).measurable = true
    ∧ (permitted [(P.TB_STATUS, 32)]).waitsBefore 0 = false ∧ (permitted []).tb.step = none ∧ (permitted []).tb.permits = [⟨0, some (host 3)⟩]
    ∧ (permitted []).waitsBefore 0 = false := by decide
theorem test_permitGone : (permitted []).jumpPending = false ∧ (permitted []).tb.step = none ∧ (permitted []).tb.permits = [⟨0, some (host 3)⟩]
    ∧ (permitted []).waitsBefore 0 = false := by decide
def setting (b : Option Nat) (e : Option Int) (pps : Bool) : State := clock tbLocked [] { jumpSet := some { h := host 3, value := 2000, pps, boundary := b, edge := e, receipt := 0 } }
theorem test_setLocal : (setting (some 0) none false).waitsBefore 0 = false := by decide
theorem test_setEdge : (setting (some 0) (some 8192000001) true).waitsBefore 0 = false := by decide
theorem test_setNoEdge : msec 1500 ≤ secs 2 ∧ 0 + msec 1500 ≤ secs 2 ∧ (setting none none true).tb.jumpSet.isSome = true := by decide
theorem test_edgeNear : ((clock tbLocked [] {}).at_ (secs 1)).ppsCorrection.natAbs ≤ 100000 * nsUnit ∧ (clock tbLocked [] {}).tb.jumpSet = none := by decide
theorem test_edgeFar : 100000 * nsUnit < ((clock tbLocked [] {}).at_ (msec 1200)).ppsCorrection.natAbs ∧ (clock tbLocked [] {}).tbState ≠ tbUnset
    ∧ (clock tbLocked [] {}).tb.jumpSet = none := by decide
def onPps : State := clock tbLocked [(P.TB_SRC, 2)] { onPps := true }
theorem test_ppsGone : (onPps.at_ (secs 2)).ppsAlive = false ∧ onPps.tb.onPps = true ∧ onPps.tb.measures = [] := by decide
def measuring : State := clock tbLocked [] { measures := [{ port := 2, h := host 0, since := 0, errors := [] }] }
theorem test_measureGone : measuring.tb.measures.length = 1 ∧ 0 + msec 1500 ≤ secs 2 ∧ measuring.tb.onPps = false
    ∧ (measuring.at_ (secs 2)).ownSource = false := by decide
def recording : State := clock tbLocked [(P.TB_QUALITY, 0)] { records := [(0, 5, 25000)] }
theorem test_modelRecord : recording.rdN P.TB_QUALITY = 0 ∧ recording.tb.records.head?.all (fun x => decide (x.1 + secs 10 ≤ secs 10)) = true
    ∧ recording.tbState = tbLocked := by decide
theorem test_modelRefit : recording.tb.records ≠ [] ∧ recording.tb.fitted + secs 3600 ≤ secs 3600 := by decide
end TimeBase

/-! ### What the hypotheses of the statements admit: Lanes -/

namespace Lanes
def laned (st : Nat) (y : Lane) (x : LanePort := { present := true, cmis := true }) (ps : List (Nat × Word) := []) : State :=
  { node ([(P.LNK_LANE_STATE 1, BitVec.ofNat 32 st)] ++ ps) with lnk := { (node).lnk with lanes := [(1, y)], ports := [(0, x)] } }
theorem test_transmit : ((0 : Nat) ≠ 2 ∨ (laned 7 {}).prt.portal = false) ∧ (laned 7 {}).laneState 1 ≠ laneFallow
    ∧ (((((laned 7 {}).beginPeriod 1).trainRequest 1).2).lanePort 0).change = none := by decide
def asking : State := laned 7 {} { change := some { mask := 2, switch := 40, agreed := false, joins := [] } }
theorem test_transmitAsk : ((0 : Nat) ≠ 2 ∨ (asking).prt.portal = false) ∧ (asking).laneState 1 ≠ laneFallow
    ∧ (((((asking).beginPeriod 1).trainRequest 1).2).lanePort 0).change = some { mask := 2, switch := 40, agreed := false, joins := [] } := by decide
/-- A codeword of zeros, and one whose first 29 syndromes are 0 and whose last is not, which no codeword lies near. -/
def zeros (skewPs : Nat) : RxCodeword := { before := 0, levels := List.replicate 2720 0, precoded := false, drawn := 0, skewPs }
def farLevels : List (BitVec 2) :=
  [3, 0, 0, 0, 0, 2, 2, 3, 0, 3, 3, 0, 0, 0, 1, 0, 0, 3, 1, 1, 3, 3, 0, 2, 0, 3, 3, 2, 3, 2, 2, 2, 1, 0, 2, 2, 0, 2, 2, 2, 3, 2, 0, 1, 0, 2, 0, 3, 2, 0]
  ++ [1, 1, 3, 0, 3, 2, 0, 0, 2, 3, 1, 1, 0, 1, 3, 0, 3, 1, 2, 1, 2, 3, 2, 3, 3, 2, 0, 0, 1, 3, 3, 2, 1, 0, 3, 2, 0, 2, 3, 2, 2, 1, 0, 0, 0, 0, 2, 1, 0, 2]
  ++ [2, 2, 3, 1, 2, 1, 0, 2, 3, 3, 3, 3, 2, 1, 3, 1, 0, 0, 0, 0, 3, 0, 0, 2, 2, 2, 0, 2, 0, 1, 1, 3, 1, 3, 1, 0, 3, 2, 0, 1, 3, 2, 1, 1, 2, 0, 0, 3, 2, 3]
def farSymbols : List Nat :=
  [1, 287, 513, 656, 197, 885, 815, 1011, 141, 211, 282, 451, 394, 740, 375, 387, 301, 883, 11, 812, 927, 370, 437, 2, 961, 563, 614, 564, 941, 464]
def garbled : RxCodeword := { before := 0, levels := List.replicate 2570 0 ++ farLevels, precoded := false, drawn := 0, skewPs := 0 }
theorem chunks_replicate (k : Nat) (rest : List Bool) (n : Nat) :
    chunks 10 (k + n) (List.replicate (10 * k) false ++ rest) = List.replicate k (List.replicate 10 false) ++ chunks 10 n rest := by
  induction k with
  | zero => simp
  | succ k ih =>
    have e : List.replicate (10 * (k + 1)) false ++ rest = List.replicate 10 false ++ (List.replicate (10 * k) false ++ rest) := by
      rw [← List.append_assoc, List.replicate_append_replicate]; congr 2; omega
    rw [e, show k + 1 + n = (k + n) + 1 by omega]
    simp only [List.replicate_succ (n := k), List.cons_append, ← ih]
    rfl
theorem gfMulAux_zero (k b : Nat) : gfMulAux k 0 b = 0 := by
  induction k generalizing b with
  | zero => rfl
  | succ k ih => simp [gfMulAux, gfDouble, ih]
theorem wordAt_replicate (k : Nat) (w : List Nat) (x : Nat) : wordAt (List.replicate k 0 ++ w) x = wordAt w x := by
  induction k with
  | zero => rfl
  | succ k ih => simpa [wordAt, List.replicate_succ, gfMul, gfMulAux_zero] using ih
theorem syndromes_replicate (k : Nat) (w : List Nat) : syndromes (List.replicate k 0 ++ w) = syndromes w := by
  simp only [syndromes, wordAt_replicate]
theorem ofLineBits_replicate (k : Nat) : ofLineBits (List.replicate k false) = 0 := by
  induction k with
  | zero => rfl
  | succ k ih => simp [ofLineBits, List.replicate_succ, ih]
theorem levels_bits (k : Nat) (ls : List (BitVec 2)) :
    ((List.replicate k (0 : BitVec 2) ++ ls).map (·.toNat)).flatMap levelBits = List.replicate (2 * k) false ++ (ls.map (·.toNat)).flatMap levelBits := by
  induction k with
  | zero => rfl
  | succ k ih =>
    rw [List.replicate_succ, List.cons_append, List.map_cons, List.flatMap_cons, ih, show 2 * (k + 1) = 2 * k + 1 + 1 by omega, List.replicate_succ, List.replicate_succ]
    rfl
theorem receivedBits_full (cw : RxCodeword) (h : cw.levels.length = 2720) (p : cw.precoded = false) :
    receivedBits cw = (cw.levels.map (·.toNat)).flatMap levelBits := by
  have l : (cw.levels.take 2720).map (·.toNat) = cw.levels.map (·.toNat) := by rw [List.take_of_length_le (Nat.le_of_eq h)]
  have m : 2720 - (cw.levels.map (·.toNat)).length = 0 := by rw [List.length_map, h]
  simp only [receivedBits, l, m, p, List.replicate_zero, List.append_nil, if_false, Bool.false_eq_true]
theorem bits_flatten (n k : Nat) : (List.replicate k (List.replicate n false)).flatten = List.replicate (k * n) false := by simp
theorem rsDecode_zero (k : Nat) : rsDecode (List.replicate k 0) = some (List.replicate k 0, 0) := by
  have h := syndromes_replicate k []
  have z : (syndromes []).all (· == 0) = true := by decide
  rw [List.append_nil] at h
  rw [rsDecode, h]; simp only [z, if_true]
theorem decoded_good (cw : RxCodeword) (d : Nat) (w : List Nat) (n : Nat) (h : rsDecode ((chunks 10 544 (receivedBits cw)).map ofLineBits) = some (w, n)) :
    (decodeCodeword cw d).good = some (n, ofLineBits ((w.flatMap (lineBits 10)).take 58)) := by simp only [decodeCodeword, h]
theorem decoded_none (cw : RxCodeword) (d : Nat) (h : rsDecode ((chunks 10 544 (receivedBits cw)).map ofLineBits) = none) :
    (decodeCodeword cw d).good = none := by simp only [decodeCodeword, h]
theorem zero_control (k : Nat) : ofLineBits (((List.replicate k 0).flatMap (lineBits 10)).take 58) = 0 := by
  have b : lineBits 10 0 = List.replicate 10 false := by decide
  rw [List.flatMap_replicate, b, bits_flatten, List.take_replicate, ofLineBits_replicate]
/-- The symbols of a codeword that begins with zeros. -/
theorem symbols_of (cw : RxCodeword) (k n : Nat) (ls : List (BitVec 2)) (h : cw.levels = List.replicate (5 * k) 0 ++ ls) (l : ls.length = 5 * n)
    (m : k + n = 544) (p : cw.precoded = false) :
    (chunks 10 544 (receivedBits cw)).map ofLineBits = List.replicate k 0 ++ (chunks 10 n ((ls.map (·.toNat)).flatMap levelBits)).map ofLineBits := by
  have t : cw.levels.length = 2720 := by rw [h, List.length_append, List.length_replicate, l]; omega
  have e : 2 * (5 * k) = 10 * k := by omega
  rw [receivedBits_full cw t p, h, levels_bits, e, ← m, chunks_replicate, List.map_append, List.map_replicate, ofLineBits_replicate]
theorem zeros_decoded (skewPs d : Nat) : (decodeCodeword (zeros skewPs) d).good = some (0, 0) := by
  have h := symbols_of (zeros skewPs) 544 0 [] (List.append_nil _).symm rfl rfl rfl
  have e : (chunks 10 0 (([] : List (BitVec 2)).map (·.toNat) |>.flatMap levelBits)).map ofLineBits = [] := rfl
  rw [e, List.append_nil] at h
  rw [decoded_good _ d _ 0 (by rw [h]; exact rsDecode_zero 544), zero_control]
theorem far_symbols : (chunks 10 30 ((farLevels.map (·.toNat)).flatMap levelBits)).map ofLineBits = farSymbols := by decide +kernel
theorem far_refused (k : Nat) : rsDecode (List.replicate k 0 ++ farSymbols) = none := by
  have l : (locatorOf (syndromes farSymbols)).len = 30 := by decide +kernel
  have n : (syndromes farSymbols).all (· == 0) = false := by decide +kernel
  rw [rsDecode, syndromes_replicate]
  simp only [n, l, Bool.false_eq_true, if_false, show decide (30 ≤ 15) = false from rfl, Bool.false_and]
theorem garbled_decoded (d : Nat) : (decodeCodeword garbled d).good = none := by
  have h := symbols_of garbled 514 30 farLevels rfl (by decide +kernel) rfl rfl
  rw [far_symbols] at h
  exact decoded_none _ d (by rw [h]; exact far_refused 514)
def lossy : State := laned 7 { bad := 1, rxCwc := some 9 }
def lossyHunt : State := laned 2 { bad := 7 }
theorem test_uncorrectable : laneSearch ≤ (laned 7 { bad := 2 }).laneState 1 ∧ (laned 7 { bad := 2 }).laneState 1 ≠ laneFault
    ∧ (decodeCodeword garbled ((laned 7 { bad := 2 }).lane 1).descrambler).good = none ∧ (laned 7 { bad := 2 }).laneState 1 ≠ laneSearch
    ∧ 3 ≤ 2 + 1 := by
  rw [garbled_decoded]; decide
theorem test_uncorrectableOn : laneSearch ≤ (lossy).laneState 1 ∧ (lossy).laneState 1 ≠ laneFault
    ∧ (decodeCodeword garbled ((lossy).lane 1).descrambler).good = none ∧ (lossy.laneState 1 = laneSearch ∨ 1 + 1 < 3)
    ∧ (lossy.lane 1).rxCwc.map (fun c => (c + 1) % 65536) = some 10 := by
  rw [garbled_decoded]; decide
theorem test_uncorrectableHunt : laneSearch ≤ (lossyHunt).laneState 1 ∧ (lossyHunt).laneState 1 ≠ laneFault
    ∧ (decodeCodeword garbled ((lossyHunt).lane 1).descrambler).good = none ∧ (lossyHunt.laneState 1 = laneSearch ∨ 7 + 1 < 3)
    ∧ (lossyHunt.lane 1).rxCwc.map (fun c => (c + 1) % 65536) = none := by
  rw [garbled_decoded]; decide
theorem test_align : laneSearch ≤ (laned 2 { syncs := 4, clean := 15 }).laneState 1 ∧ (laned 2 { syncs := 4, clean := 15 }).laneState 1 ≠ laneFault
    ∧ (decodeCodeword (zeros 100) ((laned 2 { syncs := 4, clean := 15 }).lane 1).descrambler).good = some (0, 0)
    ∧ (laned 2 { syncs := 4, clean := 15 }).laneState 1 = laneSearch ∧ 4 ≤ 4 ∧ 16 ≤ 15 + 1 := by
  rw [zeros_decoded]; decide
theorem test_alignSkewed : laneSearch ≤ (laned 2 { syncs := 4, clean := 15 }).laneState 1 ∧ (laned 2 { syncs := 4, clean := 15 }).laneState 1 ≠ laneFault
    ∧ (decodeCodeword (zeros 24001) ((laned 2 { syncs := 4, clean := 15 }).lane 1).descrambler).good = some (0, 0)
    ∧ 24000 < 24001 := by
  rw [zeros_decoded]; decide
theorem test_hunt : laneSearch ≤ (laned 2 { syncs := 3, clean := 15 }).laneState 1 ∧ (laned 2 { syncs := 3, clean := 15 }).laneState 1 ≠ laneFault
    ∧ (decodeCodeword (zeros 100) ((laned 2 { syncs := 3, clean := 15 }).lane 1).descrambler).good = some (0, 0)
    ∧ (laned 2 { syncs := 3, clean := 15 }).laneState 1 = laneSearch ∧ (3 < 4 ∨ 15 + 1 < 16) := by
  rw [zeros_decoded]; decide
theorem test_control : laneSearch ≤ (laned 7 {}).laneState 1 ∧ (laned 7 {}).laneState 1 ≠ laneFault
    ∧ (decodeCodeword (zeros 0) ((laned 7 {}).lane 1).descrambler).good = some (0, 0)
    ∧ (laned 7 {}).laneState 1 ≠ laneSearch := by
  rw [zeros_decoded]; decide
theorem test_noSync : laneSearch ≤ (laned 7 { absent := 3 }).laneState 1 ∧ (0x1234 : BitVec 16) ≠ 0xA55A
    ∧ laneAligned ≤ (laned 7 { absent := 3 }).laneState 1 ∧ (laned 7 { absent := 3 }).laneState 1 ≤ laneActive ∧ 4 ≤ 3 + 1 := by decide
theorem test_voted : laneSearch ≤ (laned 7 { syncs := 5 }).laneState 1 ∧ slotKind 0x55 = some 0x55 ∧ voteWord 7 7 9 = some 7 := by decide
theorem test_unvoted : laneSearch ≤ (laned 7 { syncs := 5 }).laneState 1 ∧ voteWord 7 8 9 = none := by decide
theorem test_badKind : laneSearch ≤ (laned 7 { syncs := 5 }).laneState 1 ∧ slotKind 0 = none := by decide
theorem test_pll : (laned 1 {}).laneState 1 = laneWaking := by decide
theorem test_pllEmpty : (laned 1 {} { present := false, cmis := true }).laneState 1 = laneWaking
    ∧ ((laned 1 {} { present := false, cmis := true }).lanePort 0).present = false := by decide
theorem test_trainOut : (laned 5 {}).laneState 1 = laneTrain ∧ msec ((laned 5 {}).rdN P.LNK_TRAIN_TIMEOUT) ≤ secs 100 := by decide
theorem test_windowTrain : laneSearch ≤ (laned 5 {}).laneState 1 ∧ 0 + msec 1 ≤ msec 1 ∧ (laned 5 {}).laneState 1 = laneTrain := by decide
def symbols (n : Nat) : List (Nat × Word) := [(P.LNK_SYM_CORR 1, BitVec.ofNat 32 n), (P.LNK_SER_FAIL, 1000), (P.LNK_SER_DEGRADE, 100)]
theorem test_windowFail : (laned 7 {} {} (symbols 2000)).rdN P.LNK_SER_FAIL < 2000 := by decide
theorem test_windowDegrade : (laned 7 {} {} (symbols 200)).rdN P.LNK_SER_DEGRADE < 200 := by decide
theorem test_windowTrainDegrade : (laned 5 {} {} (symbols 200)).laneState 1 = laneTrain ∧ (laned 5 {} {} (symbols 200)).rdN P.LNK_SER_DEGRADE < 200 := by decide
theorem test_windowGood : 0 ≤ (laned 7 {}).rdN P.LNK_SER_FAIL := by decide
def joining : State := laned 6 {} {} [(P.LNK_PORT_STATE 0, 2)]
theorem test_rejoin : joining.laneState 1 = laneHold ∧ joining.lnkPortState 0 = portActive_ ∧ (joining.lanePort 0).change = none
    ∧ msec (joining.rdN P.LNK_REJOIN_HOLD) ≤ secs 100 := by decide
theorem test_faultRetry : (laned 8 {}).rdN P.LNK_REJOIN = 1 ∧ ((laned 8 {}).lanePort 0).present = true ∧ 0 + msec 1 ≤ secs 1
    ∧ (laned 8 {}).laneState 1 = laneFault := by decide
theorem test_fault : (2 : Fin 12).val ∈ [0, 1, 2, 3, 7, 8, 9, 10] := by decide
def changing (agreed : Bool) : State := laned 6 {} { change := some { mask := 2, switch := 0, agreed, joins := [1] } }
theorem test_switchAgain : ((changing false).lanePort 0).change = some { mask := 2, switch := 0, agreed := false, joins := [1] }
    ∧ (((changing false).lanePort 0).cwc + 1 + 65536 - 0) % 65536 < 32768 := by decide
theorem test_switchNow : ((changing true).lanePort 0).change = some { mask := 2, switch := 0, agreed := true, joins := [1] }
    ∧ (((changing true).lanePort 0).cwc + 1 + 65536 - 0) % 65536 < 32768 := by decide
theorem test_freeze : laneSearch ≤ (laned 7 {}).laneState 1 ∧ 5 * 22499 < 112500 := by decide
theorem test_between : laneSearch ≤ (laned 7 {}).laneState 1 ∧ 112500 ≤ 5 * 22500 ∧ 4 * 22500 < 112500 := by decide
theorem test_thaw : laneSearch ≤ (laned 7 { frozen := some 0 }).laneState 1 ∧ 112500 ≤ 4 * 28125 := by decide
theorem test_eyeCheck : ((laned 7 { frozen := some 0 }).lane 1).frozen = some 0 ∧ ((laned 7 { frozen := some 0 }).lane 1).checked = none
    ∧ ((laned 7 { frozen := some 0 }).lane 1).scan = none ∧ 0 + msec 10 ≤ secs 1 := by decide
theorem test_eyeAgain : (some 0).any (fun c => decide (c + msec 100 ≤ secs 1)) = true := by decide
theorem test_eyeBad : (0 : Byte).toNat < (laned 7 {}).rdN P.LNK_EYE_MIN_H := by decide
theorem test_eyeGood : (laned 7 {}).rdN P.LNK_EYE_MIN_H ≤ (255 : Byte).toNat ∧ (laned 7 {}).rdN P.LNK_EYE_MIN_V ≤ (255 : Byte).toNat := by decide
theorem test_mapped : (List.replicate 1024 (5 : Byte)).length = 1024 := by decide +kernel
theorem test_absent : laneSearch ≤ (laned 7 {}).laneState 1 := by decide
theorem test_modint : ((laned 7 {}).lanePort 0).present = true ∧ ((laned 7 {}).lanePort 0).cmis = true := by decide
theorem test_modpoll : ((laned 7 {}).lanePort 0).present = true ∧ ((laned 7 {}).lanePort 0).cmis = true ∧ 0 + msec 100 ≤ secs 1 := by decide
end Lanes

/-! ### What the hypotheses of the statements admit: Chain -/

namespace Chain
def ring (x : ClpPort) (ps : List (Nat × Word) := [(P.LNK_PORT_STATE 0, 2), (P.LNK_PORT_STATE 1, 2)]) : State := { node (ps ++ [(P.SYS_NODE_ID, 5)]) with clp := { (node).clp with ports := ⟨x, {}⟩ } }
def aFrame : Frame := { ftype := 0, origin := 5, dest := 9, prio := 0, payload := List.replicate 24 0 }
theorem test_send : (ring { own := [aFrame] }).portActive 0 = true ∧ ((ring { own := [aFrame] }).port 0).choose = some (1, true)
    ∧ firstOf 0 1 [aFrame] = some aFrame ∧ ((ring { own := [aFrame] }).port 0).retransmitBytes + aFrame.size ≤ 2097152
    ∧ ((ring { own := [aFrame] }).port 0).turning = false ∧ ((ring { own := [aFrame] }).port 0).txNext < 65536 := by decide
def bareRx : RxFrame := { hseq := 0, ftype := 0, origin := 9, dest := 7, prio := 0, turned := false, auth := false, payload := List.replicate 24 0, hcrc := 0, abort := false, error := false }
def aRx : RxFrame := { bareRx with hcrc := frameCrc 0 (rxHeld bareRx) }
def rxAt (n : BitVec 16) : RxFrame := let f := { bareRx with hseq := n }; { f with hcrc := frameCrc n.toNat (rxHeld f) }
theorem test_abort : (ring {}).isRingPort 0 = true ∧ (ring {}).portActive 0 = true := by decide
theorem test_abortLate : (ring {}).isRingPort 0 = true ∧ (ring {}).portActive 0 = true
    ∧ ({ rxAt 1 with abort := true } : RxFrame).hseq.toNat ≠ ((ring {}).port 0).rxExpect := by decide
theorem test_badCrc : rxGood { aRx with hseq := 1 } = false ∧ (ring {}).isRingPort 0 = true ∧ (ring {}).portActive 0 = true := by decide +kernel
theorem test_badFirst : rxGood bareRx = false ∧ bareRx.hseq.toNat = ((ring {}).port 0).rxExpect := by decide +kernel
theorem test_accept : rxGood aRx = true ∧ aRx.hseq.toNat = ((ring {}).port 0).rxExpect := by decide +kernel
theorem test_ahead : rxGood (rxAt 1) = true ∧ (rxAt 1).hseq.toNat ≠ ((ring {}).port 0).rxExpect ∧ ((rxAt 1).hseq.toNat + 65536 - 0) % 65536 < 32768
    ∧ ((ring {}).port 0).nakSent = false := by decide +kernel
theorem test_aheadAgain : ((ring { nakSent := true }).port 0).nakSent = true ∧ rxGood (rxAt 1) = true
    ∧ ((rxAt 1).hseq.toNat + 65536 - 0) % 65536 < 32768 := by decide +kernel
theorem test_copy : rxGood aRx = true ∧ aRx.hseq.toNat ≠ 1 ∧ 32768 ≤ (aRx.hseq.toNat + 65536 - 1) % 65536 := by decide +kernel
def unacked : ClpPort := { retransmit := [{ hseq := 0, sentAt := 0, frame := aFrame }], txNext := 1 }
theorem test_ack : covers 0 0 = true ∧ ((ring unacked).port 0).turning = false ∧ (ring unacked).portActive 0 = true := by decide
theorem test_nak : (ring unacked).portActive 0 = true ∧ covers 65535 0 = false := by decide
theorem test_retransmit : ((ring unacked).port 0).retransmit = [{ hseq := 0, sentAt := 0, frame := aFrame }]
    ∧ 0 + (ring unacked).ackTime 0 ≤ secs 1 := by decide
theorem test_xoffRepeat : (ring { xoffOut := 8 }).xoffOf 0 ≠ 0 ∧ ((ring { xoffOut := 8 }).port 0).ackAt + usec 1 ≤ secs 1 := by decide
theorem test_broken : (ring unacked []).portActive 0 = false ∧ ((ring unacked []).port 0).turning = false ∧ (ring unacked []).isRingPort 0 = true := by decide
theorem test_posThrough : ({ ring {} with clp := { (ring {}).clp with ports := ⟨{}, { pos := some { endId := 9, hops := 2, brk := false, at_ := 0 } }⟩ } }).portActive 0 = true
    ∧ ({ ring {} with clp := { (ring {}).clp with ports := ⟨{}, { pos := some { endId := 9, hops := 2, brk := false, at_ := 0 } }⟩ } }).isRingPort 0 = true
    ∧ ({ ring {} with clp := { (ring {}).clp with ports := ⟨{}, { pos := some { endId := 9, hops := 2, brk := false, at_ := 0 } }⟩ } }).prt.portal = false
    ∧ ({ ring {} with clp := { (ring {}).clp with ports := ⟨{}, { pos := some { endId := 9, hops := 2, brk := false, at_ := 0 } }⟩ } }).portActive 1 = true
    ∧ (({ ring {} with clp := { (ring {}).clp with ports := ⟨{}, { pos := some { endId := 9, hops := 2, brk := false, at_ := 0 } }⟩ } }).port 0).posSent = none
    ∧ (({ ring {} with clp := { (ring {}).clp with ports := ⟨{}, { pos := some { endId := 9, hops := 2, brk := false, at_ := 0 } }⟩ } }).port 1).pos = some { endId := 9, hops := 2, brk := false, at_ := 0 } := by decide
def lone : State := if (ring {} [(P.LNK_PORT_STATE 0, 2)]).portActive 0 then ring {} [(P.LNK_PORT_STATE 0, 2)] else ring {} [(P.LNK_PORT_STATE 1, 2)]
theorem test_posEnd : lone.portActive 1 = false ∧ lone.portActive 0 = true ∧ lone.isRingPort 0 = true ∧ lone.prt.portal = false
    ∧ (lone.port 0).posSent = none := by decide
def ringPortal : State := let a : State := ring {} [(P.LNK_PORT_STATE 0, 2), (P.LNK_PORT_STATE 1, 2), (P.LNK_PORT_EN 0, 0)]; { a with prt := { a.prt with portal := true } }
theorem test_posPortal : ringPortal.isRingPort 0 = true ∧ ringPortal.portActive 0 = true ∧ ringPortal.prt.portal = true
    ∧ (ringPortal.port 0).posSent = none := by decide
theorem test_posStale : (ring {}).isEnd 0 = false ∧ ((ring {}).port 0).pos.all (fun q => decide (q.at_ + usec 50 ≤ secs 1)) = true := by decide
theorem test_posSelf : lone.isEnd 1 = true := by decide
def desc (n : Nat) : Descriptor := { seq := n, kind := 0, run := 0, prio := n, first := true, last := true, refetch := false, marks := ⟨false, false⟩, dir := 0, offset := 0, len := 64, store := 0, addr := 0, pushed := 0, length := 64, hopsW := 0, hopsE := 0 }
def queued (fill drain stalled : List Descriptor) (ps : List (Nat × Word) := []) : State := { node ([(P.PWR_STATE, 1)] ++ ps) with clp := { (node).clp with fill, drain, stalled } }
theorem test_push : (let x := { queued [] [] [desc 1] with clp := (queued [] [] [desc 1]).clp.at_ 0 }; x.clp.stalled = [desc 1] ∧ x.bankFull = false
    ∧ x.clp.pushNext ≤ 0) := by decide
theorem test_drop : (let r := (queued [desc 1] [desc 2] [desc 3] [(P.CLP_DSP_BANK_BYTES, 64)]).at_ (secs 10); let x := { r with clp := r.clp.at_ r.cycle }; x.clp.stalled = [desc 3]
    ∧ x.bankFull = true ∧ r.clp.stalledSince + usec (r.rdN P.CLP_DSP_DROP_WAIT) ≤ r.time ∧ r.rdN P.CLP_DSP_DROP_MIN ≤ 3) := by decide
theorem test_pop : (queued [] [desc 3, desc 1] []).running = true ∧ bestOf [desc 3, desc 1] = some (desc 1)
    ∧ (queued [] [desc 3, desc 1] []).clp.popNext ≤ 0 ∧ ((queued [] [desc 3, desc 1] []).clp.at_ 0).readable ≤ 0
    ∧ bestOf ((queued [] [desc 3, desc 1] []).clp.at_ 0).drain = some (desc 1) := by decide
theorem test_swap : (let r := (queued [desc 3] [] []).at_ 4096; r.running = true ∧ r.clp.popNext ≤ r.cycle ∧ (r.clp.at_ r.cycle).readable ≤ r.cycle
    ∧ bestOf (r.clp.at_ r.cycle).drain = some (desc 3)) := by decide
theorem test_idle : ((queued [] [] []).clp.at_ 0).drain = [] ∧ (queued [] [] []).running = true := by decide
end Chain

/-! ### What the hypotheses of the statements admit: Portal -/

namespace Portal
def portal (rt : RingRuntime) (bars : List (Nat × Word)) : State :=
  { node with prt := { (node).prt with portal := true, linkUp := true, rings := [(2, rt)], bar0 := bars } }
def on2 : List (Nat × Word) := [(barCtrl 2, 1)]
def lateSegment : Assembly := { node := 9, kind := 1, run := 0, seq := 4, bytes := [], lastAt := 0, turned := false, damaged := false, refetch := false, prio := 1, hopsW := 0, hopsE := 0 }
def assembling : State := let a := portal {} on2; { a with prt := { a.prt with assembly := [lateSegment] } }
theorem test_segment : (assembling.at_ (secs 1)).prt.assembly.find? (fun a => decide (a.lastAt + msec 10 ≤ secs 1)) = some lateSegment := by decide
def tag (c : Bool) : MergeTag := { slot := 0, id := 3, expect := 2, received := 1, closed := c, latest := 0, at_ := 0 }
def merging (c : Bool) : State := let a := portal {} on2; { a with prt := { a.prt with tags := [tag c] } }
theorem test_sheaf : ((merging false).at_ (secs 99)).prt.tags.find? (fun t => !t.closed && decide (t.at_ + msec ((merging false).rdN P.PRT_SHEAF_WAIT) ≤ secs 99)) = some (tag false) := by decide
theorem test_free : ((merging true).at_ (secs 99)).prt.tags.find? (fun t => t.closed && decide (t.at_ + msec ((merging true).rdN P.PRT_SHEAF_WAIT) ≤ secs 99)) = some (tag true) := by decide
def anItem (n : Nat) : Delivery := { type := 0, ring := 2, bytes := List.replicate n 1 }
theorem test_write : ((portal { queue := [anItem 64] } on2).ringRt 2).queue = [anItem 64] ∧ (portal { queue := [anItem 64] } on2).prt.linkUp = true
    ∧ (portal { queue := [anItem 64] } on2).ringEnabled 2 = true ∧ 64 ≤ 2 ^ (portal { queue := [anItem 64] } on2).dataLog 2
    ∧ (portal { queue := [anItem 64] } on2).ringFits 2 (anItem 64) = true ∧ 0 + 64 ≤ 2 ^ (portal { queue := [anItem 64] } on2).dataLog 2 := by decide
theorem test_skip : ((portal { queue := [anItem 64], offset := 65500 } on2).ringRt 2).queue = [anItem 64]
    ∧ (portal { queue := [anItem 64], offset := 65500 } on2).prt.linkUp = true
    ∧ (portal { queue := [anItem 64], offset := 65500 } on2).ringEnabled 2 = true
    ∧ 64 ≤ 2 ^ (portal { queue := [anItem 64], offset := 65500 } on2).dataLog 2
    ∧ (portal { queue := [anItem 64], offset := 65500 } on2).ringFits 2 (anItem 64) = true
    ∧ 2 ^ (portal { queue := [anItem 64], offset := 65500 } on2).dataLog 2 < 65500 + 64 := by decide
theorem test_noRoom : ((portal { queue := [anItem 64] } (on2 ++ [(barProd 2, 64)])).ringRt 2).queue = [anItem 64]
    ∧ (portal { queue := [anItem 64] } (on2 ++ [(barProd 2, 64)])).prt.linkUp = true
    ∧ (portal { queue := [anItem 64] } (on2 ++ [(barProd 2, 64)])).ringEnabled 2 = true
    ∧ 64 ≤ 2 ^ (portal { queue := [anItem 64] } (on2 ++ [(barProd 2, 64)])).dataLog 2
    ∧ (portal { queue := [anItem 64] } (on2 ++ [(barProd 2, 64)])).ringFits 2 (anItem 64) = false := by decide
theorem test_tooLong : 2 ^ (portal { queue := [anItem 65537] } on2).dataLog 2 < (anItem 65537).bytes.length ∧ (anItem 65537).type = 0
    ∧ (portal { queue := [anItem 65537] } on2).undelivered.entryRoom 2 = true := by
  have l : (anItem 65537).bytes.length = 65537 := List.length_replicate ..
  rw [l]; decide +kernel
theorem test_tooLongFull : 2 ^ (portal { queue := [anItem 65537] } (on2 ++ [(barProd 2, 64)])).dataLog 2 < (anItem 65537).bytes.length
    ∧ (anItem 65537).type = 0
    ∧ (portal { queue := [anItem 65537] } (on2 ++ [(barProd 2, 64)])).undelivered.entryRoom 2 = false := by
  have l : (anItem 65537).bytes.length = 65537 := List.length_replicate ..
  rw [l]; decide +kernel
def longReply : Delivery := { type := 1, ring := 2, bytes := List.replicate 65537 1 }
theorem test_longReply : 2 ^ (portal { queue := [longReply] } on2).dataLog 2 < longReply.bytes.length
    ∧ longReply.type ≠ 0 := by
  have l : longReply.bytes.length = 65537 := List.length_replicate ..
  rw [l]; decide +kernel
theorem test_disabled : ((portal { queue := [anItem 64] } []).prt.linkUp = false ∨ (portal { queue := [anItem 64] } []).ringEnabled 2 = false) := by decide
theorem test_modOut : ((portal { unsignalled := 3 } on2).ringRt 2).unsignalled ≠ 0
    ∧ 0 + usec (bits ((portal {} on2).bar (barMod 2) 0) 31 16) ≤ secs 1 := by decide
theorem test_cons : (((portal { live := [(3, 0, 64), (8, 64, 64)], full := true } on2).setBar (barCons 2) 0 7).ringRt 2).queue = [] := by decide
theorem test_consRoom : (((portal { live := [(3, 0, 64)], queue := [anItem 64], full := true } (on2 ++ [(barProd 2, 7)])).setBar (barCons 2) 0 7).setRing 2 { queue := [anItem 64], full := true }).ringRoom 2 = true := by decide
theorem test_consFull : ((portal { queue := [anItem 64], full := true } (on2 ++ [(barProd 2, 64)])).setBar (barCons 2) 0 0).ringRoom 2 = false := by decide
theorem test_enable : (portal {} []).ringEnabled 2 = false := by decide
theorem test_again : (portal {} on2).ringEnabled 2 = true := by decide
theorem test_disable : (portal {} on2).ringEnabled 2 = true := by decide
theorem test_barBase : isCmdBase 0x10 = true ∧ bitOf ((portal {} []).bar barCmdCtrl 0) 0 = false := by decide
theorem test_barIgnored : bitOf ((portal {} [(barCmdCtrl, 1)]).bar barCmdCtrl 0) 0 = true := by decide
theorem test_barCons : (0x1A0 : BitVec 16).toNat = barCons 2 := by decide
def fetching : State := portal {} [(barCmdCtrl, 1), (barCmdTail, 1)]
theorem test_fetch : fetching.prt.portal = true ∧ fetching.prt.linkUp = true ∧ bitOf (fetching.bar barCmdCtrl 0) 0 = true
    ∧ 0 % 2 ^ max 4 (min 12 (fetching.bar barCmdSize 4)) ≠ fetching.bar barCmdTail 0 % 2 ^ max 4 (min 12 (fetching.bar barCmdSize 4))
    ∧ 20 ≤ bits (20 : BitVec 64).toNat 15 0 ∧ bits (20 : BitVec 64).toNat 63 16 = 0 := by decide
theorem test_fetchBad : fetching.prt.portal = true ∧ fetching.prt.linkUp = true ∧ bitOf (fetching.bar barCmdCtrl 0) 0 = true
    ∧ (bits (19 : BitVec 64).toNat 15 0 < 20 ∨ 4100 < 19) := by decide
theorem test_down : (portal { queue := [anItem 64] } on2).prt.linkUp = true := by decide
theorem test_flr : (portal {} on2).prt.portal = true := by decide
end Portal

/-! ### What the hypotheses of the statements admit: Calibration -/

namespace Calibration
def calDue (op : Nat) (p : List Word) (ps : List (Nat × Word) := []) : State := { node ps with cmd := { (node).cmd with outstanding := [{ op, h := host 1, p, due := some 0 }] } }
theorem test_calBusy : (calDue 0x30 [] [(P.CAL_STATE, 1)]).dueCommand [0x30, 0x32] = some { op := 0x30, h := host 1, p := [], due := some 0 }
    ∧ (calDue 0x30 [] [(P.CAL_STATE, 1)]).commitBefore 0 = false ∧ (calDue 0x30 [] [(P.CAL_STATE, 1)]).earlierFirst (host 1) 0 = false
    ∧ ((calDue 0x30 [] [(P.CAL_STATE, 1)]).undue (host 1)).calStateOf ≠ calIdle := by decide
theorem test_calStart : (calDue 0x30 [1]).dueCommand [0x30, 0x32] = some { op := 0x30, h := host 1, p := [1], due := some 0 }
    ∧ (calDue 0x30 [1]).commitBefore 0 = false ∧ (calDue 0x30 [1]).earlierFirst (host 1) 0 = false
    ∧ ((calDue 0x30 [1]).undue (host 1)).calStateOf = calIdle := by decide
theorem test_shuntStart : (calDue 0x32 [1, 0, 0]).dueCommand [0x30, 0x32] = some { op := 0x32, h := host 1, p := [1, 0, 0], due := some 0 }
    ∧ (calDue 0x32 [1, 0, 0]).commitBefore 0 = false ∧ (calDue 0x32 [1, 0, 0]).earlierFirst (host 1) 0 = false
    ∧ ((calDue 0x32 [1, 0, 0]).undue (host 1)).calStateOf = calIdle := by decide
def aRun (todo : List CalPoint) : CalRun := { h := host 1, op := 0x30, scope := 1, nostore := true, started := 0, par := [], inputs := [], sources := [], skipped := [], shunt := none, todo, pointFrom := 0 }
def calibrating (st : Nat) (c : CalRun) (ops : List FlashOp := []) : State := let a : State := node [(P.CAL_STATE, BitVec.ofNat 32 st)]; { a with cal := { a.cal with run := some c }, mgt := { a.mgt with ops } }
theorem test_hold : (calibrating calHolding (aRun [.timing 0])).cal.run = some (aRun [.timing 0])
    ∧ (calibrating calHolding (aRun [.timing 0])).calStateOf = calHolding
    ∧ (aRun []).started + 10000000 ≤ ((calibrating calHolding (aRun [.timing 0])).at_ (secs 1)).now := by decide
theorem test_pointA : (calibrating calMeasuring (aRun [.analogue 0 0 0])).cal.run = some (aRun [.analogue 0 0 0])
    ∧ (calibrating calMeasuring (aRun [.analogue 0 0 0])).calStateOf = calMeasuring
    ∧ (calibrating calMeasuring (aRun [.analogue 0 0 0])).pointFull (aRun [.analogue 0 0 0]) (.analogue 0 0 0) = true := by decide
theorem test_pointS : (calibrating calMeasuring (aRun [.source 0 0])).cal.run = some (aRun [.source 0 0])
    ∧ (calibrating calMeasuring (aRun [.source 0 0])).calStateOf = calMeasuring
    ∧ (calibrating calMeasuring (aRun [.source 0 0])).pointFull (aRun [.source 0 0]) (.source 0 0) = true := by decide
theorem test_pointT : (calibrating calMeasuring (aRun [.timing 0])).cal.run = some (aRun [.timing 0])
    ∧ (calibrating calMeasuring (aRun [.timing 0])).calStateOf = calMeasuring
    ∧ (calibrating calMeasuring (aRun [.timing 0])).pointFull (aRun [.timing 0]) (.timing 0) = true := by decide
theorem test_pointH : (calibrating calMeasuring (aRun [.shunt 0])).cal.run = some (aRun [.shunt 0])
    ∧ (calibrating calMeasuring (aRun [.shunt 0])).calStateOf = calMeasuring
    ∧ (calibrating calMeasuring (aRun [.shunt 0])).pointFull (aRun [.shunt 0]) (.shunt 0) = true := by decide
theorem test_release : (calibrating calChecking (aRun [])).cal.run.isSome = true ∧ (calibrating calChecking (aRun [])).calStateOf = calChecking
    ∧ ((calibrating calChecking (aRun [])).at_ (secs 1)).commitDue = false ∧ (aRun []).checked < ((calibrating calChecking (aRun [])).at_ (secs 1)).now
    ∧ ((calibrating calChecking (aRun [])).at_ (secs 1)).now % 1000 = 0 ∧ (aRun []).abortAt = none
    ∧ (let d : CalRun := { (aRun []).answered with checked := ((calibrating calChecking (aRun [])).at_ (secs 1)).now, applied := 0, others := 0 }; d.stores = false) := by decide
def trialRun : CalRun := { aRun [] with op := 0x32, shunt := some { apply := false, expect := 0 } }
theorem test_releaseQuiet : (calibrating calChecking trialRun).cal.run.isSome = true ∧ (calibrating calChecking trialRun).calStateOf = calChecking
    ∧ trialRun.shunt.any (fun x => !x.apply) = true
    ∧ (let d : CalRun := { trialRun.answered with checked := ((calibrating calChecking trialRun).at_ (secs 1)).now, applied := 0, others := 0 }; d.stores = false) := by decide
theorem test_releaseStore : (calibrating calChecking { aRun [] with nostore := false }).cal.run.isSome = true
    ∧ (calibrating calChecking { aRun [] with nostore := false }).calStateOf = calChecking
    ∧ ((calibrating calChecking { aRun [] with nostore := false }).at_ (secs 1)).commitDue = false
    ∧ ({ aRun [] with nostore := false } : CalRun).checked < ((calibrating calChecking { aRun [] with nostore := false }).at_ (secs 1)).now
    ∧ ((calibrating calChecking { aRun [] with nostore := false }).at_ (secs 1)).now % 1000 = 0
    ∧ ({ aRun [] with nostore := false } : CalRun).abortAt = none
    ∧ (let d : CalRun := { ({ aRun [] with nostore := false } : CalRun).answered with checked := ((calibrating calChecking { aRun [] with nostore := false }).at_ (secs 1)).now, applied := 0, others := 0 }; d.stores = true) := by decide
theorem test_storeRetry : (calibrating calStoring (aRun []) [.calStore]).cal.run = some (aRun [])
    ∧ (calibrating calStoring (aRun []) [.calStore]).mgt.ops.head? = some .calStore
    ∧ (calibrating calStoring (aRun []) [.calStore]).cal.retried = false := by decide
def retried : State := (calibrating calStoring (aRun []) [.calStore]).setCal { (calibrating calStoring (aRun [])).cal with retried := true }
theorem test_storeFail : (retried).cal.run = some (aRun []) ∧ (retried).mgt.ops.head? = some .calStore ∧ (retried).cal.retried = true := by decide
theorem test_storeGood : (calibrating calStoring (aRun []) [.calStore]).cal.run = some (aRun [])
    ∧ (calibrating calStoring (aRun []) [.calStore]).mgt.ops.head? = some .calStore := by decide
def aborting : State := { calibrating calMeasuring (aRun []) with cmd := { (node).cmd with outstanding := [{ op := 0x31, h := host 0, p := [], due := some 0 }] } }
theorem test_abort : aborting.dueCommand [0x31] = some { op := 0x31, h := host 0, p := [], due := some 0 } ∧ aborting.commitDue = false := by decide
def abortIdle : State := { node with cmd := { (node).cmd with outstanding := [{ op := 0x31, h := host 0, p := [], due := some 0 }] } }
theorem test_abortIdle : abortIdle.dueCommand [0x31] = some { op := 0x31, h := host 0, p := [], due := some 0 } ∧ abortIdle.calStateOf = calIdle := by decide
def checking (pulses : List (Nat × Option Nat)) (ps : List (Nat × Word) := []) : State := let a : State := node ([(P.CAL_PCHK_PERIOD, 1), (P.CAL_PCHK_WB 4, 1)] ++ ps); { a with cal := { a.cal with pulses } }
theorem test_pchk : (checking []).rdN P.CAL_PCHK_PERIOD ≠ 0 ∧ ((checking []).at_ (secs 1)).now % (1000000000 * (checking []).rdN P.CAL_PCHK_PERIOD) = 0
    ∧ (checking []).cal.checkedAt < ((checking []).at_ (secs 1)).now := by decide
def scanningIn : List (Nat × Word) := [(P.ADC_GRP_STATE 1, BitVec.ofNat 32 grpScanning), (P.FE_IN_STATE 4, 2)]
theorem test_pulseBegins : (checking [(4, none)] scanningIn).cal.pulses.find? (fun x => x.1 == 4) = some (4, none)
    ∧ (checking [(4, none)] scanningIn).grpState 1 = grpScanning ∧ (checking [(4, none)] scanningIn).inState 4 ≠ inHeld
    ∧ ((checking [(4, none)] scanningIn).run 1).slots = [] := by decide
theorem test_pulseEnds : ((checking [(4, some 0)] scanningIn).at_ (secs 1)).cal.pulses.find? (fun x => x.1 == 4) = some (4, some 0)
    ∧ 0 + (checking [(4, some 0)] scanningIn).scanCycle 1 ≤ ((checking [(4, some 0)] scanningIn).at_ (secs 1)).now := by decide
end Calibration

/-! ### What the hypotheses of the statements admit: Management -/

namespace Management
def managed (m : MgtState) : State := { node with mgt := m }
theorem test_nonce : (managed { nonce := some (1, 0) }).mgt.nonce = some (1, 0) ∧ 0 ≤ (managed { nonce := some (1, 0) }).time := by decide
theorem test_session : (managed { session := some { portal := 1, key := 0, until_ := 0 } }).mgt.session = some { portal := 1, key := 0, until_ := 0 }
    ∧ 0 ≤ (managed { session := some { portal := 1, key := 0, until_ := 0 } }).time := by decide
theorem test_lockout : (managed { lockedUntil := some 0 }).mgt.lockedUntil = some 0 ∧ 0 ≤ (managed { lockedUntil := some 0 }).time := by decide
def entry : LogEntry := { seq := 3, code := 0x1106, unit := 0, severity := 2, time := 0, data0 := 0, data1 := 0 }
theorem test_persist : (managed { persistWait := [entry], log := [entry] }).mgt.persistWait = [entry]
    ∧ (managed { persistWait := [entry], log := [entry] }).mgt.ops = [] := by decide
theorem test_save : (managed { ops := [.save { seq := 4 }] }).mgt.ops.head? = some (.save { seq := 4 })
    ∧ (managed { ops := [.save { seq := 4 }] }).mgt.saveAgain = false := by decide
theorem test_hourly : (managed { saveHourly := true }).mgt.saveHourly = true ∧ (managed { saveHourly := true }).now % 3600000000000 = 0 := by decide
def writing : State := managed { ops := [.write (host 4) [1, 0, 4, 0xFFFFFF00]] }
theorem test_fwWrite : writing.mgt.ops.head? = some (.write (host 4) [1, 0, 4, 0xFFFFFF00]) ∧ word [1, 0, 4, 0xFFFFFF00] 0 % 4 < 2 := by decide
def writingKeys : State := managed { ops := [.write (host 4) [2, 0, 4, 0xFFFFFF00]] }
theorem test_fwWriteKeys : writingKeys.mgt.ops.head? = some (.write (host 4) [2, 0, 4, 0xFFFFFF00]) ∧ word [2, 0, 4, 0xFFFFFF00] 0 % 4 = 2 := by decide
def committing0 : State := managed { ops := [.commit (host 1) 0 1] }
theorem test_commit0 : committing0.mgt.ops.head? = some (.commit (host 1) 0 1) := by decide
def committing2 : State := managed { ops := [.commit (host 1) 2 0] }
theorem test_commit2 : committing2.mgt.ops.head? = some (.commit (host 1) 2 0) := by decide
def signing : State := managed { attest := some (host 0, [7], 0) }
theorem test_attest : signing.mgt.attest = some (host 0, [7], 0) := by decide
theorem test_commit1 : (managed { ops := [.commit (host 1) 1 0] }).mgt.ops.head? = some (.commit (host 1) 1 0) := by decide
end Management

/-! ### What the hypotheses of the statements admit: Power -/

namespace Power
def powered (p : PwrState) (ps : List (Nat × Word) := [(P.PWR_STATE, 1)]) : State := { node ps with pwr := p }
theorem test_sensors : (powered {}).running = true := by decide
def decided : Throttle := { divs := [2, 2, 2, 2], windrow := 2, reduce := 1 }
theorem test_throttle : (powered { throttle := some decided }).pwr.throttle = some decided ∧ (powered { throttle := some decided }).commitDue = false
    ∧ (powered {}).now % 1000 = 0 := by decide
def stopping : State := powered { stopSince := some 0 } [(P.PWR_STATE, 3)]
theorem test_drain : stopping.pwr.stopSince = some 0 ∧ stopping.pwrState = pwrStopping ∧ (stopping.stopActed = true ∧ stopping.drained = true) := by decide
theorem test_drainLate : stopping.pwr.stopSince = some 0 ∧ stopping.pwrState = pwrStopping ∧ 0 + msec (stopping.rdN P.THM_STOP_DRAIN) ≤ secs 100 := by decide
theorem test_stopMax : stopping.pwr.stopSince = some 0 ∧ stopping.pwrState = pwrStopping ∧ 0 + msec (stopping.rdN P.THM_STOP_MAX) ≤ secs 100 := by decide
def cooled : State := powered { coolSince := some 0, stopSince := some 0 } [(P.PWR_STATE, 4)]
theorem test_resume : cooled.pwr.coolSince = some 0 ∧ cooled.pwrState = pwrStopped ∧ cooled.rdN P.THM_AUTO_RESUME ≠ 0
    ∧ 0 + secs (cooled.rdN P.THM_RESUME_HOLD) ≤ secs 1000 ∧ (cooled.at_ (secs 1000)).now % 1000 = 0 := by decide
theorem test_calm : (powered { rise := some 0, calmSince := some 0 }).pwr.rise = some 0
    ∧ (powered { rise := some 0, calmSince := some 0 }).pwr.calmSince = some 0 ∧ 0 + secs ((powered {}).rdN P.THM_RESUME_HOLD) ≤ secs 1000 := by decide
theorem test_riseStop : (powered { rise := some 0 }).pwr.rise = some 0 ∧ 0 + msec ((powered {}).rdN P.THM_RISE_HOLD) ≤ secs 1000 := by decide
def cold : State := (powered {}).setFePower 2 { coldStop := true, warmSince := some 0 }
theorem test_lowTemp : (cold.fePower 2).coldStop = true ∧ (cold.fePower 2).warmSince = some 0 ∧ (cold.at_ (secs 10)).now % 1000 = 0
    ∧ 0 + secs 10 ≤ secs 10 := by decide
theorem test_trip : (3 : Fin 17).val < 16 := by decide
theorem test_noTrip : (16 : Fin 17).val = 16 := by decide
theorem test_rail : (powered {}).running = true ∧ (powered {}).rdN (P.PWR_RAIL_STATE 3) = 0 := by decide
theorem test_van : (powered {}).running = true ∧ ((powered {}).fePower 2).vanStop = false := by decide
theorem test_vanBack : (((powered {}).setFePower 2 { vanStop := true }).fePower 2).vanStop = true ∧ (powered {}).now % 1000 = 0 := by decide
theorem test_brownVan : 7 ≤ (7 : Fin 22).val ∧ (7 : Fin 22).val ≤ 10 := by decide
theorem test_brown : ¬(7 ≤ (3 : Fin 22).val ∧ (3 : Fin 22).val ≤ 10) ∧ (powered {}).resetHeld = false := by decide
theorem test_brownHeld : ¬(7 ≤ (3 : Fin 22).val ∧ (3 : Fin 22).val ≤ 10) ∧ (powered { porLow := true }).resetHeld = true := by decide
theorem test_porLow : (powered {}).resetHeld = false := by decide
theorem test_porLowHeld : (powered { brownOut := true }).resetHeld = true := by decide
theorem test_porHigh : (powered { porLow := true }).pwr.porLow = true ∧ (powered { porLow := true }).pwr.brownOut = false
    ∧ (powered { porLow := true }).pwr.hardStop = false := by decide
theorem test_brownBack : (powered { brownOut := true }).pwr.porLow = false ∧ (powered { brownOut := true }).pwr.brownOut = true
    ∧ (powered { brownOut := true }).pwr.hardStop = false := by decide
theorem test_hardBack : (powered { hardStop := true }).pwr.porLow = false ∧ (powered { hardStop := true }).pwr.brownOut = false
    ∧ (powered { hardStop := true }).pwr.hardStop = true := by decide
end Power

/-! ### What the hypotheses of the statements admit: Resets -/

namespace Resets
def resetting (k u : Nat) (d1 : Nat := 0) : State := let a : State := node [(P.RED_DIE_STATE 1, BitVec.ofNat 32 d1)]; { a with pwr := { a.pwr with resets := [{ kind := k, unit := u, cause := 4 + k, instant := 0 }] } }
theorem test_cold : (resetting 0 0).dueReset 0 0 = some { kind := 0, unit := 0, cause := 4, instant := 0 } := by decide
theorem test_module : (resetting 1 0).dueReset 1 0 = some { kind := 1, unit := 0, cause := 5, instant := 0 } := by decide
theorem test_conc : (resetting 2 0).dueReset 2 0 = some { kind := 2, unit := 0, cause := 6, instant := 0 } := by decide
theorem test_rstShort : 999 < 1000 := by decide
theorem test_rst : 1000 ≤ 1000 ∧ (node).resetHeld = false ∧ (node).dueReset 0 0 = none := by decide
theorem test_dieActive : (resetting 3 0 1).dueReset 3 0 = some { kind := 3, unit := 0, cause := 7, instant := 0 } ∧ (resetting 3 0 1).active = 0
    ∧ (resetting 3 0 1).dieState 1 = dieInStep ∧ (resetting 3 0 1).red.mismatch = none := by decide
theorem test_dieStandby : (resetting 3 1 1).dueReset 3 1 = some { kind := 3, unit := 1, cause := 7, instant := 0 } ∧ (resetting 3 1 1).red.mismatch = none
    ∧ ((resetting 3 1 1).active ≠ 1 ∨ (resetting 3 1 1).dieState 0 ≠ dieInStep) := by decide
theorem test_dieLone : (resetting 3 0).dueReset 3 0 = some { kind := 3, unit := 0, cause := 7, instant := 0 } ∧ (resetting 3 0).red.mismatch = none
    ∧ (resetting 3 0).active = 0 ∧ (resetting 3 0).dieState 1 ≠ dieInStep := by decide
def running2 : State := let a : State := pair; { a with pwr := { a.pwr with firmware := true } }
def running1 : State := let a : State := node; { a with pwr := { a.pwr with firmware := true } }
theorem test_watchdog2 : running2.resetHeld = false ∧ running2.pwr.firmware = true ∧ running2.dieState 0 ≠ dieBoot
    ∧ running2.dieState 1 = dieInStep := by decide
theorem test_watchdog1 : running1.resetHeld = false ∧ running1.pwr.firmware = true ∧ running1.dieState 1 ≠ dieInStep
    ∧ running1.dieState 0 ≠ dieBoot := by decide
theorem test_feReset : (resetting 4 2).dueReset 4 2 = some { kind := 4, unit := 2, cause := 8, instant := 0 } := by decide
def settling : State := (node).setFePower 2 { resetUntil := some 0 }
theorem test_feLoaded : (settling.fePower 2).resetUntil = some 0 ∧ 0 ≤ settling.now ∧ settling.running = true := by decide
def booting (a b : DieState) (ps : List (Nat × Word) := []) : State := let s : State := { State.reset with par := ps }; let s := (s.setDie 0 a).setDie 1 b; { s with pwr := { s.pwr with firmware := true, porLow := false, brownOut := false, hardStop := false } }
theorem test_readyFirst : (let s := booting {} {}; s.resetHeld = false ∧ s.pwr.firmware = true ∧ s.dieState 0 = dieBoot ∧ (s.die 0).ready = false
    ∧ s.dieState 1 ≠ dieInStep ∧ (s.die 1).ready = false) := by decide
theorem test_readySecond : (let s := booting {} { ready := true }; s.resetHeld = false ∧ s.pwr.firmware = true ∧ s.dieState 0 = dieBoot
    ∧ (s.die 0).ready = false ∧ s.dieState 1 ≠ dieInStep ∧ (s.die 1).ready = true) := by decide
theorem test_readySync : (let s := booting {} {} [(P.RED_DIE_STATE 1, 1)]; s.resetHeld = false ∧ s.pwr.firmware = true ∧ s.dieState 0 = dieBoot
    ∧ (s.die 0).ready = false ∧ s.dieState 1 = dieInStep) := by decide
theorem test_join : (let s := booting { ready := true } {}; s.dieState 0 = dieBoot ∧ (s.die 0).ready = true ∧ (s.die 1).ready = false ∧ s.running = false
    ∧ (s.die 0).readyAt + msec (s.rdN P.PWR_JOIN_WAIT) ≤ secs 1000) := by decide
theorem test_granary : (booting { ready := true } {}).mem.granReady = false ∧ (booting { ready := true } {}).mem.granReady = false
    ∧ ((booting { ready := true } {}).die 0).ready = true := by decide
end Resets

namespace Rules
/-- Packets for the refusals of Table 2-2: an ACQ.START packet of the own host, and one of an unassigned length. -/
def start : Hdr := host 1
def full : State := { node with cmd := { outstanding := List.replicate 256 { h := { host 0 with issuer := 2 }, op := 0x11, p := [] } } }
theorem test_refusal_packet : (Instr.acqStart start [0xFFFF]).packet = some (0x20, start, [0xFFFF]) ∧ (node).takesCommands = true
    ∧ (node).isTarget 0x20 start = true ∧ (node).duplicate 0x20 start = none := by decide +kernel
theorem test_refusal_reserved : (node).refusal 0x20 { start with reserved := 1 } [0xFFFF] = some stBadParam := by decide
theorem test_refusal_length : (node).refusal 0x20 { start with length := 8 } [0xFFFF] = some stBadParam := by decide
theorem test_refusal_broadcast : (node).refusal 0x12 (toAll 2) [0, 1] = some stBadParam ∧ (opInfo 0x12).map (·.bcast) = some false := by decide
theorem test_refusal_auth : (node).refusal 0x02 { host 1 with auth := false } [0] = some stAuth := by decide
theorem test_refusal_busy : full.duplicate 0x20 start = none ∧ full.refusal 0x20 start [0xFFFF] = some stBusy := by decide +kernel
theorem test_refusal_sched : (node).refusal 0x10 { host 2 with sched := true, timeTag := 1000000 } [0x01060000, 1] = some stBadParam := by decide
theorem test_refusal_unset : (node).refusal 0x20 { start with sched := true, timeTag := 1000000 } [0xFFFF] = some stRange := by decide
/-- A node whose time base is not UNSET. -/
def timed : State := node [(P.TB_STATE, 1)]
theorem test_refusal_lead : timed.refusal 0x20 { start with sched := true, timeTag := 9000 } [0xFFFF] = some stRange
    ∧ timed.refusal 0x20 { start with sched := true, timeTag := 10000 } [0xFFFF] = none := by decide
theorem test_refusal_lead_commit : timed.refusal 0x13 { host 3 with sched := true, timeTag := 199000 } [1, 0, 0] = some stRange
    ∧ timed.refusal 0x13 { host 3 with sched := true, timeTag := 200000 } [1, 0, 0] = none := by decide
theorem test_refusal_hour : timed.refusal 0x20 { start with sched := true, timeTag := 3600000000000 } [0xFFFF] = none
    ∧ timed.refusal 0x20 { start with sched := true, timeTag := 3600000001000 } [0xFFFF] = some stRange := by decide

/-- A command outstanding, and a reply kept. -/
def repeated : State := { node with cmd := { outstanding := [{ h := start, op := 0x20, p := [0xFFFF] }] } }
def replied : State := { node with cmd := { kept := [{ issuer := 1, tag := 1, crc := 0, until_ := msec 1, reply := { opcode := 0x20 } }] } }
theorem test_duplicate_outstanding : (repeated.cmd.outstanding.find? (fun o => o.h.issuer == start.issuer && o.h.tag == start.tag)).isSome = true
    ∧ (repeated.duplicate 0x20 start).map (fun t => t.cmd.outstanding.map (·.last)) = some [some (repeated.mkReply 0x20 start stAccepted [])] := by decide +kernel
/-- The refusal of a used pair with another content, which is kept as every final reply but BUSY is. -/
def refusedCopy (s : State) : State :=
  let q := s.mkReply 0x20 { start with crc := 5 } stBadParam []
  ({ s with cmd := { s.cmd with kept := { issuer := 1, tag := 1, crc := 5, until_ := s.time + msec 1, reply := q } :: s.cmd.kept } } : State).sendReply q
theorem test_duplicate_other_crc : repeated.duplicate 0x20 { start with crc := 5 } = some (refusedCopy repeated) := by decide +kernel
theorem test_duplicate_kept : replied.duplicate 0x20 start = some (replied.sendReply { opcode := 0x20 })
    ∧ replied.duplicate 0x20 { start with crc := 5 } = some (refusedCopy replied) := by decide +kernel
theorem test_duplicate_expired : (replied.at_ (msec 1)).duplicate 0x20 start = none := by decide
theorem test_limit : opInfo 0x20 = some ⟨true, true, false⟩ ∧ headerGood ⟨true, true, false⟩ start [0xFFFF] = true
    ∧ full.authorised 0x20 ⟨true, true, false⟩ start = true ∧ 256 ≤ full.cmd.outstanding.length := by decide +kernel

theorem test_step_front : ({ node with pending := [.nop (host 0) []] } : State).pending = [.nop (host 0) []] := by decide
theorem test_step_idle : step State.reset = .next State.reset := rfl
theorem test_sound : State.reset.sound := ⟨rfl, rfl, rfl⟩

theorem test_write_rows : Params.row (P.FE_IN_MODE 1) ≠ none ∧ (Params.row P.SYS_EPOCH_LEAD).map (·.access) = some .rwi
    ∧ (Params.row (P.FE_IN_MODE 1)).map (·.access) = some .rwe ∧ (Params.row P.SYS_EPOCH).map (·.access) = some .ro
    ∧ (Params.row P.SYS_CMD_FLAGS).map (fun r => match r.access with | .w1c m => bitOf m 0 | _ => false) = some true := by decide
theorem test_write_fails : (node).writeRefusal [(P.SYS_EPOCH_LEAD, 300000), (P.SYS_EPOCH_LEAD, 3)] = some (stRange, 1)
    ∧ (node).writeRefusal [(P.SYS_EPOCH_LEAD, 3), (0xFFFFFFFF, 0)] = some (stBadParam, 1) ∧ (node).writeRefusal [(P.SYS_EPOCH_LEAD, 300000)] = none := by decide
theorem test_entry_unassigned : Params.row 0xFFFFFFFF = none ∧ entryForm 0xFFFFFFFF = some stBadParam ∧ entryForm P.SYS_EPOCH = some stBadParam := by decide
theorem test_entry_index : (node).entryRange (P.FE_IN_MODE 512) 0 = some stRange := by decide
theorem test_entry_range : (node).entryRange P.SYS_EPOCH_LEAD 3 = some stRange := by decide
theorem test_entry_sealed : ({ node with cmd := { commit := some { h := host 3, newEpoch := 1, policy := 0, tolerance := 0, instant := 0 } } } : State).entryHeld
    (P.FE_IN_MODE 1) = some stEpochConflict := by decide
def crammed : State := { node with cmd := { staged := List.replicate 4096 (P.FE_IN_MODE 2, 1) } }
theorem test_entry_full : crammed.cmd.commit = none ∧ Sparse.find? crammed.cmd.staged (P.FE_IN_MODE 1) = none ∧ 4096 ≤ crammed.cmd.staged.length
    ∧ crammed.entryHeld (P.FE_IN_MODE 1) = some stBusy := by decide +kernel
theorem test_entry_engine : P.CAL_SAMPLES ≤ P.CAL_SAMPLES ∧ P.CAL_SAMPLES ≤ P.CAL_SHUNT_TOL ∧ (node [(P.CAL_STATE, 1)]).calStateOf ≠ calIdle
    ∧ (node [(P.CAL_STATE, 1)]).entryHeld P.CAL_SAMPLES = some stLocked := by decide
theorem test_staged_order : Sparse.sorted [(P.FE_IN_MODE 1, (3 : Word))] = true ∧ 33554432 ≤ P.FE_IN_MODE 1 := by decide

/-- A waiting write, and the plot commands that wait. -/
def waitingFor (op : Nat) (p : List Word) : Outstanding := { h := { host 0 with sched := true, timeTag := 1000000 }, op, p, due := some 1000000 }
theorem test_plot_new_check : plotNewCheck node AcquisitionMemory.plotCmd = none := by decide
theorem test_plot_free_check : plotFreeCheck { node with mem := { plots := [{ id := 3, base := 0, size := 1, kind := 2, kinds := 0xFF, weights := [] }] } } [3] = none := by decide

/-- A capture of one input that has a word to copy. -/
def ringed : RingWord := { input := 4, instant := 0, pos := 0, spacing := 1000 }
def aPart : GroupCapture := { group := 1, slot := 0, inputs := [{ input := 4, cls := 0, meas := false, thresh := 0 }], pre := 0, post := 1000 }
def open1 : Capture :=
  { id := 1, instant := 0, pre := 0, post := 1000, cause := 0, seqs := 0, radius := 0, distance := 0, flags := 0, groups := [aPart], dir := 0, closed := true, end_ := 0 }
def copying : State := { node with mem := { rings := [(1, { words := [ringed] })] }, trg := { (node).trg with captures := [open1] } }
theorem test_block_waits : copying.trg.captures.find? (fun c => copying.blockWaits c 4 && (Sparse.get {} c.furrows 4 : FurrowPart).blocks.length == 0) = some open1
    ∧ (open1.partOf 4).isSome = true := by decide

theorem test_stamp_room : (node.timing 4).buffer.length < 4
    ∧ 4 ≤ ((node.setTiming 4 { buffer := List.replicate 4 (0, 0, 0) }).timing 4).buffer.length := by decide
/-- Descriptors of two priorities. -/
def desc (prio seq : Nat) : Descriptor :=
  { seq, kind := 0, run := 0, prio, first := true, last := true, refetch := false, marks := ⟨false, false⟩, dir := 0, offset := 0, len := 64, store := 16, addr := 0
    pushed := 0, length := 64, hopsW := 0, hopsE := 0 }
theorem test_pop_best : bestOf [desc 2 0, desc 1 1, desc 1 2] = some (desc 1 1) := by decide
theorem test_reload_cause : (7 : Nat) < 4294967296 ∧ ((node [(P.SYS_NODE_ID, 9)]).reloadReset 2 7).rdN P.SYS_NODE_ID = 9
    ∧ ((node [(P.SYS_NODE_ID, 9)]).reloadReset 2 7).rdN P.PWR_RESET_CAUSE = 7 := by decide

theorem test_claim_roles : (pair).dieState 0 = dieInStep ∧ (pair).claim 0 = 64 * 2 + 63 ∧ (pair).claim 1 = 64 + 63 ∧ (node).claim 1 = 63 := by decide
theorem test_claim_forced : ({ pair with red := { (pair).red with forced := some 1 } } : State).claim 1 = 64 * 3 + 63 := by decide
theorem test_band : bandOf 0 85000 = 1 ∧ bandOf 1 83000 = 1 ∧ bandOf 1 82999 = 0 ∧ bandOf 2 93000 = 2 ∧ bandOf 2 92999 = 1 ∧ bandOf 1 95000 = 2 := by decide
theorem test_level : classOf 15 = some (95000, 105000) ∧ classOf 16 = none ∧ levelOf (95000, 105000) 94999 = 0 ∧ levelOf (95000, 105000) 95000 = 1
    ∧ levelOf (95000, 105000) 96250 = 2 ∧ levelOf (95000, 105000) 200000 = 7 := by decide
theorem test_judge : (({ level := 2, belowSince := some 0 } : SensorRuntime).judge (95000, 105000) 94000 (secs 1)).level = 1
    ∧ (({ level := 2, belowSince := some 1 } : SensorRuntime).judge (95000, 105000) 94000 (secs 1)).level = 2
    ∧ (({ level := 2, belowSince := some 0 } : SensorRuntime).judge (95000, 105000) 94250 (secs 1)).level = 2 := by decide

/-- A record of 44 bytes. -/
def small : Record := { kind := 7, seq := 0, node := 0, run := 0, epochx := false, step := false, tbu := false, gaps := [], epoch := 0, time := 0, kspec := 0, body := [0] }
theorem test_room_sram : (node).storeFor 7 = sramStore ∧ makeRoom ((node).storeLines 16) ((node).storeSlots 16) 1 0 0 [] = (some 0, []) := by decide
theorem test_room_plot : let s : State := { node with mem := { plots := [{ id := 3, base := 8, size := 1, kind := 2, kinds := 0x80, weights := [] }] } }
    s.storeFor 7 = 3 ∧ makeRoom (s.storeLines 3) (s.storeSlots 3) 1 0 0 [] = (some 0, []) := by decide
/-- An index entry of one line. -/
def held (line : Nat) (acked : Bool) : IndexEntry := { kind := 0, seq := line, run := 0, time := 0, line, lines := 1, length := 64, acked }
theorem test_room_freed : makeRoom 2 8 1 0 2 [held 0 false, held 1 true] = (some 1, [held 0 false]) := by decide
theorem test_room_refused : makeRoom 2 8 2 0 2 [held 0 false, held 1 true] = (none, [held 0 false]) := by decide
theorem test_room_wraps : makeRoom 4 8 1 3 2 [held 3 false, held 1 false] = (some 0, [held 3 false, held 1 false]) := by decide

/-- A window of run 5 whose highest number is 2000, marked alone. -/
def aWindow : DupWindow := { node := 3, kind := 0, run := 5, high := 2000, map := 1 }
def seen : State := { node with prt := { windows := [aWindow] } }
theorem test_window_first : (node).window? 3 0 = none ∧ ((node).judgeDuplicate 3 0 5 9 false).1 = false := by decide
theorem test_window_marked : seen.window? 3 0 = some aWindow ∧ (seen.judgeDuplicate 3 0 5 2000 false).1 = true
    ∧ (seen.judgeDuplicate 3 0 5 2000 true).1 = false := by decide
theorem test_window_unmarked : ((seen.judgeDuplicate 3 0 5 977 false).2.window? 3 0).map (fun w => bitOf w.map 1023) = some true := by decide +kernel
theorem test_window_ahead : ((seen.judgeDuplicate 3 0 5 2001 false).2.window? 3 0) = some { aWindow with high := 2001, map := 3 } := by decide +kernel
theorem test_window_before : ((seen.judgeDuplicate 3 0 5 976 false).2.window? 3 0) = some aWindow := by decide
theorem test_window_run : ((seen.judgeDuplicate 3 0 132 7 false).2.window? 3 0) = some { node := 3, kind := 0, run := 132, high := 7, map := 1 }
    ∧ seen.judgeDuplicate 3 0 133 7 false = (false, seen) := by decide
/-- Requests of masters 7 and 3, and one of master 7 that has waited 64 cycles. -/
def request (master since : Nat) : SramWait := { master, word := 0, since, work := .own }
theorem test_served_lowest : servedFirst 10 [request 7 0, request 3 0, request 3 4096] = some (request 3 0) := by decide
theorem test_served_aged : servedFirst 64 [request 3 4096, request 7 0] = some (request 7 0) := by decide
/-- An atomic ADD to the upper half of a word. -/
def addHigh : SramAccess := { master := 1, address := 4, kind := .add, size := 2, data := [0xFFFFFFFF] }
def counted : State := { node with mem := { sram := [(0, 9), (4, 5)] } }
theorem test_atomic_add : addHigh.atomic = true ∧ counted.wordOut 0 0 < 2 ∧ counted.wordOut 1 0 < 2 ∧ addHigh.word? = some 0
    ∧ addHigh.shift = 32 ∧ addHigh.width = 32 := by decide +kernel
theorem test_level_order : unprecodeFrom 3 (precodeFrom 3 [0, 3, 1, 2]) = [0, 3, 1, 2] := by decide
end Rules

end Sys2Proof.Tests
end

section
/-! The scope statements: what reset leaves, and that every step keeps the state sound. -/

namespace Sys2Proof.Machine

/-! ### Every step keeps the canonical forms -/

/-- What keeps the canonical forms keeps a state sound. -/
theorem Keeps.sound {s t : State} (h : Keeps s t) (hs : s.sound) : t.sound := by
  obtain ⟨hpar, hgran, hsram⟩ := hs
  exact ⟨h.par hpar, h.gran hgran, h.sram hsram⟩

/-- Every command completes, and keeps the queue and the canonical forms: each arm of the dispatch has its rule under Laws. -/
theorem exec_keeps {s₀ s : State} (i : Instr) (h₀ : Keeps s₀ s) : ∃ u, exec i s = .next u ∧ Keeps s₀ u := by
  cases i with
  | nop _ _ => exact execNop_keeps h₀
  | ident _ _ => exact execIdent_keeps h₀
  | reset _ _ => exact execReset_keeps h₀
  | snapTake _ _ => exact execSnapTake_keeps h₀
  | snapRead _ _ => exact execSnapRead_keeps h₀
  | cancel _ _ => exact execCancel_keeps h₀
  | nodeSetidById _ _ => exact execNodeSetidById_keeps h₀
  | nodeSetidSequence _ _ => exact execNodeSetidSequence_keeps h₀
  | nodeSetidByPosition _ _ => exact execNodeSetidByPosition_keeps h₀
  | almAck _ _ => exact execAlmAck_keeps h₀
  | parRead _ _ => exact execParRead_keeps h₀
  | parWrite _ _ => exact execParWrite_keeps h₀
  | parStaged _ _ => exact execParStaged_keeps h₀
  | epochCommit _ _ => exact execEpochCommit_keeps h₀
  | epochAbort _ _ => exact execEpochAbort_keeps h₀
  | epochStatus _ _ => exact execEpochStatus_keeps h₀
  | acqStart _ _ => exact execAcqStart_keeps h₀
  | acqStop _ _ => exact execAcqStop_keeps h₀
  | acqForce _ _ => exact execAcqForce_keeps h₀
  | acqRearm _ _ => exact execAcqRearm_keeps h₀
  | acqFetch _ _ => exact execAcqFetch_keeps h₀
  | calRun _ _ => exact execCalRun_keeps h₀
  | calAbort _ _ => exact execCalAbort_keeps h₀
  | calShunt _ _ => exact execCalShunt_keeps h₀
  | calRead _ _ => exact execCalRead_keeps h₀
  | tbRead _ _ => exact execTbRead_keeps h₀
  | tbDomain _ _ => exact execTbDomain_keeps h₀
  | tbAsymSet _ _ => exact execTbAsymSet_keeps h₀
  | tbAsymMeasure _ _ => exact execTbAsymMeasure_keeps h₀
  | tbAsymClear _ _ => exact execTbAsymClear_keeps h₀
  | tbJumpPermit _ _ => exact execTbJumpPermit_keeps h₀
  | tbJumpSet _ _ => exact execTbJumpSet_keeps h₀
  | tpoArm _ _ => exact execTpoArm_keeps h₀
  | tpoDisarm _ _ => exact execTpoDisarm_keeps h₀
  | memPlotNew _ _ => exact execMemPlotNew_keeps h₀
  | memPlotFree _ _ => exact execMemPlotFree_keeps h₀
  | memPlotList _ _ => exact execMemPlotList_keeps h₀
  | memRead _ _ => exact execMemRead_keeps h₀
  | memTestStop _ _ => exact execMemTestStop_keeps h₀
  | memTestContinuous _ _ => exact execMemTestContinuous_keeps h₀
  | memTestOneLap _ _ => exact execMemTestOneLap_keeps h₀
  | redStatus _ _ => exact execRedStatus_keeps h₀
  | redSwitchMove _ _ => exact execRedSwitchMove_keeps h₀
  | redSwitchRelease _ _ => exact execRedSwitchRelease_keeps h₀
  | redSelftest _ _ => exact execRedSelftest_keeps h₀
  | lnkStatus _ _ => exact execLnkStatus_keeps h₀
  | lnkEyescanHealth _ _ => exact execLnkEyescanHealth_keeps h₀
  | lnkEyescanMap _ _ => exact execLnkEyescanMap_keeps h₀
  | lnkFallow _ _ => exact execLnkFallow_keeps h₀
  | lnkWake _ _ => exact execLnkWake_keeps h₀
  | lnkRetrain _ _ => exact execLnkRetrain_keeps h₀
  | mgtOpenChallenge _ _ => exact execMgtOpenChallenge_keeps h₀
  | mgtOpenResponse _ _ => exact execMgtOpenResponse_keeps h₀
  | mgtClose _ _ => exact execMgtClose_keeps h₀
  | mgtLog _ _ => exact execMgtLog_keeps h₀
  | mgtCntRead _ _ => exact execMgtCntRead_keeps h₀
  | mgtCntSelect _ _ => exact execMgtCntSelect_keeps h₀
  | mgtCntClear _ _ => exact execMgtCntClear_keeps h₀
  | mgtFwWrite _ _ => exact execMgtFwWrite_keeps h₀
  | mgtFwCommitCommit _ _ => exact execMgtFwCommitCommit_keeps h₀
  | mgtFwCommitConfirm _ _ => exact execMgtFwCommitConfirm_keeps h₀
  | mgtFwCommitKeys _ _ => exact execMgtFwCommitKeys_keeps h₀
  | attestMeasure _ _ => exact execAttestMeasure_keeps h₀
  | attestCert _ _ => exact execAttestCert_keeps h₀
  | tstLoop _ _ => exact execTstLoop_keeps h₀
  | tstInject _ _ => exact execTstInject_keeps h₀
  | tstCheckbit _ _ => exact execTstCheckbit_keeps h₀
  | commandReceipt _ => exact execCommandReceipt_keeps h₀
  | replyRetentionExpiry _ => exact execReplyRetentionExpiry_keeps h₀
  | scheduledCommandAct _ => exact execScheduledCommandAct_keeps h₀
  | epochCommitInstant _ => exact execEpochCommitInstant_keeps h₀
  | deferredCommitApply _ => exact execDeferredCommitApply_keeps h₀
  | snapLatch _ => exact execSnapLatch_keeps h₀
  | slotBoundary _ => exact execSlotBoundary_keeps h₀
  | slotProcess _ _ => exact execSlotProcess_keeps h₀
  | slotMarkerTimeout _ _ => exact execSlotMarkerTimeout_keeps h₀
  | flitReceive _ _ _ _ _ => exact execFlitReceive_keeps h₀
  | feControlItem _ _ _ _ => exact execFeControlItem_keeps h₀
  | feControlHoldTimeout _ _ => exact execFeControlHoldTimeout_keeps h₀
  | conversionEnd _ _ _ _ _ => exact execConversionEnd_keeps h₀
  | refMonitorFault _ _ => exact execRefMonitorFault_keeps h₀
  | wbConfirmationEnd _ _ _ => exact execWbConfirmationEnd_keeps h₀
  | groupS0Reached _ _ => exact execGroupS0Reached_keeps h₀
  | stlWordIssue _ _ => exact execStlWordIssue_keeps h₀
  | reversalInstant _ _ => exact execReversalInstant_keeps h₀
  | qresetClose _ _ => exact execQresetClose_keeps h₀
  | qresetOpen _ _ => exact execQresetOpen_keeps h₀
  | excComplianceChange _ _ _ => exact execExcComplianceChange_keeps h₀
  | clampActivate _ _ _ => exact execClampActivate_keeps h₀
  | clampRelease _ _ => exact execClampRelease_keeps h₀
  | vanLowOnset _ _ => exact execVanLowOnset_keeps h₀
  | vanLowEnd _ _ => exact execVanLowEnd_keeps h₀
  | vwSweepStart _ _ => exact execVwSweepStart_keeps h₀
  | vwSweepEnd _ _ => exact execVwSweepEnd_keeps h₀
  | vwListenStart _ _ => exact execVwListenStart_keeps h₀
  | vwListenEnd _ _ => exact execVwListenEnd_keeps h₀
  | comparatorCrossing _ _ _ => exact execComparatorCrossing_keeps h₀
  | edgeAccept _ _ => exact execEdgeAccept_keeps h₀
  | holdoffEnd _ _ => exact execHoldoffEnd_keeps h₀
  | stampWordComplete _ _ => exact execStampWordComplete_keeps h₀
  | itvSetTimeout _ _ => exact execItvSetTimeout_keeps h₀
  | itvDelayWindowClose _ _ => exact execItvDelayWindowClose_keeps h₀
  | itvResultReady _ _ => exact execItvResultReady_keeps h₀
  | stampArbiterStep _ _ => exact execStampArbiterStep_keeps h₀
  | tpoActiveEdge _ _ => exact execTpoActiveEdge_keeps h₀
  | tpoInactiveEdge _ _ => exact execTpoInactiveEdge_keeps h₀
  | hitComplete _ _ => exact execHitComplete_keeps h₀
  | hitArbiterStep _ _ => exact execHitArbiterStep_keeps h₀
  | seqTimerExpiry _ _ => exact execSeqTimerExpiry_keeps h₀
  | seqAutoFire _ _ => exact execSeqAutoFire_keeps h₀
  | captureEnd _ => exact execCaptureEnd_keeps h₀
  | windrowIntervalEnd _ _ => exact execWindrowIntervalEnd_keeps h₀
  | blockCode _ _ _ => exact execBlockCode_keeps h₀
  | stpRecordAgeClose _ => exact execStpRecordAgeClose_keeps h₀
  | itvRecordAgeClose _ => exact execItvRecordAgeClose_keeps h₀
  | hskLatch _ => exact execHskLatch_keeps h₀
  | bcnWrap _ => exact execBcnWrap_keeps h₀
  | gleanerRead _ _ _ => exact execGleanerRead_keeps h₀
  | refreshDue _ _ => exact execRefreshDue_keeps h₀
  | stackTempRead _ _ _ => exact execStackTempRead_keeps h₀
  | srmTestPace _ => exact execSrmTestPace_keeps h₀
  | srmTestSaveDone _ => exact execSrmTestSaveDone_keeps h₀
  | srmTestMarchDone _ _ _ => exact execSrmTestMarchDone_keeps h₀
  | srmTestRestoreDone _ => exact execSrmTestRestoreDone_keeps h₀
  | borrowedRegionAccess _ _ _ _ => exact execBorrowedRegionAccess_keeps h₀
  | timeBlockSend _ _ => exact execTimeBlockSend_keeps h₀
  | timeBlockReceive _ _ _ => exact execTimeBlockReceive_keeps h₀
  | domainLossTimeout _ => exact execDomainLossTimeout_keeps h₀
  | tbLockAchieved _ => exact execTbLockAchieved_keeps h₀
  | tbPhaseErrorExceed _ => exact execTbPhaseErrorExceed_keeps h₀
  | correctionRemeasure _ => exact execCorrectionRemeasure_keeps h₀
  | slewComplete _ => exact execSlewComplete_keeps h₀
  | tbStep _ => exact execTbStep_keeps h₀
  | tbJumpSetApply _ => exact execTbJumpSetApply_keeps h₀
  | ppsinEdge _ => exact execPpsinEdge_keeps h₀
  | ppsMissing _ => exact execPpsMissing_keeps h₀
  | modelRecord _ _ => exact execModelRecord_keeps h₀
  | modelRefit _ => exact execModelRefit_keeps h₀
  | codewordTransmit _ _ _ => exact execCodewordTransmit_keeps h₀
  | codewordReceive _ _ _ => exact execCodewordReceive_keeps h₀
  | slotReceive _ _ _ => exact execSlotReceive_keeps h₀
  | lanePllLocked _ _ => exact execLanePllLocked_keeps h₀
  | serWindowEnd _ _ _ => exact execSerWindowEnd_keeps h₀
  | trainTimeout _ _ => exact execTrainTimeout_keeps h₀
  | rejoinHoldExpiry _ _ => exact execRejoinHoldExpiry_keeps h₀
  | laneFaultRetry _ _ => exact execLaneFaultRetry_keeps h₀
  | laneFault _ _ _ => exact execLaneFault_keeps h₀
  | lmaskSwitch _ _ => exact execLmaskSwitch_keeps h₀
  | densityWindowEnd _ _ _ => exact execDensityWindowEnd_keeps h₀
  | eyeHealthCheck _ _ => exact execEyeHealthCheck_keeps h₀
  | eyeHealthCheckDone _ _ _ _ => exact execEyeHealthCheckDone_keeps h₀
  | eyescanDone _ _ _ _ _ => exact execEyescanDone_keeps h₀
  | rateOffsetFault _ _ => exact execRateOffsetFault_keeps h₀
  | modulePresenceChange _ _ _ _ => exact execModulePresenceChange_keeps h₀
  | modintAssert _ _ _ => exact execModintAssert_keeps h₀
  | moduleFlagPoll _ _ _ => exact execModuleFlagPoll_keeps h₀
  | lnkWakeTimeout _ _ => exact execLnkWakeTimeout_keeps h₀
  | frameReceive _ _ _ => exact execFrameReceive_keeps h₀
  | ackReceive _ _ _ => exact execAckReceive_keeps h₀
  | retransmitTimeout _ _ => exact execRetransmitTimeout_keeps h₀
  | xoffAckRepeat _ _ => exact execXoffAckRepeat_keeps h₀
  | frameSend _ _ => exact execFrameSend_keeps h₀
  | posSend _ _ => exact execPosSend_keeps h₀
  | posReceive _ _ _ _ _ => exact execPosReceive_keeps h₀
  | posTimeout _ _ => exact execPosTimeout_keeps h₀
  | portBroken _ _ => exact execPortBroken_keeps h₀
  | dispatchPush _ => exact execDispatchPush_keeps h₀
  | dispatchPop _ => exact execDispatchPop_keeps h₀
  | dispatchDrop _ => exact execDispatchDrop_keeps h₀
  | segmentTimeout _ => exact execSegmentTimeout_keeps h₀
  | sheafWaitExpiry _ => exact execSheafWaitExpiry_keeps h₀
  | tagFree _ => exact execTagFree_keeps h₀
  | deliveryWrite _ _ => exact execDeliveryWrite_keeps h₀
  | msixModTimeout _ _ => exact execMsixModTimeout_keeps h₀
  | commandRingFetch _ entry0 _ _ => exact execCommandRingFetch_keeps (_entry0 := entry0) h₀
  | cmdTailWrite _ _ => exact execCmdTailWrite_keeps h₀
  | cmdCtrlWrite _ _ => exact execCmdCtrlWrite_keeps h₀
  | ctrlWrite _ _ _ => exact execCtrlWrite_keeps h₀
  | consWrite _ _ _ => exact execConsWrite_keeps h₀
  | bar0RegisterWrite _ _ _ => exact execBar0RegisterWrite_keeps h₀
  | pcieLinkUp _ _ _ => exact execPcieLinkUp_keeps h₀
  | pcieLinkDown _ => exact execPcieLinkDown_keeps h₀
  | functionLevelReset _ => exact execFunctionLevelReset_keeps h₀
  | announceReceive _ _ => exact execAnnounceReceive_keeps h₀
  | dieItemCompare _ _ => exact execDieItemCompare_keeps h₀
  | compareWindowTimeout _ => exact execCompareWindowTimeout_keeps h₀
  | attributionCheck _ _ _ => exact execAttributionCheck_keeps h₀
  | claimItemReceive _ _ => exact execClaimItemReceive_keeps h₀
  | arbitrationTimeout _ => exact execArbitrationTimeout_keeps h₀
  | revertHoldExpiry _ => exact execRevertHoldExpiry_keeps h₀
  | selftestComplete _ _ _ => exact execSelftestComplete_keeps h₀
  | selftestRetry _ _ => exact execSelftestRetry_keeps h₀
  | syncStateSent _ => exact execSyncStateSent_keeps h₀
  | syncStoreCopied _ => exact execSyncStoreCopied_keeps h₀
  | syncRingFilled _ => exact execSyncRingFilled_keeps h₀
  | alarmFlitReceive _ _ _ _ => exact execAlarmFlitReceive_keeps h₀
  | alarmRefresh _ _ => exact execAlarmRefresh_keeps h₀
  | remoteEntryExpiry _ => exact execRemoteEntryExpiry_keeps h₀
  | almAckAct _ => exact execAlmAckAct_keeps h₀
  | padReadbackFault _ _ _ => exact execPadReadbackFault_keeps h₀
  | loopUpdate _ _ => exact execLoopUpdate_keeps h₀
  | loopReadbackCheck _ _ _ => exact execLoopReadbackCheck_keeps h₀
  | loopRetry _ _ => exact execLoopRetry_keeps h₀
  | calStart _ => exact execCalStart_keeps h₀
  | calHoldDone _ => exact execCalHoldDone_keeps h₀
  | calPointDone _ _ => exact execCalPointDone_keeps h₀
  | calRelease _ => exact execCalRelease_keeps h₀
  | calAbortAct _ => exact execCalAbortAct_keeps h₀
  | calStoreComplete _ _ => exact execCalStoreComplete_keeps h₀
  | pchkPeriod _ _ => exact execPchkPeriod_keeps h₀
  | pchkPulseTest _ _ _ => exact execPchkPulseTest_keeps h₀
  | watchdogExpiry _ _ => exact execWatchdogExpiry_keeps h₀
  | sensorConversion _ _ _ => exact execSensorConversion_keeps h₀
  | throttleApply _ => exact execThrottleApply_keeps h₀
  | riseEventEnd _ => exact execRiseEventEnd_keeps h₀
  | riseHoldExpiry _ => exact execRiseHoldExpiry_keeps h₀
  | stopDrainEnd _ => exact execStopDrainEnd_keeps h₀
  | stopMaxExpiry _ => exact execStopMaxExpiry_keeps h₀
  | resume _ => exact execResume_keeps h₀
  | hardwareTrip _ _ => exact execHardwareTrip_keeps h₀
  | hardStopEnd _ => exact execHardStopEnd_keeps h₀
  | lowTempRelease _ _ => exact execLowTempRelease_keeps h₀
  | nonceExpiry _ => exact execNonceExpiry_keeps h₀
  | sessionExpiry _ => exact execSessionExpiry_keeps h₀
  | openLockoutEnd _ => exact execOpenLockoutEnd_keeps h₀
  | logPersist _ => exact execLogPersist_keeps h₀
  | configSave _ => exact execConfigSave_keeps h₀
  | configSaveHourly _ => exact execConfigSaveHourly_keeps h₀
  | fwWriteComplete _ _ => exact execFwWriteComplete_keeps h₀
  | fwCommitComplete _ => exact execFwCommitComplete_keeps h₀
  | porNChange _ _ => exact execPorNChange_keeps h₀
  | rstNPulse _ _ => exact execRstNPulse_keeps h₀
  | railOutOfWindow _ _ _ => exact execRailOutOfWindow_keeps h₀
  | brownOut _ _ => exact execBrownOut_keeps h₀
  | vanStop _ _ => exact execVanStop_keeps h₀
  | vanStopRelease _ _ => exact execVanStopRelease_keeps h₀
  | coldReset _ => exact execColdReset_keeps h₀
  | moduleReset _ => exact execModuleReset_keeps h₀
  | concentratorReset _ => exact execConcentratorReset_keeps h₀
  | dieReset _ _ => exact execDieReset_keeps h₀
  | frontEndReset _ _ => exact execFrontEndReset_keeps h₀
  | dieReady _ _ => exact execDieReady_keeps h₀
  | joinWaitExpiry _ _ => exact execJoinWaitExpiry_keeps h₀
  | granaryReady _ => exact execGranaryReady_keeps h₀
  | crystalFault _ => exact execCrystalFault_keeps h₀
  | tbJumpSetTimeout _ => exact execTbJumpSetTimeout_keeps h₀
  | brownOutResetRelease _ => exact execBrownOutResetRelease_keeps h₀
  | railBackInWindow _ _ => exact execRailBackInWindow_keeps h₀
  | frontEndReloaded _ _ => exact execFrontEndReloaded_keeps h₀
  | attestSignatureDone _ => exact execAttestSignatureDone_keeps h₀

/-- A command whose effect is run on a sound state ends in a sound state. -/
theorem exec_sound {i : Instr} {s t : State} (hs : s.sound) (e : exec i s = .next t) : t.sound := by
  obtain ⟨u, hu, hk⟩ := exec_keeps i (Keeps.refl s)
  obtain rfl : u = t := Host.Outcome.next.inj (hu.symm.trans e)
  exact hk.sound hs

/-- On an empty queue the block idles (log 1). -/
theorem step_of_idle {s : State} (h : s.pending = []) : step s = .next s := by
  simp [step, h]
/-- The front command runs on the state with the queue's rest (log 1). -/
theorem step_of_front {s : State} {c : Instr} {rest : List Instr} (h : s.pending = c :: rest) :
    step s = exec c { s with pending := rest } := by
  simp [step, h]

/-- Settles O4: a step runs one command, or none, and the rule of every command keeps the canonical forms. -/
theorem stepKeepsSound : Obligations.StepKeepsSound := by
  intro s t hs e
  cases hq : s.pending with
  | nil =>
    obtain rfl : s = t := Host.Outcome.next.inj ((step_of_idle hq).symm.trans e)
    exact hs
  | cons c rest =>
    have hrest : ({ s with pending := rest } : State).sound := hs
    exact exec_sound hrest ((step_of_front hq).symm.trans e)

/-! ### What reset leaves -/

/-- The row of an address is that of its item in the table of its block (R49). -/
theorem Params.row_of_item {b t i : Nat} (ht : t < 256) (hi : i < 65536) :
    row (16777216 * b + 65536 * t + i) = (block b).find? (fun r => r.item == t) := by
  have hb : blockOf (16777216 * b + 65536 * t + i) = b := by unfold blockOf; omega
  have hitem : itemOf (16777216 * b + 65536 * t + i) = t := by unfold itemOf; omega
  rw [row, hb, hitem]

/-- An item whose row gives one value for every index has it at reset. -/
theorem Params.reset_of_const {k n : Nat} {r : ParamRow} (hr : row k = some r) (hn : r.reset = .const n) : reset k = BitVec.ofNat 32 n := by
  simp [reset, hr, hn, resetAt]

/-- After reset a parameter reads its reset value (R10, R49). -/
theorem State.reset_rd (k : Nat) : State.reset.rd k = Params.reset k := rfl

/-- After reset an item whose row gives one value reads it at every index; the address is given by its block, item and index (R49). -/
theorem State.reset_rdN_of_const (b t i : Nat) {n : Nat} {r : ParamRow} (ht : t < 256) (hi : i < 65536)
    (hr : (Params.block b).find? (fun r => r.item == t) = some r) (hn : r.reset = .const n) (h : n < 4294967296) :
    State.reset.rdN (16777216 * b + 65536 * t + i) = n := by
  have hv := Params.reset_of_const ((Params.row_of_item ht hi).trans hr) hn
  rw [State.rdN, State.reset_rd, hv, BitVec.toNat_ofNat]
  exact Nat.mod_eq_of_lt h

/-- ADC_USER_GAIN over its whole row (R133 Table 4-8). -/
theorem State.reset_userGain (i : Nat) (h : i < 512) : State.reset.rdN (P.ADC_USER_GAIN i) = 0x40000000 :=
  State.reset_rdN_of_const 0x03 0x09 i (by decide) (by omega) rfl rfl (by decide)

/-- TRG_SEQ_STATE over its whole row (R234 Table 7-15). -/
theorem State.reset_seqState (q : Nat) (h : q < 32) : State.reset.rdN (P.TRG_SEQ_STATE q) = 8 :=
  State.reset_rdN_of_const 0x06 0x32 q (by decide) (by omega) rfl rfl (by decide)

/-- MGT_TEMP over its whole row (R485 Table 15-15). -/
theorem State.reset_temp (i : Nat) (h : i < 17) : State.reset.rdN (P.MGT_TEMP i) = 0x80000000 :=
  State.reset_rdN_of_const 0x11 0x10 i (by decide) (by omega) rfl rfl (by decide)

/-- Both dies are in BOOT after reset (R418 Table 12-12). -/
theorem State.reset_dieState (d : Nat) (h : d < 2) : State.reset.dieState d = dieBoot :=
  State.reset_rdN_of_const 0x0E 0x13 d (by decide) (by omega) rfl rfl (by decide)

/-- Settles O5: the parameter file and the memories of the reset state list nothing, so each parameter reads the value of its row and each
byte 0 (log 5). -/
theorem resetValues : Obligations.ResetValues := by
  refine ⟨State.reset_rd, fun a => ⟨Sparse.get_nil 0 a, Sparse.get_nil 0 a⟩, rfl, rfl, rfl, rfl, State.reset_dieState 0 (by decide),
    State.reset_dieState 1 (by decide), ?tbState, ?lead, ?quality, ?uncert, fun i h => State.reset_userGain i (by omega),
    fun g h => State.reset_seqState g (by omega), ?free, State.reset_temp, ?health, ?samples, ?resume⟩
  case tbState => exact State.reset_rdN_of_const 0x05 0x00 0 (by decide) (by decide) rfl rfl (by decide)
  case lead => exact State.reset_rdN_of_const 0x01 0x06 0 (by decide) (by decide) rfl rfl (by decide)
  case quality => exact State.reset_rdN_of_const 0x05 0x05 0 (by decide) (by decide) rfl rfl (by decide)
  case uncert => exact State.reset_rdN_of_const 0x05 0x11 0 (by decide) (by decide) rfl rfl (by decide)
  case free => exact State.reset_rdN_of_const 0x09 0x01 0 (by decide) (by decide) rfl rfl (by decide)
  case health => exact State.reset_rdN_of_const 0x0E 0x01 0 (by decide) (by decide) rfl rfl (by decide)
  case samples => exact State.reset_rdN_of_const 0x0F 0x00 0 (by decide) (by decide) rfl rfl (by decide)
  case resume => exact State.reset_rdN_of_const 0x13 0x06 0 (by decide) (by decide) rfl rfl (by decide)

end Sys2Proof.Machine
end

section
/-! The statements on the claim number of a die, and on the general commands and NODE.SETID (chapter 2). -/

namespace Sys2Proof.Machine

/-! ### The claim number of a die (R19, R399, R400, R408) -/

/-- HEALTH spelled out over the rows of Table 12-3. -/
theorem State.health_eq (s : State) (d : Nat) : s.health d = 63 -
    ((if s.sliceFail d < 9 then 16 else 0) + 8 * min 4 (s.die d).marches + (if s.rdN P.RED_CE_LIMIT < s.ceLastHour d then 4 else 0)
      + (if (s.memDie d).granGleaner.slow = true ∨ (s.memDie d).sramGleaner.slow = true then 2 else 0) + (if (s.die d).hot = true then 8 else 0)
      + (if s.clockFast d = true then 8 else 0) + (if (s.die d).aloneFault = true then 16 else 0) + (if (s.die d).unresFault = true then 32 else 0)) := by
  have marches : (if 0 < (s.die d).marches then 8 * min 4 (s.die d).marches else 0) = 8 * min 4 (s.die d).marches := by split <;> omega
  simp only [State.health, penaltyBits, State.penalty, State.penaltyPoints, List.map_cons, List.map_nil, List.sum_cons, List.sum_nil, decide_eq_true_eq,
    Bool.or_eq_true, marches]
  omega

theorem State.health_lt (s : State) (d : Nat) : s.health d < 64 := Nat.lt_succ_of_le (Nat.sub_le _ _)
/-- HEALTH stands in bits [5:0] of the claim, ROLE above it. -/
theorem State.claim_mod (s : State) (d : Nat) : s.claim d % 64 = s.health d := by
  rw [State.claim, Nat.mul_add_mod]; exact Nat.mod_eq_of_lt (s.health_lt d)
theorem State.claim_div (s : State) (d : Nat) : s.claim d / 64 = s.role d := by
  have := s.health_lt d
  unfold State.claim; omega

/-- ROLE is OUT exactly for a die that is not IN_STEP. -/
theorem State.role_eq_zero_iff (s : State) (d : Nat) : s.role d = 0 ↔ s.dieState d ≠ dieInStep := by
  constructor
  · intro h g
    simp only [State.role, g, ne_eq, not_true_eq_false, if_false] at h
    split at h
    · omega
    · split at h <;> omega
  · exact fun h => if_pos h
theorem State.role_forced {s : State} {d : Nat} (h : s.dieState d = dieInStep) (g : s.red.forced = some d) : s.role d = 3 := by
  simp [State.role, h, g]
theorem State.role_unforced {s : State} {d : Nat} (h : s.dieState d = dieInStep) (g : s.red.forced ≠ some d) :
    s.role d = if s.rdN P.RED_PREF = d ∧ s.rdN P.RED_HEALTH_MIN ≤ s.health d ∧ (s.die d).preferAt ≤ s.time then 2 else 1 := by
  simp [State.role, h, g, and_assoc]

/-- The second of two claims wins only when it is higher; CD-A wins a tie (R19). -/
theorem winnerOf_eq_one_iff (a b : Nat) : winnerOf a b = 1 ↔ a < b := by simp [winnerOf]
theorem winnerOf_eq_zero_iff (a b : Nat) : winnerOf a b = 0 ↔ b ≤ a := by simp [winnerOf]

/-- Settles O54: a claim is ROLE over HEALTH, each as its table gives it. -/
theorem claimNumber : Obligations.ClaimNumber := by
  refine ⟨fun s d => ⟨?health, ?out, ?forced, ?unforced⟩, fun a b => ⟨winnerOf_eq_one_iff a b, winnerOf_eq_zero_iff a b⟩⟩
  case health => exact (s.claim_mod d).trans (s.health_eq d)
  case out => rw [s.claim_div]; exact s.role_eq_zero_iff d
  case forced => intro h g; rw [s.claim_div]; exact State.role_forced h g
  case unforced => intro h g; rw [s.claim_div, State.role_unforced h g, s.health_eq]

/-! ### The general commands (R29, R47, R48, R64 to R66, R445, R494) -/

/-- RESET with a kind and a unit that Table 16-10 gives, not scheduled: the reset waits for its instant and the reply is sent (R494). -/
theorem resetBody_of_unscheduled {s : State} {h : Hdr} {w : Word} (hs : h.sched = false) (hw : w.toNat < 64) (h3 : bitOf w.toNat 3 = false)
    (hk : bits w.toNat 2 0 ≤ 4) (hu : bits w.toNat 2 0 < 3 → bits w.toNat 5 4 = 0)
    (hd : bits w.toNat 2 0 = 3 → bits w.toNat 5 4 < 2 ∧ (s.inService (bits w.toNat 5 4) = true → s.inService (1 - bits w.toNat 5 4) = true)) :
    resetBody h [w] s = (s.pushReset (bits w.toNat 2 0) (bits w.toNat 5 4) (4 + bits w.toNat 2 0) s.resetInstant, .final stOk []) := by
  have hp : ¬(64 ≤ w.toNat) := by omega
  have hbad : ¬(bits w.toNat 2 0 < 3 ∧ bits w.toNat 5 4 ≠ 0 ∨ bits w.toNat 2 0 = 3 ∧ 2 ≤ bits w.toNat 5 4) := by
    rintro (⟨g, n⟩ | ⟨g, n⟩)
    · exact n (hu g)
    · have := (hd g).1; omega
  have hlocked : ¬((bits w.toNat 2 0 = 3 ∧ s.inService (bits w.toNat 5 4) = true) ∧ s.inService (1 - bits w.toNat 5 4) = false) := by
    rintro ⟨⟨g, n⟩, m⟩
    rw [(hd g).2 n] at m; cases m
  have hrange : ¬(5 ≤ bits w.toNat 2 0) := by omega
  simp [resetBody, word, hs, hp, h3, hbad, hlocked, hrange, State.queueReset, okay]

/-- SNAP.TAKE with a mask and CLEAR in range, while no other snapshot waits (R64). -/
theorem snapTakeBody_of_free {s : State} {h : Hdr} {m c : Word} (h0 : bitOf m.toNat 0 = false) (hm : m.toNat < 1048576) (hc : c.toNat < 2)
    (hw : s.cmd.snapWait = none) :
    snapTakeBody h [m, c] s =
      ({ s with cmd := { s.cmd with snapWait := some { h, mask := m.toNat, clear := c.toNat == 1, instant := s.actInstant h } } },
        if h.sched then .later (some (s.actInstant h)) else .quiet (some (s.actInstant h))) := by
  have hm' : ¬(1048576 ≤ m.toNat) := by omega
  have hc' : ¬(2 ≤ c.toNat) := by omega
  simp [snapTakeBody, word, h0, hm', hc', hw]

/-- SNAP.READ of the latest snapshot and a block it holds (R66). -/
theorem snapReadBody_of_held {s : State} {n k c : Word} {x : Snapshot} (hn : n.toNat < 65536) (hc : c.toNat < 256) (hid : n.toNat = s.rdN P.SYS_SNAP_ID)
    (hspan : spanRefusal k.toNat c.toNat = none) (hx : s.cmd.snap = some x) (hb : bitOf x.mask (Params.blockOf k.toNat) = true) :
    snapReadBody [n, k, c] s = okay s ((spanKeys k.toNat c.toNat).map x.read) := by
  have hn' : ¬(65536 ≤ n.toNat) := by omega
  have hc' : ¬(256 ≤ c.toNat) := by omega
  simp [snapReadBody, word, hn', hc', ← hid, hspan, hx, hb]

/-- CANCEL of a command that waits and acts 10 µs from now or later (R47). -/
theorem cancelBody_of_waiting {s : State} {h : Hdr} {w : Word} {o : Outstanding} (hw : w.toNat < 65536)
    (ho : s.cmd.outstanding.find? (fun o => o.h.issuer == h.issuer && o.h.tag.toNat == w.toNat && o.h.sched && o.due.isSome) = some o)
    (ht : s.time + usec 10 ≤ ns o.h.timeTag.toNat) : cancelBody h [w] s = okay (s.withdraw o) := by
  have hw' : ¬(65536 ≤ w.toNat) := by omega
  have ht' : ¬(ns o.h.timeTag.toNat < s.time + usec 10) := by omega
  have ho' : s.cmd.outstanding.find? (fun o => o.h.issuer == h.issuer && o.h.tag.toNat == word [w] 0 && o.h.sched && o.due.isSome) = some o := ho
  simp only [cancelBody, ho']
  simp [word, hw', ht']

/-- ALM.ACK of some line waits for the first slot boundary (R445). -/
theorem almAckBody_of_lines {s : State} {w : Word} (hw : w.toNat < 256) (h0 : w ≠ 0) :
    almAckBody [w] s = (s, .quiet (some (boundaryAfter s.now))) := by
  have hw' : ¬(256 ≤ w.toNat) := by omega
  have h0' : w.toNat ≠ 0 := fun e => h0 (BitVec.eq_of_toNat_eq e)
  simp [almAckBody, word, hw', h0']

/-! ### NODE.SETID (R368) -/

/-- What an ID that NODE.SETID gives does at once: an ID outside 1 to 0xFFE is refused, another is taken at the first slot boundary after the reply. -/
def State.giveId (s : State) (h : Hdr) (id : Nat) : State :=
  if id = 0 ∨ 0xFFE < id then s.finish 0x06 h stRange []
  else ({ s with cmd := { s.cmd with newId := some (id, boundaryAfter s.now) } }).finish 0x06 h stOk [BitVec.ofNat 32 id]

theorem State.answer_takeId (s : State) (h : Hdr) (p : List Word) (id : Nat) : (s.takeId id).1.answer 0x06 h p (s.takeId id).2 = s.giveId h id := by
  by_cases g : id = 0 ∨ 0xFFE < id
  · simp [State.takeId, State.giveId, g, refuse, State.answer]
  · simp [State.takeId, State.giveId, g, okay, State.answer]

theorem setidBody_byId (s : State) {h : Hdr} {n : Word} (hn : n.toNat < 4096) (ht : h.target ≠ 0xFFF) : setidBody h [0, n, 0] s = s.takeId n.toNat := by
  have hn' : ¬(4096 ≤ n.toNat) := by omega
  simpa [setidBody, word, bits, hn'] using fun e => absurd e ht

theorem setidBody_byPosition (s : State) {h : Hdr} {n w : Word} (hn : n.toNat < 4096) (hw : w.toNat < 4096) (ht : h.target = 0xFFF) :
    setidBody h [2, n, w] s = if s.hopsFrom h = w.toNat then s.takeId n.toNat else (s, .silent) := by
  have hn' : ¬(4096 ≤ n.toNat) := by omega
  have hw' : ¬(4096 ≤ w.toNat) := by omega
  by_cases g : s.hopsFrom h = w.toNat <;> simp [setidBody, word, bits, hn', hw', ht, g]

/-- MODE of a SEQUENCE with FORCE and DOWN. -/
def sequenceMode (force down : Bool) : Word := BitVec.ofNat 32 (1 + 4 * b2n force + 8 * b2n down)

/-- A node that has an ID keeps it unless FORCE is set; another reckons its own from its hops. -/
theorem setidBody_sequence (s : State) {h : Hdr} {n : Word} (force down : Bool) (hn : n.toNat < 4096) (ht : h.target = 0xFFF) :
    setidBody h [sequenceMode force down, n, 0] s = if s.rdN P.SYS_NODE_ID ≠ 0 ∧ force = false then okay s [s.rd P.SYS_NODE_ID]
      else s.takeId (if down then n.toNat - s.hopsFrom h else n.toNat + s.hopsFrom h) := by
  have hn' : ¬(4096 ≤ n.toNat) := by omega
  cases force <;> cases down <;> simp [setidBody, word, sequenceMode, b2n, bits, bitOf, hn', ht]

theorem forceMode_sequenceMode (force down : Bool) (ps : List Word) :
    forceMode (sequenceMode force down :: ps) 0 2 1 = sequenceMode force down :: ps := by
  cases force <;> cases down <;> rfl

/-- NODE.SETID BY_ID gives the named node the ID sent (R368). -/
theorem exec_setidById {s : State} {h : Hdr} {n : Word} (hn : n.toNat < 4096) (g : s.passes 0x06 h [0, n, 0]) (ht : h.target ≠ 0xFFF) :
    exec (.nodeSetidById h [0, n, 0]) s = .next ((s.at_ h.at_).giveId h n.toNat) := by
  have e : exec (.nodeSetidById h [0, n, 0]) s = .next (s.receive 0x06 h [0, n, 0] (setidBody h [0, n, 0])) := rfl
  rw [e, State.receive_of_passes g, setidBody_byId _ hn ht, State.answer_takeId]

/-- NODE.SETID SEQUENCE: a node that has an ID answers it unless FORCE is set, another takes the ID its hops give (R368; log 15). -/
theorem exec_setidSequence {s : State} {h : Hdr} {n : Word} (force down : Bool) (hn : n.toNat < 4096)
    (g : s.passes 0x06 h [sequenceMode force down, n, 0]) (ht : h.target = 0xFFF) : let r := s.at_ h.at_
    exec (.nodeSetidSequence h [sequenceMode force down, n, 0]) s
      = .next (if r.rdN P.SYS_NODE_ID ≠ 0 ∧ force = false then r.finish 0x06 h stOk [r.rd P.SYS_NODE_ID]
               else r.giveId h (if down then n.toNat - r.hopsFrom h else n.toNat + r.hopsFrom h)) := by
  intro r
  have e : exec (.nodeSetidSequence h [sequenceMode force down, n, 0]) s
      = .next (s.receive 0x06 h (forceMode [sequenceMode force down, n, 0] 0 2 1) (setidBody h (forceMode [sequenceMode force down, n, 0] 0 2 1))) := rfl
  rw [e, forceMode_sequenceMode, State.receive_of_passes g, setidBody_sequence _ force down hn ht]
  by_cases named : r.rdN P.SYS_NODE_ID ≠ 0 ∧ force = false
  · rw [if_pos named, if_pos named]; rfl
  · rw [if_neg named, if_neg named, State.answer_takeId]

/-- NODE.SETID BY_POSITION gives the node at the position the ID sent; a node at another answers nothing (R368). -/
theorem exec_setidByPosition {s : State} {h : Hdr} {n w : Word} (hn : n.toNat < 4096) (hw : w.toNat < 4096) (g : s.passes 0x06 h [2, n, w])
    (ht : h.target = 0xFFF) : let r := s.at_ h.at_
    exec (.nodeSetidByPosition h [2, n, w]) s = .next (if r.hopsFrom h = w.toNat then r.giveId h n.toNat else r) := by
  intro r
  have e : exec (.nodeSetidByPosition h [2, n, w]) s = .next (s.receive 0x06 h [2, n, w] (setidBody h [2, n, w])) := rfl
  rw [e, State.receive_of_passes g, setidBody_byPosition _ hn hw ht]
  by_cases here : r.hopsFrom h = w.toNat
  · rw [if_pos here, if_pos here, State.answer_takeId]
  · rw [if_neg here, if_neg here]; rfl

/-- Settles O10: each command's own checks pass and give its effect and answer (NOP's, IDENT's and an unchanged SETID's words are the model's choices,
logs 47 and 15). -/
theorem generalAndSetidCommandsComplete : Obligations.GeneralAndSetidCommandsComplete := by
  refine ⟨fun s h => ⟨?nop, ?ident, ?reset, ?snapTake, ?snapRead, ?cancel, ?almAck⟩, fun s h n w hn hw => ⟨?byId, ?sequence, ?byPosition⟩⟩
  case nop => exact fun g => congrArg Host.Outcome.next (State.receive_final g rfl)
  case ident => exact fun g => congrArg Host.Outcome.next (State.receive_final g rfl)
  case reset =>
    intro w g hs hw h3 hk hu hd
    exact congrArg Host.Outcome.next (State.receive_final g (resetBody_of_unscheduled hs hw h3 hk hu hd))
  case snapTake =>
    intro m c g h0 hm hc hw
    have e := snapTakeBody_of_free (s := s.at_ h.at_) (h := h) h0 hm hc hw
    refine congrArg Host.Outcome.next ?_
    by_cases hs : h.sched
    · simp only [hs, if_true] at e ⊢
      simpa [State.actInstant, hs] using State.receive_later g e
    · simp only [hs, if_false, Bool.false_eq_true] at e ⊢
      simpa [State.actInstant, hs] using State.receive_quiet g e
  case snapRead =>
    intro n k c x g hn hc hid hspan hx hb
    exact congrArg Host.Outcome.next (State.receive_final g (snapReadBody_of_held hn hc hid hspan hx hb))
  case cancel =>
    intro w o g hw ho ht
    exact congrArg Host.Outcome.next (State.receive_final g (cancelBody_of_waiting hw ho ht))
  case almAck =>
    intro w g hw h0
    exact congrArg Host.Outcome.next (State.receive_quiet g (almAckBody_of_lines hw h0))
  case byId => exact fun g ht => exec_setidById hn g ht
  case sequence => exact fun force down g ht => exec_setidSequence force down hn g ht
  case byPosition => exact fun g ht => exec_setidByPosition hn hw g ht

end Sys2Proof.Machine
end

section
/-! The statement on the slot events (R15, R22, R23, R392). -/

namespace Sys2Proof.Machine

/-! ### The links of a die

What counting, sending and the notes of a die leave of the streams, and of what a die takes part in. -/

@[simp] theorem State.countIn_processes (s : State) (d c i n e : Nat) : (s.countIn d c i n).processes e = s.processes e := rfl
@[simp] theorem State.countIn_sentOf (s : State) (d c i n e src : Nat) : (s.countIn d c i n).sentOf e src = s.sentOf e src := rfl
@[simp] theorem State.countIn_gotOf (s : State) (d c i n e src : Nat) : (s.countIn d c i n).gotOf e src = s.gotOf e src := rfl
@[simp] theorem State.countIn_die (s : State) (d c i n e : Nat) : (s.countIn d c i n).die e = s.die e := rfl
@[simp] theorem State.setSent_processes (s : State) (d src : Nat) (xs : List StreamItem) (e : Nat) : (s.setSent d src xs).processes e = s.processes e := rfl
@[simp] theorem State.setSent_gotOf (s : State) (d src : Nat) (xs : List StreamItem) (e i : Nat) : (s.setSent d src xs).gotOf e i = s.gotOf e i := rfl
@[simp] theorem State.setSent_die (s : State) (d src : Nat) (xs : List StreamItem) (e : Nat) : (s.setSent d src xs).die e = s.die e := rfl
@[simp] theorem State.die_setDie_same (s : State) (d : Nat) (x : DieState) : (s.setDie d x).die d = x := Two.get_set_same _ _ _

/-- No die link under test, so a flit is not taken for a test's (R342). -/
theorem State.testFlit_of_untested {s : State} (h : s.lnk.flits = []) (d src : Nat) (good : Bool) : s.testFlit d src good = s := by
  simp [State.testFlit, h]

/-- A flit whose CRC fails is counted and asked for again. -/
theorem flitReceive_bad {s : State} (h : s.lnk.flits = []) (d src n : Nat) : flitReceive d src n false s = s.countIn d 1 src 1 := by
  simp [flitReceive, State.testFlit_of_untested h]

/-- A die that processes no slots keeps nothing of a good flit (log 19). -/
theorem flitReceive_idle {s : State} (h : s.lnk.flits = []) (d src n : Nat) (hd : s.processes d = false) :
    flitReceive d src n true s = (s.countIn d 2 src 1).setSent d src ((s.sentOf d src).drop n) := by
  simp [flitReceive, State.testFlit_of_untested h, hd]

/-- A die that processes slots appends a good flit's items to those of its source, but for those of slots it has processed (R22, R23). -/
theorem flitReceive_processing {s : State} (h : s.lnk.flits = []) (d src n : Nat) (hd : s.processes d = true) :
    let come := (s.sentOf d src).take n
    let xs := s.gotOf d src ++ come
    let a := (s.countIn d 2 src 1).setSent d src ((s.sentOf d src).drop n)
    let b := a.setDie d { a.die d with late := (a.die d).late.filter (fun m => !(m.2 == src && come.contains (.marker m.1))) }
    flitReceive d src n true s = b.setGot d src (dropLate (s.die d).slot xs.length xs) := by
  have processing : ((s.countIn d 2 src 1).setSent d src ((s.sentOf d src).drop n)).processes d = true := hd
  simp only [flitReceive, State.testFlit_of_untested h, Bool.not_true, Bool.false_eq_true, if_false, State.countIn_sentOf, processing, if_true,
    State.die_setDie_same, State.setSent_die, State.countIn_die, State.setSent_gotOf, State.countIn_gotOf]

/-- At a slot boundary that has not come before every source ends its slot with a marker, after the comparison of the alarm copies eight slots back
(log 51), and the claims, the counters and the joining dies follow (R22, R392, R408, R483, R497). -/
theorem slotBoundary_of_new {s : State} (h : s.now % 1000 = 0) (hs : s.red.slot < s.now / 1000) :
    let a := State.compareAlarms { s.settle with red := { s.settle.red with slot := s.now / 1000, forced := s.red.forcedNext } } (s.now / 1000 - 8)
    let b := ((sources.foldl (fun u src => u.send src (.marker (s.now / 1000 - 1))) a).idleLinks 0).idleLinks 1
    slotBoundary s = ((b.plannedWinner.resolveControls).exchangeCounters.joinDies).enterService := by
  have hs' : ¬(s.now / 1000 ≤ s.red.slot) := by omega
  simp [slotBoundary, h, hs']

/-! ### Processing a slot -/

/-- A slot whose effects have come about, or that the die does not act for, is only passed. -/
theorem State.processSlot_passes {s : State} {d k : Nat} (h : s.dieState d ≠ dieInStep ∨ k < s.red.done) : s.processSlot d k = s.passSlot d k := by
  simp [State.processSlot, h]

/-- A die IN_STEP brings about the effects of a slot that has none yet, when it has all of the slot's items or the other die cannot process the slot any
more (log 17). -/
theorem State.processSlot_acts {s : State} {d k : Nat} (h : s.dieState d = dieInStep) (hk : s.red.done ≤ k)
    (ho : s.absent d k = [] ∨ s.dieState (1 - d) ≠ dieInStep ∨ k < (s.die (1 - d)).slot) :
    s.processSlot d k = (s.passSlot d k).slotEffects k (s.slotItems d k) := by
  have first : ¬(s.dieState d ≠ dieInStep ∨ k < s.red.done) := by
    rintro (g | g)
    · exact g h
    · omega
  have last : ¬((s.absent d k ≠ [] ∧ s.dieState (1 - d) = dieInStep) ∧ (s.die (1 - d)).slot ≤ k) := by
    rintro ⟨⟨g, i⟩, j⟩
    rcases ho with e | e | e
    · exact g e
    · exact e i
    · omega
  simp [State.processSlot, first, last]

/-- All five markers have come: the die processes the slot (R22). -/
theorem slotProcess_of_whole {s : State} {d : Nat} (hp : s.processes d = true) (hw : s.awaitsOther d = false) (ha : s.absent d (s.nextSlot d) = []) :
    slotProcess d s = s.processSlot d (s.nextSlot d) := by
  simp [slotProcess, hp, hw, ha]

/-- 2 µs after the end of the slot the die processes it without the markers still missing (R23). -/
theorem slotMarkerTimeout_of_missing {s : State} {d : Nat} (hp : s.processes d = true) (hw : s.awaitsOther d = false)
    (ha : s.absent d (s.nextSlot d) ≠ []) (ht : 1000 * (s.nextSlot d + 1) + 2000 ≤ s.now) :
    slotMarkerTimeout d s = s.processSlot d (s.nextSlot d) := by
  have ht' : ¬(s.now < 1000 * (s.nextSlot d + 1) + 2000) := by omega
  simp [slotMarkerTimeout, hp, hw, ha, ht']

theorem State.processes_of_inStep {s : State} {d : Nat} (h : s.dieState d = dieInStep) : s.processes d = true := by
  simp [State.processes, h]

/-- Settles O25: a flit by what its die takes part in; a slot by whether its effects are still to come about and whether the other die can still bring
them about (log 17; log 19 for a die that processes no slots, log 51 for the comparison of the alarm copies). -/
theorem slotEventsComplete : Obligations.SlotEventsComplete := by
  intro s t r
  refine ⟨fun d src n h => ⟨?bad, ?idle, ?processing⟩, ?boundary, ?acts, ?passes⟩
  case bad => exact congrArg Host.Outcome.next (flitReceive_bad h d src n)
  case idle => exact fun hd => congrArg Host.Outcome.next (flitReceive_idle h d src n hd)
  case processing => exact fun hd => congrArg Host.Outcome.next (flitReceive_processing h d src n hd)
  case boundary => exact fun hb hs => congrArg Host.Outcome.next (slotBoundary_of_new hb hs)
  case acts =>
    intro d hd hw hk
    have hp := State.processes_of_inStep hd
    refine ⟨fun ha => ?whole, fun ha ht ho => ?missing⟩
    case whole => exact congrArg Host.Outcome.next ((slotProcess_of_whole hp hw ha).trans (State.processSlot_acts hd hk (.inl ha)))
    case missing =>
      exact congrArg Host.Outcome.next ((slotMarkerTimeout_of_missing hp hw ha ht).trans (State.processSlot_acts hd hk (.inr ho)))
  case passes =>
    intro d hp hw hk
    refine ⟨fun ha => ?whole, fun ha ht => ?missing⟩
    case whole => exact congrArg Host.Outcome.next ((slotProcess_of_whole hp hw ha).trans (State.processSlot_passes hk))
    case missing => exact congrArg Host.Outcome.next ((slotMarkerTimeout_of_missing hp hw ha ht).trans (State.processSlot_passes hk))

end Sys2Proof.Machine
end

section
/-! The statement on the alarm events and the loop outputs (chapter 14). -/

namespace Sys2Proof.Machine

/-! ### The alarm events (R16, R444 to R447, R451) -/

theorem State.active_congr {s u : State} (h : u.par = s.par) : u.active = s.active := congrArg BitVec.toNat (State.rd_congr h _)

/-- Passing alarm flits to the link die writes no parameter. -/
@[simp] theorem State.passAlarms_par (s : State) (d : Nat) (es : List AlarmEvent) : (s.passAlarms d es).par = s.par := by
  unfold State.passAlarms; split <;> rfl

section
variable {s : State} {d src : Nat} {e : AlarmEvent} {es : List AlarmEvent} {rest : List (Nat × AlarmEvent)}
  (hf : takeFlit src (s.alm.flits.get d) = (e :: es, rest)) (hd : s.inService d = true)
include hf hd

/-- An alarm flit that fails its CRC is counted and asked for again (R16). -/
theorem alarmFlitReceive_bad : alarmFlitReceive d src false s = s.countIn d 1 src 1 := by
  simp [alarmFlitReceive, hf, hd]

/-- A good alarm flit is passed on for comparison, and taken by the matrix at the active die (R16, R444). -/
theorem alarmFlitReceive_good :
    let a := State.passAlarms (State.countIn { s with alm := { s.alm with flits := s.alm.flits.set d rest } } d 2 src 1) d (e :: es)
    alarmFlitReceive d src true s = if d = s.active then a.matrixTake (e :: es) else a := by
  intro a
  have active : a.active = s.active := State.active_congr (State.passAlarms_par _ _ _)
  simp only [alarmFlitReceive, hf, hd, Bool.not_true, Bool.false_eq_true, if_false]
  rw [active]
end

/-- A local part that stays active is announced again a millisecond after its last word (R447). -/
theorem alarmRefresh_of_due {s : State} {l : Nat} (hl : bitOf s.alm.matrix.localMask l = true)
    (ht : Sparse.get 0 s.alm.refreshed l + msec 1 ≤ s.time) : alarmRefresh l s = s.sendWord l true := by
  simp [alarmRefresh, hl, ht]

/-- A remote entry not refreshed for 3 ms goes, unless a word that refreshes it is on its way (R451). -/
theorem remoteEntryExpiry_of_stale {s : State} {e : RemoteEntry}
    (h : s.alm.matrix.remote.find? (fun e => decide (e.at_ + 3000000 ≤ s.now) && !s.refreshComes e) = some e) :
    remoteEntryExpiry s = (s.matrixStep (.expiry e.origin e.line s.now)).send 4 (.alarm (.expiry e.origin e.line s.now)) := by
  simp only [remoteEntryExpiry, h]

/-- An acknowledgement acts at its boundary, after the flits whose changes lie before it (R445). -/
theorem almAckAct_of_due {s : State} {o : Outstanding} (h : s.firstDue 0x07 = some o) (hc : s.commitBefore (o.due.getD 0) = false)
    (he : s.earlierFirst o.h (o.due.getD 0) = false) :
    let b := s.actAt (o.due.getD 0)
    let e : AlarmEvent := .ack (word o.p 0) b
    let before := s.drainFlits b
    let after := (before.matrixStep e).send 4 (.alarm e)
    almAckAct s = after.finish 0x07 o.h stOk [BitVec.ofNat 32 (changedLines before.alm.matrix after.alm.matrix)] := by
  simp only [almAckAct, h, hc, he, Bool.or_self, Bool.false_eq_true, if_false]

/-- A pad that reads the level it does not drive is shown and logged (R446). -/
theorem padReadbackFault_of_other {s : State} {k : Nat} {driven : Bool} (h : s.alarmPin k = some driven) :
    padReadbackFault k (!driven) s = (s.setBit P.ALM_STATUS 3).logEvent 0x1001 7 3 k (b2n (!driven)) := by
  cases driven <;> simp [padReadbackFault, h]

/-! ### A bit of a status word put to a value -/

theorem State.bit_putBit (s : State) (k i j : Nat) (b : Bool) (hi : i < 32) (hj : j < 32) :
    (s.putBit k i b).bit k j = if j = i then b else s.bit k j := by
  cases b with
  | true =>
    rw [State.putBit, if_pos rfl, s.bit_setBit k i j hi]
    by_cases g : j = i <;> simp [g]
  | false =>
    have mask : bitOf (2 ^ i) j = decide (j = i) := by rw [bitOf_eq_testBit, Nat.testBit_two_pow]; exact decide_eq_decide.mpr eq_comm
    rw [State.putBit, if_neg Bool.false_ne_true, s.bit_clrBits k _ j hj, mask]
    by_cases g : j = i <;> simp [g]
@[simp] theorem State.rd_putBit_other (s : State) {k j : Nat} (i : Nat) (b : Bool) (h : j ≠ k) : (s.putBit k i b).rd j = s.rd j := by
  cases b <;> simp [State.putBit, h]
@[simp] theorem State.rdN_putBit_other (s : State) {k j : Nat} (i : Nat) (b : Bool) (h : j ≠ k) : (s.putBit k i b).rdN j = s.rdN j := by
  simp [State.rdN, h]
@[simp] theorem State.putBit_alm (s : State) (k i : Nat) (b : Bool) : (s.putBit k i b).alm = s.alm := by cases b <;> rfl
@[simp] theorem State.putBit_mem (s : State) (k i : Nat) (b : Bool) : (s.putBit k i b).mem = s.mem := by cases b <;> rfl

/-! ### Driving a loop output (R456, R457) -/

theorem State.loop_congr {s u : State} (h : u.alm = s.alm) (k : Nat) : u.loop k = s.loop k := by simp only [State.loop, h]
@[simp] theorem State.loop_setLoop_same (s : State) (k : Nat) (x : Loop) : (s.setLoop k x).loop k = x := Sparse.get_set_same _ _ _ _
theorem State.loop_setLoop_other (s : State) {k j : Nat} (x : Loop) (h : j ≠ k) : (s.setLoop k x).loop j = s.loop j :=
  Sparse.get_set_other _ _ _ _ _ _ h

/-- The current a loop is driven with at an update. -/
def State.drivenLevel (s : State) (k : Nat) : Nat := match s.loopSetpoint k with
  | .drive i => i
  | .fail => s.failLevel k (s.loop k).level
  | .held => (s.loop k).level

theorem State.drivenLevel_of_drive {s : State} {k i : Nat} (h : s.loopSetpoint k = .drive i) : s.drivenLevel k = i := by simp only [State.drivenLevel, h]
theorem State.drivenLevel_of_held {s : State} {k : Nat} (h : s.loopSetpoint k = .held) : s.drivenLevel k = (s.loop k).level := by
  simp only [State.drivenLevel, h]
theorem State.drivenLevel_of_fail {s : State} {k : Nat} (h : s.loopSetpoint k = .fail) : s.drivenLevel k = s.failLevel k (s.loop k).level := by
  simp only [State.drivenLevel, h]
theorem State.failLevel_of_zero {s : State} {k : Nat} (h : s.rdN (P.ALM_LOOP_FAIL k) = 0) (held : Nat) : s.failLevel k held = 3600 := by
  simp only [State.failLevel, h]
theorem State.failLevel_of_one {s : State} {k : Nat} (h : s.rdN (P.ALM_LOOP_FAIL k) = 1) (held : Nat) : s.failLevel k held = 21000 := by
  simp only [State.failLevel, h]
theorem State.failLevel_of_two_le {s : State} {k : Nat} (h : 2 ≤ s.rdN (P.ALM_LOOP_FAIL k)) (held : Nat) : s.failLevel k held = held := by
  unfold State.failLevel
  split
  · omega
  · omega
  · rfl

/-- The loop after an update. -/
def State.drivenLoop (s : State) (k : Nat) : Loop :=
  { s.loop k with last := s.now, level := s.drivenLevel k
                  on := if s.loopSetpoint k = .held then (s.loop k).on else s.rdN (P.ALM_LOOP_SRC k) != 0 && (s.loop k).retryAt.isNone }

/-- Whether an update holds the loop's last current, by a rule or as its failure level. -/
def State.loopHolds (s : State) (k : Nat) : Bool :=
  s.loopSetpoint k == .held || (s.loopSetpoint k == .fail && s.rdN (P.ALM_LOOP_FAIL k) == 2)

theorem State.loopHolds_of_drive {s : State} {k i : Nat} (h : s.loopSetpoint k = .drive i) : s.loopHolds k = false := by rw [State.loopHolds, h]; rfl
theorem State.loopHolds_of_held {s : State} {k : Nat} (h : s.loopSetpoint k = .held) : s.loopHolds k = true := by rw [State.loopHolds, h]; rfl
theorem State.loopHolds_of_fail {s : State} {k : Nat} (h : s.loopSetpoint k = .fail) : s.loopHolds k = decide (s.rdN (P.ALM_LOOP_FAIL k) = 2) := by
  rw [State.loopHolds, h]; rfl

theorem State.driveLoop_eq (s : State) (k : Nat) : s.driveLoop k =
    (((s.setLoop k (s.drivenLoop k)).wrN (P.ALM_LOOP_SETPOINT k) (s.drivenLevel k)).putBit (P.ALM_LOOP_STATUS k) 0 (s.loopHolds k)).putBit
      (P.ALM_LOOP_STATUS k) 3 (s.loopSetpoint k == .fail) := by
  have failRow : P.ALM_LOOP_FAIL k ≠ P.ALM_LOOP_SETPOINT k := by simp
  have mode (v : Nat) : ((s.setLoop k (s.drivenLoop k)).wrN (P.ALM_LOOP_SETPOINT k) v).rdN (P.ALM_LOOP_FAIL k) = s.rdN (P.ALM_LOOP_FAIL k) :=
    State.rdN_wrN_other _ _ failRow
  unfold State.loopHolds
  rw [← mode (s.drivenLevel k)]
  rfl

theorem State.driveLoop_setpoint (s : State) (k : Nat) : (s.driveLoop k).rdN (P.ALM_LOOP_SETPOINT k) = s.drivenLevel k % 4294967296 := by
  simp [State.driveLoop_eq]
theorem State.driveLoop_heldBit (s : State) (k : Nat) : (s.driveLoop k).bit (P.ALM_LOOP_STATUS k) 0 = s.loopHolds k := by
  simp [State.driveLoop_eq, State.bit_putBit]
theorem State.driveLoop_failBit (s : State) (k : Nat) : (s.driveLoop k).bit (P.ALM_LOOP_STATUS k) 3 = (s.loopSetpoint k == .fail) := by
  simp [State.driveLoop_eq, State.bit_putBit]
theorem State.driveLoop_loop_same (s : State) (k : Nat) : (s.driveLoop k).loop k = s.drivenLoop k := by
  rw [State.driveLoop_eq, State.loop_congr (u := State.putBit _ _ _ _) (s := s.setLoop k (s.drivenLoop k)) (by simp), State.loop_setLoop_same]
theorem State.driveLoop_level (s : State) (k : Nat) : ((s.driveLoop k).loop k).level = s.drivenLevel k := congrArg Loop.level (s.driveLoop_loop_same k)
theorem State.driveLoop_loop_other (s : State) {k j : Nat} (h : j ≠ k) : (s.driveLoop k).loop j = s.loop j := by
  rw [State.driveLoop_eq, State.loop_congr (u := State.putBit _ _ _ _) (s := s.setLoop k (s.drivenLoop k)) (by simp), State.loop_setLoop_other _ _ h]
theorem State.driveLoop_rd_other (s : State) {k a : Nat} (h : a ≠ P.ALM_LOOP_SETPOINT k) (g : a ≠ P.ALM_LOOP_STATUS k) :
    (s.driveLoop k).rd a = s.rd a := by
  rw [State.driveLoop_eq, State.rd_putBit_other _ _ _ g, State.rd_putBit_other _ _ _ g, State.rd_wrN_other _ _ h, State.setLoop_rd]
@[simp] theorem State.driveLoop_mem (s : State) (k : Nat) : (s.driveLoop k).mem = s.mem := by simp [State.driveLoop_eq]

/-- At a whole multiple of ALM_LOOP_UPDATE the loop is driven (R456). -/
theorem exec_loopUpdate_of_due {s : State} {t : Nat} {k : Fin 8} (h : (s.at_ t).now % (1000 * (s.at_ t).rdN (P.ALM_LOOP_UPDATE k)) = 0) :
    exec (.loopUpdate t k) s = .next ((s.at_ t).driveLoop k) :=
  congrArg Host.Outcome.next (if_neg (fun g => g h))

/-! ### The current read back (R458) -/

/-- The loop after the read-back check of a current. -/
def Loop.checked (x : Loop) (microA now : Nat) : Loop :=
  let low := standing x.lowSince (x.on && decide (microA + 200 < x.level)) now
  let high := standing x.highSince (decide (x.level + 200 < microA)) now
  let beyond := standing x.overSince (decide (24000 < microA)) now
  { x with lowSince := low, highSince := high, overSince := beyond, lowShown := tenMs low now, highShown := tenMs high now || tenMs beyond now
           on := x.on && !tenMs beyond now, retryAt := if tenMs beyond now && x.retryAt.isNone then some (now + secs 1) else x.retryAt }

/-- A check shows the current, notes how long each condition has stood, and reports a condition newly shown. -/
theorem loopReadbackCheck_eq (k microA : Nat) (s : State) : loopReadbackCheck k microA s =
    (let y := (s.loop k).checked microA s.time
     let u := (s.wrN (P.ALM_LOOP_MEASURED k) (min microA 30000)).setLoop k y
     let v := if y.lowShown && !(s.loop k).lowShown then u.loopFault k 1 microA else u
     if y.highShown && !(s.loop k).highShown then v.loopFault k 2 microA else v) := rfl

/-- The outcome of a check, given the loop after it. -/
theorem exec_loopReadbackCheck_of_checked {s : State} {t microA : Nat} {k : Fin 8} {y : Loop}
    (h : ((s.at_ t).loop k).checked microA (s.at_ t).time = y) : exec (.loopReadbackCheck t k microA) s = .next
      (let u := ((s.at_ t).wrN (P.ALM_LOOP_MEASURED k) (min microA 30000)).setLoop k y
       let v := if y.lowShown && !((s.at_ t).loop k).lowShown then u.loopFault k 1 microA else u
       if y.highShown && !((s.at_ t).loop k).highShown then v.loopFault k 2 microA else v) := by
  subst h; exact congrArg Host.Outcome.next (loopReadbackCheck_eq _ _ _)

/-- A condition that does not hold stands since no instant; one that holds stands on. -/
theorem standing_of_false {c : Bool} (since : Option Nat) (now : Nat) (h : c = false) : standing since c now = none := by rw [h]; rfl
theorem standing_of_true {c : Bool} {since : Option Nat} {a : Nat} (now : Nat) (h : c = true) (hs : since = some a) :
    standing since c now = some a := by rw [h, hs]; rfl

theorem Loop.checked_of_standing {x : Loop} {microA now : Nat} {low high beyond : Option Nat}
    (hl : standing x.lowSince (x.on && decide (microA + 200 < x.level)) now = low) (hh : standing x.highSince (decide (x.level + 200 < microA)) now = high)
    (ho : standing x.overSince (decide (24000 < microA)) now = beyond) : x.checked microA now =
      { x with lowSince := low, highSince := high, overSince := beyond, lowShown := tenMs low now, highShown := tenMs high now || tenMs beyond now
               on := x.on && !tenMs beyond now, retryAt := if tenMs beyond now && x.retryAt.isNone then some (now + secs 1) else x.retryAt } := by
  subst hl hh ho; rfl

/-- A current that is not too low, whether QLOOP is on or off. -/
theorem Loop.not_low {x : Loop} {microA : Nat} (h : x.level ≤ microA + 200) : (x.on && decide (microA + 200 < x.level)) = false := by
  rw [decide_eq_false (Nat.not_lt_of_le h), Bool.and_false]

/-- A current within its limits, where none was beyond them, leaves the loop as it is. -/
theorem Loop.checked_within {x : Loop} {microA now : Nat} (hl : x.lowSince = none) (hh : x.highSince = none) (ho : x.overSince = none)
    (sl : x.lowShown = false) (sh : x.highShown = false) (h₁ : x.level ≤ microA + 200) (h₂ : microA ≤ x.level + 200) (h₃ : microA ≤ 24000) :
    x.checked microA now = x := by
  rw [Loop.checked_of_standing (standing_of_false _ now (Loop.not_low h₁)) (standing_of_false _ now (decide_eq_false (Nat.not_lt_of_le h₂)))
    (standing_of_false _ now (decide_eq_false (Nat.not_lt_of_le h₃)))]
  cases x; simp_all [tenMs]

/-- A current that has been too low for 10 ms while QLOOP is on is shown as low (log 71). -/
theorem Loop.checked_low {x : Loop} {microA now a : Nat} (hl : x.lowSince = some a) (ha : a + msec 10 ≤ now) (hh : x.highSince = none)
    (ho : x.overSince = none) (sh : x.highShown = false) (hon : x.on = true) (h₁ : microA + 200 < x.level) (h₂ : x.level ≤ 24000) :
    x.checked microA now = { x with lowShown := true } := by
  have low : (x.on && decide (microA + 200 < x.level)) = true := by rw [hon, decide_eq_true h₁, Bool.true_and]
  rw [Loop.checked_of_standing (standing_of_true now low hl) (standing_of_false _ now (decide_eq_false (by omega)))
    (standing_of_false _ now (decide_eq_false (by omega)))]
  cases x; simp_all [tenMs]

/-- A current that has been too high for 10 ms is shown as high. -/
theorem Loop.checked_high {x : Loop} {microA now a : Nat} (hh : x.highSince = some a) (ha : a + msec 10 ≤ now) (hl : x.lowSince = none)
    (ho : x.overSince = none) (sl : x.lowShown = false) (h₁ : x.level + 200 < microA) (h₂ : microA ≤ 24000) :
    x.checked microA now = { x with highShown := true } := by
  rw [Loop.checked_of_standing (standing_of_false _ now (Loop.not_low (by omega))) (standing_of_true now (decide_eq_true h₁) hh)
    (standing_of_false _ now (decide_eq_false (by omega)))]
  cases x; simp_all [tenMs]

/-- An over-current of 10 ms turns the driver off for a second. -/
theorem Loop.checked_over {x : Loop} {microA now a : Nat} (ho : x.overSince = some a) (ha : a + msec 10 ≤ now) (hl : x.lowSince = none)
    (hh : x.highSince.isSome = true) (sl : x.lowShown = false) (hr : x.retryAt = none) (h₁ : x.level + 200 < microA) (h₂ : 24000 < microA) :
    x.checked microA now = { x with highShown := true, on := false, retryAt := some (now + secs 1) } := by
  obtain ⟨b, hb⟩ := Option.isSome_iff_exists.mp hh
  rw [Loop.checked_of_standing (standing_of_false _ now (Loop.not_low (by omega))) (standing_of_true now (decide_eq_true h₁) hb)
    (standing_of_true now (decide_eq_true h₂) ho)]
  cases x; simp_all [tenMs]

/-- 1 s after it was turned off the driver is turned on again. -/
theorem loopRetry_of_due {s : State} {k a : Nat} (h : (s.loop k).retryAt = some a) (ha : a ≤ s.time) : loopRetry k s =
    s.setLoop k { s.loop k with on := s.rdN (P.ALM_LOOP_SRC k) != 0, retryAt := none, overSince := none, highSince := none, highShown := false } := by
  simp only [loopRetry, h, if_neg (Nat.not_lt_of_le ha)]

/-- Settles O34: each alarm event by the equation of its meaning; a loop update by the level its mode gives; a read-back check by how long each condition
has stood, which decides what the loop shows. -/
theorem alarmAndLoopEventsComplete : Obligations.AlarmAndLoopEventsComplete := by
  refine ⟨fun s t => ⟨fun d src e es rest hf hd => ⟨?bad, ?good⟩, ?refresh, ?expiry, ?ack, ?pad⟩,
    fun s t k => ⟨?update, ?within, ?low, ?high, ?tooMuch, ?retry⟩⟩
  case bad => exact congrArg Host.Outcome.next (alarmFlitReceive_bad hf hd)
  case good => exact congrArg Host.Outcome.next (alarmFlitReceive_good hf hd)
  case refresh => exact fun l hl ht => congrArg Host.Outcome.next (alarmRefresh_of_due hl ht)
  case expiry => exact fun e h => congrArg Host.Outcome.next (remoteEntryExpiry_of_stale h)
  case ack => exact fun o h hc he => congrArg Host.Outcome.next (almAckAct_of_due h hc he)
  case pad => exact fun k driven h => congrArg Host.Outcome.next (padReadbackFault_of_other h)
  case retry => exact fun a h ha => congrArg Host.Outcome.next (loopRetry_of_due h ha)
  case within =>
    intro microA hl hh ho sl sh h₁ h₂ h₃
    rw [exec_loopReadbackCheck_of_checked (Loop.checked_within hl hh ho sl sh h₁ h₂ h₃)]
    simp [sl, sh, Nat.le_trans h₃]
  case low =>
    intro microA a hl ha hh ho sl sh hon h₁ h₂
    rw [exec_loopReadbackCheck_of_checked (Loop.checked_low hl ha hh ho sh hon h₁ h₂)]
    simp [sl, sh, show microA ≤ 30000 by omega]
  case high =>
    intro microA a hh ha hl ho sl sh h₁ h₂
    rw [exec_loopReadbackCheck_of_checked (Loop.checked_high hh ha hl ho sl h₁ h₂)]
    simp [sl, sh, Nat.le_trans h₂]
  case tooMuch =>
    intro microA a ho ha hl hh sl sh hr h₁ h₂
    rw [exec_loopReadbackCheck_of_checked (Loop.checked_over ho ha hl hh sl hr h₁ h₂)]
    simp [sl, sh]
  case update =>
    intro due
    have e := exec_loopUpdate_of_due due
    refine ⟨fun i hv => ⟨_, e, ?drive⟩, fun hv hf => ⟨_, e, ?failLow⟩, fun hv hf => ⟨_, e, ?failHigh⟩,
      fun hv hf => ⟨_, e, ?failHeld⟩, fun hv => ⟨_, e, ?held⟩⟩
    case drive =>
      have level := State.drivenLevel_of_drive hv
      exact ⟨by rw [State.driveLoop_setpoint, level], (State.driveLoop_heldBit _ k).trans (State.loopHolds_of_drive hv),
        by simp [State.driveLoop_failBit, hv],
        (State.driveLoop_level _ k).trans level, fun j hj => State.driveLoop_loop_other _ hj, fun a ha hb => State.driveLoop_rd_other _ ha hb,
        State.driveLoop_mem _ k⟩
    case failLow =>
      have level := (State.drivenLevel_of_fail hv).trans (State.failLevel_of_zero hf _)
      exact ⟨by rw [State.driveLoop_setpoint, level], by simp [State.driveLoop_failBit, hv]⟩
    case failHigh =>
      have level := (State.drivenLevel_of_fail hv).trans (State.failLevel_of_one hf _)
      exact ⟨by rw [State.driveLoop_setpoint, level], by simp [State.driveLoop_failBit, hv]⟩
    case failHeld =>
      have level := (State.drivenLevel_of_fail hv).trans (State.failLevel_of_two_le hf _)
      exact ⟨by rw [State.driveLoop_setpoint, level], (State.driveLoop_heldBit _ k).trans (State.loopHolds_of_fail hv), by simp [State.driveLoop_failBit, hv],
        (State.driveLoop_level _ k).trans level⟩
    case held =>
      have level := State.drivenLevel_of_held hv
      exact ⟨by rw [State.driveLoop_setpoint, level], (State.driveLoop_heldBit _ k).trans (State.loopHolds_of_held hv),
        (State.driveLoop_level _ k).trans level⟩

end Sys2Proof.Machine
end

section
/-! The statements on the queue, on the reset state, and on receiving a packet: the duplicate rules, the limit of 256 outstanding commands, and the
replies (R34 to R42). -/

namespace Sys2Proof.Machine

/-! ### The queue and the reset state -/

/-- Settles O1: the two equations of a step. -/
theorem stepRunsFront : Obligations.StepRunsFront := fun _ => ⟨fun _ _ h => step_of_front h, step_of_idle⟩

/-- Settles O2: every command has its rule under Laws, and each keeps the queue. -/
theorem commandsLeaveQueue : Obligations.CommandsLeaveQueue := by
  intro i s
  obtain ⟨t, ht, keeps⟩ := exec_keeps i (Keeps.refl s)
  exact ⟨t, ht, keeps.queue⟩

/-- Settles O3: the reset state lists no parameter and no byte of a memory. -/
theorem resetSound : Obligations.ResetSound := ⟨Sparse.wf_nil _, Sparse.wf_nil _, Sparse.wf_nil _⟩

/-! ### What sending a reply leaves of the command side (R36, R39, R40) -/

@[simp] theorem State.sendReply_outstanding (s : State) (q : Reply) : (s.sendReply q).cmd.outstanding = s.cmd.outstanding := by
  simpa only [CmdState.quiet] using congrArg CmdState.outstanding (s.sendReply_cmd q)
@[simp] theorem State.sendReply_kept (s : State) (q : Reply) : (s.sendReply q).cmd.kept = s.cmd.kept := by
  simpa only [CmdState.quiet] using congrArg CmdState.kept (s.sendReply_cmd q)
@[simp] theorem State.sendReply_staged (s : State) (q : Reply) : (s.sendReply q).cmd.staged = s.cmd.staged := by
  simpa only [CmdState.quiet] using congrArg CmdState.staged (s.sendReply_cmd q)
@[simp] theorem State.sendReply_commit (s : State) (q : Reply) : (s.sendReply q).cmd.commit = s.cmd.commit := by
  simpa only [CmdState.quiet] using congrArg CmdState.commit (s.sendReply_cmd q)
@[simp] theorem State.sendReply_snap (s : State) (q : Reply) : (s.sendReply q).cmd.snap = s.cmd.snap := by
  simpa only [CmdState.quiet] using congrArg CmdState.snap (s.sendReply_cmd q)
@[simp] theorem State.sendReply_snapWait (s : State) (q : Reply) : (s.sendReply q).cmd.snapWait = s.cmd.snapWait := by
  simpa only [CmdState.quiet] using congrArg CmdState.snapWait (s.sendReply_cmd q)
@[simp] theorem State.sendReply_newId (s : State) (q : Reply) : (s.sendReply q).cmd.newId = s.cmd.newId := by
  simpa only [CmdState.quiet] using congrArg CmdState.newId (s.sendReply_cmd q)
@[simp] theorem State.sendReply_replies (s : State) (q : Reply) : (s.sendReply q).cmd.replies = q :: s.cmd.replies := by
  simpa only [CmdState.quiet] using congrArg CmdState.replies (s.sendReply_cmd q)

@[simp] theorem State.finish_outstanding (s : State) (code st : Nat) (h : Hdr) (data : List Word) :
    (s.finish code h st data).cmd.outstanding = s.cmd.outstanding.filter (fun o => !samePair o.h h) := by
  rw [State.finish, State.sendReply_outstanding]
theorem State.finish_kept (s : State) (code st : Nat) (h : Hdr) (data : List Word) : (s.finish code h st data).cmd.kept
    = if st = stBusy then s.cmd.kept
      else { issuer := h.issuer.toNat, tag := h.tag.toNat, crc := h.crc, until_ := s.time + msec 1, reply := s.mkReply code h st data } :: s.cmd.kept := by
  rw [State.finish, State.sendReply_kept]

/-- The ACCEPTED reply is sent as any other; its command is outstanding from then on. -/
theorem State.accept_outstanding (s : State) (code : Nat) (h : Hdr) (p : List Word) (due : Option Nat) : (s.accept code h p due).cmd.outstanding
    = s.cmd.outstanding ++ [{ h, op := code, p, due, last := some (s.mkReply code h stAccepted []) }] := by
  rw [State.accept, State.sendReply_outstanding]
  rfl

@[simp] theorem State.setBit_outstanding (s : State) (k i : Nat) : (s.setBit k i).cmd.outstanding = s.cmd.outstanding := rfl
@[simp] theorem State.setBit_kept (s : State) (k i : Nat) : (s.setBit k i).cmd.kept = s.cmd.kept := rfl

/-! ### The duplicate rules (R39, R40; log 97) -/

/-- The reply kept under a packet's pair and content. -/
def State.keptSame (s : State) (h : Hdr) : Option KeptReply := (s.keptFor h).find? (fun k => k.crc == h.crc)

/-- A packet with the pair and the content of an outstanding command: the last reply sent for it is sent again, or the ACCEPTED it has not had. -/
theorem State.duplicate_of_same {s : State} {h : Hdr} {o : Outstanding} (code : Nat)
    (ho : s.cmd.outstanding.find? (fun o => samePair o.h h) = some o) (hc : o.h.crc = h.crc) :
    let r := o.last.getD (s.mkReply code h stAccepted [])
    s.duplicate code h = some ((s.noteLast h r).sendReply r) := by
  simp [State.duplicate, ho, hc]

/-- A packet with the pair of an outstanding command and another content: a reply kept under that content is sent again, else it is refused. -/
theorem State.duplicate_of_other {s : State} {h : Hdr} {o : Outstanding} (code : Nat)
    (ho : s.cmd.outstanding.find? (fun o => samePair o.h h) = some o) (hc : o.h.crc ≠ h.crc) :
    s.duplicate code h = some (match s.keptSame h with | some k => s.sendReply k.reply | none => s.refuseOther code h) := by
  have hc' : (o.h.crc == h.crc) = false := beq_eq_false_iff_ne.mpr hc
  simp only [State.duplicate, ho, hc', State.keptSame]
  cases (s.keptFor h).find? (fun k => k.crc == h.crc) <;> rfl

/-- A packet with the pair and the content of a recent command: its reply is sent again. -/
theorem State.duplicate_of_kept {s : State} {h : Hdr} {k : KeptReply} (code : Nat)
    (ho : s.cmd.outstanding.find? (fun o => samePair o.h h) = none) (hk : s.keptSame h = some k) :
    s.duplicate code h = some (s.sendReply k.reply) := by
  rw [State.keptSame] at hk
  simp only [State.duplicate, ho, hk]

/-- A packet with the pair of a recent command and another content is refused. -/
theorem State.duplicate_of_kept_other {s : State} {h : Hdr} (code : Nat) (ho : s.cmd.outstanding.find? (fun o => samePair o.h h) = none)
    (hk : s.keptSame h = none) (hne : (s.keptFor h).isEmpty = false) : s.duplicate code h = some (s.refuseOther code h) := by
  rw [State.keptSame] at hk
  simp only [State.duplicate, ho, hk, hne]
  rfl

/-- A packet that repeats no command has the pair of no outstanding one. -/
theorem State.outstanding_of_not_duplicate {s : State} {code : Nat} {h : Hdr} (hd : s.duplicate code h = none) :
    s.cmd.outstanding.find? (fun o => samePair o.h h) = none := by
  cases ho : s.cmd.outstanding.find? (fun o => samePair o.h h) with
  | none => rfl
  | some o =>
    by_cases hc : o.h.crc = h.crc
    · cases hd.symm.trans (State.duplicate_of_same code ho hc)
    · cases hd.symm.trans (State.duplicate_of_other code ho hc)

/-- The replies kept under a packet's pair, looked through for one of its content, or for any. -/
theorem State.keptSame_eq (s : State) (h : Hdr) : s.keptSame h
    = s.cmd.kept.find? (fun k => (k.issuer == h.issuer.toNat && k.tag == h.tag.toNat && decide (s.time < k.until_)) && k.crc == h.crc) := by
  simp only [State.keptSame, State.keptFor, List.find?_filter, Bool.decide_and, Bool.decide_eq_true]
theorem State.keptFor_isEmpty (s : State) (h : Hdr) : (s.keptFor h).isEmpty
    = !s.cmd.kept.any (fun k => k.issuer == h.issuer.toNat && k.tag == h.tag.toNat && decide (s.time < k.until_)) := by
  rw [State.keptFor, Bool.eq_iff_iff]
  simp [List.filter_eq_nil_iff]

/-- A host command that repeats another does what the duplicate rules say and nothing else. -/
theorem exec_duplicate {i : Instr} {code : Nat} {h : Hdr} {p : List Word} {s t : State} (e : i.packet = some (code, h, p))
    (h₁ : (s.at_ h.at_).takesCommands = true) (h₂ : (s.at_ h.at_).isTarget code h = true) (h₃ : (s.at_ h.at_).duplicate code h = some t) :
    exec i s = .next t := by
  obtain ⟨q, -, body, he⟩ := exec_packet e
  rw [he, State.receive_of_duplicate body h₁ h₂ h₃]

/-- Settles O7: each case of the duplicate rules by its lemma (the pair is compared before steps 1 to 3 of Table 2-2, log 97). -/
theorem duplicateRules : Obligations.DuplicateRules := by
  refine ⟨?packet, fun s q => ⟨s.sendReply_outstanding q, s.sendReply_kept q, s.sendReply_replies q⟩,
    fun s code st h data => s.finish_kept code st h data⟩
  intro i code h p s e r h₁ h₂ refusal kept other recent same
  have hsame : same = r.keptSame h := (r.keptSame_eq h).symm
  rw [hsame]
  refine ⟨fun o ho => ⟨fun hc => ?same, fun hc => exec_duplicate e h₁ h₂ (State.duplicate_of_other code ho hc)⟩,
    fun ho => ⟨fun k hk => exec_duplicate e h₁ h₂ (State.duplicate_of_kept code ho hk), fun hk hany => ?refused⟩⟩
  case same =>
    rw [exec_duplicate e h₁ h₂ (State.duplicate_of_same code ho hc)]
    cases o.last <;> rfl
  case refused =>
    have hne : (r.keptFor h).isEmpty = false := by rw [r.keptFor_isEmpty h, show r.cmd.kept.any _ = true from hany]; rfl
    exact exec_duplicate e h₁ h₂ (State.duplicate_of_kept_other code ho hk hne)

/-! ### The limit of outstanding commands (R41) -/

/-- A packet of a good header that is authorised, while 256 commands are outstanding, is refused with BUSY. -/
theorem State.refusal_of_full {s : State} {code : Nat} {h : Hdr} {p : List Word} {o : OpInfo} (ho : opInfo code = some o)
    (hg : headerGood o h p = true) (ha : s.authorised code o h = true) (hf : 256 ≤ s.cmd.outstanding.length) :
    s.refusal code h p = some stBusy := by
  simp [State.refusal, ho, hg, ha, hf]

/-- A header is judged by the number of parameter words alone. -/
theorem headerGood_congr {o : OpInfo} {h : Hdr} {p q : List Word} (e : q.length = p.length) : headerGood o h q = headerGood o h p := by
  simp [headerGood, e]

/-- A final reply leaves SYS_CMD_FLAGS as it is. -/
theorem State.finish_flags (s : State) (code st : Nat) (h : Hdr) (data : List Word) :
    (s.finish code h st data).rd P.SYS_CMD_FLAGS = s.rd P.SYS_CMD_FLAGS :=
  (State.sendReply_frame _ _).par _ (by decide)

/-- Settles O8: the refusal is that of the fourth check; BUSY is not kept, and no outstanding command has the packet's pair. -/
theorem outstandingLimit : Obligations.OutstandingLimit := by
  intro i code h p s o e r h₁ h₂ h₃ ho hg ha hf
  obtain ⟨q, hq, body, he⟩ := exec_packet e
  have busy : exec i s = .next ((r.setBit P.SYS_CMD_FLAGS 1).finish code h stBusy []) := by
    rw [he, State.receive_of_refusal body h₁ h₂ h₃ (State.refusal_of_full ho ((headerGood_congr hq).trans hg) ha hf)]
    rfl
  refine ⟨busy, fun u hu => ?_⟩
  obtain rfl : _ = u := Host.Outcome.next.inj (busy.symm.trans hu)
  refine ⟨?flag, ?outstanding, by rw [State.finish_kept]; rfl⟩
  case flag =>
    rw [State.rdN, State.finish_flags]
    exact (r.bit_setBit P.SYS_CMD_FLAGS 1 1 (by decide)).trans rfl
  case outstanding =>
    rw [State.finish_outstanding, State.setBit_outstanding]
    have none_same := List.find?_eq_none.mp (State.outstanding_of_not_duplicate h₃)
    exact List.filter_eq_self.mpr (fun o m => by simpa using none_same o m)

end Sys2Proof.Machine
end

section
/-! The statement on every reply (R36), and what storing a record leaves of the plots and of the record counts. -/

namespace Sys2Proof.Machine

/-! ### What storing a record leaves of the plots (R284) -/

/-- A fold whose every step leaves the plots leaves them. -/
theorem foldl_plots {α : Type} {f : State → α → State} (hf : ∀ s x, (f s x).mem.plots = s.mem.plots) :
    ∀ (xs : List α) (s : State), (xs.foldl f s).mem.plots = s.mem.plots
  | [], _ => rfl
  | x :: xs, s => (foldl_plots hf xs (f s x)).trans (hf s x)

theorem State.touch_plots (s : State) (w : Nat) (b : Bool) : (s.touch w b).mem.plots = s.mem.plots := by
  have returned : s.forceReturn.mem.plots = s.mem.plots := by unfold State.forceReturn; split <;> rfl
  unfold State.touch
  dsimp only
  split
  · rfl
  · split
    · exact returned
    · rfl

theorem State.touchSpan_plots (s : State) (m w n : Nat) (b : Bool) : (s.touchSpan m w n b).mem.plots = s.mem.plots := by
  refine foldl_plots (fun s v => ?_) _ s
  dsimp only
  split <;> exact s.touch_plots v b

theorem State.writeWords_plots (s : State) (w n : Nat) (bs : List Byte) : (s.writeWords w n bs).mem.plots = s.mem.plots :=
  foldl_plots (f := fun s i => (s.setWordError 0 (w + i) {}).setWordError 1 (w + i) {}) (fun _ _ => rfl) _ _
theorem State.writeLines_plots (s : State) (l n : Nat) (bs : List Byte) : (s.writeLines l n bs).mem.plots = s.mem.plots :=
  foldl_plots (f := fun s i => (s.setLineError 0 (l + i) {}).setLineError 1 (l + i) {}) (fun _ _ => rfl) _ _
theorem State.writeRecord_plots (s : State) (id line lines : Nat) (bs : List Byte) : (s.writeRecord id line lines bs).mem.plots = s.mem.plots := by
  unfold State.writeRecord
  split
  · rw [State.writeWords_plots, State.touchSpan_plots]
  · rw [State.writeLines_plots]

theorem State.markDamaged_plots (s : State) (d id kind run seq : Nat) : (s.markDamaged d id kind run seq).mem.plots = s.mem.plots := by
  unfold State.markDamaged
  dsimp only
  split
  · split <;> rfl
  · rfl

theorem State.pushAll_plots (s : State) (ds : List Descriptor) : (s.pushAll ds).mem.plots = s.mem.plots := by
  refine foldl_plots (fun s d => ?_) ds s
  unfold State.pushOne
  dsimp only
  split <;> rfl

theorem State.addGap_plots (s : State) (kind reason seq t₀ t₁ : Nat) : (s.addGap kind reason seq t₀ t₁).mem.plots = s.mem.plots := by
  unfold State.addGap
  dsimp only
  split
  · split
    · rfl
    · split <;> rfl
  · rfl

theorem State.storeRecord_plots (s : State) (r : Record) (dir : Nat) (marks : Two Bool) : (s.storeRecord r dir marks).mem.plots = s.mem.plots := by
  have mark : ∀ (t : State) (c : Bool) (d id kind run seq : Nat),
      (if c then t.markDamaged d id kind run seq else t).mem.plots = t.mem.plots := fun t c d id kind run seq => by
    split
    · exact t.markDamaged_plots d id kind run seq
    · rfl
  unfold State.storeRecord
  dsimp only
  split
  · rw [State.pushAll_plots, mark, mark, State.writeRecord_plots]; rfl
  · rw [State.addGap_plots]; rfl

/-! ### What storing a record leaves of the parameters (R284) -/

/-- The parameters that storing a record of a kind can write: those of the store, the dispatch and the gaps. -/
def storeKeys (kind : Nat) : List Nat :=
  [P.GRN_STORE_REFUSED kind, P.GRN_STATUS, P.CLP_STATUS, P.TRG_GAP_COUNT kind, P.TRG_STATUS] ++ (List.range 17).map P.GRN_STORE_DAMAGED

theorem damaged_mem_storeKeys (kind id : Nat) : P.GRN_STORE_DAMAGED (min id sramStore) ∈ storeKeys kind :=
  List.mem_append_right _ (List.mem_map_of_mem (List.mem_range.mpr (by unfold sramStore; omega)))

theorem State.storeRecord_rd (s : State) (r : Record) (dir : Nat) (marks : Two Bool) {k : Nat} (h : k ∉ storeKeys r.kind) :
    (s.storeRecord r dir marks).rd k = s.rd k := by
  have ne : ∀ {j : Nat}, j ∈ storeKeys r.kind → k ≠ j := fun m e => h (e ▸ m)
  have status : P.GRN_STATUS ∈ storeKeys r.kind := by simp [storeKeys]
  have mark : ∀ (t : State) (c : Bool) (d id run seq : Nat),
      (if c then t.markDamaged d id r.kind run seq else t).rd k = t.rd k := fun t c d id run seq => by
    split
    · exact (t.markDamaged_frame d id r.kind run seq (damaged_mem_storeKeys _ _) status).par k h
    · rfl
  unfold State.storeRecord
  dsimp only
  split
  · rw [(State.pushAll_frame _ _ (by simp [storeKeys])).par k h, mark, mark, (State.writeRecord_frame _ _ _ _ _ _).par k h]
    rfl
  · rw [(State.addGap_frame _ _ _ _ _ _ (by simp [storeKeys]) (by simp [storeKeys])).par k h, State.rd_setBit_other _ _ (ne status),
      State.rd_addSat_other _ _ (ne (by simp [storeKeys]))]
    rfl

/-- Building a record takes its number and counts it, and then leaves all parameters but those of its storing. -/
theorem State.build_rd (s : State) (d : Draft) {k : Nat} (h : k ∉ storeKeys d.kind) : (s.build d).rd k = (s.consumeSeq d.kind).rd k := by
  rw [State.build, State.storeRecord_rd _ (s.recordOf d) _ _ h]
  rfl

/-- A status bit of REC_STATUS set or not. -/
theorem State.setRecBit_mem (s : State) (c : Prop) [Decidable c] (i : Nat) : (if c then s.setBit P.REC_STATUS i else s).mem = s.mem := by
  split <;> rfl
theorem State.setRecBit_rdN (s : State) (c : Prop) [Decidable c] (i : Nat) {k : Nat} (h : k ≠ P.REC_STATUS) :
    (if c then s.setBit P.REC_STATUS i else s).rdN k = s.rdN k := by
  split
  · exact s.rdN_setBit_other i h
  · rfl

theorem State.consumeSeq_mem (s : State) (kind : Nat) : (s.consumeSeq kind).mem = s.mem := by
  unfold State.consumeSeq
  dsimp only
  rw [State.count_mem, State.setBit_mem, State.addWrap_mem, State.setRecBit_mem, State.setRecBit_mem, State.wrN_mem]
theorem State.build_plots (s : State) (d : Draft) : (s.build d).mem.plots = s.mem.plots := by
  rw [State.build, State.storeRecord_plots, ← s.consumeSeq_mem d.kind]
  rfl
@[simp] theorem State.sendReply_plots (s : State) (q : Reply) : (s.sendReply q).mem.plots = s.mem.plots := by
  unfold State.sendReply
  dsimp only
  rw [State.build_plots]
  split <;> rfl
@[simp] theorem State.finish_plots (s : State) (code st : Nat) (h : Hdr) (data : List Word) : (s.finish code h st data).mem.plots = s.mem.plots := by
  rw [State.finish, State.sendReply_plots]

/-! ### The numbers of RPL records (R240) -/

/-- Taking the number of an RPL record: REC_SEQ and REC_BUILT of its kind go one on, and of the rest only REC_STATUS can change. -/
theorem State.consumeSeq_rdN (s : State) {k : Nat} (h : k ≠ P.REC_STATUS) : (s.consumeSeq 7).rdN k
    = if k = P.REC_BUILT 7 then (s.rdN k + 1) % 4294967296 else if k = P.REC_SEQ 7 then (s.rdN k + 1) % 4294967296 else s.rdN k := by
  have ne : P.REC_BUILT 7 ≠ P.REC_STATUS ∧ P.REC_BUILT 7 ≠ P.REC_SEQ 7 := by decide
  unfold State.consumeSeq
  dsimp only
  rw [State.count_rdN, State.rdN_setBit_other _ _ h]
  by_cases hb : k = P.REC_BUILT 7
  · subst hb
    rw [State.rdN_addWrap_same, State.setRecBit_rdN _ _ _ ne.1, State.setRecBit_rdN _ _ _ ne.1, State.rdN_wrN_other _ _ ne.2, if_pos rfl]
  · rw [State.rdN_addWrap_other _ _ hb, State.setRecBit_rdN _ _ _ h, State.setRecBit_rdN _ _ _ h, if_neg hb]
    by_cases hs : k = P.REC_SEQ 7
    · subst hs; rw [State.rdN_wrN_same, if_pos rfl]
    · rw [State.rdN_wrN_other _ _ hs, if_neg hs]

/-- A reply is noted, counted when it refuses, and takes the next number of an RPL record. -/
theorem State.sendReply_rdN (s : State) (q : Reply) {k : Nat} (h : k ∉ storeKeys 7) (hk : k ≠ P.REC_STATUS) : (s.sendReply q).rdN k
    = if k = P.REC_BUILT 7 then (s.rdN k + 1) % 4294967296 else if k = P.REC_SEQ 7 then (s.rdN k + 1) % 4294967296
      else if k = P.SYS_CMD_REFUSED_COUNT ∧ 0x10 ≤ q.status then min (s.rdN k + 1) 0xFFFFFFFF else s.rdN k := by
  have ne : P.REC_BUILT 7 ≠ P.SYS_CMD_REFUSED_COUNT ∧ P.REC_SEQ 7 ≠ P.SYS_CMD_REFUSED_COUNT := by decide
  unfold State.sendReply
  dsimp only
  rw [State.rdN, State.build_rd _ _ h, ← State.rdN, show q.draft.kind = 7 from rfl, State.consumeSeq_rdN _ hk]
  by_cases hr : 0x10 ≤ q.status
  · by_cases hc : k = P.SYS_CMD_REFUSED_COUNT
    · subst hc
      simp only [hr, if_true, if_neg ne.1.symm, if_neg ne.2.symm, State.rdN_addSat_same]
      rfl
    · simp only [hr, hc, if_true, State.rdN_addSat_other _ _ hc]
      rfl
  · simp only [hr, if_false, and_false]
    rfl

/-! ### Every reply (R36) -/

theorem State.sendReply_seq (s : State) (q : Reply) : (s.sendReply q).rdN (P.REC_SEQ 7) = (s.rdN (P.REC_SEQ 7) + 1) % 4294967296 :=
  (s.sendReply_rdN q (by decide) (by decide)).trans rfl
theorem State.sendReply_built (s : State) (q : Reply) : (s.sendReply q).rdN (P.REC_BUILT 7) = (s.rdN (P.REC_BUILT 7) + 1) % 4294967296 :=
  (s.sendReply_rdN q (by decide) (by decide)).trans rfl
/-- A reply that refuses is counted (R67). -/
theorem State.sendReply_refused (s : State) (q : Reply) : (s.sendReply q).rdN P.SYS_CMD_REFUSED_COUNT
    = if 0x10 ≤ q.status then min (s.rdN P.SYS_CMD_REFUSED_COUNT + 1) 0xFFFFFFFF else s.rdN P.SYS_CMD_REFUSED_COUNT := by
  have own : P.SYS_CMD_REFUSED_COUNT ≠ P.REC_BUILT 7 ∧ P.SYS_CMD_REFUSED_COUNT ≠ P.REC_SEQ 7 := by decide
  rw [s.sendReply_rdN q (by decide) (by decide), if_neg own.1, if_neg own.2]
  simp only [true_and]

/-- The parameters that sending a reply can write are those the statement names. -/
theorem not_mem_replyKeys {k : Nat} (h : k ∉ [P.SYS_CMD_REFUSED_COUNT, P.REC_SEQ 7, P.REC_STATUS, P.REC_BUILT 7, P.GRN_STORE_REFUSED 7, P.GRN_STATUS,
    P.CLP_STATUS, P.TRG_GAP_COUNT 7, P.TRG_STATUS]) (hd : ∀ i, i ≤ 16 → k ≠ P.GRN_STORE_DAMAGED i) :
    k ∉ P.SYS_CMD_REFUSED_COUNT :: recKeys 7 := by
  intro m
  rw [recKeys, ← List.cons_append] at m
  rcases List.mem_append.mp m with m | m
  · exact h m
  · obtain ⟨i, hi, rfl⟩ := List.mem_map.mp m
    exact hd i (by have := List.mem_range.mp hi; omega) rfl

/-- Settles O9: a final reply and an ACCEPTED are both sent from a state that differs from the one before in the outstanding commands and the kept replies
alone, and sending leaves what `RecFrame` says. -/
theorem finalReply : Obligations.FinalReply := by
  intro s code st h data p due t a reply
  refine ⟨State.sendReply_replies _ _, State.sendReply_replies _ _, s.finish_outstanding code st h data, s.accept_outstanding code h p due,
    State.sendReply_refused _ _, (State.sendReply_refused _ _).trans rfl, fun u hu => ?_⟩
  obtain ⟨os, ks, q, rfl⟩ : ∃ os ks q, u = State.sendReply { s with cmd := { s.cmd with outstanding := os, kept := ks } } q := by
    rcases hu with rfl | rfl
    · exact ⟨_, _, _, rfl⟩
    · exact ⟨_, _, _, rfl⟩
  have f := State.sendReply_frame { s with cmd := { s.cmd with outstanding := os, kept := ks } } q
  exact ⟨State.sendReply_seq _ q, State.sendReply_built _ q, f.queue, f.time, f.free, f.prt, f.red, f.alm, f.pwr, f.fe, f.tmr, f.trg, f.tb, f.lnk, f.cal,
    f.link, State.sendReply_staged _ q, State.sendReply_commit _ q, State.sendReply_snap _ q, State.sendReply_snapWait _ q, State.sendReply_newId _ q,
    fun k hk hd => f.par k (not_mem_replyKeys hk hd)⟩

end Sys2Proof.Machine
end

section
/-! The statements on the parameter commands PAR.READ, PAR.STAGED and PAR.WRITE (R50 to R56). -/

namespace Sys2Proof.Machine

/-! ### What each check of an entry refuses (R51 to R56) -/

section
variable {k : Nat} {v : Word} {row : ParamRow}

theorem entryForm_of_unassigned (h : Params.row k = none) : entryForm k = some stBadParam := by simp only [entryForm, h]
theorem entryForm_of_row (h : Params.row k = some row) : entryForm k = if row.access = .ro then some stBadParam else none := by
  simp only [entryForm, h]

theorem State.entryRange_of_index (s : State) (h : Params.row k = some row) (hi : row.last < Params.indexOf k) : s.entryRange k v = some stRange := by
  simp only [State.entryRange, h, if_pos hi]
/-- A value that its item's range does not admit is refused, at whatever index. -/
theorem State.entryRange_of_value (s : State) (h : Params.row k = some row) (ha : row.access = .rwe ∨ row.access = .rwi)
    (hv : Params.admits row.range (Params.indexOf k) v = false) : s.entryRange k v = some stRange := by
  simp only [State.entryRange, h]
  split
  · rfl
  · rcases ha with ha | ha <;> simp [ha, hv]
theorem State.entryRange_of_staged (s : State) (h : Params.row k = some row) (ha : row.access = .rwe) (hi : Params.indexOf k ≤ row.last)
    (hv : Params.admits row.range (Params.indexOf k) v = true) : s.entryRange k v = none := by
  simp [State.entryRange, h, ha, Nat.not_lt.mpr hi, hv]

theorem State.entryHeld_of_staged (s : State) (h : Params.row k = some row) (ha : row.access = .rwe) : s.entryHeld k
    = if s.cmd.commit.isSome then some stEpochConflict
      else if (Sparse.find? s.cmd.staged k).isNone && 4096 ≤ s.cmd.staged.length then some stBusy else none := by
  simp only [State.entryHeld, h, ha]
theorem State.entryHeld_of_immediate (s : State) (h : Params.row k = some row) (ha : row.access = .rwi) :
    s.entryHeld k = if s.heldWrite k then some stLocked else none := by
  simp only [State.entryHeld, h, ha]
end

/-- Settles O14: each refusal by the equation of its check (which parameters a running calibration holds is the model's reading, log 48). -/
theorem writeRefusals : Obligations.WriteRefusals := by
  refine fun s k v => ⟨entryForm_of_unassigned, fun row h => ⟨?readOnly, ?writable, s.entryRange_of_index h, s.entryRange_of_value h,
    s.entryRange_of_staged h, ?isSealed, ?full, ?room, ?calibrating⟩⟩
  case readOnly => exact fun ha => (entryForm_of_row h).trans (if_pos ha)
  case writable => exact fun ha => (entryForm_of_row h).trans (if_neg ha)
  case isSealed => exact fun ha hc => (s.entryHeld_of_staged h ha).trans (if_pos hc)
  case full =>
    intro ha hc hk hn
    rw [s.entryHeld_of_staged h ha, hc, hk]
    simp [hn]
  case room =>
    intro ha hc hr
    rw [s.entryHeld_of_staged h ha, hc]
    rcases hr with hr | hr
    · simp [Option.isNone_iff_eq_none, Option.isSome_iff_ne_none.mp hr]
    · simp [Nat.not_le.mpr hr]
  case calibrating =>
    intro ha h₁ h₂ hc
    rw [s.entryHeld_of_immediate h ha]
    simp [State.heldWrite, h₁, h₂, hc]

/-! ### The entries in packet order (R34, R51; log 11) -/

/-- A check passes for an entry at a place, on the state that the entries before it leave. -/
def EntryPasses (check : State → Nat → Word → Option Nat) (s : State) (es : List (Nat × Word)) (j : Nat) : Prop :=
  ∀ x, es[j]? = some x → check (s.writeAll (es.take j)) x.1 x.2 = none

section
variable {check : State → Nat → Word → Option Nat} {s : State} {e : Nat × Word} {es : List (Nat × Word)}

theorem entryPasses_zero : EntryPasses check s (e :: es) 0 ↔ check s e.1 e.2 = none := by simp [EntryPasses, State.writeAll]
theorem entryPasses_succ (j : Nat) : EntryPasses check s (e :: es) (j + 1) ↔ EntryPasses check (s.writeParam e.1 e.2) es j := Iff.rfl

/-- Where no entry fails, each passes. -/
theorem entryPasses_of_firstFailing_none {n : Nat} (h : firstFailing check n es s = none) (j : Nat) : EntryPasses check s es j := by
  induction es generalizing n s j with
  | nil => exact fun x hx => by simp at hx
  | cons e es ih =>
    simp only [firstFailing] at h
    split at h
    · cases h
    · rename_i hc
      cases j with
      | zero => exact entryPasses_zero.mpr hc
      | succ j => exact (entryPasses_succ j).mpr (ih h j)

/-- The first entry that fails has a place in the list and its status, and each before it passes. -/
theorem firstFailing_some {n st i : Nat} (h : firstFailing check n es s = some (st, i)) :
    ∃ j e, i = n + j ∧ es[j]? = some e ∧ check (s.writeAll (es.take j)) e.1 e.2 = some st ∧ ∀ m < j, EntryPasses check s es m := by
  induction es generalizing n s with
  | nil => cases h
  | cons e es ih =>
    simp only [firstFailing] at h
    split at h
    · rename_i st' hc
      cases h
      exact ⟨0, e, rfl, rfl, hc, fun m hm => absurd hm (Nat.not_lt_zero m)⟩
    · rename_i hc
      obtain ⟨j, x, hi, hx, hf, before⟩ := ih h
      refine ⟨j + 1, x, by omega, hx, hf, fun m hm => ?_⟩
      cases m with
      | zero => exact entryPasses_zero.mpr hc
      | succ m => exact (entryPasses_succ m).mpr (before m (by omega))

/-- The entry at the place that is named fails with the status, and those before it pass. -/
theorem firstFailing_named {st i : Nat} (h : firstFailing check 0 es s = some (st, i)) : i < es.length ∧ ∀ e, es[i]? = some e →
    check (s.writeAll (es.take i)) e.1 e.2 = some st ∧ ∀ j x, j < i → es[j]? = some x → check (s.writeAll (es.take j)) x.1 x.2 = none := by
  obtain ⟨j, e, rfl, he, fails, before⟩ := firstFailing_some h
  rw [Nat.zero_add]
  refine ⟨(List.getElem?_eq_some_iff.mp he).1, fun x hx => ?_⟩
  obtain rfl : e = x := Option.some.inj (he.symm.trans hx)
  exact ⟨fails, fun m y hm hy => before m hm y hy⟩
end

/-- The check a refused write has failed: the form of every entry comes first, then the range of every entry, then what holds it. -/
theorem State.writeRefusal_some {s : State} {es : List (Nat × Word)} {r : Nat × Nat} (h : s.writeRefusal es = some r) :
    firstFailing (fun _ k _ => entryForm k) 0 es s = some r
    ∨ (firstFailing (fun _ k _ => entryForm k) 0 es s = none ∧
        (firstFailing State.entryRange 0 es s = some r
        ∨ (firstFailing State.entryRange 0 es s = none ∧ firstFailing (fun s k _ => s.entryHeld k) 0 es s = some r))) := by
  unfold State.writeRefusal at h
  split at h
  · rename_i hf
    exact .inl (hf.trans h)
  · rename_i hf
    split at h
    · rename_i hr
      exact .inr ⟨hf, .inl (hr.trans h)⟩
    · rename_i hr
      exact .inr ⟨hf, .inr ⟨hr, h⟩⟩

theorem State.parWrite_of_refused {s : State} {p : List Word} {st i : Nat} (h : s.writeRefusal (entriesOf (p.drop 1)) = some (st, i)) :
    s.parWrite p = (s, st, [BitVec.ofNat 32 i]) := by
  simp only [State.parWrite, h]
theorem State.parWrite_of_passed {s : State} {p : List Word} (h : s.writeRefusal (entriesOf (p.drop 1)) = none) :
    s.parWrite p = (s.writeAll (entriesOf (p.drop 1)), stOk, []) := by
  simp only [State.parWrite, h]

/-- Every entry's form passes where none fails. -/
theorem entryForm_of_firstFailing_none {s : State} {es : List (Nat × Word)} (h : firstFailing (fun _ k _ => entryForm k) 0 es s = none) :
    ∀ x ∈ es, entryForm x.1 = none := by
  intro x hx
  obtain ⟨j, hj⟩ := List.mem_iff_getElem?.mp hx
  exact entryPasses_of_firstFailing_none h j x hj

/-- Settles O13: the check that fails first decides the status and names its entry, and nothing has been written (log 11). -/
theorem writeIsAllOrNothing : Obligations.WriteIsAllOrNothing := by
  refine fun s p st i => ⟨fun h => ⟨State.parWrite_of_refused h, ?_⟩, State.parWrite_of_passed⟩
  rcases State.writeRefusal_some h with hf | ⟨hf, hr | ⟨hr, hh⟩⟩
  case inl =>
    obtain ⟨hi, named⟩ := firstFailing_named hf
    exact ⟨hi, fun e he => .inl (named e he)⟩
  case inr.inl =>
    obtain ⟨hi, named⟩ := firstFailing_named hr
    exact ⟨hi, fun e he => .inr ⟨entryForm_of_firstFailing_none hf, .inl (named e he)⟩⟩
  case inr.inr =>
    obtain ⟨hi, named⟩ := firstFailing_named hh
    exact ⟨hi, fun e he => .inr ⟨entryForm_of_firstFailing_none hf, .inr ⟨entryPasses_of_firstFailing_none hr, named e he⟩⟩⟩

/-! ### PAR.READ, PAR.STAGED and PAR.WRITE (R50, R51, R53) -/

/-- A read of a span of consecutive addresses answers their values, the reading command being outstanding (log 46). -/
theorem readBody_of_span (code : Nat) (h : Hdr) {k c : Word} (values : State → List Nat → List Word) (s : State) (hc : c.toNat < 256)
    (hs : spanRefusal k.toNat c.toNat = none) :
    readBody code h [k, c] values s = okay s (values (s.hold code h [k, c] none none) (spanKeys k.toNat c.toNat)) := by
  have hc' : ¬(256 ≤ c.toNat) := by omega
  simp [readBody, word, hc', hs]

/-- A write that is not scheduled acts at its receipt. -/
theorem parWriteBody_of_unscheduled {h : Hdr} {n : Word} {es : List Word} (s : State) (hs : h.sched = false) (h0 : 0 < n.toNat) (hn : n.toNat < 256)
    (hl : es.length = 2 * n.toNat) :
    parWriteBody h (n :: es) s = ((s.parWrite (n :: es)).1, .final (s.parWrite (n :: es)).2.1 (s.parWrite (n :: es)).2.2) := by
  have count : word (n :: es) 0 = n.toNat := rfl
  have good : ((decide ((n :: es).length = 0) || decide (256 ≤ word (n :: es) 0)) || decide ((n :: es).length ≠ 1 + 2 * word (n :: es) 0)) = false := by
    rw [count, List.length_cons, Bool.or_eq_false_iff, Bool.or_eq_false_iff]
    exact ⟨⟨decide_eq_false (by omega), decide_eq_false (by omega)⟩, decide_eq_false (by omega)⟩
  have some_entry : ¬(word (n :: es) 0 = 0) := by rw [count]; omega
  simp only [parWriteBody, good, some_entry, hs, Bool.false_and, Bool.false_eq_true, if_false]

/-- Settles O11: the reads by the equation of a span, the write by what its checks give (the reading command counts itself, log 46; the layout of
PAR.STAGED is log 107). -/
theorem parameterCommandsComplete : Obligations.ParameterCommandsComplete := by
  refine fun s h => ⟨fun k c g hc hs => ?read, fun k c g hc hs => ?staged, fun n es g hs h0 hn hl => ?write⟩
  case read => exact congrArg Host.Outcome.next (State.receive_final g (readBody_of_span 0x10 h _ _ hc hs))
  case staged => exact congrArg Host.Outcome.next (State.receive_final g (readBody_of_span 0x12 h _ _ hc hs))
  case write =>
    refine congrArg Host.Outcome.next ((State.receive_final g (parWriteBody_of_unscheduled _ hs h0 hn hl)).trans ?_)
    cases hw : (s.at_ h.at_).writeRefusal (entriesOf es) with
    | none => rw [State.parWrite_of_passed (p := n :: es) hw]; rfl
    | some e => rw [State.parWrite_of_refused (p := n :: es) hw]

end Sys2Proof.Machine
end

section
/-! The statements on configuration epochs: the commands EPOCH.COMMIT, EPOCH.ABORT and EPOCH.STATUS, and the instant of a commit (R56 to R62). -/

namespace Sys2Proof.Machine

/-! ### EPOCH.COMMIT, EPOCH.ABORT and EPOCH.STATUS (R56, R57, R61, R62) -/

/-- The commit an EPOCH.COMMIT of three words asks for: at its TIME_TAG, or at the first slot boundary SYS_EPOCH_LEAD from now or later. -/
def State.askedCommit (s : State) (h : Hdr) (e w tol : Word) : Commit :=
  { h, newEpoch := e, policy := bits w.toNat 17 16, tolerance := tol.toNat
    instant := if h.sched then h.timeTag.toNat else boundaryFrom (ceilDiv s.time 4096 + s.rdN P.SYS_EPOCH_LEAD) }

/-- EPOCH.COMMIT seals the staging area once all its checks pass (R52, R56, R57). -/
theorem epochCommitBody_of_good {s : State} {h : Hdr} {e w tol : Word} (hw : w.toNat < 262144) (hp : bits w.toNat 17 16 ≠ 3) (ht : tol.toNat ≤ 4000000)
    (hc : s.cmd.commit = none) (he : s.rdN P.SYS_EPOCH < e.toNat) (hn : bits w.toNat 15 0 = 0xFFFF ∨ bits w.toNat 15 0 = s.cmd.staged.length)
    (hs : s.commitStopsTpo = false) (ho : s.firstOffending = none) : epochCommitBody h [e, w, tol] s
      = (({ s with cmd := { s.cmd with commit := some (s.askedCommit h e w tol) } }).wrN P.SYS_EPOCH_STATE 2, .later none) := by
  have hw' : ¬(262144 ≤ w.toNat) := by omega
  have ht' : ¬(4000000 < tol.toNat) := by omega
  have he' : ¬(e.toNat ≤ s.rdN P.SYS_EPOCH) := by omega
  have hn' : ¬(bits w.toNat 15 0 ≠ 0xFFFF ∧ bits w.toNat 15 0 ≠ s.cmd.staged.length) := by omega
  simp only [epochCommitBody, ho]
  simp [word, hw', hp, ht', hc, he', hn', hs, State.askedCommit]

/-- EPOCH.ABORT of no commit discards or keeps the staging area (R61). -/
theorem epochAbortBody_of_uncommitted {s : State} {w : Word} (hw : w.toNat < 2) (hc : s.cmd.commit = none) :
    epochAbortBody [w] s = okay (s.keepStaged (bitOf w.toNat 0)) := by
  have hw' : ¬(2 ≤ w.toNat) := by omega
  simp [epochAbortBody, word, hw', hc]

/-- What becomes of the staging area takes none of the values the spec leaves open. -/
theorem State.keepStaged_takeFree (s : State) (keep : Bool) : s.takeFree.2.keepStaged keep = { s.keepStaged keep with free := s.free + 1 } := by
  cases keep <;> rfl

/-- EPOCH.ABORT of a deferred commit withdraws it, answers it, and discards or keeps the staging area (R61). -/
theorem epochAbortBody_of_deferred {s : State} {w : Word} {c : Commit} (hw : w.toNat < 2) (hc : s.cmd.commit = some c) (hd : c.deferred = true) :
    epochAbortBody [w] s
      = okay (State.finishCommit { s.keepStaged (bitOf w.toNat 0) with free := s.free + 1 } c stEpochConflict outAborted c.uncert 0) := by
  have hw' : ¬(2 ≤ w.toNat) := by omega
  rw [← State.keepStaged_takeFree]
  simp [epochAbortBody, word, hw', hc, hd, State.takeFree]

/-- Settles O15: each command's own checks pass and give its effect and answer (the layout of EPOCH.STATUS is log 107). -/
theorem epochCommandsComplete : Obligations.EpochCommandsComplete := by
  refine fun s h => ⟨?commit, fun w g hw hc => ?abort, fun w c g hw hc hd => ?withdraw, fun g hc => ?status, fun c g hc => ?statusSealed⟩
  case commit =>
    intro e w tol g hw hp ht hc he hn hs ho
    exact congrArg Host.Outcome.next (State.receive_later g (epochCommitBody_of_good hw hp ht hc he hn hs ho))
  case abort => exact congrArg Host.Outcome.next (State.receive_final g (epochAbortBody_of_uncommitted hw hc))
  case withdraw => exact congrArg Host.Outcome.next (State.receive_final g (epochAbortBody_of_deferred hw hc hd))
  case status => exact congrArg Host.Outcome.next (State.receive_final g (by simp only [epochStatusBody, hc]; rfl))
  case statusSealed => exact congrArg Host.Outcome.next (State.receive_final g (by simp only [epochStatusBody, hc]; rfl))

/-! ### The instant of a commit (R58, R60) -/

section
variable {s : State} {c : Commit}

/-- At its instant, while no command of an earlier one waits, a commit that is not deferred is judged on the time base of that instant. -/
theorem epochCommitInstant_of_due (h : s.cmd.commit = some c) (hi : c.instant ≤ s.now) (hd : c.deferred = false)
    (hw : s.earlierWaits c.instant = false) : let u := s.tbUpdate
    epochCommitInstant s =
      if c.h.sched = false ∨ u.commitUncert ≤ c.tolerance ∨ c.policy = 0 then u.applyNow c u.commitUncert
      else if c.policy = 1 then
        ({ u with cmd := { u.cmd with commit := some { c with deferred := true, uncert := u.commitUncert } } }).wrN P.SYS_EPOCH_STATE 3
      else (u.unseal.setBit P.SYS_CMD_FLAGS 3).finishCommit c stTimeout outMissed u.commitUncert 0 := by
  simp [epochCommitInstant, h, Nat.not_lt.mpr hi, hd, hw, or_assoc]

/-- A deferred commit applies at the boundary found for it. -/
theorem deferredCommitApply_of_due {a : Nat} (h : s.cmd.commit = some c) (ha : c.applyAt = some a) (hi : a ≤ s.now) :
    deferredCommitApply s = (s.applyCommit c a s.commitUncert).finishCommit c stOk outDeferred c.uncert a := by
  simp only [deferredCommitApply, h, ha, if_neg (Nat.not_lt.mpr hi)]
end

/-- Settles O17: the judgement of a commit by its uncertainty and its policy. -/
theorem commitInstant : Obligations.CommitInstant := by
  intro s t c r h hi u
  have e : exec (.epochCommitInstant t) s = .next (epochCommitInstant r) := rfl
  have untolerated : ∀ {policy : Nat}, c.h.sched = true → c.tolerance < u.commitUncert → c.policy = policy + 1 →
      ¬(c.h.sched = false ∨ u.commitUncert ≤ c.tolerance ∨ c.policy = 0) := by
    rintro policy hs hu hp (h | h | h)
    · rw [hs] at h; cases h
    · omega
    · omega
  refine ⟨fun hd hw hu => ?applies, fun hd hw hs hu hp => ?defers, fun hd hw hs hu hp => ?misses,
    fun a ha ht => congrArg Host.Outcome.next (deferredCommitApply_of_due h ha ht)⟩
  case applies => rw [e, epochCommitInstant_of_due h hi hd hw, if_pos hu]
  case defers => rw [e, epochCommitInstant_of_due h hi hd hw, if_neg (untolerated hs hu hp), if_pos hp]
  case misses =>
    rw [e, epochCommitInstant_of_due h hi hd hw, if_neg (untolerated hs hu hp), if_neg (by omega)]
    rfl

end Sys2Proof.Machine
end

section
/-! The statements on the general command events, and on what a waiting command does at its instant (R33, R34, R40, R44 to R46, R64, R222, R277, R368,
R494). -/

namespace Sys2Proof.Machine

/-! ### The receipt of a packet (R33, R34) -/

section
variable {s : State} {x : Packet} {rest : List Packet}

/-- A packet whose CRC fails, or that is too short for one, is discarded and counted (log 98). -/
theorem commandReceipt_of_bad (hx : s.clp.inbox = x :: rest) (ht : s.takesCommands = true)
    (hb : x.bytes.length < 20 ∨ packetCrcGood x.bytes = false) : let a := { s with clp := { s.clp with inbox := rest } }
    commandReceipt s = (a.addSat P.SYS_CMD_CRC_COUNT 1).setBit P.SYS_CMD_FLAGS 0 := by
  have ht' : State.takesCommands { s with clp := { s.clp with inbox := rest } } = true := ht
  simp only [commandReceipt, hx, ht']
  rcases hb with hb | hb <;> simp [hb]

/-- A packet of a good CRC is received as its bytes lay it out. -/
theorem commandReceipt_of_good (hx : s.clp.inbox = x :: rest) (ht : s.takesCommands = true) (hl : 20 ≤ x.bytes.length)
    (hg : packetCrcGood x.bytes = true) : commandReceipt s =
      State.receive { s with clp := { s.clp with inbox := rest } } (packetOpcode x.bytes) (packetHeader x s.time) (wordsOf (packetParams x.bytes))
        (opcodeBody (packetOpcode x.bytes) (packetHeader x s.time) (wordsOf (packetParams x.bytes))) := by
  have ht' : State.takesCommands { s with clp := { s.clp with inbox := rest } } = true := ht
  simp only [commandReceipt, hx, ht']
  simp [hg, Nat.not_lt.mpr hl]
end

/-! ### A new ID, and the command that acts (R44 to R46, R368) -/

section
variable {s : State}

/-- A new ID whose boundary has come takes effect. -/
theorem scheduledCommandAct_of_newId {id b : Nat} (h : s.cmd.newId = some (id, b)) (hb : b ≤ s.now) :
    scheduledCommandAct s = State.nameNode { s with cmd := { s.cmd with newId := none } } id := by
  simp only [scheduledCommandAct, h, if_pos hb]

/-- No new ID waits for a boundary that has come. -/
def State.noIdDue (s : State) : Prop := s.cmd.newId = none ∨ ∃ id b, s.cmd.newId = some (id, b) ∧ s.now < b

/-- The command due first acts, once no commit and no other waiting command comes before. -/
theorem scheduledCommandAct_of_command {o : Outstanding} (h : s.noIdDue) (ho : s.dueCommand actingOps = some o)
    (hc : s.commitBefore (o.due.getD 0) = false) (he : s.earlierFirst o.h (o.due.getD 0) = false) : scheduledCommandAct s = s.actCommand o := by
  rcases h with h | ⟨id, b, h, hb⟩
  · simp [scheduledCommandAct, h, ho, hc, he]
  · simp [scheduledCommandAct, h, ho, hc, he, Nat.not_le.mpr hb]
end

/-! ### The snapshot (R29, R46, R64) -/

/-- SYS_SNAP_ID goes one on and SYS_SNAP_TIME takes the latching instant: the snapshot holds both (log 12). -/
def State.snapNumbered (s : State) (w : SnapWait) : State :=
  (s.wrN P.SYS_SNAP_ID ((s.rdN P.SYS_SNAP_ID + 1) % 65536)).wr64 (P.SYS_SNAP_TIME 0) (s.actAt w.instant)

/-- The snapshot of a numbered state. -/
def State.snapshotAt (a : State) (w : SnapWait) (instant : Nat) : Snapshot :=
  { id := a.rdN P.SYS_SNAP_ID, instant, mask := w.mask, par := a.par, computed := a.computedAll, take := w, die := a.active, reply := a.rdN (P.REC_SEQ 7) }

/-- The state with the snapshot latched, its status bits cleared where CLEAR asks it. -/
def State.latched (s : State) (w : SnapWait) : State :=
  let a := s.snapNumbered w
  let b := { a with cmd := { a.cmd with snap := some (a.snapshotAt w (s.actAt w.instant)), snapWait := none } }
  if w.clear then b.clearW1c w.mask else b

/-- At its instant, once no commit and no other waiting command comes before, the snapshot is latched and its command answered. -/
theorem snapLatch_of_due {s : State} {w : SnapWait} (h : s.cmd.snapWait = some w) (hi : w.instant ≤ s.now) (hc : s.commitBefore w.instant = false)
    (he : s.earlierFirst w.h w.instant = false) : snapLatch s = (s.latched w).finish 0x03 w.h stOk
      [BitVec.ofNat 32 ((s.snapNumbered w).rdN P.SYS_SNAP_ID), lo32 (s.actAt w.instant), hi32 (s.actAt w.instant)] := by
  simp only [snapLatch, h, hc, he, Nat.not_lt.mpr hi, decide_false, Bool.or_false, Bool.false_eq_true, if_false]
  rfl

/-- Settles O23: each event by the equation of its meaning (the words of the snapshot's reply are log 107). -/
theorem commandEventsComplete : Obligations.CommandEventsComplete := by
  refine fun s t => ⟨fun x rest hx ht => ⟨?bad, ?good⟩, ?retention, ?newId, ?command, ?snapshot⟩
  case bad => exact fun hb => congrArg Host.Outcome.next (commandReceipt_of_bad hx ht hb)
  case good => exact fun hl hg => congrArg Host.Outcome.next (commandReceipt_of_good hx ht hl hg)
  case retention => rfl
  case newId => exact fun id b h hb => congrArg Host.Outcome.next (scheduledCommandAct_of_newId h hb)
  case command => exact fun o h ho hc he => congrArg Host.Outcome.next (scheduledCommandAct_of_command h ho hc he)
  case snapshot => exact fun w h hi hc he => congrArg Host.Outcome.next (snapLatch_of_due h hi hc he)

/-! ### What a waiting command does (R44, R222, R277, R494) -/

@[simp] theorem State.startFlash_mem (s : State) : s.startFlash.mem = s.mem := by
  unfold State.startFlash
  split
  · rfl
  · rfl
  · rfl
  · rfl
  · dsimp only
    split <;> rfl
@[simp] theorem State.queueFlash_mem (s : State) (op : FlashOp) : (s.queueFlash op).mem = s.mem := by
  unfold State.queueFlash
  dsimp only
  split <;> simp
/-- A save of the configuration leaves the memories. -/
@[simp] theorem State.requestSave_mem (s : State) : s.requestSave.mem = s.mem := by
  unfold State.requestSave
  dsimp only
  split <;> simp

/-- What a plot command's reply and the save that follows leave of the plots. -/
theorem State.plotReply_plots (o : Outstanding) (r : State × Nat × List Word) : (State.plotReply o r).mem.plots = r.1.mem.plots := by
  unfold State.plotReply
  dsimp only
  split <;> simp

/-- The lowest free plot ID, 0 where all are taken (R276). -/
def lowestFreeId (plots : List Plot) : Nat := ((List.range 16).find? (fun i => plots.all (fun q => q.id != i))).getD 0

/-- Where an ID is free, the lowest is: no plot has it, and each ID below is taken. -/
theorem lowestFreeId_of_free {plots : List Plot} (h : ∃ i, i < 16 ∧ ∀ x ∈ plots, x.id ≠ i) :
    (∀ x ∈ plots, x.id ≠ lowestFreeId plots) ∧ ∀ i, i < lowestFreeId plots → ∃ x ∈ plots, x.id = i := by
  unfold lowestFreeId
  cases hf : (List.range 16).find? (fun i => plots.all (fun q => q.id != i)) with
  | none =>
    obtain ⟨i, hi, free⟩ := h
    exact absurd (List.all_eq_true.mpr fun q hq => bne_iff_ne.mpr (free q hq)) (List.find?_eq_none.mp hf i (List.mem_range.mpr hi))
  | some j =>
    obtain ⟨hj, -, below⟩ := List.find?_range_eq_some.mp hf
    refine ⟨fun x hx => bne_iff_ne.mp (List.all_eq_true.mp hj x hx), fun i hi => ?_⟩
    simpa using below i hi

/-- A plot command that passes its checks makes a plot of what it asks, under the lowest free ID. -/
theorem plotNewAct_of_good {s : State} {p : List Word} (h : plotNewCheck s p = none) :
    ∃ q : Plot, (plotNewAct s p).1.mem.plots = insertPlot q s.mem.plots ∧ q.id = lowestFreeId s.mem.plots ∧ q.size = word p 1 ∧ q.kind = word p 0
      ∧ q.kinds = word p 2 ∧ q.weights = weightsOf p := by
  simp only [plotNewAct, h]
  exact ⟨_, rfl, rfl, rfl, rfl, rfl, rfl⟩
theorem plotFreeAct_of_good {s : State} {p : List Word} (h : plotFreeCheck s p = none) :
    (plotFreeAct s p).1.mem.plots = s.mem.plots.filter (fun q => q.id != word p 0) := by
  simp only [plotFreeAct, h]
  rfl

section
variable {s : State} {o : Outstanding}

theorem State.actCommand_parWrite (h : o.op = 0x11) :
    s.actCommand o = (s.parWrite o.p).1.finish 0x11 o.h (s.parWrite o.p).2.1 (s.parWrite o.p).2.2 := by simp only [State.actCommand, h]
theorem State.actCommand_reset (h : o.op = 0x02) : s.actCommand o = (s.finish 0x02 o.h stOk []).queueReset o.p := by simp only [State.actCommand, h]
theorem State.actCommand_force (h : o.op = 0x22) : s.actCommand o = (s.undue o.h).forceEnqueue o.h o.p (s.actAt (o.due.getD 0)) := by
  simp only [State.actCommand, h]
theorem State.actCommand_acquisition (h : o.op = 0x20 ∨ o.op = 0x21 ∨ o.op = 0x23) :
    s.actCommand o = (s.undue o.h).acqEnqueue o.h o.op o.p (s.actAt (o.due.getD 0)) := by
  rcases h with h | h | h <;> simp only [State.actCommand, h]
theorem State.actCommand_domain (h : o.op = 0x41) : s.actCommand o = (s.domainAct o.p).1.finish 0x41 o.h stOk (s.domainAct o.p).2 := by
  simp only [State.actCommand, h]
theorem State.actCommand_tpo (h : o.op = 0x44) : s.actCommand o = s.tpoScheduled o.h o.p := by simp only [State.actCommand, h]
theorem State.actCommand_plotNew (h : o.op = 0x50) : s.actCommand o = State.plotReply o (plotNewAct s o.p) := by simp only [State.actCommand, h]
theorem State.actCommand_plotFree (h : o.op = 0x51) : s.actCommand o = State.plotReply o (plotFreeAct s o.p) := by simp only [State.actCommand, h]
end

/-- Settles O24: what each opcode does, and what the plot commands leave once their reply and the save of the configuration are made. -/
theorem waitingCommandActs : Obligations.WaitingCommandActs := by
  refine fun s o => ⟨State.actCommand_parWrite, State.actCommand_reset, State.actCommand_force, State.actCommand_acquisition, State.actCommand_domain,
    State.actCommand_tpo, fun ho hp => ?new, fun ho hp => ?free⟩
  case new =>
    obtain ⟨q, hq, hid, hsize, hkind, hkinds, hweights⟩ := plotNewAct_of_good hp
    refine ⟨q, ?_, hsize, hkind, hkinds, hweights, fun hfree => hid ▸ lowestFreeId_of_free hfree⟩
    rw [State.actCommand_plotNew ho, State.plotReply_plots, hq]
  case free => rw [State.actCommand_plotFree ho, State.plotReply_plots, plotFreeAct_of_good hp]

end Sys2Proof.Machine
end

section
/-! The statement on the input events: the wire-check confirmation, the reset switch, the clamps and VAN (R73, R75, R76, R92, R94, R95). -/

namespace Sys2Proof.Machine

/-! ### The state of an input -/

theorem State.input_setInput_same (s : State) (n : Nat) (x : InputState) : (s.setInput n x).input n = x := Sparse.get_set_same _ _ _ _
theorem State.input_setInput_other (s : State) {n m : Nat} (x : InputState) (h : m ≠ n) : (s.setInput n x).input m = s.input m :=
  Sparse.get_set_other _ _ _ _ _ _ h

/-! ### The confirmation of a wire check (R94, R95) -/

/-- 10 µs after the second hit the confirmation is judged, in mode 5 by the samples taken since. -/
theorem wbConfirmationEnd_of_due {s : State} {n a : Nat} (beyond : Bool) (ha : (s.input n).confFrom = some a) (hs : s.inState n = inConfirming)
    (ht : a + 10000 ≤ s.now) :
    wbConfirmationEnd n beyond s = s.endConfirmation n (a + 10000) (if s.rdN (P.FE_IN_MODE n) = 5 then (s.input n).confLow else beyond) := by
  have ht' : ¬(s.now < a + 10000) := by omega
  simp [wbConfirmationEnd, ha, hs, ht']

/-! ### The reset switch of a charge amplifier (R75, R76) -/

/-- The input whose reset switch closes at an instant. -/
def InputState.closeSwitch (x : InputState) (b : Nat) : InputState :=
  { x with closed := some b, resetDue := none, samples := (b, b + 400) :: x.samples.filter (fun w => decide (b < w.2 + 4000)) }

/-- The reset switch of an input closes at an instant, and shows it. -/
def State.closeSwitch (s : State) (n b : Nat) : State := (s.setInput n ((s.input n).closeSwitch b)).setBit (P.FE_IN_STATUS n) 6

theorem State.closeSwitch_input_same (s : State) (n b : Nat) : (s.closeSwitch n b).input n = (s.input n).closeSwitch b := s.input_setInput_same n _
theorem State.closeSwitch_input_other (s : State) {n m : Nat} (b : Nat) (h : m ≠ n) : (s.closeSwitch n b).input m = s.input m :=
  s.input_setInput_other _ h
theorem State.closeSwitch_shown (s : State) (n b : Nat) : (s.closeSwitch n b).bit (P.FE_IN_STATUS n) 6 = true := by
  rw [State.closeSwitch, State.bit_setBit _ _ _ _ (by decide), decide_eq_true rfl, Bool.true_or]
theorem State.closeSwitch_rd_other (s : State) {n k : Nat} (b : Nat) (h : k ≠ P.FE_IN_STATUS n) : (s.closeSwitch n b).rd k = s.rd k :=
  State.rd_setBit_other _ _ h

section
variable {s : State} {n b : Nat} (hm : s.rdN (P.FE_IN_MODE n) = 2) (hc : (s.input n).closed = none)
include hm hc

/-- In AUTO the open switch closes at the boundary that is due. -/
theorem qresetClose_auto (hq : s.rdN (P.FE_QRST_MODE n) = 0) (hd : (s.input n).resetDue = some b) (hb : b ≤ s.now) :
    qresetClose n s = s.closeSwitch n b := by
  have due : (some b).filter (fun b => decide (b ≤ s.now)) = some b := Option.filter_some_pos (decide_eq_true hb)
  simp only [qresetClose, hm, hc, hq, hd, due, ne_eq, not_true_eq_false, decide_false, Option.isSome_none, Bool.or_self, Bool.false_eq_true, if_false,
    if_true]
  rfl

/-- In PERIODIC the open switch closes at a whole multiple of FE_QRST_PERIOD. -/
theorem qresetClose_periodic (hq : s.rdN (P.FE_QRST_MODE n) = 1) (hd : s.now % (1000 * s.rdN (P.FE_QRST_PERIOD n)) = 0) :
    qresetClose n s = s.closeSwitch n s.now := by
  simp only [qresetClose, hm, hc, hq, hd, ne_eq, not_true_eq_false, decide_false, Option.isSome_none, Bool.or_self, Bool.false_eq_true, if_false,
    decide_true, Bool.and_self, if_true]
  rfl

/-- The switch closes at an instant that is due, by either mode. -/
theorem qresetClose_of_due (h : (s.rdN (P.FE_QRST_MODE n) = 0 ∧ (s.input n).resetDue = some b ∧ b ≤ s.now)
      ∨ (s.rdN (P.FE_QRST_MODE n) = 1 ∧ s.now % (1000 * s.rdN (P.FE_QRST_PERIOD n)) = 0 ∧ b = s.now)) :
    qresetClose n s = s.closeSwitch n b := by
  obtain ⟨hq, hd, hb⟩ | ⟨hq, hd, rfl⟩ := h
  · exact qresetClose_auto hm hc hq hd hb
  · exact qresetClose_periodic hm hc hq hd
end

/-- 100 ns after it closed the switch opens. -/
theorem qresetOpen_of_due {s : State} {n b : Nat} (h : (s.input n).closed = some b) (hb : b + 100 ≤ s.now) :
    qresetOpen n s = s.setInput n { s.input n with closed := none } := by
  simp only [qresetOpen, h, if_neg (Nat.not_lt.mpr hb)]

/-! ### The clamps of an input (R92) -/

/-- The clamp detector of a pin becomes active: the spell begins, the input shows it and it is counted. -/
def State.noteClamp (s : State) (n pin : Nat) (positive : Bool) : State :=
  let x := s.input n
  ((s.setInput n { x with clamps := x.clamps.set pin ((x.clamps.get pin).begin s.time positive) }).setBit (P.FE_IN_STATUS n) 2).addSat
    (P.FE_CLAMP_COUNT n) 1

theorem inStatus_ne_clampCount (n : Nat) : P.FE_IN_STATUS n ≠ P.FE_CLAMP_COUNT n := by simp

section
variable (s : State) (n pin : Nat) (positive : Bool)

theorem State.noteClamp_clamps : ((s.noteClamp n pin positive).input n).clamps =
    (s.input n).clamps.set pin (((s.input n).clamps.get pin).begin s.time positive) := congrArg InputState.clamps (s.input_setInput_same n _)
theorem State.noteClamp_input_other {m : Nat} (h : m ≠ n) : (s.noteClamp n pin positive).input m = s.input m := s.input_setInput_other _ h
theorem State.noteClamp_shown : (s.noteClamp n pin positive).bit (P.FE_IN_STATUS n) 2 = true := by
  rw [State.noteClamp, State.bit, State.rdN_addSat_other _ _ (inStatus_ne_clampCount n)]
  exact (State.bit_setBit _ _ _ _ (by decide)).trans (by rw [decide_eq_true rfl, Bool.true_or])
theorem State.noteClamp_count : (s.noteClamp n pin positive).rd (P.FE_CLAMP_COUNT n) = satWord (s.rdN (P.FE_CLAMP_COUNT n) + 1) := by
  rw [State.noteClamp, State.addSat, State.rd_wr_same, State.rdN_setBit_other _ _ (inStatus_ne_clampCount n).symm, State.setInput_rdN]
theorem State.noteClamp_rd_other {k : Nat} (hs : k ≠ P.FE_IN_STATUS n) (hc : k ≠ P.FE_CLAMP_COUNT n) :
    (s.noteClamp n pin positive).rd k = s.rd k := by
  rw [State.noteClamp, State.rd_addSat_other _ _ hc, State.rd_setBit_other _ _ hs, State.setInput_rd]
end

section
variable {s : State} {n pin : Nat} (positive : Bool)

/-- A detector that is active notes nothing new. -/
theorem clampActivate_of_active (h : ((s.input n).clamps.get pin).since.isSome = true) : clampActivate n pin positive s = s := by
  simp [clampActivate, h]

/-- A detector that becomes active is noted. -/
theorem clampActivate_of_released (h : ((s.input n).clamps.get pin).since = none) : clampActivate n pin positive s = s.noteClamp n pin positive := by
  simp only [clampActivate, h, Option.isSome_none, Bool.false_eq_true, if_false]
  rfl

/-- A detector that releases ends its spell and opens the recovery window of conversions that start in the next 2 µs. -/
theorem clampRelease_of_active (h : ((s.input n).clamps.get pin).since.isSome = true) : clampRelease n pin s =
    s.setInput n { s.input n with clamps := (s.input n).clamps.set pin (((s.input n).clamps.get pin).end_ s.time)
                                  starts := addWindow (s.now, s.now + 2000, false) (s.input n).starts } := by
  simp [clampRelease, Option.isNone_eq_false_iff.mpr h]
end

/-! ### VAN low at a die (R73) -/

/-- VAN of a die falls low while an input of it is on range 4: the spell begins and each such input shows it. -/
theorem vanLowOnset_of_range4 {s : State} {fe : Nat} (hv : (Sparse.get {} s.fe.vanLow fe : Spell).since = none)
    (hr : (inputsOf fe).any s.onRange4 = true) : vanLowOnset fe s =
      ((inputsOf fe).filter s.onRange4).foldl (fun s n => s.setBit (P.FE_IN_STATUS n) 10)
        { s with fe := { s.fe with vanLow := Sparse.set {} s.fe.vanLow fe ((Sparse.get {} s.fe.vanLow fe : Spell).begin s.time false) } } := by
  have some_on : ((inputsOf fe).filter s.onRange4).isEmpty = false := by
    obtain ⟨n, hn, on4⟩ := List.any_eq_true.mp hr
    exact List.isEmpty_eq_false_iff.mpr (List.ne_nil_of_mem (List.mem_filter.mpr ⟨hn, on4⟩))
  simp only [vanLowOnset, hv, some_on, Option.isSome_none, Bool.or_self, Bool.false_eq_true, if_false]

/-- Settles O28: each event by the equation of its meaning; the switch that closes and the clamp that is noted write one input and its status. -/
theorem inputEventsComplete : Obligations.InputEventsComplete := by
  intro s t n r
  refine ⟨?confirmation, fun b hm hc hd => ?close, ?opens, fun pin positive => ⟨?active, fun h => ?noted⟩, ?release, ?vanLow, fun fe => rfl⟩
  case confirmation => exact fun a beyond ha hs ht => congrArg Host.Outcome.next (wbConfirmationEnd_of_due beyond ha hs ht)
  case close =>
    have closes := r.closeSwitch_input_same n b
    exact ⟨_, congrArg Host.Outcome.next (qresetClose_of_due hm hc hd), congrArg InputState.closed closes, congrArg InputState.resetDue closes,
      r.closeSwitch_shown n b, congrArg InputState.samples closes, fun m hm => r.closeSwitch_input_other b hm,
      fun k hk => r.closeSwitch_rd_other b hk, rfl⟩
  case opens => exact fun b h hb => congrArg Host.Outcome.next (qresetOpen_of_due h hb)
  case active => exact fun h => congrArg Host.Outcome.next (clampActivate_of_active positive h)
  case noted =>
    exact ⟨_, congrArg Host.Outcome.next (clampActivate_of_released positive h), r.noteClamp_clamps n pin positive, r.noteClamp_shown n pin positive,
      r.noteClamp_count n pin positive, fun m hm => r.noteClamp_input_other n pin positive hm,
      fun k hs hc => r.noteClamp_rd_other n pin positive hs hc, rfl⟩
  case release => exact fun pin h => congrArg Host.Outcome.next (clampRelease_of_active h)
  case vanLow => exact fun fe hv hr => congrArg Host.Outcome.next (vanLowOnset_of_range4 hv hr)

end Sys2Proof.Machine
end

section
/-! The statement on the excitation events: reversal, compliance and the sweeps of a vibrating-wire source (R81 to R83, R86, R101, R102). -/

namespace Sys2Proof.Machine

/-! ### The inputs that name a source -/

theorem lt_of_mem_inputsOf {fe n : Nat} (h : n ∈ inputsOf fe) : n < 128 * fe + 128 := by
  obtain ⟨i, hi, rfl⟩ := List.mem_map.mp h
  have := List.mem_range.mp hi
  omega

/-- Where FE_IN_EXC of the inputs of its die reads alike, the same inputs name a source. -/
theorem State.namedBy_congr {s u : State} {k : Nat} (h : ∀ n ∈ inputsOf (k / 16), u.rdN (P.FE_IN_EXC n) = s.rdN (P.FE_IN_EXC n)) :
    u.namedBy k = s.namedBy k := List.filter_congr fun n hn => by rw [h n hn]
@[simp] theorem State.setSource_namedBy (s : State) (j : Nat) (x : SourceState) (k : Nat) : (s.setSource j x).namedBy k = s.namedBy k := rfl
@[simp] theorem State.steer_namedBy (s : State) (j k : Nat) : (s.steer j).namedBy k = s.namedBy k := rfl

/-- A row of FE_EXC_STATUS is no row of FE_IN_EXC of the inputs of a front end. -/
theorem inExc_ne_excStatus {k n : Nat} (hk : k < 64) (hn : n ∈ inputsOf (k / 16)) : P.FE_IN_EXC n ≠ P.FE_EXC_STATUS k := by
  have := lt_of_mem_inputsOf hn
  simp only [P.FE_IN_EXC, P.FE_EXC_STATUS]; omega
theorem State.namedBy_setBit_excStatus (s : State) {k : Nat} (i : Nat) (hk : k < 64) :
    (s.setBit (P.FE_EXC_STATUS k) i).namedBy k = s.namedBy k :=
  State.namedBy_congr fun _ hn => State.rdN_setBit_other _ _ (inExc_ne_excStatus hk hn)
theorem State.namedBy_clrBits_excStatus (s : State) {k : Nat} (m : Nat) (hk : k < 64) :
    (s.clrBits (P.FE_EXC_STATUS k) m).namedBy k = s.namedBy k :=
  State.namedBy_congr fun _ hn => State.rdN_clrBits_other _ _ (inExc_ne_excStatus hk hn)

/-! ### Reversal (R82, R83, R101) -/

/-- At an instant of a reversing source it runs reversed exactly in the halves of odd index. -/
theorem State.reversedAt_of_reversing {s : State} {k : Nat} (t : Nat) (h : 500 * s.rdN (P.FE_EXC_REV_PERIOD k) ≠ 0) :
    s.reversedAt k t = decide (t / (500 * s.rdN (P.FE_EXC_REV_PERIOD k)) % 2 = 1) := by
  rw [State.reversedAt, bne_iff_ne.mpr h, Bool.true_and]; rfl

section
variable {s : State} {k : Nat}

/-- At a whole multiple of H, no commit being due, the terminals follow the half that begins; where it is a forward half, the pair behind it ends. -/
theorem reversalInstant_of_due : let h := 500 * s.rdN (P.FE_EXC_REV_PERIOD k)
    h ≠ 0 → s.now % h = 0 → s.commitDue = false → reversalInstant k s =
      let u := s.setSource k { s.source k with reversed := s.reversedAt k s.now }
      if s.reversedAt k s.now = true then u else (s.namedBy k).foldl (fun s n => s.endPair h s.now n) u := by
  intro h hh hm hc
  simp only [reversalInstant, hh, hm, hc, ne_eq, not_true_eq_false, decide_false, Bool.or_self, Bool.false_eq_true, if_false, State.setSource_namedBy, h]

/-! ### Compliance (R81) -/

/-- A driven source that reaches compliance notes it, and so does each input that names it. -/
theorem excComplianceChange_reached (hk : k < 64) (hd : s.rdN (P.FE_EXC_CURRENT k) ≠ 0) (hx : (s.source k).compliance.since = none) :
    excComplianceChange k true s = (s.namedBy k).foldl (fun s n => s.setBit (P.FE_IN_STATUS n) 7)
      (((s.setSource k { s.source k with compliance := (s.source k).compliance.begin s.time false }).setBit (P.FE_EXC_STATUS k) 1).setBit
        (P.FE_EXC_STATUS k) 0) := by
  simp [excComplianceChange, hd, hx, State.namedBy_setBit_excStatus _ _ hk]

/-! ### Sweeps and the listening interval (R86, R101, R102) -/

/-- A sweep cycle that begins now: the interval is set, its grid reaches now, no sweep of now stands and no commit comes first. -/
def State.sweepDue (s : State) (k : Nat) : Prop :=
  1000000 * s.rdN (P.FE_VW_INTERVAL k) ≠ 0 ∧ 1000 * s.rdN (P.FE_VW_PHASE k) ≤ s.now
    ∧ (s.now - 1000 * s.rdN (P.FE_VW_PHASE k)) % (1000000 * s.rdN (P.FE_VW_INTERVAL k)) = 0 ∧ (s.source k).sweepAt ≠ some s.now ∧ s.commitDue = false
/-- A calibration steers the source, or an input that names it is BROKEN or HELD: its sweep is skipped. -/
def State.sweepSkipped (s : State) (k : Nat) : Bool := s.calSteers k || (s.namedBy k).any (fun n => s.inState n == inBroken || s.inState n == inHeld)

/-- A sweep that is due is skipped and leaves the terminals released, or starts at the source and at each of its inputs that is not OFF. -/
theorem vwSweepStart_of_due (hk : k < 64) (h : s.sweepDue k) : vwSweepStart k s =
    if s.sweepSkipped k = true then s.setSource k { s.source k with released := true }
    else (s.namedBy k).foldl (fun s n => if s.inState n = inOff then s else s.setInput n { s.input n with sweep := some s.now })
      (((s.setSource k { s.source k with sweepAt := some s.now, waitFrom := none, listenFrom := none }).steer k).setBit (P.FE_EXC_STATUS k) 2) := by
  obtain ⟨hd, hp, hm, hn, hc⟩ := h
  simp only [vwSweepStart, State.sweepSkipped, hd, Nat.not_lt.mpr hp, hm, hn, hc, ne_eq, not_true_eq_false, decide_false, Bool.or_self,
    Bool.false_eq_true, if_false, State.namedBy_setBit_excStatus _ _ hk, State.steer_namedBy, State.setSource_namedBy]

/-- At the end of a sweep the terminals are released and a SET window opens at each input that names the source. -/
theorem vwSweepEnd_of_due {a : Nat} (hk : k < 64) (h : (s.source k).sweepAt = some a) (he : a + 1000 * s.rdN (P.FE_VW_SWEEP k) ≤ s.now) :
    let e := a + 1000 * s.rdN (P.FE_VW_SWEEP k)
    vwSweepEnd k s = (s.namedBy k).foldl (fun s n => let u := s.setEvent n e; u.setInput n { u.input n with sweep := none })
      ((s.setSource k { s.source k with sweepAt := none, waitFrom := some e, released := true }).clrBits (P.FE_EXC_STATUS k) 4) := by
  simp only [vwSweepEnd, h, if_neg (Nat.not_lt.mpr he), State.namedBy_clrBits_excStatus _ _ hk, State.setSource_namedBy]

/-- FE_VW_WAIT after the sweep the comparators of the source's inputs are enabled. -/
theorem vwListenStart_of_due {a : Nat} (h : (s.source k).waitFrom = some a) (he : a + 1000 * s.rdN (P.FE_VW_WAIT k) ≤ s.now) :
    vwListenStart k s = (s.namedBy k).foldl (fun s n => s.refreshCmp n 1)
      (s.setSource k { s.source k with waitFrom := none, listenFrom := some (a + 1000 * s.rdN (P.FE_VW_WAIT k)) }) := by
  simp only [vwListenStart, h, if_neg (Nat.not_lt.mpr he), State.setSource_namedBy]

/-- FE_VW_LISTEN later they are gated off. -/
theorem vwListenEnd_of_due {a : Nat} (h : (s.source k).listenFrom = some a) (he : a + 1000 * s.rdN (P.FE_VW_LISTEN k) ≤ s.now) :
    vwListenEnd k s = (s.namedBy k).foldl (fun s n => s.refreshCmp n 1) (s.setSource k { s.source k with listenFrom := none }) := by
  simp only [vwListenEnd, h, if_neg (Nat.not_lt.mpr he), State.setSource_namedBy]
end

/-- Settles O29: each event by the equation of its meaning; a reversal by the half that begins (log 81), a sweep by whether it is skipped (R101; log 80). -/
theorem excitationEventsComplete : Obligations.ExcitationEventsComplete := by
  intro s t k r
  have hk := k.isLt
  refine ⟨fun h hm hc => ⟨fun hodd => ?reversed, fun heven => ?forward⟩, ?reached, rfl,
    fun hd hp hm hs hc => ⟨fun hskip => ?skipped, fun hskip => ?starts⟩, ?sweepEnd, ?listenStart, ?listenEnd⟩
  case reversed =>
    have odd : r.reversedAt k r.now = true := by rw [State.reversedAt_of_reversing _ h]; exact decide_eq_true hodd
    exact congrArg Host.Outcome.next (by rw [reversalInstant_of_due h hm hc, odd]; rfl)
  case forward =>
    have even : r.reversedAt k r.now = false := by rw [State.reversedAt_of_reversing _ h]; exact decide_eq_false (by omega)
    exact congrArg Host.Outcome.next (by rw [reversalInstant_of_due h hm hc, even]; rfl)
  case reached => exact fun hd hx => congrArg Host.Outcome.next (excComplianceChange_reached hk hd hx)
  case skipped => exact congrArg Host.Outcome.next ((vwSweepStart_of_due hk ⟨hd, hp, hm, hs, hc⟩).trans (if_pos hskip))
  case starts => exact congrArg Host.Outcome.next ((vwSweepStart_of_due hk ⟨hd, hp, hm, hs, hc⟩).trans (if_neg (ne_true_of_eq_false hskip)))
  case sweepEnd => exact fun a ha he => congrArg Host.Outcome.next (vwSweepEnd_of_due hk ha he)
  case listenStart => exact fun a ha he => congrArg Host.Outcome.next (vwListenStart_of_due ha he)
  case listenEnd => exact fun a ha he => congrArg Host.Outcome.next (vwListenEnd_of_due ha he)

end Sys2Proof.Machine
end

section
/-! The statement on what a write to a parameter does, by its access class (R10 to R12, R51, R56, R81, R125, R309; log 106). -/

namespace Sys2Proof.Machine

/-! ### A write by the access class of its item (R10, R51, R56) -/

section
variable {k : Nat} {row : ParamRow} (s : State) (v : Word) (h : Params.row k = some row)
include h

theorem State.writeParam_of_readOnly (ha : row.access = .ro) : s.writeParam k v = s := by
  simp only [State.writeParam, h, ha]
theorem State.writeParam_of_staged (ha : row.access = .rwe) :
    s.writeParam k v = ({ s with cmd := { s.cmd with staged := Sparse.put s.cmd.staged k v } }).wrN P.SYS_EPOCH_STATE 1 := by
  simp only [State.writeParam, h, ha]
/-- Beside the value in force, an RWI write can only ask the management for a selection (R483) and for a save of the configuration (R493). -/
theorem State.writeParam_of_immediate (ha : row.access = .rwi) : ∃ x, s.writeParam k v = (s.wr k (v ||| fixedCrit k)).setMgt x := by
  simp only [State.writeParam, h, ha]
  split <;> split <;> exact ⟨_, rfl⟩
theorem State.writeParam_of_w1c {m : Nat} (ha : row.access = .w1c m) : s.writeParam k v = s.clearStatus k m v := by
  simp only [State.writeParam, h, ha]
end

/-! ### Clearing W1C bits (R11, R12) -/

/-- What a bit of a status word is after a write to it: cleared where it is a W1C bit written 1 that this cycle has not set. -/
def State.bitAfterClear (s : State) (k m : Nat) (v : Word) (b : Nat) : Bool :=
  s.bit k b && !(bitOf v.toNat b && bitOf m b && !bitOf (Sparse.get 0 s.bitsNow k) b)

/-- The bits of a word set in this cycle are those noted at this ns (log 106). -/
theorem State.get_bitsNow (s : State) (k : Nat) :
    Sparse.get 0 s.bitsNow k = if s.cmd.bitsAt = s.now then Sparse.get 0 s.cmd.bitsSet k else 0 := by
  unfold State.bitsNow; split <;> rfl

theorem State.bit_writeW1c (s : State) (k m : Nat) (v : Word) {b : Nat} (hb : b < 32) :
    (s.writeW1c k m v).bit k b = s.bitAfterClear k m v b := by
  have kept : bitOf (0xFFFFFFFF ^^^ (Sparse.get 0 s.bitsNow k % 4294967296)) b = !bitOf (Sparse.get 0 s.bitsNow k) b := by
    simp only [bitOf_eq_testBit]
    rw [Nat.testBit_xor, show Nat.testBit 4294967295 b = decide (b < 32) from Nat.testBit_two_pow_sub_one 32 b,
      show Nat.testBit (_ % 4294967296) b = (decide (b < 32) && _) from Nat.testBit_mod_two_pow _ 32 b]
    simp [hb]
  rw [State.writeW1c, State.bit_clrBits _ _ _ _ hb, State.bitAfterClear, ← kept]
  simp only [bitOf_eq_testBit, Nat.testBit_and]

/-! ### The grid does not read the status of its group (R116, R117, R125) -/

/-- No status of a group stands at an address from which its grid is computed. -/
theorem grpStatus_ne_of_lt {g k : Nat} (h : k < 0x03130000) : k ≠ P.ADC_GRP_STATUS g := by
  simp only [P.ADC_GRP_STATUS]; omega

theorem State.mem_scanSet_lt {s : State} {g e : Nat} (he : e ∈ s.scanSet g) : e < 4 * g + 4 := by
  have := (List.mem_filter.mp he).1
  simp only [List.mem_cons, List.not_mem_nil, or_false] at this
  omega

section
variable {s u : State} {g : Nat} (hg : g < 65536) (hfe : u.fe = s.fe) (hrd : ∀ k, k ≠ P.ADC_GRP_STATUS g → u.rdN k = s.rdN k)
include hg hrd

theorem State.convTime_congr : u.convTime g = s.convTime g := by
  rw [State.convTime, hrd _ (grpStatus_ne_of_lt (by simp only [P.ADC_LP]; omega)), State.convTime]

theorem State.configured_congr {n : Nat} (hn : n < 4 * g + 4) : u.configured n = s.configured n := by
  rw [State.configured, State.bit, hrd _ (grpStatus_ne_of_lt (by simp only [P.ADC_SCAN_MASK]; omega)),
    hrd _ (grpStatus_ne_of_lt (by simp only [P.FE_IN_MODE]; omega))]
  rfl

theorem State.memberSlot_congr {e : Nat} (he : e < 4 * g + 4) : u.memberSlot g e = s.memberSlot g e := by
  rw [State.memberSlot, hrd _ (grpStatus_ne_of_lt (by simp only [P.ADC_SETTLE]; omega)), State.convTime_congr hg hrd, State.memberSlot]

include hfe

theorem State.scanSet_congr : u.scanSet g = s.scanSet g := List.filter_congr fun n hn => by
  have hn' : n < 4 * g + 4 := by simp only [List.mem_cons, List.not_mem_nil, or_false] at hn; omega
  rw [State.configured_congr hg hrd hn', State.input, hfe]; rfl

theorem State.scanCycle_congr : u.scanCycle g = s.scanCycle g := by
  have slots : (s.scanSet g).map (u.memberSlot g) = (s.scanSet g).map (s.memberSlot g) :=
    List.map_congr_left fun e he => State.memberSlot_congr hg hrd (State.mem_scanSet_lt he)
  simp only [State.scanCycle, State.scanSet_congr hg hfe hrd, State.convTime_congr hg hrd]
  split
  · rfl
  · rfl
  · rw [slots]

theorem State.throttleAt_congr (s0 : Nat) : u.throttleAt g s0 = s.throttleAt g s0 := by
  have elig := hrd (P.ADC_THR_ELIG g) (grpStatus_ne_of_lt (by simp only [P.ADC_THR_ELIG]; omega))
  have div := hrd (P.ADC_THR_DIV (g / 32)) (grpStatus_ne_of_lt (by simp only [P.ADC_THR_DIV]; omega))
  simp only [State.throttleAt, elig, div, hfe]

theorem State.cycleRuns_congr (s0 : Nat) : u.cycleRuns g s0 = s.cycleRuns g s0 := by
  have phase := hrd (P.ADC_PHASE g) (grpStatus_ne_of_lt (by simp only [P.ADC_PHASE]; omega))
  simp only [State.cycleRuns, State.scanCycle_congr hg hfe hrd, State.throttleAt_congr hg hfe hrd, phase]

/-- Whether a skipped cycle is still to be shown does not hang on what the status shows. -/
theorem State.skipDue_congr (t : Nat) : u.skipDue g t = s.skipDue g t := by
  simp only [State.skipDue, State.reached, State.group, State.scanSet_congr hg hfe hrd, State.scanCycle_congr hg hfe hrd,
    State.cycleRuns_congr hg hfe hrd, hfe]
end

/-! ### Showing skipped cycles (R125) -/

/-- Where no skipped cycle is to be shown nothing changes; else the next cycle moves on and bit 4 is set. -/
theorem State.noteSkip_cases (s : State) (g t : Nat) : s.noteSkip g t = s
    ∨ ∃ x, s.noteSkip g t = (s.setGroup g x).wrN (P.ADC_GRP_STATUS g) (s.rdN (P.ADC_GRP_STATUS g) ||| 16) := by
  unfold State.noteSkip
  split
  · exact .inl rfl
  · split
    · exact .inr ⟨_, rfl⟩
    · exact .inl rfl

theorem State.noteSkip_of_shown {s : State} {g t : Nat} (h : s.skipDue g t = false) : s.noteSkip g t = s := by
  simp [State.noteSkip, h]

section
variable (s : State) (g t : Nat)

@[simp] theorem State.noteSkip_cmd : (s.noteSkip g t).cmd = s.cmd := by
  obtain h | ⟨x, h⟩ := s.noteSkip_cases g t <;> rw [h]; rfl
@[simp] theorem State.noteSkip_time : (s.noteSkip g t).time = s.time := by
  obtain h | ⟨x, h⟩ := s.noteSkip_cases g t <;> rw [h]; rfl
@[simp] theorem State.noteSkip_now : (s.noteSkip g t).now = s.now := congrArg (· / 4096) (s.noteSkip_time g t)
theorem State.rd_noteSkip_other {k : Nat} (hk : k ≠ P.ADC_GRP_STATUS g) : (s.noteSkip g t).rd k = s.rd k := by
  obtain h | ⟨x, h⟩ := s.noteSkip_cases g t <;> rw [h]; exact State.rd_wrN_other _ _ hk
/-- Of the status only bit 4 is touched. -/
theorem State.bit_noteSkip_other {b : Nat} (h4 : b ≠ 4) :
    (s.noteSkip g t).bit (P.ADC_GRP_STATUS g) b = s.bit (P.ADC_GRP_STATUS g) b := by
  obtain h | ⟨x, h⟩ := s.noteSkip_cases g t <;> rw [h]
  have fits : s.rdN (P.ADC_GRP_STATUS g) ||| 16 < 4294967296 := Nat.or_lt_two_pow (n := 32) (s.rdN_lt _) (by decide)
  rw [State.bit, State.rdN_wrN_same, Nat.mod_eq_of_lt fits, State.bit]
  simp only [bitOf_eq_testBit]
  rw [Nat.testBit_or, show Nat.testBit 16 b = decide (4 = b) from Nat.testBit_two_pow (n := 4), decide_eq_false h4.symm, Bool.or_false]
theorem State.bitAfterClear_noteSkip (m : Nat) (v : Word) {b : Nat} (h4 : b ≠ 4) :
    (s.noteSkip g t).bitAfterClear (P.ADC_GRP_STATUS g) m v b = s.bitAfterClear (P.ADC_GRP_STATUS g) m v b := by
  simp only [State.bitAfterClear, State.bitsNow, State.bit_noteSkip_other s g t h4, State.noteSkip_cmd, State.noteSkip_now]
end

/-! ### A write to a W1C item: a group's status, an input's status, any other (R81, R125) -/

/-- The source of an input is at compliance. -/
def State.atCompliance (s : State) (i : Nat) : Bool :=
  decide (s.rdN (P.FE_IN_EXC i) < 64) && (s.source (s.rdN (P.FE_IN_EXC i))).compliance.since.isSome

section
variable {s : State} {k m : Nat} {v : Word}

/-- A group's status: cycles skipped before the write are shown before it, one that begins with it after. -/
theorem State.clearStatus_of_group (hk : k = P.ADC_GRP_STATUS (Params.indexOf k)) : s.clearStatus k m v =
    ((s.noteSkip (Params.indexOf k) s.now).writeW1c k m v).noteSkip (Params.indexOf k) (s.now + 1) := by
  have noInput : k ≠ P.FE_IN_STATUS (Params.indexOf k) := fun h => by
    have := hk.symm.trans h
    simp only [P.ADC_GRP_STATUS, P.FE_IN_STATUS] at this; omega
  have same : ((s.noteSkip (Params.indexOf k) s.now).writeW1c k m v).now = s.now := s.noteSkip_now _ _
  simp only [State.clearStatus, if_pos hk, same, decide_eq_false noInput, Bool.false_and, Bool.false_eq_true, if_false]

/-- An input's status: bit 7 is set again while the source is at compliance. -/
theorem State.clearStatus_of_input (hk : k = P.FE_IN_STATUS (Params.indexOf k)) (hn : k ≠ P.ADC_GRP_STATUS (Params.indexOf k)) :
    s.clearStatus k m v = if s.atCompliance (Params.indexOf k) then (s.writeW1c k m v).setBit k 7 else s.writeW1c k m v := by
  have other : P.FE_IN_EXC (Params.indexOf k) ≠ k := fun h => by
    have := h.trans hk
    simp only [P.FE_IN_EXC, P.FE_IN_STATUS] at this; omega
  have same : (s.writeW1c k m v).rdN (P.FE_IN_EXC (Params.indexOf k)) = s.rdN (P.FE_IN_EXC (Params.indexOf k)) := State.rdN_clrBits_other _ _ other
  have sources : ∀ c, (s.writeW1c k m v).source c = s.source c := fun _ => rfl
  simp only [State.clearStatus, if_neg hn]
  refine ite_congr ?_ (fun _ => rfl) (fun _ => rfl)
  simp only [decide_eq_true hk, Bool.true_and, same, sources, State.atCompliance]

theorem State.clearStatus_of_other (hg : k ≠ P.ADC_GRP_STATUS (Params.indexOf k)) (hi : k ≠ P.FE_IN_STATUS (Params.indexOf k)) :
    s.clearStatus k m v = s.writeW1c k m v := by
  simp only [State.clearStatus, if_neg hg, decide_eq_false hi, Bool.false_and, Bool.false_eq_true, if_false]
end

section
variable (s : State) (k m : Nat) (v : Word)

/-- The three forms that a write to a W1C item takes. -/
theorem State.clearStatus_cases :
    (k = P.ADC_GRP_STATUS (Params.indexOf k) ∧
        s.clearStatus k m v = ((s.noteSkip (Params.indexOf k) s.now).writeW1c k m v).noteSkip (Params.indexOf k) (s.now + 1))
    ∨ (k = P.FE_IN_STATUS (Params.indexOf k) ∧ k ≠ P.ADC_GRP_STATUS (Params.indexOf k) ∧ s.clearStatus k m v = (s.writeW1c k m v).setBit k 7)
    ∨ (k ≠ P.ADC_GRP_STATUS (Params.indexOf k) ∧ s.clearStatus k m v = s.writeW1c k m v) := by
  by_cases hg : k = P.ADC_GRP_STATUS (Params.indexOf k)
  · exact .inl ⟨hg, State.clearStatus_of_group hg⟩
  by_cases hi : k = P.FE_IN_STATUS (Params.indexOf k)
  · cases hc : s.atCompliance (Params.indexOf k) with
    | true => exact .inr (.inl ⟨hi, hg, (State.clearStatus_of_input hi hg).trans (if_pos hc)⟩)
    | false => exact .inr (.inr ⟨hg, (State.clearStatus_of_input hi hg).trans (if_neg (ne_true_of_eq_false hc))⟩)
  · exact .inr (.inr ⟨hg, State.clearStatus_of_other hg hi⟩)

theorem State.clearStatus_staged : (s.clearStatus k m v).cmd.staged = s.cmd.staged := by
  obtain ⟨-, h⟩ | ⟨-, -, h⟩ | ⟨-, h⟩ := s.clearStatus_cases k m v <;> simp [h, State.writeW1c, State.setBit]
theorem State.clearStatus_outstanding : (s.clearStatus k m v).cmd.outstanding = s.cmd.outstanding := by
  obtain ⟨-, h⟩ | ⟨-, -, h⟩ | ⟨-, h⟩ := s.clearStatus_cases k m v <;> simp [h, State.writeW1c]
theorem State.clearStatus_fe (hk : k ≠ P.ADC_GRP_STATUS (Params.indexOf k)) : (s.clearStatus k m v).fe = s.fe := by
  obtain ⟨hg, -⟩ | ⟨-, -, h⟩ | ⟨-, h⟩ := s.clearStatus_cases k m v
  · exact absurd hg hk
  · rw [h]; rfl
  · rw [h]; rfl
theorem State.rd_clearStatus_other {j : Nat} (hj : j ≠ k) : (s.clearStatus k m v).rd j = s.rd j := by
  obtain ⟨hg, h⟩ | ⟨-, -, h⟩ | ⟨-, h⟩ := s.clearStatus_cases k m v
  · have hj' : j ≠ P.ADC_GRP_STATUS (Params.indexOf k) := hg ▸ hj
    rw [h, State.rd_noteSkip_other _ _ _ hj', State.writeW1c, State.rd_clrBits_other _ _ hj, State.rd_noteSkip_other _ _ _ hj']
  · rw [h, State.rd_setBit_other _ _ hj, State.writeW1c, State.rd_clrBits_other _ _ hj]
  · rw [h, State.writeW1c, State.rd_clrBits_other _ _ hj]

/-- Apart from the two bits that the node itself holds up, the bits are what the write leaves. -/
theorem State.bit_clearStatus {b : Nat} (hb : b < 32) (hg4 : ¬(k = P.ADC_GRP_STATUS (Params.indexOf k) ∧ b = 4))
    (hi7 : ¬(k = P.FE_IN_STATUS (Params.indexOf k) ∧ b = 7)) : (s.clearStatus k m v).bit k b = s.bitAfterClear k m v b := by
  obtain ⟨hg, h⟩ | ⟨hi, -, h⟩ | ⟨-, h⟩ := s.clearStatus_cases k m v
  · have h4 : b ≠ 4 := fun hb4 => hg4 ⟨hg, hb4⟩
    rw [h]
    generalize Params.indexOf k = i at hg ⊢
    subst hg
    rw [State.bit_noteSkip_other _ _ _ h4, State.bit_writeW1c _ _ _ _ hb, State.bitAfterClear_noteSkip _ _ _ _ _ h4]
  · have h7 : b ≠ 7 := fun hb7 => hi7 ⟨hi, hb7⟩
    rw [h, State.bit_setBit _ _ _ _ (by decide), decide_eq_false h7, Bool.false_or, State.bit_writeW1c _ _ _ _ hb]
  · rw [h, State.bit_writeW1c _ _ _ _ hb]

/-- FE_IN_STATUS[7] stays set while the input's source is at compliance. -/
theorem State.bit_clearStatus_compliance (hi : k = P.FE_IN_STATUS (Params.indexOf k)) (hg : k ≠ P.ADC_GRP_STATUS (Params.indexOf k)) :
    (s.clearStatus k m v).bit k 7 = (s.bitAfterClear k m v 7 || s.atCompliance (Params.indexOf k)) := by
  rw [State.clearStatus_of_input hi hg]
  cases s.atCompliance (Params.indexOf k) with
  | true => rw [if_pos rfl, State.bit_setBit _ _ _ _ (by decide), decide_eq_true rfl, Bool.true_or, Bool.or_true]
  | false => rw [if_neg Bool.false_ne_true, State.bit_writeW1c _ _ _ _ (by decide), Bool.or_false]

/-- ADC_GRP_STATUS[4] is what the write leaves where no skipped cycle is to be shown before it or with it. -/
theorem State.bit_clearStatus_shown (hk : k = P.ADC_GRP_STATUS (Params.indexOf k)) (before : s.skipDue (Params.indexOf k) s.now = false)
    (together : s.skipDue (Params.indexOf k) (s.now + 1) = false) : (s.clearStatus k m v).bit k 4 = s.bitAfterClear k m v 4 := by
  have index : Params.indexOf k < 65536 := Nat.mod_lt _ (by decide)
  have grid : (s.writeW1c k m v).skipDue (Params.indexOf k) (s.now + 1) = s.skipDue (Params.indexOf k) (s.now + 1) :=
    State.skipDue_congr index (State.clrBits_fe s k _) (fun j hj => State.rdN_clrBits_other _ _ (hk ▸ hj)) _
  rw [State.clearStatus_of_group hk, State.noteSkip_of_shown before, State.noteSkip_of_shown (grid.trans together), State.bit_writeW1c _ _ _ _ (by decide)]
end

/-- Settles O12: a write by the equation of its access class.  An RWI write of SRM_REGION_CRIT keeps its fixed bits (R309); that the cycle of R11 is one
ns of node time is the model's choice (log 106). -/
theorem parameterWrite : Obligations.ParameterWrite := by
  refine fun s k v row h => ⟨fun ha => ?staged, fun ha => ?immediate, fun m ha => ?w1c, s.writeParam_of_readOnly v h⟩
  case staged =>
    rw [s.writeParam_of_staged v h ha]
    exact ⟨Sparse.find?_put_same _ _ _, State.rdN_wrN_same _ _ _, fun j hj => State.rd_wrN_other _ _ hj, fun j hj => Sparse.find?_put_other _ _ _ _ hj⟩
  case immediate =>
    obtain ⟨x, hx⟩ := s.writeParam_of_immediate v h ha
    rw [hx]
    exact ⟨State.rd_wr_same _ _ _, rfl, fun j hj => State.rd_wr_other _ _ hj⟩
  case w1c =>
    rw [s.writeParam_of_w1c v h ha, ← s.get_bitsNow k]
    exact ⟨fun b => s.bit_clearStatus k m v, s.bit_clearStatus_compliance k m v, s.bit_clearStatus_shown k m v, s.clearStatus_fe k m v,
      s.clearStatus_staged k m v, s.clearStatus_outstanding k m v, fun j => s.rd_clearStatus_other k m v⟩

end Sys2Proof.Machine
end

section
/-! The statement on the conversion events: the end of a conversion, the faults of a converter, the first S0 of a grid and the words of idle inputs (R113,
R119, R120, R123 to R125). -/

namespace Sys2Proof.Machine

section
variable {s : State} {g n start : Nat} (raw : Nat) (fails pulse : Bool)

/-! ### The conversion in progress (R113, R120) -/

theorem State.inProgress_of_finishing (hf : (s.group g).finishing = some (n, start)) :
    s.inProgress g = some (n, start, { s with par := s.cmd.oldPar }) := by simp only [State.inProgress, hf]
theorem State.inProgress_of_scanning (hf : (s.group g).finishing = none) (hs : s.grpState g = grpScanning) (hr : s.nextRun g = some (n, start)) :
    s.inProgress g = some (n, start, s) := by simp only [State.inProgress, hf, hs, if_true, hr, Option.map_some]

/-- A conversion of the grid in force shows the cycles skipped before it, issues its word and makes the grid advance. -/
theorem conversionEnd_of_scanning (hf : (s.group g).finishing = none) (hs : s.grpState g = grpScanning) (hr : s.nextRun g = some (n, start))
    (ht : ns (start + s.convTime g) ≤ s.time) : conversionEnd g raw fails pulse s =
      (((s.noteSkip g start).convert s g n start (start + s.convTime g) raw pulse).advance g n start).checkConverter g fails := by
  simp only [conversionEnd, State.inProgress_of_scanning hf hs hr, if_neg (Nat.not_lt.mpr ht), hf, Option.isSome_none, Bool.false_eq_true, if_false]

/-- One that completes under the settings before a commit converts under them, in the state its input had where the commit put that OFF, and is the last
of its old grid. -/
theorem conversionEnd_of_finishing (hf : (s.group g).finishing = some (n, start)) :
    let view := { s with par := s.cmd.oldPar }
    let conv := fun (s : State) => s.convert view g n start (start + view.convTime g) raw pulse
    ns (start + view.convTime g) ≤ s.time → conversionEnd g raw fails pulse s =
      ((match (s.group g).leaving with
        | some (m, st, x) => if m = n then s.lastConversion n st x conv else conv s
        | none => conv s).finishGroup g).checkConverter g fails := by
  intro view conv ht
  simp only [conversionEnd, State.inProgress_of_finishing hf, hf, Option.isSome_some, if_true]
  exact if_neg (Nat.not_lt.mpr ht)

/-! ### The states of a group (R119, R123) -/

theorem refMonitorFault_of_scanning (hs : s.grpState g = grpScanning) : refMonitorFault g s = (s.setBit (P.ADC_GRP_STATUS g) 2).faultGroup g := if_pos hs

theorem groupS0Reached_of_due (hs : s.grpState g = grpAligning) (ht : (s.group g).first ≤ s.now) :
    groupS0Reached g s = (s.wrN (P.ADC_GRP_STATE g) grpScanning).nextCycle g (s.group g).first := by simp [groupS0Reached, hs, ht]

/-! ### The words of idle inputs (R124) -/

/-- An idle input, its group STOPPED or in FAULT or itself HELD, issues one word at each sampling instant of its grid. -/
theorem stlWordIssue_of_idle (hi : s.grpState (n / 4) = grpStopped ∨ s.grpState (n / 4) = grpFault ∨ s.inState n = inHeld) (ho : s.inState n ≠ inOff)
    (hg : s.onGrid n s.now = true) (hw : bitOf (s.input n).word 2 = false ∨ (s.input n).wordAt ≠ s.now) :
    stlWordIssue n s = s.issueStl n s.now := by
  have idle : (s.grpState (n / 4) == grpStopped || s.grpState (n / 4) == grpFault || s.inState n == inHeld) = true := by
    simpa only [Bool.or_eq_true, beq_iff_eq, or_assoc] using hi
  have fresh : (bitOf (s.input n).word 2 && (s.input n).wordAt == s.now) = false := by
    rcases hw with hw | hw <;> simp [hw]
  simp only [stlWordIssue, idle, ho, hg, fresh, decide_false, Bool.not_true, Bool.or_self, Bool.false_eq_true, if_false]
end

/-- Settles O27: each event by the equation of its meaning; the end of a conversion by whether it completes under the settings before a commit (R120). -/
theorem conversionEventsComplete : Obligations.ConversionEventsComplete := by
  intro s t g r
  refine ⟨?scanning, ?finishing, ?reference, ?first, ?idle⟩
  case scanning => exact fun n start raw fails pulse hf hs hr ht => congrArg Host.Outcome.next (conversionEnd_of_scanning _ fails pulse hf hs hr ht)
  case finishing => exact fun n start raw fails pulse hf ht => congrArg Host.Outcome.next (conversionEnd_of_finishing _ fails pulse hf ht)
  case reference => exact fun hs => congrArg Host.Outcome.next (refMonitorFault_of_scanning hs)
  case first => exact fun hs ht => congrArg Host.Outcome.next (groupS0Reached_of_due hs ht)
  case idle => exact fun n hi ho hg hw => congrArg Host.Outcome.next (stlWordIssue_of_idle hi ho hg hw)

end Sys2Proof.Machine
end

section
/-! The statement on the stamp buffer of an input (R144), after the rules of the state of its timing path. -/

namespace Sys2Proof.Machine

/-! ### The timing state of an input -/

section
variable (s : State) (n j : Nat)

@[simp] theorem State.timing_setTiming_same (x : TimingState) : (s.setTiming n x).timing n = x := Sparse.get_set_same _ _ _ _
theorem State.timing_setTiming_other {n j : Nat} (x : TimingState) (h : j ≠ n) : (s.setTiming n x).timing j = s.timing j :=
  Sparse.get_set_other _ _ _ _ _ _ h
@[simp] theorem State.wrN_timing (k v : Nat) : (s.wrN k v).timing j = s.timing j := rfl
@[simp] theorem State.wr64_timing (k v : Nat) : (s.wr64 k v).timing j = s.timing j := rfl
@[simp] theorem State.addSat_timing (k v : Nat) : (s.addSat k v).timing j = s.timing j := rfl
@[simp] theorem State.addWrap_timing (k v : Nat) : (s.addWrap k v).timing j = s.timing j := rfl
@[simp] theorem State.setBit_timing (k i : Nat) : (s.setBit k i).timing j = s.timing j := rfl
@[simp] theorem State.rd_addSat_same (k v : Nat) : (s.addSat k v).rd k = satWord (s.rdN k + v) := s.rd_wr_same k _
theorem State.bit_setBit_same {k i : Nat} (hi : i < 32) : (s.setBit k i).bit k i = true := by simp [State.bit_setBit, hi]
end

/-! ### A stamp word meets its buffer (R144) -/

section
variable {s : State} {n : Nat} (m : StampMade)

/-- With a place left the word enters it, with GAP when a word before it was lost. -/
theorem State.bufferStamp_of_room (h : (s.timing n).buffer.length < 4) : let x := s.timing n
    let w := m.word + 512 * b2n (m.gap || x.gapRate)
    s.bufferStamp n m = ((s.setTiming n { x with gapRate := false, buffer := x.buffer ++ [(m.done, (m.stamp / 4096).toNat, BitVec.ofNat 64 w)] }).addWrap
      (P.TMR_STAMP_COUNT n) 1).setBit (P.TMR_IN_STATUS n) 0 := if_neg (Nat.not_le.mpr h)

/-- With none left the word is lost. -/
theorem State.bufferStamp_of_full (h : 4 ≤ (s.timing n).buffer.length) : s.bufferStamp n m
    = ((s.setTiming n { s.timing n with gapRate := true }).addSat (P.TMR_LOST_RATE n) 1).setBit (P.TMR_IN_STATUS n) 3 := if_pos h
end

/-- Settles O31: the two equations of the buffer, read through the rules of the state. -/
theorem stampBuffer : Obligations.StampBuffer := by
  intro s n m x
  refine ⟨fun h => ?room, fun h => ?full⟩
  case room =>
    rw [State.bufferStamp_of_room m h]
    exact ⟨by simp [x], by simp, by simp, State.bit_setBit_same _ (by decide), fun j hj => by simp [State.timing_setTiming_other _ _ hj],
      fun k hc hs => by simp [hc, hs]⟩
  case full =>
    rw [State.bufferStamp_of_full m h]
    exact ⟨by simp [x], by simp, by simp, State.bit_setBit_same _ (by decide), fun j hj => by simp [State.timing_setTiming_other _ _ hj],
      fun k hl hs => by simp [hl, hs]⟩

end Sys2Proof.Machine
end

section
/-! The statement on the edge events: the crossings of a level, their acceptance, the hold-off, and the stamps (R135 to R138, R143 to R145). -/

namespace Sys2Proof.Machine

section
variable {s : State} {n : Nat}

/-! ### Acceptance and hold-off that come due (R136, R137) -/

theorem State.acceptDue_of_none (h : (s.timing n).cross = none) : s.acceptDue n = s := by simp only [State.acceptDue, h]
theorem State.acceptDue_of_early {c : Nat} {rising : Bool} (h : (s.timing n).cross = some (c, rising)) (ht : s.time < c + ns (s.rdN (P.TMR_QUAL n))) :
    s.acceptDue n = s := by simp only [State.acceptDue, h, if_neg (Nat.not_le.mpr ht)]
theorem State.acceptDue_of_stood {c : Nat} {rising : Bool} (h : (s.timing n).cross = some (c, rising)) (ht : c + ns (s.rdN (P.TMR_QUAL n)) ≤ s.time) :
    s.acceptDue n = s.acceptEdge n rising c := by simp only [State.acceptDue, h, if_pos ht]

theorem State.holdoffDue_of_none (h : (s.timing n).holdEnd = none) : s.holdoffDue n = s := by simp only [State.holdoffDue, h]
/-- After a rising edge the hold-off ends HIGH unless the level has gone below L. -/
theorem State.holdoffDue_of_rising {e : Nat} (h : (s.timing n).holdEnd = some e) (ht : e ≤ s.time) (hs : s.rdN (P.TMR_CMP_STATE n) = 3) :
    s.holdoffDue n = (((s.setTiming n { s.timing n with holdEnd := none }).wrN (P.TMR_CMP_STATE n) (if (s.timing n).belowL then 1 else 2)).updateAlarm n
      (e / 4096)) := by simp only [State.holdoffDue, h, hs, if_neg (Nat.not_lt.mpr ht), if_true]
/-- After a falling edge it ends LOW unless the level has gone above U. -/
theorem State.holdoffDue_of_falling {e : Nat} (h : (s.timing n).holdEnd = some e) (ht : e ≤ s.time) (hs : s.rdN (P.TMR_CMP_STATE n) = 4) :
    s.holdoffDue n = (((s.setTiming n { s.timing n with holdEnd := none }).wrN (P.TMR_CMP_STATE n) (if (s.timing n).aboveU then 2 else 1)).updateAlarm n
      (e / 4096)) := by simp [State.holdoffDue, h, hs, Nat.not_lt.mpr ht]

/-! ### A level is passed while nothing is due (R135, R136, R138) -/

/-- The state with the comparator's level after a crossing of `kind`. -/
def State.levelPassed (s : State) (n kind : Nat) : State := s.setTiming n (levelAfter (s.rdN (P.TMR_HYST n)) kind (s.timing n))

section
variable (kind : Nat) (ha : s.acceptDue n = s) (hh : s.holdoffDue n = s)
include ha hh

/-- An inactive comparator only follows its input. -/
theorem State.crossLevel_of_inactive (hs : s.rdN (P.TMR_CMP_STATE n) = 0) : s.crossLevel n kind = s.levelPassed n kind := by
  simp [State.crossLevel, ha, hh, hs, State.levelPassed]

/-- Where the qualifier has taken the level at this instant the new level makes no edge (log 74). -/
theorem State.crossLevel_of_relevelled (hs : s.rdN (P.TMR_CMP_STATE n) ≠ 0) (hl : (s.timing n).levelAt = some s.time) :
    s.crossLevel n kind = ((s.levelPassed n kind).takeLevel n).updateAlarm n s.now := by
  simp only [State.crossLevel, ha, hh, hl, State.levelPassed, State.setTiming_rdN, State.setTiming_time, if_neg hs, if_true]
  rfl

section
variable (hs : s.rdN (P.TMR_CMP_STATE n) ≠ 0) (hl : (s.timing n).levelAt ≠ some s.time)
include hs hl

/-- A crossing that has not stood for TMR_QUAL and whose level goes back is a glitch. -/
theorem State.crossLevel_of_reverted {c : Nat} {rising : Bool} (hc : (s.timing n).cross = some (c, rising)) :
    s.crossLevel n (if rising then 1 else 3) = (s.levelPassed n (if rising then 1 else 3)).glitch n := by
  cases rising <;> simp [State.crossLevel, ha, hh, hs, hl, hc, State.levelPassed, levelAfter]
end

/-- Above U, a LOW qualifier begins a rising crossing. -/
theorem State.crossLevel_of_rise (hs : s.rdN (P.TMR_CMP_STATE n) = 1) (hl : (s.timing n).levelAt ≠ some s.time) (hc : (s.timing n).cross = none)
    (hu : (s.timing n).aboveU = false) : s.crossLevel n 0 = (s.levelPassed n 0).beginCross n true := by
  simp [State.crossLevel, ha, hh, hs, hl, hc, hu, State.levelPassed, levelAfter]

/-- Below L, a HIGH qualifier begins a falling crossing. -/
theorem State.crossLevel_of_fall (hs : s.rdN (P.TMR_CMP_STATE n) = 2) (hl : (s.timing n).levelAt ≠ some s.time) (hc : (s.timing n).cross = none)
    (hb : (s.timing n).belowL = false) : s.crossLevel n 2 = (s.levelPassed n 2).beginCross n false := by
  simp [State.crossLevel, ha, hh, hs, hl, hc, hb, State.levelPassed, levelAfter]
end

/-! ### Stamp words (R143 to R145, R147) -/

/-- A complete stamp reaches the interval engine of its input, those that start from it, and its buffer. -/
theorem stampWordComplete_of_done {m : StampMade} {ms : List StampMade} (h : (s.timing n).making = m :: ms) (ht : m.done ≤ s.time) :
    let a := (s.setTiming n { s.timing n with making := ms }).itvStamp n (bitOf m.word 10) m.stamp m.crossing m.gap
    let b := if bitOf m.word 10 then a.startFrom n m.stamp m.crossing (inputsOf (n / 128)) else a
    stampWordComplete n s = (b.takeStarts n).bufferStamp n m := by
  intro a b
  simp only [stampWordComplete, h, if_neg (Nat.not_lt.mpr ht)]
  rfl

/-- The first word of an input's buffer is complete. -/
def State.stampReady (s : State) (n : Nat) : Bool := match (s.timing n).buffer with
  | [] => false
  | w :: _ => decide (w.1 < s.time)

/-- At its step the stamp arbiter sends the first word of the input that the rotation names. -/
theorem stampArbiterStep_of_ready {fe last at_ i : Nat} {w : Nat × Nat × W64} {ws : List (Nat × Nat × W64)}
    (hl : Sparse.get (127, 0) s.tmr.stampLast fe = (last, at_)) (ht : at_ = 0 ∨ at_ + 64000 ≤ s.time) (hr : rotation fe last s.stampReady = some i)
    (hb : (s.timing i).buffer = w :: ws) : let a := s.setTiming i { s.timing i with buffer := ws }
    stampArbiterStep fe s = State.send { a with tmr := { a.tmr with stampLast := Sparse.set (127, 0) a.tmr.stampLast fe (i % 128, a.time) } } fe
      (.stamp w.2.2 w.2.1) := by
  have due : ¬(at_ ≠ 0 ∧ s.time < at_ + 64000) := by omega
  unfold stampArbiterStep
  rw [hl]
  dsimp only
  rw [if_neg (by simpa using due)]
  split
  · next e => cases e.symm.trans hr
  · next j e =>
    obtain rfl : j = i := Option.some.inj (e.symm.trans hr)
    rw [hb]
end

/-- Settles O30: each event by the equation of its meaning (that a crossing at the instant of a new level makes no edge is log 74). -/
theorem edgeEventsComplete : Obligations.EdgeEventsComplete := by
  intro s t n r x
  have still : x.cross = none → r.acceptDue n = r := State.acceptDue_of_none
  have free : x.holdEnd = none → r.holdoffDue n = r := State.holdoffDue_of_none
  refine ⟨?rise, ?fall, ?inactive, ?reverted, ?relevelled, ?accepted, ?holdoff, ?stamp, ?arbiter⟩
  case rise => exact fun hc hh hu hs hl => congrArg Host.Outcome.next (State.crossLevel_of_rise (still hc) (free hh) hs hl hc hu)
  case fall => exact fun hc hh hb hs hl => congrArg Host.Outcome.next (State.crossLevel_of_fall (still hc) (free hh) hs hl hc hb)
  case inactive => exact fun kind hc hh hs => congrArg Host.Outcome.next (State.crossLevel_of_inactive kind (still hc) (free hh) hs)
  case reverted =>
    intro c rising hc hh ht hs hl kind
    have e := State.crossLevel_of_reverted (State.acceptDue_of_early hc ht) (free hh) hs hl hc
    cases rising
    · exact congrArg Host.Outcome.next e
    · exact congrArg Host.Outcome.next e
  case relevelled => exact fun kind hc hh hs hl => congrArg Host.Outcome.next (State.crossLevel_of_relevelled kind (still hc) (free hh) hs hl)
  case accepted => exact fun c rising hc ht => congrArg Host.Outcome.next (State.acceptDue_of_stood hc ht)
  case holdoff =>
    exact fun e he ht => ⟨fun hs => congrArg Host.Outcome.next (State.holdoffDue_of_rising he ht hs),
      fun hs => congrArg Host.Outcome.next (State.holdoffDue_of_falling he ht hs)⟩
  case stamp => exact fun m ms hm ht => congrArg Host.Outcome.next (stampWordComplete_of_done hm ht)
  case arbiter => exact fun fe last at_ i w ws hl ht hr hb => congrArg Host.Outcome.next (stampArbiterStep_of_ready hl ht hr hb)

end Sys2Proof.Machine
end

section
/-! The statement on the interval, hit and timed output events (R147, R148, R150 to R153, R156 to R158, R203). -/

namespace Sys2Proof.Machine

/-! ### Pairs of parameters -/

section
variable (s : State) {k j : Nat} (v : Nat)

theorem State.rdN_wr64_other (h₀ : j ≠ k) (h₁ : j ≠ k + 1) : (s.wr64 k v).rdN j = s.rdN j := by simp [State.wr64, h₀, h₁]
@[simp] theorem State.rd64_wr64_same : (s.wr64 k v).rd64 k = v % 18446744073709551616 := by
  simp only [State.rd64, State.wr64, State.rdN_wr_same, State.rdN_wr_other _ _ (Nat.ne_of_lt (Nat.lt_succ_self k)), lo32, hi32, BitVec.toNat_ofNat]
  omega
theorem State.rd64_wr64_other (h : j + 1 < k ∨ k + 1 < j) : (s.wr64 k v).rd64 j = s.rd64 j := by
  simp only [State.rd64]
  rw [State.rdN_wr64_other s v (by omega) (by omega), State.rdN_wr64_other s v (by omega) (by omega)]
end

section
variable {s : State} {n : Nat}

/-! ### Sets and windows (R147, R148) -/

/-- A set that times out closes with reason 2, and the next opens. -/
theorem itvSetTimeout_of_elapsed {it : ItvSet} (h : (s.timing n).set = some it) : let e := it.opened + msec (s.rdN (P.TMR_ITV_TIMEOUT n))
    e ≤ s.time → itvSetTimeout n s = (s.closeSet n 2 e).openSet n e := by
  intro e ht
  simp only [itvSetTimeout, h]
  exact if_neg (Nat.not_lt.mpr ht)

/-- Once the start events of the past are taken, a pending start whose window has passed without an end is missed. -/
theorem itvDelayWindowClose_of_passed {r : State} {st : Int} (hr : s.takeStarts n = r) (h : (r.timing n).start = some st)
    (hm : r.rdN (P.TMR_ITV_MODE n) = 3) : let e := (st + ns (r.rdN (P.TMR_ITV_WINDOW n))).toNat
    e ≤ r.time → r.settled n e = true →
    itvDelayWindowClose n s = (r.setTiming n { r.timing n with start := none, startOld := false }).missItv n := by
  intro e ht hs
  have passed : (r.rdN (P.TMR_ITV_MODE n) ≠ 3 || r.time < e || !r.settled n e) = false := by simp [hm, hs, Nat.not_lt.mpr ht]
  simp only [itvDelayWindowClose, hr, h]
  exact if_neg (Bool.eq_false_iff.mp passed)

/-! ### Results (R150 to R152) -/

/-- The latest result of an input shows its count, mean and deviation. -/
def State.showItvResult (s : State) (n count mean sd : Nat) : State :=
  ((s.wrN (P.TMR_ITV_LAST_COUNT n) count).wr64 (P.TMR_ITV_LAST_MEAN (2 * n)) mean).wr64 (P.TMR_ITV_LAST_SD (2 * n)) sd

/-- The rows of the latest result, and that of the status, lie apart. -/
theorem itvLast_apart (hn : n < 512) : P.TMR_IN_STATUS n < P.TMR_ITV_LAST_COUNT n ∧ P.TMR_ITV_LAST_COUNT n < P.TMR_ITV_LAST_MEAN (2 * n)
    ∧ P.TMR_ITV_LAST_MEAN (2 * n) + 1 < P.TMR_ITV_LAST_SD (2 * n) := by
  simp only [P.TMR_IN_STATUS, P.TMR_ITV_LAST_COUNT, P.TMR_ITV_LAST_MEAN, P.TMR_ITV_LAST_SD]
  omega

section
variable (s) (count mean sd : Nat)

@[simp] theorem State.showItvResult_timing (j : Nat) : (s.showItvResult n count mean sd).timing j = s.timing j := rfl
theorem State.showItvResult_sd : (s.showItvResult n count mean sd).rd64 (P.TMR_ITV_LAST_SD (2 * n)) = sd % 18446744073709551616 := State.rd64_wr64_same _ _

variable (hn : n < 512)
include hn

theorem State.showItvResult_mean : (s.showItvResult n count mean sd).rd64 (P.TMR_ITV_LAST_MEAN (2 * n)) = mean % 18446744073709551616 := by
  have apart := itvLast_apart hn
  rw [State.showItvResult, State.rd64_wr64_other _ _ (by omega), State.rd64_wr64_same]
theorem State.showItvResult_count : (s.showItvResult n count mean sd).rdN (P.TMR_ITV_LAST_COUNT n) = count % 4294967296 := by
  have apart := itvLast_apart hn
  rw [State.showItvResult, State.rdN_wr64_other _ _ (by omega) (by omega), State.rdN_wr64_other _ _ (by omega) (by omega), State.rdN_wrN_same]
theorem State.showItvResult_status (i : Nat) : (s.showItvResult n count mean sd).bit (P.TMR_IN_STATUS n) i = s.bit (P.TMR_IN_STATUS n) i := by
  have apart := itvLast_apart hn
  rw [State.bit, State.showItvResult, State.rdN_wr64_other _ _ (by omega) (by omega), State.rdN_wr64_other _ _ (by omega) (by omega),
    State.rdN_wrN_other _ _ (by omega), State.bit]
end

/-- A set without an interval has no frequency to linearise. -/
theorem State.linFrequency_of_empty (s : State) {n close : Nat} {it : ItvSet} (h : it.n = 0) : s.linFrequency n it close = (nan0, none) := by
  simp [State.linFrequency, h]

/-- A result linearised under a fault sets a bit of its input's status (Table 3-14). -/
def State.noteCurve (s : State) (n : Nat) (fault : Option Nat) : State := match fault with
  | some i => s.setBit (P.FE_IN_STATUS n) i
  | none => s

/-- The mean and the deviation of no interval (Table 8-10). -/
def quietNaN : W64 := 0x7FF8000000000000

/-- The state that shows the result of a set without an interval. -/
def State.showEmpty (s : State) (n : Nat) (cs : List ItvClosed) : State :=
  ((s.setTiming n { s.timing n with closed := cs }).setBit (P.TMR_IN_STATUS n) 6).showItvResult n 0 quietNaN.toNat quietNaN.toNat

/-- The empty result of an input is shown, and the sets closed after it wait. -/
structure State.EmptyShown (s : State) (n : Nat) (cs : List ItvClosed) : Prop where
  closed : (s.timing n).closed = cs
  marked : s.bit (P.TMR_IN_STATUS n) 6 = true
  count : s.rdN (P.TMR_ITV_LAST_COUNT n) = 0
  mean : s.rd64 (P.TMR_ITV_LAST_MEAN (2 * n)) = 0x7FF8000000000000
  sd : s.rd64 (P.TMR_ITV_LAST_SD (2 * n)) = 0x7FF8000000000000

theorem State.showEmpty_shows (s : State) (hn : n < 512) (cs : List ItvClosed) : (s.showEmpty n cs).EmptyShown n cs := by
  have nan : quietNaN.toNat % 18446744073709551616 = 0x7FF8000000000000 := by decide
  unfold State.showEmpty
  constructor
  case closed => rw [State.showItvResult_timing, State.setBit_timing, State.timing_setTiming_same]
  case marked => rw [State.showItvResult_status _ _ _ _ hn, State.bit_setBit_same _ (by decide)]
  case count => rw [State.showItvResult_count _ _ _ _ hn]
  case mean => rw [State.showItvResult_mean _ _ _ _ hn, nan]
  case sd => rw [State.showItvResult_sd, nan]

/-- It stays shown while the timing path and the parameters stand. -/
theorem State.EmptyShown.of_eq {t : State} {cs : List ItvClosed} (h : s.EmptyShown n cs) (ht : t.tmr = s.tmr) (hp : t.par = s.par) : t.EmptyShown n cs := by
  obtain ⟨closed, marked, count, mean, sd⟩ := h
  simp only [State.timing, State.bit, State.rd64, State.rdN, State.rd] at closed marked count mean sd
  constructor <;> simpa only [State.timing, State.bit, State.rd64, State.rdN, State.rd, ht, hp]
theorem State.EmptyShown.takeFree {cs : List ItvClosed} (h : s.EmptyShown n cs) : s.takeFree.2.EmptyShown n cs := h.of_eq rfl rfl
theorem State.EmptyShown.send {cs : List ItvClosed} (h : s.EmptyShown n cs) (src : Nat) (x : StreamItem) : (s.send src x).EmptyShown n cs := h.of_eq rfl rfl

section
variable {c : ItvClosed} {cs : List ItvClosed} (h : (s.timing n).closed = c :: cs) (ht : c.close ≤ s.time) (hs : s.settled n c.close = true)
include h ht hs

/-- A closed set with intervals gives its result, which is sent where intervals are recorded at that instant (log 108). -/
theorem itvResultReady_of_intervals (hn : 0 < c.set.n) :
    let mean := Fl.bits64 c.set.mean
    let sd := Fl.bits64 c.set.deviation
    let b := (s.setTiming n { s.timing n with closed := cs }).showItvResult n c.set.n mean.toNat sd.toNat
    let lin := b.linFrequency n c.set (c.close / 4096)
    let d := b.noteCurve n lin.2
    itvResultReady n s = if d.rdN (P.TMR_ITV_REC n) = 1 then
        d.send (n / 128) (.interval (itvWords n c mean sd (stamp44 c.set.first.toNat)
          ((c.close / 17592186044416 - c.set.first.toNat / 17592186044416) % 16) lin.1) (c.close / 4096))
      else d := by
  have ready : (decide (s.time < c.close) || !s.settled n c.close) = false := by simp [hs, Nat.not_lt.mpr ht]
  have full : decide (c.set.n = 0) = false := by simp; omega
  unfold itvResultReady
  rw [h]
  dsimp only
  rw [ready, full]
  rfl

/-- A closed set without an interval shows its empty result, for whose FIRST and WRAPS two values the spec leaves open are taken (log 75); it too is sent
where intervals are recorded (log 108). -/
theorem itvResultReady_of_empty (hn : c.set.n = 0) : let d := (s.showEmpty n cs).takeFree.2.takeFree.2
    ∃ x, itvResultReady n s = if d.rdN (P.TMR_ITV_REC n) = 1 then d.send (n / 128) x else d := by
  have ready : (decide (s.time < c.close) || !s.settled n c.close) = false := by simp [hs, Nat.not_lt.mpr ht]
  have empty : decide (c.set.n = 0) = true := by simp [hn]
  unfold itvResultReady
  rw [h]
  dsimp only
  rw [ready, empty]
  simp only [State.linFrequency_of_empty _ hn, hn]
  exact ⟨_, rfl⟩
end

/-! ### Hits (R203) -/

/-- A hit that completes enters its input's buffer of four, or is lost. -/
theorem hitComplete_of_due {h : Hit} (hh : (s.timing n).hits.find? (fun h => decide (h.done ≤ s.time)) = some h) : let x := s.timing n
    let a := s.setTiming n { x with hits := dropFirstWhere (fun h => decide (h.done ≤ s.time)) x.hits }
    hitComplete n s = if x.hitBuffer.length < 4 then a.setTiming n { a.timing n with hitBuffer := x.hitBuffer ++ [h] } else a.loseHit n := by
  intro x a
  simp only [hitComplete, hh]
  rcases Nat.lt_or_ge x.hitBuffer.length 4 with room | full
  · exact (if_neg (Nat.not_le.mpr room)).trans (if_pos room).symm
  · exact (if_pos full).trans (if_neg (Nat.not_lt.mpr full)).symm

/-- The first hit of an input's buffer is complete. -/
def State.hitReady (s : State) (n : Nat) : Bool := match (s.timing n).hitBuffer with
  | [] => false
  | h :: _ => decide (h.done < s.time)

/-- At its step the hit arbiter sends the first hit of the input that the rotation names. -/
theorem hitArbiterStep_of_ready {fe last at_ i : Nat} {h : Hit} {hs : List Hit} (hl : Sparse.get (127, 0) s.tmr.hitLast fe = (last, at_))
    (ht : at_ = 0 ∨ at_ + 32000 ≤ s.time) (hr : rotation fe last s.hitReady = some i) (hb : (s.timing i).hitBuffer = h :: hs) :
    let a := s.setTiming i { s.timing i with hitBuffer := hs }
    hitArbiterStep fe s
      = State.send { a with tmr := { a.tmr with hitLast := Sparse.set (127, 0) a.tmr.hitLast fe (i % 128, a.time) } } fe (.hit h) := by
  have due : ¬(at_ ≠ 0 ∧ s.time < at_ + 32000) := by omega
  unfold hitArbiterStep
  rw [hl]
  dsimp only
  rw [if_neg (by simpa using due)]
  split
  · next e => cases e.symm.trans hr
  · next j e =>
    obtain rfl : j = i := Option.some.inj (e.symm.trans hr)
    rw [hb]

/-! ### The pulses of a timed output (R153, R156 to R158) -/

section
variable {i : Nat} {c : Schedule}

/-- The schedule has no pulse left after its next one. -/
def Schedule.lastNext (c : Schedule) : Bool := c.count != 0 && c.n + 1 == c.count

/-- A pulse is not placed: the schedule goes one on, the reason is noted, and a schedule that has none left ends (log 78). -/
def State.skipPulse (s : State) (i : Nat) (c : Schedule) (reason : Nat) : State :=
  let b := (s.setTpo i { s.tpo i with schedule := some { c with n := c.n + 1 } }).setBit (P.TMR_TPO_STATUS i) reason
  if c.lastNext then b.exhaustTpo i else b

section
variable (h : (s.tpo i).schedule = some c) (hd : 32 * (c.first + c.n * c.period) ≤ s.time)
include h hd

theorem tpoActiveEdge_of_placed (ho : c.notBefore ≤ c.first + c.n * c.period) (hs : c.stepFrom ≤ c.first + c.n * c.period) :
    let a := c.first + c.n * c.period
    tpoActiveEdge i s = ((s.setTpo i { s.tpo i with
        schedule := some { c with n := c.n + 1 }, pulseEnd := some (a + c.width), ending := c.lastNext, pulsePol := c.pol }).wrN (P.TMR_TPO_STATE i)
        tpoRunning).startFrom (0x200 + i) ((32 * a : Nat) : Int) (32 * a) (inputsOf (i / 8)) := by
  simp only [tpoActiveEdge, h, if_neg (Nat.not_lt.mpr hd), if_neg (Nat.not_lt.mpr ho), if_neg (Nat.not_lt.mpr hs)]
  rfl

/-- A pulse that falls into one still running is skipped (R157). -/
theorem tpoActiveEdge_of_overlap (ho : c.first + c.n * c.period < c.notBefore) : tpoActiveEdge i s = s.skipPulse i c 2 := by
  simp only [tpoActiveEdge, h, if_neg (Nat.not_lt.mpr hd), if_pos ho]
  rfl

/-- A pulse that falls before a step of the time base is skipped (R158). -/
theorem tpoActiveEdge_of_stepped (ho : c.notBefore ≤ c.first + c.n * c.period) (hs : c.first + c.n * c.period < c.stepFrom) :
    tpoActiveEdge i s = s.skipPulse i c 3 := by
  simp only [tpoActiveEdge, h, if_neg (Nat.not_lt.mpr hd), if_neg (Nat.not_lt.mpr ho), if_pos hs]
  rfl
end

section
variable {r : State} {e : Nat} (hr : (s.startedBy (0x200 + i) (inputsOf (i / 8))).foldl State.takeStarts s = r)
  (h : (r.tpo i).pulseEnd = some e) (ht : 32 * e ≤ r.time)
include hr h ht

theorem tpoInactiveEdge_of_last (hl : (r.tpo i).ending = true) : tpoInactiveEdge i s
    = ((r.setTpo i { r.tpo i with pulseEnd := none, ending := false, schedule := none }).wrN (P.TMR_TPO_STATE i) tpoIdle).setBit (P.TMR_TPO_STATUS i) 1 := by
  simp only [tpoInactiveEdge, hr, h, if_neg (Nat.not_lt.mpr ht), hl, if_true]
theorem tpoInactiveEdge_of_disarmed (hl : (r.tpo i).ending = false) (hd : (r.tpo i).disarmed = true) :
    tpoInactiveEdge i s = (r.setTpo i { r.tpo i with pulseEnd := none, disarmed := false }).wrN (P.TMR_TPO_STATE i) tpoIdle := by
  simp [tpoInactiveEdge, hr, h, Nat.not_lt.mpr ht, hl, hd]
theorem tpoInactiveEdge_of_armed (hl : (r.tpo i).ending = false) (hd : (r.tpo i).disarmed = false) :
    tpoInactiveEdge i s = r.setTpo i { r.tpo i with pulseEnd := none } := by
  simp [tpoInactiveEdge, hr, h, Nat.not_lt.mpr ht, hl, hd]
end
end
end

/-- Settles O32: each event by the equation of its meaning (a schedule whose last pulses are skipped ends by log 78; TMR_ITV_REC is that in force when the
result is ready, log 108). -/
theorem intervalAndOutputEventsComplete : Obligations.IntervalAndOutputEventsComplete := by
  refine ⟨fun s t n => ⟨?timeout, ?window, ?empty, ?result, ?hit, ?arbiter⟩, fun s t i => ⟨?active, ?inactive⟩⟩
  case timeout => exact fun it h ht => congrArg Host.Outcome.next (itvSetTimeout_of_elapsed h ht)
  case window =>
    intro st r h hm e ht hs
    refine ⟨_, congrArg Host.Outcome.next (itvDelayWindowClose_of_passed rfl h hm ht hs), ?_⟩
    exact ⟨by simp [State.missItv], by simp [State.missItv, r], State.bit_setBit_same _ (by decide),
      fun j hj => by simp [State.missItv, State.timing_setTiming_other _ _ hj, r], fun k hk hi => by simp [State.missItv, hk, hi, r], rfl⟩
  case empty =>
    intro c cs h ht hs hn
    have shown := (State.showEmpty_shows (s.at_ t) n.isLt cs).takeFree.takeFree
    obtain ⟨item, e⟩ := itvResultReady_of_empty h ht hs hn
    have ready : (itvResultReady n (s.at_ t)).EmptyShown n cs := by
      rw [e]
      split
      · exact shown.send _ _
      · exact shown
    exact ⟨_, rfl, ready.closed, ready.marked, ready.count, ready.mean, ready.sd⟩
  case result => exact fun c cs h ht hs hn => congrArg Host.Outcome.next (itvResultReady_of_intervals h ht hs hn)
  case hit => exact fun h hh => congrArg Host.Outcome.next (hitComplete_of_due hh)
  case arbiter => exact fun fe last at_ i h hs hl ht hr hb => congrArg Host.Outcome.next (hitArbiterStep_of_ready hl ht hr hb)
  case active =>
    intro c h a hd
    exact ⟨fun ho hs => congrArg Host.Outcome.next (tpoActiveEdge_of_placed h hd ho hs),
      fun ho => congrArg Host.Outcome.next (tpoActiveEdge_of_overlap h hd ho),
      fun ho hs => congrArg Host.Outcome.next (tpoActiveEdge_of_stepped h hd ho hs)⟩
  case inactive =>
    intro e r x h ht
    exact ⟨fun hl => congrArg Host.Outcome.next (tpoInactiveEdge_of_last rfl h ht hl),
      fun hl hd => congrArg Host.Outcome.next (tpoInactiveEdge_of_disarmed rfl h ht hl hd),
      fun hl hd => congrArg Host.Outcome.next (tpoInactiveEdge_of_armed rfl h ht hl hd)⟩

end Sys2Proof.Machine
end

section
/-! The statement on the time-base commands TB.READ, TB.DOMAIN, TB.ASYM and TB.JUMP, and on TPO.ARM (R155, R156, R191 to R194). -/

namespace Sys2Proof.Machine

/-! ### Rows split by a mode -/

/-- A mode-split row leaves the words of its own mode as they are. -/
theorem forceMode_of_bits {a : Word} {lo n mode : Nat} (hm : bits a.toNat (lo + n - 1) lo = mode) (ps : List Word) :
    forceMode (a :: ps) lo n mode = a :: ps := by
  have below : mode * 2 ^ lo ≤ a.toNat := by
    rw [← hm, bits]
    exact Nat.le_trans (Nat.mul_le_mul_right _ (Nat.mod_le _ _)) (Nat.div_mul_le_self _ _)
  rw [forceMode, hm, Nat.sub_add_cancel below, BitVec.ofNat_toNat, BitVec.setWidth_eq]

section
variable {s : State} {h : Hdr}

/-- A command that acts at once or at its TIME_TAG is answered when it acts. -/
theorem State.receive_scheduled {t : State} {code : Nat} {p data : List Word} {due : Option Nat} {body : State → State × Answer} (g : s.passes code h p)
    (e : body (s.at_ h.at_) = if h.sched then (s.at_ h.at_, .later due) else okay t data) :
    s.receive code h p body = if h.sched then (s.at_ h.at_).accept code h p due else t.finish code h stOk data := by
  cases hs : h.sched with
  | true => rw [hs, if_pos rfl] at e; exact State.receive_later g e
  | false => rw [hs] at e; exact State.receive_final g e

/-! ### TB.DOMAIN (R192) -/

/-- A preference other than 3 is written at once, or at the TIME_TAG. -/
theorem tbDomainBody_of_domain {w : Word} (hw : w.toNat < 3) : tbDomainBody h [w] s
    = if h.sched then (s, .later (some h.timeTag.toNat))
      else let t := (s.wrN P.TB_DOMAIN_PREF w.toNat).tbUpdate; okay t [t.rd P.TB_FOLLOWED, satInt (roundTo psUnit t.slewLeft)] := by
  have h₄ : ¬(4 ≤ w.toNat) := by omega
  have h₃ : w.toNat ≠ 3 := by omega
  simp [tbDomainBody, word, h₄, h₃, State.domainAct]

/-! ### TB.ASYM (R193) -/

section
variable {w v : Word}

/-- SET and CLEAR are taken within the range and TB_JUMP_LIMIT. -/
theorem asymSet_of_good (hl : -1000000 ≤ v.toInt) (hu : v.toInt ≤ 1000000)
    (hj : ((v.toInt - s.rdI (P.TB_ASYM (w.toNat % 2))).natAbs : Int) ≤ 2000 * s.rdN P.TB_JUMP_LIMIT) :
    asymSet [w, v] s = okay (s.setAsym (w.toNat % 2) v.toInt) := by
  unfold asymSet
  exact if_neg (by
    simp only [Bool.or_eq_true, decide_eq_true_eq, not_or, Int.not_lt]
    exact ⟨⟨hl, hu⟩, hj⟩)

variable (hw : w.toNat < 8)
include hw

theorem tbAsymBody_set (hm : bits w.toNat 2 1 = 0) : tbAsymBody h [w, v] s = asymSet [w, v] s := by
  simp [tbAsymBody, word, Nat.not_le.mpr hw, hm]
theorem tbAsymBody_clear (hm : bits w.toNat 2 1 = 2) (hv : v.toNat = 0) : tbAsymBody h [w, v] s = asymSet [w, v] s := by
  simp [tbAsymBody, word, Nat.not_le.mpr hw, hm, hv]
/-- MEASURE of the port by which the followed domain enters, while LOCKED, waits for its comparisons. -/
theorem tbAsymBody_measure (hm : bits w.toNat 2 1 = 1) (hl : s.tbState = tbLocked) (hf : s.followedDomain = some (1 - w.toNat % 2)) :
    tbAsymBody h [w, 0] s
      = (s.setTb { s.tb with measures := s.tb.measures ++ [{ h, port := w.toNat % 2, since := s.time }] }, .later none) := by
  simp [tbAsymBody, word, Nat.not_le.mpr hw, hm, hl, hf]
end

/-! ### TB.JUMP (R194) -/

/-- PERMIT of a pending jump. -/
theorem tbJumpBody_permit (hj : s.jumpPending = true) : tbJumpBody h [0, 0, 0] s
    = (s.setTb { s.tb with permits := s.tb.permits ++ [{ instant := boundaryFrom (ceilDiv s.time 4096 + 10000), permit := some h }] }, .later none) := by
  simp [tbJumpBody, tbJumpPermit, word, hj]

/-- A final reply leaves the time. -/
theorem State.finish_time (s : State) (code st : Nat) (h : Hdr) (data : List Word) : (s.finish code h st data).time = s.time :=
  (State.sendReply_frame _ _).time

/-- A waiting SET is withdrawn at the instant of the later one. -/
theorem State.withdrawSet_time (s : State) : s.withdrawSet.time = s.time := by
  unfold State.withdrawSet
  split
  · exact State.finish_time _ _ _ _ _
  · rfl

/-- SET by the node's own source names a time, in place of one named before. -/
theorem tbJumpBody_set {a b : Word} (ho : s.ownSource = true) : let value := a.toNat + 4294967296 * b.toNat
    let free := decide (s.rdN P.TB_SRC = 0)
    let j : JumpSet := { h, value, pps := decide (s.rdN P.TB_SRC = 1), receipt := s.time
                         boundary := if free then some (boundaryFrom (ceilDiv s.time 4096 + 10000)) else none }
    value % (if free then 1000 else 1000000000) = 0 →
    tbJumpBody h [1, a, b] s = (s.withdrawSet.setTb { s.withdrawSet.tb with jumpSet := some j }, .later none) := by
  intro value free j hv
  have set : tbJumpBody h [1, a, b] s = tbJumpSet h [1, a, b] s := by simp [tbJumpBody, word]
  have own : ¬((!s.ownSource) = true) := by simp [ho]
  have whole : ¬((a.toNat + 4294967296 * b.toNat) % (if s.rdN P.TB_SRC = 0 then 1000 else 1000000000) ≠ 0) := by simpa [value, free] using hv
  rw [set, tbJumpSet, if_neg own]
  refine (if_neg whole).trans ?_
  simp only [State.withdrawSet_time, j, free, decide_eq_true_eq]
  rfl

/-! ### TPO.ARM (R155, R156) -/

theorem bitOf_of_lt {n i : Nat} (h : n < 2 ^ i) : bitOf n i = false := (bitOf_eq_testBit n i).trans (Nat.testBit_lt_two_pow h)

/-- The words of an arming leave the DISARM bit and the reserved bits 0. -/
theorem tpoArmBody_arm {m a b c : Word} (hc : c.toNat < 128) (ht : s.rdN P.TB_STATE ≠ 0)
    (hr : s.tpoRange [m, a, b, c] (if h.sched then ns h.timeTag.toNat else s.time) = false) :
    tpoArmBody h [m, a, b, c] s = if h.sched then (s, .later (some h.timeTag.toNat))
      else okay ((tposOf m.toNat).foldl (fun s i => s.armTpo (tpoFirst [m, a, b, c]) i) s) [m] := by
  have reserved : c.toNat < 512 := by omega
  simp [tpoArmBody, State.tpoAct, word, reserved, bitOf_of_lt (i := 7) hc, bitOf_of_lt (i := 8) (Nat.lt_trans hc (by decide)), ht, hr]

/-- A disarming of outputs that are enabled, at no instant out of range. -/
theorem State.tpoRange_of_disarm {m a b c : Word} (hm : m.toNat ≠ 0) (he : (tposOf m.toNat).all (fun i => s.rdN (P.TMR_TPO_EN i) != 0) = true)
    (hc : bitOf c.toNat 8 = true) (t : Nat) : s.tpoRange [m, a, b, c] t = false := by
  simp only [List.all_eq_true, bne_iff_ne, ne_eq] at he
  simpa [State.tpoRange, word, hm, hc] using he

theorem tpoArmBody_disarm {m a b c : Word} (ha : a.toNat = 0) (hb : b.toNat = 0) (hc : c.toNat = 256) (ht : s.rdN P.TB_STATE ≠ 0)
    (hr : s.tpoRange [m, a, b, c] (if h.sched then ns h.timeTag.toNat else s.time) = false) :
    tpoArmBody h [m, a, b, c] s = if h.sched then (s, .later (some h.timeTag.toNat))
      else okay ((tposOf m.toNat).foldl (fun s i => s.disarmTpo i) s) [m] := by
  have words : bitOf 256 7 = false ∧ bitOf 256 8 = true ∧ bits 256 6 0 = 0 := by decide
  simp [tpoArmBody, State.tpoAct, word, ha, hb, hc, words, ht, hr]

theorem exec_tpoArm {m a b c : Word} (hc : c.toNat < 128) :
    exec (.tpoArm h [m, a, b, c]) s = .next (s.receive 0x44 h [m, a, b, c] (tpoArmBody h [m, a, b, c])) := by
  have own : forceDisarm [m, a, b, c] false = [m, a, b, c] := by simp [forceDisarm, word, bitOf_of_lt (i := 8) (Nat.lt_trans hc (by decide))]
  exact congrArg (fun p => Host.Outcome.next (s.receive 0x44 h p (tpoArmBody h p))) own
theorem exec_tpoDisarm (m : Word) : exec (.tpoDisarm h [m, 0, 0, 256]) s = .next (s.receive 0x44 h [m, 0, 0, 256] (tpoArmBody h [m, 0, 0, 256])) := by
  have own : forceDisarm [m, 0, 0, 256] true = [m, 0, 0, 256] := by simp [forceDisarm, word]
  exact congrArg (fun p => Host.Outcome.next (s.receive 0x44 h p (tpoArmBody h p))) own
end

/-- A port and what the mode adds make the first word of TB.ASYM. -/
theorem toNat_portWord {mode port : Nat} (hm : mode < 3) (hp : port < 2) : (BitVec.ofNat 32 (2 * mode + port)).toNat = 2 * mode + port := by
  simp only [BitVec.toNat_ofNat]; omega

/-- Settles O19: each command's own checks pass and give its effect and answer, at once or at its TIME_TAG. -/
theorem timeCommandsComplete : Obligations.TimeCommandsComplete := by
  intro s h r
  refine ⟨fun g => congrArg Host.Outcome.next (State.receive_final g rfl), ?domain, ?asymSet, ?measure, ?clear, ?permit, ?set, ?arm, ?disarm⟩
  case domain => exact fun w g hw => congrArg Host.Outcome.next (State.receive_scheduled g (tbDomainBody_of_domain hw))
  case asymSet =>
    intro port v hp g hl hu hj
    have set : bits port.toNat 2 1 = 0 := by rw [bits]; omega
    have own : port.toNat % 2 = port.toNat := Nat.mod_eq_of_lt hp
    have good := asymSet_of_good (s := r) (w := port) hl hu (by rwa [own])
    rw [own] at good
    exact congrArg Host.Outcome.next (State.receive_final g (by rw [forceMode_of_bits set, tbAsymBody_set (by omega) set]; exact good))
  case measure =>
    intro port hp w g hl hf
    have word₀ : w.toNat = 2 + port := toNat_portWord (mode := 1) (by decide) hp
    have measure : bits w.toNat 2 1 = 1 := by rw [word₀, bits]; omega
    have own : w.toNat % 2 = port := by omega
    have body := tbAsymBody_measure (h := h) (s := r) (by omega) measure hl (by rwa [own])
    rw [own] at body
    exact congrArg Host.Outcome.next (State.receive_later g (by rw [forceMode_of_bits measure]; exact body))
  case clear =>
    intro port hp w g hj
    have word₀ : w.toNat = 4 + port := toNat_portWord (mode := 2) (by decide) hp
    have clear : bits w.toNat 2 1 = 2 := by rw [word₀, bits]; omega
    have own : w.toNat % 2 = port := by omega
    have good := asymSet_of_good (s := r) (w := w) (v := 0) (by decide) (by decide) (by rwa [own])
    rw [own] at good
    exact congrArg Host.Outcome.next (State.receive_final g (by rw [forceMode_of_bits clear, tbAsymBody_clear (by omega) clear rfl]; exact good))
  case permit =>
    have own := forceMode_of_bits (a := 0) (lo := 0) (n := 1) (mode := 0) (by decide) [0, 0]
    exact fun g hj => congrArg Host.Outcome.next (State.receive_later g (by rw [own]; exact tbJumpBody_permit hj))
  case set =>
    intro a b value free g ho hv
    have own := forceMode_of_bits (a := 1) (lo := 0) (n := 1) (mode := 1) (by decide) [a, b]
    exact congrArg Host.Outcome.next (State.receive_later g (by rw [own]; exact tbJumpBody_set ho hv))
  case arm =>
    exact fun m a b c hc g ht hr => (exec_tpoArm hc).trans (congrArg Host.Outcome.next (State.receive_scheduled g (tpoArmBody_arm hc ht hr)))
  case disarm =>
    intro m g ht hm he
    have named : m.toNat ≠ 0 := fun e => hm (BitVec.eq_of_toNat_eq e)
    have inRange := State.tpoRange_of_disarm (a := 0) (b := 0) (c := 256) named he (by decide)
    exact (exec_tpoDisarm m).trans (congrArg Host.Outcome.next (State.receive_scheduled g (tpoArmBody_disarm rfl rfl rfl ht (inRange _))))

end Sys2Proof.Machine
end

section
/-! The statement on the time exchange and the lock of the time base (R168 to R170, R176 to R181, R184, R185). -/

namespace Sys2Proof.Machine

/-! ### What the time base takes up leaves the time as it is -/

section
variable (s : State)

@[simp] theorem State.putBit_time (k i : Nat) (b : Bool) : (s.putBit k i b).time = s.time := by cases b <;> rfl
@[simp] theorem State.slewBy_time (c : Int) : (s.slewBy c).time = s.time := by simp [State.slewBy, State.writeFreq]
@[simp] theorem State.newSteer_time : s.newSteer.time = s.time := rfl
@[simp] theorem State.modelSteer_time : s.modelSteer.time = s.time := by
  unfold State.modelSteer
  split <;> rfl
@[simp] theorem State.setPhase_time (c : Int) : (s.setPhase c).time = s.time := rfl
@[simp] theorem State.enterTb_time (st : Nat) : (s.enterTb st).time = s.time := rfl
@[simp] theorem State.startEstimate_time (c : Int) : (s.startEstimate c).time = s.time := rfl
@[simp] theorem State.enterHoldover_time : s.enterHoldover.time = s.time := by simp [State.enterHoldover]
@[simp] theorem State.enterRecovery_time (c : Int) : (s.enterRecovery c).time = s.time := by simp [State.enterRecovery, apply_ite State.time]
@[simp] theorem State.loseSource_time : s.loseSource.time = s.time := by simp [State.loseSource, apply_ite State.time]
@[simp] theorem State.haveSource_time (f : Nat) : (s.haveSource f).time = s.time := by simp [State.haveSource, apply_ite State.time]
@[simp] theorem State.switchDomain_time (old : Option Nat) (d : Nat) : (s.switchDomain old d).time = s.time := by
  simp [State.switchDomain, apply_ite State.time]
@[simp] theorem State.followDomain_time : s.followDomain.time = s.time := by
  unfold State.followDomain
  split <;> simp [apply_ite State.time]
@[simp] theorem State.followOwn_time : s.followOwn.time = s.time := by simp [State.followOwn, State.localPhase, apply_ite State.time]
@[simp] theorem State.noteDomain_time (d : Nat) : (s.noteDomain d).time = s.time := by simp [State.noteDomain, apply_ite State.time]
@[simp] theorem State.lockReturned_time : s.lockReturned.time = s.time := by
  unfold State.lockReturned
  split
  · split <;> rfl
  · rfl
@[simp] theorem State.noteLock_time : s.noteLock.time = s.time := by simp [State.noteLock, apply_ite State.time]
@[simp] theorem State.tbNote_time : s.tbNote.time = s.time := by simp [State.tbNote]
@[simp] theorem State.tbUpdate_time : s.tbUpdate.time = s.time := by simp [State.tbUpdate, apply_ite State.time]
@[simp] theorem State.noteExchange_time (p : Nat) (b : TimeBlock) : (s.noteExchange p b).time = s.time := by
  unfold State.noteExchange
  split
  · rfl
  · simp [apply_ite State.time, State.setTimePort, State.setDomain]
end

section
variable {s : State}

/-! ### TIME blocks (R176 to R181, R184) -/

section
variable {p : Nat}

/-- The TIME block a port sends now: what is known of its domain, the stamp of the block sent before it, and the block last received (R177, R181). -/
def State.timeBlock (s : State) (p : Nat) : TimeBlock :=
  let y := s.tb.ports.get p
  let x := s.relayed p
  let prev := match y.sent with
    | m :: _ => if m.1 = (y.seq + 255) % 256 then m.2 else 0
    | [] => 0
  { seq := BitVec.ofNat 8 y.seq, rxSeq := BitVec.ofNat 8 (y.got.getD (0, 0)).1, avail := x.1, srcKind := BitVec.ofNat 2 x.2.1
    quality := BitVec.ofNat 2 x.2.2.1, hops := BitVec.ofNat 12 x.2.2.2.1, uncert := BitVec.ofNat 32 x.2.2.2.2.1, delta := BitVec.ofInt 48 x.2.2.2.2.2
    txPrev := BitVec.ofNat 76 prev, rxStamp := BitVec.ofNat 76 (y.got.getD (0, 0)).2 }

/-- An ACTIVE port sends its block and notes its number and its instant. -/
theorem timeBlockSend_of_active (h : s.rdN (P.LNK_PORT_STATE p) = 2) : let y := s.tb.ports.get p
    timeBlockSend p s = (s.setLanePort p { s.lanePort p with timeDue := timeBlocks (s.timeBlock p) }).setTimePort p
      { y with seq := (y.seq + 1) % 256, sent := (y.seq, s.time) :: y.sent.take 255, block := some (s.timeBlock p) } := if_neg (not_not_intro h)

/-- A domain that is not the node's own is relayed one hop on. -/
theorem State.relayed_of_received (h : s.injected p = false) : let x := s.domain p
    s.relayed p = (s.usable p, x.kind, x.quality, x.hops + 1, x.uncert, roundTo fineUnit (x.offset.getD 0)) := by
  simp only [State.relayed, h, Bool.false_eq_true, if_false]

/-- A portal injects its domain at hop 0. -/
theorem State.relayed_of_injected (h : s.injected p = true) :
    s.relayed p = (s.tbState != tbUnset, s.rdN P.TB_SRC, s.tbQuality, 0, s.tbUncert, 0) := by simp only [State.relayed, h, if_true]

/-- A block received on an ACTIVE port: a domain that is no longer available is lost under what was reported before (R184), what the block says is taken,
the exchange it completes is noted, and its number and arrival are kept for the answer. -/
theorem timeBlockReceive_of_active (b : TimeBlock) (h : s.rdN (P.LNK_PORT_STATE p) = 2) : let d := 1 - p
    let x := s.domain d
    let before := if b.avail then s else (s.setDomain d { x with avail := false }).tbUpdate
    let y : Domain := { x with heard := if b.avail then s.time else x.heard, avail := b.avail, kind := b.srcKind.toNat, quality := b.quality.toNat
                               hops := b.hops.toNat, uncert := b.uncert.toNat }
    let heard := (before.setDomain d y).noteExchange p b
    timeBlockReceive p b s = (heard.setTimePort p { heard.tb.ports.get p with got := some (b.seq.toNat, s.time) }).tbUpdate := by
  intro d x before y heard
  have before_time : before.time = s.time := by simp [before, State.setDomain, apply_ite State.time]
  have heard_time : heard.time = s.time := by simp [heard, State.setDomain, before_time]
  rw [← heard_time]
  refine (if_neg (not_not_intro h)).trans ?_
  simp only [heard, y, ← before_time]
  rfl
end

/-! ### Lock and corrections (R168 to R170, R185) -/

theorem tbLockAchieved_of_held {a : Nat} (hw : s.windowSince = some a) (ht : a + msec 10 ≤ s.time) (hs : s.tbState = tbAcquiring ∨ s.tbState = tbRecovery)
    (hj : s.jumpPending = false) : tbLockAchieved s = (s.enterTb tbLocked).newSteer.tbUpdate := by
  simp [tbLockAchieved, hw, ht, hs, hj]

theorem tbPhaseErrorExceed_of_held {a : Nat} (ho : s.tb.outSince = some a) (ht : a + msec 1 ≤ s.time) (hs : s.tbState = tbLocked) :
    tbPhaseErrorExceed s = (s.enterRecovery s.tb.phase).tbUpdate := by
  simp [tbPhaseErrorExceed, ho, ht, hs]

/-- A measurement has come within the last 1 ms. -/
def State.measuredAfresh (s : State) : Bool := s.tb.recent.any (fun m => decide (s.time < m.1 + msec 1))
/-- The measurement of this instant is made. -/
def State.remeasured (s : State) : State := s.setTb { s.tb with measured := s.time }

/-- With a new measurement, or no slew that runs, the correction is taken up. -/
theorem State.takesCorrection (hf : s.measuredAfresh = true ∨ s.tb.slew = 0) : (!s.measuredAfresh && decide (s.tb.slew ≠ 0)) ≠ true := by
  rcases hf with fresh | still
  · rw [fresh]
    exact Bool.false_ne_true
  · rw [decide_eq_false (not_not_intro still), Bool.and_false]
    exact Bool.false_ne_true

section
variable (hs : s.tbState = tbAcquiring ∨ s.tbState = tbRecovery ∨ s.tbState = tbTest) (hm : s.measurable = true) (ht : s.tb.measured + msec 1 ≤ s.time)
include hs hm ht

theorem correctionRemeasure_of_due : correctionRemeasure s =
    if !s.measuredAfresh && s.tb.slew ≠ 0 then s.remeasured
    else if s.rdN P.TB_JUMP_LIMIT * 8192000 < s.averaged.natAbs then (s.remeasured.refuseCorrection s.averaged).tbUpdate
    else (if s.tbState = tbTest then s.remeasured.clrBits P.TB_STATUS 32 else (s.remeasured.clrBits P.TB_STATUS 32).slewBy s.averaged).tbUpdate := by
  have due : (!(decide (s.tbState = tbAcquiring) || decide (s.tbState = tbRecovery) || decide (s.tbState = tbTest)) || !s.measurable
      || decide (s.time < s.tb.measured + msec 1)) = false := by
    have state : (decide (s.tbState = tbAcquiring) || decide (s.tbState = tbRecovery) || decide (s.tbState = tbTest)) = true := by
      simp only [Bool.or_eq_true, decide_eq_true_eq, or_assoc]
      exact hs
    rw [state, hm, decide_eq_false (Nat.not_lt.mpr ht)]
    rfl
  exact if_neg (Bool.eq_false_iff.mp due)

theorem correctionRemeasure_of_stale (hf : s.measuredAfresh = false) (hl : s.tb.slew ≠ 0) : correctionRemeasure s = s.remeasured := by
  rw [correctionRemeasure_of_due hs hm ht, if_pos (by simp [hf, hl])]

section
variable (hf : s.measuredAfresh = true ∨ s.tb.slew = 0)
include hf

theorem correctionRemeasure_of_beyond (hc : s.rdN P.TB_JUMP_LIMIT * 8192000 < s.averaged.natAbs) :
    correctionRemeasure s = (s.remeasured.refuseCorrection s.averaged).tbUpdate := by
  rw [correctionRemeasure_of_due hs hm ht, if_neg (State.takesCorrection hf), if_pos hc]

theorem correctionRemeasure_of_within (hc : s.averaged.natAbs ≤ s.rdN P.TB_JUMP_LIMIT * 8192000) : correctionRemeasure s =
    (if s.tbState = tbTest then s.remeasured.clrBits P.TB_STATUS 32 else (s.remeasured.clrBits P.TB_STATUS 32).slewBy s.averaged).tbUpdate := by
  rw [correctionRemeasure_of_due hs hm ht, if_neg (State.takesCorrection hf), if_neg (Nat.not_lt.mpr hc)]
end
end

theorem slewComplete_of_removed (hs : s.tb.slew ≠ 0) (hl : s.slewLeft = 0) : let u := s.slewBy 0
    slewComplete s = (if u.ownSource || u.tb.onPps then u.setPhase (s.tb.phase - s.tb.slew) else u).tbNote := if_neg (by simp [hs, hl])
end

/-- Settles O37: each event by the equation of its meaning (that a slew goes on while nothing new is measured is log 38). -/
theorem timeExchangeAndLockComplete : Obligations.TimeExchangeAndLockComplete := by
  refine ⟨fun s t => ⟨?send, ?receive, rfl⟩, fun s t => ⟨?lock, ?exceed, ?remeasure, ?slewed⟩⟩
  case send =>
    intro p h y
    refine ⟨_, _, congrArg Host.Outcome.next (timeBlockSend_of_active h), rfl, BitVec.toNat_ofNat _ _, BitVec.toNat_ofNat _ _, fun hi => ?_, fun hi => ?_⟩
    · simp [State.timeBlock, State.relayed_of_received hi]
    · simp [State.timeBlock, State.relayed_of_injected hi]
  case receive => exact fun p b h => congrArg Host.Outcome.next (timeBlockReceive_of_active b h)
  case lock => exact fun a hw ht hs hj => congrArg Host.Outcome.next (tbLockAchieved_of_held hw ht hs hj)
  case exceed => exact fun a ho ht hs => congrArg Host.Outcome.next (tbPhaseErrorExceed_of_held ho ht hs)
  case remeasure =>
    intro hm ht a c fresh
    refine ⟨fun hs hf hl => congrArg Host.Outcome.next (correctionRemeasure_of_stale hs hm ht hf hl),
      fun hf => ⟨fun hs hc => ?slews, fun hs hc => ?refuses, fun hs hc => ?shows⟩⟩
    case slews =>
      have due : (s.at_ t).tbState = tbAcquiring ∨ (s.at_ t).tbState = tbRecovery ∨ (s.at_ t).tbState = tbTest := hs.imp_right Or.inl
      have other : (s.at_ t).tbState ≠ tbTest := by rcases hs with e | e <;> rw [e] <;> decide
      exact congrArg Host.Outcome.next ((correctionRemeasure_of_within due hm ht hf hc).trans (congrArg State.tbUpdate (if_neg other)))
    case refuses => exact congrArg Host.Outcome.next (correctionRemeasure_of_beyond hs hm ht hf hc)
    case shows => exact congrArg Host.Outcome.next ((correctionRemeasure_of_within (.inr (.inr hs)) hm ht hf hc).trans (congrArg State.tbUpdate (if_pos hs)))
  case slewed => exact fun hs hl => congrArg Host.Outcome.next (slewComplete_of_removed hs hl)

end Sys2Proof.Machine
end

section
/-! The statement on the record events: the ends of captures and of windrow intervals, records that close by age, beacons and housekeeping (R165, R213,
R229 to R231, R251 to R254, R258). -/

namespace Sys2Proof.Machine

section
variable {s : State}

/-! ### Captures (R258) -/

/-- A capture whose last words are there leaves the list, its blocks are copied and its record is built. -/
theorem captureEnd_of_complete {c : Capture} (h : s.trg.captures.find? s.complete = some c) :
    let a := ({ s with trg := { s.trg with captures := dropFirstWhere s.complete s.trg.captures } } : State).copyAll c
    captureEnd s = a.1.build (a.1.fragment a.2) := by
  simp only [captureEnd, h]

/-- The captures become those listed, `d` in the place of `c`. -/
def State.putCapture (s : State) (cs : List Capture) (c d : Capture) : State :=
  { s with trg := { s.trg with captures := cs.map (fun e => if e.id == c.id && e.instant == c.instant then d else e) } }

/-- The oldest capture in which a block waits has it copied and coded; what a step has left without a block is coded only. -/
theorem blockCode_of_waits {n block : Nat} {c : Capture} {g : GroupCapture} {x : CapturedInput} (hc : s.trg.captures.find?
      (fun c => s.blockWaits c n && (Sparse.get {} c.furrows n : FurrowPart).blocks.length == block) = some c) (hp : c.partOf n = some (g, x)) :
    let a := if c.cut.isSome then s.codeBlockOf c x else s.copyBlock c g x
    blockCode n block s = a.1.putCapture s.trg.captures c a.2 := by
  simp only [blockCode, hc, hp]
  rfl

/-! ### Windrow intervals (R213, R229 to R231) -/

/-- The end of an interval joins the events of the trigger engine. -/
theorem windrowIntervalEnd_of_ended {j : Nat} {e : LocalEvent} (h : (s.windrowEnds j s.now).find? (fun e => !s.trg.events.contains e) = some e) :
    windrowIntervalEnd j s = { s with trg := { s.trg with events := s.trg.events ++ [e] } } := by
  simp only [windrowIntervalEnd, h]

section
variable {j n : Nat} {x : Windrow} (h : s.endingWindrow j n = some x)
include h

/-- An interval whose number is not skipped gives the records of the four front ends. -/
theorem State.closeWindrow_of_kept : let a := s.windrowTaken j x
    let view := a.windrowView x
    let d := 1000 * view.rdN (P.TRG_WR_PERIOD j)
    d ≠ 0 → x.from_ / d % a.windrowDivisor x.from_ = 0 →
    s.closeWindrow j n = [0, 1, 2, 3].foldl (fun s fe => s.windrowRecord view j x fe) a := by
  intro a view d hd hg
  simp only [State.closeWindrow, h]
  exact (if_neg hd).trans (if_neg (not_not_intro hg))

/-- One that is skipped gives a THROTTLE gap when an input contributes. -/
theorem State.closeWindrow_of_skipped : let a := s.windrowTaken j x
    let view := a.windrowView x
    let d := 1000 * view.rdN (P.TRG_WR_PERIOD j)
    d ≠ 0 → x.from_ / d % a.windrowDivisor x.from_ ≠ 0 →
    s.closeWindrow j n = if (List.range 512).any (a.contributed view j x) then a.addGap 1 2 0 x.from_ x.to_ else a := by
  intro a view d hd hg
  simp only [State.closeWindrow, h]
  exact (if_neg hd).trans (if_pos hg)
end

/-! ### Records that close by age (R251, R252) -/

section
variable {o : OpenRecord} (hb : s.now % 1000 = 0)
include hb

theorem stpRecordAgeClose_of_aged (h : s.recs.stp = some o) (ha : o.opened + 1000 * s.rdN P.REC_STP_AGE ≤ s.now) :
    stpRecordAgeClose s = State.build { s with recs := { s.recs with stp := none } } (o.draft 2 s.recDir) := by
  simp [stpRecordAgeClose, State.closeStp, h, hb, ha]
theorem itvRecordAgeClose_of_aged (h : s.recs.itv = some o) (ha : o.opened + 1000 * s.rdN P.REC_ITV_AGE ≤ s.now) :
    itvRecordAgeClose s = State.build { s with recs := { s.recs with itv := none } } (o.draft 3 s.recDir) := by
  simp [itvRecordAgeClose, State.closeItv, h, hb, ha]
end

/-! ### Beacons and housekeeping (R165, R253, R254) -/

/-- A beacon of the present instant. -/
theorem bcnWrap_of_wrapped (hr : s.running = true) (hw : s.time % 17592186044416 = 0) : bcnWrap s
    = s.build { kind := 4, time := s.now, last := s.now, kspec := 0, dir := s.recDir
                body := [BitVec.ofNat 64 (s.now / 4294967296 % 281474976710656),
                  BitVec.ofNat 64 (s.tbState + 8 * s.rdN P.TB_FOLLOWED + 32 * s.rdN P.TB_QUALITY + 4294967296 * min 0xFFFFFFFF s.tbUncert),
                  BitVec.ofNat 64 0] } := by
  simp [bcnWrap, hr, hw, State.beacon, b2n]

/-- At a whole multiple of REC_HSK_PERIOD the listed parameters are latched, unless a commit of that instant is still to come about. -/
theorem hskLatch_of_due (hr : s.running = true) (hp : s.rdN P.REC_HSK_PERIOD ≠ 0) (hm : s.now % (1000000000 * s.rdN P.REC_HSK_PERIOD) = 0)
    (hc : s.commitDue = false) :
    let words := (List.range (s.rdN P.REC_HSK_COUNT)).map (fun i =>
      BitVec.ofNat 64 (s.rdN (P.REC_HSK_ADDR i) + 4294967296 * (s.readNow (s.rdN (P.REC_HSK_ADDR i))).toNat))
    hskLatch s = s.build { kind := 5, time := s.now, last := s.now, kspec := words.length, body := words, dir := s.recDir } :=
  if_neg (by simp [hr, hp, hm, hc])
end

/-- Settles O26: each event by the equation of its meaning; a windrow interval by whether its number is skipped (R230). -/
theorem recordEventsComplete : Obligations.RecordEventsComplete := by
  intro s t r
  refine ⟨?capture, ?block, ?interval, ?windrow, ?stamps, ?results, ?beacon, ?housekeeping⟩
  case capture => exact fun c h => congrArg Host.Outcome.next (captureEnd_of_complete h)
  case block => exact fun n block c g x hc hp => congrArg Host.Outcome.next (blockCode_of_waits hc hp)
  case interval => exact fun j e h => congrArg Host.Outcome.next (windrowIntervalEnd_of_ended h)
  case windrow => exact fun j n x h hd => ⟨State.closeWindrow_of_kept h hd, State.closeWindrow_of_skipped h hd⟩
  case stamps => exact fun o h hb ha => congrArg Host.Outcome.next (stpRecordAgeClose_of_aged hb h ha)
  case results => exact fun o h hb ha => congrArg Host.Outcome.next (itvRecordAgeClose_of_aged hb h ha)
  case beacon => exact fun hr hw => congrArg Host.Outcome.next (bcnWrap_of_wrapped hr hw)
  case housekeeping => exact fun hr hp hm hc => congrArg Host.Outcome.next (hskLatch_of_due hr hp hm hc)

end Sys2Proof.Machine
end

section
/-! What the steps of the time base, the edges of PPSIN and the ageing model do (R169, R173, R174, R186, R193, R194). -/

namespace Sys2Proof.Machine

section
variable {s : State}

/-! ### The initial set and the permitted jump (R186, R194) -/

section
variable {x : StepDue} (hb : x.instant ≤ s.now) (hw : s.waitsBefore x.instant = false)
include hb hw

/-- At its boundary, once all that was due by then has acted (R187), the initial set goes before a permitted jump. -/
theorem tbStep_of_initial (hs : s.tb.step = some x) : tbStep s = s.initialSet x.instant := by
  simp [tbStep, hs, Option.filter_some, hb, hw]
theorem tbStep_of_permit {rest : List StepDue} (hs : s.tb.step = none) (hp : s.tb.permits = x :: rest) : tbStep s = s.permitStep x := by
  simp [tbStep, hs, hp, Option.filter_some, hb, hw]
end

/-- The initial set steps by the correction of its instant, and slews what the step leaves. -/
theorem State.initialSet_of_source (hu : s.tbState = tbUnset) (hf : s.followedDomain.isSome = true) (b : Nat) : let d := stepOf s.averaged
    s.initialSet b = (s.setTb { s.tb with step := none }).stepTime d (s.averaged - d * nsUnit) b :=
  if_pos (Bool.and_eq_true_iff.mpr ⟨decide_eq_true hu, hf⟩)
theorem State.initialSet_of_gone (h : s.tbState ≠ tbUnset ∨ s.followedDomain = none) (b : Nat) :
    s.initialSet b = s.setTb { s.tb with step := none } := by
  refine if_neg (fun g => ?_)
  obtain ⟨unset, followed⟩ := Bool.and_eq_true_iff.mp g
  rcases h with h | h
  · exact h (of_decide_eq_true unset)
  · exact absurd (h ▸ followed : (none : Option Nat).isSome = true) (by decide)

section
variable {b : Nat} {h : Hdr} {rest : List StepDue} (hp : s.tb.permits = ⟨b, some h⟩ :: rest)
include hp

/-- The permit that steps is the first that waits; the correction is that of its instant. -/
theorem State.permitStep_of_first : let a := s.setTb { s.tb with permits := rest }
    let d := stepOf s.averaged
    s.permitStep ⟨b, some h⟩ = if !s.jumpPending || !s.measurable then a.finish 0x43 h stTimeout []
      else (a.stepTime d (s.averaged - d * nsUnit) b).finish 0x43 h stOk [satWordInt d] := by
  have taken : s.tb.permits.drop 1 = rest := by rw [hp, List.drop_one, List.tail_cons]
  intro a d
  simp only [State.permitStep, taken]
  rfl

theorem State.permitStep_of_pending (hj : s.jumpPending = true) (hm : s.measurable = true) : let d := stepOf s.averaged
    s.permitStep ⟨b, some h⟩
      = ((s.setTb { s.tb with permits := rest }).stepTime d (s.averaged - d * nsUnit) b).finish 0x43 h stOk [satWordInt d] :=
  (State.permitStep_of_first hp).trans (if_neg (by simp [hj, hm]))
theorem State.permitStep_of_gone (hg : s.jumpPending = false ∨ s.measurable = false) :
    s.permitStep ⟨b, some h⟩ = (s.setTb { s.tb with permits := rest }).finish 0x43 h stTimeout [] :=
  (State.permitStep_of_first hp).trans (if_pos (by simpa using hg))
end

/-! ### TB.JUMP SET (R194) -/

section
variable {j : JumpSet} (hj : s.tb.jumpSet = some j)
include hj

section
variable {b : Nat} (hs : j.boundary = some b) (hb : b ≤ s.now) (hw : s.waitsBefore b = false)
include hs hb hw

/-- A SET steps by the correction of its edge. -/
theorem tbJumpSetApply_of_edge {c : Int} (he : j.edge = some c) : let d := stepOf c
    tbJumpSetApply s = ((s.setTb { s.tb with jumpSet := none }).stepTime d (c - d * nsUnit) b).finish 0x43 j.h stOk [satWordInt d] := by
  simp [tbJumpSetApply, hj, hs, hw, he, Nat.not_lt.mpr hb]
/-- Without one the time becomes the time it names. -/
theorem tbJumpSetApply_of_named (he : j.edge = none) : let c := ((j.value : Int) - b) * nsUnit
    let d := stepOf c
    tbJumpSetApply s = ((s.setTb { s.tb with jumpSet := none }).stepTime d (c - d * nsUnit) b).finish 0x43 j.h stOk [satWordInt d] := by
  simp [tbJumpSetApply, hj, hs, hw, he, Nat.not_lt.mpr hb]
end

section
variable (hp : j.pps = true) (hs : j.boundary = none)
include hp hs

theorem tbJumpSetTimeout_of_elapsed (ht : j.receipt + msec 1500 ≤ s.time) :
    tbJumpSetTimeout s = (s.setTb { s.tb with jumpSet := none }).finish 0x43 j.h stTimeout [] := by
  simp [tbJumpSetTimeout, hj, hp, hs, ht]

/-- A waiting SET takes an edge whatever its phase, and its boundary from it (log 105). -/
theorem ppsinEdge_of_waiting : ppsinEdge s = s.setTb { s.tb with
    ppsAt := some s.time
    jumpSet := some { j with boundary := some (s.setBoundary j), edge := some (j.value * nsUnit - (s.time * fineUnit - s.rdI P.TB_PPS_DELAY * psUnit)) } } := by
  simp only [ppsinEdge, hj, hp, hs, Option.isNone_none, Bool.and_self, if_true]
end
end

/-! ### PPSIN (R173, R174, R193) -/

section
variable (hj : s.tb.jumpSet.all (fun j => !(j.pps && j.boundary.isNone)) = true)
include hj

/-- Where no SET waits for an edge, an edge is judged by its distance from its expected instant. -/
theorem ppsinEdge_of_judged : ppsinEdge s = s.judgeEdge s.ppsCorrection := by
  unfold ppsinEdge
  split
  · next j e =>
    rw [e, Option.all_some, Bool.not_eq_true'] at hj
    exact if_neg (Bool.eq_false_iff.mp hj)
  · rfl
end

theorem State.judgeEdge_of_near {c : Int} (h : s.tbState = tbUnset ∨ c.natAbs ≤ 100000 * nsUnit) : s.judgeEdge c = s.validEdge (c - s.steppedBy * nsUnit) :=
  if_neg (fun g => by
    obtain ⟨set, far⟩ := Bool.and_eq_true_iff.mp g
    rcases h with unset | near
    · exact of_decide_eq_true set unset
    · exact Int.not_lt.mpr near (of_decide_eq_true far))
theorem State.judgeEdge_of_far {c : Int} (hu : s.tbState ≠ tbUnset) (hc : 100000 * nsUnit < c.natAbs) : s.judgeEdge c
    = (s.setTb { s.tb with measures := s.tb.measures.map (fun m => { m with errors := [] }) }).setBit P.TB_STATUS 8 :=
  if_pos (Bool.and_eq_true_iff.mpr ⟨decide_eq_true hu, decide_eq_true hc⟩)
end

/-! ### What a final reply leaves of the time base and of the lanes -/

section
variable (s : State) (code st : Nat) (h : Hdr) (data : List Word)

@[simp] theorem State.finish_tb : (s.finish code h st data).tb = s.tb := (State.sendReply_frame _ _).tb
@[simp] theorem State.finish_prt : (s.finish code h st data).prt = s.prt := (State.sendReply_frame _ _).prt
@[simp] theorem State.finish_lnk : (s.finish code h st data).lnk = s.lnk := (State.sendReply_frame _ _).lnk
theorem State.finish_rd {k : Nat} (hk : k ∉ P.SYS_CMD_REFUSED_COUNT :: recKeys 7) : (s.finish code h st data).rd k = s.rd k :=
  (State.sendReply_frame _ _).par k hk
@[simp] theorem State.finish_ownSource : (s.finish code h st data).ownSource = s.ownSource := by
  have source : (s.finish code h st data).rdN P.TB_SRC = s.rdN P.TB_SRC := congrArg BitVec.toNat (State.finish_rd s code st h data (by decide))
  unfold State.ownSource
  rw [State.finish_prt, source]
end

section
variable {s : State}

/-! ### A missing edge (R173, R174, R193) -/

/-- A source that runs on PPSIN is lost when its edges stop. -/
theorem ppsMissing_of_lost (hm : s.tb.measures = []) (ha : s.ppsAlive = false) (hu : s.tb.onPps = true
      ∨ (s.ownSource = true ∧ s.rdN P.TB_SRC = 1 ∧ s.tbState ≠ tbUnset ∧ s.tbState ≠ tbHoldover ∧ s.ppsHeld = false)) :
    ppsMissing s = (s.setBit P.TB_STATUS 8).tbUpdate := by
  have same : s.setTb { s.tb with measures := [] } = s := by rw [← hm]; rfl
  simp only [ppsMissing, hm, List.filter_nil, List.foldl_nil, same]
  refine if_pos ?_
  rcases hu with on | ⟨own, src, set, held, lost⟩
  · simp [on, ha]
  · simp [own, src, set, held, lost, ha]

/-- A MEASURE that has waited for 1.5 s ends. -/
theorem ppsMissing_of_measure {m : AsymMeasure} (hm : s.tb.measures = [m]) (ht : m.since + msec 1500 ≤ s.time) (hp : s.tb.onPps = false)
    (ho : s.ownSource = false) :
    ppsMissing s = ((s.setTb { s.tb with measures := [] }).finish 0x42 m.h stTimeout []).setBit P.TB_STATUS 8 := by
  have late : [m].filter (fun m => decide (m.since + msec 1500 ≤ s.time)) = [m] := by simp [ht]
  have waiting : [m].filter (fun m => !decide (m.since + msec 1500 ≤ s.time)) = [] := by simp [ht]
  have own : ((s.setTb { s.tb with measures := [] }).finish 0x42 m.h stTimeout []).ownSource = false := (State.finish_ownSource _ _ _ _ _).trans ho
  have pps : ((s.setTb { s.tb with measures := [] }).finish 0x42 m.h stTimeout []).tb.onPps = false := by rw [State.finish_tb]; exact hp
  simp only [ppsMissing, hm, late, waiting, List.foldl_cons, List.foldl_nil, own, pps, Bool.false_and, Bool.false_or, Bool.false_eq_true, if_false]
  rfl

/-! ### The ageing model (R169) -/

/-- A record is made every 10 s while LOCKED with quality GOOD; those of 30 days are held. -/
theorem modelRecord_of_due (milliC : Int) (hs : s.tbState = tbLocked) (hq : s.rdN P.TB_QUALITY = 0)
    (hl : s.tb.records.head?.all (fun x => decide (x.1 + secs 10 ≤ s.time)) = true) : modelRecord milliC s = State.noteModel (s.setTb { s.tb with
      records := (s.time, s.rdI P.TB_FREQ_ADJ, milliC) :: s.tb.records.filter (fun x => decide (s.time < x.1 + secs 2592000)) }) := by
  cases hr : s.tb.records with
  | nil => simp [modelRecord, hs, hq, hr]
  | cons x xs =>
    rw [hr, List.head?_cons, Option.all_some, decide_eq_true_eq] at hl
    simp only [modelRecord, hs, hq, hr]
    exact if_neg (by simp [hl])

section
variable (s)

theorem State.noteModel_age : s.noteModel.rdN P.TB_MODEL_AGE = min 720 (s.tb.records.length / 360) := by
  have ne : P.TB_MODEL_AGE ≠ P.TB_MODEL_STATE := by decide
  rw [State.noteModel, State.rdN_wrN_other _ _ ne, State.rdN_wrN_same]
  omega
theorem State.noteModel_rd {k : Nat} (ha : k ≠ P.TB_MODEL_AGE) (hs : k ≠ P.TB_MODEL_STATE) : s.noteModel.rd k = s.rd k := by
  simp [State.noteModel, ha, hs]

section
variable (hr : s.tb.records ≠ [])
include hr

/-- With records the model is LEARNT when the fit is good and 24 h of them are held, and else LEARNING. -/
theorem State.noteModel_state : s.noteModel.rdN P.TB_MODEL_STATE = if s.tb.model.learnt && decide (8640 ≤ s.tb.records.length) then 2 else 1 := by
  have held : s.tb.records.length ≠ 0 := fun e => hr (List.length_eq_zero_iff.mp e)
  rw [State.noteModel, State.rdN_wrN_same, State.wrN_tb, if_neg held]
  split <;> rfl
theorem State.noteModel_state_of_few (hl : s.tb.records.length < 8640) : s.noteModel.rdN P.TB_MODEL_STATE = 1 := by
  rw [s.noteModel_state hr, if_neg (by simp [hl])]
theorem State.noteModel_state_cases : s.noteModel.rdN P.TB_MODEL_STATE = 1 ∨ s.noteModel.rdN P.TB_MODEL_STATE = 2 := by
  rw [s.noteModel_state hr]
  split
  · exact .inr rfl
  · exact .inl rfl
end
end

/-- A fit: its instant, and a model that it leaves open (log 37), with `n` values left open by then. -/
def State.refitted (s : State) (n : Nat) (m : AgeModel) : State := { s with free := n }.setTb { s.tb with fitted := s.time, model := m }

/-- Every hour the model is fitted to the records held. -/
theorem modelRefit_of_due (hr : s.tb.records ≠ []) (ht : s.tb.fitted + secs 3600 ≤ s.time) : ∃ n m, modelRefit s = (s.refitted n m).noteModel :=
  ⟨_, _, if_neg (by simp [hr, ht])⟩
end

end Sys2Proof.Machine
end

section
/-! What the work on a port's lanes leaves of the states of the lanes and of the ports (R323 to R331, R416). -/

namespace Sys2Proof.Machine

theorem State.lanePort_setLanePort_same (s : State) (p : Nat) (x : LanePort) : (s.setLanePort p x).lanePort p = x := Sparse.get_set_same _ _ _ _
theorem State.lanePort_setLanePort_other (s : State) {p q : Nat} (x : LanePort) (h : q ≠ p) : (s.setLanePort p x).lanePort q = s.lanePort q :=
  Sparse.get_set_other _ _ _ _ _ _ h

/-- The rows that show the states of the ring ports and of the lanes. -/
abbrev linkRow (k : Nat) : Prop := (0x0B100000 ≤ k ∧ k < 0x0B100002) ∨ (0x0B120000 ≤ k ∧ k < 0x0B12000C)

/-- From `s` to `t` no state of a lane or of a ring port changes but those listed in `ks`, and no port held in FALLOW is let go. -/
structure LinkFrame (ks : List Nat) (s t : State) : Prop where
  fallow : ∀ q, (s.lanePort q).fallow = true → (t.lanePort q).fallow = true
  par : ∀ k, linkRow k → k ∉ ks → t.rd k = s.rd k

namespace LinkFrame
variable {ks : List Nat} {s t u : State}

theorem refl (ks : List Nat) (s : State) : LinkFrame ks s s := ⟨fun _ h => h, fun _ _ _ => rfl⟩
theorem trans (h : LinkFrame ks s t) (g : LinkFrame ks t u) : LinkFrame ks s u :=
  ⟨fun q f => g.fallow q (h.fallow q f), fun k r m => (g.par k r m).trans (h.par k r m)⟩
/-- The last change first, as a state names its changes from the outside in. -/
theorem after (g : LinkFrame ks t u) (h : LinkFrame ks s t) : LinkFrame ks s u := h.trans g
theorem mono {js : List Nat} (h : LinkFrame ks s t) (hk : ∀ k ∈ ks, k ∈ js) : LinkFrame js s t :=
  ⟨h.fallow, fun k r m => h.par k r (fun n => m (hk k n))⟩
theorem ite {p : Prop} [Decidable p] (h : LinkFrame ks s t) (g : LinkFrame ks s u) : LinkFrame ks s (if p then t else u) := by
  split
  · exact h
  · exact g
theorem foldl {α : Type} {f : State → α → State} : ∀ (xs : List α) (s : State),
    (∀ s, ∀ x ∈ xs, LinkFrame ks s (f s x)) → LinkFrame ks s (xs.foldl f s)
  | [], s, _ => refl ks s
  | x :: xs, s, hf => (hf s x (.head _)).trans (foldl xs (f s x) (fun s y m => hf s y (.tail _ m)))
/-- A change to neither the lane layer nor the parameters. -/
theorem of_eq (hl : t.lnk = s.lnk) (hp : t.par = s.par) : LinkFrame ks s t := by
  constructor
  · intro q; simp only [State.lanePort, hl]; exact id
  · exact fun k _ _ => State.rd_congr hp k
theorem setLane (s : State) (l : Nat) (x : Lane) : LinkFrame ks s (s.setLane l x) := ⟨fun _ h => h, fun _ _ _ => rfl⟩
theorem setLanePort {p : Nat} {x : LanePort} (h : (s.lanePort p).fallow = true → x.fallow = true) : LinkFrame ks s (s.setLanePort p x) := by
  refine ⟨fun q f => ?_, fun _ _ _ => rfl⟩
  by_cases e : q = p
  · subst e
    rw [State.lanePort_setLanePort_same]
    exact h f
  · rwa [State.lanePort_setLanePort_other _ _ e]
/-- A write of a listed row. -/
theorem wr {k : Nat} (v : Word) (h : k ∈ ks) : LinkFrame ks s (s.wr k v) := ⟨fun _ f => f, fun _ _ m => s.rd_wr_other v (fun e => m (e ▸ h))⟩
/-- A write of a parameter that shows no state. -/
theorem wrOther {k : Nat} (v : Word) (h : ¬linkRow k) : LinkFrame ks s (s.wr k v) := ⟨fun _ f => f, fun _ r _ => s.rd_wr_other v (fun e => h (e ▸ r))⟩
theorem laneState (h : LinkFrame ks s t) {l : Nat} (hl : l < 12) (hk : P.LNK_LANE_STATE l ∉ ks) : t.laneState l = s.laneState l :=
  congrArg BitVec.toNat (h.par _ (by simp only [linkRow, P.LNK_LANE_STATE]; omega) hk)
theorem lnkPortState (h : LinkFrame ks s t) {q : Nat} (hq : q < 2) (hk : P.LNK_PORT_STATE q ∉ ks) : t.lnkPortState q = s.lnkPortState q :=
  congrArg BitVec.toNat (h.par _ (by simp only [linkRow, P.LNK_PORT_STATE]; omega) hk)

section
variable {k : Nat} (n : Nat) (h : ¬linkRow k)
include h
theorem wrN : LinkFrame ks s (s.wrN k n) := wrOther _ h
theorem addSat : LinkFrame ks s (s.addSat k n) := wrOther _ h
theorem setBit : LinkFrame ks s (s.setBit k n) := ⟨fun _ f => f, fun _ r _ => s.rd_setBit_other n (fun e => h (e ▸ r))⟩
theorem clrBits : LinkFrame ks s (s.clrBits k n) := wrOther _ h
end

end LinkFrame

section
variable {ks : List Nat} {s : State}

theorem linkRow_not_mem_replyKeys {k : Nat} (h : linkRow k) : k ∉ P.SYS_CMD_REFUSED_COUNT :: recKeys 7 := by
  refine not_mem_replyKeys ?_ ?_
  · simp only [List.mem_cons, List.not_mem_nil, or_false, P.SYS_CMD_REFUSED_COUNT, P.REC_SEQ, P.REC_STATUS, P.REC_BUILT, P.GRN_STORE_REFUSED, P.GRN_STATUS,
      P.CLP_STATUS, P.TRG_GAP_COUNT, P.TRG_STATUS]
    omega
  · simp only [P.GRN_STORE_DAMAGED]
    omega

theorem State.finish_linkFrame (code st : Nat) (h : Hdr) (data : List Word) : LinkFrame ks s (s.finish code h st data) := by
  constructor
  · intro q; simp only [State.lanePort, State.finish_lnk]; exact id
  · exact fun k r _ => State.finish_rd s code st h data (linkRow_not_mem_replyKeys r)

/-! ### Frames sent on a port whose turn ends (R365 to R367) -/

theorem State.signal_linkFrame (v : Nat) : LinkFrame ks s (s.signal v) := LinkFrame.ite (LinkFrame.of_eq rfl rfl) (LinkFrame.refl ks s)
theorem State.prtStatus_linkFrame (i : Nat) : LinkFrame ks s (s.prtStatus i) := .after (State.signal_linkFrame 9) (.setBit _ (by decide))
theorem State.undelivered_linkFrame : LinkFrame ks s s.undelivered := .after (State.prtStatus_linkFrame 2) (.addSat _ (by decide))
theorem State.dieSends_linkFrame (d : Nat) (x : HeldItem) : LinkFrame ks s (s.dieSends d x) := by
  unfold State.dieSends
  dsimp only
  split
  · exact .refl ks s
  · split <;> exact .of_eq rfl rfl
theorem State.emit_linkFrame (item : OutItem) (flaws : Two Nat) (unchecked : Bool) : LinkFrame ks s (s.emit item flaws unchecked) :=
  .after (State.dieSends_linkFrame 1 _) (.after (State.dieSends_linkFrame 0 _) (.of_eq rfl rfl))
theorem State.returned_linkFrame (origin dest : Nat) (payload : List Byte) : LinkFrame ks s (s.returned origin dest payload) :=
  .after (.ite (State.emit_linkFrame _ _ _) State.undelivered_linkFrame) (.after (State.prtStatus_linkFrame 6) (.addSat _ (by decide)))
theorem State.enqueue_linkFrame (p : Nat) (own : Bool) (f : Frame) : LinkFrame ks s (s.enqueue p own f) := .ite (.of_eq rfl rfl) (.of_eq rfl rfl)

section
variable {p : Nat} (hp : p < 2)
include hp

theorem State.sendOn_linkFrame (s : State) (own : Bool) (f : Frame) : LinkFrame ks s (s.sendOn p own f) := by
  have turned : ¬linkRow (P.CLP_TURNED p) := by simp only [linkRow, P.CLP_TURNED]; omega
  have dropped : LinkFrame ks s ((s.addSat P.CLP_TURN_DROP 1).setBit P.CLP_STATUS 4) := .after (.setBit _ (by decide)) (.addSat _ (by decide))
  exact .ite (State.enqueue_linkFrame _ _ _) (.ite (.refl ks s) (.ite dropped (.ite (State.returned_linkFrame _ _ _)
    (.ite (State.enqueue_linkFrame _ _ _) (.after (.addSat _ turned) (State.enqueue_linkFrame _ _ _))))))

theorem State.turnWaiting_linkFrame : LinkFrame ks s (s.turnWaiting p) :=
  .after (.foldl _ _ (fun s f _ => State.sendOn_linkFrame hp s false f))
    (.after (.foldl _ _ (fun s f _ => State.sendOn_linkFrame hp s true f)) (.of_eq rfl rfl))

theorem State.endUnknown_linkFrame : LinkFrame ks s (s.endUnknown p) := by
  have hops : ¬linkRow (P.CLP_POS_HOPS p) := by simp only [linkRow, P.CLP_POS_HOPS]; omega
  have far : ¬linkRow (P.CLP_POS_END p) := by simp only [linkRow, P.CLP_POS_END]; omega
  exact .after (.wrN _ far) (.after (.wrN _ hops) (.of_eq rfl rfl))

theorem State.endTurn_linkFrame : LinkFrame ks s (s.endTurn p) := by
  have status : ∀ (s : State) (b : Bool), LinkFrame ks s (s.putBit P.CLP_STATUS 2 b) := fun s b =>
    .ite (.setBit _ (by decide)) (.clrBits _ (by decide))
  exact .after (.ite (State.turnWaiting_linkFrame (by omega)) (.refl ks _)) (.after (State.endUnknown_linkFrame hp) (.after (status _ _) (.of_eq rfl rfl)))
end

theorem State.setTimePort_linkFrame (p : Nat) (x : TimePort) : LinkFrame ks s (s.setTimePort p x) := .of_eq rfl rfl

/-! ### The lanes of a port (R323, R324, R330, R337) -/

section
variable {p : Nat} (hp : p < 3) (hs : P.LNK_PORT_STATE p ∈ ks)
include hs

theorem State.setPortState_linkFrame (st : Nat) : LinkFrame ks s (s.setPortState p st) :=
  .after (t := s.wrN (P.LNK_PORT_STATE p) st) (.ite (State.signal_linkFrame 9) (.refl ks _)) (.wr _ hs)

include hp

theorem State.notePort_linkFrame : LinkFrame ks s (s.notePort p) := by
  have width : ¬linkRow (P.LNK_PORT_WIDTH p) := by simp only [linkRow, P.LNK_PORT_WIDTH]; omega
  have state : ∀ (s : State) (st : Nat), LinkFrame ks s (s.setPortState p st) := fun s st => State.setPortState_linkFrame hs st
  unfold State.notePort
  exact .after (.ite (.refl ks _) (.ite (state _ _) (.ite (state _ _) (.ite (state _ _) (.ite (state _ _) (.refl ks _)))))) (.wrN _ width)

theorem State.putMask_linkFrame (mask : Nat) : LinkFrame ks s (s.putMask p mask) := by
  unfold State.putMask
  dsimp only
  refine .after (.ite (State.endTurn_linkFrame (by omega)) (.refl ks _)) (.after (.ite (State.setTimePort_linkFrame _ _) (.refl ks _))
    (.after (State.notePort_linkFrame hp hs) (.setLanePort fun f => ?_)))
  split <;> exact f
end

section
variable {l : Nat} (hl : l < 12)
include hl

theorem State.dropLane_linkFrame (hs : P.LNK_PORT_STATE (l / 4) ∈ ks) : LinkFrame ks s (s.dropLane l) := by
  unfold State.dropLane
  dsimp only
  exact .ite (.setLanePort id) (.after (.ite (.setLanePort id) (.setLanePort id)) (State.putMask_linkFrame (by omega) hs _))

/-- A lane that goes to FALLOW enters that state, and what follows leaves the states of all lanes. -/
theorem State.fallowLane_linkFrame (s : State) : LinkFrame [P.LNK_PORT_STATE (l / 4)] (s.setLaneState l laneFallow) (s.fallowLane l) := by
  have own := List.mem_singleton_self (P.LNK_PORT_STATE (l / 4))
  have status : ¬linkRow (P.LNK_STATUS l) := by simp only [linkRow, P.LNK_STATUS]; omega
  exact .after (State.notePort_linkFrame (by omega) own) (.after (.clrBits _ status) (.after (.setLane _ _ _) (State.dropLane_linkFrame hl own)))
end

theorem State.endScan_linkFrame (l : Nat) : LinkFrame ks s (s.endScan l) := by
  unfold State.endScan
  split
  · exact .after (State.finish_linkFrame _ _ _ _) (.setLane _ _ _)
  · exact .setLane _ _ _
end

/-! ### A port that is stopped (R337, R416) -/

theorem State.setLaneState_laneState (s : State) {l : Nat} (hl : l < 12) : (s.setLaneState l laneFallow).laneState l = laneFallow :=
  ((State.endScan_linkFrame (ks := []) l).laneState hl List.not_mem_nil).trans (State.rdN_wrN_same s _ _)

/-- Entering a state changes that of no other lane. -/
theorem State.setLaneState_linkFrame {ks : List Nat} {s : State} {l : Nat} (hl : P.LNK_LANE_STATE l ∈ ks) (st : Nat) :
    LinkFrame ks s (s.setLaneState l st) :=
  .after (.ite (State.endScan_linkFrame l) (.refl ks _)) (.after (.setLane _ _ _) (.wr _ hl))

theorem laneRow_ne {j l : Nat} (h : j ≠ l) : P.LNK_LANE_STATE j ≠ P.LNK_LANE_STATE l := by simp only [P.LNK_LANE_STATE]; omega
theorem portRow_ne {p q : Nat} (h : q ≠ p) : P.LNK_PORT_STATE q ≠ P.LNK_PORT_STATE p := by simp only [P.LNK_PORT_STATE]; omega
theorem laneRow_ne_portRow {l p : Nat} (hp : p < 3) : P.LNK_LANE_STATE l ≠ P.LNK_PORT_STATE p := by
  simp only [P.LNK_LANE_STATE, P.LNK_PORT_STATE]; omega

/-- A lane that goes to FALLOW is there, and one that is there stays. -/
theorem State.fallowLane_laneState (s : State) {l j : Nat} (hl : l < 12) (hj : j < 12) (h : j = l ∨ s.laneState j = laneFallow) :
    (s.fallowLane l).laneState j = laneFallow := by
  rw [(State.fallowLane_linkFrame hl s).laneState hj (fun m => laneRow_ne_portRow (by omega) (List.mem_singleton.mp m))]
  by_cases e : j = l
  · subst e; exact s.setLaneState_laneState hj
  · rw [(State.setLaneState_linkFrame (List.mem_singleton_self _) laneFallow).laneState hj (fun m => laneRow_ne e (List.mem_singleton.mp m))]
    exact h.resolve_left e

theorem fallowLanes_laneState {j : Nat} (hj : j < 12) : ∀ (ls : List Nat) (s : State), (∀ l ∈ ls, l < 12) → j ∈ ls ∨ s.laneState j = laneFallow →
    (ls.foldl State.fallowLane s).laneState j = laneFallow
  | [], _, _, h => h.resolve_left List.not_mem_nil
  | l :: ls, s, hl, h => by
    have step := s.fallowLane_laneState (hl l (.head _)) hj
    refine fallowLanes_laneState hj ls _ (fun l m => hl l (.tail _ m)) ?_
    rcases h with h | h
    · exact (List.mem_cons.mp h).elim (fun e => .inr (step (.inl e))) .inl
    · exact .inr (step (.inr h))

theorem mem_lanesOf {p l : Nat} : l ∈ lanesOf p ↔ l / 4 = p := by
  simp only [lanesOf, List.mem_cons, List.not_mem_nil, or_false]
  omega

/-- A port is held in FALLOW, and no change of its lanes is to come. -/
def State.holdPort (s : State) (p : Nat) : State := s.setLanePort p { s.lanePort p with fallow := true, change := none }
/-- The link die stops a ring port: its lanes go to FALLOW, its waits end, and it is DOWN. -/
def State.stopPort (s : State) (p : Nat) : State :=
  ((((lanesOf p).foldl State.fallowLane s).holdPort p).replyWaits p (fun _ => true) stTimeout).setPortState p portDown

theorem crystalFault_eq_stopPort (s : State) : crystalFault s = [0, 1].foldl State.stopPort s := rfl

theorem State.holdPort_fallow (s : State) (p : Nat) : ((s.holdPort p).lanePort p).fallow = true := by
  rw [State.holdPort, State.lanePort_setLanePort_same]
theorem State.holdPort_linkFrame {ks : List Nat} (s : State) (p : Nat) : LinkFrame ks s (s.holdPort p) := .setLanePort (fun _ => rfl)
theorem State.replyWaits_linkFrame {ks : List Nat} {s : State} (p : Nat) (f : LaneWait → Bool) (st : Nat) : LinkFrame ks s (s.replyWaits p f st) :=
  .after (.foldl _ _ (fun _ _ _ => State.finish_linkFrame _ _ _ _)) (.setLanePort id)
theorem State.setPortState_lnkPortState (s : State) (p : Nat) {st : Nat} (h : st < 4294967296) : (s.setPortState p st).lnkPortState p = st := by
  have written : (s.wrN (P.LNK_PORT_STATE p) st).lnkPortState p = st := (State.rdN_wrN_same _ _ _).trans (Nat.mod_eq_of_lt h)
  have signalled : ∀ t : State, (t.signal 9).lnkPortState p = t.lnkPortState p := fun t => by unfold State.signal; split <;> rfl
  unfold State.setPortState
  dsimp only
  split
  · exact (signalled _).trans written
  · exact written

/-- A stopped port is DOWN, held in FALLOW, and so are its lanes. -/
structure State.Stopped (s : State) (p : Nat) : Prop where
  state : s.lnkPortState p = portDown
  held : (s.lanePort p).fallow = true
  lanes : ∀ l ∈ lanesOf p, s.laneState l = laneFallow

/-- The rows of a port and of its lanes. -/
def portRows (p : Nat) : List Nat := P.LNK_PORT_STATE p :: (lanesOf p).map P.LNK_LANE_STATE

theorem portRow_not_mem {p q : Nat} (hq : q < 3) (ne : q ≠ p) : P.LNK_PORT_STATE q ∉ portRows p := fun m => by
  rcases List.mem_cons.mp m with e | m
  · exact portRow_ne ne e
  · obtain ⟨l, -, e⟩ := List.mem_map.mp m
    exact laneRow_ne_portRow hq e
theorem laneRow_not_mem {p l : Nat} (hp : p < 3) (ne : l / 4 ≠ p) : P.LNK_LANE_STATE l ∉ portRows p := fun m => by
  rcases List.mem_cons.mp m with e | m
  · exact laneRow_ne_portRow hp e
  · obtain ⟨j, mj, e⟩ := List.mem_map.mp m
    refine laneRow_ne (fun e => ?_) e
    exact ne (e ▸ mem_lanesOf.mp mj)

section
variable {s : State} {p : Nat} (hp : p < 2)
include hp

theorem State.fallowLanes_linkFrame : LinkFrame (portRows p) s ((lanesOf p).foldl State.fallowLane s) := by
  refine .foldl _ _ (fun s l m => ?_)
  have lane : P.LNK_LANE_STATE l ∈ portRows p := .tail _ (List.mem_map_of_mem m)
  obtain rfl := mem_lanesOf.mp m
  exact .after ((State.fallowLane_linkFrame (by omega) s).mono (fun k e => List.mem_singleton.mp e ▸ .head _)) (State.setLaneState_linkFrame lane laneFallow)

theorem State.stopPort_linkFrame : LinkFrame (portRows p) s (s.stopPort p) :=
  .after (State.setPortState_linkFrame (.head _) portDown) (.after (State.replyWaits_linkFrame _ _ _)
    (.after (State.holdPort_linkFrame _ p) (State.fallowLanes_linkFrame hp)))

theorem State.stopPort_stopped (s : State) : (s.stopPort p).Stopped p := by
  have ends : ∀ t : State, LinkFrame [P.LNK_PORT_STATE p] t ((t.replyWaits p (fun _ => true) stTimeout).setPortState p portDown) :=
    fun t => .after (State.setPortState_linkFrame (.head _) portDown) (State.replyWaits_linkFrame _ _ _)
  unfold State.stopPort
  constructor
  case state => exact State.setPortState_lnkPortState _ _ (by decide)
  case held => exact (ends _).fallow p (State.holdPort_fallow _ p)
  case lanes =>
    intro l m
    have own : ∀ j ∈ lanesOf p, j < 12 := fun j n => by have := mem_lanesOf.mp n; omega
    have other : P.LNK_LANE_STATE l ∉ [P.LNK_PORT_STATE p] := fun n => laneRow_ne_portRow (by omega) (List.mem_singleton.mp n)
    rw [(ends _).laneState (own l m) other, (State.holdPort_linkFrame (ks := []) _ p).laneState (own l m) List.not_mem_nil]
    exact fallowLanes_laneState (own l m) _ s own (.inl m)

/-- It stays stopped when the other port is stopped. -/
theorem State.Stopped.stopPort {q : Nat} (h : s.Stopped q) (hq : q < 2) (ne : q ≠ p) : (s.stopPort p).Stopped q := by
  obtain ⟨state, held, lanes⟩ := h
  have frame := State.stopPort_linkFrame (s := s) hp
  refine ⟨(frame.lnkPortState hq (portRow_not_mem (by omega) ne)).trans state, frame.fallow q held, fun l m => ?_⟩
  have own := mem_lanesOf.mp m
  exact (frame.laneState (by omega) (laneRow_not_mem (by omega) (own.symm ▸ ne))).trans (lanes l m)
end

/-- Both ring ports are stopped. -/
theorem crystalFault_stopped (s : State) {p : Nat} (hp : p < 2) : (crystalFault s).Stopped p := by
  rw [crystalFault_eq_stopPort, List.foldl_cons, List.foldl_cons, List.foldl_nil]
  obtain rfl | rfl : p = 0 ∨ p = 1 := by omega
  · exact (s.stopPort_stopped (p := 0) (by decide)).stopPort (by decide) (by decide) (by decide)
  · exact State.stopPort_stopped (by decide) _

end Sys2Proof.Machine
end

section
/-! The statement on the steps of the time base, on PPSIN, on the ageing model and on the crystal (R168, R169, R173, R174, R186, R193, R194, R416). -/

namespace Sys2Proof.Machine

/-- Settles O38: each event by the equation of its meaning (that a SET whose edge has come waits for the later of the next boundary and 10 µs after its
receipt is log 105); a failed crystal stops one port and then the other. -/
theorem timeStepsAndSourceComplete : Obligations.TimeStepsAndSourceComplete := by
  refine ⟨fun s t => ⟨?initial, ?permit, ?set, ?timeout⟩, fun s t => ⟨?edge, ?waiting, ?lost, ?measure, ?record, ?refit, ?crystal⟩⟩
  case initial =>
    intro b hs hb hw a d
    have acts := tbStep_of_initial hb hw hs
    exact ⟨fun hu hf => congrArg Host.Outcome.next (acts.trans (State.initialSet_of_source hu hf b)),
      fun hg => congrArg Host.Outcome.next (acts.trans (State.initialSet_of_gone hg b))⟩
  case permit =>
    intro b h rest hs hp hb hw a d
    have acts := tbStep_of_permit hb hw hs hp
    exact ⟨fun hj hm => congrArg Host.Outcome.next (acts.trans (State.permitStep_of_pending hp hj hm)),
      fun hg => congrArg Host.Outcome.next (acts.trans (State.permitStep_of_gone hp hg))⟩
  case set =>
    intro j b hj hs hb hw a
    exact ⟨fun he => congrArg Host.Outcome.next (tbJumpSetApply_of_named hj hs hb hw he),
      fun c he => congrArg Host.Outcome.next (tbJumpSetApply_of_edge hj hs hb hw he)⟩
  case timeout => exact fun j hj hp hs ht => congrArg Host.Outcome.next (tbJumpSetTimeout_of_elapsed hj hp hs ht)
  case edge =>
    intro hj
    have judged := ppsinEdge_of_judged hj
    exact ⟨fun hn => congrArg Host.Outcome.next (judged.trans (State.judgeEdge_of_near hn)),
      fun hu hc => congrArg Host.Outcome.next (judged.trans (State.judgeEdge_of_far hu hc))⟩
  case waiting =>
    exact fun j hj hp hs => ⟨_, congrArg Host.Outcome.next (ppsinEdge_of_waiting hj hp hs), ⟨_, rfl, rfl, rfl, rfl⟩, rfl, rfl⟩
  case lost => exact fun hm ha hu => congrArg Host.Outcome.next (ppsMissing_of_lost hm ha hu)
  case measure => exact fun m hm ht hp ho => congrArg Host.Outcome.next (ppsMissing_of_measure hm ht hp ho)
  case record => exact fun milliC hs hq hl => congrArg Host.Outcome.next (modelRecord_of_due milliC hs hq hl)
  case refit =>
    intro hr ht
    obtain ⟨n, m, e⟩ := modelRefit_of_due hr ht
    have held : ((s.at_ t).refitted n m).tb.records ≠ [] := hr
    exact ⟨_, congrArg Host.Outcome.next e, rfl, rfl, State.noteModel_age _, State.noteModel_state_of_few _ held, State.noteModel_state_cases _ held,
      fun k ha hs => State.noteModel_rd _ ha hs, rfl⟩
  case crystal =>
    have stopped : ∀ p : Fin 2, (crystalFault (s.at_ t)).Stopped p := fun p => crystalFault_stopped _ p.isLt
    exact ⟨_, rfl, fun p => ⟨(stopped p).state, (stopped p).held, (stopped p).lanes⟩⟩

end Sys2Proof.Machine
end

section
/-! The statement on the acquisition commands (R212, R222, R376), and on the plot, diagnostic read and test commands of the memory (R276 to R278, R301 to
R307). -/

namespace Sys2Proof.Machine

section
variable {s : State} {h : Hdr} {p : List Word}

/-- A command that waits for its TIME_TAG, or acts with an event and replies later. -/
theorem State.receive_scheduled_quiet {t : State} {code : Nat} {due own : Option Nat} {body : State → State × Answer} (g : s.passes code h p)
    (e : body (s.at_ h.at_) = if h.sched then (s.at_ h.at_, .later due) else (t, .quiet own)) :
    s.receive code h p body = if h.sched then (s.at_ h.at_).accept code h p due else t.hold code h p own none := by
  cases hs : h.sched with
  | true => rw [hs, if_pos rfl] at e; exact State.receive_later g e
  | false => rw [hs] at e; exact State.receive_quiet g e

/-! ### ACQ.START, ACQ.STOP, ACQ.REARM and ACQ.FORCE (R212, R222) -/

/-- Of masks one of which names something, not all are empty. -/
theorem all_zero_eq_false {xs : List Nat} {f : Nat → Nat} (h : xs.any (fun i => f i != 0) = true) : xs.all (fun i => f i == 0) = false := by
  rw [List.all_eq_not_any_not, Bool.not_eq_false']; exact h

/-- A command that names a source is an event; only ACQ.STOP has a mode, and only it is taken while the module is stopped. -/
theorem acqBody_of_named {op : Nat} (hl : p.length = 6) (hn : (List.range 5).any (fun i => word p i != 0) = true)
    (ho : op = 0x21 ∧ word p 5 < 2 ∨ word p 5 = 0 ∧ s.moduleStopped = false) :
    acqBody op h p s = if h.sched then (s, .later (some h.timeTag.toNat)) else (s.acqEnqueue h op p (boundaryAfter s.now), .quiet none) := by
  have named := all_zero_eq_false hn
  unfold acqBody
  rcases ho with ⟨rfl, h₅⟩ | ⟨h₅, hr⟩
  · simp [hl, named, Nat.not_le.mpr h₅]
  · simp [hl, named, h₅, hr]

/-- A force that names a group, with its times in range; one to all modules waits for its TIME_TAG and has no options. -/
theorem acqForceBody_of_named (hl : p.length = 7) (hn : (List.range 4).any (fun i => word p i != 0) = true) (h₄ : word p 4 ≤ 50000000)
    (hlo : 1000 ≤ word p 5) (hhi : word p 5 ≤ 50000000) (h₆ : word p 6 < 256) (hb : h.bcast = true → h.sched = true ∧ word p 6 = 0)
    (hr : s.moduleStopped = false) :
    acqForceBody h p s = if h.sched then (s, .later (some h.timeTag.toNat)) else (s.forceEnqueue h p (boundaryAfter s.now), .quiet none) := by
  have named := all_zero_eq_false hn
  have form : (p.length ≠ 7 || 256 ≤ word p 6 || (h.bcast && !h.sched)) = false := by simpa [hl, h₆] using fun b => (hb b).1
  have range : ((h.bcast && word p 6 ≠ 0) || (List.range 4).all (fun i => word p i == 0) || 50000000 < word p 4 || word p 5 < 1000
      || 50000000 < word p 5) = false := by
    simpa [-List.all_eq_false, named, h₄, hlo, hhi] using fun b => (hb b).2
  simp only [acqForceBody, form, range, hr, Bool.false_eq_true, if_false]

/-! ### ACQ.FETCH (R376) -/

/-- A fetch ends with the last of its pushes: at once when none of them has stalled. -/
theorem State.endFetch_of_fetch {data : List Word} (hf : s.clp.fetch = some (h, data)) :
    s.endFetch = if s.clp.stalled.any (fun d => d.refetch) then s else State.finish { s with clp := { s.clp with fetch := none } } 0x24 h stOk data := by
  simp only [State.endFetch, hf]

/-- A fetch of the current run while no other runs: accepted, the records pushed, and ended. -/
theorem acqFetchBody_of_span (hl : p.length = 3) (hhi : bits (word p 0) 31 16 = 0) (hlo : bits (word p 0) 7 4 = 0) (hk : bits (word p 0) 3 0 < 8)
    (hr : bits (word p 0) 15 8 = s.rdN P.REC_RUN) (hn : 0 < word p 2) (hm : word p 2 ≤ 65536) (hf : s.clp.fetch = none) :
    let f := fetchFrom (bits (word p 0) 3 0) (arrivalPort h.arrival) (word p 2) (word p 1) (s.accept 0x24 h p none, 0, none, 0)
    let data := [BitVec.ofNat 32 f.2.1, BitVec.ofNat 32 (f.2.2.1.getD 0xFFFFFFFF), BitVec.ofNat 32 f.2.2.2]
    acqFetchBody h p s = (State.endFetch { f.1 with clp := { f.1.clp with fetch := some (h, data) } }, .silent) := by
  intro f data
  have count : word p 2 ≠ 0 ∧ ¬(65536 < word p 2) := by omega
  simp [acqFetchBody, hl, hhi, hlo, Nat.not_le.mpr hk, hr, count, hf, f, data]

/-! ### MEM.PLOT.NEW and MEM.PLOT.FREE (R276 to R278, R307) -/

theorem plotNewBody_of_good (hp : plotNewCheck s.plotsAhead p = none) : plotNewBody p s = (s, .quiet (some (boundaryAfter s.now))) := by
  simp only [plotNewBody, hp]
theorem plotFreeBody_of_good (hp : plotFreeCheck s.plotsAhead p = none) : plotFreeBody p s = (s, .quiet (some (boundaryAfter s.now))) := by
  simp only [plotFreeBody, hp]

/-! ### MEM.READ (R301, R304, R305) -/

/-- What the diagnostic read of a span of words notes in both dies. -/
def State.noteDiagSpan (s : State) (granary : Bool) (first n : Nat) : State :=
  ((List.range n).map (· + first)).foldl (fun s x => (s.diagNote granary 0 x).diagNote granary 1 x) s

/-- The data of a diagnostic read: each word's halves, then the outcomes, 16 to a word. -/
def State.diagSpanData (s : State) (granary : Bool) (first n : Nat) : List Word :=
  let ws := (List.range n).map (· + first)
  ws.flatMap (fun x => let v := s.diagData granary s.active x; [lo32 v, hi32 v])
    ++ (List.range (ceilDiv n 16)).map (fun i =>
      BitVec.ofNat 32 (((ws.drop (16 * i)).take 16).mapIdx (fun j x => s.diagOut granary s.active x * 4 ^ j)).sum)

section
variable {w a n : Word} (hw : w.toNat < 256) (hr : bits w.toNat 3 1 = 0) (hn : 0 < n.toNat) (hm : n.toNat < 256)
include hw hr hn hm

/-- A diagnostic read of a span that its memory has. -/
theorem memReadWords_of_span {first : Nat} (hg : bitOf w.toNat 0 = false → bits w.toNat 7 4 = 0) (hs : memReadSpan s [w, a, n] = some (first, n.toNat)) :
    memReadWords [w, a, n] s = okay (s.noteDiagSpan (bitOf w.toNat 0) first n.toNat) (s.diagSpanData (bitOf w.toNat 0) first n.toNat) := by
  have range : (n.toNat = 0 || (!bitOf w.toNat 0 && bits w.toNat 7 4 ≠ 0)) = false := by simpa [Nat.ne_of_gt hn] using hg
  unfold memReadWords
  rw [hs]
  exact (if_neg (by simp [word, hw, hr, hm])).trans (if_neg (Bool.eq_false_iff.mp range))
end

/-- The SRAM words that a read names. -/
theorem memReadSpan_sram {a n : Word} (hm : n.toNat < 256) (ha : a.toNat + n.toNat ≤ 4194304) : memReadSpan s [0, a, n] = some (a.toNat, n.toNat) := by
  have count : bits n.toNat 7 0 = n.toNat := by rw [bits]; omega
  have sram : bitOf 0 0 = false := by decide
  simp [memReadSpan, word, count, sram, ha]

/-- The Granary words that a read of a plot names. -/
theorem memReadSpan_plot {w a n : Word} {q : Plot} (hg : bitOf w.toNat 0 = true) (hm : n.toNat < 256) (hq : s.plot? (bits w.toNat 7 4) = some q)
    (ha : a.toNat + n.toNat ≤ q.size * 131072) : memReadSpan s [w, a, n] = some (q.base * 131072 + a.toNat, n.toNat) := by
  have count : bits n.toNat 7 0 = n.toNat := by rw [bits]; omega
  simp [memReadSpan, word, count, hg, hq, ha]

/-- A read of the SRAM has the words it names as its target; one of a plot touches no SRAM word. -/
theorem readTarget_sram {a n : Word} (hn : 0 < n.toNat) (hm : n.toNat < 256) (ha : a.toNat + n.toNat ≤ 4194304) :
    readTarget s [0, a, n] = some (a.toNat, n.toNat) := by
  have count : n.toNat ≠ 0 := by omega
  have sram : bitOf 0 0 = false := by decide
  rw [readTarget, memReadSpan_sram hm ha]
  simp [word, count, sram, Nat.not_le.mpr hm]
theorem readTarget_plot {w a n : Word} (hg : bitOf w.toNat 0 = true) : readTarget s [w, a, n] = none := by simp [readTarget, word, hg]

/-- The state in which a command on a span of SRAM words finds them: what waited before is served, and a borrowed region of the span is on its return. -/
def State.touchRegions (s : State) (first n : Nat) (write : Bool) : State := (regionsOf first n).foldl (fun s v => s.touch v write) s.settle

section
variable {first n : Nat} {write : Bool} {work : SramWork} {body : State → State × Answer}

/-- A command on SRAM words that can all be reached runs at once. -/
theorem State.firmware_of_reached (hb : (regionsOf first n).find? (s.touchRegions first n write).blocked = none) :
    s.firmware (some (first, n)) write work body = body (s.touchRegions first n write) := by
  unfold State.touchRegions at hb
  simp only [State.firmware, hb]
  rfl
/-- A command on SRAM words one of which cannot be reached waits for it. -/
theorem State.firmware_of_blocked {v : Nat} (hb : (regionsOf first n).find? (s.touchRegions first n write).blocked = some v) :
    s.firmware (some (first, n)) write work body
      = ((s.touchRegions first n write).await { master := 6, word := v, since := s.time, work }, .quiet none) := by
  unfold State.touchRegions at hb
  simp only [State.firmware, hb]
  rfl
end

section
variable {a n : Word} (hn : 0 < n.toNat) (hm : n.toNat < 256)
include hn hm

section
variable (ha : a.toNat + n.toNat ≤ 4194304)
include ha

theorem memReadBody_of_reached (hb : (regionsOf a.toNat n.toNat).find? (s.touchRegions a.toNat n.toNat false).blocked = none) :
    let t := s.touchRegions a.toNat n.toNat false
    memReadBody h [0, a, n] s = okay (t.noteDiagSpan false a.toNat n.toNat) (t.diagSpanData false a.toNat n.toNat) := by
  intro t
  rw [memReadBody, readTarget_sram hn hm ha, State.firmware_of_reached hb]
  exact memReadWords_of_span (w := 0) (by decide) (by decide) hn hm (fun _ => by decide) (memReadSpan_sram hm ha)

theorem memReadBody_of_blocked {v : Nat} (hb : (regionsOf a.toNat n.toNat).find? (s.touchRegions a.toNat n.toNat false).blocked = some v) :
    memReadBody h [0, a, n] s = ((s.touchRegions a.toNat n.toNat false).await { master := 6, word := v, since := s.time, work := .memRead h [0, a, n] },
      .quiet none) := by
  rw [memReadBody, readTarget_sram hn hm ha, State.firmware_of_blocked hb]
end

/-- A read of a plot touches no region of the SRAM, so it runs at once. -/
theorem memReadBody_of_plot {w : Word} {q : Plot} (hw : w.toNat < 256) (hr : bits w.toNat 3 1 = 0) (hg : bitOf w.toNat 0 = true)
    (hq : s.plot? (bits w.toNat 7 4) = some q) (ha : a.toNat + n.toNat ≤ q.size * 131072) :
    let first := q.base * 131072 + a.toNat
    memReadBody h [w, a, n] s = okay (s.noteDiagSpan true first n.toNat) (s.diagSpanData true first n.toNat) := by
  intro first
  have run := memReadWords_of_span hw hr hn hm (fun g => absurd hg (by simp [g])) (memReadSpan_plot hg hm hq ha)
  rw [hg] at run
  rw [memReadBody, readTarget_plot hg]
  exact run
end

/-- A target and the ID of a plot make the first word of a read. -/
theorem toNat_plotWord {id : Nat} (hi : id < 16) : (BitVec.ofNat 32 (1 + 16 * id)).toNat = 1 + 16 * id := by
  simp only [BitVec.toNat_ofNat]; omega

/-! ### MEM.TEST (R303, R305) -/

/-- A mode of Table 9-10 is taken. -/
theorem memTestBody_of_mode {m : Word} (hm : m.toNat < 3) : memTestBody [m] s = okay (memTest m.toNat s) := by
  have known : ¬(4 ≤ m.toNat) ∧ m.toNat ≠ 3 := by omega
  simp [memTestBody, word, known]

/-- A mode other than STOP; a test that has not begun starts at region 0. -/
theorem memTest_of_running {mode : Nat} (hm : mode ≠ 0) : memTest mode s
    = (if s.rdN P.SRM_TEST_MODE = 0 && s.mem.test.phase = .idle then s.setTest { s.mem.test with region := 0, again := false } else s).wrN
        P.SRM_TEST_MODE mode := if_neg hm
end

/-- Settles O18: each command's own checks pass and give its effect and answer; a read by whether a word of its span lies in a borrowed region or a bank that
the test holds (that a fetch with stalled pushes ends with the last of them is log 86). -/
theorem acquisitionAndMemoryCommandsComplete : Obligations.AcquisitionAndMemoryCommandsComplete := by
  refine ⟨fun s h p => ⟨?start, ?stop, ?rearm, ?force, ?fetch⟩, fun s h p => ⟨?new, ?free, ?list, ⟨?sram, ?plot⟩, ?testStop, ?testRun⟩⟩
  case start =>
    exact fun g ⟨hl, hn⟩ h₅ hr => congrArg Host.Outcome.next (State.receive_scheduled_quiet g (acqBody_of_named hl hn (.inr ⟨h₅, hr⟩)))
  case stop => exact fun g ⟨hl, hn⟩ h₅ => congrArg Host.Outcome.next (State.receive_scheduled_quiet g (acqBody_of_named hl hn (.inl ⟨rfl, h₅⟩)))
  case rearm =>
    exact fun g ⟨hl, hn⟩ h₅ hr => congrArg Host.Outcome.next (State.receive_scheduled_quiet g (acqBody_of_named hl hn (.inr ⟨h₅, hr⟩)))
  case force =>
    exact fun g hl hn h₄ hlo hhi h₆ hb hr =>
      congrArg Host.Outcome.next (State.receive_scheduled_quiet g (acqForceBody_of_named hl hn h₄ hlo hhi h₆ hb hr))
  case fetch =>
    intro g hl hhi hlo hk hr hn hm hf f data t
    exact congrArg Host.Outcome.next ((State.receive_silent g (acqFetchBody_of_span hl hhi hlo hk hr hn hm hf)).trans (State.endFetch_of_fetch rfl))
  case new => exact fun g hp => congrArg Host.Outcome.next (State.receive_quiet g (plotNewBody_of_good hp))
  case free => exact fun g hp => congrArg Host.Outcome.next (State.receive_quiet g (plotFreeBody_of_good hp))
  case list => exact fun g => congrArg Host.Outcome.next (State.receive_final g rfl)
  case sram =>
    intro a n g hn hm ha rs t
    exact ⟨fun hb => congrArg Host.Outcome.next (State.receive_final g (memReadBody_of_reached hn hm ha hb)),
      fun v hb => congrArg Host.Outcome.next (State.receive_quiet g (memReadBody_of_blocked hn hm ha hb))⟩
  case plot =>
    intro id a n q w hi g hn hm hq ha
    have word₀ : w.toNat = 1 + 16 * id := toNat_plotWord hi
    have plot : bits w.toNat 7 4 = id := by rw [bits]; omega
    have granary : bitOf w.toNat 0 = true := by rw [bitOf, beq_iff_eq]; omega
    have read := memReadBody_of_plot (h := h) hn hm (by omega) (by rw [bits]; omega) granary (by rw [plot]; exact hq) ha
    exact congrArg Host.Outcome.next (State.receive_final g read)
  case testStop =>
    have own := forceMode_of_bits (a := 0) (lo := 0) (n := 2) (mode := 0) (by decide) []
    exact fun g => congrArg Host.Outcome.next (State.receive_final g (by rw [own]; exact memTestBody_of_mode (by decide)))
  case testRun =>
    rintro m (rfl | rfl) g
    · have own := forceMode_of_bits (a := 1) (lo := 0) (n := 2) (mode := 1) (by decide) []
      exact congrArg Host.Outcome.next (State.receive_final g (by
        rw [own, memTestBody_of_mode (by decide), memTest_of_running (by decide)]; rfl))
    · have own := forceMode_of_bits (a := 2) (lo := 0) (n := 2) (mode := 2) (by decide) []
      exact congrArg Host.Outcome.next (State.receive_final g (by
        rw [own, memTestBody_of_mode (by decide), memTest_of_running (by decide)]; rfl))

end Sys2Proof.Machine
end

section
/-! The statement on the refresh bands of the stacks and the throttle levels of the sensors (R275, R501). -/

namespace Sys2Proof.Machine

/-! ### Refresh bands (R275) -/

/-- Each band with what leads to it. -/
theorem bandOf_cases (old : Nat) (t : Int) : (bandOf old t = 2 ∧ (95000 ≤ t ∨ old = 2 ∧ 93000 ≤ t))
    ∨ (bandOf old t = 1 ∧ t < 95000 ∧ (old = 2 → t < 93000) ∧ (85000 ≤ t ∨ 1 ≤ old ∧ 83000 ≤ t))
    ∨ (bandOf old t = 0 ∧ t < 85000 ∧ (1 ≤ old → t < 83000)) := by
  simp only [bandOf, Bool.and_eq_true, decide_eq_true_eq]
  repeat' split
  all_goals omega

theorem bandOf_le_two (old : Nat) (t : Int) : bandOf old t ≤ 2 := by have := bandOf_cases old t; omega

section
variable {old : Nat} {t : Int}

theorem bandOf_eq_two : bandOf old t = 2 ↔ 95000 ≤ t ∨ (old = 2 ∧ 93000 ≤ t) := by have := bandOf_cases old t; omega
theorem bandOf_eq_one : bandOf old t = 1 ↔ (85000 ≤ t ∨ (1 ≤ old ∧ 83000 ≤ t)) ∧ t < 95000 ∧ (old = 2 → t < 93000) := by
  have := bandOf_cases old t; omega
theorem bandOf_eq_zero (h : old ≤ 2) : bandOf old t = 0 ↔ t < 85000 ∧ (1 ≤ old → t < 83000) := by have := bandOf_cases old t; omega
end

/-! ### Throttle levels (R501) -/

/-- Each class of Table 16-7 spans 10 °C from its throttle start to its orderly stop. -/
theorem classOf_span {i : Nat} {c : Int × Int} (h : classOf i = some c) : c.2 = c.1 + 10000 := by
  unfold classOf at h
  split at h
  · cases h; rfl
  · split at h
    · cases h; rfl
    · cases h

theorem levelOf_le (c : Int × Int) (t : Int) : levelOf c t ≤ 7 := by
  unfold levelOf
  split
  · exact Nat.zero_le 7
  · exact Nat.min_le_left 7 _

/-- A temperature is at a level or above once it has reached the level's entry value. -/
theorem le_levelOf_iff {c : Int × Int} {t : Int} {j : Nat} (h : c.2 = c.1 + 10000) (hj : 1 ≤ j) (h₇ : j ≤ 7) :
    j ≤ levelOf c t ↔ entryOf c j ≤ t := by
  have span : c.1 + 10000 - c.1 = 10000 := by omega
  simp only [levelOf, entryOf, h, span]
  split <;> omega

section
variable {x : SensorRuntime} {c : Int × Int} {t : Int} {now : Nat}

theorem SensorRuntime.judge_of_reached (h : x.level ≤ levelOf c t) : x.judge c t now = { x with level := levelOf c t, belowSince := none } := if_pos h

section
variable (h : levelOf c t < x.level)
include h

/-- Within 2 °C of the entry value of its level the level is held. -/
theorem SensorRuntime.judge_of_near (g : entryOf c x.level - 2000 ≤ t) : x.judge c t now = { x with belowSince := none } :=
  (if_neg (Nat.not_le.mpr h)).trans (if_neg (Int.not_lt.mpr g))

section
variable (g : t < entryOf c x.level - 2000)
include g

/-- After 1 s further below, the level falls by one. -/
theorem SensorRuntime.judge_of_waited {a : Nat} (ha : x.belowSince = some a) (hw : a + secs 1 ≤ now) : (x.judge c t now).level = x.level - 1 := by
  simp [SensorRuntime.judge, Nat.not_le.mpr h, g, ha, hw]

/-- Until then it is held, and the time since it went below stands. -/
theorem SensorRuntime.judge_of_waiting (hw : ∀ a, x.belowSince = some a → now < a + secs 1) :
    x.judge c t now = { x with belowSince := some (x.belowSince.getD now) } := by
  have waiting : now < x.belowSince.getD now + secs 1 := by
    cases hb : x.belowSince with
    | none => exact Nat.lt_add_of_pos_right (by decide)
    | some a => exact hw a hb
  exact ((if_neg (Nat.not_le.mpr h)).trans (if_pos g)).trans (if_neg (Nat.not_le.mpr waiting))
end
end
end

/-- Settles O55: the bands by their bounds; the levels by the 10 °C that each class spans; a sensor's level by how far below its entry value the reading is
and for how long (the 1 s begins anew for each level: log 90). -/
theorem temperatureBands : Obligations.TemperatureBands := by
  refine ⟨fun old t h => ⟨bandOf_eq_two, bandOf_eq_one, bandOf_eq_zero h⟩, fun i c t h => ⟨levelOf_le c t, fun j hj h₇ => ?_⟩,
    fun x c t now => ⟨fun h => ?reached, ?waited, fun h g hw => ?waiting, fun h g => ?near⟩⟩
  · exact le_levelOf_iff (classOf_span h) hj h₇
  case reached => rw [SensorRuntime.judge_of_reached h]
  case waited => exact fun h g ⟨a, ha, hw⟩ => SensorRuntime.judge_of_waited h g ha hw
  case waiting => rw [SensorRuntime.judge_of_waiting h g hw]; exact ⟨rfl, rfl⟩
  case near => rw [SensorRuntime.judge_of_near h g]; exact ⟨rfl, rfl⟩

end Sys2Proof.Machine
end

section
/-! The statement on the room that is made for a record in its store (R284). -/

namespace Sys2Proof.Machine

/-! ### The first free extent (R284) -/

section
variable {cap slots n wp : Nat} {es : List IndexEntry}

theorem extentFree_iff {c : Nat} : extentFree cap n es c = true ↔ c + n ≤ cap ∧ ∀ e ∈ es, c + n ≤ e.line ∨ e.line + e.lines ≤ c := by
  simp [extentFree]

/-- Where a free extent can begin at the earliest: at line 0, at the write position, or where a record ends. -/
def extentStarts (cap n wp : Nat) (es : List IndexEntry) : List Nat :=
  (0 :: wp :: es.map (fun e => e.line + e.lines)).filter (extentFree cap n es)

theorem extentFree_of_mem_starts {c : Nat} (h : c ∈ extentStarts cap n wp es) : extentFree cap n es c = true := (List.mem_filter.mp h).2

/-- What holds of some number holds of a least one. -/
theorem exists_least {p : Nat → Prop} {b : Nat} (hb : p b) : ∃ c, p c ∧ c ≤ b ∧ ∀ d, d < c → ¬ p d := by
  induction b using Nat.strongRecOn with
  | ind b ih =>
    by_cases lower : ∃ d, d < b ∧ p d
    · obtain ⟨d, hd, pd⟩ := lower
      obtain ⟨c, pc, hc, least⟩ := ih d hd pd
      exact ⟨c, pc, by omega, least⟩
    · exact ⟨b, hb, Nat.le_refl b, fun d hd pd => lower ⟨d, hd, pd⟩⟩

/-- Of the free extents from line 0 or from the write position on, the first is one of the starts: were it not, a record would lie in the way of the
line before, and so end where the extent begins. -/
theorem exists_start_le {a b : Nat} (ha : a = 0 ∨ a = wp) (hab : a ≤ b) (hb : extentFree cap n es b = true) :
    ∃ c ∈ extentStarts cap n wp es, a ≤ c ∧ c ≤ b := by
  obtain ⟨c, ⟨hac, hc⟩, hcb, least⟩ := exists_least (p := fun c => a ≤ c ∧ extentFree cap n es c = true) ⟨hab, hb⟩
  refine ⟨c, List.mem_filter.mpr ⟨?_, hc⟩, hac, hcb⟩
  rcases Nat.eq_or_lt_of_le hac with rfl | hlt
  · rcases ha with rfl | rfl <;> simp
  · obtain ⟨hcap, clear⟩ := extentFree_iff.mp hc
    have taken : ¬ extentFree cap n es (c - 1) = true := fun free => least (c - 1) (by omega) ⟨by omega, free⟩
    obtain ⟨e, he, hend⟩ : ∃ e ∈ es, e.line + e.lines = c := by
      refine Classical.byContradiction fun none_ends => ?_
      refine taken (extentFree_iff.mpr ⟨by omega, fun e he => ?_⟩)
      have apart := clear e he
      have ends : e.line + e.lines ≠ c := fun g => none_ends ⟨e, he, g⟩
      omega
    exact List.mem_cons_of_mem _ (List.mem_cons_of_mem _ (List.mem_map.mpr ⟨e, he, hend⟩))

/-- The extent found begins at the first start at or after the write position, else at the first start of all. -/
theorem findExtent_eq : findExtent cap n wp es
    = ((extentStarts cap n wp es).filter (fun c => decide (wp ≤ c))).min?.or (extentStarts cap n wp es).min? := by
  unfold findExtent extentStarts
  dsimp only
  split
  · next first => rw [(Prod.mk.inj first).1, Option.some_or]
  · next none_after => rw [(Prod.mk.inj none_after).1, Option.none_or, (Prod.mk.inj none_after).2]

theorem findExtent_eq_some {c : Nat} (h : findExtent cap n wp es = some c) : c ∈ extentStarts cap n wp es
    ∧ ((wp ≤ c ∧ ∀ b ∈ extentStarts cap n wp es, wp ≤ b → c ≤ b) ∨ (c < wp ∧ ∀ b ∈ extentStarts cap n wp es, c ≤ b ∧ b < wp)) := by
  rw [findExtent_eq] at h
  rcases Option.or_eq_some_iff.mp h with first | ⟨none_after, first⟩
  · obtain ⟨mem, least⟩ := List.min?_eq_some_iff.mp first
    obtain ⟨start, after⟩ := List.mem_filter.mp mem
    exact ⟨start, .inl ⟨of_decide_eq_true after, fun b hb hw => least b (List.mem_filter.mpr ⟨hb, decide_eq_true hw⟩)⟩⟩
  · obtain ⟨start, least⟩ := List.min?_eq_some_iff.mp first
    have before : ∀ b ∈ extentStarts cap n wp es, b < wp := by simpa [List.filter_eq_nil_iff] using none_after
    exact ⟨start, .inr ⟨before c start, fun b hb => ⟨least b hb, before b hb⟩⟩⟩

theorem findExtent_eq_none (h : findExtent cap n wp es = none) : extentStarts cap n wp es = [] := by
  rw [findExtent_eq] at h
  exact List.min?_eq_none_iff.mp (Option.or_eq_none_iff.mp h).2

/-! ### The place of a record (R284) -/

/-- Where a record goes in a store as it is: into the first free extent, once the index has a slot. -/
def placeOf (cap slots n wp : Nat) (es : List IndexEntry) : Option Nat := if es.length < slots then findExtent cap n wp es else none

/-- A record of `n` lines fits at a line of a store. -/
def FitsAt (cap slots n : Nat) (es : List IndexEntry) (c : Nat) : Prop :=
  es.length < slots ∧ c + n ≤ cap ∧ ∀ e ∈ es, c + n ≤ e.line ∨ e.line + e.lines ≤ c

theorem fitsAt_iff {c : Nat} : FitsAt cap slots n es c ↔ es.length < slots ∧ extentFree cap n es c = true := by rw [FitsAt, extentFree_iff]

/-- The place is the first that fits at or after the write position, in circular order. -/
theorem placeOf_eq_some {c : Nat} (h : placeOf cap slots n wp es = some c) : FitsAt cap slots n es c
    ∧ ((wp ≤ c ∧ ∀ b, wp ≤ b → FitsAt cap slots n es b → c ≤ b) ∨ (c < wp ∧ ∀ b, FitsAt cap slots n es b → c ≤ b ∧ b < wp)) := by
  have slot : es.length < slots := Nat.lt_of_not_le fun full => absurd (h.symm.trans (if_neg (Nat.not_lt.mpr full))) (by simp)
  obtain ⟨start, order⟩ := findExtent_eq_some ((if_pos slot).symm.trans h)
  refine ⟨fitsAt_iff.mpr ⟨slot, extentFree_of_mem_starts start⟩, ?_⟩
  rcases order with ⟨after, least⟩ | ⟨before, least⟩
  · refine .inl ⟨after, fun b hw hb => ?_⟩
    obtain ⟨d, hd, hwd, hdb⟩ := exists_start_le (.inr rfl) hw (fitsAt_iff.mp hb).2
    exact Nat.le_trans (least d hd hwd) hdb
  · refine .inr ⟨before, fun b hb => ?_⟩
    obtain ⟨d, hd, -, hdb⟩ := exists_start_le (.inl rfl) (Nat.zero_le b) (fitsAt_iff.mp hb).2
    refine ⟨Nat.le_trans (least d hd).1 hdb, Nat.lt_of_not_le fun hw => ?_⟩
    obtain ⟨f, hf, hwf, -⟩ := exists_start_le (.inr rfl) hw (fitsAt_iff.mp hb).2
    exact absurd (least f hf).2 (Nat.not_lt.mpr hwf)

theorem placeOf_eq_none (h : placeOf cap slots n wp es = none) (c : Nat) : ¬ FitsAt cap slots n es c := by
  intro fits
  obtain ⟨slot, free⟩ := fitsAt_iff.mp fits
  obtain ⟨d, hd, -⟩ := exists_start_le (wp := wp) (.inl rfl) (Nat.zero_le c) free
  rw [findExtent_eq_none ((if_pos slot).symm.trans h)] at hd
  cases hd

/-! ### Freeing acknowledged records, oldest first (R284) -/

theorem freeOldest_eq_none : freeOldest es = none ↔ ∀ e ∈ es, e.acked = false := by
  induction es with
  | nil => simp [freeOldest]
  | cons e es ih => cases h : e.acked <;> simp [freeOldest, h, ih]

/-- The record freed is the oldest acknowledged one. -/
theorem freeOldest_eq_some {xs : List IndexEntry} (h : freeOldest es = some xs) :
    ∃ older e newer, es = older ++ e :: newer ∧ xs = older ++ newer ∧ e.acked = true ∧ ∀ x ∈ older, x.acked = false := by
  induction es generalizing xs with
  | nil => cases h
  | cons e es ih =>
    unfold freeOldest at h
    split at h
    · next acked => exact ⟨[], e, es, rfl, (Option.some.inj h).symm, acked, by simp⟩
    · next held =>
      obtain ⟨ys, hys, rfl⟩ := Option.map_eq_some_iff.mp h
      obtain ⟨older, f, newer, rfl, rfl, acked, rest⟩ := ih hys
      exact ⟨e :: older, f, newer, rfl, rfl, acked, by simpa [held] using rest⟩

/-- Of the oldest records of an index the acknowledged ones have gone; every other record stands in its place. -/
def FreedOldest (es xs : List IndexEntry) : Prop := ∃ old new, es = old ++ new ∧ xs = old.filter (fun e => !e.acked) ++ new

theorem FreedOldest.refl (es : List IndexEntry) : FreedOldest es es := ⟨[], es, rfl, rfl⟩

/-- Freeing the oldest acknowledged record, and then others, frees the oldest acknowledged ones. -/
theorem FreedOldest.of_freeOldest {xs ys : List IndexEntry} (h : freeOldest es = some xs) (g : FreedOldest xs ys) : FreedOldest es ys := by
  obtain ⟨older, e, newer, rfl, rfl, acked, held⟩ := freeOldest_eq_some h
  have older_stay : older.filter (fun e => !e.acked) = older := List.filter_eq_self.mpr fun x hx => by simp [held x hx]
  obtain ⟨old, new, split_at, rfl⟩ := g
  rcases List.append_eq_append_iff.mp split_at with ⟨mid, rfl, rfl⟩ | ⟨mid, rfl, rfl⟩
  · exact ⟨older ++ e :: mid, new, by simp, by simp [acked, older_stay]⟩
  · have old_stay : old.filter (fun e => !e.acked) = old := List.filter_eq_self.mpr fun x hx => by simp [held x (List.mem_append_left _ hx)]
    exact ⟨old ++ mid ++ [e], newer, by simp, by rw [old_stay, List.filter_append, older_stay]; simp [acked]⟩

/-! ### Making room (R284) -/

/-- A record that fits is placed, and nothing is freed. -/
theorem makeRoom_of_place {c k : Nat} (h : placeOf cap slots n wp es = some c) : makeRoom cap slots n wp k es = (some c, es) := by
  unfold placeOf at h
  cases k <;> simp only [makeRoom, h]

/-- What making room comes to, given fuel for every record: the records left are those with the oldest acknowledged ones freed, the record has its place
among them, and without one nothing acknowledged is left. -/
theorem makeRoom_spec {k : Nat} (h : es.length ≤ k) : let r := makeRoom cap slots n wp k es
    FreedOldest es r.2 ∧ r.1 = placeOf cap slots n wp r.2 ∧ (r.1 = none → ∀ e ∈ r.2, e.acked = false) := by
  induction k generalizing es with
  | zero =>
    obtain rfl := List.eq_nil_of_length_eq_zero (Nat.le_zero.mp h)
    exact ⟨.refl _, rfl, fun _ => by simp [makeRoom]⟩
  | succ k ih =>
    cases place : placeOf cap slots n wp es with
    | some c => rw [makeRoom_of_place place]; exact ⟨.refl _, place.symm, by simp⟩
    | none =>
      cases free : freeOldest es with
      | none =>
        have refused : makeRoom cap slots n wp (k + 1) es = (none, es) := by
          unfold placeOf at place
          simp only [makeRoom, place, free]
        rw [refused]
        exact ⟨.refl _, place.symm, fun _ => freeOldest_eq_none.mp free⟩
      | some xs =>
        have next : makeRoom cap slots n wp (k + 1) es = makeRoom cap slots n wp k xs := by
          unfold placeOf at place
          simp only [makeRoom, place, free]
        obtain ⟨older, e, newer, rfl, rfl, -⟩ := freeOldest_eq_some free
        obtain ⟨freed, rest⟩ := ih (es := older ++ newer) (by simp at h ⊢; omega)
        rw [next]
        exact ⟨.of_freeOldest free freed, rest⟩
end

/-- Settles O57: the room is made by `makeRoom_spec`, and the place is the first that fits by `placeOf_eq_some`; where the record fits at once, it has
its place at once. -/
theorem roomFreed : Obligations.RoomFreed := by
  intro cap slots n wp es r fits
  obtain ⟨freed, place, refused⟩ := makeRoom_spec (cap := cap) (slots := slots) (n := n) (wp := wp) (Nat.le_refl es.length)
  refine ⟨freed, fun ⟨c, hc⟩ => ?_, fun c hc => placeOf_eq_some (place.symm.trans hc), fun h => ⟨refused h, placeOf_eq_none (place.symm.trans h)⟩⟩
  obtain ⟨d, hd⟩ := Option.ne_none_iff_exists'.mp fun none_fits => placeOf_eq_none (wp := wp) none_fits c hc
  exact congrArg Prod.snd (makeRoom_of_place hd)

end Sys2Proof.Machine
end

section
/-! The rules of the bytes, words and lines of the memories: what is read after a write, and what each operation on a word or a line leaves of the others
(R273, R293 to R295). -/

namespace Sys2Proof.Machine

/-! ### Tables -/

/-- Entries kept by their keys read as before, the others as unlisted. -/
theorem Sparse.find?_filter_key {α : Type} (f : Nat → Bool) (m : List (Nat × α)) (k : Nat) :
    Sparse.find? (m.filter (fun e => f e.1)) k = if f k then Sparse.find? m k else none := by
  induction m with
  | nil => simp
  | cons e m ih =>
    obtain ⟨a, v⟩ := e
    by_cases hk : a = k
    · subst hk
      cases hf : f a <;> simp [hf, Sparse.find?, ih]
    · cases hf : f a <;> simp [hf, Sparse.find?, hk, ih]

@[simp] theorem Sparse.get_put_same {α : Type} (d : α) (m : List (Nat × α)) (k : Nat) (v : α) : Sparse.get d (Sparse.put m k v) k = v := by
  simp [Sparse.get, Sparse.find?_put_same]

section
variable {α : Type} (d : α) (m : List (Nat × α)) {a n k : Nat}

/-- A span that both dies hold alike lists nothing. -/
theorem get_without_inside (h₀ : a ≤ k) (h₁ : k < a + n) : Sparse.get d (without m a n) k = d := by
  simp [Sparse.get, without, Sparse.find?_filter_key (fun i => decide (i < a) || decide (a + n ≤ i)), Nat.not_lt.mpr h₀, Nat.not_le.mpr h₁]
theorem get_without_outside (h : k < a ∨ a + n ≤ k) : Sparse.get d (without m a n) k = Sparse.get d m k := by
  simp [Sparse.get, without, Sparse.find?_filter_key (fun i => decide (i < a) || decide (a + n ≤ i)), h]
end

/-! ### Numbers and bytes (R6) -/

@[simp] theorem length_leBytes (n v : Nat) : (leBytes n v).length = n := by
  induction n generalizing v with
  | zero => rfl
  | succ n ih => simp [leBytes, ih]

/-- The bytes of a number spell its low part. -/
theorem leNat_leBytes (n v : Nat) : leNat (leBytes n v) = v % 256 ^ n := by
  induction n generalizing v with
  | zero => simp [leBytes, leNat, Nat.mod_one]
  | succ n ih =>
    rw [leBytes, leNat, ih, Nat.pow_succ']
    exact (BitVec.toNat_ofNat v 8 ▸ (Nat.mod_mul (a := 256)).symm)

theorem leNat_lt (bs : List Byte) : leNat bs < 256 ^ bs.length := by
  induction bs with
  | nil => exact Nat.one_pos
  | cons b bs ih =>
    have byte : b.toNat < 256 := b.isLt
    rw [leNat, List.length_cons, Nat.pow_succ]
    omega

/-- A byte of the number that a list of bytes spells. -/
theorem byte_of_leNat (bs : List Byte) (i : Nat) : BitVec.ofNat 8 (leNat bs / 256 ^ i) = bs.getD i 0 := by
  induction bs generalizing i with
  | nil => simp [leNat]
  | cons b bs ih =>
    have byte : b.toNat < 256 := b.isLt
    cases i with
    | zero => apply BitVec.eq_of_toNat_eq; simp [leNat, Nat.mod_eq_of_lt byte]
    | succ i =>
      rw [leNat, Nat.pow_succ', ← Nat.div_div_eq_div_mul, show (b.toNat + 256 * leNat bs) / 256 = leNat bs by omega, ih]
      rfl

theorem getD_readBytes (m : List (Nat × Byte)) (a : Nat) {n i : Nat} (h : i < n) : (readBytes m a n).getD i 0 = Sparse.get 0 m (a + i) := by
  induction n generalizing a i with
  | zero => omega
  | succ n ih =>
    cases i with
    | zero => rfl
    | succ i => rw [readBytes, List.getD_cons_succ, ih (a + 1) (by omega), Nat.add_assoc, Nat.add_comm 1 i]

@[simp] theorem length_readBytes (m : List (Nat × Byte)) (a n : Nat) : (readBytes m a n).length = n := by
  induction n generalizing a with
  | zero => rfl
  | succ n ih => simp [readBytes, ih]

/-- Bytes apart from those written read as before. -/
theorem readBytes_writeBytes_apart (bs : List Byte) (m : List (Nat × Byte)) {a b n : Nat} (h : b + n ≤ a ∨ a + bs.length ≤ b) :
    readBytes (writeBytes m a bs) b n = readBytes m b n := by
  induction n generalizing b with
  | zero => rfl
  | succ n ih => rw [readBytes, readBytes, ih (by omega), get_writeBytes_outside bs m a b (by omega)]

theorem length_padTo {n : Nat} {bs : List Byte} (h : bs.length ≤ n) : (padTo n bs).length = n := by simp [padTo, h]
theorem getD_padTo (n i : Nat) (bs : List Byte) : (padTo n bs).getD i 0 = bs.getD i 0 := by
  rw [List.getD_eq_getElem?_getD, List.getD_eq_getElem?_getD, padTo]
  rcases Nat.lt_or_ge i bs.length with h | h
  · rw [List.getElem?_append_left h]
  · rw [List.getElem?_append_right h, List.getElem?_eq_none h, List.getElem?_replicate]
    split <;> rfl

/-- A byte of a padded span reads as written, or as 0 behind the bytes given. -/
theorem get_writeBytes_padTo (m : List (Nat × Byte)) (a : Nat) {n i : Nat} {bs : List Byte} (h : bs.length ≤ n) (hi : i < n) :
    Sparse.get 0 (writeBytes m a (padTo n bs)) (a + i) = bs.getD i 0 := by
  have inside : i < (padTo n bs).length := by rw [length_padTo h]; exact hi
  rw [get_writeBytes_inside _ m a i inside, ← getD_padTo n, List.getD_eq_getElem?_getD,
    List.getElem?_eq_getElem inside, Option.getD_some]

/-! ### The dies -/

/-- A fold whose every step leaves what is looked at leaves it. -/
theorem foldl_view {α β : Type} (view : State → β) {f : State → α → State} (hf : ∀ s x, view (f s x) = view s) :
    ∀ (xs : List α) (s : State), view (xs.foldl f s) = view s
  | [], _ => rfl
  | x :: xs, s => (foldl_view view hf xs (f s x)).trans (hf s x)

theorem State.memDie_setMemDie (s : State) {d e : Nat} (x : DieMemory) (hd : d < 2) (he : e < 2) :
    (s.setMemDie d x).memDie e = if e = d then x else s.memDie e := by
  split
  · next h => subst h; exact Two.get_set_same _ _ _
  · next h => exact Two.get_set_other _ _ hd he h

/-! ### Words of the SRAM (R293 to R295) -/

section
variable (s : State) {d e w v : Nat} (hd : d < 2) (he : e < 2)
include hd he

theorem State.wordError_setWordError (x : WordError) :
    (s.setWordError d w x).wordError e v = if e = d ∧ v = w then x else s.wordError e v := by
  rw [State.wordError, State.setWordError, State.memDie_setMemDie _ _ hd he]
  by_cases h : e = d
  · subst h
    by_cases g : v = w
    · subst g; simp
    · simp [g, Sparse.get_set_other, State.wordError]
  · simp [h, State.wordError]
theorem State.sramStored_setWordError (x : WordError) : (s.setWordError d w x).sramStored e v = s.sramStored e v := by
  rw [State.sramStored, State.setWordError, State.memDie_setMemDie _ _ hd he]
  split
  · next h => subst h; rfl
  · rfl

theorem State.wordError_flipWord (x : W64) : (s.flipWord d w x).wordError e v = s.wordError e v := by
  rw [State.wordError, State.flipWord, State.memDie_setMemDie _ _ hd he]
  split
  · next h => subst h; rfl
  · rfl
theorem State.sramStored_flipWord_other (x : W64) (h : e ≠ d ∨ v ≠ w) : (s.flipWord d w x).sramStored e v = s.sramStored e v := by
  rw [State.sramStored, State.flipWord, State.memDie_setMemDie _ _ hd he]
  split
  · next g =>
    subst g
    rw [Sparse.get_set_other _ _ _ _ _ _ (h.resolve_left (fun f => f rfl))]
    rfl
  · rfl
end

/-- What a die holds of a word: the errors standing in it and what is stored. -/
def State.wordHeld (s : State) (d w : Nat) : WordError × W64 := (s.wordError d w, s.sramStored d w)

/-- What a read of a word returns follows from what the die holds of it. -/
theorem State.sramWord_congr {s t : State} {d w : Nat} (h : t.wordHeld d w = s.wordHeld d w) : t.sramWord d w = s.sramWord d w := by
  obtain ⟨errors, stored⟩ := Prod.mk.inj h
  rw [State.sramWord, State.sramWord, errors, stored]
theorem State.wordOut_congr {s t : State} {d w : Nat} (h : t.wordHeld d w = s.wordHeld d w) : t.wordOut d w = s.wordOut d w := by
  rw [State.wordOut, State.wordOut, (Prod.mk.inj h).1]
theorem State.wordHeld_of_mem {s t : State} (h : t.mem = s.mem) (d w : Nat) : t.wordHeld d w = s.wordHeld d w := by
  simp only [State.wordHeld, State.wordError, State.sramStored, State.memDie, h]

section
variable {s : State} {d w : Nat} (h : s.wordError d w = {})
include h

/-- A word without errors is read as stored, and clean. -/
theorem State.sramWord_of_clean : s.sramWord d w = s.sramStored d w := by rw [State.sramWord, h]; rfl
theorem State.wordOut_of_clean : s.wordOut d w = outClean := by rw [State.wordOut, h]; rfl
end

/-- What a die notes of a read leaves the memories. -/
theorem State.noteWord_mem (s : State) (d w : Nat) : (s.noteWord d w).mem = s.mem := by
  unfold State.noteWord
  dsimp only
  repeat' split
  all_goals rfl

section
variable (s : State) {d e w v : Nat} (hd : d < 2) (he : e < 2)
include hd

theorem State.wordError_writeBackWord : (s.writeBackWord d w).wordError d w = {} := by
  rw [State.writeBackWord, State.wordError_setWordError _ hd hd, if_pos ⟨rfl, rfl⟩]

include he

/-- Writing back a word changes no other word, and nothing in the other die. -/
theorem State.wordHeld_writeBackWord_other (h : e ≠ d ∨ v ≠ w) : (s.writeBackWord d w).wordHeld e v = s.wordHeld e v := by
  have other : ¬(e = d ∧ v = w) := Classical.not_and_iff_not_or_not.mpr h
  rw [State.wordHeld, State.writeBackWord, State.wordError_setWordError _ hd he, if_neg other, State.wordError_flipWord _ hd he,
    State.sramStored_setWordError _ hd he, State.sramStored_flipWord_other _ hd he _ h, State.wordHeld]
end

section
variable {s : State} {d e w v : Nat} (req : Nat) (hr : s.wordOut d w < 2)
include hr

/-- A partial write to a word that can be read writes it back (R295). -/
theorem State.partialWord_of_readable : s.partialWord d w req = (s.noteWord d w).writeBackWord d w := by
  have noted : (s.noteWord d w).wordOut d w < 2 := by
    rw [State.wordOut_congr (State.wordHeld_of_mem (s.noteWord_mem d w) d w)]
    exact hr
  unfold State.partialWord
  dsimp only
  rw [if_pos noted]
theorem State.wordError_partialWord (hd : d < 2) : (s.partialWord d w req).wordError d w = {} := by
  rw [State.partialWord_of_readable req hr, State.wordError_writeBackWord _ hd]
theorem State.wordHeld_partialWord_other (hd : d < 2) (he : e < 2) (h : e ≠ d ∨ v ≠ w) : (s.partialWord d w req).wordHeld e v = s.wordHeld e v := by
  rw [State.partialWord_of_readable req hr, State.wordHeld_writeBackWord_other _ hd he h, State.wordHeld_of_mem (s.noteWord_mem d w)]
end

/-! ### Spans that both dies hold alike (R294) -/

section
variable (s : State) (a n e : Nat)

theorem State.memDie_alikeWords : (s.alikeWords a n).memDie e = { s.memDie e with sramDiff := without (s.memDie e).sramDiff a n } := by
  unfold State.memDie State.alikeWords Two.get
  split <;> rfl
theorem State.memDie_alikeLines : (s.alikeLines a n).memDie e = { s.memDie e with granDiff := without (s.memDie e).granDiff a n } := by
  unfold State.memDie State.alikeLines Two.get
  split <;> rfl
end

/-- What a die stores of a word: the eight bytes that both dies hold, but for its difference from them. -/
theorem sramStored_eq (s : State) (e v : Nat) : s.sramStored e v
    = BitVec.ofNat 64 (leNat (readBytes s.mem.sram (8 * v) 8)) ^^^ Sparse.get 0 (s.memDie e).sramDiff v := rfl

/-- The eight bytes of a word spell it. -/
theorem ofNat_readBytes_word (m : List (Nat × Byte)) (w : Nat) (x : W64) :
    BitVec.ofNat 64 (leNat (readBytes (writeBytes m (8 * w) (leBytes 8 x.toNat)) (8 * w) 8)) = x := by
  have bytes := readBytes_writeBytes (leBytes 8 x.toNat) m (8 * w)
  rw [length_leBytes] at bytes
  rw [bytes, leNat_leBytes]
  exact BitVec.eq_of_toNat_eq (by simpa using x.isLt)

section
variable (s : State) {e w v : Nat} (he : e < 2) (va vb : W64)
include he

theorem State.memDie_storeWord : (s.storeWord w va vb).memDie e = { s.memDie e with
    sramDiff := if e = 1 then Sparse.set 0 (without (s.memDie 1).sramDiff w 1) w (va ^^^ vb) else without (s.memDie e).sramDiff w 1 } := by
  rw [State.storeWord, State.memDie_setMemDie _ _ (by decide) he]
  dsimp only
  rw [State.memDie_alikeWords, State.memDie_alikeWords]
  split
  · next h => subst h; rfl
  · rfl

/-- Storing a word leaves the errors that stand in the words, and every other word. -/
theorem State.wordError_storeWord : (s.storeWord w va vb).wordError e v = s.wordError e v := by
  rw [State.wordError, State.memDie_storeWord _ he, State.wordError]
theorem State.wordHeld_storeWord_other (h : v ≠ w) : (s.storeWord w va vb).wordHeld e v = s.wordHeld e v := by
  have bytes : readBytes (s.storeWord w va vb).mem.sram (8 * v) 8 = readBytes s.mem.sram (8 * v) 8 :=
    readBytes_writeBytes_apart _ _ (by rw [length_leBytes]; omega)
  have apart := get_without_outside (0 : W64) (s.memDie e).sramDiff (a := w) (n := 1) (k := v) (by omega)
  rw [State.wordHeld, State.wordHeld, State.wordError_storeWord _ he, sramStored_eq, sramStored_eq, bytes, State.memDie_storeWord _ he]
  split
  · next g => subst g; rw [Sparse.get_set_other _ _ _ _ _ _ h, apart]
  · rw [apart]
/-- Each die stores its own word. -/
theorem State.sramStored_storeWord : (s.storeWord w va vb).sramStored e w = if e = 0 then va else vb := by
  have bytes : BitVec.ofNat 64 (leNat (readBytes (s.storeWord w va vb).mem.sram (8 * w) 8)) = va := ofNat_readBytes_word s.mem.sram w va
  rw [sramStored_eq, bytes, State.memDie_storeWord _ he]
  rcases (by omega : e = 0 ∨ e = 1) with rfl | rfl
  · simp [get_without_inside]
  · rw [if_pos rfl, Sparse.get_set_same, ← BitVec.xor_assoc, BitVec.xor_self, BitVec.zero_xor]
    rfl
end

/-! ### Whole words written (R294) -/

/-- The bytes of the SRAM replaced. -/
def State.setSram (s : State) (m : List (Nat × Byte)) : State := { s with mem := { s.mem with sram := m } }

/-- The errors of a span of words are gone in both dies. -/
def State.clearWords (s : State) (w n : Nat) : State := (List.range n).foldl (fun s i => (s.setWordError 0 (w + i) {}).setWordError 1 (w + i) {}) s

theorem State.clearWords_succ (s : State) (w n : Nat) :
    s.clearWords w (n + 1) = ((s.clearWords w n).setWordError 0 (w + n) {}).setWordError 1 (w + n) {} := by
  rw [State.clearWords, List.range_succ, List.foldl_append]
  rfl

theorem State.writeWords_eq (s : State) (w n : Nat) (bs : List Byte) : s.writeWords w n bs
    = ((s.setSram (writeBytes s.mem.sram (8 * w) (padTo (8 * n) bs))).alikeWords w n).clearWords w n := rfl

section
variable (s : State) {e v : Nat} (w n : Nat) (bs : List Byte)

theorem State.wordError_clearWords (he : e < 2) {i : Nat} (hi : i < n) : (s.clearWords w n).wordError e (w + i) = {} := by
  induction n with
  | zero => omega
  | succ n ih =>
    rw [State.clearWords_succ, State.wordError_setWordError _ (by decide) he, State.wordError_setWordError _ (by decide) he]
    split
    · rfl
    · split
      · rfl
      · exact ih (by omega)

theorem State.sramStored_clearWords (he : e < 2) : (s.clearWords w n).sramStored e v = s.sramStored e v :=
  foldl_view (fun s => s.sramStored e v)
    (fun s i => by rw [State.sramStored_setWordError _ (by decide) he, State.sramStored_setWordError _ (by decide) he]) _ s

theorem State.clearWords_gran : (s.clearWords w n).mem.gran = s.mem.gran := foldl_view (fun s => s.mem.gran) (by intros; rfl) _ s
theorem State.clearWords_sram : (s.clearWords w n).mem.sram = s.mem.sram := foldl_view (fun s => s.mem.sram) (by intros; rfl) _ s
theorem State.clearWords_stores : (s.clearWords w n).mem.stores = s.mem.stores := foldl_view (fun s => s.mem.stores) (by intros; rfl) _ s

theorem State.writeWords_gran : (s.writeWords w n bs).mem.gran = s.mem.gran := by rw [State.writeWords_eq, State.clearWords_gran]; rfl
theorem State.writeWords_stores : (s.writeWords w n bs).mem.stores = s.mem.stores := by rw [State.writeWords_eq, State.clearWords_stores]; rfl
theorem State.writeWords_sram : (s.writeWords w n bs).mem.sram = writeBytes s.mem.sram (8 * w) (padTo (8 * n) bs) := by
  rw [State.writeWords_eq, State.clearWords_sram]; rfl

theorem State.wordError_writeWords (he : e < 2) {i : Nat} (hi : i < n) : (s.writeWords w n bs).wordError e (w + i) = {} := by
  rw [State.writeWords_eq, State.wordError_clearWords _ _ _ he hi]

theorem State.sramStored_writeWords (he : e < 2) {i : Nat} (hi : i < n) : (s.writeWords w n bs).sramStored e (w + i)
    = BitVec.ofNat 64 (leNat (readBytes (s.writeWords w n bs).mem.sram (8 * (w + i)) 8)) := by
  have alike : Sparse.get 0 (((s.setSram (writeBytes s.mem.sram (8 * w) (padTo (8 * n) bs))).alikeWords w n).memDie e).sramDiff (w + i) = 0 := by
    rw [State.memDie_alikeWords]
    exact get_without_inside 0 _ (by omega) (by omega)
  rw [State.writeWords_sram, State.writeWords_eq, State.sramStored_clearWords _ _ _ he, sramStored_eq, alike]
  exact BitVec.xor_zero

/-- Both dies return the bytes written, and zeros behind them. -/
theorem State.sramByte_writeWords (he : e < 2) (hb : bs.length ≤ 8 * n) {i : Nat} (hi : i < 8 * n) :
    (s.writeWords w n bs).sramByte e (8 * w + i) = bs.getD i 0 := by
  have word : (8 * w + i) / 8 = w + i / 8 := by omega
  have place : (8 * w + i) % 8 = i % 8 := by omega
  have byte : 8 * (w + i / 8) + i % 8 = 8 * w + i := by omega
  have small : leNat (readBytes (s.writeWords w n bs).mem.sram (8 * (w + i / 8)) 8) < 2 ^ 64 := by
    have bound := leNat_lt (readBytes (s.writeWords w n bs).mem.sram (8 * (w + i / 8)) 8)
    rwa [length_readBytes] at bound
  rw [State.sramByte, word, place, State.sramWord_of_clean (State.wordError_writeWords s w n bs he (by omega)),
    State.sramStored_writeWords s w n bs he (by omega), BitVec.toNat_ofNat, Nat.mod_eq_of_lt small, byte_of_leNat,
    getD_readBytes _ _ (by omega), byte, State.writeWords_sram, get_writeBytes_padTo _ _ hb hi]
end

/-! ### Lines of the Granary (R273, R294) -/

/-- The bytes of the Granary replaced. -/
def State.setGran (s : State) (m : List (Nat × Byte)) : State := { s with mem := { s.mem with gran := m } }

/-- The errors of a span of lines are gone in both dies. -/
def State.clearLines (s : State) (l n : Nat) : State := (List.range n).foldl (fun s i => (s.setLineError 0 (l + i) {}).setLineError 1 (l + i) {}) s

theorem State.clearLines_succ (s : State) (l n : Nat) :
    s.clearLines l (n + 1) = ((s.clearLines l n).setLineError 0 (l + n) {}).setLineError 1 (l + n) {} := by
  rw [State.clearLines, List.range_succ, List.foldl_append]
  rfl

theorem State.writeLines_eq (s : State) (l n : Nat) (bs : List Byte) : s.writeLines l n bs
    = ((((s.setGran (writeBytes s.mem.gran (64 * l) (padTo (64 * n) bs))).alikeLines (64 * l) (64 * n)).countIn 0 6 1 n).countIn 1 6 1 n).clearLines l n :=
  rfl

section
variable (s : State) {d e v : Nat} (l n : Nat) (bs : List Byte)

theorem State.lineError_setLineError (hd : d < 2) (he : e < 2) (x : LineError) :
    (s.setLineError d l x).lineError e v = if e = d ∧ v = l then x else s.lineError e v := by
  rw [State.lineError, State.setLineError, State.memDie_setMemDie _ _ hd he]
  by_cases h : e = d
  · subst h
    by_cases g : v = l
    · subst g; simp
    · simp [g, Sparse.get_set_other, State.lineError]
  · simp [h, State.lineError]
theorem State.granStored_setLineError (hd : d < 2) (he : e < 2) (x : LineError) : (s.setLineError d l x).granStored e v = s.granStored e v := by
  rw [State.granStored, State.setLineError, State.memDie_setMemDie _ _ hd he]
  split
  · next h => subst h; rfl
  · rfl

theorem State.lineError_clearLines (he : e < 2) {i : Nat} (hi : i < n) : (s.clearLines l n).lineError e (l + i) = {} := by
  induction n with
  | zero => omega
  | succ n ih =>
    rw [State.clearLines_succ, State.lineError_setLineError _ _ (by decide) he, State.lineError_setLineError _ _ (by decide) he]
    split
    · rfl
    · split
      · rfl
      · exact ih (by omega)

theorem State.granStored_clearLines (he : e < 2) : (s.clearLines l n).granStored e v = s.granStored e v :=
  foldl_view (fun s => s.granStored e v)
    (fun s i => by rw [State.granStored_setLineError _ _ (by decide) he, State.granStored_setLineError _ _ (by decide) he]) _ s

theorem State.clearLines_gran : (s.clearLines l n).mem.gran = s.mem.gran := foldl_view (fun s => s.mem.gran) (by intros; rfl) _ s
theorem State.clearLines_sram : (s.clearLines l n).mem.sram = s.mem.sram := foldl_view (fun s => s.mem.sram) (by intros; rfl) _ s
theorem State.clearLines_stores : (s.clearLines l n).mem.stores = s.mem.stores := foldl_view (fun s => s.mem.stores) (by intros; rfl) _ s

theorem State.writeLines_sram : (s.writeLines l n bs).mem.sram = s.mem.sram := by rw [State.writeLines_eq, State.clearLines_sram]; rfl
theorem State.writeLines_stores : (s.writeLines l n bs).mem.stores = s.mem.stores := by rw [State.writeLines_eq, State.clearLines_stores]; rfl
theorem State.writeLines_gran : (s.writeLines l n bs).mem.gran = writeBytes s.mem.gran (64 * l) (padTo (64 * n) bs) := by
  rw [State.writeLines_eq, State.clearLines_gran]; rfl

theorem State.lineError_writeLines (he : e < 2) {i : Nat} (hi : i < n) : (s.writeLines l n bs).lineError e (l + i) = {} := by
  rw [State.writeLines_eq, State.lineError_clearLines _ _ _ he hi]

theorem State.granStored_writeLines (he : e < 2) {i : Nat} (hi : i < 64 * n) :
    (s.writeLines l n bs).granStored e (64 * l + i) = Sparse.get 0 (s.writeLines l n bs).mem.gran (64 * l + i) := by
  have alike : Sparse.get 0 ((((s.setGran (writeBytes s.mem.gran (64 * l) (padTo (64 * n) bs))).alikeLines (64 * l) (64 * n)).memDie e).granDiff)
      (64 * l + i) = 0 := by
    rw [State.memDie_alikeLines]
    exact get_without_inside 0 _ (by omega) (by omega)
  rw [State.writeLines_gran, State.writeLines_eq, State.granStored_clearLines _ _ _ he]
  exact (congrArg _ alike).trans BitVec.xor_zero

/-- A byte of a line without errors is read as stored. -/
theorem State.granByte_of_clean {s : State} {d a : Nat} (h : s.lineError d (a / 64) = {}) : s.granByte d a = s.granStored d a := by
  rw [State.granByte, h]
  rfl

/-- Both dies return the bytes written, and zeros behind them. -/
theorem State.granByte_writeLines (he : e < 2) (hb : bs.length ≤ 64 * n) {i : Nat} (hi : i < 64 * n) :
    (s.writeLines l n bs).granByte e (64 * l + i) = bs.getD i 0 := by
  have clean := State.lineError_writeLines s l n bs he (i := i / 64) (by omega)
  rw [show l + i / 64 = (64 * l + i) / 64 by omega] at clean
  rw [State.granByte_of_clean clean, State.granStored_writeLines s l n bs he hi, State.writeLines_gran, get_writeBytes_padTo _ _ hb hi]
end

end Sys2Proof.Machine
end

section
/-! The statement on the request that a port of the SRAM serves, and on atomic operations (R289, R292, R295). -/

namespace Sys2Proof.Machine

/-! ### The request served (R289) -/

section
variable {c : Nat} {x y z : SramWait}

/-- None of the requests comes before one that is served first: an aged one is aged, and among those alike in age its master is the lowest. -/
theorem SramWait.not_before_iff :
    SramWait.before c y x = false ↔ (y.aged c = true → x.aged c = true) ∧ (y.aged c = x.aged c → x.master ≤ y.master) := by
  unfold SramWait.before
  cases y.aged c <;> cases x.aged c <;> simp
theorem SramWait.master_lt_of_before (h : SramWait.before c x y = true) (e : y.aged c = x.aged c) : x.master < y.master := by
  simpa [SramWait.before, e] using h
theorem SramWait.before_asymm (h : SramWait.before c y x = true) : SramWait.before c x y = false := by
  unfold SramWait.before at h ⊢
  by_cases e : y.aged c = x.aged c
  · rw [if_pos e] at h
    rw [if_pos e.symm]
    exact decide_eq_false (Nat.lt_asymm (of_decide_eq_true h))
  · rw [if_neg e] at h
    rw [if_neg (Ne.symm e)]
    exact Bool.eq_false_iff.mpr fun aged => e (h.trans aged.symm)
/-- What stands before neither of two stands not before the one that the other does not stand before. -/
theorem SramWait.not_before_trans (h : SramWait.before c y x = false) (g : SramWait.before c z y = false) : SramWait.before c z x = false := by
  rw [SramWait.not_before_iff] at h g ⊢
  refine ⟨fun a => h.1 (g.1 a), fun e => ?_⟩
  have alike : y.aged c = x.aged c := Bool.eq_iff_iff.mpr ⟨h.1, fun a => g.1 (e.trans a)⟩
  exact Nat.le_trans (h.2 alike) (g.2 (e.trans alike.symm))
end

/-- The request served is the first of those that no other comes before. -/
theorem servedFirst_spec {c : Nat} {xs : List SramWait} (h : xs ≠ []) : ∃ pre x post, servedFirst c xs = some x ∧ xs = pre ++ x :: post
    ∧ (∀ y ∈ xs, SramWait.before c y x = false) ∧ ∀ y ∈ pre, SramWait.before c x y = true := by
  induction xs with
  | nil => exact absurd rfl h
  | cons x xs ih =>
    have irrefl : ∀ z, SramWait.before c z z = false := fun z => by simp [SramWait.before]
    by_cases none_else : xs = []
    · subst none_else
      exact ⟨[], x, [], rfl, rfl, by simp [irrefl], by simp⟩
    · obtain ⟨pre, y, post, served, split_at, least, first⟩ := ih none_else
      cases hb : SramWait.before c y x with
      | true =>
        refine ⟨x :: pre, y, post, by simp [servedFirst, served, hb], by rw [split_at]; rfl, ?_, ?_⟩
        · simpa using ⟨SramWait.before_asymm hb, least⟩
        · simpa using ⟨hb, first⟩
      | false =>
        refine ⟨[], x, xs, by simp [servedFirst, served, hb], rfl, ?_, by simp⟩
        simpa [irrefl] using fun z hz => SramWait.not_before_trans hb (least z hz)

/-! ### The bits of an access in its word (R292) -/

/-- A number with `w` bits from bit `s` on replaced. -/
def replaceBits (o s w q : Nat) : Nat := o - o / 2 ^ s % 2 ^ w * 2 ^ s + q * 2 ^ s

theorem replaceBits_eq (o s w q : Nat) : replaceBits o s w q = 2 ^ s * (2 ^ w * (o / 2 ^ s / 2 ^ w) + q) + o % 2 ^ s := by
  have low := Nat.div_add_mod o (2 ^ s)
  have high := Nat.div_add_mod (o / 2 ^ s) (2 ^ w)
  rw [← high, Nat.mul_add] at low
  rw [replaceBits, Nat.mul_add, Nat.mul_comm _ (2 ^ s), Nat.mul_comm q]
  omega

section
variable (o s w : Nat) {q : Nat} (hq : q < 2 ^ w)
include hq

theorem replaceBits_part : replaceBits o s w q / 2 ^ s % 2 ^ w = q := by
  rw [replaceBits_eq, Nat.mul_add_div (Nat.two_pow_pos s), Nat.div_eq_of_lt (Nat.mod_lt _ (Nat.two_pow_pos s)), Nat.add_zero, Nat.mul_add_mod,
    Nat.mod_eq_of_lt hq]
theorem testBit_replaceBits {j : Nat} (hj : j < s ∨ s + w ≤ j) : (replaceBits o s w q).testBit j = o.testBit j := by
  have below : replaceBits o s w q % 2 ^ s = o % 2 ^ s := by rw [replaceBits_eq, Nat.mul_add_mod, Nat.mod_mod]
  have above : replaceBits o s w q / 2 ^ (s + w) = o / 2 ^ (s + w) := by
    rw [Nat.pow_add, ← Nat.div_div_eq_div_mul, ← Nat.div_div_eq_div_mul, replaceBits_eq, Nat.mul_add_div (Nat.two_pow_pos s),
      Nat.div_eq_of_lt (Nat.mod_lt _ (Nat.two_pow_pos s)), Nat.add_zero, Nat.mul_add_div (Nat.two_pow_pos w), Nat.div_eq_of_lt hq, Nat.add_zero]
  rcases hj with h | h
  · simpa [Nat.testBit_mod_two_pow, h] using congrArg (Nat.testBit · j) below
  · have shifted := congrArg (Nat.testBit · (j - (s + w))) above
    simpa [Nat.testBit_div_two_pow, h] using shifted
theorem replaceBits_lt {n : Nat} (ho : o < 2 ^ n) (h : s + w ≤ n) : replaceBits o s w q < 2 ^ n := by
  refine Nat.lt_pow_two_of_testBit _ fun i hi => ?_
  rw [testBit_replaceBits o s w hq (.inr (Nat.le_trans h hi))]
  exact Nat.testBit_lt_two_pow (Nat.lt_of_lt_of_le ho (Nat.pow_le_pow_right (by decide) hi))
end

theorem merge_eq (a : SramAccess) (old x : W64) : a.merge old x = BitVec.ofNat 64 (replaceBits old.toNat a.shift a.width (x.toNat % 2 ^ a.width)) := by
  have small : old.toNat / 2 ^ a.shift % 2 ^ a.width < 2 ^ 64 :=
    Nat.lt_of_le_of_lt (Nat.mod_le _ _) (Nat.lt_of_le_of_lt (Nat.div_le_self _ _) old.isLt)
  rw [SramAccess.merge, SramAccess.part, BitVec.toNat_ofNat, Nat.mod_eq_of_lt small, replaceBits]

/-- Of the merged word the bits outside the access are the old ones. -/
theorem getLsbD_merge_other (a : SramAccess) (old x : W64) {j : Nat} (hj : j < 64) (h : j < a.shift ∨ a.shift + a.width ≤ j) :
    (a.merge old x).getLsbD j = old.getLsbD j := by
  rw [merge_eq, BitVec.getLsbD_ofNat, testBit_replaceBits _ _ _ (Nat.mod_lt _ (Nat.two_pow_pos _)) h, decide_eq_true hj, Bool.true_and]
  rfl

section
variable {a : SramAccess} (ha : a.atomic = true)
include ha

/-- An atomic operation works on 32 or 64 bits, which lie within its word. -/
theorem atomic_width : a.width = 32 ∨ a.width = 64 := by
  obtain h | h | h : a.size.val < 2 ∨ a.size.val = 2 ∨ a.size.val = 3 := by omega
  all_goals simp [SramAccess.width, ha, h]
theorem atomic_shift_add_width_le : a.shift + a.width ≤ 64 := by
  unfold SramAccess.shift
  rcases atomic_width ha with h | h <;> rw [h] <;> omega

/-- The bits of the access in the merged word. -/
theorem part_merge (old x : W64) : a.part (a.merge old x) = BitVec.ofNat 64 (x.toNat % 2 ^ a.width) := by
  have low := Nat.mod_lt x.toNat (Nat.two_pow_pos a.width)
  have bound := replaceBits_lt old.toNat a.shift a.width low old.isLt (atomic_shift_add_width_le ha)
  rw [merge_eq, SramAccess.part, BitVec.toNat_ofNat, Nat.mod_eq_of_lt bound, replaceBits_part _ _ _ low]
/-- ADD wraps modulo the word size (R292). -/
theorem part_merge_add (h : a.kind = .add) (old : W64) : a.part (a.merge old (a.result (a.part old)))
    = BitVec.ofNat 64 (((a.part old).toNat + (a.data.getD 0 0).toNat) % 2 ^ a.width) := by
  have divides : 2 ^ a.width ∣ 2 ^ 64 := Nat.pow_dvd_pow 2 (Nat.le_trans (Nat.le_add_left _ _) (atomic_shift_add_width_le ha))
  rw [part_merge ha, SramAccess.result, h, BitVec.toNat_add, Nat.mod_mod_of_dvd _ divides]
theorem part_merge_swap (h : a.kind = .swap) (old : W64) : a.part (a.merge old (a.result (a.part old)))
    = BitVec.ofNat 64 ((a.data.getD 0 0).toNat % 2 ^ a.width) := by
  rw [part_merge ha, SramAccess.result, h]
end

/-! ### Atomic operations (R292, R295) -/

/-- What an access returns to its master leaves what the dies hold. -/
theorem State.wordHeld_setReturned (s : State) (m : Nat) (x : Two (Option W64)) (d w : Nat) : (s.setReturned m x).wordHeld d w = s.wordHeld d w := rfl
theorem State.setReturned_returned (s : State) (m : Nat) (x : Two (Option W64)) : (s.setReturned m x).mem.returned = Sparse.put s.mem.returned m x := rfl

/-- The word that an atomic operation stores in a die. -/
def State.atomicWord (s : State) (a : SramAccess) (w d : Nat) : W64 := a.merge (s.sramWord d w) (a.result (a.part (s.sramWord d w)))

section
variable {s : State} {a : SramAccess} {w : Nat} (h₀ : s.wordOut 0 w < 2) (h₁ : s.wordOut 1 w < 2)
include h₀ h₁

theorem State.access_of_atomic (ha : a.atomic = true) : s.access a w
    = ((((s.partialWord 0 w a.master).partialWord 1 w a.master).storeWord w (s.atomicWord a w 0) (s.atomicWord a w 1)).setReturned a.master
        ⟨some (a.part (s.sramWord 0 w)), some (a.part (s.sramWord 1 w))⟩) := by
  have writes : a.writes = true := by
    unfold SramAccess.atomic at ha
    rw [SramAccess.writes, Bool.or_assoc, ha, Bool.or_true]
  simp [State.access, State.accessModify, State.returns, writes, ha, Nat.not_le.mpr h₀, Nat.not_le.mpr h₁, State.atomicWord]

/-- The reads of both dies leave the word without errors, and every other word as it was. -/
theorem State.partialWord_both (req : Nat) {e : Nat} (he : e < 2) : let t := (s.partialWord 0 w req).partialWord 1 w req
    t.wordError e w = {} ∧ ∀ v, v ≠ w → t.wordHeld e v = s.wordHeld e v := by
  intro t
  have second : (s.partialWord 0 w req).wordOut 1 w < 2 := by
    rw [State.wordOut_congr (State.wordHeld_partialWord_other req h₀ (by decide) (by decide) (.inl (by decide)))]
    exact h₁
  refine ⟨?_, fun v hv => ?_⟩
  · obtain rfl | rfl : e = 0 ∨ e = 1 := by omega
    · have kept := State.wordHeld_partialWord_other req second (e := 0) (v := w) (by decide) (by decide) (.inl (by decide))
      exact (Prod.mk.inj kept).1.trans (State.wordError_partialWord req h₀ (by decide))
    · exact State.wordError_partialWord req second (by decide)
  · rw [State.wordHeld_partialWord_other req second (by decide) he (.inr hv), State.wordHeld_partialWord_other req h₀ (by decide) he (.inr hv)]

section
variable (ha : a.atomic = true) {d : Nat} (hd : d < 2)
include ha hd

/-- Each die holds the word that the operation makes of its own, without errors; every other word stays as it was. -/
theorem State.access_atomic_wordHeld : (s.access a w).wordHeld d w = ({}, s.atomicWord a w d) := by
  rw [State.access_of_atomic h₀ h₁ ha, State.wordHeld_setReturned, State.wordHeld, State.wordError_storeWord _ hd,
    (State.partialWord_both h₀ h₁ _ hd).1, State.sramStored_storeWord _ hd]
  obtain rfl | rfl : d = 0 ∨ d = 1 := by omega
  · rfl
  · rfl
theorem State.access_atomic_other {v : Nat} (hv : v ≠ w) : (s.access a w).wordHeld d v = s.wordHeld d v := by
  rw [State.access_of_atomic h₀ h₁ ha, State.wordHeld_setReturned, State.wordHeld_storeWord_other _ hd _ _ hv,
    (State.partialWord_both h₀ h₁ _ hd).2 v hv]
theorem State.access_atomic_returned : (Sparse.get (⟨none, none⟩ : Two (Option W64)) (s.access a w).mem.returned a.master.val).get d
    = some (a.part (s.sramWord d w)) := by
  rw [State.access_of_atomic h₀ h₁ ha, State.setReturned_returned, Sparse.get_put_same]
  obtain rfl | rfl : d = 0 ∨ d = 1 := by omega
  · rfl
  · rfl
end
end

/-- Settles O60: the request by `servedFirst_spec`, since none comes before it (the cycle is log 106, the port's queue log 109); an atomic operation by the
word it stores in each die, whose bits are those of `merge`. -/
theorem sramServesInOrder : Obligations.SramServesInOrder := by
  refine ⟨fun c xs h => ?served, fun c => rfl, fun s a w d ha h₀ h₁ => ?atomic⟩
  case served =>
    obtain ⟨pre, x, post, served, split_at, least, first⟩ := servedFirst_spec (c := c) h
    exact ⟨pre, x, post, served, split_at, fun y hy => (SramWait.not_before_iff.mp (least y hy)).1,
      fun y hy => (SramWait.not_before_iff.mp (least y hy)).2, fun y hy e => SramWait.master_lt_of_before (first y hy) e⟩
  case atomic =>
    intro t old new
    obtain ⟨clean, stored⟩ := Prod.mk.inj (State.access_atomic_wordHeld h₀ h₁ ha d.isLt)
    have merged : new = a.merge old (a.result (a.part old)) := (State.sramWord_of_clean clean).trans stored
    rw [merged]
    exact ⟨State.access_atomic_returned h₀ h₁ ha d.isLt, fun h => part_merge_add ha h old, fun h => part_merge_swap ha h old,
      fun j hj h => getLsbD_merge_other a old _ hj h, State.wordOut_of_clean clean,
      fun v hv => State.sramWord_congr (State.access_atomic_other h₀ h₁ ha d.isLt hv)⟩

end Sys2Proof.Machine
end

section
/-! The statement on where a stored record stands in its store, and on what storing it leaves of the memories (R283, R284, R294; log 6). -/

namespace Sys2Proof.Machine

/-! ### The bytes of a record (R237, R241) -/

theorem length_bytesOf64 (ws : List W64) : (bytesOf64 ws).length = 8 * ws.length := by
  induction ws with
  | nil => rfl
  | cons w ws ih => rw [bytesOf64, List.flatMap_cons, List.length_append, length_leBytes, ← bytesOf64, ih, List.length_cons]; omega
theorem length_gapWords (gs : List GapEntry) : (gs.flatMap GapEntry.words).length = 4 * gs.length := by
  induction gs with
  | nil => rfl
  | cons g gs ih => rw [List.flatMap_cons, List.length_append, ih, List.length_cons]; exact (by simp [GapEntry.words]; omega)

/-- A record has as many bytes as its LENGTH says, and its lines hold them. -/
theorem Record.length_bytes (r : Record) : r.bytes.length = r.length := by
  rw [Record.bytes, List.length_append, length_leBytes, length_bytesOf64, Record.words, List.length_append, List.length_append, length_gapWords,
    Record.length]
  simp only [List.length_cons, List.length_nil]
  omega
theorem Record.length_bytes_le (r : Record) : r.bytes.length ≤ 64 * ceilDiv r.length 64 := by
  rw [r.length_bytes, ceilDiv]
  omega

/-! ### What storing a record leaves (R284, R305, R372) -/

theorem State.pushOne_mem (s : State) (x : Descriptor) : (s.pushOne x).mem = s.mem := by
  unfold State.pushOne
  dsimp only
  split <;> rfl
theorem State.pushAll_mem (s : State) (ds : List Descriptor) : (s.pushAll ds).mem = s.mem := foldl_view (fun s => s.mem) State.pushOne_mem ds s

/-- The requests for words of the SRAM touch the background test alone. -/
theorem State.touch_mem (s : State) (w : Nat) (b : Bool) : ∃ x, (s.touch w b).mem = { s.mem with test := x } := by
  unfold State.touch State.forceReturn
  dsimp only
  repeat' split
  all_goals exact ⟨_, rfl⟩

section
variable (s : State) (m w n : Nat) (b : Bool)

theorem State.touchSpan_view {β : Type} (view : MemState → β) (hv : ∀ x t, view { x with test := t } = view x) :
    view (s.touchSpan m w n b).mem = view s.mem := by
  refine foldl_view (fun s => view s.mem) (fun s v => ?_) _ s
  obtain ⟨t, ht⟩ := s.touch_mem v b
  have touched : view (s.touch v b).mem = view s.mem := by rw [ht, hv]
  dsimp only
  split
  · exact (hv _ _).trans touched
  · exact touched

theorem State.touchSpan_gran : (s.touchSpan m w n b).mem.gran = s.mem.gran := s.touchSpan_view m w n b MemState.gran (fun _ _ => rfl)
theorem State.touchSpan_sram : (s.touchSpan m w n b).mem.sram = s.mem.sram := s.touchSpan_view m w n b MemState.sram (fun _ _ => rfl)
theorem State.touchSpan_stores : (s.touchSpan m w n b).mem.stores = s.mem.stores := s.touchSpan_view m w n b MemState.stores (fun _ _ => rfl)
end

/-! ### States with the same memories -/

section
variable {s t : State} (h : t.mem = s.mem) (d a : Nat)
include h

theorem State.lineError_of_mem : t.lineError d a = s.lineError d a := by simp only [State.lineError, State.memDie, h]
theorem State.wordError_of_mem : t.wordError d a = s.wordError d a := by simp only [State.wordError, State.memDie, h]
theorem State.sramByte_of_mem : t.sramByte d a = s.sramByte d a := by
  rw [State.sramByte, State.sramByte, State.sramWord_congr (State.wordHeld_of_mem h d _)]
/-- A byte of the Granary is read by the slice that is marked failed too, but not where its line has no errors. -/
theorem State.granByte_of_mem (hc : s.lineError d (a / 64) = {}) : t.granByte d a = s.granByte d a := by
  rw [State.granByte_of_clean hc, State.granByte_of_clean ((State.lineError_of_mem h d _).trans hc)]
  simp only [State.granStored, State.memDie, h]
end

section
variable {s t : State} {l w n : Nat} {bs : List Byte}

/-- What stands in the memories once whole lines, or whole words, are written: the bytes, zeros behind them, clean in both dies, and all else as before. -/
theorem State.written_lines (h : t.mem = (s.writeLines l n bs).mem) (hb : bs.length ≤ 64 * n) : t.mem.sram = s.mem.sram
    ∧ (∀ e i, e < 2 → i < 64 * n → t.granByte e (64 * l + i) = bs.getD i 0)
    ∧ (∀ j, j < 64 * l ∨ 64 * l + 64 * n ≤ j → Sparse.get 0 t.mem.gran j = Sparse.get 0 s.mem.gran j)
    ∧ ∀ e i, e < 2 → i < n → t.lineError e (l + i) = {} := by
  refine ⟨by rw [h, State.writeLines_sram], fun e i he hi => ?_, fun j hj => ?_, fun e i he hi => ?_⟩
  · have clean := State.lineError_writeLines s l n bs he (i := i / 64) (by omega)
    rw [show l + i / 64 = (64 * l + i) / 64 by omega] at clean
    rw [State.granByte_of_mem h e _ clean, State.granByte_writeLines s l n bs he hb hi]
  · rw [h, State.writeLines_gran]
    exact get_writeBytes_outside _ _ _ _ (by rwa [length_padTo hb])
  · rw [State.lineError_of_mem h, State.lineError_writeLines s l n bs he hi]
theorem State.written_words (h : t.mem = (s.writeWords w n bs).mem) (hb : bs.length ≤ 8 * n) : t.mem.gran = s.mem.gran
    ∧ (∀ e i, e < 2 → i < 8 * n → t.sramByte e (8 * w + i) = bs.getD i 0)
    ∧ (∀ j, j < 8 * w ∨ 8 * w + 8 * n ≤ j → Sparse.get 0 t.mem.sram j = Sparse.get 0 s.mem.sram j)
    ∧ ∀ e i, e < 2 → i < n → t.wordError e (w + i) = {} := by
  refine ⟨by rw [h, State.writeWords_gran], fun e i he hi => ?_, fun j hj => ?_, fun e i he hi => ?_⟩
  · rw [State.sramByte_of_mem h, State.sramByte_writeWords s w n bs he hb hi]
  · rw [h, State.writeWords_sram]
    exact get_writeBytes_outside _ _ _ _ (by rwa [length_padTo hb])
  · rw [State.wordError_of_mem h, State.wordError_writeWords s w n bs he hi]
end

/-! ### The lines of a record (R283, R294; log 6) -/

/-- A plot begins at a whole line, and so does the record area of the SRAM. -/
theorem State.storeBase_lines (s : State) (id : Nat) : 64 * (s.storeBase id / 64) = s.storeBase id := by
  unfold State.storeBase
  split <;> omega

section
variable (s : State) (id c n : Nat) (bs : List Byte)

theorem State.writeRecord_stores : (s.writeRecord id c n bs).mem.stores = s.mem.stores := by
  unfold State.writeRecord
  split
  · rw [State.writeWords_stores, State.touchSpan_stores]
  · rw [State.writeLines_stores]

/-- A record in a plot takes whole lines of the Granary. -/
theorem State.writeRecord_of_plot (h : id ≠ sramStore) : s.writeRecord id c n bs = s.writeLines (s.storeBase id / 64 + c) n bs := if_neg h
/-- One in the record area takes whole lines of the SRAM. -/
theorem State.writeRecord_of_sram (h : id = sramStore) : s.writeRecord id c n bs
    = (s.touchSpan reqBuilder (262144 + 8 * c) (8 * n) true).writeWords (262144 + 8 * c) (8 * n) bs := if_pos h
end

/-- The index entry of a stored record. -/
def Record.entry (r : Record) (dir c : Nat) : IndexEntry :=
  { kind := r.kind, seq := r.seq, run := r.run, time := r.time, line := c, lines := ceilDiv r.length 64, length := r.length, dir := dir }

section
variable (s : State) (r : Record) (dir c : Nat) (es : List IndexEntry)

/-- The room made for a record in the store of its kind. -/
def State.roomFor : Option Nat × List IndexEntry :=
  let id := s.storeFor r.kind
  makeRoom (s.storeLines id) (s.storeSlots id) (ceilDiv r.length 64) (s.store id).wp (s.store id).entries.length (s.store id).entries

/-- The store of a record that goes to line `c`, `es` being the records left there. -/
def State.storeWith : Store := { wp := (c + ceilDiv r.length 64) % s.storeLines (s.storeFor r.kind), entries := es ++ [r.entry dir c] }

/-- The state in which the record's bytes are written: its kind's gap entries have gone with it, and its store has the record. -/
def State.indexed : State := (s.dropGaps r.kind).setStore (s.storeFor r.kind) (s.storeWith r dir c es)
end

section
variable {s : State} {r : Record} {dir c : Nat} {es : List IndexEntry} (h : s.roomFor r = (some c, es))
include h

/-- The memories once an undamaged record is stored are those in which its bytes are written: pushing its descriptors leaves them. -/
theorem State.storeRecord_mem : (s.storeRecord r dir ⟨false, false⟩).mem
    = ((s.indexed r dir c es).writeRecord (s.storeFor r.kind) c (ceilDiv r.length 64) r.bytes).mem := by
  unfold State.roomFor at h
  dsimp only at h
  unfold State.storeRecord
  dsimp only
  rw [h]
  exact State.pushAll_mem _ _

theorem State.storeRecord_stores : (s.storeRecord r dir ⟨false, false⟩).mem.stores
    = Sparse.set {} s.mem.stores (s.storeFor r.kind) (s.storeWith r dir c es) := by
  rw [State.storeRecord_mem h, State.writeRecord_stores]
  rfl
end

/-- Settles O56: the memories are those in which the record's bytes are written, whole lines of the Granary or, for the record area, whole words of the
SRAM (that its lines begin at byte 2,097,152 is log 6). -/
theorem recordStored : Obligations.RecordStored := by
  intro s r dir c es id n h t a
  have stores : t.mem.stores = Sparse.set {} s.mem.stores id (s.storeWith r dir c es) := State.storeRecord_stores h
  have memories : t.mem = ((s.indexed r dir c es).writeRecord id c n r.bytes).mem := State.storeRecord_mem h
  have held : r.bytes.length ≤ 64 * n := r.length_bytes_le
  refine ⟨?entry, fun k hk => ?others, fun hi => ?plot, fun hi => ?sram⟩
  case entry => exact (congrArg (Sparse.get {} · id) stores).trans (Sparse.get_set_same ..)
  case others => exact (congrArg (Sparse.get {} · k) stores).trans (Sparse.get_set_other _ _ _ _ _ _ hk)
  case plot =>
    rw [State.writeRecord_of_plot _ _ _ _ _ hi] at memories
    obtain ⟨sram, bytes, outside, clean⟩ := State.written_lines memories held
    have base : 64 * (s.storeBase id / 64 + c) = a := by rw [Nat.mul_add, s.storeBase_lines]
    have line : s.storeBase id / 64 + c = a / 64 := by omega
    rw [show (s.indexed r dir c es).storeBase id = s.storeBase id from rfl] at bytes outside clean
    rw [base] at bytes outside
    rw [line] at clean
    exact ⟨sram, fun d i hi => bytes d i d.isLt hi, outside, fun i hi => ⟨clean 0 i (by decide) hi, clean 1 i (by decide) hi⟩⟩
  case sram =>
    rw [State.writeRecord_of_sram _ _ _ _ _ hi] at memories
    obtain ⟨gran, bytes, outside, clean⟩ := State.written_words memories (by omega)
    have base : 8 * (262144 + 8 * c) = 2097152 + 64 * c := by omega
    rw [base] at bytes outside
    rw [State.touchSpan_sram] at outside
    rw [State.touchSpan_gran] at gran
    exact ⟨gran, fun d i hi => bytes d i d.isLt (by omega), fun j hj => outside j (by omega),
      fun i hi => ⟨clean 0 i (by decide) hi, clean 1 i (by decide) hi⟩⟩

end Sys2Proof.Machine
end

section
/-! The statement on the memory events (R275, R289, R298 to R305, R465) and on the acquisition events (R208, R209, R224). -/

namespace Sys2Proof.Machine

section
variable {s : State} {d : Nat}

/-! ### Refresh (R275) -/

theorem refreshDue_of_elapsed (hs : s.mem.selfRefresh = false)
    (ht : (s.memDie d).lastRefresh + ns (refreshNs (s.rdN (P.RED_GRN_BAND d))) ≤ s.time) :
    refreshDue d s = s.setMemDie d { s.memDie d with lastRefresh := s.time } := by
  simp [refreshDue, hs, ht]
theorem refreshDue_of_early (ht : s.time < (s.memDie d).lastRefresh + ns (refreshNs (s.rdN (P.RED_GRN_BAND d)))) : refreshDue d s = s := by
  simp [refreshDue, Nat.not_le.mpr ht]

/-! ### The Gleaner (R298 to R300) -/

section
variable (hr : s.running = true)
include hr

section
variable (hs : s.mem.selfRefresh = false) (hg : s.mem.granReady = true) (hf : s.gleanFits d true = true)
include hs hg hf

/-- Of the Granary the next line is read while no refresh is due; one that is due is done instead. -/
theorem gleanerRead_line (ht : s.time < (s.memDie d).lastRefresh + ns (refreshNs (s.rdN (P.RED_GRN_BAND d)))) :
    gleanerRead d true s = s.gleanNext d true := by
  simp [gleanerRead, hr, hs, hg, hf, refreshDue_of_early ht]
theorem gleanerRead_refresh (ht : (s.memDie d).lastRefresh + ns (refreshNs (s.rdN (P.RED_GRN_BAND d))) ≤ s.time)
    (hl : (s.memDie d).lastRefresh < s.time) : gleanerRead d true s = s.setMemDie d { s.memDie d with lastRefresh := s.time } := by
  have refreshed : (s.setMemDie d { s.memDie d with lastRefresh := s.time }).memDie d = { s.memDie d with lastRefresh := s.time } := Two.get_set_same _ _ _
  have later : s.time ≠ (s.memDie d).lastRefresh := Nat.ne_of_gt hl
  simp [gleanerRead, hr, hs, hg, hf, refreshDue_of_elapsed hs ht, refreshed, later]
end

/-- Of the SRAM the next word is read, unless its region is borrowed, its bank held or its port asked for. -/
theorem gleanerRead_word (hf : s.gleanFits d false = true) : let a := (s.gleaner d false).next
    let u := s.touch a false
    gleanerRead d false s = if u.blocked a || u.portBusy a then u else u.gleanNext d false := by
  simp [gleanerRead, hr, hf]
end

/-! ### The background test (R303 to R305) -/

section
variable (hr : s.running = true) (hi : s.mem.test.phase = .idle) (hp : s.now % (1000 * s.rdN P.SRM_TEST_PACE) = 0)
include hr hi hp

/-- At its pace the test starts the next region it may borrow, and begins again at region 0 in continuous mode. -/
theorem srmTestPace_next {i : Nat} (hm : s.rdN P.SRM_TEST_MODE ≠ 0) (hn : s.nextRegion s.mem.test.region = some i) :
    srmTestPace s = s.setTest { s.mem.test with phase := .save, region := i, abandoned := false } := by
  simp [srmTestPace, hr, hi, hm, hp, hn]
theorem srmTestPace_again {i : Nat} (hn : s.nextRegion s.mem.test.region = none) (h₀ : s.nextRegion 0 = some i) (h₁ : s.rdN P.SRM_TEST_MODE = 1) :
    srmTestPace s = s.setTest { s.mem.test with phase := .save, region := i, abandoned := false } := by
  simp [srmTestPace, hr, hi, hp, hn, h₀, h₁]
/-- A test of one lap ends where no region is left. -/
theorem srmTestPace_end (hn : s.nextRegion s.mem.test.region = none) (h₂ : s.rdN P.SRM_TEST_MODE = 2) : srmTestPace s = s.wrN P.SRM_TEST_MODE 0 := by
  simp [srmTestPace, hr, hi, hp, hn, h₂]
end

theorem srmTestSaveDone_of_save (h : s.mem.test.phase = .save) :
    srmTestSaveDone s = s.setTest { s.mem.test with phase := if s.mem.test.abandoned then .idle else .march } := by
  cases ha : s.mem.test.abandoned <;> simp [srmTestSaveDone, h, ha]

/-! ### Accesses (R289, R305, R465; log 109, log 110) -/

section
variable {a : SramAccess}

/-- An access to which the processor's map gives no right is trapped in both dies. -/
theorem borrowedRegionAccess_of_trap (hp : isProcessor a.master = true) (hm : mapped a.at_ a.kind = false) :
    borrowedRegionAccess a s = (s.trap 0 (trapOf a.kind) a.at_).trap 1 (trapOf a.kind) a.at_ := by
  simp [borrowedRegionAccess, hp, hm]

section
variable (h : isProcessor a.master = false ∨ mapped a.at_ a.kind = true)
include h

theorem not_trapped : (isProcessor a.master && !mapped a.at_ a.kind) = false := by rcases h with h | h <;> simp [h]

/-- An access that has its right reaches the Granary at once; one to the SRAM waits at its port; one to a device has no effect. -/
theorem borrowedRegionAccess_of_gran {g : Nat} (hg : a.gran? = some g) : borrowedRegionAccess a s = s.accessGran a g := by
  simp [borrowedRegionAccess, not_trapped h, hg]
theorem borrowedRegionAccess_of_word {w : Nat} (hg : a.gran? = none) (hw : a.word? = some w) : borrowedRegionAccess a s
    = (s.touch w a.writes).await { master := a.master, word := w, portB := a.portB, since := s.time, work := .access a } := by
  simp [borrowedRegionAccess, not_trapped h, hg, hw]
theorem borrowedRegionAccess_of_device (hg : a.gran? = none) (hw : a.word? = none) : borrowedRegionAccess a s = s := by
  simp [borrowedRegionAccess, not_trapped h, hg, hw]
end
end
end

/-! ### Sequencers (R208, R209) -/

section
variable {s : State} {q : Nat}

theorem seqTimerExpiry_of_due {e : Nat} (h : (s.seq q).timer = some e) (he : e ≤ s.now) :
    seqTimerExpiry q s = s.setSeq q { s.seq q with timerDue := true } := by
  simp [seqTimerExpiry, h, he]
theorem seqAutoFire_of_elapsed (ha : s.rdN (P.TRG_SEQ_AUTO q) ≠ 0) (hs : s.seqState q ≠ seqHalted)
    (ht : (s.seq q).lastFire + 1000 * s.rdN (P.TRG_SEQ_AUTO q) ≤ s.now) : seqAutoFire q s = s.setSeq q { s.seq q with autoDue := true } := by
  simp [seqAutoFire, ha, hs, ht]
end

/-! ### Announcements (R224) -/

section
variable {s : State} {p k : Nat} {bs : List Byte}

/-- The first announcement that came by a port is taken from those that wait. -/
def State.takeAnnounce (s : State) (p : Nat) : State :=
  { s with clp := { s.clp with announces := dropFirstWhere (fun a => a.1 == p) s.clp.announces } }

/-- The payload of an announcement with one hop less. -/
def oneHopLess (bs : List Byte) : List Byte := bs.take 7 ++ [BitVec.ofNat 8 ((announcementOf bs).hopsLeft - 1)] ++ bs.drop 8

/-- An announcement goes on by a port. -/
def State.passAnnounce (s : State) (p : Nat) (bs : List Byte) : State :=
  s.sendOn p false (announceFrame (bits (announcementOf bs).id 47 36) (oneHopLess bs))

variable (h : s.clp.announces.find? (fun a => a.1 == p) = some (k, bs))
include h

theorem announceReceive_of_copy (hk : (s.takeAnnounce p).knowsId (announcementOf bs).id = true) : announceReceive p s = s.takeAnnounce p := by
  unfold State.takeAnnounce at hk
  simp only [announceReceive, h, hk, if_true]
  rfl

/-- A new announcement goes on while it has hops left and the other port leads on, and then it is taken into the stream of a node that has an ID. -/
theorem announceReceive_of_new {noted sent : State} (hk : (s.takeAnnounce p).knowsId (announcementOf bs).id = false)
    (hi : (s.takeAnnounce p).noteId (announcementOf bs).id = noted)
    (hs : (if 1 ≤ (announcementOf bs).hopsLeft && noted.isRingPort (1 - p) then noted.passAnnounce (1 - p) bs else noted) = sent) :
    announceReceive p s = if sent.rdN P.SYS_NODE_ID = 0 then sent else sent.send 4 (.announce (announcementOf bs)) := by
  subst hs hi
  unfold State.takeAnnounce at hk
  simp only [announceReceive, h, hk]
  rfl
end

/-- Settles O33: each event by the equation of its meaning.  That an access waits with the requests of its port, and the Gleaner behind them, is log 109;
what a processor's access finds by its map, and that one to a device has no effect, is log 110. -/
theorem memoryAndAcquisitionEventsComplete : Obligations.MemoryAndAcquisitionEventsComplete := by
  refine ⟨fun s t => ⟨?temp, ?refresh, ?line, ?word, ?next, ?pace, ?save, fun a b h => ?march, fun h => ?restore, fun a => ⟨?trap, ?right⟩⟩,
    fun s t => ⟨?timer, ?auto, ?announce⟩⟩
  case temp =>
    intro d milliC
    refine ⟨_, rfl, ?_, ?_, fun k hk => State.rd_wrN_other _ _ hk⟩
    · exact congrArg DieMemory.stackTemp (Two.get_set_same _ _ _)
    · have small := bandOf_le_two ((s.at_ t).rdN (P.RED_GRN_BAND d)) milliC
      exact (State.rdN_wrN_same _ _ _).trans (Nat.mod_eq_of_lt (Nat.lt_of_le_of_lt small (by decide)))
  case refresh => exact fun d hs ht => congrArg Host.Outcome.next (refreshDue_of_elapsed hs ht)
  case line =>
    intro d hr hs hg hf
    exact ⟨fun ht => congrArg Host.Outcome.next (gleanerRead_line hr hs hg hf ht),
      fun ht hl => congrArg Host.Outcome.next (gleanerRead_refresh hr hs hg hf ht hl)⟩
  case word => exact fun d hr hf => congrArg Host.Outcome.next (gleanerRead_word hr hf)
  case next => exact fun s d granary => ⟨fun h => if_pos h, fun h => if_neg h⟩
  case pace =>
    intro hr hi hm hp
    exact ⟨fun i hn => congrArg Host.Outcome.next (srmTestPace_next hr hi hp hm hn),
      fun i hn h₀ h₁ => congrArg Host.Outcome.next (srmTestPace_again hr hi hp hn h₀ h₁),
      fun hn h₂ => congrArg Host.Outcome.next (srmTestPace_end hr hi hp hn h₂)⟩
  case save => exact fun h => congrArg Host.Outcome.next (srmTestSaveDone_of_save h)
  case march => exact congrArg Host.Outcome.next (if_pos h)
  case restore => exact congrArg Host.Outcome.next (if_pos h)
  case trap => exact fun hp hm => congrArg Host.Outcome.next (borrowedRegionAccess_of_trap hp hm)
  case right =>
    intro h
    exact ⟨fun g hg => congrArg Host.Outcome.next (borrowedRegionAccess_of_gran h hg),
      fun w hg hw => congrArg Host.Outcome.next (borrowedRegionAccess_of_word h hg hw),
      fun hg hw => congrArg Host.Outcome.next (borrowedRegionAccess_of_device h hg hw)⟩
  case timer => exact fun q e h he => congrArg Host.Outcome.next (seqTimerExpiry_of_due h he)
  case auto => exact fun q ha hs ht => congrArg Host.Outcome.next (seqAutoFire_of_elapsed ha hs ht)
  case announce =>
    intro p k bs h taken a noted onward sent
    have done := fun (u : State) (hk : taken.knowsId a.id = false) hs => announceReceive_of_new (sent := u) h hk rfl hs
    have spent : a.hopsLeft = 0 → ¬ (decide (1 ≤ a.hopsLeft) && noted.isRingPort (1 - p.val)) = true := fun hh => by simp [hh]
    exact ⟨fun hk => congrArg Host.Outcome.next (announceReceive_of_copy h hk),
      fun hk hh hp hn => congrArg Host.Outcome.next ((done sent hk (if_pos ((Bool.and_eq_true _ _).mpr ⟨decide_eq_true hh, hp⟩))).trans (if_neg hn)),
      fun hk hh hn => congrArg Host.Outcome.next ((done noted hk (if_neg (spent hh))).trans (if_neg hn)),
      fun hk hh hn => congrArg Host.Outcome.next ((done noted hk (if_neg (spent hh))).trans (if_pos hn))⟩

end Sys2Proof.Machine
end

section
/-! The statement on the line stream: the scrambler, numbers sent bit 0 first, and precoded levels (R315, R317). -/

namespace Sys2Proof.Machine

/-! ### The scrambler (R317) -/

/-- A bit as the two taps of a state change it: the line bits sent 39 and 58 bits ago. -/
def scramblerOut (st : Nat) (b : Bool) : Bool := (b != (st / 2 ^ 38 % 2 == 1)) != (st / 2 ^ 57 % 2 == 1)
/-- The state after a line bit. -/
def scramblerNext (st : Nat) (b : Bool) : Nat := (2 * st + (if b then 1 else 0)) % 2 ^ 58

theorem scramble_cons (st : Nat) (b : Bool) (bs : List Bool) :
    scramble st (b :: bs) = (scramblerOut st b :: (scramble (scramblerNext st (scramblerOut st b)) bs).1,
      (scramble (scramblerNext st (scramblerOut st b)) bs).2) := rfl
theorem descramble_cons (st : Nat) (b : Bool) (bs : List Bool) :
    descramble st (b :: bs) = (scramblerOut st b :: (descramble (scramblerNext st b) bs).1, (descramble (scramblerNext st b) bs).2) := rfl

/-- The same taps change a bit back. -/
theorem scramblerOut_scramblerOut (st : Nat) (b : Bool) : scramblerOut st (scramblerOut st b) = b := by
  unfold scramblerOut
  cases b <;> cases st / 2 ^ 38 % 2 == 1 <;> cases st / 2 ^ 57 % 2 == 1 <;> rfl

theorem descramble_scramble (st : Nat) (bs : List Bool) : descramble st (scramble st bs).1 = (bs, (scramble st bs).2) := by
  induction bs generalizing st with
  | nil => rfl
  | cons b bs ih => simp only [scramble_cons, descramble_cons, scramblerOut_scramblerOut, ih]

/-- The taps lie in the last 58 line bits. -/
theorem scramblerOut_congr {st st' : Nat} (h : st % 2 ^ 58 = st' % 2 ^ 58) (b : Bool) : scramblerOut st b = scramblerOut st' b := by
  have h₁ : st / 2 ^ 38 % 2 = st' / 2 ^ 38 % 2 := by omega
  have h₂ : st / 2 ^ 57 % 2 = st' / 2 ^ 57 % 2 := by omega
  rw [scramblerOut, scramblerOut, h₁, h₂]
theorem scramblerNext_congr {st st' : Nat} (h : st % 2 ^ 58 = st' % 2 ^ 58) (b : Bool) : scramblerNext st b = scramblerNext st' b := by
  unfold scramblerNext
  omega

/-- A line bit that both ends see is one more in which their states agree. -/
theorem scramblerNext_mod {k st st' : Nat} (hk : k < 58) (b : Bool) (h : st % 2 ^ k = st' % 2 ^ k) :
    scramblerNext st b % 2 ^ (k + 1) = scramblerNext st' b % 2 ^ (k + 1) := by
  have next : ∀ n, scramblerNext n b % 2 ^ (k + 1) = (2 * (n % 2 ^ k) + if b then 1 else 0) % 2 ^ (k + 1) := fun n => by
    rw [scramblerNext, Nat.mod_mod_of_dvd _ (Nat.pow_dvd_pow 2 hk), Nat.add_mod, Nat.add_mod (2 * (n % 2 ^ k)), Nat.pow_succ', Nat.mul_mod_mul_left,
      Nat.mul_mod_mul_left, Nat.mod_mod]
  rw [next, next, h]

/-- A receiver that agrees with the sender in the last `k` line bits gives the payload back once it has seen the other 58 − k. -/
theorem descramble_scramble_drop {k : Nat} (hk : k ≤ 58) (st st' : Nat) (bs : List Bool) (h : st % 2 ^ k = st' % 2 ^ k) :
    (descramble st' (scramble st bs).1).1.drop (58 - k) = bs.drop (58 - k) := by
  induction bs generalizing k st st' with
  | nil => rfl
  | cons b bs ih =>
    rw [scramble_cons, descramble_cons]
    rcases Nat.lt_or_eq_of_le hk with hk | rfl
    · have e : 58 - k = (58 - (k + 1)) + 1 := by omega
      rw [e, List.drop_succ_cons, List.drop_succ_cons]
      exact ih hk _ _ (scramblerNext_mod hk _ h)
    · rw [← scramblerOut_congr h, ← scramblerNext_congr h, scramblerOut_scramblerOut, descramble_scramble]

/-! ### Numbers and levels (R315) -/

theorem ofLineBits_lineBits (w n : Nat) : ofLineBits (lineBits w n) = n % 2 ^ w := by
  induction w generalizing n with
  | zero => exact (Nat.mod_one n).symm
  | succ w ih =>
    have low : (if (n % 2 == 1) = true then 1 else 0) = n % 2 := by
      rcases Nat.mod_two_eq_zero_or_one n with h | h <;> simp [h]
    rw [lineBits, ofLineBits, ih, low, Nat.pow_succ', Nat.mod_mul]

theorem unprecodeFrom_precodeFrom {p : Nat} {g : List Nat} (hp : p < 4) (hg : ∀ x ∈ g, x < 4) : unprecodeFrom p (precodeFrom p g) = g := by
  induction g generalizing p with
  | nil => rfl
  | cons x g ih =>
    have back : ((x + 4 - p) % 4 + p) % 4 = x := by have := hg x (.head _); omega
    rw [precodeFrom, unprecodeFrom, back, ih (Nat.mod_lt _ (by decide)) (fun y m => hg y (.tail _ m))]

/-- Settles O59: a receiver's state agrees with the sender's in as many of its last bits as it has seen line bits, and in 58 of them it is the sender's. -/
theorem scramblerRoundTrip : Obligations.ScramblerRoundTrip :=
  ⟨descramble_scramble, fun st st' bs => descramble_scramble_drop (Nat.zero_le 58) st st' bs (by rw [Nat.pow_zero, Nat.mod_one, Nat.mod_one]),
    ofLineBits_lineBits, fun _ _ hp hg => unprecodeFrom_precodeFrom hp hg⟩

end Sys2Proof.Machine
end

section
/-! The statement on the codeword events (R314 to R331), which fails: the third SYNC restarts the count of clean codewords as the first two do. -/

namespace Sys2Proof.Machine

/-- Lane 1 in SEARCH: two SYNCs found, and one clean codeword since. -/
def twoSyncs : State :=
  { State.reset with par := [(P.LNK_LANE_STATE 1, 2)], lnk := { State.reset.lnk with lanes := [(1, { syncs := 2, clean := 1 })] } }
/-- An EMPTY slot whose SYNC and copies are right (Tables 10-4 and 10-5). -/
def emptySlot : RxSlot := { sync := 0xA55A, kind := 0x0F, word1 := 0, word2 := 0, word3 := 0, cwc := 0 }

/-- The third SYNC restarts the count of clean codewords. -/
theorem slotReceive_third_sync : ((slotReceive 1 emptySlot (twoSyncs.at_ 0)).lane 1).clean = 0 := by decide

/-- Refutes O39: a lane that has found two SYNCs, and one clean codeword since, receives the third SYNC. `slotReceive` starts the count of clean
codewords afresh while fewer than 3 SYNCs were found before this one; the statement counts this one too, and leaves the count at 1. -/
theorem not_codewordEventsComplete : ¬ Obligations.CodewordEventsComplete := by
  intro h
  obtain ⟨-, -, slots⟩ := h twoSyncs 0 1 (.inl (by decide))
  have claimed := ((slots emptySlot (by decide)).2 rfl).1 0x0F 0 (by decide) (by decide)
  have clean : ((slotReceive 1 emptySlot (twoSyncs.at_ 0)).lane 1).clean = 1 :=
    (congrArg (fun u => (u.lane 1).clean) (Host.Outcome.next.inj claimed)).trans (by decide)
  exact absurd (slotReceive_third_sync.symm.trans clean) (by decide)

end Sys2Proof.Machine
end

section
/-! What a module that comes or goes does to the lanes of its port, and what a lane's fault leaves of the others (R324, R331, R341). -/

namespace Sys2Proof.Machine

theorem State.lane_setLane_same (s : State) (l : Nat) (x : Lane) : (s.setLane l x).lane l = x := Sparse.get_set_same _ _ _ _
theorem State.lane_setLane_other (s : State) {l k : Nat} (x : Lane) (h : k ≠ l) : (s.setLane l x).lane k = s.lane k :=
  Sparse.get_set_other _ _ _ _ _ _ h

/-! ### What shows the modules (R331, R341) -/

/-- The rows LNK_STATUS of the lanes. -/
abbrev statusRow (k : Nat) : Prop := 0x0B130000 ≤ k ∧ k < 0x0B13000C

/-- From `s` to `t` nothing changes that shows the optical modules: their presence, their LOS flags, and LNK_STATUS. -/
structure ModuleFrame (s t : State) : Prop where
  present : ∀ q, (t.lanePort q).present = (s.lanePort q).present
  modLos : ∀ l, (t.lane l).modLos = (s.lane l).modLos
  par : ∀ k, statusRow k → t.rd k = s.rd k

namespace ModuleFrame
variable {s t u : State}

theorem refl (s : State) : ModuleFrame s s := ⟨fun _ => rfl, fun _ => rfl, fun _ _ => rfl⟩
/-- The last change first, as a state names its changes from the outside in. -/
theorem after (g : ModuleFrame t u) (h : ModuleFrame s t) : ModuleFrame s u :=
  ⟨fun q => (g.present q).trans (h.present q), fun l => (g.modLos l).trans (h.modLos l), fun k r => (g.par k r).trans (h.par k r)⟩
theorem ite {p : Prop} [Decidable p] (h : ModuleFrame s t) (g : ModuleFrame s u) : ModuleFrame s (if p then t else u) := by
  split
  · exact h
  · exact g
theorem foldl {α : Type} {f : State → α → State} (hf : ∀ s x, ModuleFrame s (f s x)) (xs : List α) (s : State) : ModuleFrame s (xs.foldl f s) :=
  List.foldlRecOn xs f (refl s) (fun _ h x _ => (hf _ x).after h)
/-- A change to neither the lane layer nor the parameters. -/
theorem of_eq (hl : t.lnk = s.lnk) (hp : t.par = s.par) : ModuleFrame s t :=
  ⟨fun q => by simp only [State.lanePort, hl], fun l => by simp only [State.lane, hl], fun k _ => State.rd_congr hp k⟩
theorem setLane {l : Nat} {x : Lane} (h : x.modLos = (s.lane l).modLos) : ModuleFrame s (s.setLane l x) := by
  refine ⟨fun _ => rfl, fun k => ?_, fun _ _ => rfl⟩
  by_cases e : k = l
  · subst e; rw [State.lane_setLane_same, h]
  · rw [State.lane_setLane_other _ _ e]
theorem setLanePort {p : Nat} {x : LanePort} (h : x.present = (s.lanePort p).present) : ModuleFrame s (s.setLanePort p x) := by
  refine ⟨fun q => ?_, fun _ => rfl, fun _ _ => rfl⟩
  by_cases e : q = p
  · subst e; rw [State.lanePort_setLanePort_same, h]
  · rw [State.lanePort_setLanePort_other _ _ e]

section
variable {k : Nat} (n : Nat) (h : ¬statusRow k)
include h
theorem wrN : ModuleFrame s (s.wrN k n) := ⟨fun _ => rfl, fun _ => rfl, fun _ r => s.rd_wrN_other n (fun e => h (e ▸ r))⟩
theorem addSat : ModuleFrame s (s.addSat k n) := ⟨fun _ => rfl, fun _ => rfl, fun _ r => s.rd_addSat_other n (fun e => h (e ▸ r))⟩
theorem setBit : ModuleFrame s (s.setBit k n) := ⟨fun _ => rfl, fun _ => rfl, fun _ r => s.rd_setBit_other n (fun e => h (e ▸ r))⟩
theorem clrBits : ModuleFrame s (s.clrBits k n) := ⟨fun _ => rfl, fun _ => rfl, fun _ r => s.rd_clrBits_other n (fun e => h (e ▸ r))⟩
end

end ModuleFrame

section
variable {s : State}

/-! ### Frames sent on a port whose turn ends (R365 to R367) -/

theorem State.signal_moduleFrame (v : Nat) : ModuleFrame s (s.signal v) := .ite (.of_eq rfl rfl) (.refl s)
theorem State.prtStatus_moduleFrame (i : Nat) : ModuleFrame s (s.prtStatus i) := (State.signal_moduleFrame 9).after (.setBit _ (by decide))
theorem State.undelivered_moduleFrame : ModuleFrame s s.undelivered := (State.prtStatus_moduleFrame 2).after (.addSat _ (by decide))
theorem State.dieSends_moduleFrame (d : Nat) (x : HeldItem) : ModuleFrame s (s.dieSends d x) := by
  unfold State.dieSends
  dsimp only
  split
  · exact .refl s
  · split <;> exact .of_eq rfl rfl
theorem State.emit_moduleFrame (item : OutItem) (flaws : Two Nat) (unchecked : Bool) : ModuleFrame s (s.emit item flaws unchecked) :=
  (State.dieSends_moduleFrame 1 _).after ((State.dieSends_moduleFrame 0 _).after (.of_eq rfl rfl))
theorem State.returned_moduleFrame (origin dest : Nat) (payload : List Byte) : ModuleFrame s (s.returned origin dest payload) :=
  (ModuleFrame.ite (State.emit_moduleFrame _ _ _) State.undelivered_moduleFrame).after ((State.prtStatus_moduleFrame 6).after (.addSat _ (by decide)))
theorem State.enqueue_moduleFrame (p : Nat) (own : Bool) (f : Frame) : ModuleFrame s (s.enqueue p own f) := .ite (.of_eq rfl rfl) (.of_eq rfl rfl)

theorem State.sendOn_moduleFrame (s : State) (p : Nat) (own : Bool) (f : Frame) : ModuleFrame s (s.sendOn p own f) := by
  have turned : ¬statusRow (P.CLP_TURNED p) := by simp only [statusRow, P.CLP_TURNED]; omega
  have dropped : ModuleFrame s ((s.addSat P.CLP_TURN_DROP 1).setBit P.CLP_STATUS 4) := (ModuleFrame.setBit _ (by decide)).after (.addSat _ (by decide))
  exact .ite (State.enqueue_moduleFrame _ _ _) (.ite (.refl s) (.ite dropped (.ite (State.returned_moduleFrame _ _ _)
    (.ite (State.enqueue_moduleFrame _ _ _) ((ModuleFrame.addSat _ turned).after (State.enqueue_moduleFrame _ _ _))))))

theorem State.turnWaiting_moduleFrame (p : Nat) : ModuleFrame s (s.turnWaiting p) :=
  (ModuleFrame.foldl (fun s f => s.sendOn_moduleFrame p false f) _ _).after
    ((ModuleFrame.foldl (fun s f => s.sendOn_moduleFrame p true f) _ _).after (.of_eq rfl rfl))

theorem State.endTurn_moduleFrame (p : Nat) : ModuleFrame s (s.endTurn p) := by
  have hops : ¬statusRow (P.CLP_POS_HOPS p) := by simp only [statusRow, P.CLP_POS_HOPS]; omega
  have far : ¬statusRow (P.CLP_POS_END p) := by simp only [statusRow, P.CLP_POS_END]; omega
  have ended : ∀ s : State, ModuleFrame s (s.endUnknown p) := fun s => (ModuleFrame.wrN _ far).after ((ModuleFrame.wrN _ hops).after (.of_eq rfl rfl))
  have status : ∀ (s : State) (b : Bool), ModuleFrame s (s.putBit P.CLP_STATUS 2 b) := fun s b => .ite (.setBit _ (by decide)) (.clrBits _ (by decide))
  exact (ModuleFrame.ite (State.turnWaiting_moduleFrame _) (.refl _)).after ((ended _).after ((status _ _).after (.of_eq rfl rfl)))

theorem State.setTimePort_moduleFrame (p : Nat) (x : TimePort) : ModuleFrame s (s.setTimePort p x) := .of_eq rfl rfl

/-! ### A lane that faults (R323, R324, R330, R331) -/

section
variable {p : Nat} (hp : p < 3)
include hp

theorem State.notePort_moduleFrame (s : State) : ModuleFrame s (s.notePort p) := by
  have width : ¬statusRow (P.LNK_PORT_WIDTH p) := by simp only [statusRow, P.LNK_PORT_WIDTH]; omega
  have row : ¬statusRow (P.LNK_PORT_STATE p) := by simp only [statusRow, P.LNK_PORT_STATE]; omega
  have state : ∀ (s : State) (st : Nat), ModuleFrame s (s.setPortState p st) := fun s st =>
    (ModuleFrame.ite (State.signal_moduleFrame 9) (.refl (s.wrN (P.LNK_PORT_STATE p) st))).after (.wrN _ row)
  unfold State.notePort
  exact (ModuleFrame.ite (.refl _) (.ite (state _ _) (.ite (state _ _) (.ite (state _ _) (.ite (state _ _) (.refl _)))))).after (.wrN _ width)

theorem State.putMask_moduleFrame (s : State) (mask : Nat) : ModuleFrame s (s.putMask p mask) := by
  unfold State.putMask
  dsimp only
  refine (ModuleFrame.ite (State.endTurn_moduleFrame _) (.refl _)).after ((ModuleFrame.ite (State.setTimePort_moduleFrame _ _) (.refl _)).after
    ((State.notePort_moduleFrame hp _).after (.setLanePort ?_)))
  split <;> rfl
end

theorem State.firstJoin_linkFrame {ks : List Nat} (p : Nat) : LinkFrame ks s (s.firstJoin p) := .ite (.setLanePort id) (.refl ks s)
theorem State.firstJoin_moduleFrame (p : Nat) : ModuleFrame s (s.firstJoin p) := .ite (.setLanePort rfl) (.refl s)

/-- Without a module a lane faults from SEARCH on; what follows its entering FAULT is about its port. -/
theorem State.faultLane_absent (s : State) (l : Nat) : s.faultLane l 10 = if s.laneState l < laneSearch ∨ s.laneState l = laneFault then s
    else (((s.setLaneState l laneFault).dropLane l).notePort (l / 4)).firstJoin (l / 4) := by
  simp [State.faultLane]

section
variable {l : Nat} (hl : l < 12)
include hl

theorem State.dropLane_moduleFrame (s : State) : ModuleFrame s (s.dropLane l) := by
  unfold State.dropLane
  dsimp only
  exact .ite (.setLanePort (by rfl)) ((ModuleFrame.ite (.setLanePort (by rfl)) (.setLanePort (by rfl))).after
    (State.putMask_moduleFrame (p := l / 4) (by omega) s _))

theorem State.faultLane_absent_moduleFrame (s : State) : ModuleFrame s (s.faultLane l 10) := by
  have row : ¬statusRow (P.LNK_LANE_STATE l) := by simp only [statusRow, P.LNK_LANE_STATE]; omega
  have entered : ModuleFrame s (s.setLaneState l laneFault) := by
    rw [State.setLaneState, if_neg (by decide)]
    exact (ModuleFrame.setLane (by rfl)).after (.wrN _ row)
  rw [State.faultLane_absent]
  exact .ite (.refl s) ((State.firstJoin_moduleFrame _).after ((State.notePort_moduleFrame (by omega) _).after
    ((State.dropLane_moduleFrame hl _).after entered)))

/-- What follows a lane's entering FAULT leaves the states of all lanes. -/
theorem State.faulted_linkFrame (s : State) :
    LinkFrame [P.LNK_PORT_STATE (l / 4)] s (((s.dropLane l).notePort (l / 4)).firstJoin (l / 4)) := by
  have own := List.mem_singleton_self (P.LNK_PORT_STATE (l / 4))
  exact .after (State.firstJoin_linkFrame _) (.after (State.notePort_linkFrame (by omega) own) (State.dropLane_linkFrame hl own))

theorem State.faultLane_absent_laneState_same (s : State) (h : laneSearch ≤ s.laneState l) : (s.faultLane l 10).laneState l = laneFault := by
  rw [State.faultLane_absent]
  split
  next g => exact g.resolve_left (by omega)
  next =>
    rw [(State.faulted_linkFrame hl _).laneState hl (fun m => laneRow_ne_portRow (by omega) (List.mem_singleton.mp m))]
    exact State.rdN_wrN_same s _ _
theorem State.faultLane_absent_laneState_other (s : State) {k : Nat} (hk : k < 12) (ne : k ≠ l) : (s.faultLane l 10).laneState k = s.laneState k := by
  rw [State.faultLane_absent]
  split
  next => rfl
  next =>
    rw [(State.faulted_linkFrame hl _).laneState hk (fun m => laneRow_ne_portRow (by omega) (List.mem_singleton.mp m))]
    exact (State.setLaneState_linkFrame (List.mem_singleton_self _) laneFault).laneState hk (fun m => laneRow_ne ne (List.mem_singleton.mp m))
end
end

/-! ### Modules that come and go (R331, R341) -/

/-- A fold over a list brings about what its step brings about at one of the members, where the other steps allow it and leave it so. -/
theorem foldl_reaches {α : Type} {I P : State → Prop} {f : State → α → State} {s : State} {xs : List α} {x : α} (hx : x ∈ xs) (hs : I s)
    (allow : ∀ s, I s → ∀ y ∈ xs, I (f s y)) (own : ∀ s, I s → P (f s x)) (stay : ∀ s, P s → ∀ y ∈ xs, P (f s y)) : P (xs.foldl f s) := by
  obtain ⟨as, bs, rfl⟩ := List.append_of_mem hx
  rw [List.foldl_append, List.foldl_cons]
  have before : I (as.foldl f s) := List.foldlRecOn as f hs (fun s h y m => allow s h y (by simp [m]))
  exact List.foldlRecOn bs f (own _ before) (fun s h y m => stay s h y (by simp [m]))

/-- A fold keeps what each of its steps keeps. -/
theorem foldl_keeps {α β : Type} {f : State → α → State} (g : State → β) {xs : List α} {s : State} (h : ∀ s, ∀ x ∈ xs, g (f s x) = g s) :
    g (xs.foldl f s) = g s :=
  List.foldlRecOn xs f (motive := fun t => g t = g s) rfl (fun t e x m => (h t x m).trans e)

/-- LNK_STATUS of a lane shows its port's module: absent, or present and no CMIS module. -/
def State.showModule (present cmis : Bool) (s : State) (l : Nat) : State :=
  (s.putBit (P.LNK_STATUS l) 10 (!present)).putBit (P.LNK_STATUS l) 11 (present && !cmis)
/-- A lane loses its module. -/
def State.loseModule (s : State) (l : Nat) : State := (s.setLane l { s.lane l with modLos := false }).faultLane l 10
/-- What is held of a port's module. -/
def State.noteModule (s : State) (p : Nat) (present cmis : Bool) : State :=
  s.setLanePort p { s.lanePort p with present, cmis, lowPower := false }

/-- A module has come to a port. -/
def State.moduleComes (s : State) (p : Nat) (cmis : Bool) : State := (lanesOf p).foldl (State.showModule true cmis) (s.noteModule p true cmis)
/-- The module of a port has gone. -/
def State.moduleGoes (s : State) (p : Nat) (cmis : Bool) : State :=
  (lanesOf p).foldl State.loseModule ((lanesOf p).foldl (State.showModule false cmis) (s.noteModule p false cmis))

theorem modulePresenceChange_true (p : Nat) (cmis : Bool) (s : State) : modulePresenceChange p true cmis s = s.moduleComes p cmis := rfl
theorem modulePresenceChange_false (p : Nat) (cmis : Bool) (s : State) : modulePresenceChange p false cmis s = s.moduleGoes p cmis := rfl

theorem statusRow_ne {k l : Nat} (h : k ≠ l) : P.LNK_STATUS k ≠ P.LNK_STATUS l := by simp only [P.LNK_STATUS]; omega

section
variable {s : State} {l : Nat} (present cmis : Bool)

theorem State.showModule_lnk : (s.showModule present cmis l).lnk = s.lnk := by
  unfold State.showModule
  cases present <;> cases cmis <;> rfl
theorem State.showModule_rd {k : Nat} (h : k ≠ P.LNK_STATUS l) : (s.showModule present cmis l).rd k = s.rd k := by
  rw [State.showModule, State.rd_putBit_other _ _ _ h, State.rd_putBit_other _ _ _ h]
theorem State.showModule_absent : (s.showModule present cmis l).bit (P.LNK_STATUS l) 10 = !present := by
  simp [State.showModule, State.bit_putBit]
theorem State.showModule_other : (s.showModule present cmis l).bit (P.LNK_STATUS l) 11 = (present && !cmis) := by
  simp [State.showModule, State.bit_putBit]

theorem showModules_lnk (ls : List Nat) : (ls.foldl (State.showModule present cmis) s).lnk = s.lnk :=
  foldl_keeps State.lnk (fun _ _ _ => State.showModule_lnk _ _)
theorem showModules_laneState {ls : List Nat} {k : Nat} (hk : k < 12) : (ls.foldl (State.showModule present cmis) s).laneState k = s.laneState k :=
  foldl_keeps (fun s => s.laneState k) (fun _ l _ => congrArg BitVec.toNat
    (State.showModule_rd _ _ (by simp only [P.LNK_LANE_STATE, P.LNK_STATUS]; omega)))
/-- Every lane of the list shows the module. -/
theorem showModules_bit {ls : List Nat} {k i : Nat} {b : Bool} (hk : k ∈ ls) (own : ∀ s : State, (s.showModule present cmis k).bit (P.LNK_STATUS k) i = b) :
    (ls.foldl (State.showModule present cmis) s).bit (P.LNK_STATUS k) i = b := by
  refine foldl_reaches (I := fun _ => True) (P := fun s => s.bit (P.LNK_STATUS k) i = b) hk trivial (fun _ _ _ _ => trivial) (fun s _ => own s) ?_
  intro s h l _
  by_cases e : l = k
  · subst e; exact own s
  · rw [← h, State.bit, State.rdN, State.showModule_rd _ _ (statusRow_ne (Ne.symm e))]
    rfl
end

section
variable (s : State) {l : Nat} (hl : l < 12)
include hl

theorem State.loseModule_present (q : Nat) : ((s.loseModule l).lanePort q).present = (s.lanePort q).present :=
  (State.faultLane_absent_moduleFrame hl _).present q
theorem State.loseModule_status {k : Nat} (hk : k < 12) : (s.loseModule l).rd (P.LNK_STATUS k) = s.rd (P.LNK_STATUS k) :=
  (State.faultLane_absent_moduleFrame hl _).par _ (by simp only [statusRow, P.LNK_STATUS]; omega)
theorem State.loseModule_modLos (k : Nat) : ((s.loseModule l).lane k).modLos = if k = l then false else (s.lane k).modLos := by
  rw [State.loseModule, (State.faultLane_absent_moduleFrame hl _).modLos]
  split
  next e => rw [e, State.lane_setLane_same]
  next e => rw [State.lane_setLane_other _ _ e]
theorem State.loseModule_laneState_same (h : laneSearch ≤ s.laneState l) : (s.loseModule l).laneState l = laneFault :=
  State.faultLane_absent_laneState_same hl _ h
theorem State.loseModule_laneState_other {k : Nat} (hk : k < 12) (ne : k ≠ l) : (s.loseModule l).laneState k = s.laneState k :=
  State.faultLane_absent_laneState_other hl _ hk ne
end

section
variable {s : State} {ls : List Nat} (hl : ∀ l ∈ ls, l < 12)
include hl

theorem loseModules_present (q : Nat) : ((ls.foldl State.loseModule s).lanePort q).present = (s.lanePort q).present :=
  foldl_keeps (fun s => (s.lanePort q).present) (fun s l m => s.loseModule_present (hl l m) q)
theorem loseModules_status {k : Nat} (hk : k < 12) : (ls.foldl State.loseModule s).rd (P.LNK_STATUS k) = s.rd (P.LNK_STATUS k) :=
  foldl_keeps (fun s => s.rd (P.LNK_STATUS k)) (fun s l m => s.loseModule_status (hl l m) hk)
/-- No lane of the list shows LOS. -/
theorem loseModules_modLos {k : Nat} (hk : k ∈ ls) : ((ls.foldl State.loseModule s).lane k).modLos = false :=
  foldl_reaches (I := fun _ => True) (P := fun s => (s.lane k).modLos = false) hk trivial (fun _ _ _ _ => trivial)
    (fun s _ => (s.loseModule_modLos (hl k hk) k).trans (if_pos rfl)) (fun s h l m => by rw [s.loseModule_modLos (hl l m), h, ite_self])
/-- Every lane of the list from SEARCH on is in FAULT. -/
theorem loseModules_laneState {k : Nat} (hk : k ∈ ls) (hs : laneSearch ≤ s.laneState k) : (ls.foldl State.loseModule s).laneState k = laneFault := by
  have own := fun s : State => s.loseModule_laneState_same (hl k hk)
  have other := fun (s : State) l m => s.loseModule_laneState_other (hl l m) (hl k hk)
  refine foldl_reaches (I := fun s => laneSearch ≤ s.laneState k) (P := fun s => s.laneState k = laneFault) hk hs ?_ own ?_
  case refine_1 =>
    intro s h l m
    by_cases e : k = l
    · subst e; rw [own s h]; decide
    · rwa [other s l m e]
  case refine_2 =>
    intro s h l m
    by_cases e : k = l
    · subst e; exact own s (by rw [h]; decide)
    · rwa [other s l m e]
end

section
variable (s : State) (p : Nat) (cmis : Bool)

theorem State.lanePort_noteModule (present : Bool) :
    (s.noteModule p present cmis).lanePort p = { s.lanePort p with present, cmis, lowPower := false } := State.lanePort_setLanePort_same _ _ _
theorem State.moduleComes_lanePort : (s.moduleComes p cmis).lanePort p = { s.lanePort p with present := true, cmis, lowPower := false } := by
  rw [← State.lanePort_noteModule, State.moduleComes, State.lanePort, showModules_lnk]
  rfl

variable {p} (hp : p < 3)
include hp

theorem lanesOf_lt : ∀ l ∈ lanesOf p, l < 12 := fun l m => by have := mem_lanesOf.mp m; omega

theorem State.moduleGoes_present : ((s.moduleGoes p cmis).lanePort p).present = false := by
  rw [State.moduleGoes, loseModules_present (lanesOf_lt hp), State.lanePort, showModules_lnk]
  exact congrArg LanePort.present (s.lanePort_noteModule p cmis false)

variable {k : Nat} (hk : k ∈ lanesOf p)
include hk

/-- Each lane of the port shows whether the module that has come is a CMIS module, and keeps its state. -/
theorem State.moduleComes_lane : (s.moduleComes p cmis).bit (P.LNK_STATUS k) 10 = false ∧ (s.moduleComes p cmis).bit (P.LNK_STATUS k) 11 = !cmis
    ∧ (s.moduleComes p cmis).laneState k = s.laneState k :=
  ⟨showModules_bit _ _ hk (fun _ => State.showModule_absent _ _), showModules_bit _ _ hk (fun _ => State.showModule_other _ _),
    showModules_laneState _ _ (lanesOf_lt hp k hk)⟩

/-- Each lane of the port shows that the module has gone, shows no LOS, and from SEARCH on is in FAULT. -/
theorem State.moduleGoes_lane : (s.moduleGoes p cmis).bit (P.LNK_STATUS k) 10 = true ∧ (s.moduleGoes p cmis).bit (P.LNK_STATUS k) 11 = false
    ∧ ((s.moduleGoes p cmis).lane k).modLos = false ∧ (laneSearch ≤ s.laneState k → (s.moduleGoes p cmis).laneState k = laneFault) := by
  have lanes := lanesOf_lt hp
  have shown : ∀ i, (s.moduleGoes p cmis).bit (P.LNK_STATUS k) i
      = ((lanesOf p).foldl (State.showModule false cmis) (s.noteModule p false cmis)).bit (P.LNK_STATUS k) i := fun i => by
    rw [State.moduleGoes, State.bit, State.rdN, loseModules_status lanes (lanes k hk)]
    rfl
  have state : ((lanesOf p).foldl (State.showModule false cmis) (s.noteModule p false cmis)).laneState k = s.laneState k :=
    showModules_laneState _ _ (lanes k hk)
  exact ⟨(shown 10).trans (showModules_bit _ _ hk (fun _ => State.showModule_absent _ _)),
    (shown 11).trans (showModules_bit _ _ hk (fun _ => State.showModule_other _ _)), loseModules_modLos lanes hk,
    fun h => loseModules_laneState lanes hk (state.symm ▸ h)⟩
end

end Sys2Proof.Machine
end

section
/-! The statement on the lane states, and on the freeze, eye, module and wake events (R323, R327 to R336, R338, R341). -/

namespace Sys2Proof.Machine

section
variable {s : State} {l : Nat}

/-! ### The states of a lane (R323, R328 to R332) -/

/-- The end of an eye scan replies, and leaves the ports. -/
theorem State.endScan_lanePort (s : State) (l q : Nat) : (s.endScan l).lanePort q = s.lanePort q := by
  unfold State.endScan
  split
  · simp only [State.lanePort, State.finish_lnk]; rfl
  · rfl
theorem State.setLaneState_lanePort (s : State) (l st q : Nat) : (s.setLaneState l st).lanePort q = s.lanePort q := by
  unfold State.setLaneState
  dsimp only
  split
  · exact State.endScan_lanePort _ _ _
  · rfl

theorem lanePllLocked_of_waking (h : s.laneState l = laneWaking) : lanePllLocked l s =
    if (s.lanePort (l / 4)).present then s.setLaneState l laneSearch else (s.setLaneState l laneSearch).faultLane l 10 := by
  rw [lanePllLocked, if_pos h, State.holdAbsent, State.setLaneState_lanePort]

theorem trainTimeout_of_elapsed (h : s.laneState l = laneTrain) (ht : (s.lane l).entered + msec (s.rdN P.LNK_TRAIN_TIMEOUT) ≤ s.time) :
    trainTimeout l s = s.faultLane l 6 := by simp [trainTimeout, h, ht]

theorem rejoinHoldExpiry_of_elapsed (h : s.laneState l = laneHold) (hp : s.lnkPortState (l / 4) = portActive_) (hc : (s.lanePort (l / 4)).change = none)
    (ht : (s.lane l).entered + msec (s.rdN P.LNK_REJOIN_HOLD) ≤ s.time) : rejoinHoldExpiry l s =
      s.propose (l / 4) (s.widest (l / 4) ((lanesOf (l / 4)).filter (fun k => k == l || s.laneState k == laneActive))) 16 false [l] := by
  simp [rejoinHoldExpiry, h, hp, hc, Nat.not_lt.mpr ht]

theorem laneFaultRetry_of_elapsed (h : s.laneState l = laneFault) (hr : s.rdN P.LNK_REJOIN = 1) (hm : (s.lanePort (l / 4)).present = true)
    (ht : (s.lane l).entered + msec 1 ≤ s.time) : laneFaultRetry l s = (s.setLaneState l laneSearch).notePort (l / 4) := by
  simp [laneFaultRetry, h, hr, hm, ht]

theorem laneFaultEvent_of_cause {c : Nat} (hp : l / 4 ≠ 2 ∨ s.prt.portal = false) (hc : c ∈ [0, 1, 2, 3, 7, 8, 9, 10]) :
    laneFaultEvent l c s = s.faultLane l c := by
  refine if_pos ((Bool.and_eq_true _ _).mpr ⟨List.contains_iff_mem.mpr hc, ?_⟩)
  rcases hp with h | h <;> simp [h]

/-! ### The window of 1 ms (R327, R329, R331, R332) -/

/-- The symbols corrected in the window. -/
def State.windowSymbols (s : State) (l : Nat) : Nat := (s.rdN (P.LNK_SYM_CORR l) + 4294967296 - (s.lane l).symFrom) % 4294967296
/-- The rate offset is shown, and a new window begins. -/
def State.newWindow (s : State) (l : Nat) (ppm : Int) : State :=
  (s.wrI (P.LNK_PPM l) (clampInt (-50000) 50000 ppm)).setLane l { s.lane l with windowFrom := s.time, symFrom := s.rdN (P.LNK_SYM_CORR l) }
/-- A window with many corrected symbols is shown. -/
def State.noteDegraded (s : State) (l n : Nat) : State := if s.rdN P.LNK_SER_DEGRADE < n then s.setBit (P.LNK_STATUS l) 3 else s
/-- The symbols corrected in the window of a lane that was in state `st` are judged. -/
def State.judgeWindow (s : State) (l st n : Nat) : State :=
  if s.rdN P.LNK_SER_FAIL < n && st ≤ laneActive then s.faultLane l 3
  else if st = laneTrain then (s.noteDegraded l n).trainWindow l n else s.noteDegraded l n

theorem State.judgeWindow_of_fail {st n : Nat} (hs : st ≤ laneActive) (hn : s.rdN P.LNK_SER_FAIL < n) : s.judgeWindow l st n = s.faultLane l 3 :=
  if_pos (by simp [hs, hn])
theorem State.judgeWindow_of_pass {st n : Nat} (h : n ≤ s.rdN P.LNK_SER_FAIL ∨ laneActive < st) :
    s.judgeWindow l st n = if st = laneTrain then (s.noteDegraded l n).trainWindow l n else s.noteDegraded l n :=
  if_neg (by rw [Bool.and_eq_true, decide_eq_true_eq, decide_eq_true_eq]; omega)

section
variable {ppm : Int}

theorem State.newWindow_fail : (s.newWindow l ppm).rdN P.LNK_SER_FAIL = s.rdN P.LNK_SER_FAIL :=
  State.rdN_wr_other s _ (by simp only [P.LNK_SER_FAIL, P.LNK_PPM]; omega)
theorem State.newWindow_degrade : (s.newWindow l ppm).rdN P.LNK_SER_DEGRADE = s.rdN P.LNK_SER_DEGRADE :=
  State.rdN_wr_other s _ (by simp only [P.LNK_SER_DEGRADE, P.LNK_PPM]; omega)
theorem State.newWindow_degraded {n : Nat} (h : s.rdN P.LNK_SER_DEGRADE < n) :
    (s.newWindow l ppm).noteDegraded l n = (s.newWindow l ppm).setBit (P.LNK_STATUS l) 3 := if_pos (by rwa [State.newWindow_degrade])
theorem State.newWindow_notDegraded {n : Nat} (h : n ≤ s.rdN P.LNK_SER_DEGRADE) : (s.newWindow l ppm).noteDegraded l n = s.newWindow l ppm :=
  if_neg (by rw [State.newWindow_degrade]; exact Nat.not_lt.mpr h)

variable (hs : laneSearch ≤ s.laneState l) (ht : (s.lane l).windowFrom + msec 1 ≤ s.time)
include hs ht

theorem serWindowEnd_of_elapsed : serWindowEnd l ppm s = (s.newWindow l ppm).judgeWindow l (s.laneState l) (s.windowSymbols l) := by
  have ended : ¬((decide (s.laneState l < laneSearch) || decide (s.time < (s.lane l).windowFrom + msec 1)) = true) := by
    rw [Bool.or_eq_true, decide_eq_true_eq, decide_eq_true_eq, not_or]
    exact ⟨Nat.not_lt.mpr hs, Nat.not_lt.mpr ht⟩
  have count : (s.wrI (P.LNK_PPM l) (clampInt (-50000) 50000 ppm)).rdN (P.LNK_SYM_CORR l) = s.rdN (P.LNK_SYM_CORR l) :=
    State.rdN_wr_other s _ (by simp only [P.LNK_SYM_CORR, P.LNK_PPM]; omega)
  rw [State.newWindow, ← count]
  exact if_neg ended
theorem serWindowEnd_of_fail (ha : s.laneState l ≤ laneActive) (hn : s.rdN P.LNK_SER_FAIL < s.windowSymbols l) :
    serWindowEnd l ppm s = (s.newWindow l ppm).faultLane l 3 :=
  (serWindowEnd_of_elapsed hs ht).trans (State.judgeWindow_of_fail ha (by rwa [State.newWindow_fail]))
theorem serWindowEnd_of_pass (hn : s.windowSymbols l ≤ s.rdN P.LNK_SER_FAIL ∨ laneActive < s.laneState l) :
    serWindowEnd l ppm s = if s.laneState l = laneTrain then ((s.newWindow l ppm).noteDegraded l (s.windowSymbols l)).trainWindow l (s.windowSymbols l)
      else (s.newWindow l ppm).noteDegraded l (s.windowSymbols l) :=
  (serWindowEnd_of_elapsed hs ht).trans (State.judgeWindow_of_pass (by rwa [State.newWindow_fail]))
end

/-! ### The switch of the lane mask (R323, R330; log 111) -/

theorem lmaskSwitch_of_asked {p : Nat} {c : MaskChange} (hc : (s.lanePort p).change = some c)
    (hd : ((s.lanePort p).cwc + 1 + 65536 - c.switch) % 65536 < 32768) (ha : c.agreed = false) :
    lmaskSwitch p s = s.setLanePort p { s.lanePort p with change := some { c with switch := ((s.lanePort p).cwc + 16) % 65536 } } := by
  simp [lmaskSwitch, hc, Nat.not_le.mpr hd, ha]

/-- The lanes that join are ACTIVE. -/
def State.joinLanes (s : State) (ls : List Nat) : State :=
  ls.foldl (fun s l => if s.laneState l = laneHold then s.setLaneState l laneActive else s) s
/-- The LMASK agreed on is taken up as the one in force. -/
def State.enforce (s : State) (p : Nat) (c : MaskChange) : State :=
  s.setLanePort p { s.lanePort p with change := none, force := (c.mask, c.switch), prev := (s.lanePort p).force }

theorem lmaskSwitch_of_agreed {p : Nat} {c : MaskChange} (hc : (s.lanePort p).change = some c)
    (hd : ((s.lanePort p).cwc + 1 + 65536 - c.switch) % 65536 < 32768) (ha : c.agreed = true) :
    lmaskSwitch p s =
      let a := (s.enforce p c).joinLanes c.joins
      let mask := laneMask ((lanesOf p).filter (fun l => bitOf c.mask (l % 4) && a.laneState l == laneActive))
      (((c.leaves.foldl State.fallowLane (a.putMask p mask)).notePort p).checkWaits p).reconsider p := by
  simp only [lmaskSwitch, hc, Nat.not_le.mpr hd, ha, if_false, Bool.not_true, Bool.false_eq_true]
  rfl

/-! ### Freeze and eye checks (R333, R334, R336) -/

section
variable {n : Nat} (hs : laneSearch ≤ s.laneState l)
include hs

theorem densityWindowEnd_of_few (hn : 5 * n < 112500) : densityWindowEnd l n s =
    ((s.setLane l { s.lane l with frozen := some ((s.lane l).frozen.getD s.time)
                                  checked := if (s.lane l).frozen.isSome then (s.lane l).checked else none }).setBit
      (P.LNK_STATUS l) 5).setBit (P.LNK_STATUS l) 4 := by
  rw [densityWindowEnd, if_neg (Nat.not_lt.mpr hs), if_pos hn]
theorem densityWindowEnd_of_between (hn : 112500 ≤ 5 * n) (hm : 4 * n < 112500) : densityWindowEnd l n s = s := by
  rw [densityWindowEnd, if_neg (Nat.not_lt.mpr hs), if_neg (Nat.not_lt.mpr hn), if_neg (Nat.not_le.mpr hm)]
theorem densityWindowEnd_of_many (hn : 112500 ≤ 4 * n) :
    densityWindowEnd l n s = (s.setLane l { s.lane l with frozen := none, checked := none }).clrBits (P.LNK_STATUS l) 32 := by
  rw [densityWindowEnd, if_neg (Nat.not_lt.mpr hs), if_neg (by omega), if_pos hn]
end

section
variable {f : Nat} (hf : (s.lane l).frozen = some f) (hs : (s.lane l).scan = none) (hc : (s.lane l).checking = false)
include hf hs hc

/-- The first check comes 10 ms after the freeze. -/
theorem eyeHealthCheck_first (hk : (s.lane l).checked = none) (ht : f + msec 10 ≤ s.time) :
    eyeHealthCheck l s = s.setLane l { s.lane l with checking := true, checked := some s.time } := by
  simp only [eyeHealthCheck, hf, hs, hc, hk, Option.isNone_none, Bool.not_false, Bool.and_true]
  exact if_pos (decide_eq_true ht)
/-- The next one comes 100 ms after the last. -/
theorem eyeHealthCheck_again {c : Nat} (hk : (s.lane l).checked = some c) (ht : c + msec 100 ≤ s.time) :
    eyeHealthCheck l s = s.setLane l { s.lane l with checking := true, checked := some s.time } := by
  simp only [eyeHealthCheck, hf, hs, hc, hk, Option.isNone_none, Bool.not_false, Bool.and_true]
  exact if_pos (decide_eq_true ht)
end

/-- A check has ended with these openings. -/
def State.eyeChecked (s : State) (l horizontal vertical : Nat) : State :=
  (s.setLane l { s.lane l with checking := false }).wrN (P.LNK_EYE_LAST l) (horizontal + 256 * vertical)

theorem eyeHealthCheckDone_of_checking (h v : Nat) (hc : (s.lane l).checking = true) : eyeHealthCheckDone l h v s =
    if h < s.rdN P.LNK_EYE_MIN_H ∨ v < s.rdN P.LNK_EYE_MIN_V then (s.eyeChecked l h v).faultLane l 9 else s.eyeChecked l h v := by
  have low : (s.eyeChecked l h v).rdN P.LNK_EYE_MIN_H = s.rdN P.LNK_EYE_MIN_H :=
    State.rdN_wrN_other _ _ (by simp only [P.LNK_EYE_MIN_H, P.LNK_EYE_LAST]; omega)
  have narrow : (s.eyeChecked l h v).rdN P.LNK_EYE_MIN_V = s.rdN P.LNK_EYE_MIN_V :=
    State.rdN_wrN_other _ _ (by simp only [P.LNK_EYE_MIN_V, P.LNK_EYE_LAST]; omega)
  rw [← low, ← narrow, eyeHealthCheckDone]
  simp only [hc, Bool.not_true, Bool.false_eq_true, if_false, Bool.or_eq_true, decide_eq_true_eq]
  rfl

theorem eyescanDone_of_scan {e : EyeScan} (h v : Nat) (bs : List Byte) (he : (s.lane l).scan = some e) : eyescanDone l h v bs s =
    ((s.setLane l { s.lane l with scan := none }).wrN (P.LNK_EYE_LAST l) (h + 256 * v)).finish 0x71 e.h stOk
      (if e.map then wordsOf (padTo 1024 (bs.take 1024)) else [BitVec.ofNat 32 (h + 256 * v)]) := by
  simp only [eyescanDone, he]

/-! ### The flags of a module (R341) -/

/-- The LOS flag of a lane is read; one that is set faults the lane. -/
def State.readLos (los : Nat) (s : State) (l : Nat) : State :=
  let s := s.setLane l { s.lane l with modLos := bitOf los (l % 4) }
  if bitOf los (l % 4) then s.faultLane l 0 else s

section
variable {p los : Nat}

theorem State.moduleFlags_of_cmis (hp : (s.lanePort p).present = true) (hc : (s.lanePort p).cmis = true) :
    s.moduleFlags p los = (lanesOf p).foldl (State.readLos los) (s.setLanePort p { s.lanePort p with polled := s.time }) := by
  simp only [State.moduleFlags, hp, hc, Bool.not_true, Bool.or_false, Bool.false_eq_true, if_false]
  rfl
theorem moduleFlagPoll_of_elapsed (ht : (s.lanePort p).polled + msec 100 ≤ s.time) : moduleFlagPoll p los s = s.moduleFlags p los :=
  if_neg (Nat.not_lt.mpr ht)
end
end

/-- Settles O40: each event by the equation of its meaning; a lane that faults leaves what the other lanes show of the module (that an LMASK proposal not yet
answered is made again 16 periods later is log 111). -/
theorem laneStateAndHealthComplete : Obligations.LaneStateAndHealthComplete := by
  refine ⟨fun s t l => ⟨?pll, ?train, ?window, ?rejoin, ?retry, ?fault, ?switch⟩,
    fun s t l q => ⟨?density, ?check, ?checked, ?scan, ?comes, ?goes, ?flags, rfl⟩⟩
  case pll => exact fun h => congrArg Host.Outcome.next (lanePllLocked_of_waking h)
  case train => exact fun h ht => congrArg Host.Outcome.next (trainTimeout_of_elapsed h ht)
  case window =>
    intro ppm hs ht n a
    refine ⟨fun ha hn => congrArg Host.Outcome.next (serWindowEnd_of_fail hs ht ha hn), fun hn => ?_⟩
    have passed := serWindowEnd_of_pass (ppm := ppm) hs ht hn
    exact ⟨fun h hd => congrArg Host.Outcome.next ((passed.trans (if_pos h)).trans (congrArg (State.trainWindow · l n) (State.newWindow_degraded hd))),
      fun h hd => congrArg Host.Outcome.next ((passed.trans (if_pos h)).trans (congrArg (State.trainWindow · l n) (State.newWindow_notDegraded hd))),
      fun h hd => congrArg Host.Outcome.next ((passed.trans (if_neg h)).trans (State.newWindow_degraded hd)),
      fun h hd => congrArg Host.Outcome.next ((passed.trans (if_neg h)).trans (State.newWindow_notDegraded hd))⟩
  case rejoin => exact fun h hp hc ht => congrArg Host.Outcome.next (rejoinHoldExpiry_of_elapsed h hp hc ht)
  case retry => exact fun h hr hm ht => congrArg Host.Outcome.next (laneFaultRetry_of_elapsed h hr hm ht)
  case fault =>
    exact fun hp => ⟨fun c hc => congrArg Host.Outcome.next (laneFaultEvent_of_cause hp hc),
      congrArg Host.Outcome.next (laneFaultEvent_of_cause hp (by decide))⟩
  case switch =>
    intro q c hc hd
    exact ⟨fun ha => congrArg Host.Outcome.next (lmaskSwitch_of_asked hc hd ha), fun ha => congrArg Host.Outcome.next (lmaskSwitch_of_agreed hc hd ha)⟩
  case density =>
    intro n hs
    exact ⟨fun hn => congrArg Host.Outcome.next (densityWindowEnd_of_few hs hn),
      fun hn hm => congrArg Host.Outcome.next (densityWindowEnd_of_between hs hn hm), fun hn => congrArg Host.Outcome.next (densityWindowEnd_of_many hs hn)⟩
  case check =>
    intro f hf hs hc hd
    rcases hd with ⟨hk, ht⟩ | ha
    · exact congrArg Host.Outcome.next (eyeHealthCheck_first hf hs hc hk ht)
    · obtain ⟨c, hk, ht⟩ := (Option.any_eq_true _ _).mp ha
      exact congrArg Host.Outcome.next (eyeHealthCheck_again hf hs hc hk (of_decide_eq_true ht))
  case checked =>
    intro a b hc
    have judged := eyeHealthCheckDone_of_checking a.toNat b.toNat hc
    exact ⟨fun h => congrArg Host.Outcome.next (judged.trans (if_pos h)),
      fun hh hv => congrArg Host.Outcome.next (judged.trans (if_neg (by omega)))⟩
  case scan =>
    intro a b bs e he
    have ends := eyescanDone_of_scan a.toNat b.toNat bs he
    exact ⟨fun hm => congrArg Host.Outcome.next (ends.trans (by rw [if_neg (by simp [hm])])),
      fun hm => congrArg Host.Outcome.next (ends.trans (by rw [if_pos hm]))⟩
  case comes =>
    intro c
    have port := (s.at_ t).moduleComes_lanePort q c
    exact ⟨_, congrArg Host.Outcome.next (modulePresenceChange_true q c _), congrArg LanePort.present port, congrArg LanePort.cmis port,
      congrArg LanePort.lowPower port, fun k m => State.moduleComes_lane _ c q.isLt m⟩
  case goes =>
    exact fun c => ⟨_, congrArg Host.Outcome.next (modulePresenceChange_false q c _), State.moduleGoes_present _ c q.isLt,
      fun k m => State.moduleGoes_lane _ c q.isLt m⟩
  case flags =>
    intro los hp hc
    have read := State.moduleFlags_of_cmis (los := los.toNat) hp hc
    exact ⟨congrArg Host.Outcome.next read, fun ht => congrArg Host.Outcome.next ((moduleFlagPoll_of_elapsed ht).trans read)⟩

end Sys2Proof.Machine
end

section
/-! The statement on the descriptor a pop takes (R370). -/

namespace Sys2Proof.Machine

/-- A bank that holds a descriptor splits at the one a pop takes: nothing in it has a lower priority number, and nothing pushed before has as low a one. -/
theorem bestOf_splits (e : Descriptor) (es : List Descriptor) : ∃ d before after, bestOf (e :: es) = some d ∧ e :: es = before ++ d :: after
    ∧ (∀ x ∈ e :: es, d.prio ≤ x.prio) ∧ (∀ x ∈ before, d.prio < x.prio) := by
  induction es generalizing e with
  | nil => exact ⟨e, [], [], rfl, rfl, fun x m => by rw [List.mem_singleton.mp m], fun x m => absurd m List.not_mem_nil⟩
  | cons f fs ih =>
    obtain ⟨d, before, after, best, split, least, earlier⟩ := ih f
    by_cases h : d.prio < e.prio
    · exact ⟨d, e :: before, after, by rw [bestOf, best]; exact if_pos h, by rw [split, List.cons_append],
        List.forall_mem_cons.mpr ⟨h.le, least⟩, List.forall_mem_cons.mpr ⟨h, earlier⟩⟩
    · exact ⟨e, [], f :: fs, by rw [bestOf, best]; exact if_neg h, rfl,
        List.forall_mem_cons.mpr ⟨le_rfl, fun x m => (not_lt.mp h).trans (least x m)⟩, fun x m => absurd m List.not_mem_nil⟩

/-- Only the first descriptor of a priority leaves the bank. -/
theorem dropPrio_append {before : List Descriptor} {d : Descriptor} (h : ∀ x ∈ before, d.prio < x.prio) (after : List Descriptor) :
    dropPrio d.prio (before ++ d :: after) = before ++ after := by
  induction before with
  | nil => exact if_pos (beq_self_eq_true d.prio)
  | cons x xs ih =>
    obtain ⟨hx, hxs⟩ := List.forall_mem_cons.mp h
    rw [List.cons_append, dropPrio, if_neg (by simpa using hx.ne'), ih hxs, List.cons_append]

/-- Settles O43, by the split of the bank at the descriptor taken. -/
theorem popTakesBest : Obligations.PopTakesBest := by
  refine fun bank => ⟨fun h => ?_, fun h => h ▸ rfl⟩
  obtain ⟨e, es, rfl⟩ := List.exists_cons_of_ne_nil h
  obtain ⟨d, before, after, best, split, least, earlier⟩ := bestOf_splits e es
  exact ⟨d, before, after, best, split, by rw [split, dropPrio_append earlier], least, earlier⟩

end Sys2Proof.Machine
end

section
/-! The statement on the ring-protocol events (R351, R354 to R358, R361 to R365). -/

namespace Sys2Proof.Machine

section
variable {s : State} {p : Nat}

@[simp] theorem State.port_setPort_same (s : State) (p : Nat) (x : ClpPort) : (s.setPort p x).port p = x := Two.get_set_same _ _ _

/-! ### Frames sent, and sent again (R355, R357, R361) -/

/-- A port's best frame leaves its queue for the retransmit buffer; the sequence number it takes is the one the port was to send. -/
theorem frameSend_of_choose {k : Nat} {own : Bool} {f : Frame} (ha : s.portActive p = true) (ht : (s.port p).turning = false)
    (hc : (s.port p).choose = some (k, own)) (hn : (s.port p).txNext < 65536)
    (hf : firstOf (s.port p).xoffIn k (if own then (s.port p).own else (s.port p).through) = some f)
    (hr : (s.port p).retransmitBytes + f.size ≤ 2097152) :
    frameSend p s =
      let x := s.port p
      let y := if own then { x with own := dropFirst x.xoffIn k x.own } else { x with through := dropFirst x.xoffIn k x.through }
      let z := { y with lastOwn := Sparse.set false x.lastOwn k own, txNext := (x.txNext + 1) % 65536
                        retransmit := x.retransmit ++ [{ hseq := x.txNext, sentAt := s.time, frame := f }] }
      ((((s.setPort p z).addWrap (P.CLP_TX_FRAMES p) 1).queueBlocks (lnkOf p) false (frameBlocks x.txNext f false)).count 12 p).updateXoff (1 - p) := by
  have number : (((s.port p).txNext + 1) % 65536 + 65535) % 65536 = (s.port p).txNext := by omega
  have room := Nat.not_lt.mpr hr
  cases own with
  | true =>
    have first : firstOf (s.port p).xoffIn k (s.port p).own = some f := hf
    simp [frameSend, ha, ht, hc, first, room, number]
  | false =>
    have first : firstOf (s.port p).xoffIn k (s.port p).through = some f := hf
    simp [frameSend, ha, ht, hc, first, room, number]

theorem retransmitTimeout_of_elapsed {f : SentFrame} {fs : List SentFrame} (h : (s.port p).retransmit = f :: fs) (he : f.sentAt + s.ackTime p ≤ s.time)
    (ht : (s.port p).turning = false) : retransmitTimeout p s = s.resend p := by
  simp [retransmitTimeout, h, he, ht]

/-! ### Frames received (R355) -/

/-- A frame that is due and fails has been passed on as it came: its copy ends with ABORT (R360; log 112). -/
def State.endCopy (s : State) (p : Nat) (f : RxFrame) : State := if f.hseq.toNat = (s.port p).rxExpect then s.abortCopy p (rxHeld f) else s

section
variable {f : RxFrame} (ha : s.portActive p = true) (hr : s.isRingPort p = true)
include ha hr

theorem frameReceive_of_abort (h : f.abort = true) : frameReceive p f s = (s.endCopy p f).discard p := by
  simp [frameReceive, ha, hr, h, State.endCopy]
theorem frameReceive_of_bad (h : f.abort = false) (hg : rxGood f = false) : frameReceive p f s = ((s.endCopy p f).discard p).sendAck p true := by
  simp [frameReceive, ha, hr, h, hg, State.endCopy]

variable (h : f.abort = false) (hg : rxGood f = true)
include h hg

theorem frameReceive_of_expected (he : f.hseq.toNat = (s.port p).rxExpect) : frameReceive p f s =
    (((((s.setPort p { s.port p with rxExpect := ((s.port p).rxExpect + 1) % 65536, nakSent := false }).addWrap (P.CLP_RX_FRAMES p) 1).route p
      (rxHeld f)).sendAck p false).updateXoff p) := by
  simp [frameReceive, ha, hr, h, hg, he]
theorem frameReceive_of_ahead (he : f.hseq.toNat ≠ (s.port p).rxExpect) (hn : (f.hseq.toNat + 65536 - (s.port p).rxExpect) % 65536 < 32768) :
    frameReceive p f s =
      if (s.port p).nakSent then s.discard p else ((s.discard p).setPort p { (s.discard p).port p with nakSent := true }).sendAck p true := by
  simp [frameReceive, ha, hr, h, hg, he, hn]
theorem frameReceive_of_behind (he : f.hseq.toNat ≠ (s.port p).rxExpect) (hn : 32768 ≤ (f.hseq.toNat + 65536 - (s.port p).rxExpect) % 65536) :
    frameReceive p f s = (s.discard p).sendAck p false := by
  simp [frameReceive, ha, hr, h, hg, he, Nat.not_lt.mpr hn]
end

/-! ### Acknowledgements (R356 to R358, R362) -/

theorem ackReceive_of_active (a : AckBlock) (ha : s.portActive p = true) (ht : (s.port p).turning = false) :
    ackReceive p a s =
      let kept := s.setPort p { s.port p with retransmit := (s.port p).retransmit.filter (fun f => !covers a.ackSeq.toNat f.hseq) }
      let freed := ((s.port p).retransmit.filter (fun f => covers a.ackSeq.toNat f.hseq)).foldl State.ackFrame kept
      ((if a.nak then freed.resend p else freed).takeXoff p a.xoff.toNat).updateXoff (1 - p) :=
  if_neg (by simp [ha, ht])

theorem xoffAckRepeat_of_due (hx : s.xoffOf p ≠ 0) (ht : (s.port p).ackAt + usec 1 ≤ s.time) : xoffAckRepeat p s = s.sendAck p false :=
  if_pos (by simp [hx, ht])

/-! ### Headland turns (R364, R365) -/

theorem portBroken_of_down (ha : s.portActive p = false) (ht : (s.port p).turning = false) (hr : s.isRingPort p = true) :
    portBroken p s =
      let a := ((s.setPort p { s.port p with turning := true, retransmit := [] }).setBit P.CLP_STATUS 2).setBit P.CLP_STATUS 3
      ((((s.port p).retransmit.foldl (fun s f => s.sendOn p true f.frame) a).turnWaiting p).endHere p) :=
  if_neg (by simp [ha, ht, hr])

/-! ### Positions (R351) -/

/-- What a port sends of the end in the other direction. -/
def State.tellsEnd (s : State) (p : Nat) (q : PosContent) : State :=
  (s.setPort p { s.port p with posSent := some q }).queueBlocks (lnkOf p) true [posBlock q.endId q.hops q.brk]

/-- The end in the other direction: the portal itself, the node at a break, or the end the other port knows, one hop further. -/
def State.otherEnd (s : State) (p : Nat) : Option PosContent :=
  if s.prt.portal then some { endId := s.rdN P.SYS_NODE_ID, hops := 0, brk := false, at_ := s.time }
  else if !s.portActive (1 - p) then some { endId := s.rdN P.SYS_NODE_ID, hops := 0, brk := true, at_ := s.time }
  else (s.port (1 - p)).pos.map (fun q => { q with hops := q.hops + 1, at_ := s.time })

theorem State.otherEnd_of_portal (h : s.prt.portal = true) :
    s.otherEnd p = some { endId := s.rdN P.SYS_NODE_ID, hops := 0, brk := false, at_ := s.time } := if_pos h
theorem State.otherEnd_of_break (h : s.prt.portal = false) (hb : s.portActive (1 - p) = false) :
    s.otherEnd p = some { endId := s.rdN P.SYS_NODE_ID, hops := 0, brk := true, at_ := s.time } := by simp [State.otherEnd, h, hb]
theorem State.otherEnd_of_known {q : PosContent} (h : s.prt.portal = false) (hb : s.portActive (1 - p) = true) (hq : (s.port (1 - p)).pos = some q) :
    s.otherEnd p = some { q with hops := q.hops + 1, at_ := s.time } := by simp [State.otherEnd, h, hb, hq]

theorem posSend_of_due {q : PosContent} (ha : s.portActive p = true) (hr : s.isRingPort p = true)
    (hd : (s.port p).posSent.all (fun q => decide (q.at_ + usec 8 ≤ s.time)) = true) (hq : s.otherEnd p = some q) : posSend p s = s.tellsEnd p q := by
  unfold State.otherEnd at hq
  cases hs : (s.port p).posSent with
  | none => simp only [posSend, ha, hr, hs, Bool.not_true, Bool.or_false, Bool.false_eq_true, if_false, hq, State.tellsEnd]
  | some sent =>
    rw [hs, Option.all_some] at hd
    simp only [posSend, ha, hr, hs, hd, Bool.not_true, Bool.or_false, Bool.false_eq_true, if_false, hq, State.tellsEnd]

/-- What the two position rows of a port show, with the port's knowledge of the end. -/
structure State.ShowsEnd (s : State) (p : Nat) (hops : Nat) (endId : Word) (pos : Option PosContent) : Prop where
  hops : s.rdN (P.CLP_POS_HOPS p) = hops
  endId : s.rd (P.CLP_POS_END p) = endId
  pos : (s.port p).pos = pos

/-- The port's knowledge of the end is noted and shown. -/
def State.noteEnd (s : State) (p hops endId : Nat) (pos : Option PosContent) : State :=
  ((s.setPort p { s.port p with pos }).wrN (P.CLP_POS_HOPS p) hops).wrN (P.CLP_POS_END p) endId

theorem posHops_ne_posEnd (p : Nat) : P.CLP_POS_HOPS p ≠ P.CLP_POS_END p := by simp only [P.CLP_POS_HOPS, P.CLP_POS_END]; omega
theorem posHops_ne_status (hp : p < 2) : P.CLP_POS_HOPS p ≠ P.CLP_STATUS := by simp only [P.CLP_POS_HOPS, P.CLP_STATUS]; omega
theorem posEnd_ne_status (hp : p < 2) : P.CLP_POS_END p ≠ P.CLP_STATUS := by simp only [P.CLP_POS_END, P.CLP_STATUS]; omega

theorem State.noteEnd_shows (s : State) (p : Nat) {hops : Nat} (endId : Nat) (pos : Option PosContent) (h : hops < 4294967296) :
    (s.noteEnd p hops endId pos).ShowsEnd p hops (BitVec.ofNat 32 endId) pos where
  hops := by
    rw [State.noteEnd, State.rdN_wrN_other _ _ (posHops_ne_posEnd p), State.rdN_wrN_same, Nat.mod_eq_of_lt h]
  endId := State.rd_wr_same _ _ _
  pos := congrArg ClpPort.pos (State.port_setPort_same s p _)
theorem State.noteEnd_rd (s : State) (p hops endId : Nat) (pos : Option PosContent) {k : Nat} (h : k ≠ P.CLP_POS_HOPS p) (g : k ≠ P.CLP_POS_END p) :
    (s.noteEnd p hops endId pos).rd k = s.rd k := by
  rw [State.noteEnd, State.rd_wrN_other _ _ g, State.rd_wrN_other _ _ h, State.setPort_rd]

/-- A change of CLP_STATUS leaves what shows the end. -/
theorem State.ShowsEnd.setStatus {hops : Nat} {endId : Word} {pos : Option PosContent} (h : s.ShowsEnd p hops endId pos) (hp : p < 2) (i : Nat) :
    (s.setBit P.CLP_STATUS i).ShowsEnd p hops endId pos where
  hops := (State.rdN_setBit_other s i (posHops_ne_status hp)).trans h.hops
  endId := (State.rd_setBit_other s i (posEnd_ne_status hp)).trans h.endId
  pos := h.pos

theorem posReceive_shows (s : State) (hp : p < 2) (endId : Nat) {hops : Nat} (h : hops < 4096) (brk : Bool) :
    (posReceive p endId hops brk s).ShowsEnd p (hops + 1) (BitVec.ofNat 32 endId) (some { endId, hops, brk, at_ := s.time }) := by
  have noted := s.noteEnd_shows p (hops := hops + 1) endId (some { endId, hops, brk, at_ := s.time }) (by omega)
  cases brk with
  | true => exact noted.setStatus hp 8
  | false => exact noted
theorem posReceive_break (s : State) (p endId hops : Nat) : (posReceive p endId hops true s).bit P.CLP_STATUS 8 = true :=
  State.bit_setBit_same _ (by decide)
theorem posReceive_mem (s : State) (p endId hops : Nat) (brk : Bool) : (posReceive p endId hops brk s).mem = s.mem := by cases brk <;> rfl
theorem posReceive_rd (s : State) (p endId hops : Nat) (brk : Bool) {k : Nat} (h : k ≠ P.CLP_POS_HOPS p) (g : k ≠ P.CLP_POS_END p)
    (hs : k ≠ P.CLP_STATUS) : (posReceive p endId hops brk s).rd k = s.rd k := by
  cases brk with
  | true => exact (State.rd_setBit_other _ _ hs).trans (s.noteEnd_rd _ _ _ _ h g)
  | false => exact s.noteEnd_rd _ _ _ _ h g

theorem posTimeout_of_end (h : s.isEnd p = true) : posTimeout p s = s.noteEnd p 0 (s.rdN P.SYS_NODE_ID) none := if_pos h
theorem posTimeout_of_stale (h : s.isEnd p = false) (hs : (s.port p).pos.all (fun q => decide (q.at_ + usec 50 ≤ s.time)) = true) :
    posTimeout p s = s.noteEnd p 0xFFF 0xFFF none := by
  cases hq : (s.port p).pos with
  | none => simp only [posTimeout, h, hq, Bool.false_eq_true, if_false, if_true, State.endUnknown, State.noteEnd]
  | some q =>
    rw [hq, Option.all_some] at hs
    simp only [posTimeout, h, hq, hs, Bool.false_eq_true, if_false, if_true, State.endUnknown, State.noteEnd]

end

/-- Settles O41: each event by the equation of its meaning (that FRAME_SEND's instant stands for the EOF's in `sentAt`, that control blocks go ahead of
frames, and `abortCopy` are log 112). -/
theorem chainEventsComplete : Obligations.ChainEventsComplete := by
  refine fun s t p => ⟨?send, ?receive, ?ack, ?again, ?repeats, ?breaks, ?tells, ?hears, ?forgets⟩
  case send => exact fun k own f ha ht hc hn hf hr => congrArg Host.Outcome.next (frameSend_of_choose ha ht hc hn hf hr)
  case receive =>
    intro f ha hr a
    refine ⟨fun h => congrArg Host.Outcome.next (frameReceive_of_abort ha hr h),
      fun h hg => congrArg Host.Outcome.next (frameReceive_of_bad ha hr h hg), fun h hg => ⟨?expected, ?ahead, ?refused, ?behind⟩⟩
    case expected => exact fun he => congrArg Host.Outcome.next (frameReceive_of_expected ha hr h hg he)
    case ahead => exact fun he hn hk => congrArg Host.Outcome.next ((frameReceive_of_ahead ha hr h hg he hn).trans (if_neg (by simp [hk])))
    case refused => exact fun he hn hk => congrArg Host.Outcome.next ((frameReceive_of_ahead ha hr h hg he hn).trans (if_pos hk))
    case behind => exact fun he hn => congrArg Host.Outcome.next (frameReceive_of_behind ha hr h hg he hn)
  case ack => exact fun a ha ht => congrArg Host.Outcome.next (ackReceive_of_active a ha ht)
  case again => exact fun f fs h he ht => congrArg Host.Outcome.next (retransmitTimeout_of_elapsed h he ht)
  case repeats => exact fun hx ht => congrArg Host.Outcome.next (xoffAckRepeat_of_due hx ht)
  case breaks => exact fun ha ht hr => congrArg Host.Outcome.next (portBroken_of_down ha ht hr)
  case tells =>
    exact fun ha hr hd => ⟨fun h => congrArg Host.Outcome.next (posSend_of_due ha hr hd (State.otherEnd_of_portal h)),
      fun h hb => congrArg Host.Outcome.next (posSend_of_due ha hr hd (State.otherEnd_of_break h hb)),
      fun q h hb hq => congrArg Host.Outcome.next (posSend_of_due ha hr hd (State.otherEnd_of_known h hb hq))⟩
  case hears =>
    intro e h b
    have shown := posReceive_shows (s.at_ t) p.isLt e.toNat h.isLt b
    have endId : BitVec.toNat (BitVec.ofNat 32 e.toNat) = e.toNat := by rw [BitVec.toNat_ofNat]; exact Nat.mod_eq_of_lt (by omega)
    refine ⟨posReceive p e.toNat h.toNat b (s.at_ t), rfl, shown.hops, (congrArg BitVec.toNat shown.endId).trans endId, fun hb => ?_, shown.pos,
      posReceive_mem _ _ _ _ _, fun k hk gk hs => posReceive_rd _ _ _ _ _ hk gk hs⟩
    rw [hb]
    exact posReceive_break _ _ _ _
  case forgets =>
    refine ⟨fun h => ?own, fun h hs => ?unknown⟩
    case own =>
      have shown := (s.at_ t).noteEnd_shows p ((s.at_ t).rdN P.SYS_NODE_ID) none (show 0 < 4294967296 by decide)
      exact ⟨_, congrArg Host.Outcome.next (posTimeout_of_end h), shown.hops, shown.endId.trans (by rw [State.rdN, BitVec.ofNat_toNat, BitVec.setWidth_eq]), shown.pos⟩
    case unknown =>
      have shown := (s.at_ t).noteEnd_shows p 0xFFF none (show 0xFFF < 4294967296 by decide)
      exact ⟨_, congrArg Host.Outcome.next (posTimeout_of_stale h hs), shown.hops, congrArg BitVec.toNat shown.endId, shown.pos⟩

end Sys2Proof.Machine
end

section
/-! The statement on the merge events (R377, R379) and on the delivery into host memory (R384 to R386). -/

namespace Sys2Proof.Machine

section
variable {s : State}

/-! ### Records and sheaves that wait no longer (R377, R379) -/

theorem segmentTimeout_of_old {a : Assembly} (h : s.prt.assembly.find? (fun a => decide (a.lastAt + msec 10 ≤ s.time)) = some a) :
    segmentTimeout s =
      ((State.updateAssembly { s with prt := { s.prt with assembly := s.prt.assembly.filter (fun b => b != a) } }).lossEntry a.node a.kind a.run
        a.seq).portalXoffMoves := by
  rw [segmentTimeout, h]

theorem sheafWaitExpiry_of_open {x : MergeTag}
    (h : s.prt.tags.find? (fun t => !t.closed && decide (t.at_ + msec (s.rdN P.PRT_SHEAF_WAIT) ≤ s.time)) = some x) :
    sheafWaitExpiry s = s.closeTag x 1 := by
  rw [sheafWaitExpiry, h]

theorem tagFree_of_closed {x : MergeTag}
    (h : s.prt.tags.find? (fun t => t.closed && decide (t.at_ + msec (s.rdN P.PRT_SHEAF_WAIT) ≤ s.time)) = some x) :
    tagFree s = { s with prt := { s.prt with tags := s.prt.tags.filter (fun u => u.slot != x.slot) } } := by
  rw [tagFree, h]

/-! ### The first item of a ring's queue (R384, R386) -/

section
variable {r : Nat} {d : Delivery} {ds : List Delivery} (hq : (s.ringRt r).queue = d :: ds)
include hq

theorem deliveryWrite_of_disabled (h : s.prt.linkUp = false ∨ s.ringEnabled r = false) :
    deliveryWrite r s = (s.setRing r { s.ringRt r with queue := ds }).undelivered := by
  rcases h with h | h <;> simp [deliveryWrite, hq, h]

variable (hl : s.prt.linkUp = true) (he : s.ringEnabled r = true)
include hl he

/-- An item longer than the data area is discarded; a record leaves a LOSS entry, which waits for room itself. -/
theorem deliveryWrite_of_long (hn : 2 ^ s.dataLog r < d.bytes.length) :
    deliveryWrite r s =
      let loss : Delivery := { d with type := 4, bytes := [], sheaf := none, id := 0, own := none }
      let a := s.undelivered
      if d.type ≠ 0 then a.setRing r { s.ringRt r with queue := ds }
      else if a.entryRoom r then (a.setRing r { s.ringRt r with queue := ds }).writeEntry r loss (s.ringRt r).offset 0 []
      else a.setRing r { s.ringRt r with queue := loss :: ds } := by
  simp [deliveryWrite, hq, hl, he, hn]

variable (hn : d.bytes.length ≤ 2 ^ s.dataLog r)
include hn

theorem deliveryWrite_of_full (hf : s.ringFits r d = false) : deliveryWrite r s = s.ringFull r := by
  simp [deliveryWrite, hq, hl, he, hf, Nat.not_lt.mpr hn]

/-- An item that does not fit before the end of the data area is preceded by a SKIP entry. -/
theorem deliveryWrite_of_end (hf : s.ringFits r d = true) (ho : 2 ^ s.dataLog r < (s.ringRt r).offset + d.bytes.length) :
    deliveryWrite r s =
      let a := s.writeEntry r { type := 3, ring := r, bytes := [] } (s.ringRt r).offset (2 ^ s.dataLog r - (s.ringRt r).offset) []
      a.setRing r { a.ringRt r with offset := 0 } := by
  simp [deliveryWrite, hq, hl, he, hf, Nat.not_lt.mpr hn, ho]

theorem deliveryWrite_of_room (hf : s.ringFits r d = true) (ho : (s.ringRt r).offset + d.bytes.length ≤ 2 ^ s.dataLog r) :
    deliveryWrite r s =
      let n := d.bytes.length
      (((((s.setRing r { s.ringRt r with queue := ds, offset := ((s.ringRt r).offset + ceilDiv n 64 * 64) % 2 ^ s.dataLog r }).writeEntry r d
        (s.ringRt r).offset n d.bytes).ackOwn d).closeOld r).easeRing r) := by
  simp [deliveryWrite, hq, hl, he, hf, Nat.not_lt.mpr hn, Nat.not_lt.mpr ho]
end

theorem msixModTimeout_of_elapsed {r : Nat} (hu : (s.ringRt r).unsignalled ≠ 0)
    (ht : (s.ringRt r).firstUnsignalled + usec (bits (s.bar (barMod r) 0) 31 16) ≤ s.time) :
    msixModTimeout r s = (s.setRing r { s.ringRt r with unsignalled := 0 }).signal r :=
  if_pos (by simp [hu, ht])
end

/-- Settles O44: each event by the equation of its meaning. -/
theorem mergeAndDeliveryEventsComplete : Obligations.MergeAndDeliveryEventsComplete := by
  refine ⟨fun s t => ⟨?abandoned, ?waited, ?freed⟩, fun s t i => ⟨?write, ?signal⟩⟩
  case abandoned => exact fun a h => congrArg Host.Outcome.next (segmentTimeout_of_old h)
  case waited => exact fun x h => congrArg Host.Outcome.next (sheafWaitExpiry_of_open h)
  case freed => exact fun x h => congrArg Host.Outcome.next (tagFree_of_closed h)
  case write =>
    refine fun d ds hq => ⟨fun hl he => ⟨fun hn hf => ⟨fun ho => ?room, fun ho => ?skip⟩, fun hn hf => ?holds, fun hn => ?long⟩, fun h => ?disabled⟩
    case room => exact congrArg Host.Outcome.next (deliveryWrite_of_room hq hl he hn hf ho)
    case skip => exact congrArg Host.Outcome.next (deliveryWrite_of_end hq hl he hn hf ho)
    case holds => exact congrArg Host.Outcome.next (deliveryWrite_of_full hq hl he hn hf)
    case long =>
      have gone := deliveryWrite_of_long hq hl he hn
      exact ⟨fun h => congrArg Host.Outcome.next (gone.trans (if_pos h)),
        fun h hr => congrArg Host.Outcome.next (gone.trans ((if_neg (not_not.mpr h)).trans (if_pos hr))),
        fun h hr => congrArg Host.Outcome.next (gone.trans ((if_neg (not_not.mpr h)).trans (if_neg (by simp [hr]))))⟩
    case disabled => exact congrArg Host.Outcome.next (deliveryWrite_of_disabled hq h)
  case signal => exact fun hu ht => congrArg Host.Outcome.next (msixModTimeout_of_elapsed hu ht)

end Sys2Proof.Machine
end

section
/-! The statement on the registers of BAR0, the command ring and the PCI Express link (R381 to R383, R386, R387, R475). -/

namespace Sys2Proof.Machine

section
variable {s : State}

@[simp] theorem State.ringRt_setRing_same (s : State) (r : Nat) (x : RingRuntime) : (s.setRing r x).ringRt r = x := Sparse.get_set_same _ _ _ _
theorem State.ringRt_setRing_other (s : State) {r i : Nat} (x : RingRuntime) (h : i ≠ r) : (s.setRing r x).ringRt i = s.ringRt i :=
  Sparse.get_set_other _ _ _ _ _ _ h

/-! ### A ring's registers (R382, R384, R386) -/

/-- A ring is marked as being without room, or as having room. -/
def State.markRing (s : State) (r : Nat) (full : Bool) : State := (s.setRing r { s.ringRt r with full }).portalXoffMoves

theorem State.ringRoom_of_empty {r : Nat} (h : (s.ringRt r).queue = []) : s.ringRoom r = true := by
  rw [State.ringRoom]
  simp only [h, ringTakes]

theorem State.easeRing_of_room {r : Nat} (h : s.ringRoom r = true) : s.easeRing r = s.markRing r false := by
  simp only [State.easeRing, State.markRing, h, Bool.not_true, Bool.and_false]
theorem State.easeRing_of_noRoom {r : Nat} (h : s.ringRoom r = false) : s.easeRing r = s.markRing r (s.ringRt r).full := by
  simp only [State.easeRing, State.markRing, h, Bool.not_false, Bool.and_true]

/-- The entries below CONS are freed. -/
def State.freeEntries (s : State) (r v : Nat) : State :=
  let a := s.setBar (barCons r) 0 v
  a.setRing r { a.ringRt r with live := (a.ringRt r).live.filter (fun e => decide ((e.1 + 4294967296 - v) % 4294967296 < 2147483648)) }

theorem consWrite_eq (r v : Nat) (s : State) : consWrite r v s = (s.freeEntries r v).easeRing r := rfl
theorem State.freeEntries_queue (s : State) (r v : Nat) : ((s.freeEntries r v).ringRt r).queue = (s.ringRt r).queue := by
  rw [State.freeEntries, State.ringRt_setRing_same]; rfl
theorem State.freeEntries_full (s : State) (r v : Nat) : ((s.freeEntries r v).ringRt r).full = (s.ringRt r).full := by
  rw [State.freeEntries, State.ringRt_setRing_same]; rfl

theorem ctrlWrite_enable {r v : Nat} (hv : v % 2 = 1) (he : s.ringEnabled r = false) :
    ctrlWrite r v s = ((s.setBar (barCtrl r) 0 (v % 2)).setBar (barProd r) 0 0).setRing r { queue := (s.ringRt r).queue } :=
  if_pos (by simp [hv, he])
theorem ctrlWrite_stays {r v : Nat} (hv : v % 2 = 1) (he : s.ringEnabled r = true) : ctrlWrite r v s = s.setBar (barCtrl r) 0 (v % 2) :=
  (if_neg (by simp [he])).trans (if_neg (by omega))
theorem ctrlWrite_disable {r v : Nat} (hv : v % 2 = 0) :
    ctrlWrite r v s =
      let a := s.setBar (barCtrl r) 0 (v % 2)
      ((List.range (a.ringRt r).queue.length).foldl (fun (s : State) _ => s.undelivered)
        (a.setRing r { a.ringRt r with queue := [], full := false })).portalXoffMoves :=
  (if_neg (by simp [hv])).trans (if_pos hv)

/-! ### The offsets of BAR0 (Table 11-18) -/

theorem barWrite_cmdTail (v : Nat) (s : State) : barWrite barCmdTail v s = cmdTailWrite v s := rfl
theorem barWrite_cmdCtrl (v : Nat) (s : State) : barWrite barCmdCtrl v s = cmdCtrlWrite v s := rfl
theorem barWrite_cons {r : Nat} (hr : r < 8) (v : Nat) (s : State) : barWrite (barCons r) v s = consWrite r v s := by
  interval_cases r <;> rfl
theorem barWrite_ctrl {r : Nat} (hr : r < 8) (v : Nat) (s : State) : barWrite (barCtrl r) v s = ctrlWrite r v s := by
  interval_cases r <;> rfl
theorem barWrite_cmdBase {off : Nat} (h : isCmdBase off = true) (v : Nat) (s : State) :
    barWrite off v s = if bitOf (s.bar barCmdCtrl 0) 0 then s else s.setBar off (barReset off) v := by
  have listed : off = 0x10 ∨ off = 0x14 ∨ off = 0x18 := by simpa [isCmdBase, or_assoc] using h
  rcases listed with rfl | rfl | rfl <;> rfl

/-! ### The command ring (R383) -/

theorem commandRingFetch_of_waiting {e1 : Nat} {packet : List Byte} (hp : s.prt.portal = true) (hl : s.prt.linkUp = true)
    (hc : bitOf (s.bar barCmdCtrl 0) 0 = true)
    (hw : s.bar barCmdHead 0 % 2 ^ max 4 (min 12 (s.bar barCmdSize 4)) ≠ s.bar barCmdTail 0 % 2 ^ max 4 (min 12 (s.bar barCmdSize 4))) :
    commandRingFetch e1 packet s =
      let size := 2 ^ max 4 (min 12 (s.bar barCmdSize 4))
      let head := s.bar barCmdHead 0
      let a := ((s.setBar barCmdHead 0 ((head + 1) % size)).writeBack 0x28 ((head + 1) % size)).signal 8
      if bits e1 15 0 < 20 ∨ 4100 < bits e1 15 0 ∨ bits e1 63 16 ≠ 0 then a.prtStatus 10
      else a.issue (padTo (bits e1 15 0) (packet.take (bits e1 15 0))) := by
  simp [commandRingFetch, hp, hl, hc, hw, or_assoc]

/-! ### The PCI Express link (R381, R386, R387, R475) -/

theorem pcieLinkUp_of_portal (rate width : Nat) (hp : s.prt.portal = true) :
    pcieLinkUp rate width s =
      (State.wrN { s with prt := { s.prt with linkUp := true } } P.PRT_LINK (128 + 16 * rate + width)).putBit P.PRT_STATUS 9 true :=
  if_neg (by simp [hp])
theorem functionLevelReset_of_portal (hp : s.prt.portal = true) :
    functionLevelReset s =
      (State.closeSession { s.dropRings with prt := { s.dropRings.prt with bar0 := [], rings := [] } }).portalXoffMoves :=
  if_neg (by simp [hp])

/-- From `s` to `t` the link and what shows it stay as they are, and neither a session nor an item for a ring comes. -/
structure EndpointFrame (s t : State) : Prop where
  linkUp : t.prt.linkUp = s.prt.linkUp
  link : t.rd P.PRT_LINK = s.rd P.PRT_LINK
  status : t.bit P.PRT_STATUS 9 = s.bit P.PRT_STATUS 9
  session : s.mgt.session = none → t.mgt.session = none
  queue : ∀ i, (s.ringRt i).queue = [] → (t.ringRt i).queue = []

namespace EndpointFrame
variable {s t u : State}

theorem refl (s : State) : EndpointFrame s s := ⟨rfl, rfl, rfl, id, fun _ => id⟩
/-- The last change first, as a state names its changes from the outside in. -/
theorem after (g : EndpointFrame t u) (h : EndpointFrame s t) : EndpointFrame s u :=
  ⟨g.linkUp.trans h.linkUp, g.link.trans h.link, g.status.trans h.status, g.session ∘ h.session, fun i => g.queue i ∘ h.queue i⟩
theorem ite {p : Prop} [Decidable p] (h : EndpointFrame s t) (g : EndpointFrame s u) : EndpointFrame s (if p then t else u) := by
  split
  · exact h
  · exact g
theorem foldl {α : Type} {f : State → α → State} (hf : ∀ s x, EndpointFrame s (f s x)) (xs : List α) (s : State) : EndpointFrame s (xs.foldl f s) :=
  List.foldlRecOn xs f (refl s) (fun _ h x _ => (hf _ x).after h)
/-- A change to neither the portal nor the parameters nor the sessions. -/
theorem of_eq (hp : t.par = s.par) (ht : t.prt = s.prt) (hm : t.mgt.session = s.mgt.session) : EndpointFrame s t where
  linkUp := by rw [ht]
  link := State.rd_congr hp _
  status := by simp only [State.bit, State.rdN, State.rd_congr hp]
  session := by rw [hm]; exact id
  queue := fun i => by simp only [State.ringRt, ht]; exact id

end EndpointFrame

theorem State.signal_endpointFrame (v : Nat) : EndpointFrame s (s.signal v) := .ite ⟨rfl, rfl, rfl, id, fun _ => id⟩ (.refl s)
theorem State.undelivered_endpointFrame (s : State) : EndpointFrame s s.undelivered := by
  have counted : EndpointFrame s (s.addSat P.PRT_UNDELIVERED 1) :=
    ⟨rfl, s.rd_addSat_other 1 (by decide), by simp only [State.bit]; rw [s.rdN_addSat_other 1 (by decide)], id, fun _ => id⟩
  have shown : ∀ s : State, EndpointFrame s (s.setBit P.PRT_STATUS 2) := fun s =>
    ⟨rfl, s.rd_setBit_other 2 (by decide), s.bit_setBit _ 2 9 (by decide), id, fun _ => id⟩
  exact ((State.signal_endpointFrame 9).after (shown _)).after counted

/-- The items a ring holds are discarded, and counted one by one. -/
theorem State.emptyRing_endpointFrame (s : State) (r : Nat) : EndpointFrame s (s.setRing r { s.ringRt r with queue := [], full := false }) := by
  refine ⟨rfl, rfl, rfl, id, fun i h => ?_⟩
  by_cases e : i = r
  · subst e; rw [State.ringRt_setRing_same]
  · rwa [State.ringRt_setRing_other _ _ e]
theorem State.dropRing_after_empty (s : State) (r : Nat) :
    EndpointFrame (s.setRing r { s.ringRt r with queue := [], full := false }) (s.dropRing r) :=
  .foldl (fun s _ => s.undelivered_endpointFrame) _ _
theorem State.dropRing_endpointFrame (s : State) (r : Nat) : EndpointFrame s (s.dropRing r) :=
  (s.dropRing_after_empty r).after (s.emptyRing_endpointFrame r)
theorem State.dropRing_queue (s : State) (r : Nat) : ((s.dropRing r).ringRt r).queue = [] :=
  (s.dropRing_after_empty r).queue r (congrArg RingRuntime.queue (State.ringRt_setRing_same s r _))

theorem State.dropRings_endpointFrame (s : State) : EndpointFrame s s.dropRings := .foldl State.dropRing_endpointFrame _ _
theorem State.dropRings_queue (s : State) {i : Nat} (h : i < 8) : (s.dropRings.ringRt i).queue = [] :=
  foldl_reaches (I := fun _ => True) (P := fun s => (s.ringRt i).queue = []) (List.mem_range.mpr h) trivial (fun _ _ _ _ => trivial)
    (fun s _ => s.dropRing_queue i) (fun s e r _ => (s.dropRing_endpointFrame r).queue i e)

theorem State.closeSession_endpointFrame (s : State) : EndpointFrame s s.closeSession := by
  unfold State.closeSession
  split
  · exact .refl s
  · exact ⟨rfl, rfl, rfl, fun _ => rfl, fun _ => id⟩
theorem State.closeSession_session (s : State) : s.closeSession.mgt.session = none := by
  unfold State.closeSession
  split
  · assumption
  · rfl

theorem State.sendAck_endpointFrame (s : State) (p : Nat) (nak : Bool) : EndpointFrame s (s.sendAck p nak) :=
  .after (.ite (.of_eq rfl rfl rfl) (.of_eq rfl rfl rfl)) (.of_eq rfl rfl rfl)
theorem State.portalXoffMoves_endpointFrame (s : State) : EndpointFrame s s.portalXoffMoves :=
  .ite (.after (.ite (.refl _) (State.sendAck_endpointFrame _ _ _)) (.of_eq rfl rfl rfl)) (.refl s)

/-- The link is down, and PRT_LINK and PRT_STATUS show it. -/
def State.linkGone (s : State) : State :=
  (State.wrN { s.prtStatus 8 with prt := { (s.prtStatus 8).prt with linkUp := false } } P.PRT_LINK 0).putBit P.PRT_STATUS 9 false

theorem pcieLinkDown_of_up (h : s.prt.linkUp = true) : pcieLinkDown s = s.linkGone.dropRings.closeSession.portalXoffMoves :=
  if_neg (by simp [h])
theorem State.linkGone_link (s : State) : s.linkGone.rd P.PRT_LINK = 0 :=
  (State.rd_clrBits_other _ _ (by decide)).trans (State.rd_wr_same _ _ _)
theorem State.linkGone_status (s : State) : s.linkGone.bit P.PRT_STATUS 9 = false :=
  (State.bit_putBit _ _ 9 9 false (by decide) (by decide)).trans (if_pos rfl)
end

/-- Settles O45: each event by the equation of its meaning; a link that goes down by the frame of what then empties the rings and closes the session. -/
theorem endpointEventsComplete : Obligations.EndpointEventsComplete := by
  refine fun s t => ⟨fun v => ⟨rfl, rfl⟩, ?cons, ?ctrl, ?bar, ?fetch, ?up, ?down, ?reset⟩
  case cons =>
    intro i v
    have freed := consWrite_eq i v.toNat (s.at_ t)
    refine ⟨fun h => ?empty, fun h => ?room, fun h => ?full⟩
    case empty =>
      have room := State.ringRoom_of_empty (((s.at_ t).freeEntries_queue i v.toNat).trans h)
      exact congrArg Host.Outcome.next (freed.trans (State.easeRing_of_room room))
    case room => exact congrArg Host.Outcome.next (freed.trans (State.easeRing_of_room h))
    case full =>
      have same := congrArg (State.markRing ((s.at_ t).freeEntries i v.toNat) i) ((s.at_ t).freeEntries_full i v.toNat)
      exact congrArg Host.Outcome.next (freed.trans ((State.easeRing_of_noRoom h).trans same))
  case ctrl =>
    exact fun i v => ⟨fun hv he => congrArg Host.Outcome.next (ctrlWrite_enable hv he), fun hv he => congrArg Host.Outcome.next (ctrlWrite_stays hv he),
      fun hv => congrArg Host.Outcome.next (ctrlWrite_disable hv)⟩
  case bar =>
    intro o v
    have write : ∀ {n : Nat}, o.toNat = n → exec (.bar0RegisterWrite t o v) s = .next (barWrite n v.toNat (s.at_ t)) := fun h => h ▸ rfl
    refine ⟨fun h => ?tail, fun h => ?control, fun i h => ?cons, fun i h => ?ctrl, fun h hc => ?ignored, fun h hc => ?base⟩
    case tail => exact write h
    case control => exact write h
    case cons => exact (write h).trans (congrArg Host.Outcome.next (barWrite_cons i.isLt _ _))
    case ctrl => exact (write h).trans (congrArg Host.Outcome.next (barWrite_ctrl i.isLt _ _))
    case ignored => exact congrArg Host.Outcome.next ((barWrite_cmdBase h _ _).trans (if_pos hc))
    case base => exact congrArg Host.Outcome.next ((barWrite_cmdBase h _ _).trans (if_neg (by rw [hc]; exact Bool.false_ne_true)))
  case fetch =>
    intro e0 e1 packet hp hl hc size head n a hw
    have fetched := commandRingFetch_of_waiting (e1 := e1.toNat) (packet := packet) hp hl hc hw
    exact ⟨fun h₁ h₂ h₃ => congrArg Host.Outcome.next (fetched.trans (if_neg (by omega))), fun h => congrArg Host.Outcome.next (fetched.trans (if_pos h))⟩
  case up => exact fun g w hp => congrArg Host.Outcome.next (pcieLinkUp_of_portal g w hp)
  case down =>
    intro h
    have closed := (s.at_ t).linkGone.dropRings.closeSession_endpointFrame
    have moved := (s.at_ t).linkGone.dropRings.closeSession.portalXoffMoves_endpointFrame
    have frame := (moved.after closed).after (s.at_ t).linkGone.dropRings_endpointFrame
    exact ⟨_, congrArg Host.Outcome.next (pcieLinkDown_of_up h), frame.linkUp.trans rfl, congrArg BitVec.toNat (frame.link.trans (State.linkGone_link _)),
      frame.status.trans (State.linkGone_status _), moved.session (State.closeSession_session _),
      fun i => (moved.after closed).queue i (State.dropRings_queue _ i.isLt)⟩
  case reset => exact fun hp => congrArg Host.Outcome.next (functionLevelReset_of_portal hp)

end Sys2Proof.Machine
end

section
/-! The statement on the dispatch events (R370 to R373), which fails: the push that ends an ACQ.FETCH is followed by that of its reply's record. -/

namespace Sys2Proof.Machine

/-- The last descriptor of an ACQ.FETCH, whose push has stalled. -/
def lastRefetch : Descriptor :=
  { seq := 1, kind := 0, run := 0, prio := 1, first := true, last := true, refetch := true, marks := ⟨false, false⟩, dir := 0, offset := 0, len := 64
    store := 0, addr := 0, pushed := 0, length := 64, hopsW := 0, hopsE := 0 }
/-- The fetch of that record. -/
def fetchOne : Hdr :=
  { at_ := 0, issuer := 9, auth := false, arrival := .west, target := 5, tag := 1, bcast := false, priv := false, sched := false, reserved := 0
    length := 12, timeTag := 0, crc := 0 }
/-- Node 5, whose dispatch banks are empty, before that push. -/
def fetchEnding : State :=
  { State.reset with par := [(P.SYS_NODE_ID, 5), (P.RED_DIE_STATE 0, 1)], clp := { stalled := [lastRefetch], fetch := some (fetchOne, [1, 1, 1]) } }

/-- The fetch ends with its reply (R376), which is a record of kind 7 (R256) and is pushed in the cycle after; by then the banks have swapped (R371). -/
theorem dispatchPush_fetchEnding_fill : (dispatchPush (fetchEnding.at_ 0)).clp.fill.map (fun d => (d.kind, d.cycle)) = [(7, 1)] := by decide

/-- Refutes O42: the stalled push that is the last of an ACQ.FETCH enters the filling bank, and the record of the fetch's final reply is pushed behind it, into
the bank that then fills; the statement has the filling bank take that one descriptor, whether or not a fetch ends. -/
theorem not_dispatchEventsComplete : ¬ Obligations.DispatchEventsComplete := by
  intro h
  obtain ⟨stalls, -⟩ := h fetchEnding 0
  obtain ⟨push, -⟩ := stalls lastRefetch [] rfl
  obtain ⟨u, run, -, fill, -⟩ := push (by decide) (by decide)
  obtain rfl : dispatchPush (fetchEnding.at_ 0) = u := Host.Outcome.next.inj run
  have claimed := congrArg (List.map (fun d => (d.kind, d.cycle))) fill
  exact absurd (dispatchPush_fetchEnding_fill.symm.trans claimed) (by decide)

end Sys2Proof.Machine
end

section
/-! The statement on the duplicate window of the portal (R406). -/

namespace Sys2Proof.Machine

section
variable {s : State} {node kind run seq : Nat} {refetch : Bool} {w : DupWindow}

/-! ### The windows (R406, Table 12-6) -/

theorem State.window?_setWindow_same (s : State) (w : DupWindow) : (s.setWindow w).window? w.node w.kind = some w := by
  simp [State.window?, State.setWindow]
theorem State.window?_setWindow_other (s : State) (w : DupWindow) {m l : Nat} (h : m ≠ w.node ∨ l ≠ w.kind) :
    (s.setWindow w).window? m l = s.window? m l := by
  have apart : ¬(w.node = m ∧ w.kind = l) := fun e => h.elim (fun g => g e.1.symm) (fun g => g e.2.symm)
  simp only [State.window?, State.setWindow, List.find?_cons, List.find?_filter]
  rw [show (w.node == m && w.kind == l) = false by simpa using apart]
  refine congrArg (fun f => List.find? f s.prt.windows) (funext fun v => ?_)
  by_cases hv : v.node = m ∧ v.kind = l
  · obtain ⟨rfl, rfl⟩ := hv
    have other : v.node ≠ w.node ∨ v.kind ≠ w.kind := not_and_or.mp fun e => apart ⟨e.1.symm, e.2.symm⟩
    simpa using other
  · have named : (v.node == m && v.kind == l) = false := by simpa using hv
    simp [named]

/-- The window found is the one of the node and the kind asked for. -/
theorem State.window?_names (h : s.window? node kind = some w) : w.node = node ∧ w.kind = kind := by
  simpa using List.find?_some h

/-! ### Marking a number -/

@[simp] theorem DupWindow.mark_node (w : DupWindow) (seq : Nat) : (w.mark seq).node = w.node := by
  simp only [DupWindow.mark, apply_ite DupWindow.node, ite_self]
@[simp] theorem DupWindow.mark_kind (w : DupWindow) (seq : Nat) : (w.mark seq).kind = w.kind := by
  simp only [DupWindow.mark, apply_ite DupWindow.kind, ite_self]

/-- A number lies after H or within the half of the range that ends in H. -/
theorem seqAfter_eq_false {high : Nat} (hs : seq < 4294967296) (hh : high < 4294967296) (h : (high + 4294967296 - seq) % 4294967296 ≤ 2147483648) :
    seqAfter seq high = false := by
  simp only [seqAfter, Bool.and_eq_false_iff, decide_eq_false_iff_not]
  omega

theorem DupWindow.mark_of_ahead (h₁ : 1 ≤ (seq + 4294967296 - w.high) % 4294967296) (h₂ : (seq + 4294967296 - w.high) % 4294967296 < 2147483648) :
    let ahead := (seq + 4294967296 - w.high) % 4294967296
    w.mark seq = { w with high := seq, map := if ahead < 1024 then (w.map * 2 ^ ahead + 1) % 2 ^ 1024 else 1 } := by
  have after : seqAfter seq w.high = true := by
    simp only [seqAfter, Bool.and_eq_true, decide_eq_true_eq]
    omega
  exact if_pos after
theorem DupWindow.mark_of_back (hs : seq < 4294967296) (hh : w.high < 4294967296) (h : (w.high + 4294967296 - seq) % 4294967296 ≤ 2147483648) :
    let back := (w.high + 4294967296 - seq) % 4294967296
    w.mark seq = if back < 1024 then { w with map := w.map ||| 2 ^ back } else w := by
  simp only [DupWindow.mark, seqAfter_eq_false hs hh h, Bool.false_eq_true, if_false]

/-! ### The judgement (R406) -/

theorem State.judgeDuplicate_of_first (h : s.window? node kind = none) :
    s.judgeDuplicate node kind run seq refetch = (false, s.setWindow { node, kind, run, high := seq, map := 1 }) := by
  simp only [State.judgeDuplicate, h]
theorem State.judgeDuplicate_of_run (h : s.window? node kind = some w) (hr : run = w.run) :
    s.judgeDuplicate node kind run seq refetch = if w.has seq && !refetch then (true, s) else (false, s.setWindow (w.mark seq)) := by
  simp only [State.judgeDuplicate, h, hr, if_true]
theorem State.judgeDuplicate_of_newer (h : s.window? node kind = some w) (hr : run ≠ w.run) (hd : (run + 256 - w.run) % 256 ≤ 127) :
    s.judgeDuplicate node kind run seq refetch = (false, s.setWindow { node, kind, run, high := seq, map := 1 }) := by
  simp only [State.judgeDuplicate, h, Ne.symm hr, if_false, hd, if_true]
theorem State.judgeDuplicate_of_older (h : s.window? node kind = some w) (hd : 128 ≤ (run + 256 - w.run) % 256) :
    s.judgeDuplicate node kind run seq refetch = (false, s) := by
  have apart : w.run ≠ run := by rintro rfl; omega
  have old : ¬((run + 256 - w.run) % 256 ≤ 127) := by omega
  simp only [State.judgeDuplicate, h, apart, if_false, old]

/-- A judgement leaves the windows as they are, or sets that of the node and the kind. -/
theorem State.judgeDuplicate_sets (s : State) (node kind run seq : Nat) (refetch : Bool) :
    (s.judgeDuplicate node kind run seq refetch).2 = s
      ∨ ∃ v : DupWindow, v.node = node ∧ v.kind = kind ∧ (s.judgeDuplicate node kind run seq refetch).2 = s.setWindow v := by
  unfold State.judgeDuplicate
  split
  · exact .inr ⟨_, rfl, rfl, rfl⟩
  · next w h =>
    obtain ⟨hn, hk⟩ := State.window?_names h
    split
    · split
      · exact .inl rfl
      · exact .inr ⟨w.mark seq, by simp [hn], by simp [hk], rfl⟩
    · dsimp only
      split
      · exact .inr ⟨_, rfl, rfl, rfl⟩
      · exact .inl rfl
end

/-- Settles O58: the window found, or none, gives the case of Table 12-6. -/
theorem portalDuplicates : Obligations.PortalDuplicates := by
  intro s node kind run seq refetch _ hs r
  have window : ∀ {b : Bool} {v : DupWindow}, v.node = node → v.kind = kind → r = (b, s.setWindow v) → r.1 = b ∧ r.2.window? node kind = some v := by
    rintro b v rfl rfl e
    exact e ▸ ⟨rfl, s.window?_setWindow_same v⟩
  refine ⟨fun m l apart => ?others, ?rest, fun h => window rfl rfl (State.judgeDuplicate_of_first h), fun w h _ hh => ?found⟩
  case others =>
    rcases s.judgeDuplicate_sets node kind run seq refetch with e | ⟨v, rfl, rfl, e⟩
    · exact congrArg (fun u => State.window? u m l) e
    · exact (congrArg (fun u => State.window? u m l) e).trans (s.window?_setWindow_other v apart)
  case rest =>
    rcases s.judgeDuplicate_sets node kind run seq refetch with e | ⟨v, -, -, e⟩
    · rw [show r.2 = s from e]
    · rw [show r.2 = s.setWindow v from e]; rfl
  case found =>
    intro back ahead
    obtain ⟨hn, hk⟩ := State.window?_names h
    have has : w.has seq = (decide (back < 1024) && bitOf w.map back) := rfl
    have marks : run = w.run → (w.has seq && !refetch) = false → r.1 = false ∧ r.2.window? node kind = some (w.mark seq) := by
      intro hr hm
      refine window (by simp [hn]) (by simp [hk]) ((State.judgeDuplicate_of_run h hr).trans ?_)
      rw [hm]; rfl
    refine ⟨fun hr hb hm hf => ?marked, fun hr hb hm => ?unmarked, fun hr h₁ h₂ => ?ahead, fun hr hb hu => ?before,
      fun hr hd => window rfl rfl (State.judgeDuplicate_of_newer h hr hd), fun hd => ?older⟩
    case marked =>
      have e : r = (true, s) := (State.judgeDuplicate_of_run h hr).trans (by simp [has, hb, hm, hf])
      exact e ▸ ⟨rfl, rfl⟩
    case unmarked =>
      have e := DupWindow.mark_of_back hs hh (by omega)
      exact (marks hr (by rcases hm with hm | hm <;> simp [has, hm])).imp_right (·.trans (congrArg some (e.trans (if_pos hb))))
    case ahead =>
      have e := DupWindow.mark_of_ahead h₁ h₂
      have beyond : ¬(back < 1024) := by omega
      exact (marks hr (by simp [has, beyond])).imp_right (·.trans (congrArg some e))
    case before =>
      have e := DupWindow.mark_of_back hs hh hu
      have beyond : ¬(back < 1024) := by omega
      exact (marks hr (by simp [has, beyond])).imp_right (·.trans (congrArg some (e.trans (if_neg beyond))))
    case older =>
      have e : r = (false, s) := State.judgeDuplicate_of_older h hd
      exact e ▸ ⟨rfl, rfl⟩

end Sys2Proof.Machine
end

section
/-! The statement on the comparison and the arbitration (R395, R396, R403, R404, R408). -/

namespace Sys2Proof.Machine

section
variable {s : State} {d : Nat}

/-! ### The comparison (R395, R396) -/

theorem dieItemCompare_of_next {x : HeldItem} {xs : List HeldItem} (h : (s.die d).out = x :: xs) :
    dieItemCompare d s = (s.setDie d { s.die d with out := xs }).takeItem d x := by
  simp only [dieItemCompare, h]

/-- What the link die holds of a die that has waited 4 µs for its partner. -/
def State.lateItem (s : State) (d : Nat) : Option HeldItem := (s.die d).held.find? (fun x => decide (x.arrivedAt + usec 4 ≤ s.time))

section
variable {x : HeldItem} (hm : s.red.mismatch = none)
include hm

/-- A copy of CD-A without a partner is a mismatch against CD-B, before one of CD-B against CD-A. -/
theorem compareWindowTimeout_of_lateA (h : s.lateItem 0 = some x) : compareWindowTimeout s = s.mismatch kindMissing x.slot ⟨none, some 7⟩ := by
  unfold State.lateItem at h
  simp only [compareWindowTimeout, hm, h, Option.isSome_none, Bool.false_eq_true, if_false]
theorem compareWindowTimeout_of_lateB (ha : s.lateItem 0 = none) (h : s.lateItem 1 = some x) :
    compareWindowTimeout s = s.mismatch kindMissing x.slot ⟨some 7, none⟩ := by
  unfold State.lateItem at ha h
  simp only [compareWindowTimeout, hm, ha, h, Option.isSome_none, Bool.false_eq_true, if_false]
end

/-! ### The arbitration (R403, R404) -/

/-- The mismatch with the check that a die has run on itself. -/
def State.putCheck (s : State) (m : Mismatch) (d check : Nat) : State :=
  { s with red := { s.red with mismatch := some { m with checks := m.checks.set d (some check) } } }
/-- The mismatch with the claim of a die whose check is known. -/
def State.putClaim (s : State) (m : Mismatch) (d claim : Nat) : State :=
  { s with red := { s.red with mismatch := some { m with claims := m.claims.set d (some claim) } } }

section
variable {m : Mismatch} (hm : s.red.mismatch = some m)
include hm

/-- A die that no check has attributed so far takes what its checks find, or the evidence the state holds. -/
theorem attributionCheck_of_open (e : Nat) (h : m.checks.get d = none ∨ m.checks.get d = some 0) :
    attributionCheck d e s = s.putCheck m d (if e = 0 then (s.die d).evidence else e) := by
  rcases h with h | h <;> simp [attributionCheck, State.putCheck, hm, h, ite_not]
/-- A die that a check has attributed stays attributed by it. -/
theorem attributionCheck_of_known (e : Nat) {c : Nat} (h : m.checks.get d = some c) (hc : c ≠ 0) : attributionCheck d e s = s.putCheck m d c := by
  simp [attributionCheck, State.putCheck, hm, h, hc]

/-- A claim that comes in time is taken, and the second one brings the decision. -/
theorem claimItemReceive_of_judged {c : Nat} (h : m.checks.get d = some c) (hs : s.silent d = false) (ht : s.time ≤ m.at_ + usec 20) :
    let claims := m.claims.set d (some (if c = 0 then s.claim d else s.health d))
    let a := s.putClaim m d (if c = 0 then s.claim d else s.health d)
    claimItemReceive d s = if claims.a.isSome && claims.b.isSome then a.decideMismatch else a := by
  have inTime : ¬(m.at_ + usec 20 < s.time) := Nat.not_lt.mpr ht
  simp only [claimItemReceive, State.putClaim, hm, h, hs, inTime, decide_false, Bool.or_self, Bool.false_eq_true, if_false]

theorem arbitrationTimeout_of_elapsed (ht : m.at_ + usec 20 ≤ s.time) : arbitrationTimeout s = s.decideMismatch := by
  simp only [arbitrationTimeout, hm, ht, if_true]
end

/-! ### Control returns (R408) -/

/-- At a slot boundary between two dies IN_STEP, the gate follows the claims. -/
theorem revertHoldExpiry_of_winner (hb : s.now % 1000 = 0) (hm : s.red.mismatch = none) (h₀ : s.dieState 0 = dieInStep) (h₁ : s.dieState 1 = dieInStep)
    (hw : s.winner ≠ s.active) :
    let m := s.moveGate s.winner
    let a := { m with red := { m.red with gate := (m.red.slot, s.active) } }
    revertHoldExpiry s = if s.winner = a.rdN P.RED_PREF && (a.die s.winner).preferAt != 0 then a.setBit P.RED_STATUS 2 else a := by
  simp [revertHoldExpiry, State.plannedWinner, hb, hm, h₀, h₁, hw]
end

/-- Settles O35: each event by the equation of its meaning. -/
theorem comparisonEventsComplete : Obligations.ComparisonEventsComplete := by
  refine fun s t => ⟨fun d x xs h => congrArg Host.Outcome.next (dieItemCompare_of_next h), fun x hm => ⟨?lateA, ?lateB⟩,
    fun m hm => ⟨?unknown, ?known, ?claim, ?timeout⟩, ?revert⟩
  case lateA => exact fun h => congrArg Host.Outcome.next (compareWindowTimeout_of_lateA hm h)
  case lateB => exact fun ha h => congrArg Host.Outcome.next (compareWindowTimeout_of_lateB hm ha h)
  case unknown => exact fun d e h => congrArg Host.Outcome.next (attributionCheck_of_open hm e h)
  case known => exact fun d e c h hc => congrArg Host.Outcome.next (attributionCheck_of_known hm e h hc)
  case claim => exact fun d c h hs ht => congrArg Host.Outcome.next (claimItemReceive_of_judged hm h hs ht)
  case timeout => exact fun ht => congrArg Host.Outcome.next (arbitrationTimeout_of_elapsed hm ht)
  case revert => exact fun hb hm h₀ h₁ hw => congrArg Host.Outcome.next (revertHoldExpiry_of_winner hb hm h₀ h₁ hw)

end Sys2Proof.Machine
end

section
/-! The statement on the standby self-test, the synchronisation of a die, and the control items of the front ends (R17, R401, R411 to R414). -/

namespace Sys2Proof.Machine

section
variable {s : State} {d : Nat}

/-! ### The standby self-test (R401, R412) -/

/-- The RED.SELFTEST that waits for a die is answered with a result. -/
def State.answerTest (s : State) (d : Nat) (cmd : Option Hdr) (status result : Nat) : State := match cmd with
  | some h => (s.setDie d { s.die d with testCmd := none }).finish 0x62 h status [BitVec.ofNat 32 result]
  | none => s

theorem State.replySelftest_of_shown {cmd : Option Hdr} {result : Nat} (status : Nat) (hc : (s.die d).testCmd = cmd)
    (hr : s.rd (P.RED_SELFTEST_RESULT d) = BitVec.ofNat 32 result) : s.replySelftest d status = s.answerTest d cmd status result := by
  subst hc
  unfold State.replySelftest State.answerTest
  rw [← hr]
  cases (s.die d).testCmd <;> rfl

/-! The result, the state, the flags and the limit are four items. -/
theorem resultAddr_ne_stateAddr (d : Nat) : P.RED_SELFTEST_RESULT d ≠ P.RED_DIE_STATE d := by
  simp only [P.RED_SELFTEST_RESULT, P.RED_DIE_STATE]; omega
theorem resultAddr_ne_statusAddr (d : Nat) : P.RED_SELFTEST_RESULT d ≠ P.RED_STATUS := by
  simp only [P.RED_SELFTEST_RESULT, P.RED_STATUS]; omega
theorem limitAddr_ne_resultAddr (d : Nat) : P.RED_RETRY_MAX ≠ P.RED_SELFTEST_RESULT d := by
  simp only [P.RED_SELFTEST_RESULT, P.RED_RETRY_MAX]; omega

theorem State.setDieState_result (s : State) (n : Nat) : (s.setDieState d n).rd (P.RED_SELFTEST_RESULT d) = s.rd (P.RED_SELFTEST_RESULT d) :=
  State.rd_wrN_other _ _ (resultAddr_ne_stateAddr d)

/-- The state with a failure shown. -/
def State.showFailure (s : State) (d failed : Nat) : State := (s.wrN (P.RED_SELFTEST_RESULT d) (2147483648 + failed)).setBit P.RED_STATUS 6

theorem State.showFailure_result (s : State) (d failed : Nat) :
    (s.showFailure d failed).rd (P.RED_SELFTEST_RESULT d) = BitVec.ofNat 32 (2147483648 + failed) :=
  (State.rd_setBit_other _ _ (resultAddr_ne_statusAddr d)).trans (State.rd_wr_same _ _ _)
theorem State.showFailure_limit (s : State) (d failed : Nat) : (s.showFailure d failed).rdN P.RED_RETRY_MAX = s.rdN P.RED_RETRY_MAX :=
  (State.rdN_setBit_other _ _ (by decide)).trans (State.rdN_wrN_other _ _ (limitAddr_ne_resultAddr d))

section
variable (hs : s.dieState d = dieSelftest)
include hs

section
variable (hr : (s.die d).retryAt = none)
include hr

theorem selftestComplete_of_pass :
    let x := { s.die d with failures := 0, syncFrom := none, syncStore := false, syncRing := false }
    selftestComplete d 0 s = (((s.wrN (P.RED_SELFTEST_RESULT d) 2147483648).setDie d x).setDieState d dieSyncing).answerTest d (s.die d).testCmd stOk
      2147483648 := by
  intro x
  have same : (((s.wrN (P.RED_SELFTEST_RESULT d) 2147483648).setDie d x).setDieState d dieSyncing).die d = x := State.die_setDie_same _ _ _
  have shown := (State.setDieState_result (d := d) ((s.wrN (P.RED_SELFTEST_RESULT d) 2147483648).setDie d x) dieSyncing).trans (State.rd_wr_same _ _ _)
  rw [← State.replySelftest_of_shown stOk (congrArg DieState.testCmd same) shown]
  unfold selftestComplete
  rw [hs, hr]
  rfl

section
variable {failed : Nat} (hf : failed ≠ 0)
include hf

/-- A failure under RED_RETRY_MAX is tried again 1 s later. -/
theorem selftestComplete_of_retry (hn : (s.die d).failures + 1 < s.rdN P.RED_RETRY_MAX) :
    let x := { s.die d with failures := (s.die d).failures + 1, retryAt := some (s.time + secs 1) }
    selftestComplete d failed s = ((s.showFailure d failed).setDie d x).answerTest d (s.die d).testCmd stInternal (2147483648 + failed) := by
  intro x
  have same : ((s.showFailure d failed).setDie d x).die d = x := State.die_setDie_same _ _ _
  have few := Nat.not_le.mpr ((s.showFailure_limit d failed).symm ▸ hn)
  rw [← State.replySelftest_of_shown stInternal (congrArg DieState.testCmd same) (s.showFailure_result d failed)]
  unfold selftestComplete
  rw [hs, hr]
  exact (if_neg hf).trans (congrArg (State.replySelftest · d stInternal) (if_neg few))

/-- The last of RED_RETRY_MAX failures in a row leads to FAILED. -/
theorem selftestComplete_of_last (hn : s.rdN P.RED_RETRY_MAX ≤ (s.die d).failures + 1) :
    let x := { s.die d with failures := 0 }
    selftestComplete d failed s
      = (((s.showFailure d failed).setDie d x).setDieState d dieFailed).answerTest d (s.die d).testCmd stInternal (2147483648 + failed) := by
  intro x
  have same : (((s.showFailure d failed).setDie d x).setDieState d dieFailed).die d = x := State.die_setDie_same _ _ _
  have last := (s.showFailure_limit d failed).symm ▸ hn
  have shown := (State.setDieState_result (d := d) ((s.showFailure d failed).setDie d x) dieFailed).trans (s.showFailure_result d failed)
  rw [← State.replySelftest_of_shown stInternal (congrArg DieState.testCmd same) shown]
  unfold selftestComplete
  rw [hs, hr]
  exact (if_neg hf).trans (congrArg (State.replySelftest · d stInternal) (if_pos last))
end
end

theorem selftestRetry_of_due {a : Nat} (ha : (s.die d).retryAt = some a) (ht : a ≤ s.time) :
    selftestRetry d s = s.setDie d { s.die d with retryAt := none, testStart := s.time } := by
  simp only [selftestRetry, ha, hs, ht, decide_true, Bool.and_true, if_true]
end

/-! ### The synchronisation (R413, R414) -/

/-- The die that is SYNCING stands beside one IN_STEP. -/
theorem State.syncing_dieState (h : s.syncing = some d) : s.dieState d = dieSyncing := by
  unfold State.syncing at h
  split at h
  · next g => cases h; simp only [Bool.and_eq_true, decide_eq_true_eq] at g; exact g.1
  · split at h
    · next g => cases h; simp only [Bool.and_eq_true, decide_eq_true_eq] at g; exact g.1
    · cases h

theorem percent_le (a b : Nat) : percent a b ≤ 100 := by
  unfold percent
  split
  · exact Nat.le_refl _
  · next h => exact Nat.div_le_of_le_mul (by rw [Nat.mul_comm]; exact Nat.mul_le_mul_right _ (Nat.le_of_not_le h))
/-- The part of the synchronisation that is in force is shown in bits [15:8]. -/
theorem State.syncProgress_of_copying {a : Nat} (hs : s.dieState d = dieSyncing) (hf : (s.die d).syncFrom = some a) (hc : (s.die d).syncStore = false) :
    s.syncProgress d / 256 = 2 := by
  have := percent_le (s.now - a) (s.syncCopyNs d)
  simp only [State.syncProgress, hs, hf, hc, ne_eq, not_true_eq_false, if_false, Bool.not_false, if_true]
  omega
theorem State.syncProgress_of_copied {a : Nat} (hs : s.dieState d = dieSyncing) (hf : (s.die d).syncFrom = some a) (hc : (s.die d).syncStore = true) :
    s.syncProgress d / 256 = 3 := by
  have := percent_le (s.now - a) s.syncRingNs
  simp only [State.syncProgress, hs, hf, hc, ne_eq, not_true_eq_false, if_false, Bool.not_true, Bool.false_eq_true]
  omega
theorem State.syncProgress_of_inStep (hs : s.dieState d = dieInStep) : s.syncProgress d = 0 := by
  have out : s.dieState d ≠ dieSyncing := by rw [hs]; decide
  exact if_pos out

/-- A die that enters IN_STEP from SYNCING, as R408 and R413 have it. -/
theorem State.enterStep_dieState (synced : Bool) : (s.enterStep d synced).dieState d = dieInStep := State.rdN_wrN_same _ _ _
theorem State.enterStep_preferAt : ((s.enterStep d true).die d).preferAt = ns (boundaryFrom (s.now + 1000000 * s.rdN P.RED_REVERT_HOLD)) :=
  congrArg DieState.preferAt (State.die_setDie_same s d _)

/-- The synchronisation ends when its three parts are complete, and not before. -/
theorem State.endSync_of_complete (hf : (s.die d).syncFrom.isSome = true) (hc : (s.die d).syncStore = true) (hr : (s.die d).syncRing = true) :
    s.endSync d = (s.setDie d { s.die d with syncFrom := none, syncStore := false, syncRing := false }).enterStep d true := by
  simp only [State.endSync, hf, hc, hr, Bool.and_self, if_true]
theorem State.endSync_enters (hf : (s.die d).syncFrom.isSome = true) (hc : (s.die d).syncStore = true) (hr : (s.die d).syncRing = true) :
    (s.endSync d).dieState d = dieInStep ∧ (s.endSync d).syncProgress d = 0
      ∧ ((s.endSync d).die d).preferAt = ns (boundaryFrom (s.now + 1000000 * s.rdN P.RED_REVERT_HOLD)) := by
  rw [State.endSync_of_complete hf hc hr]
  exact ⟨State.enterStep_dieState true, State.syncProgress_of_inStep (State.enterStep_dieState true), State.enterStep_preferAt⟩
theorem State.endSync_of_open (h : (s.die d).syncStore = false ∨ (s.die d).syncRing = false) : s.endSync d = s := by
  rcases h with h | h <;> simp [State.endSync, h]

/-- Part 1 copies the marks of the stored records. -/
def State.copyMarks (s : State) (d : Nat) : State :=
  let copied := fun (e : IndexEntry) => { e with marks := e.marks.set d (e.marks.get (1 - d)) }
  { s with mem := { s.mem with stores := s.mem.stores.map (fun x => (x.1, { x.2 with entries := x.2.entries.map copied })) } }
/-- The die once the state of the active one has reached it. -/
def State.syncedDie (s : State) (d : Nat) : DieState :=
  { ((s.copyMarks d).joinStreams d).die d with
    syncFrom := some s.now, syncSeq := (List.range 8).map (fun k => s.rdN (P.REC_SEQ k)), compareFrom := boundaryAfter s.now }

theorem State.joinStreams_die (s : State) (d : Nat) : (s.joinStreams d).die d
    = { s.die d with slot := (s.die (1 - d)).slot, missing := (s.die (1 - d)).missing, late := (s.die (1 - d)).late } := State.die_setDie_same _ _ _

theorem State.syncedDie_slot (s : State) (d : Nat) : (s.syncedDie d).slot = (s.die (1 - d)).slot := by
  have joined := congrArg DieState.slot ((s.copyMarks d).joinStreams_die d)
  exact joined
theorem State.syncedDie_syncStore (s : State) (d : Nat) : (s.syncedDie d).syncStore = (s.die d).syncStore := by
  have joined := congrArg DieState.syncStore ((s.copyMarks d).joinStreams_die d)
  exact joined

theorem syncStateSent_of_first (h : s.syncing = some d) (hf : (s.die d).syncFrom = none) :
    syncStateSent s = ((s.copyMarks d).joinStreams d).setDie d (s.syncedDie d) := by
  unfold syncStateSent
  rw [h]
  exact if_neg (by simp [hf])
theorem syncStateSent_die (h : s.syncing = some d) (hf : (s.die d).syncFrom = none) : (syncStateSent s).die d = s.syncedDie d := by
  rw [syncStateSent_of_first h hf]; exact State.die_setDie_same _ _ _

/-- What part 2 leaves in the memories of the die: the store of the other die, and no error in it. -/
def State.copyStore (s : State) (d : Nat) : State :=
  let m := s.memDie d
  let o := s.memDie (1 - d)
  s.setMemDie d { m with
    lines := m.lines.filter (fun x => !s.inStore true x.1), words := m.words.filter (fun x => !s.inStore false x.1)
    granDiff := takeStore 0 (fun a => s.inStore true (a / 64)) m.granDiff o.granDiff, sramDiff := takeStore 0 (s.inStore false) m.sramDiff o.sramDiff }

theorem State.copyStore_lines (s : State) (d : Nat) {x : Nat × LineError} (h : x ∈ ((s.copyStore d).memDie d).lines) : s.inStore true x.1 = false := by
  have e : ((s.copyStore d).memDie d).lines = (s.memDie d).lines.filter (fun x => !s.inStore true x.1) :=
    congrArg DieMemory.lines (Two.get_set_same _ _ _)
  rw [e] at h
  simpa using List.of_mem_filter h
theorem State.copyStore_words (s : State) (d : Nat) {x : Nat × WordError} (h : x ∈ ((s.copyStore d).memDie d).words) : s.inStore false x.1 = false := by
  have e : ((s.copyStore d).memDie d).words = (s.memDie d).words.filter (fun x => !s.inStore false x.1) :=
    congrArg DieMemory.words (Two.get_set_same _ _ _)
  rw [e] at h
  simpa using List.of_mem_filter h

section
variable {f : Nat} (h : s.syncing = some d) (hf : (s.die d).syncFrom = some f)
include h hf

theorem syncStoreCopied_of_elapsed (ht : f + s.syncCopyNs d ≤ s.now) :
    syncStoreCopied s = ((s.copyStore d).setDie d { s.die d with syncStore := true }).endSync d := by
  have elapsed : ¬((s.die d).syncFrom.isNone || s.now < (s.die d).syncFrom.getD 0 + s.syncCopyNs d) := by simp [hf, ht]
  unfold syncStoreCopied
  rw [h]
  exact if_neg elapsed
theorem syncRingFilled_of_elapsed (ht : f + s.syncRingNs ≤ s.now) : syncRingFilled s = (s.setDie d { s.die d with syncRing := true }).endSync d := by
  have elapsed : ¬((s.die d).syncFrom.isNone || s.now < (s.die d).syncFrom.getD 0 + s.syncRingNs) := by simp [hf, ht]
  unfold syncRingFilled
  rw [h]
  exact if_neg elapsed
end

/-! ### Control items (R17, R411) -/

section
variable {fe : Nat} {item : FeItem} (hd : s.inService d = true) (hi : s.red.injections = [])
include hd hi

omit hd in
/-- Without an injection a die sends its items as they are. -/
theorem State.sentControl_of_none : s.sentControl fe d item = (item, s) := by
  simp [State.sentControl, hi]

theorem feControlItem_of_alone (ho : s.inService (1 - d) = false) : feControlItem fe d item s = s.feActs fe item := by
  simp [feControlItem, State.sentControl_of_none hi, hd, ho]

section
variable (ho : s.inService (1 - d) = true)
include ho

/-- An item that comes first is held for its partner. -/
theorem feControlItem_of_first (hf : s.red.held.find? (fun x => x.fe == fe && x.die == 1 - d && !x.differs) = none) :
    feControlItem fe d item s
      = { s with red := { s.red with held := s.red.held ++ [{ fe, die := d, item, since := s.time, differs := false }] } } := by
  simp only [feControlItem, State.sentControl_of_none hi, hd, ho, hf, Bool.not_true, Bool.false_eq_true, if_false]

section
variable {x : HeldControl} (hf : s.red.held.find? (fun x => x.fe == fe && x.die == 1 - d && !x.differs) = some x)
include hf

/-- Two alike within the window are acted on. -/
theorem feControlItem_of_alike (he : x.item = item) (ht : s.time < x.since + usec 4) :
    feControlItem fe d item s = State.feActs { s with red := { s.red with held := s.red.held.filter (fun y => y != x) } } fe item := by
  simp only [feControlItem, State.sentControl_of_none hi, hd, ho, hf, he, ht, Bool.not_true, Bool.false_eq_true, if_false, decide_true, Bool.and_self, if_true]

/-- Two that differ, or that come too far apart, are held and reported. -/
theorem feControlItem_of_apart (hx : x.item ≠ item ∨ x.since + usec 4 ≤ s.time) :
    feControlItem fe d item s = State.reportControl { s with red := { s.red with
      held := s.red.held.filter (fun y => y != x) ++ [{ x with differs := true }, { fe, die := d, item, since := x.since, differs := true }] } } := by
  have apart : (x.item = item && s.time < x.since + usec 4) = false := by
    simpa only [Bool.and_eq_false_iff, decide_eq_false_iff_not, Nat.not_lt] using hx
  simp only [feControlItem, State.sentControl_of_none hi, hd, ho, hf, apart, Bool.not_true, Bool.false_eq_true, if_false]
end
end
end
end

/-- Settles O36: each event by the equation of its meaning; a synchronisation by which of its parts are complete (what a held item does at its limit is
log 57, and that the die's rings start afresh with part 1 log 56). -/
theorem syncAndControlItemEventsComplete : Obligations.SyncAndControlItemEventsComplete := by
  refine ⟨fun s t => ⟨fun d hs hr => ⟨?pass, fun f hf => ⟨?retry, ?last⟩⟩, ?again, fun d h => ⟨?part1, fun f hf => ⟨?stored, ?storing, ?ring, ?ended⟩⟩⟩,
    fun s t fe => ⟨fun d item hd hi => ⟨?alone, fun ho => ⟨?first, fun x hf => ⟨?alike, ?apart⟩⟩⟩, rfl⟩⟩
  case pass => exact congrArg Host.Outcome.next (selftestComplete_of_pass hs hr)
  case retry =>
    have failed : f.toNat ≠ 0 := fun e => hf (BitVec.eq_of_toNat_eq e)
    exact fun hn => congrArg Host.Outcome.next (selftestComplete_of_retry hs hr failed hn)
  case last =>
    have failed : f.toNat ≠ 0 := fun e => hf (BitVec.eq_of_toNat_eq e)
    exact fun hn => congrArg Host.Outcome.next (selftestComplete_of_last hs hr failed hn)
  case again => exact fun d a ha ht hs => congrArg Host.Outcome.next (selftestRetry_of_due hs ha ht)
  case part1 =>
    intro hf hc
    have die := syncStateSent_die h hf
    have sent := syncStateSent_of_first h hf
    have state : (syncStateSent (s.at_ t)).dieState d = dieSyncing := (congrArg (State.dieState · d) sent).trans (State.syncing_dieState h)
    have copying := (congrArg DieState.syncStore die).trans (((s.at_ t).syncedDie_syncStore d).trans hc)
    exact ⟨_, rfl, congrArg DieState.syncFrom die, congrArg DieState.compareFrom die, (congrArg DieState.slot die).trans ((s.at_ t).syncedDie_slot d),
      State.syncProgress_of_copying state (congrArg DieState.syncFrom die) copying, congrArg (·.mem.gran) sent, congrArg (·.mem.sram) sent⟩
  case stored =>
    intro ht hr
    have same := State.die_setDie_same ((s.at_ t).copyStore d) d { (s.at_ t).die d with syncStore := true }
    obtain ⟨state, progress, -⟩ := State.endSync_enters (by rw [same]; simp [hf]) (congrArg DieState.syncStore same) ((congrArg DieState.syncRing same).trans hr)
    exact ⟨_, congrArg Host.Outcome.next (syncStoreCopied_of_elapsed h hf ht), state, progress⟩
  case storing =>
    intro ht hr
    have same := State.die_setDie_same ((s.at_ t).copyStore d) d { (s.at_ t).die d with syncStore := true }
    have e := (syncStoreCopied_of_elapsed h hf ht).trans (State.endSync_of_open (.inr ((congrArg DieState.syncRing same).trans hr)))
    have stored := congrArg DieState.syncStore same
    exact ⟨_, congrArg Host.Outcome.next e, stored, State.syncing_dieState h,
      State.syncProgress_of_copied (State.syncing_dieState h) ((congrArg DieState.syncFrom same).trans hf) stored,
      fun x hx => (s.at_ t).copyStore_lines d hx, fun x hx => (s.at_ t).copyStore_words d hx⟩
  case ring =>
    intro ht hc
    have same := State.die_setDie_same (s.at_ t) d { (s.at_ t).die d with syncRing := true }
    have e := (syncRingFilled_of_elapsed h hf ht).trans (State.endSync_of_open (.inl ((congrArg DieState.syncStore same).trans hc)))
    exact congrArg Host.Outcome.next e
  case ended =>
    intro ht hc
    have same := State.die_setDie_same (s.at_ t) d { (s.at_ t).die d with syncRing := true }
    exact ⟨_, congrArg Host.Outcome.next (syncRingFilled_of_elapsed h hf ht),
      State.endSync_enters (by rw [same]; simp [hf]) ((congrArg DieState.syncStore same).trans hc) (congrArg DieState.syncRing same)⟩
  case alone => exact fun ho => congrArg Host.Outcome.next (feControlItem_of_alone hd hi ho)
  case first => exact fun hf => congrArg Host.Outcome.next (feControlItem_of_first hd hi ho hf)
  case alike => exact fun he ht => congrArg Host.Outcome.next (feControlItem_of_alike hd hi ho hf he ht)
  case apart => exact fun hx => congrArg Host.Outcome.next (feControlItem_of_apart hd hi ho hf hx)

end Sys2Proof.Machine
end

section
/-! The statement on the redundancy commands (R409, R412, R420) and on the link commands (R336, R338, R342 to R344). -/

namespace Sys2Proof.Machine

section
variable {s : State} {h : Hdr} {w : Word}

/-! ### RED.SWITCH and RED.SELFTEST (R409, R412) -/

/-- The standby is given FORCED from the next slot boundary, where it is IN_STEP. -/
theorem redSwitchBody_move (hd : s.dieState (1 - s.active) = dieInStep) :
    let t := { s with red := { s.red with forcedNext := some (1 - s.active) } }
    redSwitchBody [0] s = okay t [BitVec.ofNat 32 t.nextActive] := by
  simp [redSwitchBody, word, hd]
/-- FORCED ends. -/
theorem redSwitchBody_release : let t := { s with red := { s.red with forced := none, forcedNext := none } }
    redSwitchBody [1] s = okay t [BitVec.ofNat 32 t.nextActive] := by
  simp [redSwitchBody, word]

/-- The die that RED.SELFTEST names: CD-A, CD-B, or the standby. -/
def State.namedDie (s : State) (n : Nat) : Nat := if n = 2 then 1 - s.active else n
/-- A die that is IN_STEP or FAILED starts its self-test (log 55). -/
def State.beginSelftest (s : State) (d : Nat) : State := if s.dieState d = dieInStep || s.dieState d = dieFailed then s.startSelftest d else s

/-- A die that is not the active one and has no test commanded waits for its result. -/
theorem redSelftestBody_of_standby (hw : w.toNat < 3) (ha : s.namedDie w.toNat ≠ s.active) (hc : (s.die (s.namedDie w.toNat)).testCmd = none) :
    let d := s.namedDie w.toNat
    let t := s.beginSelftest d
    redSelftestBody h [w] s = (t.setDie d { t.die d with testCmd := some h }, .later none) := by
  have form : ¬([w].length ≠ 1 || 4 ≤ word [w] 0) := by simp [word]; omega
  have range : word [w] 0 ≠ 3 := fun e => by simp [word] at e; omega
  have idle : ¬((s.die (s.namedDie w.toNat)).testCmd.isSome = true) := by simp [hc]
  exact (if_neg form).trans ((if_neg range).trans ((if_neg ha).trans (if_neg idle)))

/-! ### LNK.STATUS, LNK.FALLOW, LNK.WAKE and LNK.RETRAIN (R338, R343, R344) -/

theorem lnkStatusBody_of_port (hw : w.toNat < 3) : lnkStatusBody [w] s = okay s (lnkStatusData s w.toNat) := by
  have known : ¬(4 ≤ w.toNat) ∧ w.toNat ≠ 3 := by omega
  simp [lnkStatusBody, word, known]

/-- Every lane of a port has gone to FALLOW. -/
def State.fallowLanes (s : State) (p : Nat) (low : Bool) : State :=
  let a := (lanesOf p).foldl State.fallowLane s
  a.setLanePort p { a.lanePort p with fallow := true, change := none, lowPower := (a.lanePort p).lowPower || low }

theorem lnkFallowBody_of_port (hw : w.toNat < 8) (hp : w.toNat % 4 < 3) (hh : w.toNat % 4 = 2 → s.prt.portal = false) :
    lnkFallowBody [w] s
      = okay (((s.fallowLanes (w.toNat % 4) (bitOf w.toNat 2)).replyWaits (w.toNat % 4) (fun _ => true) stTimeout).notePort (w.toNat % 4)) := by
  have known : ¬(8 ≤ w.toNat) ∧ w.toNat % 4 ≠ 3 := by omega
  have free : ¬(w.toNat % 4 = 2 ∧ s.prt.portal = true) := fun ⟨g, f⟩ => by simp [hh g] at f
  simp [lnkFallowBody, State.fallowLanes, word, known, free]

/-- A command of a port waits for its lanes. -/
def State.waitLanes (s : State) (p : Nat) (h : Hdr) (op : Nat) (lanes : List Nat) : State :=
  s.setLanePort p { s.lanePort p with waits := (s.lanePort p).waits ++ [{ h, op, lanes, until_ := s.wakeBound }] }

section
variable (hw : w.toNat < 3) (he : s.portEnabled w.toNat = true)
include hw he

theorem lnkWakeBody_of_awake (hp : s.lnkPortState w.toNat ≠ portFallow) : lnkWakeBody h [w] s = okay s := by
  have known : ¬(4 ≤ w.toNat) ∧ w.toNat ≠ 3 := by omega
  simp [lnkWakeBody, word, known, he, hp]
theorem lnkWakeBody_of_fallow (hp : s.lnkPortState w.toNat = portFallow) :
    lnkWakeBody h [w] s = ((s.wakePort w.toNat).waitLanes w.toNat h 0x73 [], .later none) := by
  have known : ¬(4 ≤ w.toNat) ∧ w.toNat ≠ 3 := by omega
  simp [lnkWakeBody, State.waitLanes, word, known, he, hp]
end

/-- The lanes of a port that a mask names, all where it names none. -/
def namedLanes (port named : Nat) : List Nat := (lanesOf port).filter (fun l => named == 0 || bitOf named (l % 4))

/-- A port and a mask of lanes make the word of LNK.RETRAIN. -/
theorem toNat_retrainWord {port named : Nat} (hp : port < 3) (hn : named < 16) : (BitVec.ofNat 32 (port + 16 * named)).toNat = port + 16 * named := by
  simp only [BitVec.toNat_ofNat]; omega

theorem lnkRetrainBody_of_lanes {port named : Nat} (hp : port < 3) (hn : named < 16) (hw : w.toNat = port + 16 * named) :
    lnkRetrainBody h [w] s = (((namedLanes port named).foldl State.searchLane s).waitLanes port h 0x74 (namedLanes port named), .later none) := by
  have size : ¬(256 ≤ port + 16 * named) := by omega
  have own : (port + 16 * named) % 4 = port := by omega
  have reserved : bits (port + 16 * named) 3 2 = 0 := by rw [bits]; omega
  have mask : bits (port + 16 * named) 7 4 = named := by rw [bits]; omega
  have known : port ≠ 3 := by omega
  simp [lnkRetrainBody, State.waitLanes, namedLanes, word, hw, size, own, reserved, mask, known]

/-! ### LNK.EYESCAN (R336) -/

theorem b2n_lt (b : Bool) : b2n b < 2 := by cases b <;> decide

/-- A field of one bit. -/
theorem bits_one (n i : Nat) : bits n i i = b2n (bitOf n i) := by
  have one : 2 ^ (i + 1 - i) = 2 := by rw [Nat.add_sub_cancel_left, Nat.pow_one]
  rw [bits, one, bitOf, b2n]
  rcases Nat.mod_two_eq_zero_or_one (n / 2 ^ i) with e | e <;> simp [e]

/-- A lane, a BER, whether a map is made, and its dwell make the word of LNK.EYESCAN. -/
def eyescanWord (l ber : Nat) (map : Bool) (dwell : Nat) : Word := BitVec.ofNat 32 (l + 16 * ber + 64 * b2n map + 256 * dwell)

section
variable {l ber dwell : Nat} {map : Bool} (hl : l < 12) (hb : ber < 3) (hd : dwell < 32)
include hl hb hd

theorem toNat_eyescanWord : (eyescanWord l ber map dwell).toNat = l + 16 * ber + 64 * b2n map + 256 * dwell := by
  have := b2n_lt map
  simp only [eyescanWord, BitVec.toNat_ofNat]; omega
theorem eyescanWord_map : bitOf (eyescanWord l ber map dwell).toNat 6 = map := by
  have bit : (l + 16 * ber + 64 * b2n map + 256 * dwell) / 2 ^ 6 % 2 = b2n map := by have := b2n_lt map; omega
  rw [toNat_eyescanWord hl hb hd, bitOf, bit]
  cases map <;> rfl

/-- The rows LNK.EYESCAN is split into leave the word of their own mode as it is. -/
theorem forceMode_eyescanWord : forceMode [eyescanWord l ber map dwell] 6 1 (b2n map) = [eyescanWord l ber map dwell] :=
  forceMode_of_bits (n := 1) ((bits_one _ 6).trans (congrArg b2n (eyescanWord_map hl hb hd))) []

/-- A scan of a lane that is ALIGNED or beyond and has none begins. -/
theorem lnkEyescanBody_of_lane (hm : map = true → 20 ≤ dwell) (hp : l / 4 = 2 → s.prt.portal = false) (hs : laneAligned ≤ s.laneState l)
    (hn : (s.lane l).scan = none) (hc : (s.lane l).checking = false) :
    lnkEyescanBody h [eyescanWord l ber map dwell] s = (s.setLane l { s.lane l with scan := some { h, map } }, .later none) := by
  have value := toNat_eyescanWord (map := map) hl hb hd
  have bit := b2n_lt map
  have size : ¬(8192 ≤ (eyescanWord l ber map dwell).toNat) := by omega
  have lane : (eyescanWord l ber map dwell).toNat % 16 = l := by omega
  have errors : bits (eyescanWord l ber map dwell).toNat 5 4 ≠ 3 := by rw [value, bits]; omega
  have reserved : bitOf (eyescanWord l ber map dwell).toNat 7 = false := by
    rw [value]; simp only [bitOf, beq_eq_false_iff_ne]; omega
  have time : bits (eyescanWord l ber map dwell).toNat 12 8 = dwell := by rw [value, bits]; omega
  have long : ¬(12 ≤ l) ∧ ¬(40 < dwell) := by omega
  have free : ¬(l / 4 = 2 ∧ s.prt.portal = true) := fun ⟨g, f⟩ => by simp [hp g] at f
  have aligned : ¬(s.laneState l < laneAligned) := Nat.not_lt.mpr hs
  have dwells : ¬(map = true ∧ dwell < 20) := fun ⟨g, f⟩ => absurd (hm g) (by omega)
  simp [lnkEyescanBody, word, eyescanWord_map hl hb hd, size, lane, errors, reserved, time, long, free, aligned, dwells, hn, hc]
end

/-! ### TST.LOOP (R342) -/

/-- A target and a mode make the first word of TST.LOOP. -/
def loopWord (target mode : Nat) : Word := BitVec.ofNat 32 (target + 16 * mode)

section
variable {n : Word} {target mode : Nat} (ht : target < 13) (hm : mode < 3)
include ht hm

theorem loopWord_fields : (loopWord target mode).toNat < 64 ∧ (loopWord target mode).toNat % 16 = target ∧ bits (loopWord target mode).toNat 5 4 = mode := by
  have value : (loopWord target mode).toNat = target + 16 * mode := by simp only [loopWord, BitVec.toNat_ofNat]; omega
  rw [value, bits]; omega

theorem tstLoopBody_of_port (hp : target < 3) (hh : target = 2 → s.prt.portal = false) :
    tstLoopBody h [loopWord target mode, 0] s = okay (s.loopPort target mode) := by
  obtain ⟨size, own, way⟩ := loopWord_fields ht hm
  have known : ¬(13 ≤ target) ∧ mode ≠ 3 := by omega
  have free : ¬(target = 2 ∧ s.prt.portal = true) := fun ⟨g, f⟩ => by simp [hh g] at f
  simp [tstLoopBody, word, Nat.not_le.mpr size, own, way, known, hp, free]
end

section
variable {n : Word} {target : Nat} (ht : target < 13) (hp : 3 ≤ target) (hn : n.toNat ≤ 1000000)
include ht hp hn

theorem tstLoopBody_of_ended : tstLoopBody h [loopWord target 0, n] s = okay s := by
  obtain ⟨size, own, way⟩ := loopWord_fields (mode := 0) ht (by decide)
  have known : ¬(13 ≤ target) ∧ ¬(target < 3) := by omega
  simp [tstLoopBody, word, Nat.not_le.mpr size, own, way, known, Nat.not_lt.mpr hn]

/-- A run of flits on a die link is accepted and ends with the last of them. -/
theorem tstLoopBody_of_flits (hf : 1 ≤ n.toNat) :
    let x : FlitTest := { h, die := (loopPair target).1, source := (loopPair target).2, left := n.toNat, count := n.toNat }
    tstLoopBody h [loopWord target 1, n] s = ({ s with lnk := { s.lnk with flits := s.lnk.flits ++ [x] } }, .later none) := by
  obtain ⟨size, own, way⟩ := loopWord_fields (mode := 1) ht (by decide)
  have known : ¬(13 ≤ target) ∧ ¬(target < 3) ∧ n.toNat ≠ 0 := by omega
  simp [tstLoopBody, word, Nat.not_le.mpr size, own, way, known, Nat.not_lt.mpr hn]
end
end

/-- Settles O21: each command's own checks pass and give its effect and answer (that RED.SELFTEST of a die neither IN_STEP nor FAILED only waits is log 55). -/
theorem redundancyAndLinkCommandsComplete : Obligations.RedundancyAndLinkCommandsComplete := by
  refine ⟨fun s h => ⟨?status, ?move, ?release, ?selftest⟩,
    fun s h => ⟨?lanes, ?fallow, ?wake, ?retrain, fun l ber hl hb hp hs hn hc => ⟨?health, ?map⟩, fun target mode ht hm => ⟨?loop, ?ended, ?flits⟩⟩⟩
  case status => exact fun g => congrArg Host.Outcome.next (State.receive_final g rfl)
  case move => exact fun g hd => congrArg Host.Outcome.next (State.receive_final g (redSwitchBody_move hd))
  case release => exact fun g => congrArg Host.Outcome.next (State.receive_final g redSwitchBody_release)
  case selftest =>
    rintro w d g hw rfl ha hc
    exact congrArg Host.Outcome.next (State.receive_later g (redSelftestBody_of_standby hw ha hc))
  case lanes => exact fun w g hw => congrArg Host.Outcome.next (State.receive_final g (lnkStatusBody_of_port hw))
  case fallow => exact fun w g hw hp hh => congrArg Host.Outcome.next (State.receive_final g (lnkFallowBody_of_port hw hp hh))
  case wake =>
    exact fun w g hw he => ⟨fun hp => congrArg Host.Outcome.next (State.receive_final g (lnkWakeBody_of_awake hw he hp)),
      fun hp => congrArg Host.Outcome.next (State.receive_later g (lnkWakeBody_of_fallow hw he hp))⟩
  case retrain =>
    exact fun port named hp hn g => congrArg Host.Outcome.next (State.receive_later g (lnkRetrainBody_of_lanes hp hn (toNat_retrainWord hp hn)))
  case health =>
    intro w g
    have own := forceMode_eyescanWord (map := false) (dwell := 0) hl hb (by decide)
    exact congrArg Host.Outcome.next (State.receive_later g
      ((congrArg (lnkEyescanBody h · _) own).trans (lnkEyescanBody_of_lane hl hb (by decide) nofun hp hs hn hc)))
  case map =>
    intro dwell hm hd w g
    have own := forceMode_eyescanWord (map := true) hl hb hd
    exact congrArg Host.Outcome.next (State.receive_later g
      ((congrArg (lnkEyescanBody h · _) own).trans (lnkEyescanBody_of_lane hl hb hd (fun _ => hm) hp hs hn hc)))
  case loop =>
    exact fun g hp hh => congrArg Host.Outcome.next (State.receive_final g (tstLoopBody_of_port ht hm hp hh))
  case ended =>
    rintro n g hp rfl hn
    exact congrArg Host.Outcome.next (State.receive_final g (tstLoopBody_of_ended ht hp hn))
  case flits =>
    rintro n g hp rfl hf hn
    exact congrArg Host.Outcome.next (State.receive_later g (tstLoopBody_of_flits ht hp hn hf))

end Sys2Proof.Machine
end

section
/-! The statement on the calibration commands (R422, R431, R432, R436). -/

namespace Sys2Proof.Machine

section
variable {s : State} {h : Hdr} {p : List Word}

/-! ### CAL.RUN, CAL.SHUNT and CAL.ABORT (R422, R431, R432) -/

theorem calRunBody_of_good (hl : p.length = 19) (hw : word p 0 < 256) (hb : bitOf (word p 0) 4 = false) (hr : calRunRange p = false) (hc : s.calRefusal = none) :
    calRunBody h p s = (s, .later (some (s.actInstant h))) := by
  simp [calRunBody, hl, Nat.not_le.mpr hw, hb, hr, hc]
theorem calShuntBody_of_good (hl : p.length = 3) (hw : word p 0 < 2048) (hr : s.shuntRange p = false) (hc : s.calRefusal = none) :
    calShuntBody h p s = (s, .later (some (s.actInstant h))) := by
  simp [calShuntBody, hl, Nat.not_le.mpr hw, hr, hc]

theorem calAbortBody_of_idle (hr : s.cal.run = none) : calAbortBody [] s = okay s := by
  simp [calAbortBody, hr]
/-- An abort waits for the first slot boundary, the run for that of the first abort. -/
theorem calAbortBody_of_run {x : CalRun} (hr : s.cal.run = some x) (hs : s.calStateOf ≠ calStoring) :
    calAbortBody [] s = (s.setCalRun { x with abortAt := some (x.abortAt.getD (boundaryAfter s.now)) }, .quiet (some (boundaryAfter s.now))) := by
  simp [calAbortBody, hr, hs]

/-! ### CAL.READ (R436) -/

/-- What CAL.READ reads: a slot, or the factory record. -/
def State.calRecord (s : State) (w : Word) : CalSlot := if w = 2 then s.cal.factory else s.cal.slots.get w.toNat
/-- Whether a record is valid, and whether it is in force. -/
def State.calRecordState (s : State) (w : Word) : Word :=
  BitVec.ofNat 32 (b2n (s.calRecord w).valid + 2 * b2n (s.rdN P.CAL_SLOT_IN_FORCE == w.toNat))

theorem State.calRecord_eq (s : State) (w : Word) : (if word [w] 0 = 2 then s.cal.factory else s.cal.slots.get (word [w] 0)) = s.calRecord w := by
  have factory : word [w] 0 = 2 ↔ w = 2 := ⟨fun e => BitVec.eq_of_toNat_eq e, fun e => e ▸ rfl⟩
  simp only [State.calRecord, factory]
  rfl

section
variable {w : Word} (hw : w.toNat < 3)
include hw

/-- An erased slot reads as six words of ones (log 67). -/
theorem calReadBody_of_erased (he : (s.calRecord w).empty = true) :
    calReadBody [w] s = okay s (List.replicate 6 0xFFFFFFFF ++ [s.calRecordState w]) := by
  have form : ¬([w].length ≠ 1 || 4 ≤ word [w] 0) := by simp [word]; omega
  have range : word [w] 0 ≠ 3 := Nat.ne_of_lt hw
  rw [calReadBody, if_neg form, if_neg range]
  simp only [State.calRecord_eq, he, if_true]
  rfl
theorem calReadBody_of_good (he : (s.calRecord w).empty = false) (hg : (s.calRecord w).good = true) : let x := s.calRecord w
    calReadBody [w] s
      = okay s [0, BitVec.ofNat 32 x.seq, BitVec.ofNat 32 x.bytes.length, crc32c x.bytes, lo32 x.time, hi32 x.time, s.calRecordState w] := by
  have form : ¬([w].length ≠ 1 || 4 ≤ word [w] 0) := by simp [word]; omega
  have range : word [w] 0 ≠ 3 := Nat.ne_of_lt hw
  rw [calReadBody, if_neg form, if_neg range]
  simp only [State.calRecord_eq, he, hg, Bool.false_eq_true, if_false, if_true]
  rfl
end
end

/-- Settles O20: each command's own checks pass and give its effect and answer (that an erased slot reads as ones is log 67). -/
theorem calibrationCommandsComplete : Obligations.CalibrationCommandsComplete := by
  refine fun s h p => ⟨?run, ?shunt, ?idle, ?abort, fun w g hw => ⟨?erased, ?good⟩⟩
  case run => exact fun g hl hw hb hr hc => congrArg Host.Outcome.next (State.receive_later g (calRunBody_of_good hl hw hb hr hc))
  case shunt => exact fun g hl hw hr hc => congrArg Host.Outcome.next (State.receive_later g (calShuntBody_of_good hl hw hr hc))
  case idle => exact fun g hr => congrArg Host.Outcome.next (State.receive_final g (calAbortBody_of_idle hr))
  case abort => exact fun x g hr hs => congrArg Host.Outcome.next (State.receive_quiet g (calAbortBody_of_run hr hs))
  case erased => exact fun he => congrArg Host.Outcome.next (State.receive_final g (calReadBody_of_erased hw he))
  case good => exact fun he hg => congrArg Host.Outcome.next (State.receive_final g (calReadBody_of_good hw he hg))

end Sys2Proof.Machine
end

section
/-! The statement on the calibration events (R422 to R431, R434). -/

namespace Sys2Proof.Machine

/-! ### Holds and releases leave the time as it is -/

section
variable (s : State)

@[simp] theorem State.clearPrim_time (n p : Nat) : (s.clearPrim n p).time = s.time := rfl
@[simp] theorem State.sendAlarm_time (src : Nat) (e : AlarmEvent) : (s.sendAlarm src e).time = s.time := rfl
@[simp] theorem State.updateAlarm_time (n t : Nat) : (s.updateAlarm n t).time = s.time := by simp [State.updateAlarm, apply_ite State.time]
@[simp] theorem State.openSet_time (n t : Nat) : (s.openSet n t).time = s.time := by simp [State.openSet, apply_ite State.time]
@[simp] theorem State.closeSet_time (n reason t : Nat) : (s.closeSet n reason t).time = s.time := by
  simp only [State.closeSet]
  split
  · rfl
  · simp [apply_ite State.time]
@[simp] theorem State.takeLevel_time (n : Nat) : (s.takeLevel n).time = s.time := rfl
@[simp] theorem State.refreshCmp_time (n reason : Nat) : (s.refreshCmp n reason).time = s.time := by simp [State.refreshCmp, apply_ite State.time]
@[simp] theorem State.setInState_time (n st : Nat) : (s.setInState n st).time = s.time := by simp [State.setInState, apply_ite State.time]
@[simp] theorem State.openWindow_time (n t : Nat) : (s.openWindow n t).time = s.time := rfl
@[simp] theorem State.holdInput_time (n reason : Nat) : (s.holdInput n reason).time = s.time := by simp [State.holdInput, apply_ite State.time]
@[simp] theorem State.releaseInput_time (n reason t : Nat) : (s.releaseInput n reason t).time = s.time := by
  simp [State.releaseInput, apply_ite State.time]
@[simp] theorem State.align_time (g f e : Nat) : (s.align g f e).time = s.time := rfl
@[simp] theorem State.alignUnderStops_time (g f e : Nat) : (s.alignUnderStops g f e).time = s.time := by
  simp [State.alignUnderStops, apply_ite State.time]
@[simp] theorem State.regrid_time (old : State) (g t : Nat) : (s.regrid old g t).time = s.time := by simp [State.regrid, apply_ite State.time]
@[simp] theorem State.releaseCal_time (inputs : List Nat) (t : Nat) : (s.releaseCal inputs t).time = s.time := by
  simp [State.releaseCal, foldl_view State.time]
end

/-! ### Results that take effect leave the time as it is -/

section
variable (s : State)

@[simp] theorem State.showResult_time (u result : Nat) : (s.showResult u result).time = s.time := by simp [State.showResult, apply_ite State.time]
@[simp] theorem State.wrAll_time (kvs : List (Nat × Word)) : (kvs.foldl (fun (s : State) kv => s.wr kv.1 kv.2) s).time = s.time :=
  foldl_view State.time (f := fun s kv => s.wr kv.1 kv.2) (fun _ _ => rfl) kvs s
@[simp] theorem State.applyInput_time (x : CalInput) : (s.applyInput x).time = s.time := by
  simp [State.applyInput, apply_ite State.time]
@[simp] theorem State.applySource_time (x : CalSource) : (s.applySource x).time = s.time := by simp [State.applySource, apply_ite State.time]
end

/-! ### The start (R423, R429) -/

section
variable {s : State} {o : Outstanding}

/-- The event of the first waiting command, that no commit and no earlier command keeps back. -/
theorem calStart_of_due (due : s.dueCommand [0x30, 0x32] = some o) (hc : s.commitBefore (o.due.getD 0) = false)
    (he : s.earlierFirst o.h (o.due.getD 0) = false) :
    calStart s = if (s.undue o.h).calStateOf ≠ calIdle then (s.undue o.h).finish o.op o.h stBusy []
      else if o.op = 0x30 then (s.undue o.h).startCal o.h o.p else (s.undue o.h).startShunt o.h o.p := by
  unfold calStart
  rw [due]
  exact if_neg (by simp [hc, he])
end

/-! ### Holding, points and checks (R424 to R429) -/

section
variable {s : State} {c : CalRun}

theorem calHoldDone_of_run (run : s.cal.run = some c) (hst : s.calStateOf = calHolding) (due : c.started + 10000000 ≤ s.now) :
    calHoldDone s = s.beginPoint c := by
  unfold calHoldDone
  rw [run]
  exact if_pos (by simp [hst, due])

/-- What a point brings into the run. -/
def State.closeItem (s : State) (c : CalRun) (found : List CalFinding) : CalPoint → CalRun
  | .source _ i => { c with sources := c.sources.map (s.closeSource c i found) }
  | .timing _ => { c with inputs := c.inputs.map (closeTiming found) }
  | pt => { c with inputs := c.inputs.map (s.closePoint c pt) }

theorem calPointDone_of_full (found : List CalFinding) {pt : CalPoint} {rest : List CalPoint} (run : s.cal.run = some c) (todo : c.todo = pt :: rest)
    (hst : s.calStateOf = calMeasuring) (full : s.pointFull c pt = true) :
    calPointDone found s = s.beginPoint { s.closeItem c found pt with todo := rest } := by
  unfold calPointDone
  rw [run]
  dsimp only
  rw [todo]
  refine (if_neg (by simp [hst, full])).trans ?_
  cases pt <;> rfl
end

/-! ### The release (R426, R430) -/

section
variable {s : State} {c : CalRun}

/-- The values and results of a run, as they take effect. -/
def State.takeResults (s : State) (c : CalRun) : State :=
  c.skipped.foldl (fun s u => s.showResult u resSkipped)
    (if c.shunt.any (fun x => !x.apply) then s else c.sources.foldl State.applySource (c.inputs.foldl State.applyInput s))

theorem State.takeResults_now : (s.takeResults c).now = s.now := by
  simp [State.now, State.takeResults, foldl_view State.time, apply_ite State.time]

/-- The run after its release, with the items that were applied. -/
def CalRun.released (c : CalRun) (at_ : Nat) : CalRun :=
  let named := c.inputs.filter (·.named)
  let n := (named.filter (fun x => x.result == resApplied && !x.skipped && !x.aborted)).length
    + (c.sources.filter (fun x => x.result == resApplied && !x.aborted)).length
  { c.answered with checked := at_, applied := n, others := named.length + c.sources.length + c.skipped.length - n }

/-- What follows the release: the store, or the final reply. -/
def State.afterRelease (s : State) (c : CalRun) : State :=
  if c.stores then ((s.setCalRun c).wrN P.CAL_STATE calStoring).queueFlash .calStore else s.calReply c 1 0

theorem calRelease_of_due (run : s.cal.run = some c) (hst : s.calStateOf = calChecking) (slot : s.now % 1000 = 0) (later : c.checked < s.now)
    (hc : s.commitDue = false) (ha : c.abortAt.all (fun a => decide (s.now < a)) = true) :
    calRelease s = ((s.takeResults c).releaseCal (c.inputs.map (·.input)) s.now).afterRelease (c.released s.now) := by
  have released : ((s.takeResults c).releaseCal (c.inputs.map (·.input)) s.now).now = s.now :=
    (congrArg (· / 4096) (State.releaseCal_time ..)).trans State.takeResults_now
  have steps : calRelease s = ((s.takeResults c).releaseCal (c.inputs.map (·.input)) (s.takeResults c).now).afterRelease
      (c.released ((s.takeResults c).releaseCal (c.inputs.map (·.input)) (s.takeResults c).now).now) := by
    unfold calRelease
    rw [run]
    refine (if_neg ?_).trans ?_
    · cases hab : c.abortAt <;> simp_all
    · unfold State.takeResults
      cases c.shunt <;> rfl
  rw [steps, State.takeResults_now, released]
end

/-! ### The store (R434) and the abort (R431) -/

section
variable {s : State} {c : CalRun}

section
variable (run : s.cal.run = some c) (front : s.mgt.ops.head? = some .calStore)
include run front

theorem calStoreComplete_retry (first : s.cal.retried = false) : calStoreComplete false s = s.setCal { s.cal with retried := true } := by
  unfold calStoreComplete
  rw [front, run]
  exact (if_neg Bool.false_ne_true).trans (if_pos (by simp [first]))

theorem calStoreComplete_fails (again : s.cal.retried = true) :
    calStoreComplete false s
      = (((((s.setCal { s.cal with retried := false }).setBit P.CAL_STATUS 2).logEvent 0x0F02 0 2 s.storeSlot 0).endFlash).calReply c 3 0) := by
  unfold calStoreComplete
  rw [front, run]
  exact (if_neg Bool.false_ne_true).trans (if_neg (by simp [again]))

theorem calStoreComplete_good :
    calStoreComplete true s
      = (((((s.setCal { s.cal with
              slots := s.cal.slots.set s.storeSlot { seq := s.storeSeq, time := c.checked, body := s.par.filter (fun e => isCalItem e.1), good := true, empty := false }
              retried := false }).wrN P.CAL_SLOT_IN_FORCE s.storeSlot).wrN P.CAL_SLOT_SEQ s.storeSeq).endFlash).calReply c 0 s.storeSeq) := by
  unfold calStoreComplete
  rw [front, run]
  rfl
end

theorem calAbortAct_of_due {o : Outstanding} (due : s.dueCommand [0x31] = some o) (hc : s.commitDue = false) :
    calAbortAct s = (let a := if s.calStateOf = calIdle ∨ s.calStateOf = calStoring then s else s.abortCal
      a.answerAborts a.cmd.outstanding.length) := by
  unfold calAbortAct
  rw [due]
  refine (if_neg (by simp [hc])).trans ?_
  simp only [Bool.or_eq_true, decide_eq_true_eq]
end

/-- Settles O46: an equation for each event. -/
theorem calibrationEventsComplete : Obligations.CalibrationEventsComplete := by
  unfold Obligations.CalibrationEventsComplete
  intro s t r
  refine ⟨?_, fun c run => ⟨fun hst due => ?_, ?_, ?_, ?_, ?_, ?_, ?_⟩,
    fun o due hc => congrArg Host.Outcome.next (calAbortAct_of_due due hc)⟩
  · intro o due hc he a
    have start := calStart_of_due due hc he
    exact ⟨fun busy => congrArg Host.Outcome.next (start.trans (if_pos busy)),
      fun idle h30 => congrArg Host.Outcome.next (start.trans ((if_neg (not_not.mpr idle)).trans (if_pos h30))),
      fun idle h32 => congrArg Host.Outcome.next (start.trans ((if_neg (not_not.mpr idle)).trans (if_neg (by simp [h32]))))⟩
  · exact congrArg Host.Outcome.next (calHoldDone_of_run run hst due)
  · exact fun found _ _ _ _ todo hst full => congrArg Host.Outcome.next (calPointDone_of_full found run todo hst full)
  · exact fun found _ _ _ todo hst full => congrArg Host.Outcome.next (calPointDone_of_full found run todo hst full)
  · exact fun found _ _ todo hst full => congrArg Host.Outcome.next (calPointDone_of_full found run todo hst full)
  · exact fun found _ _ todo hst full => congrArg Host.Outcome.next (calPointDone_of_full found run todo hst full)
  · intro hst slot later hc ha quiet b a named n d
    have done := calRelease_of_due run hst slot later hc ha
    exact ⟨fun h => congrArg Host.Outcome.next (done.trans (if_neg (Bool.eq_false_iff.mp h))), fun h => congrArg Host.Outcome.next (done.trans (if_pos h))⟩
  · intro front
    refine ⟨fun first => congrArg Host.Outcome.next (calStoreComplete_retry run front first),
      fun again => congrArg Host.Outcome.next (calStoreComplete_fails run front again), ?_⟩
    rintro x rfl
    exact congrArg Host.Outcome.next (calStoreComplete_good run front)

end Sys2Proof.Machine
end

section
/-! The statement on the periodic check (R437, R438). -/

namespace Sys2Proof.Machine

/-! ### A stamper's check leaves the memories and the time -/

section
variable (s : State)

theorem State.checkStamper_mem (f : CheckFinding) : (s.checkStamper f).mem = s.mem := by
  simp only [State.checkStamper]
  split
  · rfl
  · split <;> rfl
theorem State.checkStamper_time (f : CheckFinding) : (s.checkStamper f).time = s.time := by
  simp only [State.checkStamper]
  split
  · rfl
  · split <;> rfl
end

/-! ### A whole period (R438) -/

/-- The pulse tests that have begun. -/
def begun (xs : List (Nat × Option Nat)) : List (Nat × Option Nat) := xs.filter (fun x => x.2.isSome)

theorem mem_begun {xs : List (Nat × Option Nat)} {n : Nat} {b : Option Nat} : (n, b) ∈ begun xs ↔ (n, b) ∈ xs ∧ b.isSome := List.mem_filter

/-- A test that has not begun is left out by the filter, which so shortens the list. -/
theorem length_begun_lt {xs : List (Nat × Option Nat)} {n : Nat} (h : (n, none) ∈ xs) : (begun xs).length < xs.length :=
  List.length_filter_lt_length_iff_exists.mpr ⟨_, h, by simp⟩

section
variable (s : State)

/-- A pulse test of an input falls due at a period: it is listed, neither held nor off, and has no test under way. -/
def State.pulseFallsDue (kept : List (Nat × Option Nat)) (n : Nat) : Bool :=
  s.rdN (P.CAL_PCHK_WB n) == 1 && s.inState n != inHeld && s.inState n != inOff && !kept.any (fun x => x.1 == n)

/-- The tests left over from the last period are shown. -/
def State.showSkipped : State := if (begun s.cal.pulses).length < s.cal.pulses.length then s.setBit P.CAL_STATUS 4 else s

/-- The tests that fall due at a period join those under way. -/
def State.newPeriod : State :=
  s.showSkipped.setCal { s.showSkipped.cal with
    checkedAt := s.showSkipped.now
    pulses := begun s.cal.pulses ++ ((List.range 512).filter (s.showSkipped.pulseFallsDue (begun s.cal.pulses))).map (fun n => (n, none)) }

theorem State.showSkipped_now : s.showSkipped.now = s.now := by simp [State.now, State.showSkipped, apply_ite State.time]
theorem State.showSkipped_mem : s.showSkipped.mem = s.mem := by simp [State.showSkipped, apply_ite State.mem]

theorem State.newPeriod_pulses :
    s.newPeriod.cal.pulses = begun s.cal.pulses ++ ((List.range 512).filter (s.showSkipped.pulseFallsDue (begun s.cal.pulses))).map (fun n => (n, none)) := rfl
theorem State.newPeriod_bit (k i : Nat) : s.newPeriod.bit k i = s.showSkipped.bit k i := rfl

variable {s}

theorem State.pulseFallsDue_iff {n : Nat} : s.pulseFallsDue (begun s.cal.pulses) n = true ↔
    s.rdN (P.CAL_PCHK_WB n) = 1 ∧ s.inState n ≠ inHeld ∧ s.inState n ≠ inOff ∧ ∀ b, (n, some b) ∉ s.cal.pulses := by
  have free : (begun s.cal.pulses).any (fun x => x.1 == n) = false ↔ ∀ b, (n, some b) ∉ s.cal.pulses := by
    rw [List.any_eq_false]
    constructor
    · exact fun h b hb => h (n, some b) (mem_begun.mpr ⟨hb, rfl⟩) (by simp)
    · rintro h ⟨m, b⟩ hm hmn
      obtain ⟨hb, hs⟩ := mem_begun.mp hm
      obtain ⟨c, rfl⟩ := Option.isSome_iff_exists.mp hs
      exact h c (by rwa [← beq_iff_eq.mp hmn])
  simp [State.pulseFallsDue, free, and_assoc]

/-- What is shown of the tests left over decides nothing of what falls due. -/
theorem State.pulseFallsDue_showSkipped {n : Nat} (hn : n < 512) : s.showSkipped.pulseFallsDue (begun s.cal.pulses) n = s.pulseFallsDue (begun s.cal.pulses) n := by
  have wb : P.CAL_PCHK_WB n ≠ P.CAL_STATUS := by simp only [P.CAL_PCHK_WB, P.CAL_STATUS]; omega
  have st : P.FE_IN_STATE n ≠ P.CAL_STATUS := by simp only [P.FE_IN_STATE, P.CAL_STATUS]; omega
  unfold State.pulseFallsDue State.showSkipped State.inState
  split
  · rw [State.rdN_setBit_other _ _ wb, State.rdN_setBit_other _ _ st]
  · rfl

theorem State.mem_newPeriod {n : Nat} : (n, none) ∈ s.newPeriod.cal.pulses ↔ n < 512 ∧ s.pulseFallsDue (begun s.cal.pulses) n = true := by
  have old : (n, none) ∉ begun s.cal.pulses := fun h => by simpa using (mem_begun.mp h).2
  have mem : (n, none) ∈ s.newPeriod.cal.pulses ↔ n < 512 ∧ s.showSkipped.pulseFallsDue (begun s.cal.pulses) n = true := by
    simp [State.newPeriod_pulses, old]
  rw [mem]
  exact and_congr_right fun hn => by rw [State.pulseFallsDue_showSkipped hn]

/-- A test that has not begun at the next period is shown. -/
theorem State.newPeriod_shows {n : Nat} (h : (n, none) ∈ s.cal.pulses) : s.newPeriod.bit P.CAL_STATUS 4 = true := by
  have shown : s.showSkipped = s.setBit P.CAL_STATUS 4 := if_pos (length_begun_lt h)
  rw [State.newPeriod_bit, shown, State.bit_setBit _ _ _ _ (by decide), decide_eq_true rfl, Bool.true_or]

theorem pchkPeriod_of_due {found : List CheckFinding} (hp : s.rdN P.CAL_PCHK_PERIOD ≠ 0) (whole : s.now % (1000000000 * s.rdN P.CAL_PCHK_PERIOD) = 0)
    (later : s.cal.checkedAt < s.now) : pchkPeriod found s = (found.foldl State.checkStamper s).newPeriod := by
  unfold pchkPeriod
  dsimp only
  rw [if_neg (by simp [hp, whole, Nat.not_le.mpr later])]
  rfl
end

/-! ### A pulse test (R438) -/

section
variable {s : State} {n : Nat} (hit : Bool)

theorem pchkPulseTest_begins (waits : s.cal.pulses.find? (fun x => x.1 == n) = some (n, none)) (idle : (s.run (n / 4)).slots = [])
    (scans : s.grpState (n / 4) = grpScanning) (free : s.inState n ≠ inHeld) :
    pchkPulseTest n hit s
      = (s.holdInput n holdPulse).setCal { s.cal with pulses := s.cal.pulses.map (fun x => if x.1 = n then (n, some s.now) else x) } := by
  unfold pchkPulseTest
  rw [waits]
  exact if_neg (by simp [idle, scans, free])

variable {hit}

/-- The test's input is released once its verdict is taken. -/
theorem pchkPulseTest_judges {b : Nat} (runs : s.cal.pulses.find? (fun x => x.1 == n) = some (n, some b)) (ended : b + s.scanCycle (n / 4) ≤ s.now) :
    pchkPulseTest n hit s = (let a := s.setCal { s.cal with pulses := s.cal.pulses.filter (fun x => x.1 != n) }
      let v := a.takeFree
      let c := if hit then v.2.failCheck n v.1.toNat else a
      c.releaseInput n holdPulse c.now) := by
  unfold pchkPulseTest
  rw [runs]
  exact if_neg (Nat.not_lt.mpr ended)
end

/-- Settles O47: the pulse tests of a new period are those under way and those that fall due. -/
theorem periodicCheckComplete : Obligations.PeriodicCheckComplete := by
  unfold Obligations.PeriodicCheckComplete
  intro s t r
  refine ⟨fun found hp whole later => ?_, fun n hit => ⟨fun waits idle scans free => ?_, fun b runs ended => ⟨?_, ?_⟩⟩⟩
  · intro a
    have kept : a.now = r.now := congrArg (· / 4096) (foldl_view State.time State.checkStamper_time found r)
    refine ⟨a.newPeriod, congrArg Host.Outcome.next (pchkPeriod_of_due hp whole later), ?_, fun n => ?_, fun ⟨n, hn⟩ => State.newPeriod_shows hn, ?_⟩
    · exact a.showSkipped_now.trans kept
    · rw [State.mem_newPeriod, State.pulseFallsDue_iff]
    · exact a.showSkipped_mem.trans (foldl_view State.mem State.checkStamper_mem found r)
  · exact congrArg Host.Outcome.next (pchkPulseTest_begins hit waits idle scans free)
  · exact congrArg Host.Outcome.next (pchkPulseTest_judges runs ended)
  · exact ⟨_, congrArg Host.Outcome.next (pchkPulseTest_judges runs ended)⟩

end Sys2Proof.Machine
end

section
/-! The statement on the management commands (R472 to R476, R479, R482, R483) and on the test commands (R306, R415). -/

namespace Sys2Proof.Machine

section
variable {s : State} {h : Hdr}

/-! ### MGT.OPEN (R474) -/

/-- A challenge takes the next nonce, for 10 s. -/
theorem mgtOpenBody_challenge (ht : h.target = 0) (hl : s.lockedOut = false) :
    mgtOpenBody h [0] s = okay (s.setMgt { s.mgt with nonce := some (s.mgt.nonceCount, s.time + secs 10), nonceCount := s.mgt.nonceCount + 1 })
      (wordsOf (nonceBytes s.mgt.nonceCount)) := by
  simp [mgtOpenBody, openChallenge, word, ht, hl]

/-- MODE 1 with a key makes the first word of a response. -/
def responseWord (key : Nat) : Word := BitVec.ofNat 32 (1 + 16 * key)

section
variable {key : Nat} (hk : key < 16)
include hk

theorem toNat_responseWord : (responseWord key).toNat = 1 + 16 * key := by simp only [responseWord, BitVec.toNat_ofNat]; omega
theorem responseWord_fields : (responseWord key).toNat < 256 ∧ (responseWord key).toNat % 2 = 1 ∧ bits (responseWord key).toNat 0 0 = 1
    ∧ bits (responseWord key).toNat 3 1 = 0 ∧ bits (responseWord key).toNat 7 4 = key := by
  rw [toNat_responseWord hk]
  simp only [bits]
  omega
end

/-- A signed response under a key, judged by the nonce held. -/
def State.judgeResponse (s : State) (h : Hdr) (key lifetime : Nat) (sig : List Word) : State × Answer := match s.heldNonce with
  | none => refuse (s.failOpen h) stAuth
  | some n =>
    if Config.keyVerifies (s.keySlot key).key (s.responseDigest n lifetime) ((bytesOf sig).take 3309) then okay (s.openSession key lifetime)
    else refuse (s.failOpen h) stAuth

section
variable {key n : Nat} {life : Word} {sig : List Word}

theorem State.judgeResponse_none (hn : s.heldNonce = none) : s.judgeResponse h key life.toNat sig = refuse (s.failOpen h) stAuth := by
  simp [State.judgeResponse, hn]
theorem State.judgeResponse_some (hn : s.heldNonce = some n) : s.judgeResponse h key life.toNat sig =
    if Config.keyVerifies (s.keySlot key).key (s.responseDigest n life.toNat) ((bytesOf sig).take 3309) then okay (s.openSession key life.toNat)
    else refuse (s.failOpen h) stAuth := by
  simp [State.judgeResponse, hn]

variable (ht : h.target = 0) (least : 60 ≤ life.toNat) (most : life.toNat ≤ 86400) (hl : s.lockedOut = false)
include ht least most hl

theorem mgtOpenBody_response (hk : key < 4) (hs : sig.length = 828) (pad : word (responseWord key :: life :: sig) 829 < 256) (enrolled : s.keyState key = 1) :
    mgtOpenBody h (responseWord key :: life :: sig) s = s.judgeResponse h key life.toNat sig := by
  obtain ⟨size, odd, -, reserved, slot⟩ := responseWord_fields (key := key) (by omega)
  have known : key ≠ 15 ∧ ¬(3 < key) := by omega
  have padding : word (responseWord key :: life :: sig) 829 / 256 = 0 := Nat.div_eq_of_lt pad
  have first : word (responseWord key :: life :: sig) 0 = (responseWord key).toNat := rfl
  have second : word (responseWord key :: life :: sig) 1 = life.toNat := rfl
  cases hn : s.heldNonce <;> simp [mgtOpenBody, openResponse, ht, first, second, hs, odd, reserved, slot, known, padding, enrolled, Nat.not_le.mpr size,
    Nat.not_lt.mpr least, Nat.not_lt.mpr most, hl, State.judgeResponse, hn]

/-- Where no key is enrolled, slot 15 stands for an unsigned response. -/
theorem mgtOpenBody_unsigned (hf : s.enrolledAny = false) (hn : s.heldNonce = some n) :
    mgtOpenBody h [responseWord 15, life] s = okay (s.openSession 15 life.toNat) := by
  obtain ⟨size, odd, -, reserved, slot⟩ := responseWord_fields (key := 15) (by decide)
  have first : word [responseWord 15, life] 0 = (responseWord 15).toNat := rfl
  have second : word [responseWord 15, life] 1 = life.toNat := rfl
  simp [mgtOpenBody, openResponse, ht, first, second, odd, reserved, slot, hf, Nat.not_le.mpr size, Nat.not_lt.mpr least, Nat.not_lt.mpr most, hl, hn]
end

/-! ### MGT.LOG (R482) -/

/-- A count and the log it is read from make the second word of MGT.LOG. -/
def logWord (count : Nat) (persistent : Bool) : Word := BitVec.ofNat 32 (count + 256 * b2n persistent)

/-- The log MGT.LOG reads. -/
def State.logOf (s : State) (persistent : Bool) : List LogEntry := if persistent then s.mgt.persistLog else s.mgt.log

section
variable {from_ : Word} {count : Nat} {persistent : Bool} (positive : 0 < count) (most : count < 128)
include most

theorem logWord_fields : (logWord count persistent).toNat < 512 ∧ bits (logWord count persistent).toNat 6 0 = count
    ∧ bitOf (logWord count persistent).toNat 7 = false ∧ bitOf (logWord count persistent).toNat 8 = persistent := by
  have bit := b2n_lt persistent
  have value : (logWord count persistent).toNat = count + 256 * b2n persistent := by simp only [logWord, BitVec.toNat_ofNat]; omega
  refine ⟨by omega, by rw [value, bits]; omega, ?_, ?_⟩
  · rw [value]; simp only [bitOf, beq_eq_false_iff_ne]; omega
  · have eighth : (count + 256 * b2n persistent) / 2 ^ 8 % 2 = b2n persistent := by omega
    rw [value, bitOf, eighth]
    cases persistent <;> rfl

include positive

theorem mgtLogBody_of_empty (hg : s.logOf persistent = []) : mgtLogBody [from_, logWord count persistent] s = okay s.takeFree.2 [0, s.takeFree.1] := by
  obtain ⟨size, number, reserved, source⟩ := logWord_fields (persistent := persistent) most
  have first : word [from_, logWord count persistent] 1 = (logWord count persistent).toNat := rfl
  have some_ : count ≠ 0 := by omega
  unfold State.logOf at hg
  simp [mgtLogBody, first, Nat.not_le.mpr size, number, reserved, source, some_, hg]

/-- The entries of a log from a number on. -/
theorem mgtLogBody_of_entries {e : LogEntry} {es : List LogEntry} (hg : s.logOf persistent = e :: es) :
    let found := ((s.logOf persistent).filter (fun x => decide (from_.toNat ≤ x.seq))).take count
    mgtLogBody [from_, logWord count persistent] s
      = okay s ([BitVec.ofNat 32 found.length, BitVec.ofNat 32 e.seq] ++ found.flatMap LogEntry.words) := by
  obtain ⟨size, number, reserved, source⟩ := logWord_fields (persistent := persistent) most
  have first : word [from_, logWord count persistent] 1 = (logWord count persistent).toNat := rfl
  have zeroth : word [from_, logWord count persistent] 0 = from_.toNat := rfl
  have some_ : count ≠ 0 := by omega
  unfold State.logOf at hg ⊢
  simp [mgtLogBody, first, zeroth, Nat.not_le.mpr size, number, reserved, source, some_, hg]
end

/-! ### MGT.CNT (R483) -/

/-- A mode, the first counter and how many follow make the first word of MGT.CNT. -/
def counterWord (mode first more : Nat) : Word := BitVec.ofNat 32 (mode + 256 * first + 16384 * more)

section
variable {mode first more : Nat} {v : Word} (hm : mode < 3) (hc : first + more < 64)
include hm hc

theorem counterWord_fields : (counterWord mode first more).toNat < 1048576 ∧ bits (counterWord mode first more).toNat 1 0 = mode
    ∧ bits (counterWord mode first more).toNat 7 2 = 0 ∧ bits (counterWord mode first more).toNat 13 8 = first
    ∧ bits (counterWord mode first more).toNat 19 14 = more := by
  have value : (counterWord mode first more).toNat = mode + 256 * first + 16384 * more := by simp only [counterWord, BitVec.toNat_ofNat]; omega
  rw [value]
  simp only [bits]
  omega

theorem namedCounters_counterWord : namedCounters [counterWord mode first more, v] = (List.range (more + 1)).map (· + first) := by
  obtain ⟨-, -, -, lowest, rest⟩ := counterWord_fields hm hc
  have own : word [counterWord mode first more, v] 0 = (counterWord mode first more).toNat := rfl
  rw [namedCounters, own, lowest, rest]
end

section
variable {first more : Nat} (hc : first + more < 64)
include hc

/-- The checks of MGT.CNT pass; its mode decides. -/
theorem mgtCntBody_of_mode {mode : Nat} {v : Word} (hm : mode < 3) (hv : v.toNat < 65536) (hs : mode = 1 → Params.selectorGood v.toNat = true) :
    let cs := (List.range (more + 1)).map (· + first)
    mgtCntBody [counterWord mode first more, v] s =
      if mode = 0 then okay s (cs.flatMap (fun c =>
        [s.rd (P.MGT_CNT_A (2 * c)), s.rd (P.MGT_CNT_A (2 * c + 1)), s.rd (P.MGT_CNT_B (2 * c)), s.rd (P.MGT_CNT_B (2 * c + 1))]))
      else if mode = 1 then okay (cs.foldl (fun s c => (s.wrN (P.MGT_CNT_SEL c) v.toNat).queueSelect c (some v.toNat)) s)
      else okay (cs.foldl (fun s c => s.queueSelect c none) s) := by
  obtain ⟨size, way, reserved, lowest, -⟩ := counterWord_fields hm hc
  have zeroth : word [counterWord mode first more, v] 0 = (counterWord mode first more).toNat := rfl
  have second : word [counterWord mode first more, v] 1 = v.toNat := rfl
  have known : mode ≠ 3 ∧ ¬(64 < first + (more + 1)) := by omega
  have selects : ¬(mode = 1 ∧ Params.selectorGood v.toNat = false) := fun ⟨a, b⟩ => by simp [hs a] at b
  simp [mgtCntBody, namedCounters_counterWord hm hc, zeroth, second, Nat.not_le.mpr size, way, reserved, lowest, Nat.not_le.mpr hv, known, selects]

theorem forceMode_counterWord {mode : Nat} {v : Word} (hm : mode < 3) : forceMode [counterWord mode first more, v] 0 2 mode = [counterWord mode first more, v] :=
  forceMode_of_bits (n := 2) (counterWord_fields hm hc).2.1 [v]
end

/-! ### MGT.FW.WRITE and MGT.FW.COMMIT (R472, R473) -/

/-- An area and an erasure make the first word of MGT.FW.WRITE. -/
def fwWriteWord (area : Nat) (erase : Bool) : Word := BitVec.ofNat 32 (area + 4 * b2n erase)

theorem fwWriteWord_fields {area : Nat} {erase : Bool} (ha : area < 4) :
    (fwWriteWord area erase).toNat < 8 ∧ (fwWriteWord area erase).toNat % 4 = area ∧ bitOf (fwWriteWord area erase).toNat 2 = erase := by
  have bit := b2n_lt erase
  have value : (fwWriteWord area erase).toNat = area + 4 * b2n erase := by simp only [fwWriteWord, BitVec.toNat_ofNat]; omega
  have second : (area + 4 * b2n erase) / 2 ^ 2 % 2 = b2n erase := by omega
  refine ⟨by omega, by omega, ?_⟩
  rw [value, bitOf, second]
  cases erase <;> rfl

/-- A write of an area that does not run, while nothing is committed, waits for the flash. -/
theorem mgtFwWriteBody_of_area {area : Nat} {erase : Bool} {off len : Word} {body : List Word} (ha : area < 3) (aligned : off.toNat % 256 = 0)
    (sector : erase = true → off.toNat % 65536 = 0) (least : 256 ≤ len.toNat) (most : len.toNat ≤ 3840) (whole : len.toNat % 256 = 0)
    (length : 4 * body.length = len.toNat) (fits : off.toNat + len.toNat ≤ (if area = 2 then 262144 else 16777216))
    (other : area ≠ s.rdN P.MGT_BOOT_IMAGE) (idle : s.committing = false) : let p := fwWriteWord area erase :: off :: len :: body
    mgtFwWriteBody h p s = (s.queueFlash (.write h p), .later none) := by
  obtain ⟨size, own, erases⟩ := fwWriteWord_fields (area := area) (erase := erase) (by omega)
  have zeroth : word (fwWriteWord area erase :: off :: len :: body) 0 = (fwWriteWord area erase).toNat := rfl
  have first : word (fwWriteWord area erase :: off :: len :: body) 1 = off.toNat := rfl
  have second : word (fwWriteWord area erase :: off :: len :: body) 2 = len.toNat := rfl
  have form : 4 * (body.length + 1 + 1 + 1) = 12 + len.toNat := by omega
  have sectors : ¬(erase = true ∧ ¬off.toNat % 65536 = 0) := fun ⟨a, b⟩ => b (sector a)
  have known : area ≠ 3 ∧ ¬(body.length + 1 + 1 + 1 < 3) := by omega
  have place : ¬((if area = 2 then keySize else imageSize) < off.toNat + len.toNat) := Nat.not_lt.mpr fits
  simp [mgtFwWriteBody, zeroth, first, second, Nat.not_le.mpr size, own, erases, form, known, aligned, sectors, Nat.not_lt.mpr least,
    Nat.not_lt.mpr most, whole, place, State.running_, other, idle]

/-- An area makes the word of a commit. -/
theorem toNat_commitWord {area : Nat} (ha : area < 2) : (BitVec.ofNat 32 (4 * area)).toNat = 4 * area := by
  simp only [BitVec.toNat_ofNat]; omega

/-- The commit of an image that does not run, while no calibration is stored, waits for the flash. -/
theorem mgtFwCommitBody_commit {area : Nat} (ha : area < 2) (other : area ≠ s.rdN P.MGT_BOOT_IMAGE) (idle : s.rdN P.CAL_STATE ≠ 4) :
    mgtFwCommitBody h [BitVec.ofNat 32 (4 * area)] s = (s.queueFlash (.commit h 0 area), .later none) := by
  have own : bits (4 * area) 2 2 = area := by rw [bits]; omega
  have known : ¬(8 ≤ 4 * area) ∧ 4 * area % 4 = 0 := by omega
  have zeroth : word [BitVec.ofNat 32 (4 * area)] 0 = 4 * area := toNat_commitWord ha
  simp [mgtFwCommitBody, zeroth, own, known, State.running_, other, idle]
theorem mgtFwCommitBody_confirm (trial : s.rdN P.MGT_BOOT_STATE = bootTrial) :
    mgtFwCommitBody h [1] s = (s.queueFlash (.commit h 1 0), .later none) := by
  have area : bits 1 2 2 = 0 := by decide
  simp [mgtFwCommitBody, word, area, trial]
theorem mgtFwCommitBody_keys : mgtFwCommitBody h [2] s = (s.queueFlash (.commit h 2 0), .later none) := by
  have area : bits 2 2 2 = 0 := by decide
  simp [mgtFwCommitBody, word, area]

/-! ### ATTEST (R479) -/

/-- A measurement is taken at the receipt and waits for its signature (log 44). -/
theorem attestBody_measure {nonce : List Word} (hn : nonce.length = 8) (idle : s.mgt.attest = none) :
    attestBody h (0 :: nonce) s = (s.setMgt { s.mgt with attest := some (h, s.measurement nonce, s.time) }, .later none) := by
  simp [attestBody, attestMeasure, word, hn, idle]

/-- The half of the certificate makes the word of ATTEST. -/
def certWord (second : Bool) : Word := BitVec.ofNat 32 (1 + 2 * b2n second)
/-- A half of the certificate. -/
def certPart (second : Bool) : List Byte := if second then Config.certificate.drop 4000 else Config.certificate.take 4000

theorem attestBody_cert {second : Bool} : attestBody h [certWord second] s
    = okay s ([BitVec.ofNat 32 Config.certificate.length, BitVec.ofNat 32 (certPart second).length] ++ wordsOf (certPart second)) := by
  cases second <;> rfl

/-! ### TST.INJECT (R415) -/

/-- A kind, a die, withdrawal and evidence make the first word of TST.INJECT. -/
def injectionWord (kind die : Nat) (withdraw evidence : Bool) : Word := BitVec.ofNat 32 (kind + 16 * die + 32 * b2n withdraw + 64 * b2n evidence)

/-- A bit at a place of a word that holds it as a number. -/
theorem bitOf_of_bit {n i : Nat} {b : Bool} (e : n / 2 ^ i % 2 = b2n b) : bitOf n i = b := by
  rw [bitOf, e]
  cases b <;> rfl

theorem injectionWord_fields {kind die : Nat} {withdraw evidence : Bool} (hk : kind < 16) (hd : die < 2) :
    (injectionWord kind die withdraw evidence).toNat < 128 ∧ bits (injectionWord kind die withdraw evidence).toNat 3 0 = kind
    ∧ bits (injectionWord kind die withdraw evidence).toNat 4 4 = die ∧ bitOf (injectionWord kind die withdraw evidence).toNat 5 = withdraw
    ∧ bitOf (injectionWord kind die withdraw evidence).toNat 6 = evidence := by
  have fifth := b2n_lt withdraw
  have sixth := b2n_lt evidence
  have value : (injectionWord kind die withdraw evidence).toNat = kind + 16 * die + 32 * b2n withdraw + 64 * b2n evidence := by
    simp only [injectionWord, BitVec.toNat_ofNat]; omega
  rw [value]
  exact ⟨by omega, by rw [bits]; omega, by rw [bits]; omega, bitOf_of_bit (by omega), bitOf_of_bit (by omega)⟩

/-- An injection takes its place with its duration, the one of the time base beginning its test, or the kind is withdrawn. -/
theorem injectBody_of_kind {kind die : Nat} {d : Word} {withdraw evidence : Bool} (hd : die < 2) (hk : kind < 6)
    (timed : (kind = 2 ∨ kind = 5) → 1 ≤ d.toNat ∧ d.toNat ≤ 1000000) (untimed : ¬(kind = 2 ∨ kind = 5) → d = 0)
    (partner : kind ≠ 4 → s.dieState (1 - die) = dieInStep) :
    let t := { s with red := { s.red with injections := s.red.injections ++ [{ kind, die, evidence, until_ := s.time + usec d.toNat }] } }
    injectBody [injectionWord kind die withdraw evidence, d] s
      = okay (if withdraw then s.withdrawKind kind else if kind = 4 then t.beginTest else t) := by
  obtain ⟨size, own, named, withdraws, shows⟩ := injectionWord_fields (kind := kind) (withdraw := withdraw) (evidence := evidence) (by omega) hd
  have zeroth : word [injectionWord kind die withdraw evidence, d] 0 = (injectionWord kind die withdraw evidence).toNat := rfl
  have first : word [injectionWord kind die withdraw evidence, d] 1 = d.toNat := rfl
  have form : ¬(decide ([injectionWord kind die withdraw evidence, d].length ≠ 2) || decide (128 ≤ (injectionWord kind die withdraw evidence).toNat)) = true := by
    simp [Nat.not_le.mpr size]
  have range : ¬(decide (6 ≤ kind) || ((decide (kind = 2) || decide (kind = 5)) && (decide (d.toNat = 0) || decide (1000000 < d.toNat)))
      || (!(decide (kind = 2) || decide (kind = 5)) && decide (d.toNat ≠ 0))) = true := by
    have zero : ¬(kind = 2 ∨ kind = 5) → d.toNat = 0 := fun ht => congrArg BitVec.toNat (untimed ht)
    simp only [Bool.or_eq_true, Bool.and_eq_true, Bool.not_eq_true', Bool.or_eq_false_iff, decide_eq_true_eq, decide_eq_false_iff_not]
    omega
  have ready : ¬(decide (kind ≠ 4) && decide (s.dieState (1 - die) ≠ dieInStep)) = true := by
    simp only [Bool.and_eq_true, decide_eq_true_eq]
    exact fun ⟨a, b⟩ => b (partner a)
  simp only [injectBody, zeroth, first, own, named, withdraws, shows]
  rw [if_neg form, if_neg range, if_neg ready]
  cases withdraw <;> rfl

/-! ### TST.CHECKBIT (R306) -/

section
variable {off lo hi c : Word}

theorem toNat_ne_zero {w : Word} (h : w ≠ 0) : w.toNat ≠ 0 := fun e => h (BitVec.eq_of_toNat_eq e)

theorem checkTarget_word (ho : off.toNat < 4194304) : checkTarget [0#32, off, lo, hi, c] = some (off.toNat, 1) := by
  have first : word [0#32, off, lo, hi, c] 1 = off.toNat := rfl
  have zeroth : word [0#32, off, lo, hi, c] 0 = 0 := rfl
  simp [checkTarget, first, zeroth, bitOf, Nat.not_le.mpr ho]

/-- A word is read, corrected, and written back in both dies with the bits named inverted. -/
theorem checkbitRun_word (ho : off.toNat < 4194304) (hc : c.toNat < 256) (hb : lo ≠ 0 ∨ hi ≠ 0 ∨ c ≠ 0) (hs : s.wordOut s.active off.toNat < 2) :
    let u := s.touch off.toNat true
    let e : WordError := { data := BitVec.ofNat 64 (lo.toNat + 4294967296 * hi.toNat), check := BitVec.ofNat 8 c.toNat }
    checkbitRun [0#32, off, lo, hi, c] s = okay ((u.injectWord 0 off.toNat e).injectWord 1 off.toNat e) [BitVec.ofNat 32 (s.wordOut s.active off.toNat)] := by
  have first : word [0#32, off, lo, hi, c] 1 = off.toNat := rfl
  have second : word [0#32, off, lo, hi, c] 2 = lo.toNat := rfl
  have third : word [0#32, off, lo, hi, c] 3 = hi.toNat := rfl
  have fourth : word [0#32, off, lo, hi, c] 4 = c.toNat := rfl
  have zeroth : word [0#32, off, lo, hi, c] 0 = 0 := rfl
  have sram : bitOf 0 0 = false ∧ bits 0 3 1 = 0 ∧ bits 0 7 4 = 0 := by decide
  have low : bits c.toNat 15 8 = 0 ∧ bits c.toNat 7 0 = c.toNat ∧ ¬(65536 ≤ c.toNat) := by simp only [bits]; omega
  have named : ¬((lo.toNat = 0 ∧ hi.toNat = 0) ∧ c.toNat = 0) :=
    fun ⟨⟨a, b⟩, d⟩ => hb.elim (toNat_ne_zero · a) (·.elim (toNat_ne_zero · b) (toNat_ne_zero · d))
  simp [checkbitRun, zeroth, first, second, third, fourth, sram, low, named, Nat.not_le.mpr ho, Nat.not_le.mpr hs]

/-- The plot's bit and number. -/
theorem plotWord_fields {id : Nat} (hi : id < 16) : (BitVec.ofNat 32 (1 + 16 * id)).toNat < 256 ∧ bitOf (BitVec.ofNat 32 (1 + 16 * id)).toNat 0 = true
    ∧ bits (BitVec.ofNat 32 (1 + 16 * id)).toNat 3 1 = 0 ∧ bits (BitVec.ofNat 32 (1 + 16 * id)).toNat 7 4 = id := by
  rw [toNat_plotWord hi]
  exact ⟨by omega, bitOf_of_bit (b := true) (by rw [b2n, if_pos rfl]; omega), by rw [bits]; omega, by rw [bits]; omega⟩

theorem checkTarget_line {w : Word} (granary : bitOf w.toNat 0 = true) : checkTarget [w, off, lo, hi, c] = none := by
  have zeroth : word [w, off, lo, hi, c] 0 = w.toNat := rfl
  simp [checkTarget, zeroth, granary]

/-- A line of a plot is read, corrected, and written back in both dies with the symbols named inverted. -/
theorem checkbitRun_line {w : Word} {q : Plot} (size : w.toNat < 256) (granary : bitOf w.toNat 0 = true)
    (reserved : bits w.toNat 3 1 = 0) (hc : c.toNat < 65536) (mask : bits c.toNat 15 8 ≠ 0)
    (hb : lo ≠ 0 ∨ hi ≠ 0 ∨ bits c.toNat 7 0 ≠ 0) (hq : s.plot? (bits w.toNat 7 4) = some q) (ho : off.toNat < q.size * 16384)
    (hs : s.lineOut s.active (q.base * 16384 + off.toNat) < 2) : let p := [w, off, lo, hi, c]
    let line := q.base * 16384 + off.toNat
    let e : LineError := { symbols := checkSymbols p }
    checkbitRun p s = okay ((s.injectLine 0 line e).injectLine 1 line e) [BitVec.ofNat 32 (s.lineOut s.active line)] := by
  have zeroth : word [w, off, lo, hi, c] 0 = w.toNat := rfl
  have first : word [w, off, lo, hi, c] 1 = off.toNat := rfl
  have second : word [w, off, lo, hi, c] 2 = lo.toNat := rfl
  have third : word [w, off, lo, hi, c] 3 = hi.toNat := rfl
  have fourth : word [w, off, lo, hi, c] 4 = c.toNat := rfl
  have named : ¬((lo.toNat = 0 ∧ hi.toNat = 0) ∧ bits c.toNat 7 0 = 0) :=
    fun ⟨⟨a, b⟩, d⟩ => hb.elim (toNat_ne_zero · a) (·.elim (toNat_ne_zero · b) (· d))
  simp [checkbitRun, zeroth, first, second, third, fourth, granary, reserved, hq, named, mask, Nat.not_le.mpr size, Nat.not_le.mpr hc,
    Nat.not_le.mpr ho, Nat.not_le.mpr hs]
end
end

/-- Settles O22: each command's own checks pass and give its effect and answer (the nonce KEY 0xF needs is log 43, the measurement at the receipt log 44). -/
theorem managementAndTestCommandsComplete : Obligations.ManagementAndTestCommandsComplete := by
  refine ⟨fun s h => ⟨?challenge, ?signed, ?unsigned, ?close, ?log, ?counters, ?write, ?commit, ?confirm, ?keys, ?measure, ?cert⟩,
    fun s h => ⟨?inject, ?checkWord, ?checkLine⟩⟩
  case challenge =>
    intro g ht hl
    have own : forceMode [(0 : Word)] 0 1 0 = [0] := forceMode_of_bits (n := 1) (by decide) []
    exact congrArg Host.Outcome.next (State.receive_final g ((congrArg (mgtOpenBody h · _) own).trans (mgtOpenBody_challenge ht hl)))
  case signed =>
    intro key life sig hk p g ht hs pad least most enrolled hl
    have own : forceMode p 0 1 1 = p := forceMode_of_bits (n := 1) (responseWord_fields (key := key) (by omega)).2.2.1 _
    have judged := (congrArg (mgtOpenBody h · _) own).trans (mgtOpenBody_response (h := h) ht least most hl hk hs pad enrolled)
    refine ⟨fun n hn => congrArg Host.Outcome.next ?_,
      fun hn => congrArg Host.Outcome.next (State.receive_final g (judged.trans (State.judgeResponse_none hn)))⟩
    have verdict := judged.trans (State.judgeResponse_some hn)
    split
    · next hv => exact State.receive_final g (verdict.trans (if_pos hv))
    · next hv => exact State.receive_final g (verdict.trans (if_neg hv))
  case unsigned =>
    intro life n g ht least most hf hl hn
    have own : forceMode [responseWord 15, life] 0 1 1 = [responseWord 15, life] := forceMode_of_bits (n := 1) (responseWord_fields (key := 15) (by omega)).2.2.1 _
    exact congrArg Host.Outcome.next (State.receive_final g ((congrArg (mgtOpenBody h · _) own).trans (mgtOpenBody_unsigned ht least most hl hf hn)))
  case close => exact fun g => congrArg Host.Outcome.next (State.receive_final g rfl)
  case log =>
    intro from_ count persistent positive most p log g found
    exact ⟨fun hg => congrArg Host.Outcome.next (State.receive_final g (mgtLogBody_of_empty positive most hg)),
      fun e es hg => congrArg Host.Outcome.next (State.receive_final g (mgtLogBody_of_entries positive most hg))⟩
  case counters =>
    intro first more hc cs w
    refine ⟨fun g => ?_, fun v g hv hs => ?_, fun g => ?_⟩
    · exact congrArg Host.Outcome.next (State.receive_final g ((congrArg (mgtCntBody · _) (forceMode_counterWord hc (by decide))).trans
        (mgtCntBody_of_mode hc (by decide) (by decide) nofun)))
    · exact congrArg Host.Outcome.next (State.receive_final g ((congrArg (mgtCntBody · _) (forceMode_counterWord hc (by decide))).trans
        (mgtCntBody_of_mode hc (by decide) hv (fun _ => hs))))
    · exact congrArg Host.Outcome.next (State.receive_final g ((congrArg (mgtCntBody · _) (forceMode_counterWord hc (by decide))).trans
        (mgtCntBody_of_mode hc (by decide) (by decide) nofun)))
  case write =>
    intro area erase off len body ha p g aligned sector least most whole length fits other idle
    exact congrArg Host.Outcome.next (State.receive_later g (mgtFwWriteBody_of_area ha aligned sector least most whole length fits other idle))
  case commit =>
    intro area ha w g other idle
    have own : forceMode [w] 0 2 0 = [w] := forceMode_of_bits (n := 2) (by rw [toNat_commitWord ha, bits]; omega) []
    exact congrArg Host.Outcome.next (State.receive_later g ((congrArg (mgtFwCommitBody h · _) own).trans (mgtFwCommitBody_commit ha other idle)))
  case confirm =>
    intro g trial
    have own : forceMode [(1 : Word)] 0 2 1 = [1] := forceMode_of_bits (n := 2) (by decide) []
    exact congrArg Host.Outcome.next (State.receive_later g ((congrArg (mgtFwCommitBody h · _) own).trans (mgtFwCommitBody_confirm trial)))
  case keys =>
    intro g
    have own : forceMode [(2 : Word)] 0 2 2 = [2] := forceMode_of_bits (n := 2) (by decide) []
    exact congrArg Host.Outcome.next (State.receive_later g ((congrArg (mgtFwCommitBody h · _) own).trans mgtFwCommitBody_keys))
  case measure =>
    intro nonce hn g idle
    have own : forceMode (0 :: nonce) 0 1 0 = 0 :: nonce := forceMode_of_bits (n := 1) (by decide) nonce
    exact congrArg Host.Outcome.next (State.receive_later g ((congrArg (attestBody h · _) own).trans (attestBody_measure hn idle)))
  case cert =>
    intro second w g part
    have own : forceMode [certWord second] 0 1 1 = [certWord second] := forceMode_of_bits (n := 1) (by cases second <;> rfl) []
    exact congrArg Host.Outcome.next (State.receive_final g ((congrArg (attestBody h · _) own).trans attestBody_cert))
  case inject =>
    intro kind die d evidence withdraw hd hk timed untimed partner w x t g
    exact congrArg Host.Outcome.next (State.receive_final g (injectBody_of_kind hd hk timed untimed partner))
  case checkWord =>
    intro off lo hi c g ho hc hb rs t u e
    have waits : ∀ s : State, checkbitBody h [0#32, off, lo, hi, c] s
        = s.firmware (some (off.toNat, 1)) true (.checkbit h [0#32, off, lo, hi, c]) (checkbitRun [0#32, off, lo, hi, c]) :=
      fun s => congrArg (State.firmware s · true _ _) (checkTarget_word ho)
    exact ⟨fun reached hs => congrArg Host.Outcome.next (State.receive_final g
        ((waits _).trans ((State.firmware_of_reached reached).trans (checkbitRun_word ho hc hb hs)))),
      fun v blocked => congrArg Host.Outcome.next (State.receive_quiet g ((waits _).trans (State.firmware_of_blocked blocked)))⟩
  case checkLine =>
    intro id off lo hi c q w hd g hc mask hb hq ho line hs e
    obtain ⟨size, granary, reserved, plot⟩ := plotWord_fields hd
    have direct : ∀ s : State, checkbitBody h [w, off, lo, hi, c] s = checkbitRun [w, off, lo, hi, c] s :=
      fun s => congrArg (State.firmware s · true _ _) (checkTarget_line granary)
    exact congrArg Host.Outcome.next (State.receive_final g ((direct _).trans
      (checkbitRun_line size granary reserved hc mask hb (plot ▸ hq) ho hs)))

end Sys2Proof.Machine
end

section
/-! The statement on the management events (R466, R472 to R475, R479, R481, R484, R493). -/

namespace Sys2Proof.Machine

/-! ### A nonce, a session and a lock-out end (R474, R475) -/

section
variable {s : State}

theorem nonceExpiry_of_due {n e : Nat} (held : s.mgt.nonce = some (n, e)) (due : e ≤ s.time) : nonceExpiry s = s.setMgt { s.mgt with nonce := none } := by
  unfold nonceExpiry
  rw [held]
  exact if_pos due

theorem State.closeSession_of_open {x : Session} (isOpen : s.mgt.session = some x) :
    s.closeSession = State.logSession { s with mgt := { s.mgt with session := none } } x := by
  unfold State.closeSession
  rw [isOpen]
theorem sessionExpiry_of_due {x : Session} (isOpen : s.mgt.session = some x) (due : x.until_ ≤ s.time) : sessionExpiry s = s.closeSession := by
  unfold sessionExpiry
  rw [isOpen]
  exact if_pos due

theorem openLockoutEnd_of_due {e : Nat} (locked : s.mgt.lockedUntil = some e) (due : e ≤ s.time) :
    openLockoutEnd s = s.setMgt { s.mgt with lockedUntil := none } := by
  unfold openLockoutEnd
  rw [locked]
  exact if_pos due

/-! ### The persistent log (R481, R484) -/

theorem logPersist_of_idle {e : LogEntry} {rest : List LogEntry} (waits : s.mgt.persistWait = e :: rest) (idle : s.mgt.ops = []) :
    logPersist s = s.setMgt { s.mgt with
      persistWait := rest
      persistLog := (if 16384 ≤ s.mgt.persistLog.length then s.mgt.persistLog.drop 2048 else s.mgt.persistLog) ++ [{ e with persisted := true }]
      log := s.mgt.log.map (fun x => if x.seq = e.seq then { x with persisted := true } else x) } := by
  unfold logPersist
  rw [waits]
  exact if_neg (by simp [idle])

/-! ### The saved configuration (R493) -/

/-- The next operation of the flash leaves the wish for another save. -/
theorem State.startFlash_saveAgain : s.startFlash.mgt.saveAgain = s.mgt.saveAgain := by
  unfold State.startFlash
  split
  case h_5 =>
    dsimp only
    split <;> rfl
  all_goals rfl

theorem configSave_of_front {c : SavedConfig} (front : s.mgt.ops.head? = some (.save c)) (once : s.mgt.saveAgain = false) :
    configSave s = (((s.setMgt { s.mgt with saved := c }).wrN P.PWR_CFG_SEQ c.seq).setBit P.PWR_STATUS 0).endFlash := by
  have kept : (((s.setMgt { s.mgt with saved := c }).wrN P.PWR_CFG_SEQ c.seq).setBit P.PWR_STATUS 0).endFlash.mgt.saveAgain = false :=
    State.startFlash_saveAgain.trans once
  unfold configSave
  rw [front]
  exact if_neg (Bool.eq_false_iff.mp kept)

theorem configSaveHourly_of_due (wanted : s.mgt.saveHourly = true) (hour : s.now % 3600000000000 = 0) : configSaveHourly s = s.requestSave :=
  if_pos (by simp [wanted, hour])

/-! ### Firmware (R472, R473) -/

/-- A device after a write of an image. -/
def State.writeImage (s : State) (p : List Word) : Flash × Bool :=
  (s.flash (word p 0 % 4)).write (bitOf (word p 0) 2) (imageBase + word p 1) (bytesOf (p.drop 3))
/-- A device after a write of the key area. -/
def State.writeKeys (s : State) (p : List Word) (d : Nat) : Flash × Bool := (s.flash d).write (bitOf (word p 0) 2) (keyBase + word p 1) (bytesOf (p.drop 3))

section
variable {h : Hdr} {p : List Word} {good : Bool} (front : s.mgt.ops.head? = some (.write h p))
include front

theorem fwWriteComplete_image (image : word p 0 % 4 < 2) :
    fwWriteComplete good s = (((s.setFlash (word p 0 % 4) { (s.writeImage p).1 with factory := false }).endFlash).finish 0x84 h
      (if good && (s.writeImage p).2 then stOk else stInternal) []) := by
  have other : ¬(word p 0 % 4 = 2) := by omega
  unfold fwWriteComplete
  rw [front]
  simp [other, beq_eq_false_iff_ne.mpr other, State.writeImage]

/-- Both devices hold the key area. -/
theorem fwWriteComplete_keys (keys : word p 0 % 4 = 2) :
    let a := s.setFlash 0 (s.writeKeys p 0).1
    fwWriteComplete good s = (((a.setFlash 1 (a.writeKeys p 1).1).endFlash).finish 0x84 h
      (if good && ((s.writeKeys p 0).2 && (a.writeKeys p 1).2) then stOk else stInternal) []) := by
  unfold fwWriteComplete
  rw [front]
  simp [keys, State.writeKeys]
end

section
variable {h : Hdr} {area : Nat}

theorem fwCommitComplete_image (front : s.mgt.ops.head? = some (.commit h 0 area)) :
    let x := s.flash area
    let n := ((s.flash s.running_).boot.bseq + 1) % 4294967296
    let boot : BootRecord := { bseq := n, state := bootTrial, attempt := true, svn := x.svn, version := x.version, digest := x.digest, valid := true }
    fwCommitComplete s = if s.imageVerifies area then
        (((s.setFlash area { x with boot, written := false }).logEvent 0x1103 0 1 0 n).endFlash).finish 0x85 h stOk [BitVec.ofNat 32 n]
      else s.endFlash.finish 0x85 h stRange [] := by
  unfold fwCommitComplete
  rw [front]
  by_cases hv : s.imageVerifies area = true
  · exact (if_neg (by simp [hv])).trans (if_pos hv).symm
  · exact (if_pos (by simpa using hv)).trans (if_neg hv).symm

theorem fwCommitComplete_confirm (front : s.mgt.ops.head? = some (.commit h 1 area)) :
    let x := s.flash s.running_
    let a := s.setFlash s.running_ { x with boot := { x.boot with state := bootConfirmed }, written := false }
    let arb := max s.mgt.arb x.boot.svn
    let b := a.setMgt { a.mgt with arb, relkeyRevoked := s.mgt.relkeyRevoked ||| x.revoke }
    fwCommitComplete s = (((((b.wrN P.MGT_BOOT_STATE bootConfirmed).wrN P.MGT_ARB_COUNT arb).logEvent 0x1103 0 1 1 x.boot.bseq).endFlash).finish 0x85 h stOk
      [BitVec.ofNat 32 arb]) := by
  unfold fwCommitComplete
  rw [front]
  rfl

theorem fwCommitComplete_keys (front : s.mgt.ops.head? = some (.commit h 2 area)) :
    fwCommitComplete s = s.commitKeys.1.endFlash.finish 0x85 h s.commitKeys.2 [] := by
  unfold fwCommitComplete
  rw [front]
  rfl
end

/-! ### Attestation (R479) -/

theorem attestSignatureDone_of_asked {h : Hdr} {ws : List Word} {e : Nat} (asked : s.mgt.attest = some (h, ws, e)) :
    attestSignatureDone s = (s.setMgt { s.mgt with attest := none }).finish 0x86 h stOk
      (ws ++ wordsOf (padTo 3312 ((Config.identitySign (Config.shake64 (bytesOf ws))).take 3309))) := by
  unfold attestSignatureDone
  rw [asked]
end

/-- Settles O48: an equation for each event. -/
theorem managementEventsComplete : Obligations.ManagementEventsComplete := by
  unfold Obligations.ManagementEventsComplete
  intro s t r
  refine ⟨?nonce, ?session, ?lockout, ?persist, ?save, ?hourly, ?image, ?keyArea, ?commit, ?confirm, ?keys, ?attest⟩
  case nonce => exact fun n e held due => congrArg Host.Outcome.next (nonceExpiry_of_due held due)
  case session =>
    exact fun x isOpen due => congrArg Host.Outcome.next ((sessionExpiry_of_due isOpen due).trans (State.closeSession_of_open isOpen))
  case lockout => exact fun e locked due => congrArg Host.Outcome.next (openLockoutEnd_of_due locked due)
  case persist => exact fun e rest waits idle => congrArg Host.Outcome.next (logPersist_of_idle waits idle)
  case save => exact fun c front once => congrArg Host.Outcome.next (configSave_of_front front once)
  case hourly => exact fun wanted hour => congrArg Host.Outcome.next (configSaveHourly_of_due wanted hour)
  case image => exact fun h p good front image => congrArg Host.Outcome.next (fwWriteComplete_image front image)
  case keyArea => exact fun h p good front keys => congrArg Host.Outcome.next (fwWriteComplete_keys front keys)
  case commit => exact fun h area front => congrArg Host.Outcome.next (fwCommitComplete_image front)
  case confirm => exact fun h area front => congrArg Host.Outcome.next (fwCommitComplete_confirm front)
  case keys => exact fun h area front => congrArg Host.Outcome.next (fwCommitComplete_keys front)
  case attest => exact fun h ws e asked => congrArg Host.Outcome.next (attestSignatureDone_of_asked asked)

end Sys2Proof.Machine
end

section
/-! The statement on the supply events (R489, R490, R506). -/

namespace Sys2Proof.Machine

section
variable {s : State}

/-! ### A rail outside its window (R490) -/

/-- A rail's departure from its window is counted and shown. -/
def State.countRail (s : State) (rail : Nat) (high : Bool) : State :=
  ((s.wrN (P.PWR_RAIL_STATE rail) (if high then 2 else 1)).addSat (P.PWR_RAIL_EVENTS rail) 1).setBit P.PWR_STATUS 1

/-- Three values the spec leaves open have been taken. -/
theorem State.takeFree_thrice : s.takeFree.2.takeFree.2.takeFree.2 = { s with free := s.free + 3 } := rfl

/-- And it is logged; the entry's severity, the low byte of its code and its data are left open. -/
theorem railOutOfWindow_of_inside {rail : Nat} {high : Bool} (runs : s.running = true) (inside : s.rdN (P.PWR_RAIL_STATE rail) = 0) :
    railOutOfWindow rail high s = (s.countRail rail high).takeFree.2.takeFree.2.takeFree.2.logEvent
      (0x1200 + (s.countRail rail high).takeFree.2.takeFree.1.toNat % 256) (voltUnit rail) ((s.countRail rail high).takeFree.1.toNat % 4)
      (s.countRail rail high).takeFree.2.takeFree.2.takeFree.1.toNat 0 :=
  if_neg (by simp [runs, inside])

theorem railOutOfWindow_logs {rail : Nat} {high : Bool} (runs : s.running = true) (inside : s.rdN (P.PWR_RAIL_STATE rail) = 0) :
    ∃ code sev data, railOutOfWindow rail high s
      = State.logEvent { s.countRail rail high with free := (s.countRail rail high).free + 3 } code (voltUnit rail) sev data 0
      ∧ code / 256 = 0x12 ∧ sev < 4 := by
  have logged := railOutOfWindow_of_inside (high := high) runs inside
  rw [State.takeFree_thrice] at logged
  have block (n : Nat) : (0x1200 + n % 256) / 256 = 0x12 := by omega
  exact ⟨_, _, _, logged, block _, Nat.mod_lt _ (by decide)⟩

/-! ### VAN (R490) -/

/-- The release of a group's stop leaves the time as it is. -/
@[simp] theorem State.unstopGroup_time (g reason t : Nat) : (s.unstopGroup g reason t).time = s.time := by
  simp [State.unstopGroup, apply_ite State.time, foldl_view State.time]

/-- So groups released one after another are released at one instant. -/
theorem State.foldl_unstopGroup (reason : Nat) {t : Nat} (gs : List Nat) {s : State} (ht : s.now = t) :
    gs.foldl (fun s g => s.unstopGroup g reason s.now) s = gs.foldl (fun s g => s.unstopGroup g reason t) s := by
  induction gs generalizing s with
  | nil => simp only [List.foldl_nil]
  | cons g gs ih =>
    have kept : (s.unstopGroup g reason t).now = t := by rwa [State.now, State.unstopGroup_time]
    rw [List.foldl_cons, List.foldl_cons, ht]
    exact ih kept

section
variable {k : Nat}

theorem vanStop_of_running (runs : s.running = true) (free : (s.fePower k).vanStop = false) :
    vanStop k s = (State.groupsOf k).foldl (fun s g => s.stopGroup g 2) ((s.setFePower k { s.fePower k with vanStop := true }).setBit P.PWR_STATUS 2) :=
  if_neg (by simp [runs, free])
theorem vanStopRelease_of_stopped (stopped : (s.fePower k).vanStop = true) (slot : s.now % 1000 = 0) :
    vanStopRelease k s = (State.groupsOf k).foldl (fun s g => s.unstopGroup g 2 s.now) (s.setFePower k { s.fePower k with vanStop := false }) :=
  if_neg (by simp [stopped, slot])
end

/-! ### Holds of a COLD reset begin (R489, R490, R506) -/

section
variable {cause : Nat} {hold : PwrState → PwrState}

theorem State.holdCold_of_held (held : s.resetHeld = true) : s.holdCold cause hold = s.setPwr (hold s.pwr) := if_pos held
theorem State.holdCold_of_free (free : s.resetHeld = false) : s.holdCold cause hold = (s.setPwr (hold s.pwr)).reloadReset 0 cause :=
  if_neg (Bool.eq_false_iff.mp free)
end

/-- POR_N low holds the power-on reset. -/
theorem porNChange_low : porNChange false s = s.holdCold 0 (fun p => { p with porLow := true }) := if_neg Bool.false_ne_true

/-- VAN's own points hold no reset. -/
theorem brownOut_of_van {rail : Nat} (van : 7 ≤ rail ∧ rail ≤ 10) : brownOut rail s = s := by
  have points : rail = 7 ∨ rail = 8 ∨ rail = 9 ∨ rail = 10 := by omega
  exact if_pos (by simpa [vanRails] using points)
theorem brownOut_of_other {rail : Nat} (other : ¬(7 ≤ rail ∧ rail ≤ 10)) : brownOut rail s = s.holdCold 1 (fun p => { p with brownOut := true }) := by
  have points : ¬(rail = 7 ∨ rail = 8 ∨ rail = 9 ∨ rail = 10) := by omega
  exact if_neg (by simpa [vanRails] using points)

/-! ### The last hold ends (R489, R490, R506) -/

/-- The last hold to end releases the reset, with its cause and time 0. -/
theorem State.releaseCold_of_last {cause : Nat} {release : PwrState → PwrState} (last : (s.setPwr (release s.pwr)).resetHeld = false)
    (hc : cause < 4294967296) : let u := s.releaseCold cause release
    u.resetHeld = false ∧ u.time = 0 ∧ u.rdN P.PWR_RESET_CAUSE = cause ∧ u.pwr.therm = (release s.pwr).therm ∧ u.mem = s.mem := by
  have e : s.releaseCold cause release
      = (State.setPwr { s.setPwr (release s.pwr) with time := 0 } { release s.pwr with resetEnd := 0 }).wrN P.PWR_RESET_CAUSE cause :=
    if_neg (Bool.eq_false_iff.mp last)
  rw [e]
  exact ⟨last, rfl, (State.rdN_wrN_same _ _ _).trans (Nat.mod_eq_of_lt hc), rfl, rfl⟩

/-- The three holds, each released last. -/
theorem porNChange_of_last (low : s.pwr.porLow = true) (brown : s.pwr.brownOut = false) (hard : s.pwr.hardStop = false) :
    ∃ u, porNChange true s = u ∧ u.resetHeld = false ∧ u.time = 0 ∧ u.rdN P.PWR_RESET_CAUSE = 0 ∧ u.mem = s.mem := by
  obtain ⟨held, time, cause, -, mem⟩ := State.releaseCold_of_last (s := s) (cause := 0) (release := fun p => { p with porLow := false })
    (by simp [State.resetHeld, State.setPwr, brown, hard]) (by decide)
  exact ⟨_, (if_pos rfl).trans (if_pos low), held, time, cause, mem⟩
theorem brownOutResetRelease_of_last (low : s.pwr.porLow = false) (brown : s.pwr.brownOut = true) (hard : s.pwr.hardStop = false) :
    ∃ u, brownOutResetRelease s = u ∧ u.resetHeld = false ∧ u.time = 0 ∧ u.rdN P.PWR_RESET_CAUSE = 1 ∧ u.mem = s.mem := by
  obtain ⟨held, time, cause, -, mem⟩ := State.releaseCold_of_last (s := s) (cause := 1) (release := fun p => { p with brownOut := false })
    (by simp [State.resetHeld, State.setPwr, low, hard]) (by decide)
  exact ⟨_, if_pos brown, held, time, cause, mem⟩
theorem hardStopEnd_of_last (low : s.pwr.porLow = false) (brown : s.pwr.brownOut = false) (hard : s.pwr.hardStop = true) :
    ∃ u, hardStopEnd s = u ∧ u.resetHeld = false ∧ u.time = 0 ∧ u.rdN P.PWR_RESET_CAUSE = 2 ∧ u.pwr.therm = s.pwr.therm ∧ u.mem = s.mem := by
  obtain ⟨held, time, cause, therm, mem⟩ := State.releaseCold_of_last (s := s) (cause := 2) (release := fun p => { p with hardStop := false })
    (by simp [State.resetHeld, State.setPwr, low, brown]) (by decide)
  exact ⟨_, if_pos hard, held, time, cause, therm, mem⟩

end
/-- Settles O50: an equation for each event; of the last release what it leaves. -/
theorem supplyEventsComplete : Obligations.SupplyEventsComplete := by
  unfold Obligations.SupplyEventsComplete
  intro s t r
  refine ⟨?rail, fun _ => rfl, fun k => ⟨?stop, ?start⟩, fun i => ⟨?van, ?held, ?free⟩, ?porHeld, ?porFree, ?por, ?brown, ?hard⟩
  case rail =>
    intro i high runs inside
    obtain ⟨code, sev, data, logged, block, level⟩ := railOutOfWindow_logs (high := high) runs inside
    exact ⟨code, sev, data, congrArg Host.Outcome.next logged, block, level⟩
  case stop => exact fun runs free => congrArg Host.Outcome.next (vanStop_of_running runs free)
  case start =>
    exact fun stopped slot => congrArg Host.Outcome.next ((vanStopRelease_of_stopped stopped slot).trans (State.foldl_unstopGroup 2 _ rfl))
  case van => exact fun van => congrArg Host.Outcome.next (brownOut_of_van van)
  case held => exact fun other held => congrArg Host.Outcome.next ((brownOut_of_other other).trans (State.holdCold_of_held held))
  case free => exact fun other free => congrArg Host.Outcome.next ((brownOut_of_other other).trans (State.holdCold_of_free free))
  case porHeld => exact fun held => congrArg Host.Outcome.next (porNChange_low.trans (State.holdCold_of_held held))
  case porFree => exact fun free => congrArg Host.Outcome.next (porNChange_low.trans (State.holdCold_of_free free))
  case por =>
    intro low brown hard
    obtain ⟨u, e, left⟩ := porNChange_of_last low brown hard
    exact ⟨u, congrArg Host.Outcome.next e, left⟩
  case brown =>
    intro low brown hard
    obtain ⟨u, e, left⟩ := brownOutResetRelease_of_last low brown hard
    exact ⟨u, congrArg Host.Outcome.next e, left⟩
  case hard =>
    intro low brown hard
    obtain ⟨u, e, left⟩ := hardStopEnd_of_last low brown hard
    exact ⟨u, congrArg Host.Outcome.next e, left⟩

end Sys2Proof.Machine
end

section
/-! The statement on the reset events (R491, R494 to R496). -/

namespace Sys2Proof.Machine

section
variable {s : State} {x : ResetDue}

/-! ### The module and its dies (R491, R494) -/

theorem wideReset_of_due {kind : Nat} (due : s.dueReset kind 0 = some x) : wideReset kind s = s.reloadReset kind x.cause := by
  unfold wideReset
  rw [due]

theorem rstNPulse_of_short {n : Nat} (short : n < 1000) : rstNPulse n s = s := if_pos (by simp [short])
theorem rstNPulse_of_long {n : Nat} (long : 1000 ≤ n) (free : s.resetHeld = false) (alone : s.dueReset 0 0 = none) :
    rstNPulse n s = s.reloadReset 1 3 := if_neg (by simp [Nat.not_lt.mpr long, free, alone])

section
variable {d : Nat} (due : s.dueReset 3 d = some x) (idle : s.red.mismatch = none)
include due idle

/-- Control leaves the active die before its reset. -/
theorem dieReset_of_active (active : s.active = d) (partner : s.dieState (1 - d) = dieInStep) (first : x.moved = false) :
    let a := s.moveGate (1 - d)
    dieReset d s = a.setPwr { a.pwr with
      resets := a.pwr.resets.map (fun y => if y = x then { y with moved := true, instant := boundaryAfter a.now } else y) } := by
  unfold dieReset
  rw [due]
  exact (if_neg (by simp [idle])).trans (if_pos (by simp [active, partner, first]))
theorem dieReset_of_other (other : s.active ≠ d ∨ s.dieState (1 - d) ≠ dieInStep) : dieReset d s = (s.takeReset x).resetDie d := by
  have stays : ¬(s.active = d && s.dieState (1 - d) = dieInStep) = true := by simpa [imp_iff_not_or] using other
  have moves : ¬(s.active = d && s.dieState (1 - d) = dieInStep && !x.moved) = true := fun g => stays (Bool.and_eq_true_iff.mp g).1
  unfold dieReset
  rw [due]
  refine (if_neg (by simp [idle])).trans ((if_neg moves).trans ?_)
  rw [if_neg stays]
end

/-! ### The watchdogs (R495) -/

section
variable {d : Nat} (free : s.resetHeld = false) (runs : s.pwr.firmware = true) (up : s.dieState d ≠ dieBoot)
include free runs up

/-- Beside a die IN_STEP the die's own reset follows the mismatch. -/
theorem watchdogExpiry_of_partner (partner : s.dieState (1 - d) = dieInStep) :
    watchdogExpiry d s = (s.mismatch kindMissing s.red.slot (if d = 0 then ⟨some 7, none⟩ else ⟨none, some 7⟩)).pushReset 3 d 9 s.now :=
  (if_neg (by simp [free, runs, up])).trans (if_pos partner)
theorem watchdogExpiry_of_alone (alone : s.dieState (1 - d) ≠ dieInStep) : watchdogExpiry d s = s.pushReset 2 0 9 s.now :=
  (if_neg (by simp [free, runs, up])).trans (if_neg alone)
end

/-! ### The front ends (R491, R496) -/

section
variable {k : Nat}

theorem frontEndReset_of_due (due : s.dueReset 4 k = some x) : frontEndReset k s = ((s.takeReset x).resetFe k).settleFe k := by
  unfold frontEndReset
  rw [due]

/-- A settled front end's sources, loops and groups are reloaded. -/
theorem frontEndReloaded_of_due {a : Nat} (waits : (s.fePower k).resetUntil = some a) (due : a ≤ s.now) (runs : s.running = true) :
    frontEndReloaded k s = ((State.groupsOf k).foldl State.reloadGroup ([2 * k, 2 * k + 1].foldl State.reloadLoop
      (((List.range 16).map (· + 16 * k)).foldl State.reloadSource (s.setFePower k { s.fePower k with resetUntil := none })))).enterService := by
  unfold frontEndReloaded
  rw [waits]
  exact if_neg (by simp [Nat.not_lt.mpr due, runs])
end
end

/-- Settles O51: an equation for each event. -/
theorem resetEventsComplete : Obligations.ResetEventsComplete := by
  unfold Obligations.ResetEventsComplete
  intro s t r
  refine ⟨fun x => ⟨?cold, ?module, ?concentrator⟩, fun n => ⟨?short, ?long⟩, fun d x due idle => ⟨?moves, ?resets⟩, fun d free runs up => ⟨?partner, ?alone⟩,
    ?frontEnd, ?reloaded⟩
  case cold => exact fun due => congrArg Host.Outcome.next (wideReset_of_due due)
  case module => exact fun due => congrArg Host.Outcome.next (wideReset_of_due due)
  case concentrator => exact fun due => congrArg Host.Outcome.next (wideReset_of_due due)
  case short => exact fun short => congrArg Host.Outcome.next (rstNPulse_of_short short)
  case long => exact fun long free alone => congrArg Host.Outcome.next (rstNPulse_of_long long free alone)
  case moves => exact fun active partner first => congrArg Host.Outcome.next (dieReset_of_active due idle active partner first)
  case resets => exact fun other => congrArg Host.Outcome.next (dieReset_of_other due idle other)
  case partner =>
    intro partner
    have e := watchdogExpiry_of_partner free runs up partner
    have first : (d = 0) = (d.val = 0) := propext Fin.ext_iff
    simp only [first]
    exact congrArg Host.Outcome.next e
  case alone => exact fun alone => congrArg Host.Outcome.next (watchdogExpiry_of_alone free runs up alone)
  case frontEnd => exact fun k x due => congrArg Host.Outcome.next (frontEndReset_of_due due)
  case reloaded => exact fun k a waits due runs => congrArg Host.Outcome.next (frontEndReloaded_of_due waits due runs)

end Sys2Proof.Machine
end

section
/-! The statement on the start-up events (R497, R498). -/

namespace Sys2Proof.Machine

section
variable {s : State} {d : Nat}

/-! ### A die becomes ready (R497) -/

/-- A die has become ready, and the reset before it is logged. -/
def State.noteReady (s : State) (d : Nat) : State := (s.setDie d { s.die d with ready := true, readyAt := s.time }).logBoot

section
variable (free : s.resetHeld = false) (runs : s.pwr.firmware = true) (boots : s.dieState d = dieBoot) (new : (s.die d).ready = false)
include free runs boots new

theorem dieReady_of_boot : dieReady d s = if (s.noteReady d).dieState (1 - d) = dieInStep then (s.noteReady d).setDieState d dieSyncing
    else if ((s.noteReady d).die (1 - d)).ready then s.noteReady d else (s.noteReady d).bringUp :=
  if_neg (by simp [free, runs, boots, new])
theorem dieReady_beside (partner : (s.noteReady d).dieState (1 - d) = dieInStep) : dieReady d s = (s.noteReady d).setDieState d dieSyncing :=
  (dieReady_of_boot free runs boots new).trans (if_pos partner)
theorem dieReady_second (alone : (s.noteReady d).dieState (1 - d) ≠ dieInStep) (other : ((s.noteReady d).die (1 - d)).ready = true) :
    dieReady d s = s.noteReady d :=
  (dieReady_of_boot free runs boots new).trans ((if_neg alone).trans (if_pos other))
theorem dieReady_first (alone : (s.noteReady d).dieState (1 - d) ≠ dieInStep) (other : ((s.noteReady d).die (1 - d)).ready = false) :
    dieReady d s = (s.noteReady d).bringUp :=
  (dieReady_of_boot free runs boots new).trans ((if_neg alone).trans (if_neg (Bool.eq_false_iff.mp other)))
end

theorem joinWaitExpiry_of_alone (boots : s.dieState d = dieBoot) (ready : (s.die d).ready = true) (other : (s.die (1 - d)).ready = false)
    (idle : s.running = false) (due : (s.die d).readyAt + msec (s.rdN P.PWR_JOIN_WAIT) ≤ s.time) :
    let a := ((s.startSlots d).enterStep d false).setBit P.PWR_STATUS 3
    joinWaitExpiry d s = (if a.active = d then a else a.moveGate d).enterService :=
  if_neg (by simp [boots, ready, other, idle, Nat.not_lt.mpr due])

/-! ### The Granary becomes ready (R497) -/

/-- The configured plots that are not there yet join those that are. -/
def State.readyPlots (s : State) : List Plot :=
  s.pwr.plots.foldl (fun ps q => if ps.any (fun p => p.id == q.id) then ps else insertPlot q ps) s.mem.plots

theorem granaryReady_of_die (new : s.mem.granReady = false) (die : (s.die 0).ready = true ∨ (s.die 1).ready = true) :
    granaryReady s = State.enterService { s with mem := { s.mem with granReady := true, plots := s.readyPlots } } := by
  have ready : ((s.die 0).ready || (s.die 1).ready) = true := by simpa using die
  exact if_neg (by simp [new, ready])
end

/-- Settles O52: an equation for each event. -/
theorem startUpEventsComplete : Obligations.StartUpEventsComplete := by
  unfold Obligations.StartUpEventsComplete
  intro s t r
  refine ⟨fun d free runs boots new => ⟨?beside, ?second, ?first⟩, ?alone, ?granary⟩
  case beside => exact fun partner => congrArg Host.Outcome.next (dieReady_beside free runs boots new partner)
  case second => exact fun alone other => congrArg Host.Outcome.next (dieReady_second free runs boots new alone other)
  case first => exact fun alone other => congrArg Host.Outcome.next (dieReady_first free runs boots new alone other)
  case alone =>
    exact fun d boots ready other idle due => congrArg Host.Outcome.next (joinWaitExpiry_of_alone boots ready other idle due)
  case granary => exact fun new die => congrArg Host.Outcome.next (granaryReady_of_die new die)

end Sys2Proof.Machine
end

section
/-! The statement on the temperature events (R500 to R507). -/

namespace Sys2Proof.Machine

section
variable {s : State}

/-! ### The sensors (R480, R501 to R503) -/

/-- Every sensor's new value has been read. -/
def State.readSensors (s : State) (temps volts : List Reading) : State :=
  (volts.take 22).zipIdx.foldl (fun (s : State) (x : Reading × Nat) => s.readVolt x.2 x.1)
    ((temps.take 17).zipIdx.foldl (fun (s : State) (x : Reading × Nat) => s.readTemp x.2 x.1) s)

/-- And the firmware has judged them. -/
def State.judgeSensors (s : State) : State :=
  (s.putBit P.THM_STATUS 4 ([8, 9, 10, 11].any (fun i => !(s.sensor i).failed && decide ((s.rd (P.MGT_TEMP i)).toInt < -40000)))).judgeRise.noteLevels.noteCool

theorem sensorConversion_of_running {temps volts : List Reading} (runs : s.running = true) :
    let c := (s.readSensors temps volts).judgeSensors
    sensorConversion temps volts s = if (List.range 16).any c.overLimit then c.startStop (c.overLimit 4 || c.overLimit 5) else c :=
  if_neg (by simp [runs])

/-! ### Throttling (R502) -/

/-- The divisor of a front end takes effect; the one before it is kept for its groups (R125). -/
def State.throttleFe (s : State) (x : Throttle) (k : Nat) : State :=
  let d := x.divs.getD k 1
  let old := s.rdN (P.ADC_THR_DIV k)
  if d = old then s else ({ s with fe := { s.fe with thr := Sparse.put s.fe.thr k (s.now, old) } }).wrN (P.ADC_THR_DIV k) d

theorem State.throttleFe_rdN (x : Throttle) (k j : Nat) :
    (s.throttleFe x k).rdN (P.ADC_THR_DIV j) = if j = k then x.divs.getD k 1 % 4294967296 else s.rdN (P.ADC_THR_DIV j) := by
  unfold State.throttleFe
  dsimp only
  by_cases h : j = k
  · subst h
    rw [if_pos rfl]
    split
    · next e => rw [e, Nat.mod_eq_of_lt (s.rdN_lt _)]
    · exact State.rdN_wrN_same _ _ _
  · have other : P.ADC_THR_DIV j ≠ P.ADC_THR_DIV k := by simp only [P.ADC_THR_DIV]; omega
    rw [if_neg h]
    split
    · rfl
    · exact State.rdN_wrN_other _ _ other
theorem State.throttleFe_mem (x : Throttle) (k : Nat) : (s.throttleFe x k).mem = s.mem := by
  simp [State.throttleFe, apply_ite State.mem]

/-- The divisors of the four front ends take effect. -/
def State.throttleFes (s : State) (x : Throttle) : State := [0, 1, 2, 3].foldl (fun s k => s.throttleFe x k) s

theorem State.throttleFes_rdN (x : Throttle) {k : Nat} (hk : k < 4) : (s.throttleFes x).rdN (P.ADC_THR_DIV k) = x.divs.getD k 1 % 4294967296 := by
  simp only [State.throttleFes, List.foldl_cons, List.foldl_nil, State.throttleFe_rdN]
  interval_cases k <;> rfl
theorem State.throttleFes_mem (x : Throttle) : (s.throttleFes x).mem = s.mem := foldl_view State.mem (fun s k => s.throttleFe_mem x k) _ s

/-- The windrow divisor and the reduction of codes take effect. -/
def State.throttleRest (s : State) (x : Throttle) : State :=
  let old := s.rdN P.TRG_WR_THR_DIV
  ((if x.windrow = old then s else { s with trg := { s.trg with wrThr := (s.now, old) } }).wrN P.TRG_WR_THR_DIV x.windrow).wrN P.COD_THR_REDUCE x.reduce

theorem State.throttleRest_other (x : Throttle) {k : Nat} (hw : k ≠ P.TRG_WR_THR_DIV) (hc : k ≠ P.COD_THR_REDUCE) : (s.throttleRest x).rdN k = s.rdN k := by
  unfold State.throttleRest
  rw [State.rdN_wrN_other _ _ hc, State.rdN_wrN_other _ _ hw]
  split
  · rfl
  · rfl
theorem State.throttleRest_windrow (x : Throttle) : (s.throttleRest x).rdN P.TRG_WR_THR_DIV = x.windrow % 4294967296 := by
  unfold State.throttleRest
  rw [State.rdN_wrN_other _ _ (by decide), State.rdN_wrN_same]
theorem State.throttleRest_reduce (x : Throttle) : (s.throttleRest x).rdN P.COD_THR_REDUCE = x.reduce % 4294967296 := State.rdN_wrN_same _ _ _
theorem State.throttleRest_mem (x : Throttle) : (s.throttleRest x).mem = s.mem := by simp [State.throttleRest, apply_ite State.mem]

theorem State.followLevels_other {k : Nat} (h : k ≠ P.PWR_STATE) : s.followLevels.rdN k = s.rdN k := by
  unfold State.followLevels
  split
  · exact State.rdN_wrN_other _ _ h
  · rfl
theorem State.followLevels_pwr : s.followLevels.pwr = s.pwr := by simp [State.followLevels, apply_ite State.pwr]
theorem State.followLevels_mem : s.followLevels.mem = s.mem := by simp [State.followLevels, apply_ite State.mem]

theorem State.noteSkip_mem (g t : Nat) : (s.noteSkip g t).mem = s.mem := by
  rcases s.noteSkip_cases g t with e | ⟨x, e⟩
  · rw [e]
  · rw [e]; rfl

/-- The decided values have taken effect. -/
def State.takeThrottle (s : State) (x : Throttle) : State :=
  let a := (State.throttleFes (allGroups.foldl (fun s g => s.noteSkip g s.now) s) x).throttleRest x
  (a.setPwr { a.pwr with throttle := none }).followLevels

theorem throttleApply_of_due {x : Throttle} (decided : s.pwr.throttle = some x) (slot : s.now % 1000 = 0) (hc : s.commitDue = false) :
    throttleApply s = s.takeThrottle x := by
  unfold throttleApply
  rw [decided]
  exact if_neg (by simp [slot, hc])

theorem State.takeThrottle_rdN (x : Throttle) {k : Nat} (h : k ≠ P.PWR_STATE) :
    (s.takeThrottle x).rdN k = ((State.throttleFes (allGroups.foldl (fun s g => s.noteSkip g s.now) s) x).throttleRest x).rdN k :=
  State.followLevels_other h
theorem State.takeThrottle_throttle (x : Throttle) : (s.takeThrottle x).pwr.throttle = none := congrArg PwrState.throttle State.followLevels_pwr
theorem State.takeThrottle_mem (x : Throttle) : (s.takeThrottle x).mem = s.mem := by
  have skips : (allGroups.foldl (fun s g => s.noteSkip g s.now) s).mem = s.mem := foldl_view State.mem (fun s g => s.noteSkip_mem g s.now) _ s
  exact State.followLevels_mem.trans ((State.throttleRest_mem x).trans ((State.throttleFes_mem x).trans skips))
theorem State.takeThrottle_div (x : Throttle) {k : Nat} (hk : k < 4) : (s.takeThrottle x).rdN (P.ADC_THR_DIV k) = x.divs.getD k 1 % 4294967296 := by
  have state : P.ADC_THR_DIV k ≠ P.PWR_STATE := by simp only [P.ADC_THR_DIV, P.PWR_STATE]; omega
  have windrow : P.ADC_THR_DIV k ≠ P.TRG_WR_THR_DIV := by simp only [P.ADC_THR_DIV, P.TRG_WR_THR_DIV]; omega
  have reduce : P.ADC_THR_DIV k ≠ P.COD_THR_REDUCE := by simp only [P.ADC_THR_DIV, P.COD_THR_REDUCE]; omega
  rw [State.takeThrottle_rdN x state, State.throttleRest_other x windrow reduce, State.throttleFes_rdN x hk]

/-! ### The orderly stop and its end (R504, R505) -/

section
variable {a : Nat}

section
variable (since : s.pwr.stopSince = some a) (stops : s.pwrState = pwrStopping)
include since stops

theorem stopDrainEnd_of_drained (done : (s.stopActed = true ∧ s.drained = true) ∨ a + msec (s.rdN P.THM_STOP_DRAIN) ≤ s.time) :
    stopDrainEnd s = s.completeStop := by
  unfold stopDrainEnd
  rw [since]
  exact if_pos (by simpa [stops] using done)
theorem stopMaxExpiry_of_due (due : a + msec (s.rdN P.THM_STOP_MAX) ≤ s.time) : stopMaxExpiry s = s.hardTrip := by
  unfold stopMaxExpiry
  rw [since]
  exact if_pos (by simp [stops, due])
end

/-- The memory, the enabled ports, the groups and the sources are as they were before the stop (log 91). -/
def State.restart (s : State) : State :=
  allGroups.foldl State.resumeGroup (allGroups.foldl (fun s g => s.unstopGroup g 3 s.now)
    ([0, 1].foldl (fun s p => if s.portEnabled p && s.lnkPortState p = portFallow then s.wakePort p else s)
      { s with mem := { s.mem with selfRefresh := false } }))
/-- And the module is back in service. -/
def State.serveAgain (s : State) : State :=
  (List.range 64).foldl State.steer (((s.setPwr { s.pwr with therm := false, stopSince := none, stopLanes := false }).setBit P.THM_STATUS 3).wrN P.PWR_STATE
    (if (s.setPwr { s.pwr with therm := false, stopSince := none, stopLanes := false }).throttled then pwrThrottled else pwrInService))

/-- A status bit decides nothing of the throttling. -/
theorem State.throttled_setBit (k i : Nat) : (s.setBit k i).throttled = s.throttled := rfl

/-- What follows the restart is `serveAgain` of whatever it leaves. -/
theorem resume_of_cool (cool : s.pwr.coolSince = some a) (stopped : s.pwrState = pwrStopped) (auto : s.rdN P.THM_AUTO_RESUME ≠ 0)
    (slot : s.now % 1000 = 0) (due : a + secs (s.rdN P.THM_RESUME_HOLD) ≤ s.time) : resume s = s.restart.serveAgain := by
  unfold resume
  rw [cool]
  dsimp only
  rw [if_neg (by simp [stopped, auto, slot, Nat.not_lt.mpr due]), ← State.serveAgain, ← State.restart]

/-! ### Rise events and low temperature (R503, R507) -/

theorem riseEventEnd_of_calm {c : Nat} (rise : s.pwr.rise = some a) (calm : s.pwr.calmSince = some c)
    (due : c + secs (s.rdN P.THM_RESUME_HOLD) ≤ s.time) : riseEventEnd s = ((s.setPwr { s.pwr with rise := none }).noteLevels).noteCool := by
  unfold riseEventEnd
  rw [rise, calm]
  exact if_pos due
theorem riseHoldExpiry_of_due (rise : s.pwr.rise = some a) (due : a + msec (s.rdN P.THM_RISE_HOLD) ≤ s.time) :
    riseHoldExpiry s = s.startStop s.pwr.riseLanes := by
  unfold riseHoldExpiry
  rw [rise]
  exact if_pos due

/-- The groups of a front end that is warm again are released at one instant. -/
theorem lowTempRelease_of_warm {k : Nat} (warm : (s.fePower k).warmSince = some a) (stopped : (s.fePower k).coldStop = true) (slot : s.now % 1000 = 0)
    (due : a + secs 10 ≤ s.time) :
    let b := (State.groupsOf k).foldl (fun s g => s.unstopGroup g 1 s.now) (s.setFePower k { s.fePower k with coldStop := false })
    lowTempRelease k s = (b.putBit P.THM_STATUS 6 b.anyCold).noteCool := by
  unfold lowTempRelease
  dsimp only
  rw [warm]
  exact if_neg (by simp [stopped, slot, Nat.not_lt.mpr due])

theorem hardwareTrip_of_sensor {i : Nat} (hi : i < 16) : hardwareTrip i s = s.hardTrip := by
  have trips : (tripOf i).isSome = true := by
    by_cases h : i < 6 <;> simp [tripOf, classOf, h, hi]
  exact if_pos trips
theorem hardwareTrip_of_crystal : hardwareTrip 16 s = s := rfl
end
end

/-- Settles O49: an equation for each event; of the throttle values what they are afterwards (sensor levels are log 90, the sources driven again log 91). -/
theorem thermalEventsComplete : Obligations.ThermalEventsComplete := by
  unfold Obligations.ThermalEventsComplete
  intro s t r
  refine ⟨?sensors, ?throttle, ?drain, ?longest, ?resumes, ?rise, ?cold, fun i => ⟨?trip, ?crystal⟩⟩
  case sensors => exact fun temps volts runs => congrArg Host.Outcome.next (sensorConversion_of_running runs)
  case throttle =>
    intro x decided slot hc
    exact ⟨r.takeThrottle x, congrArg Host.Outcome.next (throttleApply_of_due decided slot hc), State.takeThrottle_throttle x,
      (State.takeThrottle_rdN x (by decide)).trans (State.throttleRest_windrow x),
      (State.takeThrottle_rdN x (by decide)).trans (State.throttleRest_reduce x), fun k => State.takeThrottle_div x k.isLt, State.takeThrottle_mem x⟩
  case drain => exact fun a since stops done => congrArg Host.Outcome.next (stopDrainEnd_of_drained since stops done)
  case longest => exact fun a since stops due => congrArg Host.Outcome.next (stopMaxExpiry_of_due since stops due)
  case resumes =>
    intro a cool stopped auto slot due
    refine (congrArg Host.Outcome.next (resume_of_cool cool stopped auto slot due)).trans ?_
    dsimp only
    rw [State.throttled_setBit, State.serveAgain, State.restart]
  case rise =>
    exact fun a rise => ⟨fun c calm due => congrArg Host.Outcome.next (riseEventEnd_of_calm rise calm due),
      fun due => congrArg Host.Outcome.next (riseHoldExpiry_of_due rise due)⟩
  case cold =>
    intro k a warm stopped slot due
    have released := lowTempRelease_of_warm warm stopped slot due
    dsimp only at released
    rw [State.foldl_unstopGroup 1 _ rfl] at released
    exact congrArg Host.Outcome.next released
  case trip => exact fun hi => congrArg Host.Outcome.next (hardwareTrip_of_sensor hi)
  case crystal =>
    intro hi
    exact congrArg Host.Outcome.next (hi ▸ hardwareTrip_of_crystal)

end Sys2Proof.Machine
end

section
/-! The statement on what a reset of kind 0, 1 or 2 leaves (R491, R492, R495, R1). -/

namespace Sys2Proof.Machine

/-! ### A view of what the last steps of a reset leave -/

/-- What a reset answers for: the queue, the memories, the commands, the kept management and calibration state, the key fuses, and some parameters. -/
structure Leftovers where
  pending : List Instr
  time : Nat
  outstanding : List Outstanding
  replies : List Reply
  persistLog : List LogEntry
  saved : SavedConfig
  gran : List (Nat × Byte)
  sram : List (Nat × Byte)
  slots : Two CalSlot
  factory : CalSlot
  portal : Bool
  fuses : Nat → Bool × Bool × Nat
  rd : List Word

/-- What a key slot's fuses say. -/
def KeySlot.fuses (x : KeySlot) : Bool × Bool × Nat := (x.enrolled, x.revoked, x.digest)

/-- The view, with the parameters of some keys. -/
def State.leftovers (ks : List Nat) (s : State) : Leftovers :=
  { pending := s.pending, time := s.time, outstanding := s.cmd.outstanding, replies := s.cmd.replies, persistLog := s.mgt.persistLog, saved := s.mgt.saved
    gran := s.mem.gran, sram := s.mem.sram, slots := s.cal.slots, factory := s.cal.factory, portal := s.prt.portal
    fuses := fun k => (s.keySlot k).fuses, rd := ks.map s.rd }

section
variable {ks : List Nat} {s t : State} {k : Nat}

theorem State.rd_of_leftovers (e : t.leftovers ks = s.leftovers ks) (h : k ∈ ks) : t.rd k = s.rd k :=
  List.map_inj_left.mp (congrArg Leftovers.rd e) k h

theorem State.leftovers_wr (v : Word) (h : k ∉ ks) : (s.wr k v).leftovers ks = s.leftovers ks := by
  have reads : ks.map (s.wr k v).rd = ks.map s.rd := List.map_congr_left fun j hj => State.rd_wr_other s v (fun e => h (e ▸ hj))
  unfold State.leftovers
  rw [reads]
  rfl
theorem State.leftovers_wrN (n : Nat) (h : k ∉ ks) : (s.wrN k n).leftovers ks = s.leftovers ks := State.leftovers_wr _ h
theorem State.leftovers_wrI (i : Int) (h : k ∉ ks) : (s.wrI k i).leftovers ks = s.leftovers ks := State.leftovers_wr _ h
theorem State.leftovers_setBit (i : Nat) (h : k ∉ ks) : (s.setBit k i).leftovers ks = s.leftovers ks := State.leftovers_wr _ h
theorem State.leftovers_clrBits (m : Nat) (h : k ∉ ks) : (s.clrBits k m).leftovers ks = s.leftovers ks := State.leftovers_wr _ h
theorem State.leftovers_putBit (i : Nat) (b : Bool) (h : k ∉ ks) : (s.putBit k i b).leftovers ks = s.leftovers ks := by
  cases b
  · exact State.leftovers_clrBits _ h
  · exact State.leftovers_setBit _ h
end

/-! ### The time base (R172, R492) -/

/-- The parameters that the last steps of a reset leave. -/
def resetKeys : List Nat :=
  [P.SYS_NODE_ID, P.REC_RUN, P.PWR_RESET_CAUSE, P.PRT_ENABLE, P.RED_DIE_STATE 0, P.RED_DIE_STATE 1, P.RED_GRN_SLICE_FAIL 0, P.RED_GRN_SLICE_FAIL 1]

/-- The view of those steps. -/
def State.left (s : State) : Leftovers := s.leftovers resetKeys

section
variable {s : State} {k : Nat}

theorem State.wr_left (v : Word) (h : k ∉ resetKeys) : (s.wr k v).left = s.left := State.leftovers_wr v h
theorem State.wrN_left (n : Nat) (h : k ∉ resetKeys) : (s.wrN k n).left = s.left := State.leftovers_wrN n h
theorem State.wrI_left (i : Int) (h : k ∉ resetKeys) : (s.wrI k i).left = s.left := State.leftovers_wrI i h
theorem State.setBit_left (i : Nat) (h : k ∉ resetKeys) : (s.setBit k i).left = s.left := State.leftovers_setBit i h
theorem State.clrBits_left (m : Nat) (h : k ∉ resetKeys) : (s.clrBits k m).left = s.left := State.leftovers_clrBits m h
theorem State.putBit_left (i : Nat) (b : Bool) (h : k ∉ resetKeys) : (s.putBit k i b).left = s.left := State.leftovers_putBit i b h

/-! What the steps of the time base change lies outside the view. -/

@[simp] theorem State.setTb_left (x : TbState) : (s.setTb x).left = s.left := rfl
@[simp] theorem State.writeFreq_left : s.writeFreq.left = s.left := State.wrI_left _ (by decide)
@[simp] theorem State.slewBy_left (c : Int) : (s.slewBy c).left = s.left := State.writeFreq_left.trans (State.putBit_left _ _ (by decide))
@[simp] theorem State.setSteer_left (f : Int) : (s.setSteer f).left = s.left := State.writeFreq_left
@[simp] theorem State.newSteer_left : s.newSteer.left = s.left := State.setSteer_left _
@[simp] theorem State.modelSteer_left : s.modelSteer.left = s.left := by
  unfold State.modelSteer
  split
  · exact State.newSteer_left
  · exact State.setSteer_left _
@[simp] theorem State.setPhase_left (c : Int) : (s.setPhase c).left = s.left := rfl
@[simp] theorem State.enterTb_left (st : Nat) : (s.enterTb st).left = s.left := State.wrN_left _ (by decide)
@[simp] theorem State.startEstimate_left (c : Int) : (s.startEstimate c).left = s.left := rfl

@[simp] theorem State.enterHoldover_left : s.enterHoldover.left = s.left := by
  simp (disch := decide) [State.enterHoldover, State.wrN_left, State.setBit_left, State.clrBits_left]
@[simp] theorem State.enterRecovery_left (c : Int) : (s.enterRecovery c).left = s.left := by
  simp [State.enterRecovery, apply_ite State.left]
@[simp] theorem State.loseSource_left : s.loseSource.left = s.left := by
  simp (disch := decide) [State.loseSource, State.wrN_left, State.clrBits_left, apply_ite State.left]
@[simp] theorem State.haveSource_left (f : Nat) : (s.haveSource f).left = s.left := by
  simp (disch := decide) [State.haveSource, State.wrN_left, apply_ite State.left]
@[simp] theorem State.switchDomain_left (old : Option Nat) (d : Nat) : (s.switchDomain old d).left = s.left := by
  simp (disch := decide) [State.switchDomain, State.wrN_left, State.setBit_left, apply_ite State.left]
@[simp] theorem State.followDomain_left : s.followDomain.left = s.left := by
  unfold State.followDomain
  split <;> simp [apply_ite State.left]
@[simp] theorem State.followOwn_left : s.followOwn.left = s.left := by
  simp (disch := decide) [State.followOwn, State.localPhase, State.wrN_left, State.setBit_left, apply_ite State.left]

theorem State.noteDomain_left {d : Nat} (hd : d < 2) : (s.noteDomain d).left = s.left := by
  have offset : P.TB_OFFSET d ∉ resetKeys := by interval_cases d <;> decide
  have hops : P.TB_HOPS d ∉ resetKeys := by interval_cases d <;> decide
  simp (disch := decide) [State.noteDomain, State.wr_left _ offset, State.wrN_left _ offset, State.wrN_left _ hops, State.setBit_left, apply_ite State.left]
@[simp] theorem State.lockReturned_left : s.lockReturned.left = s.left := by
  unfold State.lockReturned
  split
  · split <;> rfl
  · rfl
@[simp] theorem State.noteLock_left : s.noteLock.left = s.left := by
  have shown (x : RecState) (b : Bool) : State.left { s.putBit P.TB_STATUS 0 b with recs := x } = s.left := State.putBit_left 0 b (by decide)
  unfold State.noteLock
  dsimp only
  split
  · rfl
  · split
    · exact State.lockReturned_left.trans (shown _ _)
    · exact (State.setBit_left _ (by decide)).trans (shown _ _)
@[simp] theorem State.tbNote_left : s.tbNote.left = s.left := by
  simp (disch := decide) [State.tbNote, State.noteDomain_left, State.wrN_left]
@[simp] theorem State.tbUpdate_left : s.tbUpdate.left = s.left := by simp [State.tbUpdate, apply_ite State.left]
@[simp] theorem State.endTest_left : s.endTest.left = s.left := by
  simp (disch := decide) [State.endTest, State.setBit_left, apply_ite State.left]
end

/-! ### The host port, calibration and the boot (R351, R435, R470) -/

section
variable {s : State}

theorem State.endHere_left {p : Nat} (hp : p < 2) : (s.endHere p).left = s.left := by
  have hops : P.CLP_POS_HOPS p ∉ resetKeys := by interval_cases p <;> decide
  have ends : P.CLP_POS_END p ∉ resetKeys := by interval_cases p <;> decide
  exact (State.wrN_left _ ends).trans (State.wrN_left _ hops)

/-- No parameter of the view is a calibration item. -/
theorem isCalItem_resetKeys {k : Nat} (h : k ∈ resetKeys) : isCalItem k = false := by
  revert k
  decide

/-- A filter that keeps a key keeps what is found there, and so what is read. -/
theorem Sparse.find?_filter {α : Type} (f : Nat → Bool) {k : Nat} (hk : f k = true) (m : List (Nat × α)) :
    Sparse.find? (m.filter (fun e => f e.1)) k = Sparse.find? m k := by
  induction m with
  | nil => rfl
  | cons e m ih =>
    obtain ⟨a, v⟩ := e
    by_cases fa : f a = true
    · simp [fa, Sparse.find?, ih]
    · have other : a ≠ k := fun e => fa (e ▸ hk)
      simp [fa, Sparse.find?, other, ih]
theorem Sparse.get_filter {α : Type} (d : α) (f : Nat → Bool) {k : Nat} (hk : f k = true) (m : List (Nat × α)) :
    Sparse.get d (m.filter (fun e => f e.1)) k = Sparse.get d m k := congrArg (Option.getD · d) (Sparse.find?_filter f hk m)

theorem State.dropCal_left : State.left { s with par := s.par.filter (fun e => !isCalItem e.1) } = s.left := by
  have reads : resetKeys.map (State.rd { s with par := s.par.filter (fun e => !isCalItem e.1) }) = resetKeys.map s.rd :=
    List.map_congr_left fun k hk => Sparse.get_filter _ (fun k => !isCalItem k) (by simp [isCalItem_resetKeys hk]) s.par
  unfold State.left State.leftovers
  rw [reads]
  rfl

/-- The calibration items of a record are put in place. -/
def State.putCal (s : State) (x : CalSlot) : State := (x.body.filter (fun e => isCalItem e.1)).foldl (fun s (kv : Nat × Word) => s.wr kv.1 kv.2) s

theorem State.putCal_left (x : CalSlot) : (s.putCal x).left = s.left := by
  refine List.foldlRecOn (motive := fun (t : State) => t.left = s.left) _ _ rfl fun t ih e he => ?_
  have item : e.1 ∉ resetKeys := fun h => by simp [isCalItem_resetKeys h] at he
  exact (State.wr_left _ item).trans ih

@[simp] theorem State.loadCal_left : s.loadCal.left = s.left := by
  have put (x : CalSlot) : (State.putCal { s with par := s.par.filter (fun e => !isCalItem e.1) } x).left = s.left :=
    (State.putCal_left x).trans State.dropCal_left
  have slot (t : State) (i n : Nat) : ((t.wrN P.CAL_SLOT_IN_FORCE i).wrN P.CAL_SLOT_SEQ n).left = t.left :=
    (State.wrN_left _ (by decide)).trans (State.wrN_left _ (by decide))
  unfold State.loadCal
  dsimp only
  split
  · exact (slot _ _ _).trans (put _)
  · split
    · exact (slot _ _ _).trans (put _)
    · exact (State.setBit_left _ (by decide)).trans ((slot _ _ _).trans (put _))

/-! The boot (R470, R476). -/

theorem State.setFlash_left (d : Nat) (x : Flash) : (s.setFlash d x).left = s.left := rfl
theorem State.logEvent_left (code unit severity data0 data1 : Nat) : (s.logEvent code unit severity data0 data1).left = s.left := rfl

@[simp] theorem State.failTrial_left (d : Nat) : (s.failTrial d).left = s.left := by
  simp (disch := decide) [State.failTrial, State.setBit_left, State.setFlash_left, State.logEvent_left, apply_ite State.left]

/-- A key slot that keeps its fuses keeps the view. -/
theorem State.setKeySlot_left {k : Nat} {x : KeySlot} (hx : x.fuses = (s.keySlot k).fuses) : (s.setKeySlot k x).left = s.left := by
  have fuses : (fun j => ((s.setKeySlot k x).keySlot j).fuses) = fun j => (s.keySlot j).fuses := by
    funext j
    by_cases h : j = k
    · subst h
      exact (congrArg KeySlot.fuses (Sparse.get_set_same _ _ _ _)).trans hx
    · exact congrArg KeySlot.fuses (Sparse.get_set_other _ _ _ _ _ _ h)
  unfold State.left State.leftovers
  rw [fuses]
  rfl

@[simp] theorem State.loadKeys_left : s.loadKeys.left = s.left := by
  unfold State.loadKeys
  refine foldl_view State.left (fun s k => ?_) _ s
  dsimp only
  split
  · exact State.setKeySlot_left rfl
  · rfl

@[simp] theorem State.bootSelect_left : s.bootSelect.left = s.left := by
  have trials : ((s.failTrial 0).failTrial 1).left = s.left := by simp
  unfold State.bootSelect
  dsimp only
  split
  · exact trials
  · have logged (a : State) (unit severity data0 data1 : Nat) : State.left { a.logEvent 0x1101 unit severity data0 data1 with
      pwr := { (a.logEvent 0x1101 unit severity data0 data1).pwr with firmware := true } } = a.left := rfl
    have written {a : State} {k n : Nat} (h : k ∉ resetKeys) (e : a.left = s.left) : (a.wrN k n).left = s.left := (State.wrN_left n h).trans e
    refine State.loadKeys_left.trans ((logged _ _ _ _ _).trans ?_)
    refine written (by decide) (written (by decide) (written (by decide) (written (by decide) (written (by decide) ?_))))
    split
    · exact trials
    · exact trials

end

/-! ### The configuration (R492, R493) -/

section
variable {s : State}

/-- The dies' states. -/
def dieKeys : List Nat := [P.RED_DIE_STATE 0, P.RED_DIE_STATE 1]

/-- They are no part of the saved configuration. -/
theorem saved_dieKeys {k : Nat} (h : k ∈ dieKeys) : Params.saved k = false := by
  revert k
  decide

theorem State.loadConfig_leftovers (fromReset : Bool) : (s.loadConfig fromReset).leftovers dieKeys = s.leftovers dieKeys := by
  have numbered (n : Nat) : (s.wrN P.PWR_CFG_SEQ n).leftovers dieKeys = s.leftovers dieKeys := State.leftovers_wrN n (by decide)
  unfold State.loadConfig
  dsimp only
  split
  · exact numbered _
  · refine List.foldlRecOn (motive := fun (t : State) => t.leftovers dieKeys = s.leftovers dieKeys) _ _ (numbered _) fun t ih e he => ?_
    have other : e.1 ∉ dieKeys := fun h => by simp [saved_dieKeys h] at he
    exact (State.leftovers_wr _ other).trans ih
end

/-! ### The reset (R491, R492, R495) -/

section
variable {s : State} {kind cause : Nat}

/-- The LK is not reset: kind 2, where the role in force is the one asked for (log 93). -/
def State.keepsLk (s : State) (kind : Nat) : Bool := kind == 2 && (s.rdN P.PRT_ENABLE == 1) == s.prt.portal

/-- The units at their reset values with the configuration loaded. -/
def State.reloaded (s : State) (kind : Nat) : State := (s.cleared (s.keepsLk kind)).loadConfig (s.rdN P.PWR_CFG_SOURCE == 1)

/-- The failed slices are marked again, unless the Granary is initialised (R274). -/
def State.remarked (s : State) (kind : Nat) : State :=
  if kind = 0 then s.reloaded kind
  else ((s.reloaded kind).wrN (P.RED_GRN_SLICE_FAIL 0) (s.sliceFail 0)).wrN (P.RED_GRN_SLICE_FAIL 1) (s.sliceFail 1)

/-- The node ID stays, the run and the log go on, and the cause is shown. -/
def State.numbered (s : State) (kind cause : Nat) : State :=
  let a := ((s.remarked kind).wrN P.SYS_NODE_ID (s.rdN P.SYS_NODE_ID)).wrN P.REC_RUN ((s.rdN P.REC_RUN + 1) % 256)
  let a := a.wrN P.PWR_RESET_CAUSE cause
  a.wrN P.MGT_LOG_SEQ a.nextLogSeq

/-- The role follows PRT_ENABLE (R1). -/
def State.roleTaken (s : State) : State := { s with prt := { s.prt with portal := s.rdN P.PRT_ENABLE == 1 } }

/-- The last steps: the host port, the time base, calibration and the boot. -/
def State.finishReset (s : State) : State :=
  let s := if s.prt.portal then (s.wrN (P.LNK_PORT_STATE 2) portHost).endHere (1 - s.ringLink) else s
  let s := if s.ownSource then s.tbUpdate else s
  let s := if s.tb.testing && s.tb.loopTests.isEmpty then s.endTest else s
  let s := s.loadCal.bootSelect
  s.setPwr { s.pwr with resetEnd := s.time }

theorem State.reloadReset_eq : s.reloadReset kind cause = (s.numbered kind cause).roleTaken.finishReset := by
  unfold State.reloadReset
  extract_lets lk fromReset id run slices loaded marked named shown role host time test last
  have hLoaded : loaded = s.reloaded kind := rfl
  clear_value loaded
  subst hLoaded
  have hMarked : marked = s.remarked kind := rfl
  clear_value marked
  subst hMarked
  have hShown : shown = s.numbered kind cause := rfl
  clear_value shown
  subst hShown
  rfl

theorem State.finishReset_left : s.finishReset.left = s.left := by
  have host : (if s.prt.portal then (s.wrN (P.LNK_PORT_STATE 2) portHost).endHere (1 - s.ringLink) else s).left = s.left := by
    split
    · exact (State.endHere_left (by omega)).trans (State.wrN_left _ (by decide))
    · rfl
  have time (a : State) : (if a.ownSource then a.tbUpdate else a).left = a.left := by simp [apply_ite State.left]
  have test (a : State) : (if a.tb.testing && a.tb.loopTests.isEmpty then a.endTest else a).left = a.left := by simp [apply_ite State.left]
  exact State.bootSelect_left.trans (State.loadCal_left.trans ((test _).trans ((time _).trans host)))

/-! What the steps before leave in place. -/

theorem State.remarked_leftovers : (s.remarked kind).leftovers dieKeys = (s.reloaded kind).leftovers dieKeys := by
  unfold State.remarked
  split
  · rfl
  · exact (State.leftovers_wrN _ (by decide)).trans (State.leftovers_wrN _ (by decide))
theorem State.numbered_leftovers : (s.numbered kind cause).leftovers dieKeys = (s.cleared (s.keepsLk kind)).leftovers dieKeys := by
  have written {a b : State} {k n : Nat} (h : k ∉ dieKeys) (e : a.leftovers dieKeys = b.leftovers dieKeys) :
      (a.wrN k n).leftovers dieKeys = b.leftovers dieKeys := (State.leftovers_wrN n h).trans e
  exact written (by decide) (written (by decide) (written (by decide) (written (by decide)
    (State.remarked_leftovers.trans (State.loadConfig_leftovers _)))))

theorem State.numbered_nodeId : (s.numbered kind cause).rdN P.SYS_NODE_ID = s.rdN P.SYS_NODE_ID := by
  unfold State.numbered
  rw [State.rdN_wrN_other _ _ (by decide), State.rdN_wrN_other _ _ (by decide), State.rdN_wrN_other _ _ (by decide), State.rdN_wrN_same,
    Nat.mod_eq_of_lt (s.rdN_lt _)]
theorem State.numbered_run : (s.numbered kind cause).rdN P.REC_RUN = (s.rdN P.REC_RUN + 1) % 256 := by
  unfold State.numbered
  rw [State.rdN_wrN_other _ _ (by decide), State.rdN_wrN_other _ _ (by decide), State.rdN_wrN_same]
  omega
theorem State.numbered_cause (hc : cause < 4294967296) : (s.numbered kind cause).rdN P.PWR_RESET_CAUSE = cause := by
  unfold State.numbered
  rw [State.rdN_wrN_other _ _ (by decide), State.rdN_wrN_same, Nat.mod_eq_of_lt hc]
theorem State.numbered_sliceFail (hk : kind ≠ 0) {d : Nat} (hd : d < 2) : (s.numbered kind cause).sliceFail d = s.sliceFail d := by
  have other {k : Nat} (hs : k ≠ P.SYS_NODE_ID) (hr : k ≠ P.REC_RUN) (hc : k ≠ P.PWR_RESET_CAUSE) (hl : k ≠ P.MGT_LOG_SEQ) :
      (s.numbered kind cause).rdN k = (s.remarked kind).rdN k := by
    unfold State.numbered
    rw [State.rdN_wrN_other _ _ hl, State.rdN_wrN_other _ _ hc, State.rdN_wrN_other _ _ hr, State.rdN_wrN_other _ _ hs]
  unfold State.sliceFail
  obtain rfl | rfl : d = 0 ∨ d = 1 := by omega
  · rw [other (by decide) (by decide) (by decide) (by decide), State.remarked, if_neg hk, State.rdN_wrN_other _ _ (by decide), State.rdN_wrN_same]
    exact Nat.mod_eq_of_lt (s.rdN_lt _)
  · rw [other (by decide) (by decide) (by decide) (by decide), State.remarked, if_neg hk, State.rdN_wrN_same]
    exact Nat.mod_eq_of_lt (s.rdN_lt _)

/-- But for kind 2 the LK is reset, so both dies boot. -/
theorem State.cleared_dieState {d : Nat} (hk : kind ≠ 2) (hd : d < 2) : (s.cleared (s.keepsLk kind)).dieState d = dieBoot := by
  have reset : s.keepsLk kind = false := by simp [State.keepsLk, hk]
  rw [reset]
  exact State.reset_dieState d hd
end

/-- Settles O53: the steps after the role is taken leave the view of it, and the steps before set what it holds (that the memories list no byte and that the
time is 0 are logs 5 and 93). -/
theorem reloadResetLeaves : Obligations.ReloadResetLeaves := by
  unfold Obligations.ReloadResetLeaves
  intro s kind cause hc u
  have left : u.left = (s.numbered kind cause).roleTaken.left := (congrArg State.left State.reloadReset_eq).trans State.finishReset_left
  have reads {k : Nat} (hk : k ∈ resetKeys) : u.rdN k = (s.numbered kind cause).rdN k :=
    congrArg BitVec.toNat (State.rd_of_leftovers (ks := resetKeys) (s := (s.numbered kind cause).roleTaken) left hk)
  have before : (s.numbered kind cause).leftovers dieKeys = (s.cleared (s.keepsLk kind)).leftovers dieKeys := State.numbered_leftovers
  have boots {d : Nat} (hk : kind ≠ 2) (hd : d < 2) (hr : P.RED_DIE_STATE d ∈ resetKeys) (he : P.RED_DIE_STATE d ∈ dieKeys) : u.dieState d = dieBoot :=
    (reads hr).trans ((congrArg BitVec.toNat (State.rd_of_leftovers before he)).trans (State.cleared_dieState hk hd))
  refine ⟨?id, ?run, ?cause, ?outstanding, ?replies, ?persistLog, ?saved, ?gran, ?sram, ?pending, fun hk => ⟨?time, ?dieA, ?dieB⟩, ?slots, ?factory, ?fuses,
    ?role, ?slices⟩
  case id => exact BitVec.eq_of_toNat_eq ((reads (by decide)).trans State.numbered_nodeId)
  case run => exact (reads (by decide)).trans State.numbered_run
  case cause => exact (reads (by decide)).trans (State.numbered_cause hc)
  case outstanding => exact (congrArg Leftovers.outstanding left).trans (congrArg Leftovers.outstanding before)
  case replies => exact (congrArg Leftovers.replies left).trans (congrArg Leftovers.replies before)
  case persistLog => exact (congrArg Leftovers.persistLog left).trans (congrArg Leftovers.persistLog before)
  case saved => exact (congrArg Leftovers.saved left).trans (congrArg Leftovers.saved before)
  case gran => exact (congrArg Leftovers.gran left).trans (congrArg Leftovers.gran before)
  case sram => exact (congrArg Leftovers.sram left).trans (congrArg Leftovers.sram before)
  case pending => exact (congrArg Leftovers.pending left).trans (congrArg Leftovers.pending before)
  case time =>
    have reset : s.keepsLk kind = false := by simp [State.keepsLk, hk]
    refine (congrArg Leftovers.time left).trans ((congrArg Leftovers.time before).trans ?_)
    rw [reset]
    rfl
  case dieA => exact boots hk (by decide) (by decide) (by decide)
  case dieB => exact boots hk (by decide) (by decide) (by decide)
  case slots => exact (congrArg Leftovers.slots left).trans (congrArg Leftovers.slots before)
  case factory => exact (congrArg Leftovers.factory left).trans (congrArg Leftovers.factory before)
  case fuses =>
    intro k
    have fuses : (u.keySlot k).fuses = (s.keySlot k).fuses :=
      (congrFun (congrArg Leftovers.fuses left) k).trans (congrFun (congrArg Leftovers.fuses before) k)
    simpa [KeySlot.fuses] using fuses
  case role =>
    have role : u.prt.portal = ((s.numbered kind cause).rdN P.PRT_ENABLE == 1) := congrArg Leftovers.portal left
    rw [role, reads (by decide)]
  case slices =>
    intro hk d
    exact (reads (by fin_cases d <;> decide)).trans (State.numbered_sliceFail hk d.isLt)

end Sys2Proof.Machine
end
